-- ==== Sys2Proof/Word.lean ====
section
/-! DEFINITION. The word type of the SLQ-648 and its plainest arithmetic: 32-bit register words (R7), signed readings
of a field, and the little helpers over numbers and vectors that every chapter uses. -/

namespace Sys2Proof

/-- A register or memory word: 32 bits (R7). -/
abbrev Word := BitVec 32

/-- The signed reading of the low `w` bits of `n` (two's complement). -/
def sgn (w n : Nat) : Int :=
  let m := n % 2 ^ w
  if 2 * m < 2 ^ w then (m : Int) else (m : Int) - (2 ^ w : Nat)

/-- The `w`-bit two's-complement code of an integer, modulo `2^w`. -/
def uns (w : Nat) (i : Int) : Nat := (i % ((2 ^ w : Nat) : Int)).toNat

/-- An integer held within `lo` and `hi`. -/
def clampI (lo hi i : Int) : Int := if i < lo then lo else if hi < i then hi else i

/-- Bit `b` of a natural number. -/
def bitAt (n b : Nat) : Bool := n / 2 ^ b % 2 == 1

/-- Bits `lo` to `lo + w - 1` of a natural number. -/
def bitsAt (n lo w : Nat) : Nat := n / 2 ^ lo % 2 ^ w

/-- A Boolean as a bit. -/
def b2n (b : Bool) : Nat := if b then 1 else 0

/-- One element of a vector replaced. -/
def upd {α : Type} {n : Nat} (v : Vector α n) (i : Fin n) (x : α) : Vector α n := v.set i.val x i.isLt

/-- The value of a boundary-table entry, `d` past the end of the list. -/
def nth {α : Type} (l : List α) (i : Nat) (d : α) : α := (l[i]?).getD d

end Sys2Proof
end

