-- ==== Sys2Proof/Syntax.lean ====
section
/-! DEFINITION. The commands and events of the SLQ-648 as plain data: one constructor a row of spec/opcode_table.json,
with the row's operands. An event's operands carry what the outside world or an analogue part supplies (a measured code,
a received word, a verdict). -/

namespace Sys2Proof

/-- Motor cluster MC0 to MC5. -/
abbrev Mcn := Fin 6
/-- Cluster: 0 to 5 MC0 to MC5, 6 SC0, 7 SC1 (DEV_SWAP.cluster_mask order). -/
abbrev Cl := Fin 8
/-- Stepper channel ST0 to ST7. -/
abbrev Chan := Fin 8
/-- Region, and its Polrex die: 0 DA / Polrex A, 1 DB / Polrex B. -/
abbrev Rg := Fin 2
/-- ADC group of R111: 0 to 5 motor clusters, 6 DA, 7 DB, 8 Kilid. -/
abbrev Grp := Fin 9
/-- CAN controller. -/
abbrev Can := Fin 3
/-- An ADC code (R112). -/
abbrev Code := BitVec 14

/-- An axis of motion: a motor cluster or a stepper channel (R220). -/
inductive Axis where
  | mc (n : Mcn) | st (k : Chan)
  deriving DecidableEq, Repr

/-- A port that makes register accesses (R9, R382): the host port, or the diagnostic access of a CAN controller. -/
inductive Port where
  | host | diag (n : Can)
  deriving DecidableEq, Repr

/-- A lane job (R171) with its owner. -/
inductive JobId where
  | cur (n : Mcn) | obs (n : Mcn) | spd (n : Mcn) | pos (n : Mcn) | prof (a : Axis) | ccur (n : Mcn) | cvolt (n : Mcn)
  | thermM (n : Mcn) | thermR (r : Rg) | atlas (n : Mcn) | trace (u : Fin 4) | ltest (l : Fin 8)
  deriving DecidableEq, Repr

/-- A conversion whose result is ready (R112, R130), with its corrected codes: a regular or an injected entry, the three
currents of a sample or one phase current of a converter (with the spare amplifier's code, where the spare slice converts
it, R116), a graticule conversion, or a phase voltage of the terminal-voltage tracker (R152). -/
inductive Result where
  | regular (k : Fin 16) (code : Code) | injected (k : Fin 4) (code : Code)
  | currents (u v w : Code) (spare : Option Code) | current (p : Fin 3) (code : Code) (spare : Option Code)
  | graticule (code : Code) | tracker (code : Code)
  deriving DecidableEq, Repr

/-- The ECC errors that a reading of sheets meets, in order: the sheet, and whether the error is uncorrectable (R201, R216). -/
abbrev Ecc := List (Fin 4096 × Bool)

/-- A transition of the quadrature inputs (R142). -/
inductive Quad where
  | up | down | illegal
  deriving DecidableEq, Repr

/-- What the clock check finds (R328): no deviation, a deviation that the spare oscillator does not confirm, or one that
the spare confirms. -/
inductive ClockVerdict where
  | good | spareAgreesSystem | spareAgreesOscillator
  deriving DecidableEq, Repr

/-- The readings of a thermal pass (R296): hot-spot codes of Kilid (7 sensors), Polrex A and Polrex B (13 each), and the
codes of TH0 to TH3. -/
structure ThermIn where
  kilid : Vector Code 7
  polA  : Vector Code 13
  polB  : Vector Code 13
  th    : Vector Code 4
  deriving DecidableEq, Repr

/-- A received CAN frame (R407, R413): identifier, 29-bit format, FD format, rate switch, error state indicator, remote
request, data. -/
structure Frame where
  id   : BitVec 29
  ext  : Bool
  fd   : Bool
  brs  : Bool
  esi  : Bool
  rtr  : Bool
  data : List (BitVec 8)
  deriving DecidableEq, Repr

/-- Errors a controller sees on the bus (R407). -/
inductive BusErr where
  | stuff | form | ack | bit1 | bit0 | crc
  deriving DecidableEq, Repr

/-- What a controller was sending: a transmit buffer, a diagnostic response (R435), or the announcement (R373). -/
inductive TxWho where
  | buf (b : Fin 32) | diag | ann
  deriving DecidableEq, Repr

/-- End of a transmission attempt (R427): sent, lost arbitration, ended by a bit error of R433 (a recessive bit of the
control, data or CRC field read dominant), or by another error; `flagDom` says that the error flag met a dominant bit. -/
inductive TxEnd where
  | ok | arbLost | clash (dataPhase : Bool) | error (e : BusErr) (dataPhase : Bool) (flagDom : Bool)
  deriving DecidableEq, Repr


/-- The commands and events of the SLQ-648: one constructor a row of spec/opcode_table.json, in its order. The first
operand of each is the time, in ticks of 2 ns (R47), that has passed since the previous command. -/
inductive Instr where
  /-- ARM (R23): Cluster command ARM is checked in order and moves a STOPPED cluster to ARMED, with precharge and offset measurement. -/
  | arm (dt : Nat) (c : Cl)
  /-- DISARM (R20): Cluster command DISARM returns an ARMED cluster to STOPPED. -/
  | disarm (dt : Nat) (c : Cl)
  /-- START (R20): Cluster command START moves an ARMED cluster to STARTING; it is refused in STOPPING or under a cold block. -/
  | start (dt : Nat) (c : Cl)
  /-- STOP (R20): Cluster command STOP moves a STARTING or RUNNING cluster to STOPPING and begins the stop ramps. -/
  | stop (dt : Nat) (c : Cl)
  /-- SAFE (R20): Cluster command SAFE moves an active cluster to SAFE and applies its safe state. -/
  | safe (dt : Nat) (c : Cl)
  /-- CLEAR (R22): Cluster command CLEAR returns a FAULTED cluster to STOPPED when no source of severity SAFE or above is asserted. -/
  | clear (dt : Nat) (c : Cl)
  /-- COPY_SHADOW (R30): Command that starts copying the active set into the shadow; it is refused while a swap is pending. -/
  | copyShadow (dt : Nat) (c : Cl)
  /-- COPY_SHADOW_DONE (R30): The shadow copy completes within 50 us and SW writes are accepted again. -/
  | copyShadowDone (dt : Nat) (c : Cl)
  /-- CLUSTER_BAD_CMD (R20): A write of an undefined cluster command code is refused with BAD_CMD. -/
  | clusterBadCmd (dt : Nat) (c : Cl)
  /-- ARM_TIMEOUT_EXPIRY (R20): arm_timeout expires in ARMED and the cluster is disarmed to STOPPED. -/
  | armTimeoutExpiry (dt : Nat) (c : Cl)
  /-- REST_CONDITION_MET (R21): The rest condition holds for its time, and STOPPING goes to STOPPED or SAFE goes to FAULTED. -/
  | restConditionMet (dt : Nat) (c : Cl)
  /-- RUN (R25): Device command RUN moves the device from READY to RUN. -/
  | run (dt : Nat)
  /-- HALT (R26): Device command HALT moves the device to BIVOUAC, with every cluster in SAFE. -/
  | halt (dt : Nat)
  /-- RESUME (R26): Device command RESUME returns the device from BIVOUAC to RUN when no HALT source is asserted. -/
  | resume (dt : Nat)
  /-- RECOVER (R362): Device command RECOVER writes a logbook record, resets the blocks and starts a new image load. -/
  | recover (dt : Nat)
  /-- CLUSTER_SWAP_REQUEST (R28): A write of MC_SWAP.go runs the agreement checks and locks the shadow, or rejects the swap with a reason. -/
  | clusterSwapRequest (dt : Nat) (c : Cl) (ecc : Ecc)
  /-- CLUSTER_SWAP_TAKES_EFFECT (R28): A pending cluster swap exchanges the active and shadow sets and the banks at the next sample boundary. -/
  | clusterSwapTakesEffect (dt : Nat) (c : Cl)
  /-- DEVICE_SWAP_REQUEST (R32): A write of DEV_SWAP.go checks every selected set, then pends the swap or refuses it. -/
  | deviceSwapRequest (dt : Nat) (ecc : Ecc)
  /-- DEVICE_SWAP_AT_FRAME (R32): A pending device swap changes every selected set at its SYNC frame boundary. -/
  | deviceSwapAtFrame (dt : Nat)
  /-- BUS_ABSENT (R15): VS of a region falls below the presence threshold; active clusters of the region enter SAFE. -/
  | busAbsent (dt : Nat) (r : Rg)
  /-- BUS_PRESENT (R15): VS has stayed above the rising presence threshold for its filter time and the bus counts as present. -/
  | busPresent (dt : Nat) (r : Rg)
  /-- LINK_FRAME (R16): A link frame carrying results, compare values, commands or status is received. -/
  | linkFrame (dt : Nat) (d : Rg) (toKilid : Bool) (bad : List (Fin 5))
  /-- LINK_LOSS (R17): No valid link frame has arrived for 6 us; the Polrex die applies the safe state by itself. -/
  | linkLoss (dt : Nat) (d : Rg)
  /-- LINK_RETRAIN_ATTEMPT (R16): Kilid tries to retrain a lost link every 1 ms. -/
  | linkRetrainAttempt (dt : Nat) (d : Rg)
  /-- LINK_RESTORED (R19): The link is restored; the die reports its known-short record and its buffered raisings. -/
  | linkRestored (dt : Nat) (d : Rg)
  /-- LINK_LANE_RETRAINING (R332): A link lane at its limit, or out of symbol lock, is replaced by the spare within 2 us. -/
  | linkLaneRetraining (dt : Nat) (d : Rg) (toKilid : Bool) (lane : Fin 5)
  /-- DRIVE_SUPPLY_LOSS (R18): A Polrex logic supply or VCC falls below its threshold, with the effect of link loss. -/
  | driveSupplyLoss (dt : Nat) (d : Rg)
  /-- SUPPLY_MONITOR_CROSSING (R442): A supply monitor crosses its threshold after its filter and raises supply-warn or its other effect. -/
  | supplyMonitorCrossing (dt : Nat) (m : Fin 8) (low : Bool)
  /-- VDDC_RESET (R25): VDDC below its reset threshold sends the device to OFF. -/
  | vddcReset (dt : Nat)
  /-- RESET_N_ASSERT (R444): RESET_N asserted sends the device to OFF; the Polrex dies hold their safe state. -/
  | resetNAssert (dt : Nat)
  /-- RESET_N_RELEASE (R345): RESET_N released with all supplies good enters BASECAMP and brings up the memory port. -/
  | resetNRelease (dt : Nat) (sess : BitVec 64)
  /-- SYNC_EDGE (R76): A rising SYNC edge within the window is taken as a frame start, frame 0 if it is long. -/
  | syncEdge (dt : Nat) (long : Bool)
  /-- SYNC_WINDOW_CLOSE (R76): The SYNC window closes without an edge; the slave places the boundary itself and counts a missing frame. -/
  | syncWindowClose (dt : Nat)
  /-- FRAME_BOUNDARY (R80): At each internal frame boundary the datum snapshots are latched and aligned carriers are corrected in phase. -/
  | frameBoundary (dt : Nat) (wrongLevel : Bool)
  /-- EDGE_TIME_COMMIT (R56): An entry's edge time becomes committed 2 us before it falls due. -/
  | edgeTimeCommit (dt : Nat) (n : Mcn) (k : Fin 64)
  /-- GRATICULE_FIRING (R58): A graticule entry falls due and acts by its type. -/
  | graticuleFiring (dt : Nat) (n : Mcn) (k : Fin 64)
  /-- RATIO_CROSSING (R68): The datum passes 0 degrees electrical and the synchronous-carrier entry is selected afresh. -/
  | ratioCrossing (dt : Nat) (n : Mcn)
  /-- COUNTER_ZERO (R83): The carrier reaches counter zero: the currents are held, periods are counted and refresh pulses end. -/
  | counterZero (dt : Nat) (n : Mcn) (p : Fin 3)
  /-- PERIOD_EVENT (R83): The carrier reaches its period event and the falling half begins. -/
  | periodEvent (dt : Nat) (n : Mcn) (p : Fin 3)
  /-- COMPARE_APPLY (R107): New compare values arrive at the PWM unit and act in the present or the next half-period. -/
  | compareApply (dt : Nat) (n : Mcn)
  /-- SECTOR_BOUNDARY (R95): A predicted block-commutation sector boundary is reached and the sector advances. -/
  | sectorBoundary (dt : Nat) (n : Mcn)
  /-- LAT_CLR (R110): A write of MC_PWM_CLR.lat_clr restarts both latency registers. -/
  | latClr (dt : Nat) (n : Mcn)
  /-- PWM_CNT_CLR (R110): A write of MC_PWM_CLR.cnt_clr sets the PWM counters to 0. -/
  | pwmCntClr (dt : Nat) (n : Mcn)
  /-- CONVERSION_RESULT_READY (R112): A slice result is ready 160 ns after its hold and goes to its registers, lanes, accumulators and DMA. -/
  | conversionResultReady (dt : Nat) (g : Grp) (r : Result)
  /-- SEQUENCE_TRIGGER (R121): A trigger starts a pass of a regular or injected sequence, or counts as an overrun. -/
  | sequenceTrigger (dt : Nat) (g : Grp) (inj : Bool)
  /-- SEQUENCE_ENTRY_ISSUE (R122): A sequence entry holds on the lowest free sequence slice once it is due. -/
  | sequenceEntryIssue (dt : Nat) (g : Grp)
  /-- URGENT_REQUEST (R123): An urgent request takes the next free sequence slice ahead of regular entries. -/
  | urgentRequest (dt : Nat) (g : Grp)
  /-- SW_REG (R121): A write of xx_SEN_CLR.sw_reg triggers the regular sequence. -/
  | swReg (dt : Nat) (g : Grp)
  /-- SW_INJ (R121): A write of xx_SEN_CLR.sw_inj triggers the injected sequence. -/
  | swInj (dt : Nat) (g : Grp)
  /-- SEN_CNT_CLR (R121): A write of xx_SEN_CLR.cnt_clr sets the sequence and DMA counters to 0. -/
  | senCntClr (dt : Nat) (g : Grp)
  /-- CALIBRATION_STEP (R127): A background-calibration step begins with a reference check of the spare slice. -/
  | calibrationStep (dt : Nat) (g : Grp) (refOk : Bool)
  /-- CALIBRATION_HANDOVER (R128): The shadowing ends, the results are compared with cal_tol and the spare takes the role. -/
  | calibrationHandover (dt : Nat) (g : Grp) (diff : Option Nat)
  /-- AMP_CHECK (R117): The periodic spare-amplifier check tests the spare and compares it with an in-service amplifier. -/
  | ampCheck (dt : Nat) (n : Mcn) (spareOk : Bool) (diff : Option Nat)
  /-- AMP_CHECK_TIMEOUT (R117): An amplifier-check step without an open window for 100 ms ends without a verdict. -/
  | ampCheckTimeout (dt : Nat) (n : Mcn)
  /-- AMP_SUBSTITUTION (R118): The spare amplifier replaces a faulty amplifier between two counter-zero samples. -/
  | ampSubstitution (dt : Nat) (n : Mcn)
  /-- DMA_WRITE (R135): A granted DMA burst writes result words into the sample-memory buffer, with watermark and overrun handling. -/
  | dmaWrite (dt : Nat) (g : Grp)
  /-- DMA_RPTR_WRITE (R135): A write of rptr moves the read pointer between two DMA writes. -/
  | dmaRptrWrite (dt : Nat) (g : Grp) (v : BitVec 16)
  /-- ACC_CLR (R133): A write of acc_clr sets an accumulator's sum and count to 0. -/
  | accClr (dt : Nat) (g : Grp) (a : Fin 4)
  /-- SPLIT_LO_READ (R9): A read of the LO word of a split value copies its HI word into the port's holding register and, with acc_restart, restarts the accumulator. -/
  | splitLoRead (dt : Nat) (p : Port) (addr : BitVec 24)
  /-- SPLIT_HI_READ (R9): A read of the HI word returns the held copy, or the live value with TEAR_RISK. -/
  | splitHiRead (dt : Nat) (p : Port) (addr : BitVec 24)
  /-- HALL_EDGE (R140): A filtered Hall code change gives a datum update or a hall-sequence fault. -/
  | hallEdge (dt : Nat) (n : Mcn) (code : BitVec 3)
  /-- HALL_STOP_TIMEOUT (R140): No Hall or count edge for stop_ms sets the speed to 0. -/
  | hallStopTimeout (dt : Nat) (n : Mcn)
  /-- ENCODER_COUNT_EDGE (R142): A quadrature edge changes the encoder count, or an illegal transition is counted. -/
  | encoderCountEdge (dt : Nat) (n : Mcn) (q : Quad)
  /-- ENCODER_INDEX (R143): A rising index edge sets the encoder reference. -/
  | encoderIndex (dt : Nat) (n : Mcn)
  /-- SENSOR_TRANSFER (R144): An absolute-sensor transfer completes and gives a datum update or is discarded. -/
  | sensorTransfer (dt : Nat) (n : Mcn) (ago : Nat) (w : Word)
  /-- SENSOR_SLAVE_WORD (R400): A slave sensor port takes a received word at select release. -/
  | sensorSlaveWord (dt : Nat) (p : Fin 2) (bits : Nat) (ago : Nat) (w : Word)
  /-- ZC_WINDOW_EXPIRY (R151): A sector reaches zc_hi without an accepted crossing and zc_miss advances. -/
  | zcWindowExpiry (dt : Nat) (n : Mcn)
  /-- TRACKER_CONVERSION (R152): The terminal-voltage tracker converts the phase voltages every fs_period. -/
  | trackerConversion (dt : Nat) (n : Mcn)
  /-- PROBE_END (R154): The fly probe time ends and the start goes to find, flying start or the short path. -/
  | probeEnd (dt : Nat) (n : Mcn)
  /-- ALIGN_DONE (R155): The alignment ramp and hold end and the datum is set to 0 degrees electrical. -/
  | alignDone (dt : Nat) (n : Mcn)
  /-- POLARITY_PULSE (R156): A polarity pulse pair is applied and the d-axis polarity is settled or the pair repeated. -/
  | polarityPulse (dt : Nat) (n : Mcn) (peakPlus peakMinus : Nat)
  /-- START_TIMEOUT (R159): A start not in RUNNING within start_timeout fails and raises start-fail. -/
  | startTimeout (dt : Nat) (n : Mcn)
  /-- START_RETRY (R159): A cluster still STARTING 100 ms after a start failure begins the start again. -/
  | startRetry (dt : Nat) (n : Mcn)
  /-- STALL (R160): The speed disagreement at the current limit persists for stall_t and raises the stall event. -/
  | stall (dt : Nat) (n : Mcn)
  /-- CONTROL_RESUME (R166): At the next current sample after a lock, control resumes with seeded loops. -/
  | controlResume (dt : Nat) (n : Mcn)
  /-- REACQ_WINDOW_EXPIRY (R167): The re-acquire window expires, raising reacq-fail, and a new recovery may begin. -/
  | reacqWindowExpiry (dt : Nat) (n : Mcn)
  /-- JOB_RELEASE (R171): A lane job is released into the ready list, dropping an older unstarted instance. -/
  | jobRelease (dt : Nat) (j : JobId)
  /-- CUR_JOB (R177): The current loop completes and publishes the voltage vector or duty. -/
  | curJob (dt : Nat) (n : Mcn)
  /-- OBS_JOB (R145): The flux observer completes its update and judges lock by its residual. -/
  | obsJob (dt : Nat) (n : Mcn)
  /-- SPD_JOB (R177): The speed loop completes and publishes the i_q reference. -/
  | spdJob (dt : Nat) (n : Mcn)
  /-- POS_JOB (R177): The position loop completes and publishes the speed reference. -/
  | posJob (dt : Nat) (n : Mcn)
  /-- PROF_JOB (R226): A profile step completes, acting on accepted commands and advancing the set-point. -/
  | profJob (dt : Nat) (a : Axis)
  /-- CCUR_JOB (R284): The converter current loop completes for every active phase and updates the energy meters. -/
  | ccurJob (dt : Nat) (n : Mcn)
  /-- CVOLT_JOB (R285): The converter voltage loop completes, sets the mean current reference and sheds or adds phases. -/
  | cvoltJob (dt : Nat) (n : Mcn)
  /-- THERM_JOB (R299): A thermal model update completes and applies the limits and derating. -/
  | thermJob (dt : Nat) (o : Mcn ⊕ Rg)
  /-- ATLAS_JOB (R213): An atlas index evaluation completes and may start a fill. -/
  | atlasJob (dt : Nat) (n : Mcn)
  /-- TRACE_JOB (R196): A trace record is built from the latched nodes of a traced run. -/
  | traceJob (dt : Nat) (u : Fin 4)
  /-- LTEST_JOB (R194): A lane self-test completes and compares its signature. -/
  | ltestJob (dt : Nat) (l : Fin 8) (good : Bool)
  /-- LANE_FAIL (R193): A job overruns its limit; its lane is retired and the job is re-run or missed. -/
  | laneFail (dt : Nat) (l : Fin 8)
  /-- LANE_RATE_WINDOW (R190): A 64 us window ends and the lane's rate is updated. -/
  | laneRateWindow (dt : Nat) (l : Fin 8) (count : Nat)
  /-- STEWARD_POOL_TEST (R191): Every 1,024 us the steward tests pool utilisation and slack and may substitute a spare lane. -/
  | stewardPoolTest (dt : Nat)
  /-- SHEET_WINDOW_WRITE (R203): A write to the atlas window is refused for a sheet in use, or makes the sheet FREE. -/
  | sheetWindowWrite (dt : Nat) (off : Fin 0x100000) (w : Word)
  /-- SHEET_CHECK (R204): A write of ATL_CMD.load starts a sheet check or refuses it as BUSY. -/
  | sheetCheck (dt : Nat) (sheet : BitVec 12)
  /-- SHEET_CHECK_DONE (R204): A sheet check ends and the sheet becomes LOADED, FREE or BAD. -/
  | sheetCheckDone (dt : Nat) (ecc : Ecc)
  /-- ATLAS_FILL_COMPLETE (R214): A pager fill completes and its banks are held for their boundaries. -/
  | atlasFillComplete (dt : Nat) (n : Mcn) (ecc : Ecc)
  /-- SHEET_MISS (R215): A fill not complete at its due boundary counts a miss and turns critical. -/
  | sheetMiss (dt : Nat) (n : Mcn)
  /-- BANK_SWAP (R184): A held coefficient bank becomes active at its group's boundary. -/
  | bankSwap (dt : Nat) (n : Mcn) (g : Fin 4)
  /-- ROW_GROUP_SUBSTITUTION (R217): The steward copies a flagged row group to a spare and checks its sheets. -/
  | rowGroupSubstitution (dt : Nat) (pos : Fin 512) (ecc : Ecc)
  /-- MOVE (R226): Axis command MOVE to the staged target is accepted or refused. -/
  | move (dt : Nat) (a : Axis)
  /-- AXIS_STOP (R229): Axis command STOP begins a stop ramp. -/
  | axisStop (dt : Nat) (a : Axis)
  /-- SET_V (R227): Axis command SET_V changes the speed limit of the motion in progress. -/
  | setV (dt : Nat) (a : Axis)
  /-- SET_A (R227): Axis command SET_A changes the acceleration of the motion in progress. -/
  | setA (dt : Nat) (a : Axis)
  /-- SPEED (R228): Axis command SPEED sets a signed speed target with its acceleration. -/
  | speed (dt : Nat) (a : Axis)
  /-- APPEND (R231): Axis command APPEND adds a waypoint to the route queue. -/
  | append (dt : Nat) (a : Axis)
  /-- ROUTE_START (R232): Axis command ROUTE_START begins running the route queue, closed or open. -/
  | routeStart (dt : Nat) (a : Axis) (openRoute : Bool)
  /-- ROUTE_LOAD (R231): Axis command ROUTE_LOAD replaces the queue with a route of the image. -/
  | routeLoad (dt : Nat) (a : Axis) (route : BitVec 8)
  /-- ROUTE_CLEAR (R224): Axis command ROUTE_CLEAR empties the route queue. -/
  | routeClear (dt : Nat) (a : Axis)
  /-- HOME (R245): Axis command HOME starts a blind or stall homing run. -/
  | home (dt : Nat) (a : Axis)
  /-- SET_POS (R224): Axis command SET_POS sets the profile and measured positions and clears pos_lost. -/
  | setPos (dt : Nat) (a : Axis)
  /-- MOTION_BAD_CMD (R224): An unknown motion command code is refused with BAD_CMD. -/
  | motionBadCmd (dt : Nat) (a : Axis)
  /-- DWELL_END (R234): A waypoint's dwell ends and the next segment begins, the route completes, or it waits. -/
  | dwellEnd (dt : Nat) (a : Axis)
  /-- INDEXER_EMISSION (R235): The indexer emits the next grid point and updates the coil references. -/
  | indexerEmission (dt : Nat) (k : Chan)
  /-- CHOPPER_ON_PHASE_END (R239): After blanking, a coil's current reaches its reference and the off phase begins. -/
  | chopperOnPhaseEnd (dt : Nat) (k : Chan) (coil : Fin 2)
  /-- CHOPPER_OFF_TIME_END (R239): A coil's off time ends and a new on phase begins. -/
  | chopperOffTimeEnd (dt : Nat) (k : Chan) (coil : Fin 2)
  /-- ZERO_CURRENT_WINDOW_END (R243): A zero-current window ends with a back-EMF conversion and a verdict. -/
  | zeroCurrentWindowEnd (dt : Nat) (k : Chan) (coil : Fin 2) (code : Code)
  /-- STANDBY_TIMEOUT (R241): Zero velocity for t_standby lowers the coil current to i_standby. -/
  | standbyTimeout (dt : Nat) (k : Chan)
  /-- BRIDGE_OVERCURRENT (R246): A stepper switch above 2.5 A for 0.5 us turns the channel's bridges off. -/
  | bridgeOvercurrent (dt : Nat) (h : Fin 16)
  /-- BRIDGE_SEGMENT_FAULT (R246): A bridge segment outside its current share is switched off. -/
  | bridgeSegmentFault (dt : Nat) (h : Fin 16) (seg : Fin 18)
  /-- STEPPER_SPARE_SEGMENT_IN (R247): At standstill the steward switches a spare bridge segment in at an on phase. -/
  | stepperSpareSegmentIn (dt : Nat) (h : Fin 16)
  /-- GATE_PHASE_END (R251): A gate output's turn-on, turn-off or soft-off phase ends on its timer. -/
  | gatePhaseEnd (dt : Nat) (o : Fin 40)
  /-- GATE_SEGMENT_SHARE_FAULT (R252): A gate segment outside +-20 % of the mean share is switched off. -/
  | gateSegmentShareFault (dt : Nat) (o : Fin 40) (sink : Bool) (seg : Fin 36)
  /-- GATE_SEGMENT_SUBSTITUTION (R252): A spare gate segment is substituted within a hold phase. -/
  | gateSegmentSubstitution (dt : Nat) (o : Fin 40) (sink : Bool)
  /-- GATE_FAULT (R253): A gate voltage has not passed its level t_tr + 1 us after the command. -/
  | gateFault (dt : Nat) (o : Fin 40)
  /-- PRECHARGE_END (R255): The bootstrap precharge at ARM ends and undervolted phases raise bootstrap-uv. -/
  | prechargeEnd (dt : Nat) (n : Mcn)
  /-- BOOTSTRAP_COMPARATOR (R256): A filtered bootstrap undervoltage suppresses a turn-on or forces a refresh and is counted. -/
  | bootstrapComparator (dt : Nat) (n : Mcn) (p : Fin 3) (low : Bool)
  /-- DESAT_TRIP (R261): Vds above vds_thr after blanking trips the switch into soft-off. -/
  | desatTrip (dt : Nat) (o : Fin 40)
  /-- HARD_SHORT_TRIP (R262): Vds above VS/2 at t_blank/2 trips the switch and marks the known short. -/
  | hardShortTrip (dt : Nat) (o : Fin 40)
  /-- SOFT_OFF_END (R261): A tripped switch's soft-off ends and the die applies the cluster's safe state. -/
  | softOffEnd (dt : Nat) (o : Fin 40)
  /-- KNOWN_SHORT_CLR (R263): A write of MC_GATE_SHORT.clr clears the known-short record in STOPPED or FAULTED. -/
  | knownShortClr (dt : Nat) (n : Mcn)
  /-- ACTIVE_SHORT_TURN_ON (R265): Dead time after the other side turns off, the short's side turns on. -/
  | activeShortTurnOn (dt : Nat) (n : Mcn)
  /-- HOLD_PUMP_TIMEOUT (R266): A bootstrap comparator asserted for 1 ms in a high-side short turns every switch off. -/
  | holdPumpTimeout (dt : Nat) (n : Mcn)
  /-- VCC_HOLD_LOSS (R268): VCC below the hold level pulls every gate of the region off. -/
  | vccHoldLoss (dt : Nat) (r : Rg)
  /-- BUS_OV1 (R270): VS reaches ov1 and the brake chopper turns on. -/
  | busOv1 (dt : Nat) (r : Rg)
  /-- BUS_BELOW_OV1_HYST (R270): VS falls below ov1 - ov1_hyst and the chopper turns off. -/
  | busBelowOv1Hyst (dt : Nat) (r : Rg)
  /-- BUS_OV2 (R271): VS reaches ov2 and the OV2 action shorts or switches off the region's clusters. -/
  | busOv2 (dt : Nat) (r : Rg)
  /-- OV2_HOLD_EXPIRY (R272): VS below ov1 - ov1_hyst for ov2_hold ends the OV2 action. -/
  | ov2HoldExpiry (dt : Nat) (r : Rg)
  /-- BUS_OV3 (R273): VS reaches ov3 and the OV3 latch turns every gate of the region off. -/
  | busOv3 (dt : Nat) (r : Rg)
  /-- OV3_CLR (R273): A write of RG_PS_CMD.ov3_clr clears the OV3 latch when VS is below ov2. -/
  | ov3Clr (dt : Nat) (r : Rg)
  /-- CHOP_CLR (R274): A write of RG_PS_CMD.chop_clr clears both chopper flags when VS is low enough. -/
  | chopClr (dt : Nat) (r : Rg)
  /-- CHOPPER_EFFECT_CHECK (R274): 50 us after a chopper turn-on the bus rise is compared with rise_tol. -/
  | chopperEffectCheck (dt : Nat) (r : Rg) (before after : Code)
  /-- RBS_RISE (R275): RBS reaches 6.0 V and the reverse-battery gate turns on. -/
  | rbsRise (dt : Nat) (r : Rg)
  /-- RBS_FALL (R275): RBS falls below 5.5 V and the reverse-battery gate turns off. -/
  | rbsFall (dt : Nat) (r : Rg)
  /-- RBS_REVERSE (R276): RBS below -0.5 V for 0.5 us pulls the gate off and raises rbg-reverse. -/
  | rbsReverse (dt : Nat) (r : Rg)
  /-- RBS_REVERSE_RECOVERY (R276): RBS held at 6.0 V for 10 ms ends the reverse lockout. -/
  | rbsReverseRecovery (dt : Nat) (r : Rg)
  /-- VLO_OVERVOLTAGE (R293): VLO above vlo_ov turns every converter switch off. -/
  | vloOvervoltage (dt : Nat) (n : Mcn)
  /-- VLO_OV_RECOVERY (R289): VLO below vlo_ov for 1 ms restarts the converter by its seeds. -/
  | vloOvRecovery (dt : Nat) (n : Mcn)
  /-- E_CLR (R292): A write of MC_CONV_CMD.e_clr sets both energy meters to 0. -/
  | eClr (dt : Nat) (n : Mcn)
  /-- THERMAL_PASS (R296): The 1 ms thermal pass converts the hot-spot and TH channels and updates the readings and limits. -/
  | thermalPass (dt : Nat) (t : ThermIn)
  /-- CARRIER_FREQUENCY_CHANGE (R307): A new k_f sets the asynchronous carrier at the next counter zero. -/
  | carrierFrequencyChange (dt : Nat) (n : Mcn)
  /-- COLD_BLOCK_END (R308): cold_block stops being in force and a held autostart START is issued. -/
  | coldBlockEnd (dt : Nat) (c : Cl)
  /-- PULSE_HOLD_EXPIRY (R317): One second after a pulse source's raising, its DERATE factor or FAULT_N hold ends. -/
  | pulseHoldExpiry (dt : Nat) (e : BitVec 8)
  /-- STICKY_CLEAR (R315): A written 1 clears a sticky bit, unless its source is asserted. -/
  | stickyClear (dt : Nat) (k : Fin 8) (w : Word)
  /-- GUY_LINE_WIRE_FAULT (R324): Equal rail levels on three samples give a wire fault that asserts the source. -/
  | guyLineWireFault (dt : Nat) (e : BitVec 8)
  /-- GUY_LINE_FAULT_END (R323): 1,024 samples of opposite levels end the wire fault. -/
  | guyLineFaultEnd (dt : Nat) (e : BitVec 8)
  /-- CLOCK_CHECK (R328): Every 10 us the system clock is checked against the oscillators; roles change or clock-fail is raised. -/
  | clockCheck (dt : Nat) (v : ClockVerdict)
  /-- LANTERN_TOGGLE (R326): LANTERN toggles at lantern_f while lit. -/
  | lanternToggle (dt : Nat)
  /-- FAULT_N_INPUT_LOW (R45): FAULT_N low after its filter, not driven by this device, raises system-fault. -/
  | faultNInputLow (dt : Nat)
  /-- LOGBOOK_HOURLY (R336): Every 3,600 s of operation a logbook record is requested. -/
  | logbookHourly (dt : Nat)
  /-- LOG_NOW (R336): A write of LOG_CMD.now requests a record with cause 0x04. -/
  | logNow (dt : Nat)
  /-- LOGBOOK_WRITE_START (R337): A pending logbook write begins once the memory port is free, erasing a sector if needed. -/
  | logbookWriteStart (dt : Nat)
  /-- LOGBOOK_WRITE_COMPLETE (R342): A logbook write is verified, or fails and marks its sector bad. -/
  | logbookWriteComplete (dt : Nat) (ok : Bool)
  /-- LOGBOOK_WRITE_TIMEOUT (R337): A logbook write not verified within 400 ms fails. -/
  | logbookWriteTimeout (dt : Nat)
  /-- PARAMETER_TABLE_READ (R345): Basecamp reads the JESD216 parameter tables of the flash. -/
  | parameterTableRead (dt : Nat) (valid : Bool)
  /-- FLASH_NO_ANSWER (R345): No valid parameter-table signature within 1 ms sends the device to RECOVERY. -/
  | flashNoAnswer (dt : Nat)
  /-- OCTAL_SWITCH (R346): The switch to octal DDR is confirmed, or the load falls back to single lane. -/
  | octalSwitch (dt : Nat) (ok : Bool)
  /-- HEADER_CHECK (R347): Both slot headers are read and checked, and the first candidate enters VERIFY. -/
  | headerCheck (dt : Nat)
  /-- IMAGE_STREAM_COMPLETE (R356): The candidate image has streamed with its records applied, or a fault has stopped the stream. -/
  | imageStreamComplete (dt : Nat)
  /-- IMAGE_POST_CHECKS (R356): The signature, KEYREF, CHAIN, START, CAN layout and agreement checks complete for the image. -/
  | imagePostChecks (dt : Nat)
  /-- LOGBOOK_RESTORE (R341): The logbook scan completes and the newest valid record is restored. -/
  | logbookRestore (dt : Nat)
  /-- MONITOR_SAMPLING_END (R358): 8 ms of monitor sampling end and the device enters READY. -/
  | monitorSamplingEnd (dt : Nat)
  /-- BOOT_LOAD (R363): A write of DEV_BOOT_CTRL.load in RECOVERY starts an image load. -/
  | bootLoad (dt : Nat)
  /-- AUTO_HOLD (R360): A write of DEV_BOOT_CTRL.auto_hold suspends or releases every autostart action. -/
  | autoHold (dt : Nat) (hold : Bool)
  /-- AUTOSTART_ARM (R360): start_delay after entry to RUN an autostart rule issues its ARM. -/
  | autostartArm (dt : Nat) (c : Cl)
  /-- AUTOSTART_ARM_RETRY (R360): A refused autostart ARM is issued again after 100 ms. -/
  | autostartArmRetry (dt : Nat) (c : Cl)
  /-- AUTOSTART_RESTART (R360): 100 ms after a fault stop the restart rule re-arms the cluster. -/
  | autostartRestart (dt : Nat) (c : Cl)
  /-- PROGRAM (R368): Security command PROGRAM writes SEC_KEYBUF into an empty OTP key slot. -/
  | program (dt : Nat) (arg : Word) (otpOk : Bool)
  /-- SEAL (R368): Security command SEAL advances the lifecycle from OPEN to SEALED. -/
  | seal (dt : Nat) (arg : Word) (otpOk : Bool)
  /-- RETIRE (R368): Security command RETIRE overwrites every key slot and enters RETIRED. -/
  | retire (dt : Nat) (arg : Word) (otpOk : Bool)
  /-- REVOKE (R368): Security command REVOKE revokes a key slot. -/
  | revoke (dt : Nat) (arg : Word) (otpOk : Bool)
  /-- ADVANCE (R368): Security command ADVANCE raises the rollback counter to the running image's level. -/
  | advance (dt : Nat) (arg : Word) (otpOk : Bool)
  /-- TRNG_READ (R366): A read of SEC_TRNG returns and consumes random bits. -/
  | trngRead (dt : Nat) (p : Port)
  /-- TRNG_HEALTH_FAIL (R366): A failed TRNG health test sets trng_fail until reset. -/
  | trngHealthFail (dt : Nat)
  /-- AUTH_LOCKOUT_END (R372): An authentication lockout time expires. -/
  | authLockoutEnd (dt : Nat)
  /-- CAN_ANNOUNCEMENT (R373): The bus session value is announced at READY and every ann_period. -/
  | canAnnouncement (dt : Nat)
  /-- CHAIN_FRAME (R385): At HP_CS_N release the device takes its chain word, or rejects the frame with FRAME_ERR. -/
  | chainFrame (dt : Nat) (edges : Nat) (w : List Word)
  /-- NOP (R387): Chain command NOP does nothing. -/
  | nop (dt : Nat)
  /-- SETPOINT (R388): Chain command SETPOINT issues a set-point command to an axis. -/
  | setpoint (dt : Nat) (arg : BitVec 24)
  /-- ADDR (R387): Chain command ADDR sets the chain pointer. -/
  | addr (dt : Nat) (arg : BitVec 24)
  /-- WR_LO (R387): Chain command WR_LO stages the low half of a word. -/
  | wrLo (dt : Nat) (arg : BitVec 24)
  /-- WR_HI (R387): Chain command WR_HI writes the staged word at the pointer and advances it. -/
  | wrHi (dt : Nat) (arg : BitVec 24)
  /-- RD_LO (R387): Chain command RD_LO snapshots the pointer's register and returns its low half. -/
  | rdLo (dt : Nat)
  /-- RD_HI (R387): Chain command RD_HI returns the snapshot's high half and advances the pointer. -/
  | rdHi (dt : Nat)
  /-- PACKET_FRAME (R393): At HP_PCS_N release a packet frame is checked in order and its packet executed or refused. -/
  | packetFrame (dt : Nat) (edges : Nat) (w : List Word)
  /-- POLL_FRAME (R390): A poll frame carries out the pending response and has none of its own. -/
  | pollFrame (dt : Nat) (edges : Nat)
  /-- READ (R394): Packet READ returns one register word. -/
  | read (dt : Nat) (addr : BitVec 24)
  /-- WRITE (R394): Packet WRITE writes one register word. -/
  | write (dt : Nat) (addr : BitVec 24) (w : Word)
  /-- READ_BURST (R396): Packet READ_BURST reads consecutive words, with RANGE past a block. -/
  | readBurst (dt : Nat) (addr : BitVec 24) (n : Nat)
  /-- WRITE_BURST (R394): Packet WRITE_BURST writes consecutive words and stops at a refused word. -/
  | writeBurst (dt : Nat) (addr : BitVec 24) (w : List Word)
  /-- BULK_READ (R397): Packet BULK_READ reads from a named target: space, sheet, trace, DMA, logbook or NVM. -/
  | bulkRead (dt : Nat) (target : Word) (addr : Word) (n : Nat)
  /-- BULK_WRITE (R397): Packet BULK_WRITE writes to a named target, NVM programming included. -/
  | bulkWrite (dt : Nat) (target : Word) (addr : Word) (w : List Word)
  /-- NVM_ERASE_4K (R398): COMMAND NVM_ERASE_4K erases a 4 KiB flash sector. -/
  | nvmErase4k (dt : Nat) (addr : Word)
  /-- NVM_ERASE_64K (R398): COMMAND NVM_ERASE_64K erases a 64 KiB flash block. -/
  | nvmErase64k (dt : Nat) (addr : Word)
  /-- HOLD_CLR (R398): COMMAND HOLD_CLR invalidates the host port's holding register. -/
  | holdClr (dt : Nat)
  /-- PACKET_COMPLETE (R392): An executing packet or chain word completes and its response becomes pending. -/
  | packetComplete (dt : Nat)
  /-- MEMORY_PORT_GRANT (R404): The free memory port takes the next pending user by priority. -/
  | memoryPortGrant (dt : Nat)
  /-- FLASH_STATUS_POLL (R403): The flash status is read every 10 us while a program or erase runs. -/
  | flashStatusPoll (dt : Nat) (busy : Bool) (failed : Bool)
  /-- NVM_TIMEOUT (R406): A flash still busy after 3 s ends the operation with NVM_FAIL. -/
  | nvmTimeout (dt : Nat)
  /-- CAN_FRAME_RECEIVED (R415): A received frame is filtered and stored, routed or taken as a diagnostic request. -/
  | canFrameReceived (dt : Nat) (n : Can) (ago : Nat) (f : Frame)
  /-- ROUTE_TIMEOUT (R425): A receive route with no frame for its timeout applies its timeout action. -/
  | routeTimeout (dt : Nat) (n : Can) (k : Fin 32)
  /-- CAN_ELEMENT_READ (R417): A read of word 0 or the last word of a receive element places or releases the port's lock. -/
  | canElementRead (dt : Nat) (p : Port) (off : Fin 0x4000)
  /-- FIFO_GET_WRITE (R419): A write of a FIFO's get index acknowledges elements. -/
  | fifoGetWrite (dt : Nat) (n : Can) (f : Fin 2) (v : Nat)
  /-- TX_REQ (R426): A write of CANn_TX_REQ requests transmit buffers and builds routed data fields. -/
  | txReq (dt : Nat) (n : Can) (mask : Word)
  /-- TX_CANCEL (R427): A write of CANn_TX_CANCEL ends pending buffers with ABORT. -/
  | txCancel (dt : Nat) (n : Can) (mask : Word)
  /-- TX_PERIOD_EXPIRY (R426): A transmit buffer's period expires and it is requested. -/
  | txPeriodExpiry (dt : Nat) (n : Can) (b : Fin 32)
  /-- TX_ATTEMPT_END (R427): A transmission attempt ends in success or error, with its retry, clash and no-ack counts. -/
  | txAttemptEnd (dt : Nat) (n : Can) (b : TxWho) (r : TxEnd)
  /-- CAN_RECOVER (R434): A write of CANn_CTRL.recover starts bus-off recovery. -/
  | canRecover (dt : Nat) (n : Can)
  /-- BUS_OFF_RECOVERY_DONE (R434): 128 occurrences of 11 recessive bits end the recovery and the controller becomes error active. -/
  | busOffRecoveryDone (dt : Nat) (n : Can)
  /-- CAN_MODE_WRITE (R412): A write of CANn_CTRL.mode is checked for layout when leaving OFF. -/
  | canModeWrite (dt : Nat) (n : Can) (mode : BitVec 2)
  /-- CAN_MODE_CHANGE (R408): A new controller mode takes effect at the end of the frame in progress. -/
  | canModeChange (dt : Nat) (n : Can)
  /-- SCHEDULE_MARK (R430): A schedule cell's mark requests its buffer for a single attempt. -/
  | scheduleMark (dt : Nat) (n : Can) (col : Fin 32)
  /-- SCHED_MISS (R430): No idle bus within tx_win ends the cell's buffer with SCHED_MISS. -/
  | schedMiss (dt : Nat) (n : Can)
  /-- REFERENCE_MESSAGE (R428): A basic cycle starts, with the reference message sent by a master or received by a follower. -/
  | referenceMessage (dt : Nat) (n : Can) (cycle : Option (BitVec 8))
  /-- REFERENCE_LOST (R431): No reference message within 1.5 cycles stops a follower's schedule. -/
  | referenceLost (dt : Nat) (n : Can)
  /-- TRACE_ARM (R198): A write of TR_TRIG.arm arms a trace unit. -/
  | traceArm (dt : Nat) (u : Fin 4)
  /-- TRACE_SOFT (R198): A write of TR_TRIG.soft gives a software trigger. -/
  | traceSoft (dt : Nat) (u : Fin 4)
  /-- TRACE_STOP (R198): A write of TR_TRIG.stop returns the unit to IDLE. -/
  | traceStop (dt : Nat) (u : Fin 4)
  /-- REGISTER_WRITE (R8): A write to a register without a row of its own acts by the classes of its fields. -/
  | registerWrite (dt : Nat) (p : Port) (addr : BitVec 24) (w : Word)
  /-- FAULT_N_INPUT_HIGH (R45): FAULT_N returns high after its filter, and the level source system-fault stops being asserted. -/
  | faultNInputHigh (dt : Nat)
  /-- CAN_BUS_INTEGRATION (R410): After a mode change or a bit-timing swap, a controller sees 11 recessive bits and joins the bus again. -/
  | canBusIntegration (dt : Nat) (n : Can)
  /-- CAN_BUS_ERROR (R407): A stuff, form, CRC or other error is detected on a frame the controller receives, which moves REC, lec and dlec and the error state. -/
  | canBusError (dt : Nat) (n : Can) (e : BusErr) (dataPhase : Bool) (flagDom : Bool)
  /-- COIL_ZERO_CURRENT_LEVEL (R240): A decaying coil current falls below 30 mA, all four switches turn off, and the zero-current window of R243 begins. -/
  | coilZeroCurrentLevel (dt : Nat) (k : Chan) (coil : Fin 2)
  /-- CHOPPER_MINIMUM_TIME_END (R270): The 2 us minimum on-time or off-time of the brake chopper ends, and the chopper switches if VS has already crossed its threshold. -/
  | chopperMinimumTimeEnd (dt : Nat) (r : Rg)
  /-- DEVICE_BAD_CMD (R25): A write of an undefined DEV_CMD code is refused with BAD_CMD. -/
  | deviceBadCmd (dt : Nat)
  /-- SEC_BAD_CMD (R368): A write of an undefined SEC_CMD code is refused with BAD_CMD. -/
  | secBadCmd (dt : Nat)
  deriving DecidableEq, Repr

end Sys2Proof
end

