-- ==== Sys2Proof/Decode.lean ====
section
/-! DEFINITION. The command that a word of the table's bits spells. No row of spec/opcode_table.json gives bits: its commands
are register accesses, frames and pin events whose operands come with them, so no word spells one. -/

namespace Sys2Proof

/-- The command spelled by `nbits` bits: none, for every word. (DESIGN CHOICE, log 10) -/
def decodeTableWord (_nbits _w : Nat) : Option Instr := none

end Sys2Proof
end

