-- ==== Sys2Proof/Machine/Crc.lean ====
section
/-! DEFINITION. The checksums of the spec: CRC-32C (07_atlas_paging R204, and the packets, records and images that use
it), CRC-4 of the chain words (14_serial_ports_and_lyjan), and the free polynomial of the sensor ports (R401). -/

namespace Sys2Proof.Machine

/-- One bit of a reflected CRC-32C (Castagnoli 0x1EDC6F41, reflected 0x82F63B78). -/
def crc32Bit (c : Nat) : Nat := if c % 2 = 1 then Nat.xor (c / 2) 0x82F63B78 else c / 2

/-- One byte. -/
def crc32Byte (c b : Nat) : Nat :=
  let x := Nat.xor c (b % 256)
  crc32Bit (crc32Bit (crc32Bit (crc32Bit (crc32Bit (crc32Bit (crc32Bit (crc32Bit x)))))))

/-- CRC-32C of bytes: initial value and final exclusive-or 0xFFFF_FFFF. -/
def crc32 (bs : List Nat) : Nat := Nat.xor (bs.foldl crc32Byte 0xFFFFFFFF) 0xFFFFFFFF

/-- The bytes of a word, least significant first. -/
def wordBytes (w : Nat) : List Nat := [w % 256, w / 256 % 256, w / 65536 % 256, w / 16777216 % 256]

/-- CRC-32C of words, least significant byte of each first. -/
def crc32Words (ws : List Nat) : Nat := crc32 (ws.flatMap wordBytes)

/-- A CRC computed bit by bit over a string of bits, most significant first: width, polynomial, start value. -/
def crcBits (w poly : Nat) : List Bool → Nat → Nat
  | [], c => c
  | b :: rest, c =>
    let top := c / 2 ^ (w - 1) % 2 == 1
    let c' := 2 * c % 2 ^ w
    crcBits w poly rest (if top != b then Nat.xor c' poly else c')

/-- The low `w` bits of a number, most significant first. -/
def bitsOf (w n : Nat) : List Bool := (List.range w).reverse.map fun i => n / 2 ^ i % 2 == 1

end Sys2Proof.Machine
end

