-- ==== Sys2Proof/Config.lean ====
section
/-! DEFINITION. What an implementation fixes and what the spec leaves open: opaque constants without a body. Nothing in
Lean can evaluate one, so a statement that mentions one holds whatever its value is. Each is named in the assumption log. -/

namespace Sys2Proof.Config

/-- Where the spec states a quotient or a product without its rounding, the result is the exact value when the
division is exact, and otherwise the floor or the floor plus one: this function says which, for each numerator and
denominator. (DESIGN CHOICE, log 6). Safe: every statement holds for both. -/
opaque roundUp : Int → Int → Bool

/-- Silicon steps in DEV_ID: 0 Polrex B, 1 Polrex A, 2 Kilid (01_architecture, DEV_ID "silicon step").
(UNVERIFIED, log 70) -/
opaque siliconStep : Fin 3 → BitVec 4

/-- Error of the lanes' sine and cosine in units of 2^-28: R175 bounds it by 4 and gives no bits.
(DESIGN CHOICE, log 13) -/
opaque sinErr : BitVec 32 → Int
/-- Error of the cosine, as of the sine (R175; DESIGN CHOICE, log 13). -/
opaque cosErr : BitVec 32 → Int
/-- Error of the lanes' arc tangent in angle codes, bounded by 64 (R175). (DESIGN CHOICE, log 13) -/
opaque atanErr : Int → Int → Int
/-- Error of the lanes' vector magnitude in units of 2^-28, bounded by 2^-26 relative (R175).
(DESIGN CHOICE, log 13) -/
opaque magErr : Int → Int → Int

/-- The free values: what the spec leaves open, one for each use (the counter `fresh` of State). (DESIGN CHOICE, log 9).
Safe: nothing constrains them. -/
opaque freeWord : Nat → BitVec 32

/-- Per-unit bases at reset, less one: I_base of each cluster in mA. R5 declares the bases as structure-class fields of the
cluster, and no table of the spec gives them a register or a value (UNVERIFIED, log 7). Safe: any value. -/
opaque iBase : Fin 8 → Nat
/-- V_base in mV, less one (R5; UNVERIFIED, log 7). -/
opaque vBase : Fin 8 → Nat
/-- f_base in Hz, less one (R5; UNVERIFIED, log 7). -/
opaque fBase : Fin 8 → Nat

/-- Speed change over an interval of 0, for two datum updates true at one instant with different speeds (R50 divides by the
interval): any value, of the change and the present acceleration. (DESIGN CHOICE, log 77) -/
opaque slopeNow : Int → Int → Int

/-- Normalised signal of the injection tracker, Q3.28, of the signal and of the sum of the four responses: R149 names it and
does not say by what it is normalised. (DESIGN CHOICE, log 35) -/
opaque injNorm : Int → Int → Int

/-- Factory trim of a hot-spot sensor, by its unit (R297): nominal 4,800. (DEDUCED, log 47; UNVERIFIED, log 70) -/
opaque c25 : Nat → Nat

end Sys2Proof.Config
end

