-- ==== Sys2Proof/Machine/Events.lean ====
section
/-! DEFINITION. The table of the 256 event sources (12_faults_and_stewardship R313) and the unit classes (01_architecture
R11, 12 R331): kind, natural scope, reset severity, minimum and fixed severities, and the health limits. -/

namespace Sys2Proof.Machine

/-- The natural scope of a source (R313, R319). -/
inductive Scope where
  | cluster (c : Fin 8) | region (r : Fin 2) | die (d : Fin 2) | package
  deriving DecidableEq, Repr

/-- Source `EV(60 + 27n + k)` of motor cluster n. -/
def evMc (n : Fin 6) (k : Nat) : Nat := 60 + 27 * n.val + k
/-- Source `EV(222 + 8m + k)` of stepper cluster m. -/
def evSc (m : Fin 2) (k : Nat) : Nat := 222 + 8 * m.val + k
/-- Source `EV(238 + 9r + k)` of region r. -/
def evRg (r : Fin 2) (k : Nat) : Nat := 238 + 9 * r.val + k

/-- The natural scope of each source (R313). -/
def evScope (e : Nat) : Scope :=
  if e < 60 then
    if e = 2 ∨ e = 8 ∨ e = 11 ∨ e = 14 ∨ e = 17 ∨ e = 19 then .die 0
    else if e = 3 ∨ e = 9 ∨ e = 12 ∨ e = 15 ∨ e = 18 ∨ e = 20 then .die 1
    else .package
  else if e < 222 then .cluster ⟨(e - 60) / 27 % 6, by omega⟩
  else if e < 230 then .cluster 6
  else if e < 238 then .cluster 7
  else if e < 247 then .region 0
  else if e < 256 then .region 1
  else .package

/-- The level sources (R313); every other source is a pulse. The source of index 9 of a motor cluster is a level in
converter personality only. -/
def evLevel (conv : Bool) (e : Nat) : Bool :=
  if e < 60 then
    [1, 2, 3, 5, 6, 7, 8, 9, 10, 11, 12, 16, 17, 18, 19, 20, 21, 22, 23, 24, 25, 26, 27, 28, 30, 31, 38, 41, 43, 44,
      48, 50, 51, 52, 56, 57, 58].contains e
  else if e < 222 then
    let k := (e - 60) % 27
    [0, 21, 22, 24, 25].contains k || (k == 9 && conv)
  else if e < 238 then (e - 222) % 8 == 6
  else [0, 1, 2, 3, 4, 5, 8].contains ((e - 238) % 9)

/-- Reset severity of each source (R313). -/
def evReset (e : Nat) : Nat :=
  if e < 60 then
    if e = 2 ∨ e = 3 then 4
    else if e = 5 ∨ e = 41 then 5
    else if [4, 19, 20, 31, 32, 34, 36, 37, 39, 45, 49, 59].contains e then 0
    else if (10 ≤ e ∧ e ≤ 12) ∨ (25 ≤ e ∧ e ≤ 28) then 3
    else 1
  else if e < 222 then
    let k := (e - 60) % 27
    if [0, 1, 2, 3, 4, 13, 15, 24, 26].contains k then 0
    else if [12, 17, 18, 19, 20].contains k then 4
    else if k = 22 then 3 else 1
  else if e < 238 then (if [4, 6, 7].contains ((e - 222) % 8) then 0 else 1)
  else
    let k := (e - 238) % 9
    if k = 1 ∨ k = 7 then 4 else if k = 5 then 3 else 1

/-- Sources whose severity is fixed (R313, R318). -/
def evFixed (e : Nat) : Bool := e == 0 || e == 5

/-- The least severity a source may be given (R313, R318). -/
def evMin (e : Nat) : Nat :=
  if e = 2 ∨ e = 3 then 4
  else if 10 ≤ e ∧ e ≤ 12 then 3
  else if e < 60 then 0
  else if e < 222 then (if (e - 60) % 27 = 19 ∨ (e - 60) % 27 = 20 then 4 else 0)
  else if e < 238 then 0
  else if (e - 238) % 9 = 1 then 4 else 0

/-- What a write of a severity stores (R316, R318). -/
def sevStored (e v : Nat) : Nat :=
  if evFixed e then evReset e else Nat.max (evMin e) (Nat.min v 5)

/-- What a write of a scope code stores: a code that names the natural scope or a narrower one is stored as 0, codes
above 4 as 4 (R319). For sources of regions CC and CL and for Kilid die sources, whose natural scope is the package,
the region and die scopes act as package and so are no wider. -/
def scopeStored (e v : Nat) : Nat :=
  let v := Nat.min v 4
  let natural := match evScope e with
    | .cluster _ => 0 | .region _ => 1 | .die _ => 2 | .package => 3
  if v ≤ natural then 0 else v

/-- Default health limit of a unit class; none where the class has no limit (R331). -/
def limReset (c : Nat) : Nat :=
  match c with
  | 1 => 4096 | 2 => 16 | 3 => 16 | 5 => 1024 | 7 => 1024 | 8 => 256 | 9 => 1000 | 10 => 256 | _ => 0

end Sys2Proof.Machine
end

