-- ==== Sys2Proof/Machine/Fields.lean ====
section
/-! DEFINITION. The register fields of the spec, one constant a field: the register's offset within its block
(00_scope R7, 16_register_map R436; the tables of every chapter), the field's lowest bit and its width. A register that
is repeated k times is named once; its instance is chosen by the base its reader adds. -/

namespace Sys2Proof.Machine

/-- A register field: the word offset of its register in the block, its lowest bit, its width. -/
structure Fld where
  off : Nat
  lo  : Nat
  w   : Nat
  deriving DecidableEq, Repr

namespace R

/-- MC_CTRL - offset 0x0000 - Cluster control (01_architecture.md). -/
def MC_CTRL.reg : Nat := 0x0
def MC_CTRL.read_active : Fld := ⟨0x0, 0, 1⟩
def MC_CTRL.autostart : Fld := ⟨0x0, 1, 1⟩
def MC_CTRL.arm_timeout : Fld := ⟨0x0, 8, 8⟩
/-- MC_STATE - offset 0x0001 - Cluster state (01_architecture.md). -/
def MC_STATE.reg : Nat := 0x1
def MC_STATE.state : Fld := ⟨0x1, 0, 3⟩
def MC_STATE.active_set : Fld := ⟨0x1, 3, 1⟩
def MC_STATE.last_cause : Fld := ⟨0x1, 4, 4⟩
def MC_STATE.cause_event : Fld := ⟨0x1, 8, 8⟩
def MC_STATE.swap_pending : Fld := ⟨0x1, 16, 1⟩
def MC_STATE.personality : Fld := ⟨0x1, 17, 1⟩
/-- MC_CMD - offset 0x0002 - Cluster command (01_architecture.md). -/
def MC_CMD.reg : Nat := 0x2
def MC_CMD.cmd : Fld := ⟨0x2, 0, 4⟩
/-- DEV_ID - 0x00_0000 - Device identification (01_architecture.md). -/
def DEV_ID.reg : Nat := 0x0
def DEV_ID.polrex_b_step : Fld := ⟨0x0, 4, 4⟩
def DEV_ID.polrex_a_step : Fld := ⟨0x0, 8, 4⟩
def DEV_ID.kilid_step : Fld := ⟨0x0, 12, 4⟩
def DEV_ID.part_code : Fld := ⟨0x0, 16, 16⟩
/-- DEV_STATE - 0x00_0001 - Device state (01_architecture.md). -/
def DEV_STATE.reg : Nat := 0x1
def DEV_STATE.state : Fld := ⟨0x1, 0, 3⟩
def DEV_STATE.image_slot : Fld := ⟨0x1, 3, 1⟩
def DEV_STATE.last_cause : Fld := ⟨0x1, 4, 4⟩
def DEV_STATE.autorun : Fld := ⟨0x1, 8, 1⟩
def DEV_STATE.sync_lost : Fld := ⟨0x1, 9, 1⟩
def DEV_STATE.fault_n_in : Fld := ⟨0x1, 10, 1⟩
def DEV_STATE.fault_n_out : Fld := ⟨0x1, 11, 1⟩
def DEV_STATE.sync_frame : Fld := ⟨0x1, 16, 8⟩
/-- DEV_CMD - 0x00_0002 - Device command (01_architecture.md). -/
def DEV_CMD.reg : Nat := 0x2
def DEV_CMD.cmd : Fld := ⟨0x2, 0, 4⟩
/-- MC_SWAP - offset 0x0003 - Cluster swap (01_architecture.md). -/
def MC_SWAP.reg : Nat := 0x3
def MC_SWAP.go : Fld := ⟨0x3, 0, 1⟩
def MC_SWAP.pending : Fld := ⟨0x3, 1, 1⟩
def MC_SWAP.reject : Fld := ⟨0x3, 2, 1⟩
def MC_SWAP.reason : Fld := ⟨0x3, 8, 8⟩
def MC_SWAP.swap_count : Fld := ⟨0x3, 16, 16⟩
/-- DEV_SWAP - 0x00_0003 - Device-wide swap (01_architecture.md). -/
def DEV_SWAP.reg : Nat := 0x3
def DEV_SWAP.cluster_mask : Fld := ⟨0x3, 0, 8⟩
def DEV_SWAP.package_set : Fld := ⟨0x3, 8, 1⟩
def DEV_SWAP.pkg_read_active : Fld := ⟨0x3, 9, 1⟩
def DEV_SWAP.at_frame : Fld := ⟨0x3, 16, 8⟩
def DEV_SWAP.use_frame : Fld := ⟨0x3, 24, 1⟩
def DEV_SWAP.go : Fld := ⟨0x3, 25, 1⟩
def DEV_SWAP.pending : Fld := ⟨0x3, 26, 1⟩
def DEV_SWAP.reject : Fld := ⟨0x3, 27, 1⟩
def DEV_SWAP.reject_unit : Fld := ⟨0x3, 28, 4⟩
/-- DEV_SWAP_STAT - 0x00_0004 - Device swap status (01_architecture.md). -/
def DEV_SWAP_STAT.reg : Nat := 0x4
def DEV_SWAP_STAT.reason : Fld := ⟨0x4, 0, 8⟩
def DEV_SWAP_STAT.swap_count : Fld := ⟨0x4, 16, 16⟩
/-- DEV_SYS - 0x00_0005 - System role (01_architecture.md). -/
def DEV_SYS.reg : Nat := 0x5
def DEV_SYS.sync_role : Fld := ⟨0x5, 0, 2⟩
def DEV_SYS.chain_pos : Fld := ⟨0x5, 2, 3⟩
def DEV_SYS.chain_len : Fld := ⟨0x5, 5, 3⟩
def DEV_SYS.fault_n_drive : Fld := ⟨0x5, 8, 1⟩
def DEV_SYS.fault_n_filt : Fld := ⟨0x5, 16, 8⟩
/-- MC_DAT_CFG - offset 0x0400 - Datum configuration (02_datum_and_graticule.md). -/
def MC_DAT_CFG.reg : Nat := 0x400
def MC_DAT_CFG.source : Fld := ⟨0x400, 0, 3⟩
def MC_DAT_CFG.dir_invert : Fld := ⟨0x400, 3, 1⟩
def MC_DAT_CFG.pole_pairs : Fld := ⟨0x400, 8, 8⟩
def MC_DAT_CFG.pred_min_speed : Fld := ⟨0x400, 16, 16⟩
/-- MC_DAT_ANGLE - offset 0x0401 - Datum angle (02_datum_and_graticule.md). -/
def MC_DAT_ANGLE.reg : Nat := 0x401
def MC_DAT_ANGLE.angle : Fld := ⟨0x401, 0, 32⟩
/-- MC_DAT_SPEED - offset 0x0402 - Datum speed (02_datum_and_graticule.md). -/
def MC_DAT_SPEED.reg : Nat := 0x402
def MC_DAT_SPEED.speed : Fld := ⟨0x402, 0, 32⟩
/-- MC_DAT_ACC - offset 0x0403 - Datum acceleration (02_datum_and_graticule.md). -/
def MC_DAT_ACC.reg : Nat := 0x403
def MC_DAT_ACC.acc : Fld := ⟨0x403, 0, 32⟩
/-- MC_DAT_STAT - offset 0x0404 - Datum status (02_datum_and_graticule.md). -/
def MC_DAT_STAT.reg : Nat := 0x404
def MC_DAT_STAT.valid : Fld := ⟨0x404, 0, 1⟩
def MC_DAT_STAT.predicted : Fld := ⟨0x404, 1, 1⟩
def MC_DAT_STAT.reverse : Fld := ⟨0x404, 2, 1⟩
def MC_DAT_STAT.carrier_sync : Fld := ⟨0x404, 3, 1⟩
def MC_DAT_STAT.ratio_entry : Fld := ⟨0x404, 4, 4⟩
def MC_DAT_STAT.ratio_next : Fld := ⟨0x404, 8, 4⟩
def MC_DAT_STAT.ratio : Fld := ⟨0x404, 16, 8⟩
def MC_DAT_STAT.clamp : Fld := ⟨0x404, 24, 1⟩
/-- MC_DAT_SNAP_ANGLE - offset 0x0405 - Frame snapshot, angle (02_datum_and_graticule.md). -/
def MC_DAT_SNAP_ANGLE.reg : Nat := 0x405
def MC_DAT_SNAP_ANGLE.angle : Fld := ⟨0x405, 0, 32⟩
/-- MC_DAT_SNAP_SPEED - offset 0x0406 - Frame snapshot, speed (02_datum_and_graticule.md). -/
def MC_DAT_SNAP_SPEED.reg : Nat := 0x406
def MC_DAT_SNAP_SPEED.speed : Fld := ⟨0x406, 0, 32⟩
/-- MC_DAT_SNAP_FRAME - offset 0x0407 - Frame snapshot, frame (02_datum_and_graticule.md). -/
def MC_DAT_SNAP_FRAME.reg : Nat := 0x407
def MC_DAT_SNAP_FRAME.frame : Fld := ⟨0x407, 0, 8⟩
def MC_DAT_SNAP_FRAME.snap_valid : Fld := ⟨0x407, 8, 1⟩
/-- MC_DAT_SYNC - offset 0x0408 - Frame alignment (02_datum_and_graticule.md). -/
def MC_DAT_SYNC.reg : Nat := 0x408
def MC_DAT_SYNC.align_en : Fld := ⟨0x408, 0, 1⟩
def MC_DAT_SYNC.align_phase : Fld := ⟨0x408, 8, 8⟩
/-- MC_GRAT_STAT - offset 0x0409 - Graticule counters (02_datum_and_graticule.md). -/
def MC_GRAT_STAT.reg : Nat := 0x409
def MC_GRAT_STAT.late_count : Fld := ⟨0x409, 0, 8⟩
def MC_GRAT_STAT.coalesce_count : Fld := ⟨0x409, 8, 8⟩
/-- MC_GRAT_FIRED_LO - offset 0x040A - Entries fired, 0 to 31 (02_datum_and_graticule.md). -/
def MC_GRAT_FIRED_LO.reg : Nat := 0x40A
def MC_GRAT_FIRED_LO.fired : Fld := ⟨0x40A, 0, 32⟩
/-- MC_GRAT_FIRED_HI - offset 0x040B - Entries fired, 32 to 63 (02_datum_and_graticule.md). -/
def MC_GRAT_FIRED_HI.reg : Nat := 0x40B
def MC_GRAT_FIRED_HI.fired : Fld := ⟨0x40B, 0, 32⟩
/-- MC_GRAT_ANGk - set offset 0x0400 + 2k, k = 0 to 63 - Graticule entry angle (02_datum_and_graticule.md). -/
def MC_GRAT_ANG.reg : Nat := 0x400
def MC_GRAT_ANG.angle : Fld := ⟨0x400, 0, 32⟩
/-- MC_GRAT_CTLk - set offset 0x0401 + 2k, k = 0 to 63 - Graticule entry control (02_datum_and_graticule.md). -/
def MC_GRAT_CTL.reg : Nat := 0x401
def MC_GRAT_CTL.type : Fld := ⟨0x401, 0, 4⟩
def MC_GRAT_CTL.dir : Fld := ⟨0x401, 4, 2⟩
def MC_GRAT_CTL.ref : Fld := ⟨0x401, 6, 2⟩
def MC_GRAT_CTL.param_a : Fld := ⟨0x401, 8, 6⟩
def MC_GRAT_CTL.step_or_b : Fld := ⟨0x401, 16, 16⟩
/-- MC_SCAR_CFG - set offset 0x0480 - Synchronous carrier configuration (02_datum_and_graticule.md). -/
def MC_SCAR_CFG.reg : Nat := 0x480
def MC_SCAR_CFG.enable : Fld := ⟨0x480, 0, 1⟩
def MC_SCAR_CFG.n_entries : Fld := ⟨0x480, 4, 4⟩
/-- MC_SCAR_ENTj - set offset 0x0481 + j, j = 0 to 7 - Synchronous carrier contour entry (02_datum_and_graticule.md). -/
def MC_SCAR_ENT.reg : Nat := 0x481
def MC_SCAR_ENT.ratio : Fld := ⟨0x481, 0, 8⟩
def MC_SCAR_ENT.f_up : Fld := ⟨0x481, 8, 12⟩
def MC_SCAR_ENT.f_down : Fld := ⟨0x481, 20, 12⟩
/-- DEV_SYNC_CFG - 0x00_0006 - SYNC frame configuration (02_datum_and_graticule.md). -/
def DEV_SYNC_CFG.reg : Nat := 0x6
def DEV_SYNC_CFG.frame_period : Fld := ⟨0x6, 0, 10⟩
def DEV_SYNC_CFG.sync_comp : Fld := ⟨0x6, 16, 8⟩
/-- DEV_WALL_LO - 0x00_0008 - Wall counter, low word (02_datum_and_graticule.md). -/
def DEV_WALL_LO.reg : Nat := 0x8
def DEV_WALL_LO.wall_lo : Fld := ⟨0x8, 0, 32⟩
/-- DEV_WALL_HI - 0x00_0009 - Wall counter, high word (02_datum_and_graticule.md). -/
def DEV_WALL_HI.reg : Nat := 0x9
def DEV_WALL_HI.wall_hi : Fld := ⟨0x9, 0, 32⟩
/-- MC_PWM_CTRL - offset 0x0800 - PWM control (03_field_control_and_pwm.md). -/
def MC_PWM_CTRL.reg : Nat := 0x800
def MC_PWM_CTRL.family : Fld := ⟨0x800, 0, 2⟩
def MC_PWM_CTRL.block_src : Fld := ⟨0x800, 2, 1⟩
def MC_PWM_CTRL.chop : Fld := ⟨0x800, 3, 2⟩
/-- MC_PWM_STAT - offset 0x0801 - PWM status (03_field_control_and_pwm.md). -/
def MC_PWM_STAT.reg : Nat := 0x801
def MC_PWM_STAT.sector : Fld := ⟨0x801, 0, 3⟩
def MC_PWM_STAT.closed : Fld := ⟨0x801, 3, 3⟩
def MC_PWM_STAT.recon : Fld := ⟨0x801, 6, 1⟩
def MC_PWM_STAT.predicted : Fld := ⟨0x801, 7, 1⟩
def MC_PWM_STAT.limited : Fld := ⟨0x801, 8, 1⟩
def MC_PWM_STAT.six_step : Fld := ⟨0x801, 9, 1⟩
def MC_PWM_STAT.m_used : Fld := ⟨0x801, 16, 16⟩
/-- MC_PWM_DUTY_U, MC_PWM_DUTY_V, MC_PWM_DUTY_W - offsets 0x0802 to 0x0804 - Applied duty (03_field_control_and_pwm.md). -/
def MC_PWM_DUTY.reg : Nat := 0x802
def MC_PWM_DUTY.duty : Fld := ⟨0x802, 0, 17⟩
/-- MC_PWM_SHIFT_U, MC_PWM_SHIFT_V, MC_PWM_SHIFT_W - offsets 0x0805 to 0x0807 - Applied shift (03_field_control_and_pwm.md). -/
def MC_PWM_SHIFT.reg : Nat := 0x805
def MC_PWM_SHIFT.shift : Fld := ⟨0x805, 0, 20⟩
/-- MC_PWM_WIN_CNT - offset 0x0808 - Window counters (03_field_control_and_pwm.md). -/
def MC_PWM_WIN_CNT.reg : Nat := 0x808
def MC_PWM_WIN_CNT.recon_count : Fld := ⟨0x808, 0, 16⟩
def MC_PWM_WIN_CNT.miss_count : Fld := ⟨0x808, 16, 16⟩
/-- MC_PWM_REF_CNT - offset 0x0809 - Refresh counters (03_field_control_and_pwm.md). -/
def MC_PWM_REF_CNT.reg : Nat := 0x809
def MC_PWM_REF_CNT.refresh_count : Fld := ⟨0x809, 0, 16⟩
def MC_PWM_REF_CNT.uncomp_count : Fld := ⟨0x809, 16, 16⟩
/-- MC_PWM_APPLY_CNT - offset 0x080A - Apply counters (03_field_control_and_pwm.md). -/
def MC_PWM_APPLY_CNT.reg : Nat := 0x80A
def MC_PWM_APPLY_CNT.late_apply : Fld := ⟨0x80A, 0, 16⟩
def MC_PWM_APPLY_CNT.pulse_drop : Fld := ⟨0x80A, 16, 16⟩
/-- MC_PWM_LAT_APPLY - offset 0x080B - Sample-to-apply delay (03_field_control_and_pwm.md). -/
def MC_PWM_LAT_APPLY.reg : Nat := 0x80B
def MC_PWM_LAT_APPLY.apply_min : Fld := ⟨0x80B, 0, 16⟩
def MC_PWM_LAT_APPLY.apply_max : Fld := ⟨0x80B, 16, 16⟩
/-- MC_PWM_LAT_OUT - offset 0x080C - Sample-to-output delay (03_field_control_and_pwm.md). -/
def MC_PWM_LAT_OUT.reg : Nat := 0x80C
def MC_PWM_LAT_OUT.out_min : Fld := ⟨0x80C, 0, 16⟩
def MC_PWM_LAT_OUT.out_max : Fld := ⟨0x80C, 16, 16⟩
/-- MC_PWM_CLR - offset 0x080D - PWM clear (03_field_control_and_pwm.md). -/
def MC_PWM_CLR.reg : Nat := 0x80D
def MC_PWM_CLR.lat_clr : Fld := ⟨0x80D, 0, 1⟩
def MC_PWM_CLR.cnt_clr : Fld := ⟨0x80D, 1, 1⟩
/-- MC_PWM_CARRIER - set offset 0x0800 - Asynchronous carrier (03_field_control_and_pwm.md). -/
def MC_PWM_CARRIER.reg : Nat := 0x800
def MC_PWM_CARRIER.f_async : Fld := ⟨0x800, 0, 19⟩
/-- MC_PWM_DT - set offset 0x0801 - Dead time (03_field_control_and_pwm.md). -/
def MC_PWM_DT.reg : Nat := 0x801
def MC_PWM_DT.dead_time : Fld := ⟨0x801, 0, 10⟩
def MC_PWM_DT.dt_comp : Fld := ⟨0x801, 16, 1⟩
def MC_PWM_DT.comp_band : Fld := ⟨0x801, 24, 8⟩
/-- MC_PWM_WIN - set offset 0x0802 - Sampling window (03_field_control_and_pwm.md). -/
def MC_PWM_WIN.reg : Nat := 0x802
def MC_PWM_WIN.t_sw : Fld := ⟨0x802, 0, 9⟩
def MC_PWM_WIN.lo_on_min : Fld := ⟨0x802, 16, 9⟩
/-- MC_PWM_REFRESH - set offset 0x0803 - Bootstrap refresh (03_field_control_and_pwm.md). -/
def MC_PWM_REFRESH.reg : Nat := 0x803
def MC_PWM_REFRESH.n_refresh : Fld := ⟨0x803, 0, 7⟩
def MC_PWM_REFRESH.t_refresh : Fld := ⟨0x803, 8, 11⟩
/-- MC_PWM_MOD - set offset 0x0804 - Modulation limits (03_field_control_and_pwm.md). -/
def MC_PWM_MOD.reg : Nat := 0x804
def MC_PWM_MOD.ovm_mode : Fld := ⟨0x804, 0, 1⟩
def MC_PWM_MOD.miss_limit : Fld := ⟨0x804, 8, 8⟩
def MC_PWM_MOD.m_max : Fld := ⟨0x804, 16, 16⟩
/-- MC_FC_AXIS - set offset 0x0805 - Contour axis (03_field_control_and_pwm.md). -/
def MC_FC_AXIS.reg : Nat := 0x805
def MC_FC_AXIS.speed_step : Fld := ⟨0x805, 0, 16⟩
/-- MC_BLK_OFFSET - set offset 0x0806 - Commutation offset (03_field_control_and_pwm.md). -/
def MC_BLK_OFFSET.reg : Nat := 0x806
def MC_BLK_OFFSET.comm_offset : Fld := ⟨0x806, 0, 32⟩
/-- MC_FC_ADVj - set offset 0x0840 + j, j = 0 to 63 - Advance contour point (03_field_control_and_pwm.md). -/
def MC_FC_ADV.reg : Nat := 0x840
def MC_FC_ADV.advance : Fld := ⟨0x840, 0, 32⟩
/-- MC_FC_IDj - set offset 0x0880 + j, j = 0 to 63 - Field-weakening contour point (03_field_control_and_pwm.md). -/
def MC_FC_ID.reg : Nat := 0x880
def MC_FC_ID.id_ref : Fld := ⟨0x880, 0, 32⟩
/-- MC_FC_MARGj - set offset 0x08C0 + j, j = 0 to 63 - Voltage-margin contour point (03_field_control_and_pwm.md). -/
def MC_FC_MARG.reg : Nat := 0x8C0
def MC_FC_MARG.margin : Fld := ⟨0x8C0, 0, 32⟩
/-- xx_SEN_ROLE - offset 0x00 - Role map (04_current_and_voltage_sensing.md). -/
def SEN_ROLE.reg : Nat := 0x0
def SEN_ROLE.role0 : Fld := ⟨0x0, 0, 3⟩
def SEN_ROLE.role1 : Fld := ⟨0x0, 3, 3⟩
def SEN_ROLE.role2 : Fld := ⟨0x0, 6, 3⟩
def SEN_ROLE.role3 : Fld := ⟨0x0, 9, 3⟩
def SEN_ROLE.role4 : Fld := ⟨0x0, 12, 3⟩
def SEN_ROLE.cal_active : Fld := ⟨0x0, 15, 1⟩
def SEN_ROLE.retired : Fld := ⟨0x0, 16, 5⟩
def SEN_ROLE.no_spare : Fld := ⟨0x0, 21, 1⟩
def SEN_ROLE.suspect : Fld := ⟨0x0, 22, 5⟩
/-- xx_SEN_CAL - offset 0x01 - Calibration control (04_current_and_voltage_sensing.md). -/
def SEN_CAL.reg : Nat := 0x1
def SEN_CAL.cal_en : Fld := ⟨0x1, 0, 1⟩
def SEN_CAL.cal_period : Fld := ⟨0x1, 8, 8⟩
def SEN_CAL.cal_tol : Fld := ⟨0x1, 16, 8⟩
/-- xx_SEN_CNT - offset 0x02 - Sequence and calibration counters (04_current_and_voltage_sensing.md). -/
def SEN_CNT.reg : Nat := 0x2
def SEN_CNT.reg_overrun : Fld := ⟨0x2, 0, 8⟩
def SEN_CNT.inj_overrun : Fld := ⟨0x2, 8, 8⟩
def SEN_CNT.cal_skip : Fld := ⟨0x2, 16, 8⟩
def SEN_CNT.amp_clip : Fld := ⟨0x2, 24, 8⟩
/-- xx_SEN_CNT2 - offset 0x03 - DMA counters (04_current_and_voltage_sensing.md). -/
def SEN_CNT2.reg : Nat := 0x3
def SEN_CNT2.dma_overrun : Fld := ⟨0x3, 0, 16⟩
def SEN_CNT2.fifo_loss : Fld := ⟨0x3, 16, 16⟩
/-- xx_SEN_CLR - offset 0x04 - Clear and software trigger (04_current_and_voltage_sensing.md). -/
def SEN_CLR.reg : Nat := 0x4
def SEN_CLR.cnt_clr : Fld := ⟨0x4, 0, 1⟩
def SEN_CLR.sw_reg : Fld := ⟨0x4, 1, 1⟩
def SEN_CLR.sw_inj : Fld := ⟨0x4, 2, 1⟩
/-- xx_SEN_DMA_BUF - offset 0x05 - DMA buffer (04_current_and_voltage_sensing.md). -/
def SEN_DMA_BUF.reg : Nat := 0x5
def SEN_DMA_BUF.base : Fld := ⟨0x5, 0, 16⟩
def SEN_DMA_BUF.length : Fld := ⟨0x5, 16, 16⟩
/-- xx_SEN_DMA_CTL - offset 0x06 - DMA control (04_current_and_voltage_sensing.md). -/
def SEN_DMA_CTL.reg : Nat := 0x6
def SEN_DMA_CTL.dma_en : Fld := ⟨0x6, 0, 1⟩
def SEN_DMA_CTL.policy : Fld := ⟨0x6, 1, 2⟩
def SEN_DMA_CTL.cur_dma : Fld := ⟨0x6, 3, 1⟩
def SEN_DMA_CTL.watermark : Fld := ⟨0x6, 16, 16⟩
/-- xx_SEN_DMA_PTR - offset 0x07 - DMA pointers (04_current_and_voltage_sensing.md). -/
def SEN_DMA_PTR.reg : Nat := 0x7
def SEN_DMA_PTR.wptr : Fld := ⟨0x7, 0, 16⟩
def SEN_DMA_PTR.rptr : Fld := ⟨0x7, 16, 16⟩
/-- xx_SEN_ACCn_CTL - offset 0x08 + n, n = 0 to 3 - Accumulator control (04_current_and_voltage_sensing.md). -/
def SEN_ACC_CTL.reg : Nat := 0x8
def SEN_ACC_CTL.acc_restart : Fld := ⟨0x8, 0, 1⟩
def SEN_ACC_CTL.full : Fld := ⟨0x8, 1, 1⟩
def SEN_ACC_CTL.acc_clr : Fld := ⟨0x8, 2, 1⟩
/-- xx_SEN_ACCn_LO - offset 0x0C + 2n - Accumulator, low word (04_current_and_voltage_sensing.md). -/
def SEN_ACC_LO.reg : Nat := 0xC
def SEN_ACC_LO.sum_lo : Fld := ⟨0xC, 0, 32⟩
/-- xx_SEN_ACCn_HI - offset 0x0D + 2n - Accumulator, high word (04_current_and_voltage_sensing.md). -/
def SEN_ACC_HI.reg : Nat := 0xD
def SEN_ACC_HI.sum_hi : Fld := ⟨0xD, 0, 8⟩
def SEN_ACC_HI.count : Fld := ⟨0xD, 8, 24⟩
/-- xx_SEN_RES_REGk - offset 0x20 + k, k = 0 to 15 - and xx_SEN_RES_INJk - offset 0x30 + k, k = 0 to 3 - Latest entry results (04_current_and_voltage_sensing.md). -/
def SEN_RES_REG.reg : Nat := 0x20
def SEN_RES_REG.result : Fld := ⟨0x20, 0, 32⟩
/-- xx_SEN_RES_REGk - offset 0x20 + k, k = 0 to 15 - and xx_SEN_RES_INJk - offset 0x30 + k, k = 0 to 3 - Latest entry results (04_current_and_voltage_sensing.md). -/
def SEN_RES_INJ.reg : Nat := 0x30
def SEN_RES_INJ.result : Fld := ⟨0x30, 0, 32⟩
/-- MC_SEN_RES_IU, MC_SEN_RES_IV, MC_SEN_RES_IW - offsets 0x34 to 0x36 - and MC_SEN_RES_GRAT - offset 0x37 - Latest current and graticule results (04_current_and_voltage_sensing.md). -/
def SEN_RES_I.reg : Nat := 0x34
def SEN_RES_I.result : Fld := ⟨0x34, 0, 32⟩
/-- MC_SEN_RES_IU, MC_SEN_RES_IV, MC_SEN_RES_IW - offsets 0x34 to 0x36 - and MC_SEN_RES_GRAT - offset 0x37 - Latest current and graticule results (04_current_and_voltage_sensing.md). -/
def SEN_RES_GRAT.reg : Nat := 0x37
def SEN_RES_GRAT.result : Fld := ⟨0x37, 0, 32⟩
/-- MC_SEN_AMP - offset 0x38 - Amplifier configuration (04_current_and_voltage_sensing.md). -/
def SEN_AMP.reg : Nat := 0x38
def SEN_AMP.gain : Fld := ⟨0x38, 0, 3⟩
def SEN_AMP.shunt_uohm : Fld := ⟨0x38, 16, 16⟩
/-- MC_SEN_AMPMAP - offset 0x39 - Amplifier map (04_current_and_voltage_sensing.md). -/
def SEN_AMPMAP.reg : Nat := 0x39
def SEN_AMPMAP.amp_u : Fld := ⟨0x39, 0, 2⟩
def SEN_AMPMAP.amp_v : Fld := ⟨0x39, 2, 2⟩
def SEN_AMPMAP.amp_w : Fld := ⟨0x39, 4, 2⟩
def SEN_AMPMAP.amp_spare : Fld := ⟨0x39, 6, 2⟩
def SEN_AMPMAP.retired : Fld := ⟨0x39, 8, 4⟩
def SEN_AMPMAP.spare_conn : Fld := ⟨0x39, 12, 2⟩
def SEN_AMPMAP.no_spare : Fld := ⟨0x39, 14, 1⟩
/-- MC_SEN_IZERO_UV - offset 0x3A - and MC_SEN_IZERO_WS - offset 0x3B - Amplifier offsets (04_current_and_voltage_sensing.md). -/
def SEN_IZERO_UV.reg : Nat := 0x3A
def SEN_IZERO_UV.zero_lo : Fld := ⟨0x3A, 0, 16⟩
def SEN_IZERO_UV.zero_hi : Fld := ⟨0x3A, 16, 16⟩
/-- MC_SEN_IZERO_UV - offset 0x3A - and MC_SEN_IZERO_WS - offset 0x3B - Amplifier offsets (04_current_and_voltage_sensing.md). -/
def SEN_IZERO_WS.reg : Nat := 0x3B
def SEN_IZERO_WS.zero_lo : Fld := ⟨0x3B, 0, 16⟩
def SEN_IZERO_WS.zero_hi : Fld := ⟨0x3B, 16, 16⟩
/-- MC_SEN_AMPCHK - offset 0x3C - Amplifier checks (04_current_and_voltage_sensing.md). -/
def SEN_AMPCHK.reg : Nat := 0x3C
def SEN_AMPCHK.amp_period : Fld := ⟨0x3C, 0, 8⟩
def SEN_AMPCHK.amp_tol : Fld := ⟨0x3C, 8, 8⟩
def SEN_AMPCHK.izero_lim : Fld := ⟨0x3C, 16, 12⟩
/-- xx_SEQ_CFG - offset 0x00 - Sequence configuration (04_current_and_voltage_sensing.md). -/
def SEQ_CFG.reg : Nat := 0x0
def SEQ_CFG.reg_len : Fld := ⟨0x0, 0, 5⟩
def SEQ_CFG.inj_len : Fld := ⟨0x0, 5, 3⟩
def SEQ_CFG.reg_trig : Fld := ⟨0x0, 8, 4⟩
def SEQ_CFG.inj_trig : Fld := ⟨0x0, 12, 4⟩
def SEQ_CFG.trig_mc : Fld := ⟨0x0, 16, 2⟩
/-- xx_SEQ_DLY - offset 0x01 - Trigger delays (04_current_and_voltage_sensing.md). -/
def SEQ_DLY.reg : Nat := 0x1
def SEQ_DLY.reg_delay : Fld := ⟨0x1, 0, 11⟩
def SEQ_DLY.inj_delay : Fld := ⟨0x1, 16, 11⟩
/-- xx_SEQ_REGk - offset 0x10 + k, k = 0 to 15 - and xx_SEQ_INJk - offset 0x20 + k, k = 0 to 3 - Sequence entries (04_current_and_voltage_sensing.md). -/
def SEQ_REG.reg : Nat := 0x10
def SEQ_REG.channel : Fld := ⟨0x10, 0, 6⟩
def SEQ_REG.dma : Fld := ⟨0x10, 6, 1⟩
def SEQ_REG.acc_en : Fld := ⟨0x10, 7, 1⟩
def SEQ_REG.acc_sel : Fld := ⟨0x10, 8, 2⟩
/-- xx_SEQ_REGk - offset 0x10 + k, k = 0 to 15 - and xx_SEQ_INJk - offset 0x20 + k, k = 0 to 3 - Sequence entries (04_current_and_voltage_sensing.md). -/
def SEQ_INJ.reg : Nat := 0x20
def SEQ_INJ.channel : Fld := ⟨0x20, 0, 6⟩
def SEQ_INJ.dma : Fld := ⟨0x20, 6, 1⟩
def SEQ_INJ.acc_en : Fld := ⟨0x20, 7, 1⟩
def SEQ_INJ.acc_sel : Fld := ⟨0x20, 8, 2⟩
/-- MC_EST_STAT - offset 0x1000 - Estimation status (05_rotor_estimation_and_startup.md). -/
def MC_EST_STAT.reg : Nat := 0x1000
def MC_EST_STAT.src_now : Fld := ⟨0x1000, 0, 3⟩
def MC_EST_STAT.phase : Fld := ⟨0x1000, 3, 3⟩
def MC_EST_STAT.inj_lock : Fld := ⟨0x1000, 6, 1⟩
def MC_EST_STAT.obs_lock : Fld := ⟨0x1000, 7, 1⟩
def MC_EST_STAT.enc_ref : Fld := ⟨0x1000, 8, 1⟩
def MC_EST_STAT.fs_lock : Fld := ⟨0x1000, 9, 1⟩
def MC_EST_STAT.sc_lock : Fld := ⟨0x1000, 10, 1⟩
def MC_EST_STAT.blend_w : Fld := ⟨0x1000, 16, 8⟩
/-- MC_EST_OBS_ANGLE, MC_EST_INJ_ANGLE, MC_EST_ZC_ANGLE - offsets 0x1001 to 0x1003 - Estimator angles (05_rotor_estimation_and_startup.md). -/
def MC_EST_OBS_ANGLE.reg : Nat := 0x1001
def MC_EST_OBS_ANGLE.angle : Fld := ⟨0x1001, 0, 32⟩
/-- MC_EST_OBS_ANGLE, MC_EST_INJ_ANGLE, MC_EST_ZC_ANGLE - offsets 0x1001 to 0x1003 - Estimator angles (05_rotor_estimation_and_startup.md). -/
def MC_EST_INJ_ANGLE.reg : Nat := 0x1002
def MC_EST_INJ_ANGLE.angle : Fld := ⟨0x1002, 0, 32⟩
/-- MC_EST_OBS_ANGLE, MC_EST_INJ_ANGLE, MC_EST_ZC_ANGLE - offsets 0x1001 to 0x1003 - Estimator angles (05_rotor_estimation_and_startup.md). -/
def MC_EST_ZC_ANGLE.reg : Nat := 0x1003
def MC_EST_ZC_ANGLE.angle : Fld := ⟨0x1003, 0, 32⟩
/-- MC_EST_OBS_SPEED - offset 0x1004 - Observer speed (05_rotor_estimation_and_startup.md). -/
def MC_EST_OBS_SPEED.reg : Nat := 0x1004
def MC_EST_OBS_SPEED.speed : Fld := ⟨0x1004, 0, 32⟩
/-- MC_EST_RESID - offset 0x1005 - Observer residual (05_rotor_estimation_and_startup.md). -/
def MC_EST_RESID.reg : Nat := 0x1005
def MC_EST_RESID.resid_angle : Fld := ⟨0x1005, 0, 16⟩
def MC_EST_RESID.resid_flux : Fld := ⟨0x1005, 16, 8⟩
def MC_EST_RESID.over_run : Fld := ⟨0x1005, 24, 8⟩
/-- MC_EST_CNT - offset 0x1006 - Source counters (05_rotor_estimation_and_startup.md). -/
def MC_EST_CNT.reg : Nat := 0x1006
def MC_EST_CNT.hall_bad : Fld := ⟨0x1006, 0, 8⟩
def MC_EST_CNT.enc_err : Fld := ⟨0x1006, 8, 8⟩
def MC_EST_CNT.sens_bad : Fld := ⟨0x1006, 16, 8⟩
def MC_EST_CNT.zc_miss : Fld := ⟨0x1006, 24, 8⟩
/-- MC_EST_CNT2 - offset 0x1007 - Start and recovery counters (05_rotor_estimation_and_startup.md). -/
def MC_EST_CNT2.reg : Nat := 0x1007
def MC_EST_CNT2.lol_count : Fld := ⟨0x1007, 0, 8⟩
def MC_EST_CNT2.reacq_fail : Fld := ⟨0x1007, 8, 8⟩
def MC_EST_CNT2.start_fail : Fld := ⟨0x1007, 16, 8⟩
def MC_EST_CNT2.inj_skip : Fld := ⟨0x1007, 24, 8⟩
/-- MC_EST_REACQ - offset 0x1008 - Latest recovery (05_rotor_estimation_and_startup.md). -/
def MC_EST_REACQ.reg : Nat := 0x1008
def MC_EST_REACQ.reacq_time : Fld := ⟨0x1008, 0, 16⟩
def MC_EST_REACQ.path : Fld := ⟨0x1008, 16, 1⟩
def MC_EST_REACQ.ok : Fld := ⟨0x1008, 17, 1⟩
/-- MC_EST_ENC_COUNT - offset 0x1009 - Encoder count (05_rotor_estimation_and_startup.md). -/
def MC_EST_ENC_COUNT.reg : Nat := 0x1009
def MC_EST_ENC_COUNT.count : Fld := ⟨0x1009, 0, 32⟩
/-- MC_POS_CFG - offset 0x1010 - Position inputs (05_rotor_estimation_and_startup.md). -/
def MC_POS_CFG.reg : Nat := 0x1010
def MC_POS_CFG.pos_filt : Fld := ⟨0x1010, 0, 8⟩
def MC_POS_CFG.bad_n : Fld := ⟨0x1010, 8, 8⟩
def MC_POS_CFG.stop_ms : Fld := ⟨0x1010, 16, 8⟩
def MC_POS_CFG.z_tol : Fld := ⟨0x1010, 24, 8⟩
/-- MC_POS_MAP - offset 0x1011 - Hall map (05_rotor_estimation_and_startup.md). -/
def MC_POS_MAP.reg : Nat := 0x1011
def MC_POS_MAP.hall_map : Fld := ⟨0x1011, 0, 24⟩
/-- MC_POS_OFFSET - offset 0x1012 - Position offset (05_rotor_estimation_and_startup.md). -/
def MC_POS_OFFSET.reg : Nat := 0x1012
def MC_POS_OFFSET.pos_offset : Fld := ⟨0x1012, 0, 32⟩
/-- MC_POS_ENC - offset 0x1013 - Encoder (05_rotor_estimation_and_startup.md). -/
def MC_POS_ENC.reg : Nat := 0x1013
def MC_POS_ENC.enc_lines : Fld := ⟨0x1013, 0, 16⟩
def MC_POS_ENC.z_en : Fld := ⟨0x1013, 16, 1⟩
/-- MC_POS_SENS - offset 0x1014 - Absolute sensor word (05_rotor_estimation_and_startup.md). -/
def MC_POS_SENS.reg : Nat := 0x1014
def MC_POS_SENS.ang_lsb : Fld := ⟨0x1014, 0, 5⟩
def MC_POS_SENS.ang_bits : Fld := ⟨0x1014, 5, 5⟩
def MC_POS_SENS.ok_bit : Fld := ⟨0x1014, 10, 5⟩
def MC_POS_SENS.ok_pol : Fld := ⟨0x1014, 15, 1⟩
def MC_POS_SENS.sens_lat : Fld := ⟨0x1014, 16, 8⟩
/-- MC_EST_REST - set offset 0x1000 - Rest and observer speeds (05_rotor_estimation_and_startup.md). -/
def MC_EST_REST.reg : Nat := 0x1000
def MC_EST_REST.speed_rest : Fld := ⟨0x1000, 0, 16⟩
def MC_EST_REST.obs_min_speed : Fld := ⟨0x1000, 16, 16⟩
/-- MC_OBS_RS, MC_OBS_LD, MC_OBS_LQ, MC_OBS_PSI - set offsets 0x1001 to 0x1004 - Machine parameters (05_rotor_estimation_and_startup.md). -/
def MC_OBS_RS.reg : Nat := 0x1001
def MC_OBS_RS.value : Fld := ⟨0x1001, 0, 24⟩
/-- MC_OBS_RS, MC_OBS_LD, MC_OBS_LQ, MC_OBS_PSI - set offsets 0x1001 to 0x1004 - Machine parameters (05_rotor_estimation_and_startup.md). -/
def MC_OBS_LD.reg : Nat := 0x1002
def MC_OBS_LD.value : Fld := ⟨0x1002, 0, 24⟩
/-- MC_OBS_RS, MC_OBS_LD, MC_OBS_LQ, MC_OBS_PSI - set offsets 0x1001 to 0x1004 - Machine parameters (05_rotor_estimation_and_startup.md). -/
def MC_OBS_LQ.reg : Nat := 0x1003
def MC_OBS_LQ.value : Fld := ⟨0x1003, 0, 24⟩
/-- MC_OBS_RS, MC_OBS_LD, MC_OBS_LQ, MC_OBS_PSI - set offsets 0x1001 to 0x1004 - Machine parameters (05_rotor_estimation_and_startup.md). -/
def MC_OBS_PSI.reg : Nat := 0x1004
def MC_OBS_PSI.value : Fld := ⟨0x1004, 0, 24⟩
/-- MC_OBS_PLL - set offset 0x1005 - Observer loop (05_rotor_estimation_and_startup.md). -/
def MC_OBS_PLL.reg : Nat := 0x1005
def MC_OBS_PLL.pll_bw : Fld := ⟨0x1005, 0, 12⟩
def MC_OBS_PLL.pll_zeta : Fld := ⟨0x1005, 12, 8⟩
def MC_OBS_PLL.flux_k : Fld := ⟨0x1005, 20, 12⟩
/-- MC_OBS_BLEND - set offset 0x1006 - Blend band (05_rotor_estimation_and_startup.md). -/
def MC_OBS_BLEND.reg : Nat := 0x1006
def MC_OBS_BLEND.blend_lo : Fld := ⟨0x1006, 0, 16⟩
def MC_OBS_BLEND.blend_hi : Fld := ⟨0x1006, 16, 16⟩
/-- MC_INJ_CFG - set offset 0x1007 - Injection (05_rotor_estimation_and_startup.md). -/
def MC_INJ_CFG.reg : Nat := 0x1007
def MC_INJ_CFG.inj_en : Fld := ⟨0x1007, 0, 1⟩
def MC_INJ_CFG.inj_amp : Fld := ⟨0x1007, 8, 8⟩
def MC_INJ_CFG.inj_width : Fld := ⟨0x1007, 16, 8⟩
def MC_INJ_CFG.inj_bw : Fld := ⟨0x1007, 24, 8⟩
/-- MC_INJ_POL - set offset 0x1008 - Polarity pulses (05_rotor_estimation_and_startup.md). -/
def MC_INJ_POL.reg : Nat := 0x1008
def MC_INJ_POL.pol_amp : Fld := ⟨0x1008, 0, 8⟩
def MC_INJ_POL.pol_width : Fld := ⟨0x1008, 8, 8⟩
/-- MC_START_CFG - set offset 0x1009 - Start method (05_rotor_estimation_and_startup.md). -/
def MC_START_CFG.reg : Nat := 0x1009
def MC_START_CFG.find : Fld := ⟨0x1009, 0, 2⟩
def MC_START_CFG.ramp : Fld := ⟨0x1009, 2, 1⟩
def MC_START_CFG.fly : Fld := ⟨0x1009, 3, 1⟩
def MC_START_CFG.start_timeout : Fld := ⟨0x1009, 8, 8⟩
/-- MC_START_ALIGN - set offset 0x100A - Alignment (05_rotor_estimation_and_startup.md). -/
def MC_START_ALIGN.reg : Nat := 0x100A
def MC_START_ALIGN.align_i : Fld := ⟨0x100A, 0, 16⟩
def MC_START_ALIGN.align_ramp : Fld := ⟨0x100A, 16, 8⟩
def MC_START_ALIGN.align_hold : Fld := ⟨0x100A, 24, 8⟩
/-- MC_START_RAMP - set offset 0x100B - Open-loop ramp (05_rotor_estimation_and_startup.md). -/
def MC_START_RAMP.reg : Nat := 0x100B
def MC_START_RAMP.ramp_i : Fld := ⟨0x100B, 0, 16⟩
def MC_START_RAMP.ramp_f_end : Fld := ⟨0x100B, 16, 16⟩
/-- MC_START_HO - set offset 0x100C - Ramp and handover (05_rotor_estimation_and_startup.md). -/
def MC_START_HO.reg : Nat := 0x100C
def MC_START_HO.ramp_acc : Fld := ⟨0x100C, 0, 16⟩
def MC_START_HO.ho_rate : Fld := ⟨0x100C, 16, 8⟩
def MC_START_HO.ho_angle : Fld := ⟨0x100C, 24, 8⟩
/-- MC_FS_CFG - set offset 0x100D - Terminal-voltage tracker (05_rotor_estimation_and_startup.md). -/
def MC_FS_CFG.reg : Nat := 0x100D
def MC_FS_CFG.fs_vmin : Fld := ⟨0x100D, 0, 8⟩
def MC_FS_CFG.fs_confirm : Fld := ⟨0x100D, 8, 8⟩
def MC_FS_CFG.fs_period : Fld := ⟨0x100D, 16, 8⟩
def MC_FS_CFG.fs_probe : Fld := ⟨0x100D, 24, 8⟩
/-- MC_LOL_CFG - set offset 0x100E - Loss of lock (05_rotor_estimation_and_startup.md). -/
def MC_LOL_CFG.reg : Nat := 0x100E
def MC_LOL_CFG.lol_n : Fld := ⟨0x100E, 0, 6⟩
def MC_LOL_CFG.lol_angle : Fld := ⟨0x100E, 8, 8⟩
def MC_LOL_CFG.lol_flux : Fld := ⟨0x100E, 16, 8⟩
def MC_LOL_CFG.reacq_win : Fld := ⟨0x100E, 24, 8⟩
/-- MC_SC_CFG - set offset 0x100F - Short-circuit estimator (05_rotor_estimation_and_startup.md). -/
def MC_SC_CFG.reg : Nat := 0x100F
def MC_SC_CFG.sc_settle : Fld := ⟨0x100F, 0, 8⟩
def MC_SC_CFG.sc_turns : Fld := ⟨0x100F, 8, 4⟩
/-- MC_STALL_CFG - set offset 0x1010 - Stall (05_rotor_estimation_and_startup.md). -/
def MC_STALL_CFG.reg : Nat := 0x1010
def MC_STALL_CFG.stall_dspeed : Fld := ⟨0x1010, 0, 16⟩
def MC_STALL_CFG.stall_t : Fld := ⟨0x1010, 16, 8⟩
def MC_STALL_CFG.stall_zc_n : Fld := ⟨0x1010, 24, 4⟩
/-- MC_ZC_WIN - set offset 0x1011 - Zero-crossing window (05_rotor_estimation_and_startup.md). -/
def MC_ZC_WIN.reg : Nat := 0x1011
def MC_ZC_WIN.zc_lo : Fld := ⟨0x1011, 0, 8⟩
def MC_ZC_WIN.zc_hi : Fld := ⟨0x1011, 8, 8⟩
/-- LN_CFG - 0x00_8000 - Lane pool configuration (06_control_lanes.md). -/
def LN_CFG.reg : Nat := 0x8000
def LN_CFG.rate_min : Fld := ⟨0x8000, 0, 13⟩
def LN_CFG.util_max : Fld := ⟨0x8000, 16, 8⟩
def LN_CFG.guard : Fld := ⟨0x8000, 24, 8⟩
/-- LN_STAT - 0x00_8001 - Lane states (06_control_lanes.md). -/
def LN_STAT.reg : Nat := 0x8001
def LN_STAT.in_service : Fld := ⟨0x8001, 0, 8⟩
def LN_STAT.spare : Fld := ⟨0x8001, 8, 8⟩
def LN_STAT.retired : Fld := ⟨0x8001, 16, 8⟩
def LN_STAT.draining : Fld := ⟨0x8001, 24, 8⟩
/-- LN_LOAD - 0x00_8002 - Pool utilisation (06_control_lanes.md). -/
def LN_LOAD.reg : Nat := 0x8002
def LN_LOAD.util : Fld := ⟨0x8002, 0, 8⟩
def LN_LOAD.util_peak : Fld := ⟨0x8002, 8, 8⟩
/-- LN_CNT - 0x00_8003 - Pool counters (06_control_lanes.md). -/
def LN_CNT.reg : Nat := 0x8003
def LN_CNT.miss_count : Fld := ⟨0x8003, 0, 8⟩
def LN_CNT.rerun_count : Fld := ⟨0x8003, 8, 8⟩
def LN_CNT.fail_count : Fld := ⟨0x8003, 16, 8⟩
def LN_CNT.drop_count : Fld := ⟨0x8003, 24, 8⟩
/-- LN_BOUND - 0x00_8004 - Least slack (06_control_lanes.md). -/
def LN_BOUND.reg : Nat := 0x8004
def LN_BOUND.slack_min : Fld := ⟨0x8004, 0, 16⟩
def LN_BOUND.slack_cl : Fld := ⟨0x8004, 16, 3⟩
/-- LN_LANEk - 0x00_8010 + k, k = 0 to 7 - Lane k (06_control_lanes.md). -/
def LN_LANE.reg : Nat := 0x8010
def LN_LANE.rate : Fld := ⟨0x8010, 0, 13⟩
def LN_LANE.state : Fld := ⟨0x8010, 13, 3⟩
def LN_LANE.job : Fld := ⟨0x8010, 16, 6⟩
def LN_LANE.cluster : Fld := ⟨0x8010, 22, 4⟩
/-- MC_LOOP_SAT - offset 0x0010 - Saturation record (06_control_lanes.md). -/
def MC_LOOP_SAT.reg : Nat := 0x10
def MC_LOOP_SAT.sat_sticky : Fld := ⟨0x10, 0, 12⟩
def MC_LOOP_SAT.sat_count : Fld := ⟨0x10, 16, 16⟩
/-- MC_LOOP_MISS - offset 0x0011 - Miss record (06_control_lanes.md). -/
def MC_LOOP_MISS.reg : Nat := 0x11
def MC_LOOP_MISS.miss_sticky : Fld := ⟨0x11, 0, 12⟩
def MC_LOOP_MISS.miss_count : Fld := ⟨0x11, 16, 16⟩
/-- MC_LOOP_BANK - offset 0x0012 - Coefficient banks (06_control_lanes.md). -/
def MC_LOOP_BANK.reg : Nat := 0x12
def MC_LOOP_BANK.active : Fld := ⟨0x12, 0, 4⟩
def MC_LOOP_BANK.pending : Fld := ⟨0x12, 4, 4⟩
def MC_LOOP_BANK.sheet : Fld := ⟨0x12, 8, 4⟩
/-- MC_LOOP_RAMP - offset 0x0013 - Reference ramps (06_control_lanes.md). -/
def MC_LOOP_RAMP.reg : Nat := 0x13
def MC_LOOP_RAMP.ramping : Fld := ⟨0x13, 0, 3⟩
/-- MC_LP_KPx - set offset 0x0100 + 8x - Proportional gain (06_control_lanes.md). -/
def MC_LP_KP.reg : Nat := 0x100
def MC_LP_KP.kp : Fld := ⟨0x100, 0, 32⟩
/-- MC_LP_KIx - set offset 0x0101 + 8x - Integral gain (06_control_lanes.md). -/
def MC_LP_KI.reg : Nat := 0x101
def MC_LP_KI.ki : Fld := ⟨0x101, 0, 32⟩
/-- MC_LP_KDx - set offset 0x0102 + 8x - Derivative (06_control_lanes.md). -/
def MC_LP_KD.reg : Nat := 0x102
def MC_LP_KD.kd : Fld := ⟨0x102, 0, 16⟩
def MC_LP_KD.tf : Fld := ⟨0x102, 16, 16⟩
/-- MC_LP_LIMx - set offset 0x0103 + 8x - Limit and ramp (06_control_lanes.md). -/
def MC_LP_LIM.reg : Nat := 0x103
def MC_LP_LIM.out_lim : Fld := ⟨0x103, 0, 16⟩
def MC_LP_LIM.ss_rate : Fld := ⟨0x103, 16, 16⟩
/-- MC_LOOP_CFG - set offset 0x0120 - Loop configuration (06_control_lanes.md). -/
def MC_LOOP_CFG.reg : Nat := 0x120
def MC_LOOP_CFG.ff_sel : Fld := ⟨0x120, 0, 2⟩
def MC_LOOP_CFG.spd_src : Fld := ⟨0x120, 2, 1⟩
def MC_LOOP_CFG.spd_div : Fld := ⟨0x120, 4, 4⟩
def MC_LOOP_CFG.outer_dl : Fld := ⟨0x120, 8, 8⟩
/-- MC_FF_BUS_K - set offset 0x0121 - Bus feed-forward scale (06_control_lanes.md). -/
def MC_FF_BUS_K.reg : Nat := 0x121
def MC_FF_BUS_K.ff_bus_k : Fld := ⟨0x121, 0, 32⟩
/-- MC_FF_ACC_K - set offset 0x0122 - Acceleration feed-forward scale (06_control_lanes.md). -/
def MC_FF_ACC_K.reg : Nat := 0x122
def MC_FF_ACC_K.ff_acc_k : Fld := ⟨0x122, 0, 32⟩
/-- TR_CFG - offset 0x0 - Trace configuration (06_control_lanes.md). -/
def TR_CFG.reg : Nat := 0x0
def TR_CFG.cluster : Fld := ⟨0x0, 0, 3⟩
def TR_CFG.axis : Fld := ⟨0x0, 3, 1⟩
def TR_CFG.job : Fld := ⟨0x0, 4, 6⟩
def TR_CFG.decim : Fld := ⟨0x0, 16, 8⟩
def TR_CFG.mode : Fld := ⟨0x0, 24, 1⟩
/-- TR_NODE_LO - offset 0x1 - and TR_NODE_HI - offset 0x2 - Node selection (06_control_lanes.md). -/
def TR_NODE_LO.reg : Nat := 0x1
def TR_NODE_LO.node0 : Fld := ⟨0x1, 0, 8⟩
def TR_NODE_LO.node1 : Fld := ⟨0x1, 8, 8⟩
def TR_NODE_LO.node2 : Fld := ⟨0x1, 16, 8⟩
def TR_NODE_LO.node3 : Fld := ⟨0x1, 24, 8⟩
/-- TR_NODE_LO - offset 0x1 - and TR_NODE_HI - offset 0x2 - Node selection (06_control_lanes.md). -/
def TR_NODE_HI.reg : Nat := 0x2
def TR_NODE_HI.node4 : Fld := ⟨0x2, 0, 8⟩
def TR_NODE_HI.node5 : Fld := ⟨0x2, 8, 8⟩
def TR_NODE_HI.node6 : Fld := ⟨0x2, 16, 8⟩
def TR_NODE_HI.node7 : Fld := ⟨0x2, 24, 8⟩
/-- TR_TRIG - offset 0x3 - Trigger and commands (06_control_lanes.md). -/
def TR_TRIG.reg : Nat := 0x3
def TR_TRIG.ev : Fld := ⟨0x3, 0, 8⟩
def TR_TRIG.trig_src : Fld := ⟨0x3, 8, 2⟩
def TR_TRIG.arm : Fld := ⟨0x3, 10, 1⟩
def TR_TRIG.soft : Fld := ⟨0x3, 11, 1⟩
def TR_TRIG.stop : Fld := ⟨0x3, 12, 1⟩
/-- TR_DEPTH - offset 0x4 - Trigger depths (06_control_lanes.md). -/
def TR_DEPTH.reg : Nat := 0x4
def TR_DEPTH.pre : Fld := ⟨0x4, 0, 14⟩
def TR_DEPTH.post : Fld := ⟨0x4, 16, 14⟩
/-- TR_STAT - offset 0x5 - Trace status (06_control_lanes.md). -/
def TR_STAT.reg : Nat := 0x5
def TR_STAT.state : Fld := ⟨0x5, 0, 2⟩
def TR_STAT.trig_pos : Fld := ⟨0x5, 2, 14⟩
def TR_STAT.wptr : Fld := ⟨0x5, 16, 14⟩
/-- ATL_STAT - 0x00_9000 - Atlas status (07_atlas_paging.md). -/
def ATL_STAT.reg : Nat := 0x9000
def ATL_STAT.rg_spares : Fld := ⟨0x9000, 0, 5⟩
def ATL_STAT.n_loaded : Fld := ⟨0x9000, 8, 13⟩
/-- ATL_CMD - 0x00_9001 - Sheet check (07_atlas_paging.md). -/
def ATL_CMD.reg : Nat := 0x9001
def ATL_CMD.sheet : Fld := ⟨0x9001, 0, 12⟩
def ATL_CMD.load : Fld := ⟨0x9001, 12, 1⟩
def ATL_CMD.busy : Fld := ⟨0x9001, 16, 1⟩
def ATL_CMD.result : Fld := ⟨0x9001, 17, 3⟩
/-- ATL_CNT - 0x00_9002 - Store counters (07_atlas_paging.md). -/
def ATL_CNT.reg : Nat := 0x9002
def ATL_CNT.ecc_corr : Fld := ⟨0x9002, 0, 16⟩
def ATL_CNT.uncorr : Fld := ⟨0x9002, 16, 8⟩
def ATL_CNT.rg_remap : Fld := ⟨0x9002, 24, 8⟩
/-- ATL_SHEET_STATk - 0x00_9100 + k, k = 0 to 255 - Sheet states (07_atlas_paging.md). -/
def ATL_SHEET_STAT.reg : Nat := 0x9100
def ATL_SHEET_STAT.state_0 : Fld := ⟨0x9100, 0, 2⟩
def ATL_SHEET_STAT.state_1 : Fld := ⟨0x9100, 2, 2⟩
def ATL_SHEET_STAT.state_2 : Fld := ⟨0x9100, 4, 2⟩
def ATL_SHEET_STAT.state_3 : Fld := ⟨0x9100, 6, 2⟩
def ATL_SHEET_STAT.state_4 : Fld := ⟨0x9100, 8, 2⟩
def ATL_SHEET_STAT.state_5 : Fld := ⟨0x9100, 10, 2⟩
def ATL_SHEET_STAT.state_6 : Fld := ⟨0x9100, 12, 2⟩
def ATL_SHEET_STAT.state_7 : Fld := ⟨0x9100, 14, 2⟩
def ATL_SHEET_STAT.state_8 : Fld := ⟨0x9100, 16, 2⟩
def ATL_SHEET_STAT.state_9 : Fld := ⟨0x9100, 18, 2⟩
def ATL_SHEET_STAT.state_10 : Fld := ⟨0x9100, 20, 2⟩
def ATL_SHEET_STAT.state_11 : Fld := ⟨0x9100, 22, 2⟩
def ATL_SHEET_STAT.state_12 : Fld := ⟨0x9100, 24, 2⟩
def ATL_SHEET_STAT.state_13 : Fld := ⟨0x9100, 26, 2⟩
def ATL_SHEET_STAT.state_14 : Fld := ⟨0x9100, 28, 2⟩
def ATL_SHEET_STAT.state_15 : Fld := ⟨0x9100, 30, 2⟩
/-- MC_ATL_STAT - offset 0x0020 - Pager status (07_atlas_paging.md). -/
def MC_ATL_STAT.reg : Nat := 0x20
def MC_ATL_STAT.s_bin : Fld := ⟨0x20, 0, 4⟩
def MC_ATL_STAT.l_bin : Fld := ⟨0x20, 4, 4⟩
def MC_ATL_STAT.t_bin : Fld := ⟨0x20, 8, 2⟩
def MC_ATL_STAT.blended : Fld := ⟨0x20, 10, 1⟩
def MC_ATL_STAT.fill_busy : Fld := ⟨0x20, 11, 1⟩
def MC_ATL_STAT.held : Fld := ⟨0x20, 12, 1⟩
def MC_ATL_STAT.critical : Fld := ⟨0x20, 13, 1⟩
/-- MC_ATL_ACT - offset 0x0021 - Active group-0 content (07_atlas_paging.md). -/
def MC_ATL_ACT.reg : Nat := 0x21
def MC_ATL_ACT.sheet : Fld := ⟨0x21, 0, 12⟩
def MC_ATL_ACT.sheet_valid : Fld := ⟨0x21, 12, 1⟩
def MC_ATL_ACT.w_s : Fld := ⟨0x21, 13, 4⟩
def MC_ATL_ACT.w_l : Fld := ⟨0x21, 17, 4⟩
/-- MC_ATL_CNT - offset 0x0022 - Pager counters (07_atlas_paging.md). -/
def MC_ATL_CNT.reg : Nat := 0x22
def MC_ATL_CNT.miss_count : Fld := ⟨0x22, 0, 16⟩
def MC_ATL_CNT.crc_count : Fld := ⟨0x22, 16, 8⟩
def MC_ATL_CNT.refused : Fld := ⟨0x22, 24, 8⟩
/-- MC_ATL_CFG - set offset 0x0200 - Index configuration (07_atlas_paging.md). -/
def MC_ATL_CFG.reg : Nat := 0x200
def MC_ATL_CFG.en : Fld := ⟨0x200, 0, 1⟩
def MC_ATL_CFG.blend : Fld := ⟨0x200, 1, 1⟩
def MC_ATL_CFG.n_spd : Fld := ⟨0x200, 2, 4⟩
def MC_ATL_CFG.n_load : Fld := ⟨0x200, 6, 4⟩
def MC_ATL_CFG.n_temp : Fld := ⟨0x200, 10, 2⟩
def MC_ATL_CFG.temp_src : Fld := ⟨0x200, 12, 3⟩
def MC_ATL_CFG.hyst : Fld := ⟨0x200, 16, 4⟩
/-- MC_ATL_TIME - set offset 0x0201 - Pager timing (07_atlas_paging.md). -/
def MC_ATL_TIME.reg : Nat := 0x201
def MC_ATL_TIME.atl_period : Fld := ⟨0x201, 0, 8⟩
def MC_ATL_TIME.pf_horizon : Fld := ⟨0x201, 8, 8⟩
def MC_ATL_TIME.fill_budget : Fld := ⟨0x201, 16, 8⟩
/-- MC_ATL_AXIS - set offset 0x0202 - Bin widths (07_atlas_paging.md). -/
def MC_ATL_AXIS.reg : Nat := 0x202
def MC_ATL_AXIS.spd_w : Fld := ⟨0x202, 0, 16⟩
def MC_ATL_AXIS.load_w : Fld := ⟨0x202, 16, 16⟩
/-- MC_ATL_TEDGE - set offset 0x0203 - Temperature edges (07_atlas_paging.md). -/
def MC_ATL_TEDGE.reg : Nat := 0x203
def MC_ATL_TEDGE.t_edge0 : Fld := ⟨0x203, 0, 10⟩
def MC_ATL_TEDGE.t_edge1 : Fld := ⟨0x203, 10, 10⟩
def MC_ATL_TEDGE.t_edge2 : Fld := ⟨0x203, 20, 10⟩
/-- MC_ATL_IDXk - set offset 0x2000 + k, k = 0 to 511 - Index entries (07_atlas_paging.md). -/
def MC_ATL_IDX.reg : Nat := 0x2000
def MC_ATL_IDX.sheet_lo : Fld := ⟨0x2000, 0, 12⟩
def MC_ATL_IDX.valid_lo : Fld := ⟨0x2000, 12, 1⟩
def MC_ATL_IDX.sheet_hi : Fld := ⟨0x2000, 16, 12⟩
def MC_ATL_IDX.valid_hi : Fld := ⟨0x2000, 28, 1⟩
/-- xx_MO_CMD - offset 0x00 - Motion command (08_motion_and_steppers.md). -/
def MO_CMD.reg : Nat := 0x0
def MO_CMD.cmd : Fld := ⟨0x0, 0, 4⟩
def MO_CMD.arg : Fld := ⟨0x0, 8, 8⟩
/-- xx_MO_TGT_LO - offset 0x01 - and xx_MO_TGT_HI - offset 0x02 - Staged position (08_motion_and_steppers.md). -/
def MO_TGT_LO.reg : Nat := 0x1
def MO_TGT_LO.tgt : Fld := ⟨0x1, 0, 32⟩
/-- xx_MO_TGT_LO - offset 0x01 - and xx_MO_TGT_HI - offset 0x02 - Staged position (08_motion_and_steppers.md). -/
def MO_TGT_HI.reg : Nat := 0x2
def MO_TGT_HI.tgt : Fld := ⟨0x2, 0, 32⟩
/-- xx_MO_VEL - offset 0x03 - Staged velocity (08_motion_and_steppers.md). -/
def MO_VEL.reg : Nat := 0x3
def MO_VEL.vel : Fld := ⟨0x3, 0, 32⟩
/-- xx_MO_ACC - offset 0x04 - Staged acceleration (08_motion_and_steppers.md). -/
def MO_ACC.reg : Nat := 0x4
def MO_ACC.acc : Fld := ⟨0x4, 0, 32⟩
/-- xx_MO_WPX - offset 0x05 - Staged waypoint extras (08_motion_and_steppers.md). -/
def MO_WPX.reg : Nat := 0x5
def MO_WPX.dwell : Fld := ⟨0x5, 0, 16⟩
def MO_WPX.stop : Fld := ⟨0x5, 16, 1⟩
/-- xx_MO_STAT - offset 0x06 - Axis status (08_motion_and_steppers.md). -/
def MO_STAT.reg : Nat := 0x6
def MO_STAT.state : Fld := ⟨0x6, 0, 3⟩
def MO_STAT.phase : Fld := ⟨0x6, 3, 2⟩
def MO_STAT.acc_clamped : Fld := ⟨0x6, 5, 1⟩
def MO_STAT.v_clamped : Fld := ⟨0x6, 6, 1⟩
def MO_STAT.a_clamped : Fld := ⟨0x6, 7, 1⟩
def MO_STAT.homed : Fld := ⟨0x6, 8, 1⟩
def MO_STAT.pos_lost : Fld := ⟨0x6, 9, 1⟩
def MO_STAT.refused : Fld := ⟨0x6, 12, 4⟩
def MO_STAT.refuse_count : Fld := ⟨0x6, 16, 16⟩
/-- xx_MO_PSET_LO - offset 0x07 - and xx_MO_PSET_HI - offset 0x08 - Profile position (08_motion_and_steppers.md). -/
def MO_PSET_LO.reg : Nat := 0x7
def MO_PSET_LO.pset : Fld := ⟨0x7, 0, 32⟩
/-- xx_MO_PSET_LO - offset 0x07 - and xx_MO_PSET_HI - offset 0x08 - Profile position (08_motion_and_steppers.md). -/
def MO_PSET_HI.reg : Nat := 0x8
def MO_PSET_HI.pset : Fld := ⟨0x8, 0, 32⟩
/-- xx_MO_POS_LO - offset 0x09 - and xx_MO_POS_HI - offset 0x0A - Measured position (08_motion_and_steppers.md). -/
def MO_POS_LO.reg : Nat := 0x9
def MO_POS_LO.pos : Fld := ⟨0x9, 0, 32⟩
/-- xx_MO_POS_LO - offset 0x09 - and xx_MO_POS_HI - offset 0x0A - Measured position (08_motion_and_steppers.md). -/
def MO_POS_HI.reg : Nat := 0xA
def MO_POS_HI.pos : Fld := ⟨0xA, 0, 32⟩
/-- xx_MO_PVEL - offset 0x0B - Profile velocity (08_motion_and_steppers.md). -/
def MO_PVEL.reg : Nat := 0xB
def MO_PVEL.pvel : Fld := ⟨0xB, 0, 32⟩
/-- xx_MO_ROUTE - offset 0x0C - Route status (08_motion_and_steppers.md). -/
def MO_ROUTE.reg : Nat := 0xC
def MO_ROUTE.fill : Fld := ⟨0xC, 0, 5⟩
def MO_ROUTE.done : Fld := ⟨0xC, 8, 8⟩
def MO_ROUTE.blend_skip : Fld := ⟨0xC, 16, 8⟩
/-- MC_MO_MODE - cluster offset 0x1810 - Motor control mode (08_motion_and_steppers.md). -/
def MC_MO_MODE.reg : Nat := 0x1810
def MC_MO_MODE.mode : Fld := ⟨0x1810, 0, 1⟩
/-- ST_CFG - channel offset 0x0010 - Stepper structure (08_motion_and_steppers.md). -/
def ST_CFG.reg : Nat := 0x10
def ST_CFG.steps_rev : Fld := ⟨0x10, 0, 10⟩
def ST_CFG.dir_invert : Fld := ⟨0x10, 10, 1⟩
def ST_CFG.arm_hold : Fld := ⟨0x10, 11, 1⟩
def ST_CFG.enable : Fld := ⟨0x10, 12, 1⟩
/-- ST_DRV_STAT - channel offset 0x0011 - Drive status (08_motion_and_steppers.md). -/
def ST_DRV_STAT.reg : Nat := 0x11
def ST_DRV_STAT.level : Fld := ⟨0x11, 0, 3⟩
def ST_DRV_STAT.cur : Fld := ⟨0x11, 3, 2⟩
def ST_DRV_STAT.seg_a : Fld := ⟨0x11, 5, 5⟩
def ST_DRV_STAT.seg_b : Fld := ⟨0x11, 10, 5⟩
def ST_DRV_STAT.verdict_low : Fld := ⟨0x11, 15, 1⟩
def ST_DRV_STAT.bemf : Fld := ⟨0x11, 16, 16⟩
/-- ST_DRV_CNT - channel offset 0x0012 - Drive counters (08_motion_and_steppers.md). -/
def ST_DRV_CNT.reg : Nat := 0x12
def ST_DRV_CNT.stall_count : Fld := ⟨0x12, 0, 8⟩
def ST_DRV_CNT.ocp_count : Fld := ⟨0x12, 8, 8⟩
def ST_DRV_CNT.open_count : Fld := ⟨0x12, 16, 8⟩
def ST_DRV_CNT.seg_off : Fld := ⟨0x12, 24, 8⟩
/-- xx_MO_VMAX - offset 0x00 - Speed ceiling (08_motion_and_steppers.md). -/
def MO_VMAX.reg : Nat := 0x0
def MO_VMAX.v_max : Fld := ⟨0x0, 0, 32⟩
/-- xx_MO_AMAX - offset 0x01 - Acceleration ceiling (08_motion_and_steppers.md). -/
def MO_AMAX.reg : Nat := 0x1
def MO_AMAX.a_max : Fld := ⟨0x1, 0, 32⟩
/-- xx_MO_ASTOP - offset 0x02 - Stop deceleration (08_motion_and_steppers.md). -/
def MO_ASTOP.reg : Nat := 0x2
def MO_ASTOP.a_stop : Fld := ⟨0x2, 0, 32⟩
/-- xx_MO_TIME - offset 0x03 - Blend and servo period (08_motion_and_steppers.md). -/
def MO_TIME.reg : Nat := 0x3
def MO_TIME.t_blend : Fld := ⟨0x3, 0, 12⟩
def MO_TIME.serv_div : Fld := ⟨0x3, 12, 4⟩
/-- ST_CUR - offset 0x10 - Run and hold current (08_motion_and_steppers.md). -/
def ST_CUR.reg : Nat := 0x10
def ST_CUR.i_run : Fld := ⟨0x10, 0, 11⟩
def ST_CUR.i_hold : Fld := ⟨0x10, 11, 11⟩
/-- ST_CUR2 - offset 0x11 - Standby and homing current (08_motion_and_steppers.md). -/
def ST_CUR2.reg : Nat := 0x11
def ST_CUR2.i_standby : Fld := ⟨0x11, 0, 11⟩
def ST_CUR2.i_home : Fld := ⟨0x11, 11, 11⟩
/-- ST_STBY - offset 0x12 - Standby delay (08_motion_and_steppers.md). -/
def ST_STBY.reg : Nat := 0x12
def ST_STBY.t_standby : Fld := ⟨0x12, 0, 16⟩
/-- ST_CHOP - offset 0x13 - Chopper (08_motion_and_steppers.md). -/
def ST_CHOP.reg : Nat := 0x13
def ST_CHOP.t_off : Fld := ⟨0x13, 0, 7⟩
def ST_CHOP.t_blank : Fld := ⟨0x13, 8, 4⟩
def ST_CHOP.fd_rise : Fld := ⟨0x13, 12, 5⟩
def ST_CHOP.fd_fall : Fld := ⟨0x13, 17, 5⟩
/-- ST_USTEP0 - offset 0x14 - and ST_USTEP1 - offset 0x15 - Resolution thresholds (08_motion_and_steppers.md). -/
def ST_USTEP0.reg : Nat := 0x14
def ST_USTEP0.thr0 : Fld := ⟨0x14, 0, 14⟩
def ST_USTEP0.thr1 : Fld := ⟨0x14, 16, 14⟩
/-- ST_USTEP0 - offset 0x14 - and ST_USTEP1 - offset 0x15 - Resolution thresholds (08_motion_and_steppers.md). -/
def ST_USTEP1.reg : Nat := 0x15
def ST_USTEP1.thr2 : Fld := ⟨0x15, 0, 14⟩
def ST_USTEP1.thr3 : Fld := ⟨0x15, 16, 14⟩
/-- ST_USTEP2 - offset 0x16 - Resolution options (08_motion_and_steppers.md). -/
def ST_USTEP2.reg : Nat := 0x16
def ST_USTEP2.hyst : Fld := ⟨0x16, 0, 4⟩
def ST_USTEP2.half : Fld := ⟨0x16, 4, 1⟩
def ST_USTEP2.fixed : Fld := ⟨0x16, 5, 3⟩
/-- ST_STALL - offset 0x17 - Stall detection (08_motion_and_steppers.md). -/
def ST_STALL.reg : Nat := 0x17
def ST_STALL.stall_en : Fld := ⟨0x17, 0, 1⟩
def ST_STALL.sg_n : Fld := ⟨0x17, 1, 3⟩
def ST_STALL.sg_thr : Fld := ⟨0x17, 4, 8⟩
def ST_STALL.t_zcw : Fld := ⟨0x17, 12, 8⟩
def ST_STALL.stall_vmin : Fld := ⟨0x17, 20, 12⟩
/-- ST_HOME - offset 0x18 - Homing (08_motion_and_steppers.md). -/
def ST_HOME.reg : Nat := 0x18
def ST_HOME.home_mode : Fld := ⟨0x18, 0, 1⟩
def ST_HOME.home_dir : Fld := ⟨0x18, 1, 1⟩
def ST_HOME.home_v : Fld := ⟨0x18, 2, 14⟩
def ST_HOME.home_travel : Fld := ⟨0x18, 16, 16⟩
/-- ST_HOME2 - offset 0x19 - Home position (08_motion_and_steppers.md). -/
def ST_HOME2.reg : Nat := 0x19
def ST_HOME2.home_pos : Fld := ⟨0x19, 0, 16⟩
/-- MC_GATE_STAT - offset 0x1400 - Gate status (09_gate_drive_and_power_stage.md). -/
def MC_GATE_STAT.reg : Nat := 0x1400
def MC_GATE_STAT.gate_on : Fld := ⟨0x1400, 0, 6⟩
def MC_GATE_STAT.bst_uv : Fld := ⟨0x1400, 6, 3⟩
def MC_GATE_STAT.safe_side : Fld := ⟨0x1400, 9, 2⟩
def MC_GATE_STAT.short_held : Fld := ⟨0x1400, 11, 1⟩
def MC_GATE_STAT.hold_pump : Fld := ⟨0x1400, 12, 1⟩
def MC_GATE_STAT.code_clip : Fld := ⟨0x1400, 13, 6⟩
/-- MC_GATE_SHORT - offset 0x1401 - Known-short record (09_gate_drive_and_power_stage.md). -/
def MC_GATE_SHORT.reg : Nat := 0x1401
def MC_GATE_SHORT.known : Fld := ⟨0x1401, 0, 6⟩
def MC_GATE_SHORT.trip_sticky : Fld := ⟨0x1401, 6, 6⟩
def MC_GATE_SHORT.hard_sticky : Fld := ⟨0x1401, 12, 6⟩
def MC_GATE_SHORT.same_window : Fld := ⟨0x1401, 18, 1⟩
def MC_GATE_SHORT.clr : Fld := ⟨0x1401, 24, 1⟩
/-- MC_GATE_CNT - offset 0x1402 - Gate counters (09_gate_drive_and_power_stage.md). -/
def MC_GATE_CNT.reg : Nat := 0x1402
def MC_GATE_CNT.desat_count : Fld := ⟨0x1402, 0, 8⟩
def MC_GATE_CNT.hard_count : Fld := ⟨0x1402, 8, 8⟩
def MC_GATE_CNT.bst_uv_count : Fld := ⟨0x1402, 16, 8⟩
def MC_GATE_CNT.gate_fault_count : Fld := ⟨0x1402, 24, 8⟩
/-- MC_GATE_SEGs - offset 0x1404 + s, s = 0 to 5 - Segments of switch s (09_gate_drive_and_power_stage.md). -/
def MC_GATE_SEG.reg : Nat := 0x1404
def MC_GATE_SEG.src_n : Fld := ⟨0x1404, 0, 6⟩
def MC_GATE_SEG.snk_n : Fld := ⟨0x1404, 6, 6⟩
def MC_GATE_SEG.src_spare : Fld := ⟨0x1404, 12, 3⟩
def MC_GATE_SEG.snk_spare : Fld := ⟨0x1404, 15, 3⟩
def MC_GATE_SEG.sub_pending : Fld := ⟨0x1404, 18, 1⟩
/-- MC_GATE_CEIL - offset 0x1410 - Gate-drive ceiling (09_gate_drive_and_power_stage.md). -/
def MC_GATE_CEIL.reg : Nat := 0x1410
def MC_GATE_CEIL.i_ceil : Fld := ⟨0x1410, 0, 16⟩
/-- MC_GD_ON - set offset 0x1400 - Turn-on codes (09_gate_drive_and_power_stage.md). -/
def MC_GD_ON.reg : Nat := 0x1400
def MC_GD_ON.on1 : Fld := ⟨0x1400, 0, 6⟩
def MC_GD_ON.on2 : Fld := ⟨0x1400, 8, 6⟩
def MC_GD_ON.t_on1 : Fld := ⟨0x1400, 16, 8⟩
/-- MC_GD_OFF - set offset 0x1401 - Turn-off and hold codes (09_gate_drive_and_power_stage.md). -/
def MC_GD_OFF.reg : Nat := 0x1401
def MC_GD_OFF.off : Fld := ⟨0x1401, 0, 6⟩
def MC_GD_OFF.soft : Fld := ⟨0x1401, 8, 6⟩
def MC_GD_OFF.hold_src : Fld := ⟨0x1401, 16, 6⟩
def MC_GD_OFF.hold_snk : Fld := ⟨0x1401, 24, 6⟩
/-- MC_GD_TIME - set offset 0x1402 - Switching times (09_gate_drive_and_power_stage.md). -/
def MC_GD_TIME.reg : Nat := 0x1402
def MC_GD_TIME.t_tr : Fld := ⟨0x1402, 0, 8⟩
def MC_GD_TIME.t_soft : Fld := ⟨0x1402, 8, 8⟩
/-- MC_GD_DESAT - set offset 0x1403 - Short-circuit detection (09_gate_drive_and_power_stage.md). -/
def MC_GD_DESAT.reg : Nat := 0x1403
def MC_GD_DESAT.t_blank : Fld := ⟨0x1403, 0, 4⟩
def MC_GD_DESAT.vds_thr : Fld := ⟨0x1403, 4, 5⟩
/-- MC_GD_BST - set offset 0x1404 - Bootstrap (09_gate_drive_and_power_stage.md). -/
def MC_GD_BST.reg : Nat := 0x1404
def MC_GD_BST.bst_uv : Fld := ⟨0x1404, 0, 4⟩
def MC_GD_BST.bst_filt : Fld := ⟨0x1404, 4, 8⟩
def MC_GD_BST.bst_uv_n : Fld := ⟨0x1404, 12, 8⟩
def MC_GD_BST.pre_t : Fld := ⟨0x1404, 20, 8⟩
/-- RG_PS_STAT - offset 0x0200 - Power-stage status (09_gate_drive_and_power_stage.md). -/
def RG_PS_STAT.reg : Nat := 0x200
def RG_PS_STAT.level : Fld := ⟨0x200, 0, 2⟩
def RG_PS_STAT.chop_on : Fld := ⟨0x200, 2, 1⟩
def RG_PS_STAT.ov2_act : Fld := ⟨0x200, 3, 1⟩
def RG_PS_STAT.ov3_latch : Fld := ⟨0x200, 4, 1⟩
def RG_PS_STAT.chop_desat : Fld := ⟨0x200, 5, 1⟩
def RG_PS_STAT.chop_noeffect : Fld := ⟨0x200, 6, 1⟩
def RG_PS_STAT.rbg_on : Fld := ⟨0x200, 7, 1⟩
def RG_PS_STAT.rbg_rev : Fld := ⟨0x200, 8, 1⟩
def RG_PS_STAT.bus_absent : Fld := ⟨0x200, 9, 1⟩
/-- RG_PS_CMD - offset 0x0201 - Power-stage commands (09_gate_drive_and_power_stage.md). -/
def RG_PS_CMD.reg : Nat := 0x201
def RG_PS_CMD.ov3_clr : Fld := ⟨0x201, 0, 1⟩
def RG_PS_CMD.chop_clr : Fld := ⟨0x201, 1, 1⟩
/-- RG_PS_CNT - offset 0x0202 - Power-stage counters (09_gate_drive_and_power_stage.md). -/
def RG_PS_CNT.reg : Nat := 0x202
def RG_PS_CNT.chop_count : Fld := ⟨0x202, 0, 8⟩
def RG_PS_CNT.ov2_count : Fld := ⟨0x202, 8, 8⟩
def RG_PS_CNT.ov3_count : Fld := ⟨0x202, 16, 8⟩
def RG_PS_CNT.rbg_rev_count : Fld := ⟨0x202, 24, 8⟩
/-- RG_OV_ACT - offset 0x0203 - Thresholds in force (09_gate_drive_and_power_stage.md). -/
def RG_OV_ACT.reg : Nat := 0x203
def RG_OV_ACT.ov1 : Fld := ⟨0x203, 0, 10⟩
def RG_OV_ACT.ov2 : Fld := ⟨0x203, 10, 10⟩
def RG_OV_ACT.ov3 : Fld := ⟨0x203, 20, 10⟩
/-- RG_GATE_SEGg - offset 0x0204 + g, g = 0 brake, 1 reverse-battery - Segments of a region output (09_gate_drive_and_power_stage.md). -/
def RG_GATE_SEG.reg : Nat := 0x204
def RG_GATE_SEG.src_n : Fld := ⟨0x204, 0, 6⟩
def RG_GATE_SEG.snk_n : Fld := ⟨0x204, 6, 6⟩
def RG_GATE_SEG.src_spare : Fld := ⟨0x204, 12, 3⟩
def RG_GATE_SEG.snk_spare : Fld := ⟨0x204, 15, 3⟩
def RG_GATE_SEG.sub_pending : Fld := ⟨0x204, 18, 1⟩
/-- RG_RBG_CFG - offset 0x0210 - Reverse-battery switch (09_gate_drive_and_power_stage.md). -/
def RG_RBG_CFG.reg : Nat := 0x210
def RG_RBG_CFG.rbg_en : Fld := ⟨0x210, 0, 1⟩
/-- RG_OV_THR - offset 0x0280 - Bus thresholds (09_gate_drive_and_power_stage.md). -/
def RG_OV_THR.reg : Nat := 0x280
def RG_OV_THR.ov1 : Fld := ⟨0x280, 0, 10⟩
def RG_OV_THR.ov2 : Fld := ⟨0x280, 10, 10⟩
def RG_OV_THR.ov3 : Fld := ⟨0x280, 20, 10⟩
/-- RG_OV_CFG - offset 0x0281 - Ladder timing (09_gate_drive_and_power_stage.md). -/
def RG_OV_CFG.reg : Nat := 0x281
def RG_OV_CFG.ov1_hyst : Fld := ⟨0x281, 0, 8⟩
def RG_OV_CFG.ov2_hold : Fld := ⟨0x281, 8, 8⟩
def RG_OV_CFG.rise_tol : Fld := ⟨0x281, 16, 8⟩
def RG_OV_CFG.ov_filt : Fld := ⟨0x281, 24, 8⟩
/-- RG_BRK_GD - offset 0x0282 - Brake gate codes (09_gate_drive_and_power_stage.md). -/
def RG_BRK_GD.reg : Nat := 0x282
def RG_BRK_GD.on : Fld := ⟨0x282, 0, 6⟩
def RG_BRK_GD.off : Fld := ⟨0x282, 8, 6⟩
def RG_BRK_GD.soft : Fld := ⟨0x282, 16, 6⟩
def RG_BRK_GD.hold : Fld := ⟨0x282, 24, 6⟩
/-- RG_BRK_DESAT - offset 0x0283 - Brake switch detection (09_gate_drive_and_power_stage.md). -/
def RG_BRK_DESAT.reg : Nat := 0x283
def RG_BRK_DESAT.t_blank : Fld := ⟨0x283, 0, 4⟩
def RG_BRK_DESAT.vds_thr : Fld := ⟨0x283, 4, 5⟩
def RG_BRK_DESAT.t_tr : Fld := ⟨0x283, 16, 8⟩
def RG_BRK_DESAT.t_soft : Fld := ⟨0x283, 24, 8⟩
/-- MC_CONV_CFG - offset 0x0040 - Personality (10_converter_personality.md). -/
def MC_CONV_CFG.reg : Nat := 0x40
def MC_CONV_CFG.personality : Fld := ⟨0x40, 0, 1⟩
def MC_CONV_CFG.partner : Fld := ⟨0x40, 1, 3⟩
def MC_CONV_CFG.vlo_gain : Fld := ⟨0x40, 16, 16⟩
/-- MC_CONV_STAT - offset 0x0041 - Converter status (10_converter_personality.md). -/
def MC_CONV_STAT.reg : Nat := 0x41
def MC_CONV_STAT.active : Fld := ⟨0x41, 0, 3⟩
def MC_CONV_STAT.clamped : Fld := ⟨0x41, 3, 3⟩
def MC_CONV_STAT.leader : Fld := ⟨0x41, 6, 1⟩
def MC_CONV_STAT.vlo_off : Fld := ⟨0x41, 7, 1⟩
def MC_CONV_STAT.n_active : Fld := ⟨0x41, 8, 3⟩
/-- MC_CONV_VLO - offset 0x0042 - Second net (10_converter_personality.md). -/
def MC_CONV_VLO.reg : Nat := 0x42
def MC_CONV_VLO.vlo : Fld := ⟨0x42, 0, 17⟩
/-- MC_CONV_IREF - offset 0x0043 - Mean reference (10_converter_personality.md). -/
def MC_CONV_IREF.reg : Nat := 0x43
def MC_CONV_IREF.iref : Fld := ⟨0x43, 0, 32⟩
/-- MC_CONV_CNT - offset 0x0044 - Converter counters (10_converter_personality.md). -/
def MC_CONV_CNT.reg : Nat := 0x44
def MC_CONV_CNT.oc_count : Fld := ⟨0x44, 0, 8⟩
def MC_CONV_CNT.shed_count : Fld := ⟨0x44, 8, 8⟩
def MC_CONV_CNT.add_count : Fld := ⟨0x44, 16, 8⟩
def MC_CONV_CNT.vlo_stale : Fld := ⟨0x44, 24, 8⟩
/-- MC_CONV_EFWD_LO, MC_CONV_EFWD_HI, MC_CONV_EREV_LO, MC_CONV_EREV_HI - offsets 0x0045 to 0x0048 - Energy meters (10_converter_personality.md). -/
def MC_CONV_EFWD_LO.reg : Nat := 0x45
def MC_CONV_EFWD_LO.energy : Fld := ⟨0x45, 0, 32⟩
/-- MC_CONV_EFWD_LO, MC_CONV_EFWD_HI, MC_CONV_EREV_LO, MC_CONV_EREV_HI - offsets 0x0045 to 0x0048 - Energy meters (10_converter_personality.md). -/
def MC_CONV_EFWD_HI.reg : Nat := 0x46
def MC_CONV_EFWD_HI.energy : Fld := ⟨0x46, 0, 32⟩
/-- MC_CONV_EFWD_LO, MC_CONV_EFWD_HI, MC_CONV_EREV_LO, MC_CONV_EREV_HI - offsets 0x0045 to 0x0048 - Energy meters (10_converter_personality.md). -/
def MC_CONV_EREV_LO.reg : Nat := 0x47
def MC_CONV_EREV_LO.energy : Fld := ⟨0x47, 0, 32⟩
/-- MC_CONV_EFWD_LO, MC_CONV_EFWD_HI, MC_CONV_EREV_LO, MC_CONV_EREV_HI - offsets 0x0045 to 0x0048 - Energy meters (10_converter_personality.md). -/
def MC_CONV_EREV_HI.reg : Nat := 0x48
def MC_CONV_EREV_HI.energy : Fld := ⟨0x48, 0, 32⟩
/-- MC_CONV_CMD - offset 0x0049 - Converter command (10_converter_personality.md). -/
def MC_CONV_CMD.reg : Nat := 0x49
def MC_CONV_CMD.e_clr : Fld := ⟨0x49, 0, 1⟩
/-- MC_CONV_ISET - offset 0x004A - Current set-point (10_converter_personality.md). -/
def MC_CONV_ISET.reg : Nat := 0x4A
def MC_CONV_ISET.iset : Fld := ⟨0x4A, 0, 32⟩
/-- MC_CONV_VSET - offset 0x004B - Voltage set-point (10_converter_personality.md). -/
def MC_CONV_VSET.reg : Nat := 0x4B
def MC_CONV_VSET.vset : Fld := ⟨0x4B, 0, 17⟩
/-- MC_CV_MODE - set offset 0x0300 - Loop and shedding (10_converter_personality.md). -/
def MC_CV_MODE.reg : Nat := 0x300
def MC_CV_MODE.reg_mode : Fld := ⟨0x300, 0, 2⟩
def MC_CV_MODE.rev_en : Fld := ⟨0x300, 2, 1⟩
def MC_CV_MODE.shed_en : Fld := ⟨0x300, 3, 1⟩
def MC_CV_MODE.cv_div : Fld := ⟨0x300, 4, 4⟩
def MC_CV_MODE.min_ph : Fld := ⟨0x300, 8, 3⟩
def MC_CV_MODE.shed_t : Fld := ⟨0x300, 16, 8⟩
def MC_CV_MODE.oc_n : Fld := ⟨0x300, 24, 8⟩
/-- MC_CV_SHED - set offset 0x0301 - Shedding thresholds (10_converter_personality.md). -/
def MC_CV_SHED.reg : Nat := 0x301
def MC_CV_SHED.i_shed : Fld := ⟨0x301, 0, 16⟩
def MC_CV_SHED.i_add : Fld := ⟨0x301, 16, 16⟩
/-- MC_CV_PROT - set offset 0x0302 - Overcurrent (10_converter_personality.md). -/
def MC_CV_PROT.reg : Nat := 0x302
def MC_CV_PROT.oc_lim : Fld := ⟨0x302, 0, 16⟩
/-- MC_CV_VLIM - set offset 0x0303 - VLO limits (10_converter_personality.md). -/
def MC_CV_VLIM.reg : Nat := 0x303
def MC_CV_VLIM.vlo_ov : Fld := ⟨0x303, 0, 16⟩
def MC_CV_VLIM.vlo_uv : Fld := ⟨0x303, 16, 16⟩
/-- TH_CNT - 0x00_3000 - Thermal counters (11_thermal_management.md). -/
def TH_CNT.reg : Nat := 0x3000
def TH_CNT.broken_count : Fld := ⟨0x3000, 0, 8⟩
def TH_CNT.rate_count : Fld := ⟨0x3000, 8, 8⟩
def TH_CNT.cold_refuse : Fld := ⟨0x3000, 16, 8⟩
/-- TH_DIE_Td - 0x00_3001 + d, d = 0 Kilid, 1 Polrex A, 2 Polrex B - Die temperature (11_thermal_management.md). -/
def TH_DIE_T.reg : Nat := 0x3001
def TH_DIE_T.t_die : Fld := ⟨0x3001, 0, 16⟩
def TH_DIE_T.hottest : Fld := ⟨0x3001, 16, 4⟩
/-- TH_NTC_Tk - 0x00_3004 + k, k = 0 to 3 - Thermistor reading (11_thermal_management.md). -/
def TH_NTC_T.reg : Nat := 0x3004
def TH_NTC_T.t_ntc : Fld := ⟨0x3004, 0, 16⟩
def TH_NTC_T.broken : Fld := ⟨0x3004, 16, 1⟩
def TH_NTC_T.block : Fld := ⟨0x3004, 17, 1⟩
def TH_NTC_T.cap : Fld := ⟨0x3004, 18, 1⟩
/-- TH_SENS_STATd - 0x00_3008 + d - Die sensors (11_thermal_management.md). -/
def TH_SENS_STAT.reg : Nat := 0x3008
def TH_SENS_STAT.broken : Fld := ⟨0x3008, 0, 13⟩
def TH_SENS_STAT.spare_role : Fld := ⟨0x3008, 13, 4⟩
def TH_SENS_STAT.spare_used : Fld := ⟨0x3008, 17, 1⟩
def TH_SENS_STAT.no_spare : Fld := ⟨0x3008, 18, 1⟩
/-- TH_BRK_Tg - 0x00_300B + g, g = 0 DA, 1 DB - Brake-switch temperature (11_thermal_management.md). -/
def TH_BRK_T.reg : Nat := 0x300B
def TH_BRK_T.tj : Fld := ⟨0x300B, 0, 16⟩
def TH_BRK_T.invalid : Fld := ⟨0x300B, 16, 1⟩
/-- TH_ST_CFG - 0x00_300D - Stepper derating (11_thermal_management.md). -/
def TH_ST_CFG.reg : Nat := 0x300D
def TH_ST_CFG.st_ceil0 : Fld := ⟨0x300D, 0, 11⟩
def TH_ST_CFG.st_ceil1 : Fld := ⟨0x300D, 11, 11⟩
def TH_ST_CFG.st_floor : Fld := ⟨0x300D, 22, 8⟩
/-- TH_ST_STAT - 0x00_300E - Stepper factors (11_thermal_management.md). -/
def TH_ST_STAT.reg : Nat := 0x300E
def TH_ST_STAT.ki_sc0 : Fld := ⟨0x300E, 0, 13⟩
def TH_ST_STAT.ki_sc1 : Fld := ⟨0x300E, 16, 13⟩
/-- TH_NTC_CFGk - 0x00_3010 + k - Thermistor (11_thermal_management.md). -/
def TH_NTC_CFG.reg : Nat := 0x3010
def TH_NTC_CFG.r25 : Fld := ⟨0x3010, 0, 16⟩
def TH_NTC_CFG.beta : Fld := ⟨0x3010, 16, 13⟩
/-- TH_NTC_MASKk - 0x00_3014 + k - Thermistor targets (11_thermal_management.md). -/
def TH_NTC_MASK.reg : Nat := 0x3014
def TH_NTC_MASK.der_mask : Fld := ⟨0x3014, 0, 8⟩
def TH_NTC_MASK.cold_mask : Fld := ⟨0x3014, 8, 8⟩
/-- TH_LIM_DIEd - 0x00_3040 + d - and TH_LIM_NTCk - 0x00_3043 + k - Limit sets (11_thermal_management.md). -/
def TH_LIM_DIE.reg : Nat := 0x3040
def TH_LIM_DIE.warn : Fld := ⟨0x3040, 0, 10⟩
def TH_LIM_DIE.derate : Fld := ⟨0x3040, 10, 10⟩
def TH_LIM_DIE.trip : Fld := ⟨0x3040, 20, 10⟩
/-- TH_LIM_DIEd - 0x00_3040 + d - and TH_LIM_NTCk - 0x00_3043 + k - Limit sets (11_thermal_management.md). -/
def TH_LIM_NTC.reg : Nat := 0x3043
def TH_LIM_NTC.warn : Fld := ⟨0x3043, 0, 10⟩
def TH_LIM_NTC.derate : Fld := ⟨0x3043, 10, 10⟩
def TH_LIM_NTC.trip : Fld := ⟨0x3043, 20, 10⟩
/-- TH_COLDk - 0x00_3047 + k - Cold limits (11_thermal_management.md). -/
def TH_COLD.reg : Nat := 0x3047
def TH_COLD.cold_block : Fld := ⟨0x3047, 0, 10⟩
def TH_COLD.cold_cap : Fld := ⟨0x3047, 10, 10⟩
def TH_COLD.cap_k : Fld := ⟨0x3047, 20, 8⟩
/-- TH_RATE_CFG - 0x00_304B - Package rate limits (11_thermal_management.md). -/
def TH_RATE_CFG.reg : Nat := 0x304B
def TH_RATE_CFG.die_rate : Fld := ⟨0x304B, 0, 8⟩
def TH_RATE_CFG.ntc_rate : Fld := ⟨0x304B, 8, 8⟩
def TH_RATE_CFG.brk_rate : Fld := ⟨0x304B, 16, 8⟩
def TH_RATE_CFG.rate_win : Fld := ⟨0x304B, 24, 8⟩
/-- TH_BRK_FRg - 0x00_304C + g - and TH_BRK_FTg - 0x00_304E + g - Brake Foster network (11_thermal_management.md). -/
def TH_BRK_FR.reg : Nat := 0x304C
def TH_BRK_FR.r1 : Fld := ⟨0x304C, 0, 10⟩
def TH_BRK_FR.r2 : Fld := ⟨0x304C, 10, 10⟩
def TH_BRK_FR.r3 : Fld := ⟨0x304C, 20, 10⟩
/-- TH_BRK_FRg - 0x00_304C + g - and TH_BRK_FTg - 0x00_304E + g - Brake Foster network (11_thermal_management.md). -/
def TH_BRK_FT.reg : Nat := 0x304E
def TH_BRK_FT.tau1 : Fld := ⟨0x304E, 0, 10⟩
def TH_BRK_FT.tau2 : Fld := ⟨0x304E, 10, 10⟩
def TH_BRK_FT.tau3 : Fld := ⟨0x304E, 20, 10⟩
/-- TH_BRK_LIMg - 0x00_3050 + g - Brake limit set (11_thermal_management.md). -/
def TH_BRK_LIM.reg : Nat := 0x3050
def TH_BRK_LIM.warn : Fld := ⟨0x3050, 0, 10⟩
def TH_BRK_LIM.derate : Fld := ⟨0x3050, 10, 10⟩
def TH_BRK_LIM.trip : Fld := ⟨0x3050, 20, 10⟩
/-- TH_BRK_Pg - 0x00_3052 + g - Brake loss (11_thermal_management.md). -/
def TH_BRK_P.reg : Nat := 0x3052
def TH_BRK_P.r_brk : Fld := ⟨0x3052, 0, 10⟩
def TH_BRK_P.rds_brk : Fld := ⟨0x3052, 10, 8⟩
def TH_BRK_P.e_brk : Fld := ⟨0x3052, 18, 8⟩
def TH_BRK_P.brk_ref : Fld := ⟨0x3052, 26, 3⟩
/-- MC_TH_Ts - offset 0x1C00 + s, s = 0 to 5 - Switch s (11_thermal_management.md). -/
def MC_TH_T.reg : Nat := 0x1C00
def MC_TH_T.tj : Fld := ⟨0x1C00, 0, 16⟩
def MC_TH_T.invalid : Fld := ⟨0x1C00, 16, 1⟩
def MC_TH_T.r_on : Fld := ⟨0x1C00, 17, 15⟩
/-- MC_TH_STAT - offset 0x1C06 - Derating status (11_thermal_management.md). -/
def MC_TH_STAT.reg : Nat := 0x1C06
def MC_TH_STAT.k_i : Fld := ⟨0x1C06, 0, 13⟩
def MC_TH_STAT.k_f : Fld := ⟨0x1C06, 13, 5⟩
def MC_TH_STAT.hottest : Fld := ⟨0x1C06, 18, 3⟩
def MC_TH_STAT.limiter : Fld := ⟨0x1C06, 21, 3⟩
def MC_TH_STAT.cold_block : Fld := ⟨0x1C06, 24, 1⟩
/-- MC_TH_CEIL - offset 0x1C07 - Ceiling and reference (11_thermal_management.md). -/
def MC_TH_CEIL.reg : Nat := 0x1C07
def MC_TH_CEIL.th_ceil : Fld := ⟨0x1C07, 0, 16⟩
def MC_TH_CEIL.ref_src : Fld := ⟨0x1C07, 16, 3⟩
def MC_TH_CEIL.t_ref_fix : Fld := ⟨0x1C07, 19, 10⟩
/-- MC_TH_FR - set offset 0x1C00 - Foster resistances (11_thermal_management.md). -/
def MC_TH_FR.reg : Nat := 0x1C00
def MC_TH_FR.r1 : Fld := ⟨0x1C00, 0, 10⟩
def MC_TH_FR.r2 : Fld := ⟨0x1C00, 10, 10⟩
def MC_TH_FR.r3 : Fld := ⟨0x1C00, 20, 10⟩
/-- MC_TH_FT - set offset 0x1C01 - Foster time constants (11_thermal_management.md). -/
def MC_TH_FT.reg : Nat := 0x1C01
def MC_TH_FT.tau1 : Fld := ⟨0x1C01, 0, 10⟩
def MC_TH_FT.tau2 : Fld := ⟨0x1C01, 10, 10⟩
def MC_TH_FT.tau3 : Fld := ⟨0x1C01, 20, 10⟩
/-- MC_TH_LIM - set offset 0x1C02 - Switch limit set (11_thermal_management.md). -/
def MC_TH_LIM.reg : Nat := 0x1C02
def MC_TH_LIM.warn : Fld := ⟨0x1C02, 0, 10⟩
def MC_TH_LIM.derate : Fld := ⟨0x1C02, 10, 10⟩
def MC_TH_LIM.trip : Fld := ⟨0x1C02, 20, 10⟩
/-- MC_TH_DR - set offset 0x1C03 - Rate and floors (11_thermal_management.md). -/
def MC_TH_DR.reg : Nat := 0x1C03
def MC_TH_DR.rate_lim : Fld := ⟨0x1C03, 0, 8⟩
def MC_TH_DR.rate_win : Fld := ⟨0x1C03, 8, 8⟩
def MC_TH_DR.i_floor : Fld := ⟨0x1C03, 16, 12⟩
def MC_TH_DR.f_floor : Fld := ⟨0x1C03, 28, 4⟩
/-- MC_TH_RDS - set offset 0x1C04 - On-resistance fallback (11_thermal_management.md). -/
def MC_TH_RDS.reg : Nat := 0x1C04
def MC_TH_RDS.rds_fb : Fld := ⟨0x1C04, 0, 16⟩
def MC_TH_RDS.r_age : Fld := ⟨0x1C04, 16, 8⟩
/-- MC_TH_ESWj - set offset 0x1C10 + j, j = 0 to 15 - Switching-energy table (11_thermal_management.md). -/
def MC_TH_ESW.reg : Nat := 0x1C10
def MC_TH_ESW.esw : Fld := ⟨0x1C10, 0, 32⟩
/-- FC_STAT - 0x00_1000 - Collector status (12_faults_and_stewardship.md). -/
def FC_STAT.reg : Nat := 0x1000
def FC_STAT.sev_max : Fld := ⟨0x1000, 0, 3⟩
def FC_STAT.lantern_lit : Fld := ⟨0x1000, 3, 1⟩
def FC_STAT.irq : Fld := ⟨0x1000, 4, 1⟩
def FC_STAT.guy_any : Fld := ⟨0x1000, 5, 1⟩
def FC_STAT.n_sticky : Fld := ⟨0x1000, 8, 9⟩
/-- FC_CTRL - 0x00_1001 - Collector control (12_faults_and_stewardship.md). -/
def FC_CTRL.reg : Nat := 0x1001
def FC_CTRL.lantern_f : Fld := ⟨0x1001, 0, 4⟩
def FC_CTRL.irq_en : Fld := ⟨0x1001, 4, 1⟩
/-- FC_STICKYk - 0x00_1010 + k, k = 0 to 7 - Sticky bits (12_faults_and_stewardship.md). -/
def FC_STICKY.reg : Nat := 0x1010
def FC_STICKY.sticky : Fld := ⟨0x1010, 0, 32⟩
/-- FC_ASSERTk - 0x00_1018 + k - Asserted sources (12_faults_and_stewardship.md). -/
def FC_ASSERT.reg : Nat := 0x1018
def FC_ASSERT.asserted : Fld := ⟨0x1018, 0, 32⟩
/-- FC_GUYk - 0x00_1020 + k - Guy-line faults (12_faults_and_stewardship.md). -/
def FC_GUY.reg : Nat := 0x1020
def FC_GUY.guy : Fld := ⟨0x1020, 0, 32⟩
/-- FC_CNT_k - 0x00_1040 + k, k = 0 to 63 - Occurrence counters (12_faults_and_stewardship.md). -/
def FC_CNT.reg : Nat := 0x1040
def FC_CNT.cnt0 : Fld := ⟨0x1040, 0, 8⟩
def FC_CNT.cnt1 : Fld := ⟨0x1040, 8, 8⟩
def FC_CNT.cnt2 : Fld := ⟨0x1040, 16, 8⟩
def FC_CNT.cnt3 : Fld := ⟨0x1040, 24, 8⟩
/-- FC_SEV_nnn - 0x00_1100 + n, n = 0 to 255 - Severity of EVn, package set (12_faults_and_stewardship.md). -/
def FC_SEV.reg : Nat := 0x1100
def FC_SEV.sev : Fld := ⟨0x1100, 0, 3⟩
def FC_SEV.scope : Fld := ⟨0x1100, 3, 3⟩
def FC_SEV.irq : Fld := ⟨0x1100, 6, 1⟩
def FC_SEV.derate_k : Fld := ⟨0x1100, 8, 8⟩
/-- ST_SPARE0 - 0x00_2000 - Spares left (12_faults_and_stewardship.md). -/
def ST_SPARE0.reg : Nat := 0x2000
def ST_SPARE0.lanes : Fld := ⟨0x2000, 0, 2⟩
def ST_SPARE0.slices : Fld := ⟨0x2000, 2, 4⟩
def ST_SPARE0.amps : Fld := ⟨0x2000, 6, 3⟩
def ST_SPARE0.sensors : Fld := ⟨0x2000, 9, 2⟩
def ST_SPARE0.link : Fld := ⟨0x2000, 11, 3⟩
def ST_SPARE0.rows : Fld := ⟨0x2000, 14, 5⟩
/-- ST_SPARE1 - 0x00_2001 - Segment spares left (12_faults_and_stewardship.md). -/
def ST_SPARE1.reg : Nat := 0x2001
def ST_SPARE1.gate_seg : Fld := ⟨0x2001, 0, 9⟩
def ST_SPARE1.step_seg : Fld := ⟨0x2001, 16, 6⟩
/-- ST_EXH - 0x00_2002 - Exhausted classes (12_faults_and_stewardship.md). -/
def ST_EXH.reg : Nat := 0x2002
def ST_EXH.exh : Fld := ⟨0x2002, 1, 10⟩
/-- ST_HSEL - 0x00_2003 - Unit select (12_faults_and_stewardship.md). -/
def ST_HSEL.reg : Nat := 0x2003
def ST_HSEL.unit : Fld := ⟨0x2003, 0, 16⟩
/-- ST_HVAL - 0x00_2004 - Selected unit (12_faults_and_stewardship.md). -/
def ST_HVAL.reg : Nat := 0x2004
def ST_HVAL.health : Fld := ⟨0x2004, 0, 16⟩
def ST_HVAL.role : Fld := ⟨0x2004, 16, 2⟩
/-- ST_SUB - 0x00_2005 - Substitutions (12_faults_and_stewardship.md). -/
def ST_SUB.reg : Nat := 0x2005
def ST_SUB.sub_boot : Fld := ⟨0x2005, 0, 16⟩
def ST_SUB.sub_total : Fld := ⟨0x2005, 16, 16⟩
/-- ST_LIMc - 0x00_2010 + c, c = 0x1 to 0xA - Health limit of class c (12_faults_and_stewardship.md). -/
def ST_LIM.reg : Nat := 0x2010
def ST_LIM.limit : Fld := ⟨0x2010, 0, 16⟩
/-- LOG_STAT - 0x00_2020 - Logbook status (12_faults_and_stewardship.md). -/
def LOG_STAT.reg : Nat := 0x2020
def LOG_STAT.busy : Fld := ⟨0x2020, 0, 1⟩
def LOG_STAT.pending : Fld := ⟨0x2020, 1, 1⟩
def LOG_STAT.stopped : Fld := ⟨0x2020, 2, 1⟩
def LOG_STAT.bad : Fld := ⟨0x2020, 8, 7⟩
/-- LOG_SEQ - 0x00_2021 - Newest record (12_faults_and_stewardship.md). -/
def LOG_SEQ.reg : Nat := 0x2021
def LOG_SEQ.seq : Fld := ⟨0x2021, 0, 32⟩
/-- LOG_OPS - 0x00_2022 - Operating time (12_faults_and_stewardship.md). -/
def LOG_OPS.reg : Nat := 0x2022
def LOG_OPS.op_seconds : Fld := ⟨0x2022, 0, 32⟩
/-- LOG_BOOTS - 0x00_2023 - Boot count (12_faults_and_stewardship.md). -/
def LOG_BOOTS.reg : Nat := 0x2023
def LOG_BOOTS.boots : Fld := ⟨0x2023, 0, 16⟩
/-- LOG_CMD - 0x00_2024 - Logbook command (12_faults_and_stewardship.md). -/
def LOG_CMD.reg : Nat := 0x2024
def LOG_CMD.now : Fld := ⟨0x2024, 0, 1⟩
/-- LOG_CNT - 0x00_2025 - Logbook counters (12_faults_and_stewardship.md). -/
def LOG_CNT.reg : Nat := 0x2025
def LOG_CNT.written : Fld := ⟨0x2025, 0, 16⟩
def LOG_CNT.failed : Fld := ⟨0x2025, 16, 8⟩
/-- DEV_BOOT_STAT - 0x00_0010 - Boot status (13_image_boot_and_security.md). -/
def DEV_BOOT_STAT.reg : Nat := 0x10
def DEV_BOOT_STAT.reason0 : Fld := ⟨0x10, 0, 4⟩
def DEV_BOOT_STAT.reason1 : Fld := ⟨0x10, 4, 4⟩
def DEV_BOOT_STAT.octal : Fld := ⟨0x10, 8, 1⟩
def DEV_BOOT_STAT.fallback : Fld := ⟨0x10, 9, 1⟩
def DEV_BOOT_STAT.log_restored : Fld := ⟨0x10, 10, 1⟩
def DEV_BOOT_STAT.boot_time : Fld := ⟨0x10, 16, 16⟩
/-- DEV_BOOT_DIAG - 0x00_0011 - Failure detail (13_image_boot_and_security.md). -/
def DEV_BOOT_DIAG.reg : Nat := 0x11
def DEV_BOOT_DIAG.unit : Fld := ⟨0x11, 0, 4⟩
def DEV_BOOT_DIAG.check : Fld := ⟨0x11, 4, 8⟩
def DEV_BOOT_DIAG.section : Fld := ⟨0x11, 12, 6⟩
/-- DEV_IMG_SEQ - 0x00_0012 - Running image (13_image_boot_and_security.md). -/
def DEV_IMG_SEQ.reg : Nat := 0x12
def DEV_IMG_SEQ.seq : Fld := ⟨0x12, 0, 32⟩
/-- DEV_IMG_ALT - 0x00_0013 - Other slot (13_image_boot_and_security.md). -/
def DEV_IMG_ALT.reg : Nat := 0x13
def DEV_IMG_ALT.seq : Fld := ⟨0x13, 0, 32⟩
/-- DEV_BOOT_CTRL - 0x00_0014 - Boot control (13_image_boot_and_security.md). -/
def DEV_BOOT_CTRL.reg : Nat := 0x14
def DEV_BOOT_CTRL.load : Fld := ⟨0x14, 0, 1⟩
def DEV_BOOT_CTRL.auto_hold : Fld := ⟨0x14, 1, 1⟩
/-- DEV_LOG_BASE - 0x00_0015 - Logbook base (13_image_boot_and_security.md). -/
def DEV_LOG_BASE.reg : Nat := 0x15
def DEV_LOG_BASE.base : Fld := ⟨0x15, 12, 20⟩
/-- SEC_STAT - 0x00_4000 - Security status (13_image_boot_and_security.md). -/
def SEC_STAT.reg : Nat := 0x4000
def SEC_STAT.lifecycle : Fld := ⟨0x4000, 0, 2⟩
def SEC_STAT.debug_locked : Fld := ⟨0x4000, 2, 1⟩
def SEC_STAT.auth_lock : Fld := ⟨0x4000, 3, 1⟩
def SEC_STAT.trng_fail : Fld := ⟨0x4000, 4, 1⟩
def SEC_STAT.fail_run : Fld := ⟨0x4000, 8, 8⟩
def SEC_STAT.rb_level : Fld := ⟨0x4000, 16, 6⟩
def SEC_STAT.host_slot : Fld := ⟨0x4000, 22, 5⟩
/-- SEC_SESSION_LO - 0x00_4001 - and SEC_SESSION_HI - 0x00_4002 - Session value (13_image_boot_and_security.md). -/
def SEC_SESSION_LO.reg : Nat := 0x4001
def SEC_SESSION_LO.sess : Fld := ⟨0x4001, 0, 32⟩
/-- SEC_SESSION_LO - 0x00_4001 - and SEC_SESSION_HI - 0x00_4002 - Session value (13_image_boot_and_security.md). -/
def SEC_SESSION_HI.reg : Nat := 0x4002
def SEC_SESSION_HI.sess : Fld := ⟨0x4002, 0, 32⟩
/-- SEC_FRESH - 0x00_4003 - Lyjan freshness (13_image_boot_and_security.md). -/
def SEC_FRESH.reg : Nat := 0x4003
def SEC_FRESH.fresh : Fld := ⟨0x4003, 0, 32⟩
/-- SEC_CAN_SV - 0x00_4004 - Bus session value (13_image_boot_and_security.md). -/
def SEC_CAN_SV.reg : Nat := 0x4004
def SEC_CAN_SV.sv : Fld := ⟨0x4004, 0, 32⟩
/-- SEC_CNT - 0x00_4005 - Security counters (13_image_boot_and_security.md). -/
def SEC_CNT.reg : Nat := 0x4005
def SEC_CNT.auth_fail : Fld := ⟨0x4005, 0, 16⟩
def SEC_CNT.can_mac_fail : Fld := ⟨0x4005, 16, 16⟩
/-- SEC_TRNG - 0x00_4006 - Random word (13_image_boot_and_security.md). -/
def SEC_TRNG.reg : Nat := 0x4006
def SEC_TRNG.rnd : Fld := ⟨0x4006, 0, 24⟩
def SEC_TRNG.fresh : Fld := ⟨0x4006, 31, 1⟩
/-- SEC_CMD - 0x00_4007 - Security command (13_image_boot_and_security.md). -/
def SEC_CMD.reg : Nat := 0x4007
def SEC_CMD.cmd : Fld := ⟨0x4007, 0, 4⟩
def SEC_CMD.slot : Fld := ⟨0x4007, 4, 4⟩
def SEC_CMD.type : Fld := ⟨0x4007, 8, 2⟩
def SEC_CMD.usage : Fld := ⟨0x4007, 10, 2⟩
def SEC_CMD.result : Fld := ⟨0x4007, 16, 3⟩
/-- SEC_CAN_CFG - 0x00_4008 - Announcement identifier (13_image_boot_and_security.md). -/
def SEC_CAN_CFG.reg : Nat := 0x4008
def SEC_CAN_CFG.ann_id : Fld := ⟨0x4008, 0, 29⟩
def SEC_CAN_CFG.ann_ext : Fld := ⟨0x4008, 29, 1⟩
def SEC_CAN_CFG.ann_ctl : Fld := ⟨0x4008, 30, 2⟩
/-- SEC_CAN_CFG2 - 0x00_4009 - Secure-route timing (13_image_boot_and_security.md). -/
def SEC_CAN_CFG2.reg : Nat := 0x4009
def SEC_CAN_CFG2.fresh_win : Fld := ⟨0x4009, 0, 16⟩
def SEC_CAN_CFG2.ann_period : Fld := ⟨0x4009, 16, 8⟩
/-- SEC_SLOTk - 0x00_4010 + k, k = 0 to 15 - Key slot (13_image_boot_and_security.md). -/
def SEC_SLOT.reg : Nat := 0x4010
def SEC_SLOT.type : Fld := ⟨0x4010, 0, 2⟩
def SEC_SLOT.usage : Fld := ⟨0x4010, 2, 2⟩
def SEC_SLOT.revoked : Fld := ⟨0x4010, 4, 1⟩
def SEC_SLOT.kcv : Fld := ⟨0x4010, 16, 16⟩
/-- SEC_KEYBUFj - 0x00_4020 + j, j = 0 to 15 - Key buffer (13_image_boot_and_security.md). -/
def SEC_KEYBUF.reg : Nat := 0x4020
def SEC_KEYBUF.key : Fld := ⟨0x4020, 0, 32⟩
/-- HP_CFG - 0x00_5000 - Host port configuration (14_serial_ports_and_lyjan.md). -/
def HP_CFG.reg : Nat := 0x5000
def HP_CFG.spi_mode : Fld := ⟨0x5000, 0, 2⟩
def HP_CFG.wlen : Fld := ⟨0x5000, 8, 6⟩
/-- HP_STAT - 0x00_5001 - Host port status (14_serial_ports_and_lyjan.md). -/
def HP_STAT.reg : Nat := 0x5001
def HP_STAT.exec_busy : Fld := ⟨0x5001, 0, 1⟩
def HP_STAT.pkt_pending : Fld := ⟨0x5001, 1, 1⟩
def HP_STAT.chain_pending : Fld := ⟨0x5001, 2, 1⟩
def HP_STAT.hold_valid : Fld := ⟨0x5001, 3, 1⟩
def HP_STAT.last_status : Fld := ⟨0x5001, 8, 8⟩
def HP_STAT.last_tag : Fld := ⟨0x5001, 16, 2⟩
/-- HP_CNT - 0x00_5002 - Packet errors (14_serial_ports_and_lyjan.md). -/
def HP_CNT.reg : Nat := 0x5002
def HP_CNT.frame_err : Fld := ⟨0x5002, 0, 8⟩
def HP_CNT.len_err : Fld := ⟨0x5002, 8, 8⟩
def HP_CNT.crc_err : Fld := ⟨0x5002, 16, 8⟩
def HP_CNT.busy_count : Fld := ⟨0x5002, 24, 8⟩
/-- HP_CNT2 - 0x00_5003 - Other host port counters (14_serial_ports_and_lyjan.md). -/
def HP_CNT2.reg : Nat := 0x5003
def HP_CNT2.chain_crc : Fld := ⟨0x5003, 0, 8⟩
def HP_CNT2.resp_trunc : Fld := ⟨0x5003, 8, 8⟩
def HP_CNT2.range_count : Fld := ⟨0x5003, 16, 8⟩
def HP_CNT2.bad_pkt : Fld := ⟨0x5003, 24, 8⟩
/-- HP_CHAIN - 0x00_5004 - Chain state (14_serial_ports_and_lyjan.md). -/
def HP_CHAIN.reg : Nat := 0x5004
def HP_CHAIN.pointer : Fld := ⟨0x5004, 0, 24⟩
def HP_CHAIN.rx_count : Fld := ⟨0x5004, 24, 8⟩
/-- SP_CFGn - 0x00_5010 + 8n, n = 0, 1 - Sensor port configuration (14_serial_ports_and_lyjan.md). -/
def SP_CFG.reg : Nat := 0x5010
def SP_CFG.mode : Fld := ⟨0x5010, 0, 2⟩
def SP_CFG.spi_mode : Fld := ⟨0x5010, 2, 2⟩
def SP_CFG.wlen : Fld := ⟨0x5010, 4, 6⟩
def SP_CFG.stuck_chk : Fld := ⟨0x5010, 10, 1⟩
def SP_CFG.sck_div : Fld := ⟨0x5010, 16, 8⟩
/-- SP_TXWn - 0x00_5011 + 8n - Transmit word (14_serial_ports_and_lyjan.md). -/
def SP_TXW.reg : Nat := 0x5011
def SP_TXW.txw : Fld := ⟨0x5011, 0, 32⟩
/-- SP_CRCn - 0x00_5012 + 8n - Sensor CRC (14_serial_ports_and_lyjan.md). -/
def SP_CRC.reg : Nat := 0x5012
def SP_CRC.crc_len : Fld := ⟨0x5012, 0, 4⟩
def SP_CRC.poly : Fld := ⟨0x5012, 4, 8⟩
def SP_CRC.init : Fld := ⟨0x5012, 12, 8⟩
def SP_CRC.xorout : Fld := ⟨0x5012, 20, 8⟩
/-- SP_RXWn - 0x00_5013 + 8n - Received word (14_serial_ports_and_lyjan.md). -/
def SP_RXW.reg : Nat := 0x5013
def SP_RXW.rxw : Fld := ⟨0x5013, 0, 32⟩
/-- SP_CNTn - 0x00_5014 + 8n - Sensor port errors (14_serial_ports_and_lyjan.md). -/
def SP_CNT.reg : Nat := 0x5014
def SP_CNT.crc_err : Fld := ⟨0x5014, 0, 8⟩
def SP_CNT.stuck_err : Fld := ⟨0x5014, 8, 8⟩
def SP_CNT.len_err : Fld := ⟨0x5014, 16, 8⟩
def SP_CNT.stale : Fld := ⟨0x5014, 24, 8⟩
/-- SP_STATn - 0x00_5015 + 8n - Sensor port status (14_serial_ports_and_lyjan.md). -/
def SP_STAT.reg : Nat := 0x5015
def SP_STAT.owner : Fld := ⟨0x5015, 0, 3⟩
def SP_STAT.owned : Fld := ⟨0x5015, 3, 1⟩
def SP_STAT.busy : Fld := ⟨0x5015, 4, 1⟩
/-- MP_STAT - 0x00_5020 - Memory port status (14_serial_ports_and_lyjan.md). -/
def MP_STAT.reg : Nat := 0x5020
def MP_STAT.mode : Fld := ⟨0x5020, 0, 2⟩
def MP_STAT.clk_mhz : Fld := ⟨0x5020, 8, 8⟩
def MP_STAT.dqs_dly : Fld := ⟨0x5020, 16, 6⟩
def MP_STAT.user : Fld := ⟨0x5020, 22, 3⟩
/-- MP_CNT - 0x00_5021 - Memory port counters (14_serial_ports_and_lyjan.md). -/
def MP_CNT.reg : Nat := 0x5021
def MP_CNT.nvm_ops : Fld := ⟨0x5021, 0, 16⟩
def MP_CNT.nvm_fail : Fld := ⟨0x5021, 16, 8⟩
/-- CANn_CTRL - offset 0x000 - Controller control (15_can_fd.md). -/
def CAN_CTRL.reg : Nat := 0x0
def CAN_CTRL.mode : Fld := ⟨0x0, 0, 2⟩
def CAN_CTRL.fd_en : Fld := ⟨0x0, 2, 1⟩
def CAN_CTRL.brs_en : Fld := ⟨0x0, 3, 1⟩
def CAN_CTRL.recover : Fld := ⟨0x0, 4, 1⟩
/-- CANn_STAT - offset 0x001 - Controller status (15_can_fd.md). -/
def CAN_STAT.reg : Nat := 0x1
def CAN_STAT.state : Fld := ⟨0x1, 0, 2⟩
def CAN_STAT.integrating : Fld := ⟨0x1, 2, 1⟩
def CAN_STAT.recovering : Fld := ⟨0x1, 3, 1⟩
def CAN_STAT.tec : Fld := ⟨0x1, 4, 9⟩
def CAN_STAT.rec : Fld := ⟨0x1, 13, 8⟩
def CAN_STAT.lec : Fld := ⟨0x1, 21, 3⟩
def CAN_STAT.dlec : Fld := ⟨0x1, 24, 3⟩
def CAN_STAT.no_ack : Fld := ⟨0x1, 27, 1⟩
/-- CANn_CNT - offset 0x002 - and CANn_CNT2 - offset 0x003 - Counters (15_can_fd.md). -/
def CAN_CNT.reg : Nat := 0x2
def CAN_CNT.tx_ok : Fld := ⟨0x2, 0, 16⟩
def CAN_CNT.rx_ok : Fld := ⟨0x2, 16, 16⟩
/-- CANn_CNT - offset 0x002 - and CANn_CNT2 - offset 0x003 - Counters (15_can_fd.md). -/
def CAN_CNT2.reg : Nat := 0x3
def CAN_CNT2.rx_lost : Fld := ⟨0x3, 0, 8⟩
def CAN_CNT2.rtr_drop : Fld := ⟨0x3, 8, 8⟩
def CAN_CNT2.clash_count : Fld := ⟨0x3, 16, 8⟩
def CAN_CNT2.route_len : Fld := ⟨0x3, 24, 8⟩
/-- CANn_RATE - offset 0x004 - Rates in force (15_can_fd.md). -/
def CAN_RATE.reg : Nat := 0x4
def CAN_RATE.nom_kbps : Fld := ⟨0x4, 0, 16⟩
def CAN_RATE.data_kbps : Fld := ⟨0x4, 16, 16⟩
/-- CANn_NBT - offset 0x005 - Nominal bit timing, package set (15_can_fd.md). -/
def CAN_NBT.reg : Nat := 0x5
def CAN_NBT.nbrp : Fld := ⟨0x5, 0, 9⟩
def CAN_NBT.ntseg1 : Fld := ⟨0x5, 9, 8⟩
def CAN_NBT.ntseg2 : Fld := ⟨0x5, 17, 7⟩
def CAN_NBT.nsjw : Fld := ⟨0x5, 24, 7⟩
def CAN_NBT.triple : Fld := ⟨0x5, 31, 1⟩
/-- CANn_DBT - offset 0x006 - Data bit timing, package set (15_can_fd.md). -/
def CAN_DBT.reg : Nat := 0x6
def CAN_DBT.dbrp : Fld := ⟨0x6, 0, 5⟩
def CAN_DBT.dtseg1 : Fld := ⟨0x6, 5, 5⟩
def CAN_DBT.dtseg2 : Fld := ⟨0x6, 10, 4⟩
def CAN_DBT.dsjw : Fld := ⟨0x6, 14, 4⟩
def CAN_DBT.tdc_en : Fld := ⟨0x6, 18, 1⟩
def CAN_DBT.tdc_off : Fld := ⟨0x6, 19, 7⟩
def CAN_DBT.tdc_filt : Fld := ⟨0x6, 26, 6⟩
/-- CANn_FLT - offset 0x008 - Filter list (15_can_fd.md). -/
def CAN_FLT.reg : Nat := 0x8
def CAN_FLT.base : Fld := ⟨0x8, 0, 14⟩
def CAN_FLT.count : Fld := ⟨0x8, 14, 8⟩
def CAN_FLT.nm_dest : Fld := ⟨0x8, 22, 2⟩
/-- CANn_RXB - offset 0x009 - and CANn_TXB - offset 0x00C - Buffer regions (15_can_fd.md). -/
def CAN_RXB.reg : Nat := 0x9
def CAN_RXB.base : Fld := ⟨0x9, 0, 14⟩
def CAN_RXB.count : Fld := ⟨0x9, 14, 6⟩
def CAN_RXB.esize : Fld := ⟨0x9, 20, 3⟩
/-- CANn_RXB - offset 0x009 - and CANn_TXB - offset 0x00C - Buffer regions (15_can_fd.md). -/
def CAN_TXB.reg : Nat := 0xC
def CAN_TXB.base : Fld := ⟨0xC, 0, 14⟩
def CAN_TXB.count : Fld := ⟨0xC, 14, 6⟩
def CAN_TXB.esize : Fld := ⟨0xC, 20, 3⟩
/-- CANn_FIFOf - offset 0x00A + f, f = 0, 1 - FIFO region (15_can_fd.md). -/
def CAN_FIFO.reg : Nat := 0xA
def CAN_FIFO.base : Fld := ⟨0xA, 0, 14⟩
def CAN_FIFO.count : Fld := ⟨0xA, 14, 7⟩
def CAN_FIFO.esize : Fld := ⟨0xA, 21, 3⟩
def CAN_FIFO.fmode : Fld := ⟨0xA, 24, 1⟩
def CAN_FIFO.watermark : Fld := ⟨0xA, 25, 7⟩
/-- CANn_RT - offset 0x00D - and CANn_PACK - offset 0x00E - Route table and pack list (15_can_fd.md). -/
def CAN_RT.reg : Nat := 0xD
def CAN_RT.base : Fld := ⟨0xD, 0, 14⟩
def CAN_RT.count : Fld := ⟨0xD, 14, 8⟩
/-- CANn_RT - offset 0x00D - and CANn_PACK - offset 0x00E - Route table and pack list (15_can_fd.md). -/
def CAN_PACK.reg : Nat := 0xE
def CAN_PACK.base : Fld := ⟨0xE, 0, 14⟩
def CAN_PACK.count : Fld := ⟨0xE, 14, 8⟩
/-- CANn_FSf - offset 0x010 + f - FIFO status (15_can_fd.md). -/
def CAN_FS.reg : Nat := 0x10
def CAN_FS.put : Fld := ⟨0x10, 0, 6⟩
def CAN_FS.get : Fld := ⟨0x10, 8, 6⟩
def CAN_FS.full : Fld := ⟨0x10, 14, 1⟩
def CAN_FS.wm : Fld := ⟨0x10, 15, 1⟩
def CAN_FS.fill : Fld := ⟨0x10, 16, 7⟩
def CAN_FS.lost : Fld := ⟨0x10, 24, 8⟩
/-- CANn_RXB_ND - offset 0x012 - and CANn_RXB_LOST - offset 0x013 - Receive buffer flags (15_can_fd.md). -/
def CAN_RXB_ND.reg : Nat := 0x12
def CAN_RXB_ND.nd : Fld := ⟨0x12, 0, 32⟩
/-- CANn_RXB_ND - offset 0x012 - and CANn_RXB_LOST - offset 0x013 - Receive buffer flags (15_can_fd.md). -/
def CAN_RXB_LOST.reg : Nat := 0x13
def CAN_RXB_LOST.lost : Fld := ⟨0x13, 0, 32⟩
/-- CANn_RXB_LOCK - offset 0x014 - Locks (15_can_fd.md). -/
def CAN_RXB_LOCK.reg : Nat := 0x14
def CAN_RXB_LOCK.locked : Fld := ⟨0x14, 0, 32⟩
/-- CANn_TX_REQ - offset 0x015 - and CANn_TX_CANCEL - offset 0x016 - Transmit request and cancel (15_can_fd.md). -/
def CAN_TX_REQ.reg : Nat := 0x15
def CAN_TX_REQ.req : Fld := ⟨0x15, 0, 32⟩
/-- CANn_TX_REQ - offset 0x015 - and CANn_TX_CANCEL - offset 0x016 - Transmit request and cancel (15_can_fd.md). -/
def CAN_TX_CANCEL.reg : Nat := 0x16
def CAN_TX_CANCEL.cancel : Fld := ⟨0x16, 0, 32⟩
/-- CANn_TX_PEND - offset 0x017 - Pending buffers (15_can_fd.md). -/
def CAN_TX_PEND.reg : Nat := 0x17
def CAN_TX_PEND.pend : Fld := ⟨0x17, 0, 32⟩
/-- CANn_TX_DONE - offset 0x018 - and CANn_TX_FAIL - offset 0x019 - Transmit outcomes (15_can_fd.md). -/
def CAN_TX_DONE.reg : Nat := 0x18
def CAN_TX_DONE.done : Fld := ⟨0x18, 0, 32⟩
/-- CANn_TX_DONE - offset 0x018 - and CANn_TX_FAIL - offset 0x019 - Transmit outcomes (15_can_fd.md). -/
def CAN_TX_FAIL.reg : Nat := 0x19
def CAN_TX_FAIL.fail : Fld := ⟨0x19, 0, 32⟩
/-- CANn_TT - offset 0x01A - Schedule (15_can_fd.md). -/
def CAN_TT.reg : Nat := 0x1A
def CAN_TT.role : Fld := ⟨0x1A, 0, 2⟩
def CAN_TT.ref_buf : Fld := ⟨0x1A, 2, 5⟩
def CAN_TT.n_cycles : Fld := ⟨0x1A, 8, 6⟩
def CAN_TT.cycle_len : Fld := ⟨0x1A, 16, 16⟩
/-- CANn_TT2 - offset 0x01B - Schedule matrix (15_can_fd.md). -/
def CAN_TT2.reg : Nat := 0x1B
def CAN_TT2.base : Fld := ⟨0x1B, 0, 14⟩
def CAN_TT2.tx_win : Fld := ⟨0x1B, 16, 8⟩
/-- CANn_TT_REF - offset 0x01C -, CANn_DIAG_REQ - offset 0x01E - and CANn_DIAG_RSP - offset 0x01F - Identifiers (15_can_fd.md). -/
def CAN_TT_REF.reg : Nat := 0x1C
def CAN_TT_REF.id : Fld := ⟨0x1C, 0, 29⟩
def CAN_TT_REF.xtd : Fld := ⟨0x1C, 29, 1⟩
/-- CANn_TT_REF - offset 0x01C -, CANn_DIAG_REQ - offset 0x01E - and CANn_DIAG_RSP - offset 0x01F - Identifiers (15_can_fd.md). -/
def CAN_DIAG_REQ.reg : Nat := 0x1E
def CAN_DIAG_REQ.id : Fld := ⟨0x1E, 0, 29⟩
def CAN_DIAG_REQ.xtd : Fld := ⟨0x1E, 29, 1⟩
def CAN_DIAG_REQ.en : Fld := ⟨0x1E, 30, 1⟩
/-- CANn_TT_REF - offset 0x01C -, CANn_DIAG_REQ - offset 0x01E - and CANn_DIAG_RSP - offset 0x01F - Identifiers (15_can_fd.md). -/
def CAN_DIAG_RSP.reg : Nat := 0x1F
def CAN_DIAG_RSP.id : Fld := ⟨0x1F, 0, 29⟩
def CAN_DIAG_RSP.xtd : Fld := ⟨0x1F, 29, 1⟩
def CAN_DIAG_RSP.rsp_fd : Fld := ⟨0x1F, 30, 1⟩
/-- CANn_TT_STAT - offset 0x01D - Schedule status (15_can_fd.md). -/
def CAN_TT_STAT.reg : Nat := 0x1D
def CAN_TT_STAT.cycle : Fld := ⟨0x1D, 0, 6⟩
def CAN_TT_STAT.column : Fld := ⟨0x1D, 6, 5⟩
def CAN_TT_STAT.ref_lost : Fld := ⟨0x1D, 11, 1⟩
def CAN_TT_STAT.running : Fld := ⟨0x1D, 12, 1⟩
def CAN_TT_STAT.sched_miss : Fld := ⟨0x1D, 16, 8⟩
def CAN_TT_STAT.ref_lost_count : Fld := ⟨0x1D, 24, 8⟩

end R
end Sys2Proof.Machine
end

