-- ==== Sys2Proof/Machine/RegTable.lean ====
section
/-! DEFINITION. The register map as a table (16_register_map R436 to R438; the field tables of every chapter): for each
block its registers, and for each register its fields with class (R8), reset value and the values a write stores as
another. The reset value of a word follows from it. -/

namespace Sys2Proof.Machine

/-- The access class of a field (R8). `sq` marks a sequence field: SW in a motor cluster, ST in a region or Kilid group
(04_current_and_voltage_sensing, R120). -/
inductive Cls where
  | ro | rw | w1c | wo | sw | st | sq
  deriving DecidableEq, Repr

/-- What a write of a value stores instead of it: a value below, above or equal to the bound is stored as the
second number; a code from the bound up is refused with STRUCT; a signed margin is held within 0 and 2^26. -/
inductive StoreRule where
  | below (a v : Nat) | above (a v : Nat) | eq (a v : Nat) | refuseAbove (a : Nat) | clampMargin
  deriving DecidableEq, Repr

/-- A field of the table. -/
structure FDesc where
  lo    : Nat
  w     : Nat
  cls   : Cls
  reset : Nat
  rules : List StoreRule
  deriving DecidableEq, Repr

/-- A register of the table: offset in its block, how often it is repeated and with what stride, its fields. -/
structure RDesc where
  off    : Nat
  count  : Nat
  stride : Nat
  fields : List FDesc
  deriving DecidableEq, Repr

/-- Registers: motor cluster, by offset. -/
def tab_mc_0 : List RDesc := [
  -- MC_CTRL
  ⟨0x0, 1, 1, [⟨0, 1, .rw, 0x0, []⟩,
    ⟨1, 1, .ro, 0x0, []⟩,
    ⟨8, 8, .rw, 0x0, []⟩]⟩,
  -- MC_STATE
  ⟨0x1, 1, 1, [⟨0, 3, .ro, 0x0, []⟩,
    ⟨3, 1, .ro, 0x0, []⟩,
    ⟨4, 4, .ro, 0x0, []⟩,
    ⟨8, 8, .ro, 0x0, []⟩,
    ⟨16, 1, .ro, 0x0, []⟩,
    ⟨17, 1, .ro, 0x0, []⟩]⟩,
  -- MC_CMD
  ⟨0x2, 1, 1, [⟨0, 4, .wo, 0x0, []⟩]⟩,
  -- MC_SWAP
  ⟨0x3, 1, 1, [⟨0, 1, .wo, 0x0, []⟩,
    ⟨1, 1, .ro, 0x0, []⟩,
    ⟨2, 1, .w1c, 0x0, []⟩,
    ⟨8, 8, .ro, 0x0, []⟩,
    ⟨16, 16, .ro, 0x0, []⟩]⟩,
  -- MC_DAT_CFG
  ⟨0x400, 1, 1, [⟨0, 3, .st, 0x0, [.refuseAbove 5]⟩,
    ⟨3, 1, .st, 0x0, []⟩,
    ⟨8, 8, .st, 0x1, [.below 1 1]⟩,
    ⟨16, 16, .st, 0x100, []⟩]⟩,
  -- MC_DAT_ANGLE
  ⟨0x401, 1, 1, [⟨0, 32, .ro, 0x0, []⟩]⟩,
  -- MC_DAT_SPEED
  ⟨0x402, 1, 1, [⟨0, 32, .ro, 0x0, []⟩]⟩,
  -- MC_DAT_ACC
  ⟨0x403, 1, 1, [⟨0, 32, .ro, 0x0, []⟩]⟩,
  -- MC_DAT_STAT
  ⟨0x404, 1, 1, [⟨0, 1, .ro, 0x0, []⟩,
    ⟨1, 1, .ro, 0x0, []⟩,
    ⟨2, 1, .ro, 0x0, []⟩,
    ⟨3, 1, .ro, 0x0, []⟩,
    ⟨4, 4, .ro, 0xF, []⟩,
    ⟨8, 4, .ro, 0xF, []⟩,
    ⟨16, 8, .ro, 0x0, []⟩,
    ⟨24, 1, .ro, 0x0, []⟩]⟩,
  -- MC_DAT_SNAP_ANGLE
  ⟨0x405, 1, 1, [⟨0, 32, .ro, 0x0, []⟩]⟩,
  -- MC_DAT_SNAP_SPEED
  ⟨0x406, 1, 1, [⟨0, 32, .ro, 0x0, []⟩]⟩,
  -- MC_DAT_SNAP_FRAME
  ⟨0x407, 1, 1, [⟨0, 8, .ro, 0x0, []⟩,
    ⟨8, 1, .ro, 0x0, []⟩]⟩,
  -- MC_DAT_SYNC
  ⟨0x408, 1, 1, [⟨0, 1, .st, 0x0, []⟩,
    ⟨8, 8, .st, 0x0, []⟩]⟩,
  -- MC_GRAT_STAT
  ⟨0x409, 1, 1, [⟨0, 8, .rw, 0x0, []⟩,
    ⟨8, 8, .rw, 0x0, []⟩]⟩,
  -- MC_GRAT_FIRED_LO
  ⟨0x40A, 1, 1, [⟨0, 32, .w1c, 0x0, []⟩]⟩,
  -- MC_GRAT_FIRED_HI
  ⟨0x40B, 1, 1, [⟨0, 32, .w1c, 0x0, []⟩]⟩,
  -- MC_PWM_CTRL
  ⟨0x800, 1, 1, [⟨0, 2, .st, 0x0, []⟩,
    ⟨2, 1, .st, 0x0, []⟩,
    ⟨3, 2, .st, 0x0, [.refuseAbove 2]⟩]⟩,
  -- MC_PWM_STAT
  ⟨0x801, 1, 1, [⟨0, 3, .ro, 0x0, []⟩,
    ⟨3, 3, .ro, 0x0, []⟩,
    ⟨6, 1, .ro, 0x0, []⟩,
    ⟨7, 1, .ro, 0x0, []⟩,
    ⟨8, 1, .ro, 0x0, []⟩,
    ⟨9, 1, .ro, 0x0, []⟩,
    ⟨16, 16, .ro, 0x0, []⟩]⟩,
  -- MC_PWM_DUTY
  ⟨0x802, 3, 1, [⟨0, 17, .ro, 0x0, []⟩]⟩,
  -- MC_PWM_SHIFT
  ⟨0x805, 3, 1, [⟨0, 20, .ro, 0x0, []⟩]⟩,
  -- MC_PWM_WIN_CNT
  ⟨0x808, 1, 1, [⟨0, 16, .ro, 0x0, []⟩,
    ⟨16, 16, .ro, 0x0, []⟩]⟩,
  -- MC_PWM_REF_CNT
  ⟨0x809, 1, 1, [⟨0, 16, .ro, 0x0, []⟩,
    ⟨16, 16, .ro, 0x0, []⟩]⟩,
  -- MC_PWM_APPLY_CNT
  ⟨0x80A, 1, 1, [⟨0, 16, .ro, 0x0, []⟩,
    ⟨16, 16, .ro, 0x0, []⟩]⟩,
  -- MC_PWM_LAT_APPLY
  ⟨0x80B, 1, 1, [⟨0, 16, .ro, 0xFFFF, []⟩,
    ⟨16, 16, .ro, 0x0, []⟩]⟩]

/-- Registers: motor cluster, by offset. -/
def tab_mc_1 : List RDesc := [
  -- MC_PWM_LAT_OUT
  ⟨0x80C, 1, 1, [⟨0, 16, .ro, 0xFFFF, []⟩,
    ⟨16, 16, .ro, 0x0, []⟩]⟩,
  -- MC_PWM_CLR
  ⟨0x80D, 1, 1, [⟨0, 1, .wo, 0x0, []⟩,
    ⟨1, 1, .wo, 0x0, []⟩]⟩,
  -- MC_EST_STAT
  ⟨0x1000, 1, 1, [⟨0, 3, .ro, 0x0, []⟩,
    ⟨3, 3, .ro, 0x0, []⟩,
    ⟨6, 1, .ro, 0x0, []⟩,
    ⟨7, 1, .ro, 0x0, []⟩,
    ⟨8, 1, .ro, 0x0, []⟩,
    ⟨9, 1, .ro, 0x0, []⟩,
    ⟨10, 1, .ro, 0x0, []⟩,
    ⟨16, 8, .ro, 0x0, []⟩]⟩,
  -- MC_EST_OBS_ANGLE
  ⟨0x1001, 1, 1, [⟨0, 32, .ro, 0x0, []⟩]⟩,
  -- MC_EST_INJ_ANGLE
  ⟨0x1002, 1, 1, [⟨0, 32, .ro, 0x0, []⟩]⟩,
  -- MC_EST_ZC_ANGLE
  ⟨0x1003, 1, 1, [⟨0, 32, .ro, 0x0, []⟩]⟩,
  -- MC_EST_OBS_SPEED
  ⟨0x1004, 1, 1, [⟨0, 32, .ro, 0x0, []⟩]⟩,
  -- MC_EST_RESID
  ⟨0x1005, 1, 1, [⟨0, 16, .ro, 0x0, []⟩,
    ⟨16, 8, .ro, 0x0, []⟩,
    ⟨24, 8, .ro, 0x0, []⟩]⟩,
  -- MC_EST_CNT
  ⟨0x1006, 1, 1, [⟨0, 8, .rw, 0x0, []⟩,
    ⟨8, 8, .rw, 0x0, []⟩,
    ⟨16, 8, .rw, 0x0, []⟩,
    ⟨24, 8, .rw, 0x0, []⟩]⟩,
  -- MC_EST_CNT2
  ⟨0x1007, 1, 1, [⟨0, 8, .rw, 0x0, []⟩,
    ⟨8, 8, .rw, 0x0, []⟩,
    ⟨16, 8, .rw, 0x0, []⟩,
    ⟨24, 8, .rw, 0x0, []⟩]⟩,
  -- MC_EST_REACQ
  ⟨0x1008, 1, 1, [⟨0, 16, .ro, 0x0, []⟩,
    ⟨16, 1, .ro, 0x0, []⟩,
    ⟨17, 1, .ro, 0x0, []⟩]⟩,
  -- MC_EST_ENC_COUNT
  ⟨0x1009, 1, 1, [⟨0, 32, .ro, 0x0, []⟩]⟩,
  -- MC_POS_CFG
  ⟨0x1010, 1, 1, [⟨0, 8, .st, 0x5, []⟩,
    ⟨8, 8, .st, 0x3, [.below 1 1]⟩,
    ⟨16, 8, .st, 0x64, []⟩,
    ⟨24, 8, .st, 0x4, []⟩]⟩,
  -- MC_POS_MAP
  ⟨0x1011, 1, 1, [⟨0, 24, .st, 0xEEC287, []⟩]⟩,
  -- MC_POS_OFFSET
  ⟨0x1012, 1, 1, [⟨0, 32, .st, 0x0, []⟩]⟩,
  -- MC_POS_ENC
  ⟨0x1013, 1, 1, [⟨0, 16, .st, 0x400, [.below 1 1]⟩,
    ⟨16, 1, .st, 0x0, []⟩]⟩,
  -- MC_POS_SENS
  ⟨0x1014, 1, 1, [⟨0, 5, .st, 0x0, []⟩,
    ⟨5, 5, .st, 0xE, [.below 8 14, .above 24 14]⟩,
    ⟨10, 5, .st, 0x1F, []⟩,
    ⟨15, 1, .st, 0x1, []⟩,
    ⟨16, 8, .st, 0x0, []⟩]⟩,
  -- MC_LOOP_SAT
  ⟨0x10, 1, 1, [⟨0, 12, .w1c, 0x0, []⟩,
    ⟨16, 16, .rw, 0x0, []⟩]⟩,
  -- MC_LOOP_MISS
  ⟨0x11, 1, 1, [⟨0, 12, .w1c, 0x0, []⟩,
    ⟨16, 16, .rw, 0x0, []⟩]⟩,
  -- MC_LOOP_BANK
  ⟨0x12, 1, 1, [⟨0, 4, .ro, 0x0, []⟩,
    ⟨4, 4, .ro, 0x0, []⟩,
    ⟨8, 4, .ro, 0x0, []⟩]⟩,
  -- MC_LOOP_RAMP
  ⟨0x13, 1, 1, [⟨0, 3, .ro, 0x0, []⟩]⟩,
  -- MC_ATL_STAT
  ⟨0x20, 1, 1, [⟨0, 4, .ro, 0x0, []⟩,
    ⟨4, 4, .ro, 0x0, []⟩,
    ⟨8, 2, .ro, 0x0, []⟩,
    ⟨10, 1, .ro, 0x0, []⟩,
    ⟨11, 1, .ro, 0x0, []⟩,
    ⟨12, 1, .ro, 0x0, []⟩,
    ⟨13, 1, .ro, 0x0, []⟩]⟩,
  -- MC_ATL_ACT
  ⟨0x21, 1, 1, [⟨0, 12, .ro, 0x0, []⟩,
    ⟨12, 1, .ro, 0x0, []⟩,
    ⟨13, 4, .ro, 0x0, []⟩,
    ⟨17, 4, .ro, 0x0, []⟩]⟩,
  -- MC_ATL_CNT
  ⟨0x22, 1, 1, [⟨0, 16, .rw, 0x0, []⟩,
    ⟨16, 8, .rw, 0x0, []⟩,
    ⟨24, 8, .rw, 0x0, []⟩]⟩]

/-- Registers: motor cluster, by offset. -/
def tab_mc_2 : List RDesc := [
  -- MC_MO_MODE
  ⟨0x1810, 1, 1, [⟨0, 1, .st, 0x0, []⟩]⟩,
  -- MC_GATE_STAT
  ⟨0x1400, 1, 1, [⟨0, 6, .ro, 0x0, []⟩,
    ⟨6, 3, .ro, 0x0, []⟩,
    ⟨9, 2, .ro, 0x0, []⟩,
    ⟨11, 1, .ro, 0x0, []⟩,
    ⟨12, 1, .ro, 0x0, []⟩,
    ⟨13, 6, .ro, 0x0, []⟩]⟩,
  -- MC_GATE_SHORT
  ⟨0x1401, 1, 1, [⟨0, 6, .ro, 0x0, []⟩,
    ⟨6, 6, .w1c, 0x0, []⟩,
    ⟨12, 6, .w1c, 0x0, []⟩,
    ⟨18, 1, .ro, 0x0, []⟩,
    ⟨24, 1, .wo, 0x0, []⟩]⟩,
  -- MC_GATE_CNT
  ⟨0x1402, 1, 1, [⟨0, 8, .rw, 0x0, []⟩,
    ⟨8, 8, .rw, 0x0, []⟩,
    ⟨16, 8, .rw, 0x0, []⟩,
    ⟨24, 8, .rw, 0x0, []⟩]⟩,
  -- MC_GATE_SEG
  ⟨0x1404, 6, 1, [⟨0, 6, .ro, 0x20, []⟩,
    ⟨6, 6, .ro, 0x20, []⟩,
    ⟨12, 3, .ro, 0x4, []⟩,
    ⟨15, 3, .ro, 0x4, []⟩,
    ⟨18, 1, .ro, 0x0, []⟩]⟩,
  -- MC_GATE_CEIL
  ⟨0x1410, 1, 1, [⟨0, 16, .st, 0x1000, []⟩]⟩,
  -- MC_CONV_CFG
  ⟨0x40, 1, 1, [⟨0, 1, .st, 0x0, []⟩,
    ⟨1, 3, .st, 0x7, [.eq 6 7]⟩,
    ⟨16, 16, .st, 0x100, []⟩]⟩,
  -- MC_CONV_STAT
  ⟨0x41, 1, 1, [⟨0, 3, .ro, 0x0, []⟩,
    ⟨3, 3, .ro, 0x0, []⟩,
    ⟨6, 1, .ro, 0x0, []⟩,
    ⟨7, 1, .ro, 0x0, []⟩,
    ⟨8, 3, .ro, 0x0, []⟩]⟩,
  -- MC_CONV_VLO
  ⟨0x42, 1, 1, [⟨0, 17, .ro, 0x0, []⟩]⟩,
  -- MC_CONV_IREF
  ⟨0x43, 1, 1, [⟨0, 32, .ro, 0x0, []⟩]⟩,
  -- MC_CONV_CNT
  ⟨0x44, 1, 1, [⟨0, 8, .rw, 0x0, []⟩,
    ⟨8, 8, .rw, 0x0, []⟩,
    ⟨16, 8, .rw, 0x0, []⟩,
    ⟨24, 8, .rw, 0x0, []⟩]⟩,
  -- MC_CONV_EFWD_LO
  ⟨0x45, 1, 1, [⟨0, 32, .ro, 0x0, []⟩]⟩,
  -- MC_CONV_EFWD_HI
  ⟨0x46, 1, 1, [⟨0, 32, .ro, 0x0, []⟩]⟩,
  -- MC_CONV_EREV_LO
  ⟨0x47, 1, 1, [⟨0, 32, .ro, 0x0, []⟩]⟩,
  -- MC_CONV_EREV_HI
  ⟨0x48, 1, 1, [⟨0, 32, .ro, 0x0, []⟩]⟩,
  -- MC_CONV_CMD
  ⟨0x49, 1, 1, [⟨0, 1, .wo, 0x0, []⟩]⟩,
  -- MC_CONV_ISET
  ⟨0x4A, 1, 1, [⟨0, 32, .rw, 0x0, []⟩]⟩,
  -- MC_CONV_VSET
  ⟨0x4B, 1, 1, [⟨0, 17, .rw, 0x0, []⟩]⟩,
  -- MC_TH_T
  ⟨0x1C00, 6, 1, [⟨0, 16, .ro, 0x0, []⟩,
    ⟨16, 1, .ro, 0x0, []⟩,
    ⟨17, 15, .ro, 0x0, []⟩]⟩,
  -- MC_TH_STAT
  ⟨0x1C06, 1, 1, [⟨0, 13, .ro, 0x1000, []⟩,
    ⟨13, 5, .ro, 0x10, []⟩,
    ⟨18, 3, .ro, 0x0, []⟩,
    ⟨21, 3, .ro, 0x0, []⟩,
    ⟨24, 1, .ro, 0x0, []⟩]⟩,
  -- MC_TH_CEIL
  ⟨0x1C07, 1, 1, [⟨0, 16, .st, 0x1000, []⟩,
    ⟨16, 3, .st, 0x0, [.above 5 0]⟩,
    ⟨19, 10, .st, 0x50, []⟩]⟩]

/-- Registers: motor cluster, by offset. -/
def tab_mc : List RDesc := tab_mc_0 ++ tab_mc_1 ++ tab_mc_2

/-- Registers: device block. -/
def tab_dev : List RDesc := [
  -- DEV_ID
  ⟨0x0, 1, 1, [⟨4, 4, .ro, 0x0, []⟩,
    ⟨8, 4, .ro, 0x0, []⟩,
    ⟨12, 4, .ro, 0x0, []⟩,
    ⟨16, 16, .ro, 0x648, []⟩]⟩,
  -- DEV_STATE
  ⟨0x1, 1, 1, [⟨0, 3, .ro, 0x1, []⟩,
    ⟨3, 1, .ro, 0x0, []⟩,
    ⟨4, 4, .ro, 0x0, []⟩,
    ⟨8, 1, .ro, 0x0, []⟩,
    ⟨9, 1, .ro, 0x0, []⟩,
    ⟨10, 1, .ro, 0x0, []⟩,
    ⟨11, 1, .ro, 0x0, []⟩,
    ⟨16, 8, .ro, 0x0, []⟩]⟩,
  -- DEV_CMD
  ⟨0x2, 1, 1, [⟨0, 4, .wo, 0x0, []⟩]⟩,
  -- DEV_SWAP
  ⟨0x3, 1, 1, [⟨0, 8, .rw, 0x0, []⟩,
    ⟨8, 1, .rw, 0x0, []⟩,
    ⟨9, 1, .rw, 0x0, []⟩,
    ⟨16, 8, .rw, 0x0, []⟩,
    ⟨24, 1, .rw, 0x0, []⟩,
    ⟨25, 1, .wo, 0x0, []⟩,
    ⟨26, 1, .ro, 0x0, []⟩,
    ⟨27, 1, .w1c, 0x0, []⟩,
    ⟨28, 4, .ro, 0x0, []⟩]⟩,
  -- DEV_SWAP_STAT
  ⟨0x4, 1, 1, [⟨0, 8, .ro, 0x0, []⟩,
    ⟨16, 16, .ro, 0x0, []⟩]⟩,
  -- DEV_SYS
  ⟨0x5, 1, 1, [⟨0, 2, .st, 0x0, [.refuseAbove 2]⟩,
    ⟨2, 3, .st, 0x0, []⟩,
    ⟨5, 3, .st, 0x0, []⟩,
    ⟨8, 1, .st, 0x0, []⟩,
    ⟨16, 8, .st, 0x19, []⟩]⟩,
  -- DEV_SYNC_CFG
  ⟨0x6, 1, 1, [⟨0, 10, .st, 0x64, [.below 10 10, .above 1000 1000]⟩,
    ⟨16, 8, .st, 0x0, []⟩]⟩,
  -- DEV_WALL_LO
  ⟨0x8, 1, 1, [⟨0, 32, .ro, 0x0, []⟩]⟩,
  -- DEV_WALL_HI
  ⟨0x9, 1, 1, [⟨0, 32, .ro, 0x0, []⟩]⟩,
  -- DEV_BOOT_STAT
  ⟨0x10, 1, 1, [⟨0, 4, .ro, 0x1, []⟩,
    ⟨4, 4, .ro, 0x1, []⟩,
    ⟨8, 1, .ro, 0x0, []⟩,
    ⟨9, 1, .ro, 0x0, []⟩,
    ⟨10, 1, .ro, 0x0, []⟩,
    ⟨16, 16, .ro, 0x0, []⟩]⟩,
  -- DEV_BOOT_DIAG
  ⟨0x11, 1, 1, [⟨0, 4, .ro, 0x0, []⟩,
    ⟨4, 8, .ro, 0x0, []⟩,
    ⟨12, 6, .ro, 0x0, []⟩]⟩,
  -- DEV_IMG_SEQ
  ⟨0x12, 1, 1, [⟨0, 32, .ro, 0x0, []⟩]⟩,
  -- DEV_IMG_ALT
  ⟨0x13, 1, 1, [⟨0, 32, .ro, 0x0, []⟩]⟩,
  -- DEV_BOOT_CTRL
  ⟨0x14, 1, 1, [⟨0, 1, .wo, 0x0, []⟩,
    ⟨1, 1, .rw, 0x0, []⟩]⟩,
  -- DEV_LOG_BASE
  ⟨0x15, 1, 1, [⟨12, 20, .st, 0x0, []⟩]⟩]

/-- Registers: motor operating set, by set offset. -/
def tab_mcset_0 : List RDesc := [
  -- MC_GRAT_ANG
  ⟨0x400, 64, 2, [⟨0, 32, .sw, 0x0, []⟩]⟩,
  -- MC_GRAT_CTL
  ⟨0x401, 64, 2, [⟨0, 4, .sw, 0x0, [.above 8 0]⟩,
    ⟨4, 2, .sw, 0x3, [.eq 0 3]⟩,
    ⟨6, 2, .sw, 0x0, [.eq 3 0]⟩,
    ⟨8, 6, .sw, 0x0, []⟩,
    ⟨16, 16, .sw, 0x0, []⟩]⟩,
  -- MC_SCAR_CFG
  ⟨0x480, 1, 1, [⟨0, 1, .sw, 0x0, []⟩,
    ⟨4, 4, .sw, 0x0, [.above 8 8]⟩]⟩,
  -- MC_SCAR_ENT
  ⟨0x481, 8, 1, [⟨0, 8, .sw, 0x0, []⟩,
    ⟨8, 12, .sw, 0x0, []⟩,
    ⟨20, 12, .sw, 0x0, []⟩]⟩,
  -- MC_PWM_CARRIER
  ⟨0x800, 1, 1, [⟨0, 19, .sw, 0x4E20, []⟩]⟩,
  -- MC_PWM_DT
  ⟨0x801, 1, 1, [⟨0, 10, .sw, 0xFA, [.above 1000 1000]⟩,
    ⟨16, 1, .sw, 0x0, []⟩,
    ⟨24, 8, .sw, 0x14, []⟩]⟩,
  -- MC_PWM_WIN
  ⟨0x802, 1, 1, [⟨0, 9, .sw, 0x64, [.below 25 25, .above 500 500]⟩,
    ⟨16, 9, .sw, 0xC8, []⟩]⟩,
  -- MC_PWM_REFRESH
  ⟨0x803, 1, 1, [⟨0, 7, .sw, 0x10, [.above 64 64, .below 1 1]⟩,
    ⟨8, 11, .sw, 0x1F4, [.below 100 100, .above 1500 1500]⟩]⟩,
  -- MC_PWM_MOD
  ⟨0x804, 1, 1, [⟨0, 1, .sw, 0x0, []⟩,
    ⟨8, 8, .sw, 0x0, []⟩,
    ⟨16, 16, .sw, 0x4000, []⟩]⟩,
  -- MC_FC_AXIS
  ⟨0x805, 1, 1, [⟨0, 16, .sw, 0x0, []⟩]⟩,
  -- MC_BLK_OFFSET
  ⟨0x806, 1, 1, [⟨0, 32, .sw, 0x0, []⟩]⟩,
  -- MC_FC_ADV
  ⟨0x840, 64, 1, [⟨0, 32, .sw, 0x0, [.above 1073741824 1073741824]⟩]⟩,
  -- MC_FC_ID
  ⟨0x880, 64, 1, [⟨0, 32, .sw, 0x0, []⟩]⟩,
  -- MC_FC_MARG
  ⟨0x8C0, 64, 1, [⟨0, 32, .sw, 0x0, [.clampMargin]⟩]⟩,
  -- MC_EST_REST
  ⟨0x1000, 1, 1, [⟨0, 16, .sw, 0x20, []⟩,
    ⟨16, 16, .sw, 0xA0, []⟩]⟩,
  -- MC_OBS_RS
  ⟨0x1001, 1, 1, [⟨0, 24, .sw, 0x0, []⟩]⟩,
  -- MC_OBS_LD
  ⟨0x1002, 1, 1, [⟨0, 24, .sw, 0x0, []⟩]⟩,
  -- MC_OBS_LQ
  ⟨0x1003, 1, 1, [⟨0, 24, .sw, 0x0, []⟩]⟩,
  -- MC_OBS_PSI
  ⟨0x1004, 1, 1, [⟨0, 24, .sw, 0x0, []⟩]⟩,
  -- MC_OBS_PLL
  ⟨0x1005, 1, 1, [⟨0, 12, .sw, 0x64, []⟩,
    ⟨12, 8, .sw, 0x46, []⟩,
    ⟨20, 12, .sw, 0x14, []⟩]⟩,
  -- MC_OBS_BLEND
  ⟨0x1006, 1, 1, [⟨0, 16, .sw, 0x0, []⟩,
    ⟨16, 16, .sw, 0x0, []⟩]⟩,
  -- MC_INJ_CFG
  ⟨0x1007, 1, 1, [⟨0, 1, .sw, 0x0, []⟩,
    ⟨8, 8, .sw, 0x20, []⟩,
    ⟨16, 8, .sw, 0x32, []⟩,
    ⟨24, 8, .sw, 0x14, [.below 1 1]⟩]⟩,
  -- MC_INJ_POL
  ⟨0x1008, 1, 1, [⟨0, 8, .sw, 0x80, []⟩,
    ⟨8, 8, .sw, 0x32, [.below 1 1]⟩]⟩,
  -- MC_START_CFG
  ⟨0x1009, 1, 1, [⟨0, 2, .sw, 0x0, [.above 2 0]⟩,
    ⟨2, 1, .sw, 0x0, []⟩,
    ⟨3, 1, .sw, 0x0, []⟩,
    ⟨8, 8, .sw, 0x14, [.below 1 1]⟩]⟩]

/-- Registers: motor operating set, by set offset. -/
def tab_mcset_1 : List RDesc := [
  -- MC_START_ALIGN
  ⟨0x100A, 1, 1, [⟨0, 16, .sw, 0x2000, []⟩,
    ⟨16, 8, .sw, 0x32, []⟩,
    ⟨24, 8, .sw, 0x64, []⟩]⟩,
  -- MC_START_RAMP
  ⟨0x100B, 1, 1, [⟨0, 16, .sw, 0x2000, []⟩,
    ⟨16, 16, .sw, 0x190, []⟩]⟩,
  -- MC_START_HO
  ⟨0x100C, 1, 1, [⟨0, 16, .sw, 0x64, []⟩,
    ⟨16, 8, .sw, 0x8, []⟩,
    ⟨24, 8, .sw, 0x3C, [.above 90 90]⟩]⟩,
  -- MC_FS_CFG
  ⟨0x100D, 1, 1, [⟨0, 8, .sw, 0x19, []⟩,
    ⟨8, 8, .sw, 0x10, [.below 1 1]⟩,
    ⟨16, 8, .sw, 0x14, [.below 5 5]⟩,
    ⟨24, 8, .sw, 0x14, [.below 1 1]⟩]⟩,
  -- MC_LOL_CFG
  ⟨0x100E, 1, 1, [⟨0, 6, .sw, 0x7, []⟩,
    ⟨8, 8, .sw, 0x1E, [.below 1 1]⟩,
    ⟨16, 8, .sw, 0x28, []⟩,
    ⟨24, 8, .sw, 0xA, [.below 2 2, .above 50 50]⟩]⟩,
  -- MC_SC_CFG
  ⟨0x100F, 1, 1, [⟨0, 8, .sw, 0x5, []⟩,
    ⟨8, 4, .sw, 0x2, [.below 2 2]⟩]⟩,
  -- MC_STALL_CFG
  ⟨0x1010, 1, 1, [⟨0, 16, .sw, 0x140, []⟩,
    ⟨16, 8, .sw, 0x32, [.below 1 1]⟩,
    ⟨24, 4, .sw, 0x3, [.below 1 1]⟩]⟩,
  -- MC_ZC_WIN
  ⟨0x1011, 1, 1, [⟨0, 8, .sw, 0xA, [.above 60 60]⟩,
    ⟨8, 8, .sw, 0x32, [.above 60 60]⟩]⟩,
  -- MC_LP_KP
  ⟨0x100, 4, 8, [⟨0, 32, .sw, 0x0, []⟩]⟩,
  -- MC_LP_KI
  ⟨0x101, 4, 8, [⟨0, 32, .sw, 0x0, []⟩]⟩,
  -- MC_LP_KD
  ⟨0x102, 4, 8, [⟨0, 16, .sw, 0x0, []⟩,
    ⟨16, 16, .sw, 0x1, [.below 1 1]⟩]⟩,
  -- MC_LP_LIM
  ⟨0x103, 4, 8, [⟨0, 16, .sw, 0x1000, []⟩,
    ⟨16, 16, .sw, 0x100, []⟩]⟩,
  -- MC_LOOP_CFG
  ⟨0x120, 1, 1, [⟨0, 2, .sw, 0x0, []⟩,
    ⟨2, 1, .sw, 0x0, []⟩,
    ⟨4, 4, .sw, 0x3, []⟩,
    ⟨8, 8, .sw, 0x32, [.below 20 20]⟩]⟩,
  -- MC_FF_BUS_K
  ⟨0x121, 1, 1, [⟨0, 32, .sw, 0x10000000, []⟩]⟩,
  -- MC_FF_ACC_K
  ⟨0x122, 1, 1, [⟨0, 32, .sw, 0x0, []⟩]⟩,
  -- MC_ATL_CFG
  ⟨0x200, 1, 1, [⟨0, 1, .sw, 0x0, []⟩,
    ⟨1, 1, .sw, 0x0, []⟩,
    ⟨2, 4, .sw, 0x0, []⟩,
    ⟨6, 4, .sw, 0x0, []⟩,
    ⟨10, 2, .sw, 0x0, []⟩,
    ⟨12, 3, .sw, 0x0, [.above 5 0]⟩,
    ⟨16, 4, .sw, 0x2, []⟩]⟩,
  -- MC_ATL_TIME
  ⟨0x201, 1, 1, [⟨0, 8, .sw, 0xA, []⟩,
    ⟨8, 8, .sw, 0x0, []⟩,
    ⟨16, 8, .sw, 0x5, [.below 1 1]⟩]⟩,
  -- MC_ATL_AXIS
  ⟨0x202, 1, 1, [⟨0, 16, .sw, 0x640, [.below 1 1]⟩,
    ⟨16, 16, .sw, 0x400, [.below 1 1]⟩]⟩,
  -- MC_ATL_TEDGE
  ⟨0x203, 1, 1, [⟨0, 10, .sw, 0x0, []⟩,
    ⟨10, 10, .sw, 0x0, []⟩,
    ⟨20, 10, .sw, 0x0, []⟩]⟩,
  -- MC_ATL_IDX
  ⟨0x2000, 512, 1, [⟨0, 12, .sw, 0x0, []⟩,
    ⟨12, 1, .sw, 0x0, []⟩,
    ⟨16, 12, .sw, 0x0, []⟩,
    ⟨28, 1, .sw, 0x0, []⟩]⟩,
  -- MC_GD_ON
  ⟨0x1400, 1, 1, [⟨0, 6, .sw, 0x20, [.below 1 1, .above 32 32]⟩,
    ⟨8, 6, .sw, 0x10, [.below 1 1, .above 32 32]⟩,
    ⟨16, 8, .sw, 0x0, []⟩]⟩,
  -- MC_GD_OFF
  ⟨0x1401, 1, 1, [⟨0, 6, .sw, 0x20, [.below 1 1, .above 32 32]⟩,
    ⟨8, 6, .sw, 0x4, [.below 1 1, .above 32 32]⟩,
    ⟨16, 6, .sw, 0x4, [.below 1 1, .above 32 32]⟩,
    ⟨24, 6, .sw, 0x8, [.below 1 1, .above 32 32]⟩]⟩,
  -- MC_GD_TIME
  ⟨0x1402, 1, 1, [⟨0, 8, .sw, 0x19, [.below 10 10]⟩,
    ⟨8, 8, .sw, 0x64, [.below 10 10]⟩]⟩,
  -- MC_GD_DESAT
  ⟨0x1403, 1, 1, [⟨0, 4, .sw, 0x3, []⟩,
    ⟨4, 5, .sw, 0x9, []⟩]⟩]

/-- Registers: motor operating set, by set offset. -/
def tab_mcset_2 : List RDesc := [
  -- MC_GD_BST
  ⟨0x1404, 1, 1, [⟨0, 4, .sw, 0x6, [.above 10 10]⟩,
    ⟨4, 8, .sw, 0x5, []⟩,
    ⟨12, 8, .sw, 0x4, [.below 1 1]⟩,
    ⟨20, 8, .sw, 0x5, [.below 1 1]⟩]⟩,
  -- MC_CV_MODE
  ⟨0x300, 1, 1, [⟨0, 2, .sw, 0x0, [.above 2 0]⟩,
    ⟨2, 1, .sw, 0x0, []⟩,
    ⟨3, 1, .sw, 0x0, []⟩,
    ⟨4, 4, .sw, 0x3, []⟩,
    ⟨8, 3, .sw, 0x1, [.below 1 1]⟩,
    ⟨16, 8, .sw, 0xA, [.below 1 1]⟩,
    ⟨24, 8, .sw, 0x4, [.below 1 1]⟩]⟩,
  -- MC_CV_SHED
  ⟨0x301, 1, 1, [⟨0, 16, .sw, 0x400, []⟩,
    ⟨16, 16, .sw, 0x599, []⟩]⟩,
  -- MC_CV_PROT
  ⟨0x302, 1, 1, [⟨0, 16, .sw, 0x1000, []⟩]⟩,
  -- MC_CV_VLIM
  ⟨0x303, 1, 1, [⟨0, 16, .sw, 0x640, []⟩,
    ⟨16, 16, .sw, 0x384, []⟩]⟩,
  -- MC_TH_FR
  ⟨0x1C00, 1, 1, [⟨0, 10, .sw, 0xA, []⟩,
    ⟨10, 10, .sw, 0x23, []⟩,
    ⟨20, 10, .sw, 0x2D, []⟩]⟩,
  -- MC_TH_FT
  ⟨0x1C01, 1, 1, [⟨0, 10, .sw, 0x14, [.below 1 1]⟩,
    ⟨10, 10, .sw, 0x3C, [.below 1 1]⟩,
    ⟨20, 10, .sw, 0xF, [.below 1 1]⟩]⟩,
  -- MC_TH_LIM
  ⟨0x1C02, 1, 1, [⟨0, 10, .sw, 0x104, []⟩,
    ⟨10, 10, .sw, 0x12C, []⟩,
    ⟨20, 10, .sw, 0x154, []⟩]⟩,
  -- MC_TH_DR
  ⟨0x1C03, 1, 1, [⟨0, 8, .sw, 0x0, []⟩,
    ⟨8, 8, .sw, 0xA, [.below 1 1]⟩,
    ⟨16, 12, .sw, 0x800, []⟩,
    ⟨28, 4, .sw, 0x8, []⟩]⟩,
  -- MC_TH_RDS
  ⟨0x1C04, 1, 1, [⟨0, 16, .sw, 0x0, []⟩,
    ⟨16, 8, .sw, 0xA, [.below 1 1]⟩]⟩,
  -- MC_TH_ESW
  ⟨0x1C10, 16, 1, [⟨0, 32, .sw, 0x0, []⟩]⟩]

/-- Registers: motor operating set, by set offset. -/
def tab_mcset : List RDesc := tab_mcset_0 ++ tab_mcset_1 ++ tab_mcset_2

/-- Registers: sensing group. -/
def tab_grp : List RDesc := [
  -- SEN_ROLE
  ⟨0x0, 1, 1, [⟨0, 3, .ro, 0x0, []⟩,
    ⟨3, 3, .ro, 0x1, []⟩,
    ⟨6, 3, .ro, 0x2, []⟩,
    ⟨9, 3, .ro, 0x3, []⟩,
    ⟨12, 3, .ro, 0x0, []⟩,
    ⟨15, 1, .ro, 0x0, []⟩,
    ⟨16, 5, .ro, 0x0, []⟩,
    ⟨21, 1, .ro, 0x0, []⟩,
    ⟨22, 5, .ro, 0x0, []⟩]⟩,
  -- SEN_CAL
  ⟨0x1, 1, 1, [⟨0, 1, .rw, 0x1, []⟩,
    ⟨8, 8, .rw, 0x14, [.below 5 5]⟩,
    ⟨16, 8, .rw, 0x4, []⟩]⟩,
  -- SEN_CNT
  ⟨0x2, 1, 1, [⟨0, 8, .ro, 0x0, []⟩,
    ⟨8, 8, .ro, 0x0, []⟩,
    ⟨16, 8, .ro, 0x0, []⟩,
    ⟨24, 8, .ro, 0x0, []⟩]⟩,
  -- SEN_CNT2
  ⟨0x3, 1, 1, [⟨0, 16, .ro, 0x0, []⟩,
    ⟨16, 16, .ro, 0x0, []⟩]⟩,
  -- SEN_CLR
  ⟨0x4, 1, 1, [⟨0, 1, .wo, 0x0, []⟩,
    ⟨1, 1, .wo, 0x0, []⟩,
    ⟨2, 1, .wo, 0x0, []⟩]⟩,
  -- SEN_DMA_BUF
  ⟨0x5, 1, 1, [⟨0, 16, .st, 0x0, []⟩,
    ⟨16, 16, .st, 0x10, [.below 16 16]⟩]⟩,
  -- SEN_DMA_CTL
  ⟨0x6, 1, 1, [⟨0, 1, .st, 0x0, []⟩,
    ⟨1, 2, .st, 0x0, [.above 1 1]⟩,
    ⟨3, 1, .st, 0x0, []⟩,
    ⟨16, 16, .st, 0x8, []⟩]⟩,
  -- SEN_DMA_PTR
  ⟨0x7, 1, 1, [⟨0, 16, .ro, 0x0, []⟩,
    ⟨16, 16, .rw, 0x0, []⟩]⟩,
  -- SEN_ACC_CTL
  ⟨0x8, 4, 1, [⟨0, 1, .rw, 0x0, []⟩,
    ⟨1, 1, .ro, 0x0, []⟩,
    ⟨2, 1, .wo, 0x0, []⟩]⟩,
  -- SEN_ACC_LO
  ⟨0xC, 4, 2, [⟨0, 32, .ro, 0x0, []⟩]⟩,
  -- SEN_ACC_HI
  ⟨0xD, 4, 2, [⟨0, 8, .ro, 0x0, []⟩,
    ⟨8, 24, .ro, 0x0, []⟩]⟩,
  -- SEN_RES_REG
  ⟨0x20, 16, 1, [⟨0, 32, .ro, 0x0, []⟩]⟩,
  -- SEN_RES_INJ
  ⟨0x30, 4, 1, [⟨0, 32, .ro, 0x0, []⟩]⟩]

/-- Registers: sensing group, motor only. -/
def tab_mgrp : List RDesc := [
  -- SEN_RES_I
  ⟨0x34, 3, 1, [⟨0, 32, .ro, 0x0, []⟩]⟩,
  -- SEN_RES_GRAT
  ⟨0x37, 1, 1, [⟨0, 32, .ro, 0x0, []⟩]⟩,
  -- SEN_AMP
  ⟨0x38, 1, 1, [⟨0, 3, .st, 0x2, [.refuseAbove 4]⟩,
    ⟨16, 16, .st, 0x1F4, [.below 1 1]⟩]⟩,
  -- SEN_AMPMAP
  ⟨0x39, 1, 1, [⟨0, 2, .ro, 0x0, []⟩,
    ⟨2, 2, .ro, 0x1, []⟩,
    ⟨4, 2, .ro, 0x2, []⟩,
    ⟨6, 2, .ro, 0x3, []⟩,
    ⟨8, 4, .ro, 0x0, []⟩,
    ⟨12, 2, .ro, 0x0, []⟩,
    ⟨14, 1, .ro, 0x0, []⟩]⟩,
  -- SEN_IZERO_UV
  ⟨0x3A, 1, 1, [⟨0, 16, .ro, 0x0, []⟩,
    ⟨16, 16, .ro, 0x0, []⟩]⟩,
  -- SEN_IZERO_WS
  ⟨0x3B, 1, 1, [⟨0, 16, .ro, 0x0, []⟩,
    ⟨16, 16, .ro, 0x0, []⟩]⟩,
  -- SEN_AMPCHK
  ⟨0x3C, 1, 1, [⟨0, 8, .rw, 0xA, []⟩,
    ⟨8, 8, .rw, 0x20, []⟩,
    ⟨16, 12, .rw, 0x100, []⟩]⟩]

/-- Registers: sequences (motor: set offset from 0x0C00; region and Kilid: group offset from 0x40). -/
def tab_seq : List RDesc := [
  -- SEQ_CFG
  ⟨0x0, 1, 1, [⟨0, 5, .sq, 0x0, [.above 16 16]⟩,
    ⟨5, 3, .sq, 0x0, [.above 4 4]⟩,
    ⟨8, 4, .sq, 0x0, []⟩,
    ⟨12, 4, .sq, 0x0, [.eq 8 0]⟩,
    ⟨16, 2, .sq, 0x0, [.eq 3 0]⟩]⟩,
  -- SEQ_DLY
  ⟨0x1, 1, 1, [⟨0, 11, .sq, 0x0, [.above 2000 2000]⟩,
    ⟨16, 11, .sq, 0x0, [.above 2000 2000]⟩]⟩,
  -- SEQ_REG
  ⟨0x10, 16, 1, [⟨0, 6, .sq, 0x3F, []⟩,
    ⟨6, 1, .sq, 0x0, []⟩,
    ⟨7, 1, .sq, 0x0, []⟩,
    ⟨8, 2, .sq, 0x0, []⟩]⟩,
  -- SEQ_INJ
  ⟨0x20, 4, 1, [⟨0, 6, .sq, 0x3F, []⟩,
    ⟨6, 1, .sq, 0x0, []⟩,
    ⟨7, 1, .sq, 0x0, []⟩,
    ⟨8, 2, .sq, 0x0, []⟩]⟩]

/-- Registers: lanes and scheduler. -/
def tab_ln : List RDesc := [
  -- LN_CFG
  ⟨0x8000, 1, 1, [⟨0, 13, .rw, 0xCCD, []⟩,
    ⟨16, 8, .rw, 0x32, [.above 100 100]⟩,
    ⟨24, 8, .rw, 0x32, []⟩]⟩,
  -- LN_STAT
  ⟨0x8001, 1, 1, [⟨0, 8, .ro, 0x3F, []⟩,
    ⟨8, 8, .ro, 0xC0, []⟩,
    ⟨16, 8, .ro, 0x0, []⟩,
    ⟨24, 8, .ro, 0x0, []⟩]⟩,
  -- LN_LOAD
  ⟨0x8002, 1, 1, [⟨0, 8, .ro, 0x0, []⟩,
    ⟨8, 8, .rw, 0x0, []⟩]⟩,
  -- LN_CNT
  ⟨0x8003, 1, 1, [⟨0, 8, .rw, 0x0, []⟩,
    ⟨8, 8, .rw, 0x0, []⟩,
    ⟨16, 8, .rw, 0x0, []⟩,
    ⟨24, 8, .rw, 0x0, []⟩]⟩,
  -- LN_BOUND
  ⟨0x8004, 1, 1, [⟨0, 16, .ro, 0x0, []⟩,
    ⟨16, 3, .ro, 0x0, []⟩]⟩,
  -- LN_LANE
  ⟨0x8010, 8, 1, [⟨0, 13, .ro, 0x1000, []⟩,
    ⟨13, 3, .ro, 0x0, []⟩,
    ⟨16, 6, .ro, 0x0, []⟩,
    ⟨22, 4, .ro, 0xF, []⟩]⟩]

/-- Registers: one trace unit. -/
def tab_tr : List RDesc := [
  -- TR_CFG
  ⟨0x0, 1, 1, [⟨0, 3, .rw, 0x0, []⟩,
    ⟨3, 1, .rw, 0x0, []⟩,
    ⟨4, 6, .rw, 0x1, []⟩,
    ⟨16, 8, .rw, 0x0, []⟩,
    ⟨24, 1, .rw, 0x0, []⟩]⟩,
  -- TR_NODE_LO
  ⟨0x1, 1, 1, [⟨0, 8, .rw, 0x0, []⟩,
    ⟨8, 8, .rw, 0x0, []⟩,
    ⟨16, 8, .rw, 0x0, []⟩,
    ⟨24, 8, .rw, 0x0, []⟩]⟩,
  -- TR_NODE_HI
  ⟨0x2, 1, 1, [⟨0, 8, .rw, 0x0, []⟩,
    ⟨8, 8, .rw, 0x0, []⟩,
    ⟨16, 8, .rw, 0x0, []⟩,
    ⟨24, 8, .rw, 0x0, []⟩]⟩,
  -- TR_TRIG
  ⟨0x3, 1, 1, [⟨0, 8, .rw, 0x0, []⟩,
    ⟨8, 2, .rw, 0x0, [.eq 3 2]⟩,
    ⟨10, 1, .wo, 0x0, []⟩,
    ⟨11, 1, .wo, 0x0, []⟩,
    ⟨12, 1, .wo, 0x0, []⟩]⟩,
  -- TR_DEPTH
  ⟨0x4, 1, 1, [⟨0, 14, .rw, 0x0, []⟩,
    ⟨16, 14, .rw, 0x100, []⟩]⟩,
  -- TR_STAT
  ⟨0x5, 1, 1, [⟨0, 2, .ro, 0x0, []⟩,
    ⟨2, 14, .ro, 0x0, []⟩,
    ⟨16, 14, .ro, 0x0, []⟩]⟩]

/-- Registers: atlas control. -/
def tab_atl : List RDesc := [
  -- ATL_STAT
  ⟨0x9000, 1, 1, [⟨0, 5, .ro, 0x10, []⟩,
    ⟨8, 13, .ro, 0x0, []⟩]⟩,
  -- ATL_CMD
  ⟨0x9001, 1, 1, [⟨0, 12, .rw, 0x0, []⟩,
    ⟨12, 1, .wo, 0x0, []⟩,
    ⟨16, 1, .ro, 0x0, []⟩,
    ⟨17, 3, .ro, 0x0, []⟩]⟩,
  -- ATL_CNT
  ⟨0x9002, 1, 1, [⟨0, 16, .rw, 0x0, []⟩,
    ⟨16, 8, .rw, 0x0, []⟩,
    ⟨24, 8, .ro, 0x0, []⟩]⟩,
  -- ATL_SHEET_STAT
  ⟨0x9100, 256, 1, [⟨0, 2, .ro, 0x0, []⟩,
    ⟨2, 2, .ro, 0x0, []⟩,
    ⟨4, 2, .ro, 0x0, []⟩,
    ⟨6, 2, .ro, 0x0, []⟩,
    ⟨8, 2, .ro, 0x0, []⟩,
    ⟨10, 2, .ro, 0x0, []⟩,
    ⟨12, 2, .ro, 0x0, []⟩,
    ⟨14, 2, .ro, 0x0, []⟩,
    ⟨16, 2, .ro, 0x0, []⟩,
    ⟨18, 2, .ro, 0x0, []⟩,
    ⟨20, 2, .ro, 0x0, []⟩,
    ⟨22, 2, .ro, 0x0, []⟩,
    ⟨24, 2, .ro, 0x0, []⟩,
    ⟨26, 2, .ro, 0x0, []⟩,
    ⟨28, 2, .ro, 0x0, []⟩,
    ⟨30, 2, .ro, 0x0, []⟩]⟩]

/-- Registers: motion block. -/
def tab_mo : List RDesc := [
  -- MO_CMD
  ⟨0x0, 1, 1, [⟨0, 4, .wo, 0x0, []⟩,
    ⟨8, 8, .wo, 0x0, []⟩]⟩,
  -- MO_TGT_LO
  ⟨0x1, 1, 1, [⟨0, 32, .rw, 0x0, []⟩]⟩,
  -- MO_TGT_HI
  ⟨0x2, 1, 1, [⟨0, 32, .rw, 0x0, []⟩]⟩,
  -- MO_VEL
  ⟨0x3, 1, 1, [⟨0, 32, .rw, 0x0, []⟩]⟩,
  -- MO_ACC
  ⟨0x4, 1, 1, [⟨0, 32, .rw, 0x0, []⟩]⟩,
  -- MO_WPX
  ⟨0x5, 1, 1, [⟨0, 16, .rw, 0x0, []⟩,
    ⟨16, 1, .rw, 0x0, []⟩]⟩,
  -- MO_STAT
  ⟨0x6, 1, 1, [⟨0, 3, .ro, 0x0, []⟩,
    ⟨3, 2, .ro, 0x0, []⟩,
    ⟨5, 1, .w1c, 0x0, []⟩,
    ⟨6, 1, .w1c, 0x0, []⟩,
    ⟨7, 1, .w1c, 0x0, []⟩,
    ⟨8, 1, .ro, 0x0, []⟩,
    ⟨9, 1, .ro, 0x0, []⟩,
    ⟨12, 4, .ro, 0x0, []⟩,
    ⟨16, 16, .rw, 0x0, []⟩]⟩,
  -- MO_PSET_LO
  ⟨0x7, 1, 1, [⟨0, 32, .ro, 0x0, []⟩]⟩,
  -- MO_PSET_HI
  ⟨0x8, 1, 1, [⟨0, 32, .ro, 0x0, []⟩]⟩,
  -- MO_POS_LO
  ⟨0x9, 1, 1, [⟨0, 32, .ro, 0x0, []⟩]⟩,
  -- MO_POS_HI
  ⟨0xA, 1, 1, [⟨0, 32, .ro, 0x0, []⟩]⟩,
  -- MO_PVEL
  ⟨0xB, 1, 1, [⟨0, 32, .ro, 0x0, []⟩]⟩,
  -- MO_ROUTE
  ⟨0xC, 1, 1, [⟨0, 5, .ro, 0x0, []⟩,
    ⟨8, 8, .ro, 0x0, []⟩,
    ⟨16, 8, .rw, 0x0, []⟩]⟩]

/-- Registers: stepper channel. -/
def tab_st : List RDesc := [
  -- ST_CFG
  ⟨0x10, 1, 1, [⟨0, 10, .st, 0xC8, [.below 1 1]⟩,
    ⟨10, 1, .st, 0x0, []⟩,
    ⟨11, 1, .st, 0x0, []⟩,
    ⟨12, 1, .st, 0x0, []⟩]⟩,
  -- ST_DRV_STAT
  ⟨0x11, 1, 1, [⟨0, 3, .ro, 0x0, []⟩,
    ⟨3, 2, .ro, 0x0, []⟩,
    ⟨5, 5, .ro, 0x10, []⟩,
    ⟨10, 5, .ro, 0x10, []⟩,
    ⟨15, 1, .ro, 0x0, []⟩,
    ⟨16, 16, .ro, 0x0, []⟩]⟩,
  -- ST_DRV_CNT
  ⟨0x12, 1, 1, [⟨0, 8, .rw, 0x0, []⟩,
    ⟨8, 8, .rw, 0x0, []⟩,
    ⟨16, 8, .rw, 0x0, []⟩,
    ⟨24, 8, .rw, 0x0, []⟩]⟩]

/-- Registers: profile limits of a set. -/
def tab_moset : List RDesc := [
  -- MO_VMAX
  ⟨0x0, 1, 1, [⟨0, 32, .sw, 0x10000, []⟩]⟩,
  -- MO_AMAX
  ⟨0x1, 1, 1, [⟨0, 32, .sw, 0x10000, []⟩]⟩,
  -- MO_ASTOP
  ⟨0x2, 1, 1, [⟨0, 32, .sw, 0x0, []⟩]⟩,
  -- MO_TIME
  ⟨0x3, 1, 1, [⟨0, 12, .sw, 0x32, []⟩,
    ⟨12, 4, .sw, 0x3, []⟩]⟩]

/-- Registers: stepper operating set. -/
def tab_stset : List RDesc := [
  -- ST_CUR
  ⟨0x10, 1, 1, [⟨0, 11, .sw, 0x0, [.above 1500 1500]⟩,
    ⟨11, 11, .sw, 0x0, [.above 1500 1500]⟩]⟩,
  -- ST_CUR2
  ⟨0x11, 1, 1, [⟨0, 11, .sw, 0x0, []⟩,
    ⟨11, 11, .sw, 0x0, [.above 1500 1500]⟩]⟩,
  -- ST_STBY
  ⟨0x12, 1, 1, [⟨0, 16, .sw, 0x3E8, []⟩]⟩,
  -- ST_CHOP
  ⟨0x13, 1, 1, [⟨0, 7, .sw, 0x14, [.below 2 2, .above 80 80]⟩,
    ⟨8, 4, .sw, 0x4, [.below 2 2, .above 8 8]⟩,
    ⟨12, 5, .sw, 0x4, [.above 16 16]⟩,
    ⟨17, 5, .sw, 0x8, [.above 16 16]⟩]⟩,
  -- ST_USTEP0
  ⟨0x14, 1, 1, [⟨0, 14, .sw, 0x96, []⟩,
    ⟨16, 14, .sw, 0x12C, []⟩]⟩,
  -- ST_USTEP1
  ⟨0x15, 1, 1, [⟨0, 14, .sw, 0x258, []⟩,
    ⟨16, 14, .sw, 0x4B0, []⟩]⟩,
  -- ST_USTEP2
  ⟨0x16, 1, 1, [⟨0, 4, .sw, 0x2, []⟩,
    ⟨4, 1, .sw, 0x0, []⟩,
    ⟨5, 3, .sw, 0x7, [.eq 5 7, .eq 6 7]⟩]⟩,
  -- ST_STALL
  ⟨0x17, 1, 1, [⟨0, 1, .sw, 0x0, []⟩,
    ⟨1, 3, .sw, 0x2, [.below 1 1]⟩,
    ⟨4, 8, .sw, 0x32, []⟩,
    ⟨12, 8, .sw, 0x14, [.below 1 1]⟩,
    ⟨20, 12, .sw, 0xC8, []⟩]⟩,
  -- ST_HOME
  ⟨0x18, 1, 1, [⟨0, 1, .sw, 0x0, []⟩,
    ⟨1, 1, .sw, 0x0, []⟩,
    ⟨2, 14, .sw, 0x32, []⟩,
    ⟨16, 16, .sw, 0x226, []⟩]⟩,
  -- ST_HOME2
  ⟨0x19, 1, 1, [⟨0, 16, .sw, 0x0, []⟩]⟩]

/-- Registers: region. -/
def tab_rg : List RDesc := [
  -- RG_PS_STAT
  ⟨0x200, 1, 1, [⟨0, 2, .ro, 0x0, []⟩,
    ⟨2, 1, .ro, 0x0, []⟩,
    ⟨3, 1, .ro, 0x0, []⟩,
    ⟨4, 1, .ro, 0x0, []⟩,
    ⟨5, 1, .ro, 0x0, []⟩,
    ⟨6, 1, .ro, 0x0, []⟩,
    ⟨7, 1, .ro, 0x0, []⟩,
    ⟨8, 1, .ro, 0x0, []⟩,
    ⟨9, 1, .ro, 0x0, []⟩]⟩,
  -- RG_PS_CMD
  ⟨0x201, 1, 1, [⟨0, 1, .wo, 0x0, []⟩,
    ⟨1, 1, .wo, 0x0, []⟩]⟩,
  -- RG_PS_CNT
  ⟨0x202, 1, 1, [⟨0, 8, .rw, 0x0, []⟩,
    ⟨8, 8, .rw, 0x0, []⟩,
    ⟨16, 8, .rw, 0x0, []⟩,
    ⟨24, 8, .rw, 0x0, []⟩]⟩,
  -- RG_OV_ACT
  ⟨0x203, 1, 1, [⟨0, 10, .ro, 0x226, []⟩,
    ⟨10, 10, .ro, 0x23A, []⟩,
    ⟨20, 10, .ro, 0x24E, []⟩]⟩,
  -- RG_GATE_SEG
  ⟨0x204, 2, 1, [⟨0, 6, .ro, 0x20, []⟩,
    ⟨6, 6, .ro, 0x20, []⟩,
    ⟨12, 3, .ro, 0x4, []⟩,
    ⟨15, 3, .ro, 0x4, []⟩,
    ⟨18, 1, .ro, 0x0, []⟩]⟩,
  -- RG_RBG_CFG
  ⟨0x210, 1, 1, [⟨0, 1, .st, 0x1, []⟩]⟩,
  -- RG_OV_THR
  ⟨0x280, 1, 1, [⟨0, 10, .sw, 0x226, [.above 750 750]⟩,
    ⟨10, 10, .sw, 0x23A, [.above 750 750]⟩,
    ⟨20, 10, .sw, 0x24E, [.above 750 750]⟩]⟩,
  -- RG_OV_CFG
  ⟨0x281, 1, 1, [⟨0, 8, .sw, 0xA, [.below 1 1]⟩,
    ⟨8, 8, .sw, 0xA, [.below 1 1]⟩,
    ⟨16, 8, .sw, 0x14, []⟩,
    ⟨24, 8, .sw, 0x19, []⟩]⟩,
  -- RG_BRK_GD
  ⟨0x282, 1, 1, [⟨0, 6, .sw, 0x10, [.below 1 1, .above 32 32]⟩,
    ⟨8, 6, .sw, 0x10, [.below 1 1, .above 32 32]⟩,
    ⟨16, 6, .sw, 0x4, [.below 1 1, .above 32 32]⟩,
    ⟨24, 6, .sw, 0x4, [.below 1 1, .above 32 32]⟩]⟩,
  -- RG_BRK_DESAT
  ⟨0x283, 1, 1, [⟨0, 4, .sw, 0x3, []⟩,
    ⟨4, 5, .sw, 0x9, []⟩,
    ⟨16, 8, .sw, 0x19, []⟩,
    ⟨24, 8, .sw, 0x64, []⟩]⟩,
  -- SC_CTRL
  ⟨0x100, 1, 1, [⟨0, 1, .rw, 0x0, []⟩,
    ⟨1, 1, .ro, 0x0, []⟩,
    ⟨8, 8, .rw, 0x0, []⟩]⟩,
  -- SC_STATE
  ⟨0x101, 1, 1, [⟨0, 3, .ro, 0x0, []⟩,
    ⟨3, 1, .ro, 0x0, []⟩,
    ⟨4, 4, .ro, 0x0, []⟩,
    ⟨8, 8, .ro, 0x0, []⟩,
    ⟨16, 1, .ro, 0x0, []⟩,
    ⟨17, 1, .ro, 0x0, []⟩]⟩,
  -- SC_CMD
  ⟨0x102, 1, 1, [⟨0, 4, .wo, 0x0, []⟩]⟩,
  -- SC_SWAP
  ⟨0x103, 1, 1, [⟨0, 1, .wo, 0x0, []⟩,
    ⟨1, 1, .ro, 0x0, []⟩,
    ⟨2, 1, .w1c, 0x0, []⟩,
    ⟨8, 8, .ro, 0x0, []⟩,
    ⟨16, 16, .ro, 0x0, []⟩]⟩,
  -- SC_LOOP_SAT
  ⟨0x110, 1, 1, [⟨0, 12, .w1c, 0x0, []⟩,
    ⟨16, 16, .rw, 0x0, []⟩]⟩,
  -- SC_LOOP_MISS
  ⟨0x111, 1, 1, [⟨0, 12, .w1c, 0x0, []⟩,
    ⟨16, 16, .rw, 0x0, []⟩]⟩]

/-- Registers: thermal. -/
def tab_th : List RDesc := [
  -- TH_CNT
  ⟨0x3000, 1, 1, [⟨0, 8, .rw, 0x0, []⟩,
    ⟨8, 8, .rw, 0x0, []⟩,
    ⟨16, 8, .rw, 0x0, []⟩]⟩,
  -- TH_DIE_T
  ⟨0x3001, 3, 1, [⟨0, 16, .ro, 0x0, []⟩,
    ⟨16, 4, .ro, 0x0, []⟩]⟩,
  -- TH_NTC_T
  ⟨0x3004, 4, 1, [⟨0, 16, .ro, 0x0, []⟩,
    ⟨16, 1, .ro, 0x0, []⟩,
    ⟨17, 1, .ro, 0x0, []⟩,
    ⟨18, 1, .ro, 0x0, []⟩]⟩,
  -- TH_SENS_STAT
  ⟨0x3008, 3, 1, [⟨0, 13, .ro, 0x0, []⟩,
    ⟨13, 4, .ro, 0x0, []⟩,
    ⟨17, 1, .ro, 0x0, []⟩,
    ⟨18, 1, .ro, 0x0, []⟩]⟩,
  -- TH_BRK_T
  ⟨0x300B, 2, 1, [⟨0, 16, .ro, 0x0, []⟩,
    ⟨16, 1, .ro, 0x0, []⟩]⟩,
  -- TH_ST_CFG
  ⟨0x300D, 1, 1, [⟨0, 11, .st, 0x5DC, []⟩,
    ⟨11, 11, .st, 0x5DC, []⟩,
    ⟨22, 8, .st, 0x80, []⟩]⟩,
  -- TH_ST_STAT
  ⟨0x300E, 1, 1, [⟨0, 13, .ro, 0x1000, []⟩,
    ⟨16, 13, .ro, 0x1000, []⟩]⟩,
  -- TH_NTC_CFG
  ⟨0x3010, 4, 1, [⟨0, 16, .st, 0x3E8, [.below 1 1]⟩,
    ⟨16, 13, .st, 0xD6B, [.below 1 1]⟩]⟩,
  -- TH_NTC_MASK
  ⟨0x3014, 4, 1, [⟨0, 8, .st, 0x0, []⟩,
    ⟨8, 8, .st, 0x0, []⟩]⟩,
  -- TH_LIM_DIE
  ⟨0x3040, 3, 1, [⟨0, 10, .sw, 0xFA, []⟩,
    ⟨10, 10, .sw, 0x10E, []⟩,
    ⟨20, 10, .sw, 0x12C, []⟩]⟩,
  -- TH_LIM_NTC
  ⟨0x3043, 4, 1, [⟨0, 10, .sw, 0xF0, []⟩,
    ⟨10, 10, .sw, 0x104, []⟩,
    ⟨20, 10, .sw, 0x118, []⟩]⟩,
  -- TH_COLD
  ⟨0x3047, 4, 1, [⟨0, 10, .sw, 0x380, []⟩,
    ⟨10, 10, .sw, 0x380, []⟩,
    ⟨20, 8, .sw, 0xFF, []⟩]⟩,
  -- TH_RATE_CFG
  ⟨0x304B, 1, 1, [⟨0, 8, .sw, 0x0, []⟩,
    ⟨8, 8, .sw, 0x0, []⟩,
    ⟨16, 8, .sw, 0x0, []⟩,
    ⟨24, 8, .sw, 0xA, [.below 1 1]⟩]⟩,
  -- TH_BRK_FR
  ⟨0x304C, 2, 1, [⟨0, 10, .sw, 0xA, []⟩,
    ⟨10, 10, .sw, 0x23, []⟩,
    ⟨20, 10, .sw, 0x2D, []⟩]⟩,
  -- TH_BRK_FT
  ⟨0x304E, 2, 1, [⟨0, 10, .sw, 0x14, [.below 1 1]⟩,
    ⟨10, 10, .sw, 0x3C, [.below 1 1]⟩,
    ⟨20, 10, .sw, 0xF, [.below 1 1]⟩]⟩,
  -- TH_BRK_LIM
  ⟨0x3050, 2, 1, [⟨0, 10, .sw, 0x104, []⟩,
    ⟨10, 10, .sw, 0x12C, []⟩,
    ⟨20, 10, .sw, 0x154, []⟩]⟩,
  -- TH_BRK_P
  ⟨0x3052, 2, 1, [⟨0, 10, .sw, 0x14, [.below 1 1]⟩,
    ⟨10, 8, .sw, 0x14, []⟩,
    ⟨18, 8, .sw, 0x0, []⟩,
    ⟨26, 3, .sw, 0x5, [.eq 0 5, .above 5 5]⟩]⟩]

/-- Registers: fault collector. -/
def tab_fc : List RDesc := [
  -- FC_STAT
  ⟨0x1000, 1, 1, [⟨0, 3, .ro, 0x7, []⟩,
    ⟨3, 1, .ro, 0x0, []⟩,
    ⟨4, 1, .ro, 0x0, []⟩,
    ⟨5, 1, .ro, 0x0, []⟩,
    ⟨8, 9, .ro, 0x0, []⟩]⟩,
  -- FC_CTRL
  ⟨0x1001, 1, 1, [⟨0, 4, .st, 0x3, []⟩,
    ⟨4, 1, .rw, 0x1, []⟩]⟩,
  -- FC_STICKY
  ⟨0x1010, 8, 1, [⟨0, 32, .w1c, 0x0, []⟩]⟩,
  -- FC_ASSERT
  ⟨0x1018, 8, 1, [⟨0, 32, .ro, 0x0, []⟩]⟩,
  -- FC_GUY
  ⟨0x1020, 8, 1, [⟨0, 32, .w1c, 0x0, []⟩]⟩,
  -- FC_CNT
  ⟨0x1040, 64, 1, [⟨0, 8, .rw, 0x0, []⟩,
    ⟨8, 8, .rw, 0x0, []⟩,
    ⟨16, 8, .rw, 0x0, []⟩,
    ⟨24, 8, .rw, 0x0, []⟩]⟩,
  -- FC_SEV
  ⟨0x1100, 256, 1, [⟨0, 3, .sw, 0x0, [.above 5 5]⟩,
    ⟨3, 3, .sw, 0x0, [.above 4 4]⟩,
    ⟨6, 1, .sw, 0x1, []⟩,
    ⟨8, 8, .sw, 0x80, [.below 1 1]⟩]⟩]

/-- Registers: steward and logbook. -/
def tab_stw : List RDesc := [
  -- ST_SPARE0
  ⟨0x2000, 1, 1, [⟨0, 2, .ro, 0x2, []⟩,
    ⟨2, 4, .ro, 0x9, []⟩,
    ⟨6, 3, .ro, 0x6, []⟩,
    ⟨9, 2, .ro, 0x3, []⟩,
    ⟨11, 3, .ro, 0x4, []⟩,
    ⟨14, 5, .ro, 0x10, []⟩]⟩,
  -- ST_SPARE1
  ⟨0x2001, 1, 1, [⟨0, 9, .ro, 0x140, []⟩,
    ⟨16, 6, .ro, 0x20, []⟩]⟩,
  -- ST_EXH
  ⟨0x2002, 1, 1, [⟨1, 10, .ro, 0x0, []⟩]⟩,
  -- ST_HSEL
  ⟨0x2003, 1, 1, [⟨0, 16, .rw, 0x0, []⟩]⟩,
  -- ST_HVAL
  ⟨0x2004, 1, 1, [⟨0, 16, .ro, 0x0, []⟩,
    ⟨16, 2, .ro, 0x3, []⟩]⟩,
  -- ST_SUB
  ⟨0x2005, 1, 1, [⟨0, 16, .ro, 0x0, []⟩,
    ⟨16, 16, .ro, 0x0, []⟩]⟩,
  -- ST_LIM
  ⟨0x2010, 11, 1, [⟨0, 16, .st, 0x0, [.below 1 1]⟩]⟩,
  -- LOG_STAT
  ⟨0x2020, 1, 1, [⟨0, 1, .ro, 0x0, []⟩,
    ⟨1, 1, .ro, 0x0, []⟩,
    ⟨2, 1, .ro, 0x0, []⟩,
    ⟨8, 7, .ro, 0x0, []⟩]⟩,
  -- LOG_SEQ
  ⟨0x2021, 1, 1, [⟨0, 32, .ro, 0x0, []⟩]⟩,
  -- LOG_OPS
  ⟨0x2022, 1, 1, [⟨0, 32, .ro, 0x0, []⟩]⟩,
  -- LOG_BOOTS
  ⟨0x2023, 1, 1, [⟨0, 16, .ro, 0x0, []⟩]⟩,
  -- LOG_CMD
  ⟨0x2024, 1, 1, [⟨0, 1, .wo, 0x0, []⟩]⟩,
  -- LOG_CNT
  ⟨0x2025, 1, 1, [⟨0, 16, .rw, 0x0, []⟩,
    ⟨16, 8, .rw, 0x0, []⟩]⟩]

/-- Registers: security. -/
def tab_sec : List RDesc := [
  -- SEC_STAT
  ⟨0x4000, 1, 1, [⟨0, 2, .ro, 0x0, []⟩,
    ⟨2, 1, .ro, 0x0, []⟩,
    ⟨3, 1, .ro, 0x0, []⟩,
    ⟨4, 1, .ro, 0x0, []⟩,
    ⟨8, 8, .ro, 0x0, []⟩,
    ⟨16, 6, .ro, 0x0, []⟩,
    ⟨22, 5, .ro, 0x0, []⟩]⟩,
  -- SEC_SESSION_LO
  ⟨0x4001, 1, 1, [⟨0, 32, .ro, 0x0, []⟩]⟩,
  -- SEC_SESSION_HI
  ⟨0x4002, 1, 1, [⟨0, 32, .ro, 0x0, []⟩]⟩,
  -- SEC_FRESH
  ⟨0x4003, 1, 1, [⟨0, 32, .ro, 0x0, []⟩]⟩,
  -- SEC_CAN_SV
  ⟨0x4004, 1, 1, [⟨0, 32, .ro, 0x0, []⟩]⟩,
  -- SEC_CNT
  ⟨0x4005, 1, 1, [⟨0, 16, .rw, 0x0, []⟩,
    ⟨16, 16, .rw, 0x0, []⟩]⟩,
  -- SEC_TRNG
  ⟨0x4006, 1, 1, [⟨0, 24, .ro, 0x0, []⟩,
    ⟨31, 1, .ro, 0x0, []⟩]⟩,
  -- SEC_CMD
  ⟨0x4007, 1, 1, [⟨0, 4, .wo, 0x0, []⟩,
    ⟨4, 4, .wo, 0x0, []⟩,
    ⟨8, 2, .wo, 0x0, []⟩,
    ⟨10, 2, .wo, 0x0, []⟩,
    ⟨16, 3, .ro, 0x0, []⟩]⟩,
  -- SEC_CAN_CFG
  ⟨0x4008, 1, 1, [⟨0, 29, .st, 0x0, []⟩,
    ⟨29, 1, .st, 0x0, []⟩,
    ⟨30, 2, .st, 0x3, []⟩]⟩,
  -- SEC_CAN_CFG2
  ⟨0x4009, 1, 1, [⟨0, 16, .st, 0x100, [.below 1 1]⟩,
    ⟨16, 8, .st, 0xA, [.below 1 1]⟩]⟩,
  -- SEC_SLOT
  ⟨0x4010, 16, 1, [⟨0, 2, .ro, 0x0, []⟩,
    ⟨2, 2, .ro, 0x0, []⟩,
    ⟨4, 1, .ro, 0x0, []⟩,
    ⟨16, 16, .ro, 0x0, []⟩]⟩,
  -- SEC_KEYBUF
  ⟨0x4020, 16, 1, [⟨0, 32, .wo, 0x0, []⟩]⟩]

/-- Registers: serial ports. -/
def tab_ser : List RDesc := [
  -- HP_CFG
  ⟨0x5000, 1, 1, [⟨0, 2, .st, 0x0, []⟩,
    ⟨8, 6, .ro, 0x20, []⟩]⟩,
  -- HP_STAT
  ⟨0x5001, 1, 1, [⟨0, 1, .ro, 0x0, []⟩,
    ⟨1, 1, .ro, 0x0, []⟩,
    ⟨2, 1, .ro, 0x0, []⟩,
    ⟨3, 1, .ro, 0x0, []⟩,
    ⟨8, 8, .ro, 0x0, []⟩,
    ⟨16, 2, .ro, 0x0, []⟩]⟩,
  -- HP_CNT
  ⟨0x5002, 1, 1, [⟨0, 8, .rw, 0x0, []⟩,
    ⟨8, 8, .rw, 0x0, []⟩,
    ⟨16, 8, .rw, 0x0, []⟩,
    ⟨24, 8, .rw, 0x0, []⟩]⟩,
  -- HP_CNT2
  ⟨0x5003, 1, 1, [⟨0, 8, .rw, 0x0, []⟩,
    ⟨8, 8, .rw, 0x0, []⟩,
    ⟨16, 8, .rw, 0x0, []⟩,
    ⟨24, 8, .rw, 0x0, []⟩]⟩,
  -- HP_CHAIN
  ⟨0x5004, 1, 1, [⟨0, 24, .ro, 0x0, []⟩,
    ⟨24, 8, .ro, 0x0, []⟩]⟩,
  -- SP_CFG
  ⟨0x5010, 2, 8, [⟨0, 2, .st, 0x0, [.eq 3 0]⟩,
    ⟨2, 2, .st, 0x0, []⟩,
    ⟨4, 6, .st, 0x10, [.below 4 4, .above 32 32]⟩,
    ⟨10, 1, .st, 0x1, []⟩,
    ⟨16, 8, .st, 0x4, [.below 4 4]⟩]⟩,
  -- SP_TXW
  ⟨0x5011, 2, 8, [⟨0, 32, .st, 0x0, []⟩]⟩,
  -- SP_CRC
  ⟨0x5012, 2, 8, [⟨0, 4, .st, 0x0, [.below 3 0, .above 8 0]⟩,
    ⟨4, 8, .st, 0x0, []⟩,
    ⟨12, 8, .st, 0x0, []⟩,
    ⟨20, 8, .st, 0x0, []⟩]⟩,
  -- SP_RXW
  ⟨0x5013, 2, 8, [⟨0, 32, .ro, 0x0, []⟩]⟩,
  -- SP_CNT
  ⟨0x5014, 2, 8, [⟨0, 8, .rw, 0x0, []⟩,
    ⟨8, 8, .rw, 0x0, []⟩,
    ⟨16, 8, .rw, 0x0, []⟩,
    ⟨24, 8, .rw, 0x0, []⟩]⟩,
  -- SP_STAT
  ⟨0x5015, 2, 8, [⟨0, 3, .ro, 0x0, []⟩,
    ⟨3, 1, .ro, 0x0, []⟩,
    ⟨4, 1, .ro, 0x0, []⟩]⟩,
  -- MP_STAT
  ⟨0x5020, 1, 1, [⟨0, 2, .ro, 0x0, []⟩,
    ⟨8, 8, .ro, 0x19, []⟩,
    ⟨16, 6, .ro, 0x0, []⟩,
    ⟨22, 3, .ro, 0x0, []⟩]⟩,
  -- MP_CNT
  ⟨0x5021, 1, 1, [⟨0, 16, .rw, 0x0, []⟩,
    ⟨16, 8, .rw, 0x0, []⟩]⟩]

/-- Registers: one CAN controller. -/
def tab_can_0 : List RDesc := [
  -- CAN_CTRL
  ⟨0x0, 1, 1, [⟨0, 2, .rw, 0x0, []⟩,
    ⟨2, 1, .rw, 0x0, []⟩,
    ⟨3, 1, .rw, 0x0, []⟩,
    ⟨4, 1, .wo, 0x0, []⟩]⟩,
  -- CAN_STAT
  ⟨0x1, 1, 1, [⟨0, 2, .ro, 0x0, []⟩,
    ⟨2, 1, .ro, 0x0, []⟩,
    ⟨3, 1, .ro, 0x0, []⟩,
    ⟨4, 9, .ro, 0x0, []⟩,
    ⟨13, 8, .ro, 0x0, []⟩,
    ⟨21, 3, .ro, 0x0, []⟩,
    ⟨24, 3, .ro, 0x0, []⟩,
    ⟨27, 1, .ro, 0x0, []⟩]⟩,
  -- CAN_CNT
  ⟨0x2, 1, 1, [⟨0, 16, .rw, 0x0, []⟩,
    ⟨16, 16, .rw, 0x0, []⟩]⟩,
  -- CAN_CNT2
  ⟨0x3, 1, 1, [⟨0, 8, .rw, 0x0, []⟩,
    ⟨8, 8, .rw, 0x0, []⟩,
    ⟨16, 8, .rw, 0x0, []⟩,
    ⟨24, 8, .rw, 0x0, []⟩]⟩,
  -- CAN_RATE
  ⟨0x4, 1, 1, [⟨0, 16, .ro, 0x1F4, []⟩,
    ⟨16, 16, .ro, 0x7D0, []⟩]⟩,
  -- CAN_NBT
  ⟨0x5, 1, 1, [⟨0, 9, .sw, 0x0, []⟩,
    ⟨9, 8, .sw, 0x3E, []⟩,
    ⟨17, 7, .sw, 0xF, []⟩,
    ⟨24, 7, .sw, 0xF, []⟩,
    ⟨31, 1, .sw, 0x0, []⟩]⟩,
  -- CAN_DBT
  ⟨0x6, 1, 1, [⟨0, 5, .sw, 0x0, []⟩,
    ⟨5, 5, .sw, 0xE, []⟩,
    ⟨10, 4, .sw, 0x3, []⟩,
    ⟨14, 4, .sw, 0x3, []⟩,
    ⟨18, 1, .sw, 0x1, []⟩,
    ⟨19, 7, .sw, 0x10, []⟩,
    ⟨26, 6, .sw, 0x0, []⟩]⟩,
  -- CAN_FLT
  ⟨0x8, 1, 1, [⟨0, 14, .rw, 0x0, []⟩,
    ⟨14, 8, .rw, 0x0, [.above 128 128]⟩,
    ⟨22, 2, .rw, 0x0, [.eq 3 0]⟩]⟩,
  -- CAN_RXB
  ⟨0x9, 1, 1, [⟨0, 14, .rw, 0x0, []⟩,
    ⟨14, 6, .rw, 0x0, [.above 32 32]⟩,
    ⟨20, 3, .rw, 0x0, []⟩]⟩,
  -- CAN_TXB
  ⟨0xC, 1, 1, [⟨0, 14, .rw, 0x0, []⟩,
    ⟨14, 6, .rw, 0x0, [.above 32 32]⟩,
    ⟨20, 3, .rw, 0x0, []⟩]⟩,
  -- CAN_FIFO
  ⟨0xA, 2, 1, [⟨0, 14, .rw, 0x0, []⟩,
    ⟨14, 7, .rw, 0x0, [.above 64 64]⟩,
    ⟨21, 3, .rw, 0x0, []⟩,
    ⟨24, 1, .rw, 0x0, []⟩,
    ⟨25, 7, .rw, 0x0, []⟩]⟩,
  -- CAN_RT
  ⟨0xD, 1, 1, [⟨0, 14, .rw, 0x0, []⟩,
    ⟨14, 8, .rw, 0x0, []⟩]⟩,
  -- CAN_PACK
  ⟨0xE, 1, 1, [⟨0, 14, .rw, 0x0, []⟩,
    ⟨14, 8, .rw, 0x0, []⟩]⟩,
  -- CAN_FS
  ⟨0x10, 2, 1, [⟨0, 6, .ro, 0x0, []⟩,
    ⟨8, 6, .rw, 0x0, []⟩,
    ⟨14, 1, .ro, 0x0, []⟩,
    ⟨15, 1, .ro, 0x0, []⟩,
    ⟨16, 7, .ro, 0x0, []⟩,
    ⟨24, 8, .rw, 0x0, []⟩]⟩,
  -- CAN_RXB_ND
  ⟨0x12, 1, 1, [⟨0, 32, .w1c, 0x0, []⟩]⟩,
  -- CAN_RXB_LOST
  ⟨0x13, 1, 1, [⟨0, 32, .w1c, 0x0, []⟩]⟩,
  -- CAN_RXB_LOCK
  ⟨0x14, 1, 1, [⟨0, 32, .ro, 0x0, []⟩]⟩,
  -- CAN_TX_REQ
  ⟨0x15, 1, 1, [⟨0, 32, .wo, 0x0, []⟩]⟩,
  -- CAN_TX_CANCEL
  ⟨0x16, 1, 1, [⟨0, 32, .wo, 0x0, []⟩]⟩,
  -- CAN_TX_PEND
  ⟨0x17, 1, 1, [⟨0, 32, .ro, 0x0, []⟩]⟩,
  -- CAN_TX_DONE
  ⟨0x18, 1, 1, [⟨0, 32, .w1c, 0x0, []⟩]⟩,
  -- CAN_TX_FAIL
  ⟨0x19, 1, 1, [⟨0, 32, .w1c, 0x0, []⟩]⟩,
  -- CAN_TT
  ⟨0x1A, 1, 1, [⟨0, 2, .rw, 0x0, [.eq 3 0]⟩,
    ⟨2, 5, .rw, 0x0, []⟩,
    ⟨8, 6, .rw, 0x0, []⟩,
    ⟨16, 16, .rw, 0x0, []⟩]⟩,
  -- CAN_TT2
  ⟨0x1B, 1, 1, [⟨0, 14, .rw, 0x0, []⟩,
    ⟨16, 8, .rw, 0x10, []⟩]⟩]

/-- Registers: one CAN controller. -/
def tab_can_1 : List RDesc := [
  -- CAN_TT_REF
  ⟨0x1C, 1, 1, [⟨0, 29, .rw, 0x0, []⟩,
    ⟨29, 1, .rw, 0x0, []⟩]⟩,
  -- CAN_DIAG_REQ
  ⟨0x1E, 1, 1, [⟨0, 29, .rw, 0x0, []⟩,
    ⟨29, 1, .rw, 0x0, []⟩,
    ⟨30, 1, .rw, 0x0, []⟩]⟩,
  -- CAN_DIAG_RSP
  ⟨0x1F, 1, 1, [⟨0, 29, .rw, 0x0, []⟩,
    ⟨29, 1, .rw, 0x0, []⟩,
    ⟨30, 1, .rw, 0x0, []⟩]⟩,
  -- CAN_TT_STAT
  ⟨0x1D, 1, 1, [⟨0, 6, .ro, 0x0, []⟩,
    ⟨6, 5, .ro, 0x0, []⟩,
    ⟨11, 1, .ro, 0x0, []⟩,
    ⟨12, 1, .ro, 0x0, []⟩,
    ⟨16, 8, .rw, 0x0, []⟩,
    ⟨24, 8, .rw, 0x0, []⟩]⟩]

/-- Registers: one CAN controller. -/
def tab_can : List RDesc := tab_can_0 ++ tab_can_1

end Sys2Proof.Machine
end

