-- ==== Sys2Proof/Machine/Map.lean ====
section
/-! DEFINITION. Where an address lies (16_register_map R436 to R439), the keys of the store, and the value every word
has at reset. A key is a word address plus `0x100_0000` times a space number: 0 the address space itself, 1 the package
set B, 2 to 4 the motion staging copy of CAN0 to CAN2 (R439), 5 the structure-class words in effect since the
last entry to ARMED (R36). The set windows of a cluster are the physical sets A and B (R438). -/

namespace Sys2Proof.Machine

/-- The blocks of R436. -/
inductive Blk where
  | dev | kl | fc | stw | th | sec | ser | can (n : Fin 3) | ln | atl | tr
  | mc (n : Fin 6) | mcSet (n : Fin 6) (b : Bool) | st (k : Fin 8) | stSet (k : Fin 8) (b : Bool)
  | rg (r : Fin 2) | atlRam | trRam | smpRam | canRam | none
  deriving DecidableEq, Repr

/-- The block of an address and the offset in it (R436). -/
def locate (a : Nat) : Blk × Nat :=
  if a < 0x100 then (.dev, a)
  else if a < 0x1000 then (.kl, a - 0x100)
  else if a < 0x2000 then (.fc, a)
  else if a < 0x3000 then (.stw, a)
  else if a < 0x4000 then (.th, a)
  else if a < 0x5000 then (.sec, a)
  else if a < 0x6000 then (.ser, a)
  else if a < 0x6C00 then
    (if a < 0x6400 then (.can 0, a - 0x6000) else if a < 0x6800 then (.can 1, a - 0x6400) else (.can 2, a - 0x6800))
  else if a < 0x8000 then (.none, a)
  else if a < 0x9000 then (.ln, a)
  else if a < 0xA000 then (.atl, a)
  else if a < 0xB000 then (.tr, a - 0xA000)
  else if a < 0x100000 then (.none, a)
  else if a < 0x160000 then
    let n : Fin 6 := ⟨(a - 0x100000) / 0x10000 % 6, by omega⟩
    let o := a % 0x10000
    if o < 0x2000 then (.mc n, o)
    else if o < 0x8000 then (.none, a)
    else if o < 0xC000 then (.mcSet n false, o - 0x8000)
    else (.mcSet n true, o - 0xC000)
  else if a < 0x180000 then (.none, a)
  else if a < 0x188000 then
    let k : Fin 8 := ⟨(a - 0x180000) / 0x1000 % 8, by omega⟩
    let o := a % 0x1000
    if o < 0x800 then (.st k, o) else if o < 0xC00 then (.stSet k false, o - 0x800) else (.stSet k true, o - 0xC00)
  else if a < 0x1E0000 then (.none, a)
  else if a < 0x200000 then
    let r : Fin 2 := ⟨(a - 0x1E0000) / 0x10000 % 2, by omega⟩
    let o := a % 0x10000
    if o < 0x800 then (.rg r, o) else (.none, a)
  else if a < 0x400000 then (.none, a)
  else if a < 0x500000 then (.atlRam, a - 0x400000)
  else if a < 0x580000 then (.trRam, a - 0x500000)
  else if a < 0x600000 then (.smpRam, a - 0x580000)
  else if a < 0x610000 then (.canRam, a - 0x600000)
  else (.none, a)

/-- Is the word implemented: not past the last implemented address of its block or sub-block (R436, R396)?
(DEDUCED, log 68) -/
def implemented (a : Nat) : Bool :=
  match locate a with
  | (.dev, o) => o ≤ 0x15
  | (.kl, o) => o ≤ 0x63
  | (.fc, o) => o ≤ 0x11FF
  | (.stw, o) => o ≤ 0x2025
  | (.th, o) => o ≤ 0x3053
  | (.sec, o) => o ≤ 0x402F
  | (.ser, o) => o ≤ 0x5021
  | (.can _, o) => o ≤ 0x1F
  | (.ln, o) => o ≤ 0x8017
  | (.atl, o) => o ≤ 0x91FF
  | (.tr, o) => o ≤ 0x35
  | (.mc _, o) =>
    let last := match o / 0x400 with
      | 0 => 0x4B | 1 => 0x40B | 2 => 0x80D | 3 => 0xC3C | 4 => 0x1014 | 5 => 0x1410 | 6 => 0x1810 | _ => 0x1C07
    o ≤ last
  | (.mcSet _ _, o) => o ≤ 0x21FF
  | (.st _, o) => o ≤ 0x12
  | (.stSet _ _, o) => o ≤ 0x19
  | (.rg _, o) => (o < 0x200 && o ≤ 0x111) || (0x200 ≤ o && o < 0x400 && o ≤ 0x283) || (0x400 ≤ o && o ≤ 0x463)
  | (.atlRam, _) => true
  | (.trRam, o) => o ≤ 0xFFFF
  | (.smpRam, o) => o ≤ 0xFFFF
  | (.canRam, o) => o ≤ 0x3FFF
  | (.none, _) => false

/-- The tables that describe a block, each with the offset its table starts at. -/
def tables (b : Blk) : List (Nat × List RDesc) :=
  match b with
  | .dev => [(0, tab_dev)]
  | .kl => [(0, tab_grp), (0x40, tab_seq)]
  | .fc => [(0, tab_fc)]
  | .stw => [(0, tab_stw)]
  | .th => [(0, tab_th)]
  | .sec => [(0, tab_sec)]
  | .ser => [(0, tab_ser)]
  | .can _ => [(0, tab_can)]
  | .ln => [(0, tab_ln)]
  | .atl => [(0, tab_atl)]
  | .tr => [(0, tab_tr), (0x10, tab_tr), (0x20, tab_tr), (0x30, tab_tr)]
  | .mc _ => [(0, tab_mc), (0x1800, tab_mo), (0x0C00, tab_grp), (0x0C00, tab_mgrp)]
  | .mcSet _ _ => [(0, tab_mcset), (0x0C00, tab_seq), (0x1800, tab_moset)]
  | .st _ => [(0, tab_st), (0, tab_mo)]
  | .stSet _ _ => [(0, tab_stset), (0, tab_moset)]
  | .rg _ => [(0, tab_rg), (0x400, tab_grp), (0x440, tab_seq)]
  | _ => []

/-- Does a table row cover an offset? -/
def RDesc.covers (d : RDesc) (o : Nat) : Bool :=
  d.off ≤ o && (o - d.off) % d.stride == 0 && (o - d.off) / d.stride < d.count

/-- The table row of an offset of a block, with the instance of a repeated register. -/
def rowIn (o : Nat) : List (Nat × List RDesc) → Option (RDesc × Nat)
  | [] => none
  | (base, rows) :: rest =>
    match (if o < base then none else rows.find? (fun d => d.covers (o - base))) with
    | some d => some (d, (o - base - d.off) / d.stride)
    | none => rowIn o rest

/-- The register at an address, if any. -/
def regAt (a : Nat) : Option (RDesc × Nat) :=
  let (b, o) := locate a
  rowIn o (tables b)

/-- Value of a word whose fields hold their reset values, from the table. (DESIGN CHOICE, log 3) -/
def RDesc.resetWord (d : RDesc) : Nat := d.fields.foldl (fun n f => n + f.reset * 2 ^ f.lo) 0

/-- The reset value of the word with a key (every chapter's tables; R313 for severities, R331 for limits, 04 R111 for
the role maps, 06 for the lanes' states). RAM reads 0: DESIGN CHOICE (log 3). -/
def regReset (key : Nat) : Word :=
  let a := key % 0x1000000
  let (b, o) := locate a
  match rowIn o (tables b) with
  | none => 0
  | some (d, _) =>
    let w := d.resetWord
    let w :=
      match b with
      | .fc => if 0x1100 ≤ o ∧ o < 0x1200 then w - w % 8 + evReset (o - 0x1100) else w
      | .stw => if 0x2010 ≤ o ∧ o ≤ 0x201A then limReset (o - 0x2010) else w
      | .mc _ => if o = 0xC00 then 0x4688 else w
      | .kl => if o = 0 then 0x7688 else w
      | .rg _ => if o = 0x400 then 0x7688 else w
      | .ln => if 0x8016 ≤ o then w - w / 2 ^ 13 % 4 * 2 ^ 13 + 2 ^ 13 else w
      | _ => w
    BitVec.ofNat 32 w

end Sys2Proof.Machine
end

