-- ==== Sys2Proof/Machine/State.lean ====
section
/-! DEFINITION. The state of the SLQ-648 as plain data: the register and memory words in one sparse canonical list, the
flash as bytes, and typed records for what the spec gives the machine besides its registers. The names follow the
chapters of the spec. -/

namespace Sys2Proof.Machine

/-- Response statuses (R399). -/
inductive Status where
  | idle | ok | busy | frameErr | lenErr | crc | badPkt | locked | auth | authLock | nvmFail | struct | badState | badCmd
  | badMode | badArg | swapPend | swapReject | framePast | syncLost | busyRun | busyStop | activeFault | noBus
  | knownShort | coldBlock | busyTarget | queueFull | noRoute | sheetBusy | slotBusy | logArea
  deriving DecidableEq, Repr

/-- Why the machine stops with a fault. -/
inductive Fault where
  /-- A command whose operands name nothing that can happen to the hardware: raised by a meaning whose WellFormed check
  fails. Safe: no behaviour of the hardware is given. -/
  | illFormed
  deriving DecidableEq, Repr

/-- Why a command is refused by the model (never a refusal of the hardware: those are next states with a status). -/
inductive Refusal where
  /-- The row has no meaning in the model yet: raised by its arm in Dispatch. Safe. -/
  | notModelled (mnemonic : String)
  deriving DecidableEq, Repr

/-! ## 01_architecture -/

/-- Device states (R25). -/
inductive DState where
  | off | basecamp | verify | ready | run | bivouac | recovery
  deriving DecidableEq, Repr

/-- Cluster states (R20). -/
inductive CState where
  | unused | stopped | armed | starting | running | stopping | safe | faulted
  deriving DecidableEq, Repr

/-- One cluster's state machine and operating-set bookkeeping (R20 to R36). -/
structure Cluster where
  st          : CState
  /-- true: set B is active (MC_STATE.active_set). -/
  setB        : Bool
  /-- MC_STATE.last_cause. -/
  cause       : Nat
  /-- MC_STATE.cause_event. -/
  causeEvent  : Nat
  /-- A cluster swap waits for its boundary (MC_SWAP.pending). -/
  swapPending : Bool
  /-- COPY_SHADOW is running (R30). -/
  copying     : Bool
  /-- A START of an autostart rule is held by a cold block (R308). -/
  heldStart   : Bool
  /-- The start method has completed: RUNNING is entered within this step (R158, R159). -/
  startDone   : Bool
  /-- Tick of the latest transition. -/
  enteredAt   : Nat
  /-- The cluster is still to issue the autostart START at its entry to ARMED (R24). -/
  autoStart   : Bool
  deriving DecidableEq, Repr

/-- The device state machine and the device-wide swap (R25 to R35, R42 to R45, R326 to R328). -/
structure Dev where
  st         : DState
  cause      : Nat
  slot       : Bool
  autorun    : Bool
  /-- A device swap waits for its frame; its mask (bits 0 to 7 clusters, bit 8 the package set) and its frame number, if
  it uses one (R32, R35). -/
  swap       : Option (Nat × Option Nat)
  /-- true: package set B is active. -/
  pkgB       : Bool
  faultNIn   : Bool
  lantern    : Bool
  lanternLvl : Bool
  /-- Kilid runs from the RC oscillator after clock-fail (R328). -/
  rcClock    : Bool
  /-- The spare RC oscillator is the one in service (R328). -/
  oscSpare   : Bool
  /-- Pulse sources whose DERATE factor or FAULT_N hold still runs, each with the instant of its latest raising
  (R45, R317). -/
  pulseHold  : List (Nat × Nat)
  /-- Supply conditions that hold supply-warn asserted (R15, R442): monitor numbers. -/
  supplyWarn : List Nat
  deriving DecidableEq, Repr

/-- One inter-die link and its Polrex die (R16 to R19, R322, R332). -/
structure Link where
  lost       : Bool
  /-- A logic supply or VCC of the die is below its threshold (R18). -/
  supplyLost : Bool
  /-- VCC is below the hold level (R268). -/
  holdLost   : Bool
  /-- Lane in each of the five positions, per direction: positions 0 to 3 carry the link; 4 is the spare's. -/
  excluded   : Vector (List Nat) 2
  spareUsed  : Vector Bool 2
  /-- Raisings kept by the local collector while the link is lost: event and count, in order of first occurrence. -/
  buffer     : List (Nat × Nat)
  deriving DecidableEq, Repr

/-! ## 02_datum_and_graticule -/

/-- A datum (R49 to R54): angle and speed of the latest update, its instant in units of 125 ps, acceleration. -/
structure Datum where
  valid     : Bool
  angle     : Nat
  speed     : Int
  acc       : Int
  ts        : Int
  predicted : Bool
  /-- Direction of rotation: true is reverse (R51). -/
  rev       : Bool
  deriving DecidableEq, Repr

/-- The run-time part of one graticule entry (R55 to R62). -/
structure GEntry where
  live      : Bool
  /-- Edge time in units of 125 ps of the running timebase; its 32-bit code (R48) is this modulo 2^32. -/
  edge      : Option Int
  committed : Bool
  /-- The firing now due counts as late (R57). -/
  late      : Bool
  /-- Present target angle code: the programmed angle, advanced by the periodic steps (R62). -/
  target    : Nat
  lastFire  : Option Int
  deriving DecidableEq, Repr

/-- The synchronous carrier (R66 to R73). -/
structure SCar where
  /-- Contour entry in use; none while asynchronous. -/
  entry   : Option Nat
  ratio   : Nat
  clamp   : Bool
  /-- carrier-clamp has been raised for the entry taken (R73). -/
  clamped : Bool
  deriving DecidableEq, Repr

/-- SYNC frames (R75 to R80, R43). -/
structure Sync where
  frame     : Nat
  /-- Frame period in microseconds and sync_comp in 2 ns, in force. -/
  period    : Nat
  comp      : Nat
  /-- DEV_SYNC_CFG takes effect at the next frame boundary (R75). -/
  cfgDue    : Bool
  /-- Tick of the start of the frame in progress, where SYNC rises, and the tick of the next internal boundary, where one is
  to come (R75 to R77). -/
  startAt   : Option Nat
  dueAt     : Option Nat
  expected  : Option Nat
  /-- The frame number of the next boundary is already set by an edge or a window close. -/
  numbered  : Bool
  missNoted : Bool
  misses    : Nat
  /-- Tick of the latest frame boundary. -/
  lastAt    : Nat
  good      : Nat
  lost      : Bool
  /-- The master has released SYNC after contention, and the count of wrong read-backs (R43). -/
  released  : Bool
  wrong     : Nat
  deriving DecidableEq, Repr

/-! ## 03_field_control_and_pwm -/

/-- Compare values on their way to the PWM unit (R84, R99, R101): per phase duty (Q3.28), shift, rising and falling
compare value (125 ps), whether the low-side and the high-side interval is emitted, whether the window opens. -/
structure Compare where
  duty   : Vector Int 3
  shift  : Vector Nat 3
  cUp    : Vector Nat 3
  cDn    : Vector Nat 3
  lo     : Vector Bool 3
  hi     : Vector Bool 3
  opened : Vector Bool 3
  /-- The vector of the duties after limiting and dead-time compensation, as a fraction of the bus, Q3.28 (R145). -/
  ua     : Int
  ub     : Int
  deriving DecidableEq, Repr

/-- What a leg of the PWM unit is about to do: its ideal level changes (some true: high side, some false: low side, none:
both off), or a side turns on after the dead time (R84, R97). -/
inductive LegCmd where
  | level (side : Option Bool)
  | turnOn (high : Bool)
  deriving DecidableEq, Repr

/-- One PWM unit (R82 to R110). -/
structure Pwm where
  running    : Bool
  /-- The virtual carrier of six-step runs in place of the carrier (R71). -/
  virt       : Bool
  /-- The rising half is in progress. -/
  rising     : Bool
  /-- Tick of the latest counter zero and of the latest period event. -/
  zeroAt     : Nat
  peakAt     : Nat
  /-- Present period in ticks, and a correction of the next one (R70, R79). -/
  period     : Nat
  /-- Phase error of the aligned carrier, to be corrected in the next periods (R79), in ticks. -/
  phaseErr   : Int
  alignSusp  : Bool
  /-- A bridging period ends at the next predicted crossing (R70). -/
  bridging   : Bool
  /-- Number m of the boundary at which the synchronous period in progress began (R69), and the predicted instant of its
  end, or of the end of a bridging period, 125 ps. -/
  bound      : Nat
  endAt      : Option Int
  /-- Predicted instant of the next sector boundary, 125 ps (R95). -/
  sectorEnd  : Option Int
  /-- Edges of the three legs still to come, in time order: instant in 125 ps, phase, command (R84, R97, R104). -/
  edges      : List (Int × Fin 3 × LegCmd)
  inForce    : Compare
  /-- Values on their way from the current job, and values that have arrived and act from the next half-period (R107). -/
  pend       : Option Compare
  wait       : Option Compare
  /-- Carried residual of dropped low-side (first) and high-side (second) intervals, 125 ps (R99). -/
  residLo    : Vector Int 3
  residHi    : Vector Int 3
  /-- Consecutive periods with the high side on throughout (R104); in the block families and in six-step their ticks, which
  R105 counts in asynchronous periods. -/
  hiRun      : Vector Nat 3
  /-- A forced refresh is due at the next counter zero (R105), and a refresh pulse ends the period in progress (R104). -/
  forced     : Vector Bool 3
  refNow     : Vector Bool 3
  /-- Low time of each leg in the injection or polarity pulse of the period in progress, 125 ps; 0 without one (R148, R156). -/
  inj        : Vector Nat 3
  /-- High-side time lost to a refresh pulse, still to be returned, 125 ps (R105). -/
  owed       : Vector Nat 3
  /-- Advance and margin evaluated at the latest datum update (R91); advance held for COMMUTATE (R95). -/
  advance    : Nat
  margin     : Int
  heldAdv    : Nat
  missRun    : Nat
  /-- Tick of the latest hold of the currents; sample instant t_s and predicted output instant t_out of the values that
  the latest current job has sent (R109), the latter in 125 ps. -/
  sampleAt   : Nat
  /-- Sector at the latest hold (R96). -/
  sampleSec  : Nat
  tsAt       : Nat
  outAt      : Int
  /-- The latency registers restart with the next sample (R110). -/
  latRestart : Bool
  /-- Tick of the latest COMPARE_APPLY (R283). -/
  applyAt    : Nat
  /-- Frequency factor in force in sixteenths (R307), and a new one waiting for its counter zero. -/
  kf         : Nat
  kfNext     : Option Nat
  deriving DecidableEq, Repr

/-! ## 04_current_and_voltage_sensing -/

/-- One sequence of a group (R121 to R126): the entries of the pass in progress that are not yet issued (index and entry
word, latched at the trigger so that a swap leaves the pass under its old definition), the due instant of its first entry,
the pass counter, and the tick of the latest trigger. -/
structure Seq where
  plan : List (Nat × Nat)
  due  : Nat
  pass : Nat
  last : Option Nat
  deriving DecidableEq, Repr

/-- What a sequence slice converts: a regular entry, an injected entry, a graticule conversion of a channel, or a phase
voltage for the terminal-voltage tracker (R152). -/
inductive Conv where
  | reg (k entry pass : Nat) | inj (k entry pass : Nat) | grat (channel : Nat) | track (p : Fin 3)
  deriving DecidableEq, Repr

/-- An ADC group (R111 to R137). -/
structure SGroup where
  reg      : Seq
  inj      : Seq
  /-- The conversion in each sequence role with the slice that holds it, and the tick from which the role can hold again
  (R112, R129). -/
  slot     : Vector (Option (Conv × Nat)) 3
  freeAt   : Vector Nat 3
  /-- Single conversions that wait, with their due instants, in that order (R123, R152). -/
  urgent   : List (Nat × Conv)
  curPass  : Nat
  /-- Current roles that hold a sample whose result is not yet ready: bits U, V, W. -/
  held     : Nat
  /-- Slice and amplifier offset of the latest hold of each current role (R118, R129). -/
  heldBy   : Vector Nat 3
  heldZero : Vector Int 3
  gratPass : Nat
  sum      : Vector Nat 4
  count    : Vector Nat 4
  fifo     : List Word
  /-- dma-watermark has been raised since the fill was last below the watermark (R136). -/
  wmUp     : Bool
  /-- Calibration (R127): the next role, and whether the step's spare shadows it. -/
  calNext  : Nat
  shadow   : Bool
  /-- Amplifier check (R117): the phase whose turn it is, whether it runs, the substitution waiting for its period. -/
  ampTurn  : Nat
  ampBusy  : Bool
  ampSwap  : Option Nat
  /-- Offset measurement at ARM (R116): samples still to come of U, V, W, the sums of the codes of U, V, W and the spare,
  and how many the spare has given. -/
  offLeft  : Vector Nat 3
  offSum   : Vector Nat 4
  offSpare : Nat
  /-- Current scale computed at the entry to ARMED (R115), Q3.28 counts per code. -/
  scale    : Int
  /-- Latest codes of the three currents, and the currents delivered (Q3.28). -/
  codes    : Vector Nat 3
  amps     : Vector Int 3
  deriving DecidableEq, Repr

/-! ## 05_rotor_estimation_and_startup -/

/-- The recovery path of a loss of lock (R163). -/
inductive Path where
  | coast | short
  deriving DecidableEq, Repr

/-- The estimation block of a motor cluster (R139 to R169), besides its registers. Instants are in units of 125 ps. -/
structure Est where
  /-- Present Hall sector; instants of the latest edges in one direction, newest first (R140). -/
  hall      : Option Nat
  /-- The latest Hall edges were reverse edges. -/
  hallRev   : Bool
  edges     : List Int
  badRun    : Nat
  /-- Count edges of the last eight current samples, newest first: samples since, instant, count (R142). -/
  encEdges  : List (Nat × Int × Int)
  /-- Latest absolute angle with its instant, and the latest angle differences over their intervals (R144). -/
  sensLast  : Option (Nat × Int)
  sensDiffs : List Int
  sensBad   : Nat
  /-- Flux observer (R145), stationary frame, in nWb. -/
  psiS      : Int × Int
  psiA      : Int × Int
  obsAt     : Int
  obsRun    : Nat
  everLock  : Bool
  /-- Datum speed at the previous sample, and ω_0 (R150, R161). -/
  prevSpeed : Int
  omega0    : Int
  /-- Injection tracker (R148 to R150): running, its speed, its cycle of four periods, cycles with a small signal,
  consecutive samples at or above blend_hi, the last current samples. -/
  injOn     : Bool
  injSpeed  : Int
  injCycle  : Nat
  injRun    : Nat
  blendRun  : Nat
  /-- The latest two current samples, and the magnitudes of the responses of the cycle in progress, in order (R149). -/
  injPrev   : List (Int × Int)
  injResp   : List Int
  /-- Polarity (R156): pairs that did not decide, carrier periods since the present pair began. -/
  polTries  : Nat
  polStep   : Nat
  /-- Open-loop ramp (R157, R158): angle, speed, instant, current in 1/65,536 of I_base. -/
  rampAngle : Nat
  rampSpeed : Int
  rampAt    : Int
  rampI     : Int
  startRev  : Bool
  /-- Zero crossings (R151): latest kept sample (sector, angle, instant, difference from half the bus), start angle of the
  sector, whether the sector has an accepted crossing, the run of accepted crossings, sectors without, their instants. -/
  zcKept    : Option (Nat × Nat × Int × Int)
  zcStart   : Nat
  zcDone    : Bool
  /-- The window of the present sector has closed (R151). -/
  zcOver    : Bool
  zcSeq     : Nat
  zcNone    : Nat
  zcTimes   : List Int
  /-- Terminal-voltage tracker (R152): on; the codes of U, V, W of the conversion in progress and of the one before, each with
  its hold instant; angle of the vector, rotor angle and speed, angle turned through, conversions below 5 degrees of error,
  whether fs_vmin has been reached, magnitude in mV, whether it has been measured in this recovery (R164), the tick since
  which it has been below fs_vmin. -/
  fsOn      : Bool
  fsRaw     : Vector (Option (Nat × Int)) 3
  fsLast    : Vector (Option (Nat × Int)) 3
  fsTheta   : Nat
  fsRotor   : Nat
  fsSpeed   : Int
  fsTurned  : Int
  fsGot     : Bool
  fsRun     : Nat
  fsSeen    : Bool
  fsMag     : Nat
  fsBelow   : Option Nat
  /-- Recovery (R162 to R168): its path, whether it is impossible (R163), the tick it was declared, low-current samples
  (R164). -/
  recPath   : Option Path
  recOver   : Bool
  recAt     : Nat
  lowRun    : Nat
  /-- Short-circuit estimator (R165): the phasor's angle, magnitude and rate with the instant they were true, the angle
  followed, sums and number of the samples of the present turn, mean of the latest full turn. -/
  scTheta   : Nat
  scMag     : Int
  scSpeed   : Int
  scAt      : Int
  scTurned  : Int
  scSum     : Int × Int
  scCnt     : Nat
  scMean    : Int × Int
  /-- Tick since which all phase currents have been below 2 % of I_base (R169), and since which the speed loop has met the
  conditions of a stall (R160). -/
  lowSince  : Option Nat
  stallSince : Option Nat
  /-- Control resumes at the next current sample: from the tracker or from the short-circuit estimator (R153, R166). -/
  resume    : Option Path
  /-- Clipped phases count as closed windows until the soft-start ramp has ended (R166). -/
  clipClose : Bool
  /-- The low-side short of a flying start against the commanded direction (R154), since when the currents are low. -/
  brake     : Option Nat
  /-- The start has failed: every switch stays off (R159). -/
  failed    : Bool
  /-- The window has expired: a new recovery begins if the reaction leaves the cluster running (R167). -/
  again     : Bool
  deriving DecidableEq, Repr

/-! ## 06_control_lanes -/

/-- The run-time part of one loop (R177, R181, R182), and the terms of its latest run (for the trace nodes, R196). -/
structure LoopSt where
  i        : Int
  d        : Int
  measPrev : Int
  /-- The ramped reference, and whether it has met its target since the latest start (R182). -/
  ramp     : Int
  arrived  : Bool
  out      : Int
  /-- false: the next run is a start (R181). -/
  started  : Bool
  missed   : Bool
  /-- Seeds that take the place of R181's at the next start, of the integrator and of the ramped reference (R90, R153,
  R166). -/
  seed     : Option Int
  seedRef  : Option Int
  lastAt   : Nat
  e        : Int
  p        : Int
  ff       : Int
  meas     : Int
  deriving DecidableEq, Repr

/-- A job waiting for a lane (R187). Instants are ticks. -/
structure Ready where
  job      : JobId
  release  : Nat
  /-- The run's number among the releases of its job, modulo 65,536 (R196). -/
  num      : Nat
  /-- none: the next release of the same job, whenever that comes. -/
  deadline : Option Nat
  /-- Abandoned on a failed lane and waiting to be re-run (R193). -/
  rerun    : Bool
  deriving DecidableEq, Repr

/-- A job on a lane: what it read when it started (R171), its start and its predicted completion. -/
structure Running where
  what  : Ready
  start : Nat
  fin   : Nat
  inp   : List Int
  /-- Active operating set and active banks of the job's cluster when it started (R171, R184). -/
  setB  : Bool
  banks : Nat
  deriving DecidableEq, Repr

/-- Lane states (R170). -/
inductive LaneSt where
  | inService | spare | draining | retired
  deriving DecidableEq, Repr

/-- A control lane (R170, R190). -/
structure Lane where
  st    : LaneSt
  busy  : Option Running
  rate  : Nat
  /-- Rates of the last 16 windows, newest first. -/
  rates : List Nat
  /-- A missed self-test waits for the next instant at which the lane is free (R189). -/
  again : Bool
  deriving DecidableEq, Repr

/-- A trace unit besides its registers (R196 to R198). -/
structure TraceU where
  postLeft : Nat
  skip     : Nat
  missed   : Bool
  /-- The next record written is a trigger record. -/
  trig     : Bool
  written  : Nat
  /-- The record latched last, for its TRACE job: the words in order. -/
  latched  : Option (List Word)
  /-- The traced run latched last: its job and the tick of its release (R171). -/
  run      : Option (JobId × Nat)
  /-- Records of the DONE buffer already read in bulk (R397). -/
  readPos  : Nat
  deriving DecidableEq, Repr

/-- A coefficient bank (R183): the sheet values laid over the active set, by set offset. -/
abbrev Bank := List (Nat × Word)

/-! ## 09_gate_drive_and_power_stage -/

/-- Phase of a gate output (R251). -/
inductive GPhase where
  | on1 | on2 | onHold | off | soft | offHold
  deriving DecidableEq, Repr

/-- A gate output (R249 to R253). The segment sets are masks of 36 bits per direction: source, sink. -/
structure GateOut where
  phase   : GPhase
  /-- Tick of the latest command, and of the latest turn-on. -/
  cmdAt   : Nat
  onAt    : Nat
  /-- Tick at which the latest turn-on, turn-off or soft-off ended (R252). -/
  endAt   : Nat
  /-- Tripped: off until the cluster next enters ARMED, or the chopper flags are cleared (R261). -/
  tripped : Bool
  inServ  : Vector Nat 2
  spare   : Vector Nat 2
  /-- Segments switched off and waiting for a spare, per direction (R252). -/
  want    : Vector Nat 2
  deriving DecidableEq, Repr

/-- The active short of a motor cluster (R264 to R267): none, being entered (true: high side), held, or every switch held
off until the next entry to ARMED. -/
inductive ShortSt where
  | none | entering (high : Bool) | held (high : Bool) | allOff
  deriving DecidableEq, Repr

/-- A drive region's power stage besides its registers (R269 to R276). -/
structure Region where
  /-- Highest threshold VS has reached since it was last below ov1 - ov1_hyst (DESIGN CHOICE, log 45). -/
  vsTop    : Nat
  /-- Tick at which VS fell below ov1 - ov1_hyst (R272). -/
  lowAt    : Nat
  /-- The chopper's 2 us minimum time runs, and since when; what the chopper is to be when it ends (R270). -/
  chopMin  : Bool
  chopAt   : Nat
  chopWant : Bool
  /-- Ticks of the turn-ons whose effect has not been judged, oldest first (R274). -/
  checks   : List Nat
  /-- RBS has reached 6.0 V and has not fallen below 5.5 V since (R275). -/
  rbsHigh  : Bool
  /-- Turn-ons below a unit of chop_count. -/
  chopCnt  : Nat
  /-- Tick at which the brake switch turned on, ticks it was on and its turn-ons since the latest THERM run (R302). -/
  onSince  : Option Nat
  onTicks  : Nat
  turnOns  : Nat
  /-- Latest code of the region's VS (R132, R302). -/
  vsCode   : Nat
  deriving DecidableEq, Repr

/-! ## 10_converter_personality -/

/-- A converter cluster besides its registers (R281 to R293). -/
structure ConvSt where
  /-- One loop per phase with the coefficients of loop 0 (R284). -/
  ph       : Vector LoopSt 3
  /-- Mean phase-current reference and target of every phase, Q3.28. -/
  iref     : Int
  target   : Int
  /-- Phases being shed: their target is 0 until their current has gone (R290). -/
  shedding : Vector Bool 3
  /-- Tick since which I_tot / (n - 1) has stayed below i_shed. -/
  lowSince : Option Nat
  /-- Overcurrent (R293): consecutive periods per phase, and the sign that limits the phase's next period. -/
  ocRun    : Vector Nat 3
  ocNext   : Vector (Option Bool) 3
  /-- Code of the latest VLO result, and whether a CVOLT run has used it (R286). -/
  vloCode  : Nat
  vloNew   : Bool
  /-- VLO is below vlo_uv in RUNNING (R293). -/
  uvBelow  : Bool
  /-- Tick since which VLO results have stayed at vlo_ov or below (R293). -/
  ovLow    : Option Nat
  /-- Offset of every phase in the present switching cycle, k of n, and the one its own carrier runs at: n is 0 before the
  phase's first counter zero; and the length of its present period in 125 ps (R281, R290). -/
  offs     : Vector (Nat × Nat) 3
  own      : Vector (Nat × Nat) 3
  len      : Vector Int 3
  /-- Tick of every phase's latest counter zero, and whether it is in the rising half of its period. -/
  zAt      : Vector Nat 3
  rise     : Vector Bool 3
  /-- Switching cycles since the latest CVOLT release (R286). -/
  cycles   : Nat
  /-- Energy meters in µJ with their remainders in units of 1/2^28 mV·mA·tick (R292). -/
  eFwd     : Nat
  eRev     : Nat
  remF     : Nat
  remR     : Nat
  deriving DecidableEq, Repr

/-! ## 08_motion_and_steppers -/

/-- Axis states (xx_MO_STAT.state). -/
inductive AxKind where
  | idle | move | route | routeWait | homing | stopping | speed
  deriving DecidableEq, Repr

/-- A waypoint (R231): position in 2^-32 turns, speed and acceleration Q16.16, dwell in ms, stop flag. -/
structure Waypoint where
  tgt   : Int
  v     : Nat
  a     : Nat
  dwell : Nat
  stop  : Bool
  deriving DecidableEq, Repr

/-- A motion command that is accepted and has not yet acted (R224), with its arguments after clamping. -/
inductive MoCmd where
  | move (tgt : Int) (v a : Nat) | stop | setV (v : Nat) | setA (a : Nat) | speed (v : Int) (a : Nat)
  | append (w : Waypoint) | routeStart (openRoute : Bool) | routeLoad (ws : List Waypoint) | routeClear | home
  | setPos (tgt : Int)
  deriving DecidableEq, Repr

/-- A blend (R233): velocities before and after, in 2^-32 turns/s, start position, length and time elapsed in ticks. -/
structure Blend where
  v0      : Int
  v1      : Int
  p0      : Int
  len     : Nat
  elapsed : Nat
  deriving DecidableEq, Repr

/-- An axis (R220 to R234). Positions in 2^-32 turns, velocities in 2^-32 turns/s, accelerations Q16.16 turns/s². -/
structure AxisSt where
  st       : AxKind
  phase    : Nat
  p        : Int
  v        : Int
  acc      : Int
  tgt      : Int
  /-- Sign of (target - start), fixed when the motion begins (R226): true is negative. -/
  neg      : Bool
  mvV      : Nat
  mvA      : Nat
  /-- In STOPPING: the ramp ends on the target at the latest (R229). -/
  toTarget : Bool
  /-- The present segment's joint is a blend joint (R232), and the blend in progress. -/
  blendSeg : Bool
  blend    : Option Blend
  dwelling : Bool
  /-- Tick at which the dwell in progress ends (R234). -/
  dwellEnd : Nat
  openRt   : Bool
  queue    : List Waypoint
  cmds     : List MoCmd
  /-- Target and acceleration of the latest SPEED command (R228). -/
  spd      : Option (Int × Nat)
  /-- Tick of the latest PROF run (R222), and of the run at which the velocity became 0 (R241). -/
  lastAt   : Nat
  zeroAt   : Option Nat
  /-- Measured position of a motor axis (R223), the electrical travel, in 2^-32 turns, that is below one code of it, and the
  datum angle of the latest current sample. -/
  base     : Int
  elec     : Int
  prevAng  : Option Nat
  deriving DecidableEq, Repr

/-- What a coil's bridge does (R239, R240): all four switches off, on phase, fast decay, slow decay, fast decay to zero. -/
inductive Chop where
  | off | on | fast | slow | zero
  deriving DecidableEq, Repr

/-- A zero-current window of a coil (R243): waiting for |i| below 30 mA since a tick, or running since a tick with the mark
that it can give a verdict. -/
inductive Window where
  | none | waiting (since : Nat) | running (since : Nat) (counts : Bool)
  deriving DecidableEq, Repr

/-- One coil of a stepper channel, with its H-bridge (R236 to R247). -/
structure Coil where
  /-- Reference, -255 to 255 in steps of 1.5 A / 255. -/
  ref     : Int
  /-- Direction of the on phase in progress: true is negative (R239). -/
  neg     : Bool
  /-- The latest emission that changed |ref| raised it. -/
  rise    : Bool
  chop    : Chop
  /-- Tick at which the present chopper phase began. -/
  phaseAt : Nat
  /-- Consecutive on phases of 200 us that did not reach the reference (R246). -/
  openRun : Nat
  win     : Window
  /-- Segments in service and spare, masks of 18 bits; segments that wait for a spare (R247). -/
  inServ  : Nat
  spare   : Nat
  want    : Nat
  deriving DecidableEq, Repr

/-- A stepper channel besides its axis (R235 to R247). -/
structure Stepper where
  /-- Emitted position: coil origin in 2^-32 turns, and the grid point in 1/256 full steps from it. -/
  origin  : Int
  idx     : Int
  level   : Nat
  /-- The level due (R237). -/
  due     : Nat
  /-- The level-3 grid in use is the half-step grid (R238). -/
  half    : Bool
  /-- Bridges off until the cluster next enters ARMED (R246). -/
  tripped : Bool
  /-- The standby delay has passed (R241). -/
  standby : Bool
  lowRun  : Nat
  /-- The line of the present servo period: the set-point it comes from and the tick it began; tick of the latest emission
  (R235). -/
  lineFrom : Int
  lineAt  : Nat
  emitAt  : Nat
  coils   : Vector Coil 2
  deriving DecidableEq, Repr

/-! ## 11_thermal_management -/

/-- Limits of a source that are reached (R303), and its rate excursion (R304). -/
structure LimSt where
  warn   : Bool
  derate : Bool
  trip   : Bool
  rate   : Bool
  deriving DecidableEq, Repr

/-- Rate history of a source (R304): readings, newest first, and the tick of the newest. -/
structure Hist where
  vals : List Int
  at_  : Option Nat
  deriving DecidableEq, Repr

/-- A switch or brake model (R299 to R302). The three stages are in 2^-20 of 1/64 °C. -/
structure Model where
  th      : Vector Int 3
  /-- Junction temperature in 1/64 °C. -/
  tj      : Int
  valid   : Bool
  lastAt  : Nat
  /-- r_on in use (10 µΩ) and the tick of the latest result that counted. -/
  rOn     : Int
  rOnAt   : Option Nat
  /-- Sums since the previous run: i² c and |i| over the current samples with their number, Vds / |i| with their number,
  turn-ons and turn-offs while hard-switching, samples at which the switch carried more than 5 % of I_base. -/
  sumIC   : Int
  sumI    : Int
  cnt     : Nat
  sumR    : Int
  cntR    : Nat
  nOn     : Nat
  nOff    : Nat
  carried : Nat
  lim     : LimSt
  hist    : Hist
  deriving DecidableEq, Repr

/-- The sensors of a die (R296, R297, R309, R310). Lists go by role. -/
structure DieTh where
  temps   : List Int
  outlier : List Nat
  hist    : List Hist
  rate    : List Bool
  lim     : LimSt
  deriving DecidableEq, Repr

/-- A thermistor input (R298, R308, R309). -/
structure Ntc where
  t       : Int
  broken  : Bool
  /-- Passes since the latest code out of range. -/
  inRange : Nat
  lim     : LimSt
  hist    : Hist
  deriving DecidableEq, Repr

/-! ## The machine -/

/-- Cells of an atlas target: weight in 64ths, and the sheet that the cell names, if any (R207, R210). -/
abbrev Cells := List (Nat × Option Nat)

/-- A fill of the pager, or a filled bank that waits (R213 to R215): its cells, its due instant, the position it shows. -/
structure Fill where
  cells : Cells
  due   : Nat
  sBin  : Nat
  lBin  : Nat
  qs    : Nat
  ql    : Nat
  first : Option Nat
  deriving DecidableEq, Repr

/-- The pager of a motor cluster (R207 to R218). -/
structure Pager where
  /-- Present bins, or lower neighbours, and adopted weights in eighths; none before the first evaluation. -/
  bins  : Option (Nat × Nat × Nat × Nat)
  /-- Temperature edges reached. -/
  edges : Nat
  /-- Load of the previous evaluation since ARMED and its tick. -/
  prev  : Option (Int × Nat)
  fill  : Option Fill
  held  : Option Fill
  /-- Content of the active group-0 bank. -/
  act   : Cells
  /-- Content of the banks filled for a set swap, with the bins and edges that go with it. -/
  swap  : Option Fill
  swapBins  : Option (Nat × Nat × Nat × Nat)
  swapEdges : Nat
  /-- The due boundary of the fill or of the held banks, once it has come (R214). -/
  dueAt : Option Nat
  deriving DecidableEq, Repr

/-- The per-unit bases of a cluster (R5), each less one, so that none is 0: I_base in mA, V_base in mV, f_base in Hz. They are
structure-class fields for which no table gives a register (log 7). -/
structure Bases where
  i : Nat
  v : Nat
  f : Nat
  deriving DecidableEq, Repr

/-- The typed state of one motor cluster, besides its registers. -/
structure Mc where
  atl   : Pager
  dat   : Datum
  grat  : Vector GEntry 64
  /-- The references of R59: latest zero crossing, latest COMMUTATE firing; void at each entry to ARMED. -/
  ref1  : Option Nat
  ref2  : Option Nat
  scar  : SCar
  pwm   : Pwm
  est   : Est
  loops : Vector LoopSt 4
  /-- Banks 0 and 1 of the four bank groups (R183). -/
  banks : Vector (Vector Bank 2) 4
  /-- The vector applied up to the latest sample (R145), and the windows of that sample: bits of the closed phases (R102). -/
  uA    : Int
  uB    : Int
  closed : Nat
  /-- Currents delivered for the latest sample, stationary frame, and how they were found: 0 sampled, 1 reconstructed, 2
  predicted (R102). -/
  iA    : Int
  iB    : Int
  recon : Nat
  /-- Measured and reference currents of the latest current job, Q3.28 (R178). -/
  iD    : Int
  iQ    : Int
  vD    : Int
  vQ    : Int
  iqRef : Int
  spdRef : Int
  /-- Speed reference of the latest POS run, per unit of f_base (R178). -/
  posOut : Int
  /-- Current samples since the latest SPD release and the latest profile step (R171). -/
  spdCnt : Nat
  /-- Current samples in the servo period in progress (R222); a sample has reached Kilid and released no current job yet
  (R171). -/
  servCnt : Nat
  sampleNew : Bool
  short  : ShortSt
  /-- Bootstrap (R255, R256): the comparator asserted in this carrier period, and its run count, per phase; the precharge
  pulse runs. -/
  bstNow  : Vector Bool 3
  /-- Tick at which each comparator last asserted (R266). -/
  bstAt   : Vector Nat 3
  bstRun  : Vector Nat 3
  precharge : Bool
  /-- Ticks of the latest hard-short trip of a high and of a low side (R262). -/
  hardAt  : Vector (Option Nat) 2
  /-- Code of the bus voltage offered to the feed-forward (R132). -/
  vsCode : Nat
  models : Vector Model 6
  conv   : ConvSt
  /-- Test pulses in progress: the switch of each and the tick at which it ends (R58). -/
  pulse  : List (Fin 6 × Nat)
  /-- The die holds its own safe state since a link or supply loss, until Kilid moves the cluster from FAULTED to STOPPED
  (R17 to R19). -/
  dieSafe : Bool
  deriving DecidableEq, Repr

/-! ## 13_image_boot_and_security, 12 logbook -/

/-- The autostart rule of a cluster (R354, R360), and how far it has come: its ARM was accepted since the entry to RUN, a
re-arm is due, the first set-point of its source has come. -/
structure Auto where
  rule    : Bool
  restart : Bool
  waitSp  : Bool
  src     : Nat
  delay   : Nat
  sp      : Word
  armed   : Bool
  rearm   : Bool
  gotSp   : Bool
  /-- Tick from which the rule's next ARM may be issued (R360). -/
  dueAt   : Nat
  deriving DecidableEq, Repr

/-- Stages of a load (R345 to R358); `logging` is the record that a RECOVER writes before its load (R362). -/
inductive BPhase where
  | idle | params | octal | headers | stream | post | restore | monitor | logging
  deriving DecidableEq, Repr

/-- The boot loader (R344 to R358): its stage, whether it boots from OFF, the candidates still to be tried with the one
under load first, the tick of the RESET_N release; the routes and key references of the image, its header's rollback level
and key slot; the answer of a reload of a sheet by host or steward. -/
structure Boot where
  phase    : BPhase
  fromOff  : Bool
  cands    : List (Fin 2)
  relAt    : Nat
  /-- Tick at which the monitors' sampling began (R358). -/
  monAt    : Nat
  routes   : List (Nat × List Waypoint)
  keyrefs  : List (Nat × Nat)
  rbLevel  : Nat
  keySlot  : Nat
  configured : List (Fin 8)
  /-- Keys of the words that the records of the present load have written. -/
  written  : List Nat
  deriving DecidableEq, Repr

/-- A key slot of the OTP (R367): type 0 empty, 1 AES-128, 2 AES-256, 3 P-256; usage; revoked; key words. -/
structure KeySlot where
  type    : Nat
  usage   : Nat
  revoked : Bool
  key     : List Word
  deriving DecidableEq, Repr

/-- The security module (R366 to R374): OTP (lifecycle 0 OPEN, 1 SEALED, 2 RETIRED; rollback counter; slots), the session
values, the authentication record, the latest random bits. -/
structure Sec where
  life     : Nat
  rb       : Nat
  slots    : Vector KeySlot 16
  sess     : BitVec 64
  fresh    : Nat
  sv       : Word
  failRun  : Nat
  locked   : Bool
  /-- Seconds that the next lockout lasts, and the tick at which the present one ends (R372). -/
  lockTime : Nat
  lockEnd  : Nat
  trngFail : Bool
  /-- Tick at which the next announcement is due (R373). -/
  annAt    : Nat
  trngLast : Nat
  deriving DecidableEq, Repr

/-- The logbook (R335 to R342): requests waiting (their cause), the write in progress (cause, slot, tick of its start), the
slot of the newest record, bad sectors, a failed write still to be retried; operating seconds restored, ticks of
operation of this boot; highest temperatures and lowest lane rates since the previous record. -/
structure Logbook where
  pend    : Option Nat
  busy    : Option (Nat × Nat × Nat)
  slot    : Option Nat
  bad     : List Nat
  failed  : Bool
  opBase  : Nat
  opTicks : Nat
  /-- Hourly records requested since the restoration (R336). -/
  hours   : Nat
  maxT    : List Int
  minRate : List Nat
  deriving DecidableEq, Repr

/-! ## 14_serial_ports_and_lyjan -/

/-- A flash operation that the host port waits for (R397, R398): a read of words (`nvm`: of the NVM target, not of the
logbook), a program of bytes, an erase. Addresses are byte addresses. -/
inductive NvmOp where
  | read (a n : Nat) (nvm : Bool) | program (a : Nat) (bs : List Nat) | erase (a len : Nat)
  deriving DecidableEq, Repr

/-- An operation that executes on the host port (R392): its tag, whether it is a chain word, an authenticated packet, the
status, flags, count and data that it will answer; `wait`: it waits for the memory port. -/
structure Exec where
  tag   : Nat
  chain : Bool
  auth  : Bool
  st    : Status
  tear  : Bool
  range : Bool
  count : Nat
  data  : List Word
  wait  : Bool
  deriving DecidableEq, Repr

/-- The host port (R379 to R398): chain pointer, staged half, snapshot; the chain status that waits (its code, and its data
where that is not the summary); the executing operation; the packet response that waits, as words. -/
structure HostPort where
  ptr   : Nat
  half  : Nat
  snap  : Word
  chainStat : Nat × Option Nat
  exec  : Option Exec
  resp  : Option (List Word)
  deriving DecidableEq, Repr

/-- A reading port (R9, R417): its holding register with the address of the HI word that it copies, and the message-RAM
element it locks: its controller, whether it is a receive buffer (0) or in FIFO 0 or 1 (1, 2), the element. -/
structure PortSt where
  hold : Option (Nat × Word)
  lock : Option (Fin 3 × Fin 3 × Nat)
  deriving DecidableEq, Repr

/-- The memory port (R403 to R406): its user, the NVM operation that waits or runs and its start tick. -/
structure MemPort where
  user : Nat
  op   : Option NvmOp
  opAt : Nat
  /-- The flash is busy with the operation. -/
  busy : Bool
  deriving DecidableEq, Repr

/-- A sensor port (R400, R401): the latest word with its start in 125 ps, whether one has come since the latest transfer
was used, whether its bit count was right. -/
structure SensPort where
  word  : Word
  start : Int
  new   : Bool
  good  : Bool
  deriving DecidableEq, Repr

/-! ## 15_can_fd -/

/-- A transmit buffer's progress (R426, R427): pending since a tick, attempts that ended in an error, consecutive clash
errors, a cancel that waits for the transmission in progress, a single attempt of a schedule cell; tick from which its
period counts. -/
structure TxBuf where
  pend     : Bool
  reqAt    : Nat
  attempts : Nat
  clash    : Nat
  cancel   : Bool
  single   : Bool
  perAt    : Nat
  deriving DecidableEq, Repr

/-- A route's progress (R423 to R425, R374): the integer value last issued with success, the fv last accepted, a frame seen
since READY, and the tick of the latest. -/
structure RouteSt where
  last   : Option Int
  lastFv : Nat
  seen   : Bool
  seenAt : Nat
  deriving DecidableEq, Repr

/-- A frame that the device itself sends without a transmit buffer: a diagnostic response or an announcement. -/
structure OwnFrame where
  bytes    : List Nat
  attempts : Nat
  deriving DecidableEq, Repr

/-- A CAN controller (R407 to R435): mode in force and a mode that waits for the end of the frame; transmit buffers; routes;
the pending slot (buffer, frame, element, stamp); consecutive acknowledgement errors; tick of the latest attempt's end;
the buffer of the latest schedule cell and the tick of its mark; tick at which the basic cycle began; the diagnostic response
and the announcement. -/
structure CanC where
  mode     : Nat
  modeNext : Option Nat
  tx       : Vector TxBuf 32
  routes   : Vector RouteSt 32
  slot     : Option (Nat × Frame × Nat × Nat)
  ackRun   : Nat
  lastEnd  : Nat
  cell     : Option (Fin 32)
  markAt   : Nat
  cycAt    : Nat
  diag     : Option OwnFrame
  ann      : Option OwnFrame
  deriving DecidableEq, Repr

/-- The whole machine. -/
structure State where
  /-- The running timebase in ticks of 2 ns (R47). -/
  now     : Nat
  /-- Register words and the words of the four memories that differ from their reset value, by key, keys rising. -/
  store   : List (Nat × Word)
  /-- The external flash: bytes that differ from the erased value 0xFF, addresses rising. -/
  flash   : List Host.Cell
  /-- The commands that wait, first in, first out (DESIGN CHOICE, log 1). -/
  pending : List Instr
  /-- Status of the latest command and the flags of the latest access (R399, R9, R436; DESIGN CHOICE, log 4). -/
  status  : Status
  tear    : Bool
  range   : Bool
  /-- Events raised by the present command whose reaction is still to be applied (R321). -/
  raised  : List Nat
  /-- Sources whose guy line has a wire fault (R323, R324). -/
  guyFault : List Nat
  /-- Level sources whose condition holds: the true rails (R314, R324). -/
  rails    : List Nat
  /-- The model's own counter of free values, no state of the device (DESIGN CHOICE, log 8). -/
  fresh   : Nat
  dev     : Dev
  cl      : Vector Cluster 8
  bases   : Vector Bases 8
  link    : Vector Link 2
  mc      : Vector Mc 6
  sync    : Sync
  grp     : Vector SGroup 9
  gates   : Vector GateOut 40
  /-- Axes of the motor clusters and of the stepper channels (R220). -/
  axM     : Vector AxisSt 6
  axS     : Vector AxisSt 8
  stp     : Vector Stepper 8
  brake   : Vector Model 2
  die     : Vector DieTh 3
  ntc     : Vector Ntc 4
  rg      : Vector Region 2
  lanes   : Vector Lane 8
  ready   : List Ready
  /-- Releases of each job, counted (R196), with the tick of the latest; nominal cycles executed since the latest pool test
  (R191). -/
  runs    : List (JobId × Nat × Nat)
  poolCyc : Nat
  trace   : Vector TraceU 4
  /-- The sheet under check (R204); row groups flagged to the steward; row groups in service away from home; the sheets of
  the running image with their flash addresses (R217). -/
  atlChk   : Option Nat
  rowFlags : List Nat
  rowMap   : List (Nat × Nat)
  /-- Spare row groups that are retired. -/
  rowDead  : List Nat
  imgSheets : List (Nat × Nat)
  auto    : Vector Auto 8
  boot    : Boot
  sec     : Sec
  log     : Logbook
  hp      : HostPort
  /-- The reading ports: the host port, then the diagnostic access of CAN0 to CAN2 (DEDUCED, log 68). -/
  ports   : Vector PortSt 4
  mp      : MemPort
  sp      : Vector SensPort 2
  can     : Vector CanC 3
  /-- Data words of the latest read (DESIGN CHOICE, log 4). -/
  data    : List Word
  /-- The present access comes in an authenticated packet (R370; DESIGN CHOICE, log 5). -/
  authed  : Bool
  /-- Health counters that are not zero, by unit identifier, rising (R11, R331). -/
  health  : List (Nat × Nat)
  deriving DecidableEq, Repr

/-! ## Reset

The machine in OFF before its first boot (R25, R345): every register word at its reset value, memory as an unlisted word or
byte reads, every unit at rest. Values that the spec does not state are named in log 3 and log 11. -/

/-- A cluster before the first load: UNUSED (R20; DESIGN CHOICE, log 11). -/
def Cluster.reset : Cluster :=
  { st := .unused, setB := false, cause := 0, causeEvent := 0, swapPending := false, copying := false, heldStart := false
    startDone := false, enteredAt := 0, autoStart := false }

/-- The bases that a cluster declares; the spec gives no value and no place (R5; UNVERIFIED, log 7). -/
def Bases.reset (c : Fin 8) : Bases := { i := Config.iBase c, v := Config.vBase c, f := Config.fBase c }

def Dev.reset : Dev :=
  { st := .off, cause := 0, slot := false, autorun := false, swap := none, pkgB := false, faultNIn := false
    lantern := false, lanternLvl := false, rcClock := false, oscSpare := false, pulseHold := [], supplyWarn := [] }

/-- Lane 4 of each link direction is its spare (R332). -/
def Link.reset : Link :=
  { lost := true, supplyLost := false, holdLost := false, excluded := #v[[], []], spareUsed := #v[false, false]
    buffer := [] }

def Datum.reset : Datum :=
  { valid := false, angle := 0, speed := 0, acc := 0, ts := 0, predicted := false, rev := false }

def GEntry.reset : GEntry :=
  { live := false, edge := none, committed := false, late := false, target := 0, lastFire := none }

/-- frame_period 100 us (DEV_SYNC_CFG). -/
def Sync.reset : Sync :=
  { frame := 0, period := 100, comp := 0, cfgDue := false, startAt := none, dueAt := none, expected := none, numbered := false, missNoted := false
    misses := 0, lastAt := 0, good := 0, lost := false, released := false, wrong := 0 }

def Compare.reset : Compare :=
  { duty := Vector.replicate 3 0, shift := Vector.replicate 3 0, cUp := Vector.replicate 3 0
    cDn := Vector.replicate 3 0, lo := Vector.replicate 3 false, hi := Vector.replicate 3 false
    opened := Vector.replicate 3 false, ua := 0, ub := 0 }

def Pwm.reset : Pwm :=
  { running := false, virt := false, rising := false, zeroAt := 0, peakAt := 0, period := 0, phaseErr := 0
    alignSusp := false, bridging := false, bound := 0, endAt := none, sectorEnd := none, edges := [], inForce := Compare.reset, pend := none, wait := none
    residLo := Vector.replicate 3 0, residHi := Vector.replicate 3 0, hiRun := Vector.replicate 3 0
    forced := Vector.replicate 3 false, refNow := Vector.replicate 3 false, inj := Vector.replicate 3 0, owed := Vector.replicate 3 0, advance := 0, margin := 0, heldAdv := 0
    missRun := 0, sampleAt := 0, sampleSec := 0, tsAt := 0, outAt := 0, latRestart := false, applyAt := 0, kf := 16, kfNext := none }

def SGroup.reset : SGroup :=
  { reg := { plan := [], due := 0, pass := 0, last := none }
    inj := { plan := [], due := 0, pass := 0, last := none }
    slot := Vector.replicate 3 none, freeAt := Vector.replicate 3 0, urgent := [], curPass := 0, held := 0
    heldBy := Vector.replicate 3 0, heldZero := Vector.replicate 3 0
    gratPass := 0, sum := Vector.replicate 4 0, count := Vector.replicate 4 0, fifo := [], wmUp := false, calNext := 0
    shadow := false, ampTurn := 0, ampBusy := false, ampSwap := none, offLeft := Vector.replicate 3 0
    offSum := Vector.replicate 4 0, offSpare := 0, scale := 0, codes := Vector.replicate 3 0
    amps := Vector.replicate 3 0 }

def Est.reset : Est :=
  { hall := none, hallRev := false, edges := [], badRun := 0, encEdges := [], sensLast := none, sensDiffs := []
    sensBad := 0, psiS := (0, 0), psiA := (0, 0), obsAt := 0, obsRun := 0, everLock := false, prevSpeed := 0
    omega0 := 0, injOn := false, injSpeed := 0, injCycle := 0, injRun := 0, blendRun := 0
    injPrev := [], injResp := [], polStep := 0, polTries := 0, rampAngle := 0, rampSpeed := 0, rampAt := 0, rampI := 0, startRev := false, zcKept := none
    zcStart := 0, zcDone := false, zcOver := false, zcSeq := 0, zcNone := 0, zcTimes := [], fsOn := false
    fsRaw := Vector.replicate 3 none, fsLast := Vector.replicate 3 none, fsTheta := 0, fsRotor := 0, fsSpeed := 0
    fsTurned := 0, fsGot := false, fsRun := 0, fsSeen := false, fsMag := 0, fsBelow := none, recPath := none
    recOver := false, recAt := 0, lowRun := 0, scTheta := 0, scMag := 0, scSpeed := 0, scAt := 0, scTurned := 0
    scSum := (0, 0), scCnt := 0, scMean := (0, 0), lowSince := none, stallSince := none, resume := none, clipClose := false, brake := none, failed := false, again := false }

def LoopSt.reset : LoopSt :=
  { i := 0, d := 0, measPrev := 0, ramp := 0, arrived := false, out := 0, started := false, missed := false, seed := none
    seedRef := none, lastAt := 0, e := 0, p := 0, ff := 0, meas := 0 }

def AxisSt.reset : AxisSt :=
  { st := .idle, phase := 0, p := 0, v := 0, acc := 0, tgt := 0, neg := false, mvV := 0, mvA := 0, toTarget := false
    blendSeg := false, blend := none, dwelling := false, dwellEnd := 0, openRt := false, queue := [], cmds := []
    spd := none, lastAt := 0, zeroAt := none, base := 0, elec := 0, prevAng := none }

/-- Segments 0 to 15 of a bridge are in service, 16 and 17 spare (R247). -/
def Coil.reset : Coil :=
  { ref := 0, neg := false, rise := false, chop := .off, phaseAt := 0, openRun := 0, win := .none
    inServ := 0xFFFF, spare := 0x30000, want := 0 }

def Stepper.reset : Stepper :=
  { origin := 0, idx := 0, level := 0, due := 0, half := false, tripped := false, standby := false, lowRun := 0
    lineFrom := 0, lineAt := 0, emitAt := 0, coils := Vector.replicate 2 Coil.reset }

def LimSt.reset : LimSt := { warn := false, derate := false, trip := false, rate := false }
def Hist.reset : Hist := { vals := [], at_ := none }

def Model.reset : Model :=
  { th := Vector.replicate 3 0, tj := 0, valid := true, lastAt := 0, rOn := 0, rOnAt := none, sumIC := 0, sumI := 0
    cnt := 0, sumR := 0, cntR := 0, nOn := 0, nOff := 0, carried := 0, lim := LimSt.reset, hist := Hist.reset }

/-- A die with `n` sensor roles (R297). -/
def DieTh.reset (n : Nat) : DieTh :=
  { temps := List.replicate n 0, outlier := List.replicate n 0, hist := List.replicate n Hist.reset
    rate := List.replicate n false, lim := LimSt.reset }

def Ntc.reset : Ntc := { t := 0, broken := false, inRange := 0, lim := LimSt.reset, hist := Hist.reset }

/-- Segments 0 to 31 of each direction are in service, 32 to 35 spare (R249). -/
def GateOut.reset : GateOut :=
  { phase := .offHold, cmdAt := 0, onAt := 0, endAt := 0, tripped := false, inServ := Vector.replicate 2 0xFFFFFFFF
    spare := Vector.replicate 2 0xF00000000, want := Vector.replicate 2 0 }

def Region.reset : Region :=
  { vsTop := 0, lowAt := 0, chopMin := false, chopAt := 0, chopWant := false, checks := [], rbsHigh := false
    chopCnt := 0, onSince := none, onTicks := 0, turnOns := 0, vsCode := 0 }

def ConvSt.reset : ConvSt :=
  { ph := Vector.replicate 3 LoopSt.reset, iref := 0, target := 0, shedding := Vector.replicate 3 false
    lowSince := none, ocRun := Vector.replicate 3 0, ocNext := Vector.replicate 3 none, vloCode := 0, vloNew := false
    uvBelow := false, ovLow := some 0, offs := Vector.replicate 3 (0, 0), own := Vector.replicate 3 (0, 0)
    len := Vector.replicate 3 0, zAt := Vector.replicate 3 0, rise := Vector.replicate 3 false
    cycles := 0, eFwd := 0, eRev := 0, remF := 0, remR := 0 }

def Pager.reset : Pager :=
  { bins := none, edges := 0, prev := none, fill := none, held := none, act := [(64, none)], swap := none
    swapBins := none, swapEdges := 0, dueAt := none }

def Mc.reset : Mc :=
  { atl := Pager.reset, dat := Datum.reset, grat := Vector.replicate 64 GEntry.reset, ref1 := none, ref2 := none
    scar := { entry := none, ratio := 0, clamp := false, clamped := false }, pwm := Pwm.reset, est := Est.reset
    loops := Vector.replicate 4 LoopSt.reset, banks := Vector.replicate 4 (Vector.replicate 2 []), uA := 0, uB := 0
    closed := 0, iA := 0, iB := 0, recon := 0, iD := 0, iQ := 0, vD := 0, vQ := 0, iqRef := 0, spdRef := 0
    posOut := 0, spdCnt := 0, servCnt := 0, sampleNew := false, short := .none, bstNow := Vector.replicate 3 false, bstAt := Vector.replicate 3 0
    bstRun := Vector.replicate 3 0
    precharge := false, hardAt := Vector.replicate 2 none, vsCode := 0, models := Vector.replicate 6 Model.reset
    conv := ConvSt.reset, pulse := [], dieSafe := false }

/-- Lanes 0 to 5 are in service, 6 and 7 spare, at rate 1.0 (R170, LN_LANEk). -/
def Lane.reset (st : LaneSt) : Lane := { st := st, busy := none, rate := 0x1000, rates := [], again := false }

def TraceU.reset : TraceU :=
  { postLeft := 0, skip := 0, missed := false, trig := false, written := 0, latched := none, run := none, readPos := 0 }

def Auto.reset : Auto :=
  { rule := false, restart := false, waitSp := false, src := 0, delay := 0, sp := 0, armed := false, rearm := false
    gotSp := false, dueAt := 0 }

def Boot.reset : Boot :=
  { phase := .idle, fromOff := false, cands := [], relAt := 0, monAt := 0, routes := [], keyrefs := [], rbLevel := 0
    keySlot := 0xFF, configured := [], written := [] }

def KeySlot.reset : KeySlot := { type := 0, usage := 0, revoked := false, key := [] }

/-- A part fresh from production: OPEN, every key slot empty, rollback counter 0 (R367, R368). -/
def Sec.reset : Sec :=
  { life := 0, rb := 0, slots := Vector.replicate 16 KeySlot.reset, sess := 0, fresh := 0, sv := 0, failRun := 0
    locked := false, lockTime := 1, lockEnd := 0, trngFail := false, annAt := 0, trngLast := 0 }

def Logbook.reset : Logbook :=
  { pend := none, busy := none, slot := none, bad := [], failed := false, opBase := 0, opTicks := 0, hours := 0, maxT := []
    minRate := [] }

/-- No word has come since reset: chain status NONE (R386). -/
def HostPort.reset : HostPort :=
  { ptr := 0, half := 0, snap := 0, chainStat := (4, none), exec := none, resp := none }

def PortSt.reset : PortSt := { hold := none, lock := none }

def MemPort.reset : MemPort := { user := 0, op := none, opAt := 0, busy := false }

def SensPort.reset : SensPort := { word := 0, start := 0, new := false, good := true }

def TxBuf.reset : TxBuf :=
  { pend := false, reqAt := 0, attempts := 0, clash := 0, cancel := false, single := false, perAt := 0 }

def RouteSt.reset : RouteSt := { last := none, lastFv := 0, seen := false, seenAt := 0 }

/-- A CAN controller in OFF with nothing pending (CAN_CTRL.mode; DESIGN CHOICE, log 11). -/
def CanC.reset : CanC :=
  { mode := 0, modeNext := none, tx := Vector.replicate 32 TxBuf.reset, routes := Vector.replicate 32 RouteSt.reset
    slot := none, ackRun := 0, lastEnd := 0, cell := none, markAt := 0, cycAt := 0, diag := none, ann := none }

/-- The machine right after reset: OFF, the queue empty (R25; DESIGN CHOICE, logs 1, 3, 11).
(DESIGN CHOICE, log 10) -/
def State.reset : State :=
  { now := 0, store := [], flash := [], pending := [], status := .idle, tear := false, range := false, raised := []
    guyFault := [], rails := [], fresh := 0, dev := Dev.reset, cl := Vector.replicate 8 Cluster.reset
    bases := Vector.ofFn Bases.reset, link := Vector.replicate 2 Link.reset, mc := Vector.replicate 6 Mc.reset, sync := Sync.reset
    grp := Vector.replicate 9 SGroup.reset, gates := Vector.replicate 40 GateOut.reset
    axM := Vector.replicate 6 AxisSt.reset, axS := Vector.replicate 8 AxisSt.reset
    stp := Vector.replicate 8 Stepper.reset, brake := Vector.replicate 2 Model.reset
    die := #v[DieTh.reset 6, DieTh.reset 12, DieTh.reset 12], ntc := Vector.replicate 4 Ntc.reset
    rg := Vector.replicate 2 Region.reset
    lanes := #v[Lane.reset .inService, Lane.reset .inService, Lane.reset .inService, Lane.reset .inService,
      Lane.reset .inService, Lane.reset .inService, Lane.reset .spare, Lane.reset .spare]
    ready := [], runs := [], poolCyc := 0, trace := Vector.replicate 4 TraceU.reset, atlChk := none, rowFlags := []
    rowMap := [], rowDead := [], imgSheets := [], auto := Vector.replicate 8 Auto.reset, boot := Boot.reset
    sec := Sec.reset, log := Logbook.reset, hp := HostPort.reset, ports := Vector.replicate 4 PortSt.reset
    mp := MemPort.reset, sp := Vector.replicate 2 SensPort.reset, can := Vector.replicate 3 CanC.reset, data := []
    authed := false, health := [] }

end Sys2Proof.Machine
end

