-- ==== Sys2Proof/Machine/Ops.lean ====
section
/-! DEFINITION. The named operations over the state: the store of words, the fields of registers, the passing of time,
the records of the clusters, saturating counters, and the raising of events (12_faults_and_stewardship R314, R315). -/

namespace Sys2Proof.Machine

/-! ## The store of words -/

/-- The word listed under a key, if any. -/
def wordAt : List (Nat × Word) → Nat → Option Word
  | [], _ => none
  | (k, v) :: rest, key => if k = key then some v else wordAt rest key

/-- The list without a key. -/
def eraseKey : List (Nat × Word) → Nat → List (Nat × Word)
  | [], _ => []
  | (k, v) :: rest, key => if k = key then eraseKey rest key else (k, v) :: eraseKey rest key

/-- The list with a key's entry put in its place, keys rising. -/
def insertKey : List (Nat × Word) → Nat → Word → List (Nat × Word)
  | [], key, w => [(key, w)]
  | (k, v) :: rest, key, w =>
    if key < k then (key, w) :: (k, v) :: rest
    else if k = key then (key, w) :: rest
    else (k, v) :: insertKey rest key w

/-- Keys strictly rising. -/
def rising : List (Nat × Word) → Bool
  | [] => true
  | (k, _) :: rest => (match rest with | [] => true | (k', _) :: _ => decide (k < k')) && rising rest

/-- The canonical form of the store: keys strictly rising, and no entry equal to what an unlisted word reads as. -/
def Memory.wf (m : List (Nat × Word)) : Bool := rising m && m.all (fun e => e.2 != regReset e.1)

/-- The word of a key: an unlisted word has its reset value. (DESIGN CHOICE, log 3) -/
def State.word (s : State) (key : Nat) : Word := (wordAt s.store key).getD (regReset key)

/-- A word written: writing the reset value removes the entry. -/
def State.setWord (s : State) (key : Nat) (w : Word) : State :=
  { s with store := if w = regReset key then eraseKey s.store key else insertKey s.store key w }

/-! ## Fields -/

/-- The value of a field in a word. -/
def Fld.get (f : Fld) (w : Word) : Nat := bitsAt w.toNat f.lo f.w

/-- A word with a field replaced. -/
def Fld.put (f : Fld) (w : Word) (v : Nat) : Word :=
  BitVec.ofNat 32 (w.toNat - bitsAt w.toNat f.lo f.w * 2 ^ f.lo + v % 2 ^ f.w * 2 ^ f.lo)

/-- The field of the register at a base. -/
def State.f (s : State) (base : Nat) (f : Fld) : Nat := f.get (s.word (base + f.off))

/-- The field set. -/
def State.setF (s : State) (base : Nat) (f : Fld) (v : Nat) : State :=
  s.setWord (base + f.off) (f.put (s.word (base + f.off)) v)

/-- The field as a Boolean. -/
def State.fb (s : State) (base : Nat) (f : Fld) : Bool := s.f base f != 0

/-- The field as a signed value. -/
def State.fi (s : State) (base : Nat) (f : Fld) : Int := sgn f.w (s.f base f)

/-- A counter field advanced by `k`, held at its maximum. -/
def State.inc (s : State) (base : Nat) (f : Fld) (k : Nat := 1) : State :=
  s.setF base f (Nat.min (s.f base f + k) (2 ^ f.w - 1))

/-! ## Bases (R436) and sets (R28, R34, R438) -/

def mcB (n : Mcn) : Nat := 0x100000 + n.val * 0x10000
def stB (k : Chan) : Nat := 0x180000 + k.val * 0x1000
def rgB (r : Rg) : Nat := 0x1E0000 + r.val * 0x10000
def canB (n : Can) : Nat := 0x6000 + n.val * 0x400
def trB (u : Fin 4) : Nat := 0xA000 + u.val * 0x10
/-- Package-level registers carry their whole address in the field. -/
def pk : Nat := 0

/-- The motor cluster of a cluster number, if it is one. -/
def clMc (c : Cl) : Option Mcn := if h : c.val < 6 then some ⟨c.val, h⟩ else none
/-- Motor cluster n as a cluster. -/
def mcCl (n : Mcn) : Cl := ⟨n.val, by omega⟩
/-- The stepper cluster of region r as a cluster. -/
def scCl (r : Rg) : Cl := ⟨6 + r.val, by omega⟩
/-- The region of a cluster (R10, "Dies and regions"). -/
def clRg (c : Cl) : Rg := if c.val < 3 ∨ c.val = 6 then 0 else 1
/-- The region of a stepper channel. -/
def stRg (k : Chan) : Rg := if k.val < 4 then 0 else 1
/-- The stepper cluster of a channel (R13). -/
def stCl (k : Chan) : Cl := scCl (stRg k)
/-- The cluster of an axis. -/
def axCl : Axis → Cl
  | .mc n => mcCl n
  | .st k => stCl k
/-- The four channels of a region's stepper cluster. -/
def rgChans (r : Rg) : List Chan := if r = 0 then [0, 1, 2, 3] else [4, 5, 6, 7]
/-- The motor clusters of a region. -/
def rgMcs (r : Rg) : List Mcn := if r = 0 then [0, 1, 2] else [3, 4, 5]
/-- The clusters of a region, which are also the clusters of its die. -/
def rgCls (r : Rg) : List Cl := if r = 0 then [0, 1, 2, 6] else [3, 4, 5, 7]
def allMc : List Mcn := [0, 1, 2, 3, 4, 5]
def allCl : List Cl := [0, 1, 2, 3, 4, 5, 6, 7]
def allSt : List Chan := [0, 1, 2, 3, 4, 5, 6, 7]
def allRg : List Rg := [0, 1]

/-- Base of the registers MC_CTRL to MC_SWAP, or SC_CTRL to SC_SWAP, of a cluster. -/
def clB (c : Cl) : Nat :=
  match clMc c with
  | some n => mcB n
  | none => rgB (clRg c) + 0x100
/-- Base of MC_LOOP_SAT and MC_LOOP_MISS, or their SC counterparts (same distance from the base). -/
def loopB (c : Cl) : Nat := clB c

/-- Base of a physical operating set of a motor cluster. -/
def mcSetB (n : Mcn) (b : Bool) : Nat := mcB n + 0x8000 + b2n b * 0x4000
/-- Base of a physical operating set of a stepper channel. -/
def stSetB (k : Chan) (b : Bool) : Nat := stB k + 0x800 + b2n b * 0x400
/-- Space number of the package set. (DESIGN CHOICE, log 69) -/
def pkgB (b : Bool) : Nat := b2n b * 0x1000000

/-- The active set of a motor cluster. -/
def State.act (s : State) (n : Mcn) : Nat := mcSetB n (s.cl[mcCl n]).setB
/-- The active set of a stepper channel. -/
def State.actSt (s : State) (k : Chan) : Nat := stSetB k (s.cl[stCl k]).setB
/-- The active package set. -/
def State.actPkg (s : State) : Nat := pkgB s.dev.pkgB
/-- Structure-class words in effect since the last entry to ARMED (R36). (DEDUCED, log 17; DESIGN CHOICE, log 69) -/
def eff (base : Nat) : Nat := base + 0x5000000
/-- The structure-class words of a cluster that act now: those in effect since ARM, or the stored ones before the first
ARM. (DEDUCED, log 17) -/
def State.st (s : State) (n : Mcn) (f : Fld) : Nat := s.f (eff (mcB n)) f

/-- Base of a sensing group's block (04, "Group block"). -/
def grpB (g : Grp) : Nat :=
  if g.val < 6 then 0x100000 + g.val * 0x10000 + 0xC00
  else if g.val = 6 then 0x1E0400 else if g.val = 7 then 0x1F0400 else 0x100
/-- Motor cluster n's group. -/
def mcG (n : Mcn) : Grp := ⟨n.val, by omega⟩
/-- Region r's group. -/
def rgG (r : Rg) : Grp := ⟨6 + r.val, by omega⟩
def grpMc (g : Grp) : Option Mcn := if h : g.val < 6 then some ⟨g.val, h⟩ else none
/-- The die of a group: 0 Polrex A, 1 Polrex B, none Kilid. -/
def grpRg (g : Grp) : Option Rg :=
  if g.val < 3 ∨ g.val = 6 then some 0 else if g.val < 8 then some 1 else none

/-- Base of an axis's motion block and of its active set's profile limits. -/
def moB : Axis → Nat
  | .mc n => mcB n + 0x1800
  | .st k => stB k
def State.moSet (s : State) : Axis → Nat
  | .mc n => s.act n + 0x1800
  | .st k => s.actSt k

/-! ## Records -/

def State.modMc (s : State) (n : Mcn) (g : Mc → Mc) : State := { s with mc := upd s.mc n (g s.mc[n]) }
def State.modCl (s : State) (c : Cl) (g : Cluster → Cluster) : State := { s with cl := upd s.cl c (g s.cl[c]) }
def State.modDev (s : State) (g : Dev → Dev) : State := { s with dev := g s.dev }
def State.modLink (s : State) (d : Rg) (g : Link → Link) : State := { s with link := upd s.link d (g s.link[d]) }
def State.modGrp (s : State) (i : Grp) (g : SGroup → SGroup) : State := { s with grp := upd s.grp i (g s.grp[i]) }
def State.modEst (s : State) (n : Mcn) (g : Est → Est) : State := s.modMc n (fun m => { m with est := g m.est })
def State.modPwm (s : State) (n : Mcn) (g : Pwm → Pwm) : State := s.modMc n (fun m => { m with pwm := g m.pwm })
def State.modDat (s : State) (n : Mcn) (g : Datum → Datum) : State := s.modMc n (fun m => { m with dat := g m.dat })
def State.modLoop (s : State) (n : Mcn) (x : Fin 4) (g : LoopSt → LoopSt) : State :=
  s.modMc n (fun m => { m with loops := upd m.loops x (g m.loops[x]) })
def State.modEntry (s : State) (n : Mcn) (k : Fin 64) (g : GEntry → GEntry) : State :=
  s.modMc n (fun m => { m with grat := upd m.grat k (g m.grat[k]) })
def State.modTrace (s : State) (u : Fin 4) (g : TraceU → TraceU) : State :=
  { s with trace := upd s.trace u (g s.trace[u]) }

/-- An axis and its record (R220). -/
def State.ax (s : State) : Axis → AxisSt
  | .mc n => s.axM[n]
  | .st k => s.axS[k]
def State.modAx (s : State) (a : Axis) (g : AxisSt → AxisSt) : State :=
  match a with
  | .mc n => { s with axM := upd s.axM n (g s.axM[n]) }
  | .st k => { s with axS := upd s.axS k (g s.axS[k]) }
def State.modStp (s : State) (k : Chan) (g : Stepper → Stepper) : State := { s with stp := upd s.stp k (g s.stp[k]) }
def State.modCoil (s : State) (k : Chan) (x : Fin 2) (g : Coil → Coil) : State :=
  s.modStp k fun p => { p with coils := upd p.coils x (g p.coils[x]) }
def State.modModel (s : State) (n : Mcn) (sw : Fin 6) (g : Model → Model) : State :=
  s.modMc n fun m => { m with models := upd m.models sw (g m.models[sw]) }

/-- A state changed for each element of a list, in order. -/
def State.each {α : Type} (s : State) (l : List α) (g : α → State → State) : State := l.foldl (fun s a => g a s) s

/-- A change made only when a condition holds. -/
def State.onlyIf (s : State) (b : Bool) (g : State → State) : State := if b then g s else s

/-- The personality of a motor cluster in effect (R279): true is converter. -/
def State.conv (s : State) (n : Mcn) : Bool := s.fb (mcB n) R.MC_STATE.personality
/-- Converter personality of a cluster; never of a stepper cluster. -/
def State.convC (s : State) (c : Cl) : Bool :=
  match clMc c with | some n => s.conv n | none => false

/-! ## Time (R47, R81) -/

/-- Does the device operate, in the sense of the operating seconds (R336)? -/
def DState.operates : DState → Bool
  | .ready | .run | .bivouac => true
  | _ => false

/-- Ticks of 2 ns pass, on one timebase for all dies (R47); in READY, RUN and BIVOUAC they count as time of operation (R336). (DESIGN CHOICE, log 83) -/
def State.tick (s : State) (dt : Nat) : State :=
  { s with
    now := s.now + dt
    log := { s.log with opTicks := s.log.opTicks + (if s.dev.st.operates then dt else 0) } }

/-- The present instant in units of 125 ps, unwrapped. (DESIGN CHOICE, log 2) -/
def State.now16 (s : State) : Int := (s.now : Int) * 16

/-- The 32-bit code of an edge time (R48). (DEDUCED, log 29) -/
def edgeCode (t : Int) : Word := BitVec.ofInt 32 t

/-- The free value of the present use, and the counter moved on to the next (Config.freeWord).
(DESIGN CHOICE, logs 8, 9) -/
def State.freeNat (s : State) : Nat := (Config.freeWord s.fresh).toNat
/-- The counter of free values, one use on (DESIGN CHOICE, logs 8, 9). -/
def State.drawn (s : State) : State := { s with fresh := s.fresh + 1 }

/-- A command answered with a status. (DESIGN CHOICE, log 4) -/
def State.answer (s : State) (st : Status) : State := { s with status := st }

/-! ## Events (R314, R315, R318, R319, R322) -/

/-- The register word that holds the severity in force. -/
def sevKey (s : State) (e : Nat) : Nat := s.actPkg + 0x1100 + e
/-- Severity in force of a source (R316, R318). -/
def State.sev (s : State) (e : Nat) : Nat := R.FC_SEV.sev.get (s.word (sevKey s e))
/-- Scope code in force of a source (R319). -/
def State.scope (s : State) (e : Nat) : Nat := R.FC_SEV.scope.get (s.word (sevKey s e))

/-- Does a natural scope lie on Polrex die d? -/
def onDie (d : Rg) : Scope → Bool
  | .cluster c => clRg c == d
  | .region r => r == d
  | .die d' => d' == d
  | .package => false

/-- Is the source asserted (FC_ASSERTk)? -/
def State.asserted (s : State) (e : Nat) : Bool := bitAt (s.word (0x1018 + e / 32)).toNat (e % 32)

/-- A bit of a word set or cleared. -/
def setBit (w : Word) (b : Nat) (v : Bool) : Word :=
  let n := w.toNat
  BitVec.ofNat 32 (n - b2n (bitAt n b) * 2 ^ b + b2n v * 2 ^ b)

/-- An event trigger of the armed trace units (R198): the raising of the selected event at any severity. -/
def traceTrigger (u : Fin 4) (s : State) : State :=
  let st := s.f (trB u) R.TR_STAT.state
  let cont := s.fb (trB u) R.TR_CFG.mode
  if st = 1 ∨ (st = 2 ∧ cont) then
    (s.setF (trB u) R.TR_STAT.state 2).modTrace u (fun t => { t with trig := true })
  else s

/-- Trace units triggered by an event. -/
def traceEvent (e : Nat) (s : State) : State :=
  s.each [0, 1, 2, 3] fun u s =>
    let src := s.f (trB u) R.TR_TRIG.trig_src
    if (src = 0 ∨ src = 2) ∧ s.f (trB u) R.TR_TRIG.ev = e then traceTrigger u s else s

/-- The collector's record of a raising (R315): sticky bit and occurrence counter, which stops at 255. -/
def collect (e : Nat) (s : State) : State :=
  let s := s.setWord (0x1010 + e / 32) (setBit (s.word (0x1010 + e / 32)) (e % 32) true)
  let f : Fld := ⟨0, 8 * (e % 4), 8⟩
  traceEvent e (s.inc (0x1040 + e / 4) f)

/-- A raising reaches Kilid's collector, or, while the link of the source's die is lost, that die's local collector, which
keeps up to 255 raisings of a source (R322). The link-loss sources are Kilid's own (R17). -/
def State.raise (s : State) (e : Nat) : State :=
  let local_ (d : Rg) : Bool := (s.link[d]).lost && onDie d (evScope e) && !(e == 2 || e == 3)
  let buf (d : Rg) (s : State) : State :=
    s.modLink d fun l =>
      { l with buffer :=
          if l.buffer.any (fun p => p.1 == e) then
            l.buffer.map (fun p => if p.1 == e then (e, Nat.min 255 (p.2 + 1)) else p)
          else l.buffer ++ [(e, 1)] }
  if local_ 0 then buf 0 s
  else if local_ 1 then buf 1 s
  else { collect e s with raised := s.raised ++ [e] }

/-- A level source begins: its rail rises, and it is asserted and raised if it was not asserted before (R314). -/
def State.assertOn (s : State) (e : Nat) : State :=
  if s.rails.contains e then s
  else
    let s := { s with rails := e :: s.rails }
    if s.asserted e then s
    else (s.setWord (0x1018 + e / 32) (setBit (s.word (0x1018 + e / 32)) (e % 32) true)).raise e

/-- A level source ends: its rail falls, and it stays asserted only while its guy line has a wire fault (R314, R324). -/
def State.assertOff (s : State) (e : Nat) : State :=
  if s.rails.contains e then
    let s := { s with rails := s.rails.filter (· != e) }
    if s.guyFault.contains e then s
    else s.setWord (0x1018 + e / 32) (setBit (s.word (0x1018 + e / 32)) (e % 32) false)
  else s

/-- A level source set to a condition. -/
def State.level (s : State) (e : Nat) (b : Bool) : State := if b then s.assertOn e else s.assertOff e

/-- Clusters a severity acts on (R319): the source's own cluster and its converter partner are added where reactions are
applied (R291). -/
def scopeClusters (e code : Nat) : List Cl :=
  let wide (r : Rg) : List Cl := if code ≤ 2 then rgCls r else allCl
  match evScope e with
  | .cluster c => if code = 0 then [c] else wide (clRg c)
  | .region r => wide r
  | .die d => wide d
  | .package => allCl

/-- The cluster named in MC_CONV_CFG.partner of a cluster (R291). -/
def State.partnerField (s : State) (n : Mcn) : Nat := s.st n R.MC_CONV_CFG.partner

/-- The partner of a converter cluster: the cluster of the same region that it names and that names it in turn, both in
converter personality (R291). (DEDUCED, log 21) -/
def State.partner (s : State) (n : Mcn) : Option Mcn :=
  let p := s.partnerField n
  if h : p < 6 then
    let q : Mcn := ⟨p, h⟩
    if q ≠ n ∧ s.conv n ∧ s.conv q ∧ clRg (mcCl q) = clRg (mcCl n) ∧ s.partnerField q = n.val then some q else none
  else none

/-- STARTING, RUNNING or STOPPING: the outputs are driven. -/
def CState.moving : CState → Bool
  | .starting | .running | .stopping => true
  | _ => false
/-- ARMED, STARTING, RUNNING or STOPPING: the carrier runs (R113, R28). -/
def CState.active : CState → Bool
  | .armed | .starting | .running | .stopping => true
  | _ => false

/-- The clusters that take a command or a reaction together with a cluster: itself, and its converter partner (R291).
(DEDUCED, log 21) -/
def State.group (s : State) (c : Cl) : List Cl :=
  match clMc c with
  | some n => (match s.partner n with | some q => [c, mcCl q] | none => [c])
  | none => [c]

/-- The clusters that a source acts on by its scope in force (R319, R291). -/
def State.inScope (s : State) (e : Nat) : List Cl :=
  (((scopeClusters e (s.scope e)).flatMap s.group).eraseDups)

/-- Is a pulse source within the 1 s after its latest raising (R45, R317)? (DEDUCED, log 48) -/
def State.pulseHeld (s : State) (e : Nat) : Bool := s.dev.pulseHold.any (·.1 == e)

/-- Does a source act on a cluster now with a severity of at least `k`: it is asserted, or it is a pulse whose hold of 1 s
still runs (R317)? -/
def State.derates (s : State) (e : Nat) (c : Cl) : Bool :=
  (s.asserted e || s.pulseHeld e) && decide (2 ≤ s.sev e) && (s.inScope e).contains c

/-- The least current factor, in 1/4,096, that sources of severity DERATE or above give a cluster (R317). -/
def State.evFactor (s : State) (c : Cl) : Int :=
  ((List.range 256).filter fun e => s.derates e c).foldl
    (fun m e => let k : Int := (R.FC_SEV.derate_k.get (s.word (sevKey s e)) : Int) * 16; if k < m then k else m) 4096

end Sys2Proof.Machine
end

