-- ==== Sys2Proof/Machine/Operands.lean ====
section
/-! DEFINITION. The operand forms of the jobs: the fixed-point arithmetic of the lanes (06_control_lanes R174, R175),
per-unit and physical conversions (00_scope R2 to R6), and the tables read by interpolation (03 R91). -/

namespace Sys2Proof.Machine

/-- A quotient whose rounding the spec does not state: the floor, or the floor plus one where the division is not exact
(Config.roundUp). Division by zero gives 0. (DESIGN CHOICE, log 6) -/
def qdiv (a b : Int) : Int :=
  if b = 0 then 0
  else
    let (a, b) := if b < 0 then (-a, -b) else (a, b)
    let q := a / b
    if a % b = 0 then q else if Config.roundUp a b then q + 1 else q

/-- A quotient rounded to the nearest integer, halves away from zero (R2, R174); 0 for a zero divisor. -/
def rdiv (a b : Int) : Int :=
  if b = 0 then 0
  else
    let (a, b) := if b < 0 then (-a, -b) else (a, b)
    if 0 ≤ a then (2 * a + b) / (2 * b) else -((2 * -a + b) / (2 * b))

/-- The least integer not below a / b, for positive b. -/
def cdiv (a b : Int) : Int := -((-a) / b)

/-- A number of a job with the mark that an operation has saturated (R174, R176). -/
structure Fx where
  v   : Int
  sat : Bool
  deriving DecidableEq, Repr

/-- The 32-bit range (R5, R174). -/
def q32lo : Int := -2147483648
def q32hi : Int := 2147483647

/-- A value saturated to 32 bits, noting whether it was. -/
def Fx.of (v : Int) (sat : Bool := false) : Fx :=
  let c := clampI q32lo q32hi v
  ⟨c, sat || decide (c ≠ v)⟩

def Fx.add (a b : Fx) : Fx := Fx.of (a.v + b.v) (a.sat || b.sat)
def Fx.sub (a b : Fx) : Fx := Fx.of (a.v - b.v) (a.sat || b.sat)
/-- A product shifted right by `sh` fraction bits, rounded to nearest with halves away from zero (R174). -/
def Fx.mulS (sh : Nat) (a b : Fx) : Fx := Fx.of (rdiv (a.v * b.v) (2 ^ sh : Nat)) (a.sat || b.sat)
/-- A product of two Q3.28 values. -/
def Fx.mul (a b : Fx) : Fx := Fx.mulS 28 a b
/-- A quotient in Q3.28: division by zero gives 0 for a zero numerator, and otherwise the saturated value with the sign
of the numerator (R174). -/
def Fx.div (a b : Fx) : Fx :=
  if b.v = 0 then
    if a.v = 0 then ⟨0, a.sat || b.sat⟩ else ⟨if a.v < 0 then q32lo else q32hi, true⟩
  else Fx.of (rdiv (a.v * 268435456) b.v) (a.sat || b.sat)

/-- 1.0 in Q3.28. -/
def q1 : Int := 268435456

/-- Saturating 32-bit values outside a job (R5). -/
def sat32 (v : Int) : Int := clampI q32lo q32hi v

/-- Per-unit bases of a motor cluster (R5): I_base in mA, V_base in mV, f_base in Hz (log 7). -/
def State.iBase (s : State) (n : Mcn) : Int := ((s.bases[mcCl n]).i : Int) + 1
def State.vBase (s : State) (n : Mcn) : Int := ((s.bases[mcCl n]).v : Int) + 1
def State.fBase (s : State) (n : Mcn) : Int := ((s.bases[mcCl n]).f : Int) + 1

/-- A value of a 64-point contour table at a speed (R91): `pt j` is point j, `step` the spacing in 1/16 Hz, the speed in
Q16.16 Hz, `div` the rounding: a job's is R174's, and elsewhere it is open (log 6). -/
def contour (div : Int → Int → Int) (pt : Nat → Int) (step : Nat) (speed : Int) : Int :=
  if step = 0 then pt 0
  else
    let a := speed.natAbs
    let d := step * 4096
    if 63 * d ≤ a then pt 63
    else
      let j := a / d
      pt j + div ((a - j * d : Nat) * (pt (j + 1) - pt j)) d

/-- Wrapped difference of two angle codes, in -2^31 to 2^31 - 1. -/
def wrapDiff (a b : Nat) : Int := sgn 32 (uns 32 ((a : Int) - (b : Int)))

/-- A rounded square root, by bisection over 64 halvings: the largest r with r * r ≤ n. -/
def isqrtGo : Nat → Nat → Nat → Nat
  | 0, _, r => r
  | k + 1, n, r => let c := r + 2 ^ k; if c * c ≤ n then isqrtGo k n c else isqrtGo k n r
def isqrt (n : Nat) : Nat := isqrtGo 48 n 0

/-! ## Elementary functions as fixed-point series in units of 2^-64 (log 13): the exact real function to better than
2^-50 -/

/-- One. -/
def fxOne : Int := 18446744073709551616
/-- π. -/
def piFx : Int := 57952155664616982739
/-- ln 2. -/
def ln2Fx : Int := 12786308645202655660

/-- z + s z^3/3 + z^5/5 + s z^7/7 ..., with s = 1 (artanh) or -1 (arctan). -/
def oddGo (s : Int) : Nat → Int → Int → Int → Int → Int
  | 0, _, _, _, acc => acc
  | n + 1, z2, t, k, acc => oddGo s n z2 (s * (t * z2 / fxOne)) (k + 2) (acc + t / k)

/-- A ratio a / b brought within 1 to 2 by halving or doubling, with the count of halvings. -/
def lnNorm : Nat → Nat → Nat → Int → Nat × Nat × Int
  | 0, a, b, k => (a, b, k)
  | n + 1, a, b, k =>
    if 2 * b ≤ a then lnNorm n a (2 * b) (k + 1) else if a < b then lnNorm n (2 * a) b (k - 1) else (a, b, k)

/-- ln (a / b), for positive a and b. -/
def lnFx (a b : Nat) : Int :=
  let (a, b, k) := lnNorm 64 a b 0
  let z := ((a : Int) - b) * fxOne / ((a : Int) + b)
  k * ln2Fx + 2 * oddGo 1 40 (z * z / fxOne) z 1 0

/-- Terms of exp (-z). -/
def expGo : Nat → Int → Int → Int → Int → Int
  | 0, _, _, _, acc => acc
  | n + 1, z, t, k, acc => expGo n z (-(t * z / fxOne) / k) (k + 1) (acc + t)

/-- Repeated squaring. -/
def sqGo : Nat → Int → Int
  | 0, x => x
  | n + 1, x => sqGo n (x * x / fxOne)

/-- 1 - exp (-num / den). -/
def oneMinusExp (num den : Nat) : Int :=
  if den = 0 ∨ 64 * den ≤ num then fxOne
  else fxOne - sqGo 8 (expGo 20 ((num : Int) * fxOne / (256 * den)) fxOne 1 0)

/-- Terms of sin (k = 1, t = x) or cos (k = 0, t = 1). -/
def trigGo : Nat → Int → Int → Int → Int → Int
  | 0, _, _, _, acc => acc
  | n + 1, x2, t, k, acc => trigGo n x2 (-(t * x2 / fxOne) / ((k + 1) * (k + 2))) (k + 2) (acc + t)

/-- Sine of an angle code within the first eighth, and its cosine. -/
def sin8 (a : Nat) : Int := let x := (a : Int) * piFx / 2147483648; trigGo 16 (x * x / fxOne) x 1 0
def cos8 (a : Nat) : Int := let x := (a : Int) * piFx / 2147483648; trigGo 16 (x * x / fxOne) fxOne 0 0

/-- Sine of an angle code within the first quarter. -/
def sin4 (a : Nat) : Int := if a ≤ 0x20000000 then sin8 a else cos8 (0x40000000 - a)

/-- Sine of an angle code. -/
def sinFx (a : Nat) : Int :=
  let a := a % 4294967296
  if a ≤ 0x40000000 then sin4 a
  else if a ≤ 0x80000000 then sin4 (0x80000000 - a)
  else if a ≤ 0xC0000000 then -sin4 (a - 0x80000000)
  else -sin4 (4294967296 - a)

/-- Arc tangent of num / den within 0 to 1. -/
def atanUnit (num den : Int) : Int :=
  if 12 * num ≤ 5 * den then
    let z := num * fxOne / den
    oddGo (-1) 40 (z * z / fxOne) z 1 0
  else
    let z := (num - den) * fxOne / (num + den)
    piFx / 4 + oddGo (-1) 40 (z * z / fxOne) z 1 0

/-- Angle code of a vector, to the nearest below; 0 for the null vector. -/
def atanCode (y x : Int) : Int :=
  let ax : Int := x.natAbs
  let ay : Int := y.natAbs
  if ax = 0 ∧ ay = 0 then 0
  else
    let q := if ay ≤ ax then atanUnit ay ax else piFx / 2 - atanUnit ax ay
    let h := if x < 0 then piFx - q else q
    let r := if y < 0 then -h else h
    r * 2147483648 / piFx

/-- The lanes' CORDIC functions (R175): the exact value, off by no more than the stated accuracy. -/
def sinQ (a : BitVec 32) : Int := sinFx a.toNat / 68719476736 + clampI (-3) 3 (Config.sinErr a)
def cosQ (a : BitVec 32) : Int := sinFx (a.toNat + 0x40000000) / 68719476736 + clampI (-3) 3 (Config.cosErr a)
def atanQ (y x : Int) : BitVec 32 := BitVec.ofInt 32 (atanCode y x + clampI (-63) 63 (Config.atanErr y x))
def magQ (x y : Int) : Int :=
  let m : Int := isqrt (x * x + y * y).toNat
  let b := m / 67108864
  m + clampI (-b) b (Config.magErr x y)

end Sys2Proof.Machine
end

