-- ==== Sys2Proof/Machine/Steward.lean ====
section
/-! DEFINITION. The steward's records (12_faults_and_stewardship R331 to R334): health counters by unit identifier,
limits, substitutions, and pools that lose their last spare. -/

namespace Sys2Proof.Machine

/-- A unit identifier: class code and index (R11). -/
def unitId (cls idx : Nat) : Nat := cls * 4096 + idx

/-- The health counter of a unit. -/
def State.healthOf (s : State) (u : Nat) : Nat := ((s.health.find? (fun p => p.1 == u)).map (·.2)).getD 0

/-- A health counter set, in rising order of identifiers; a counter of 0 is not listed. -/
def putHealth (u v : Nat) : List (Nat × Nat) → List (Nat × Nat)
  | [] => if v = 0 then [] else [(u, v)]
  | (k, c) :: rest =>
    if k = u then (if v = 0 then rest else (u, v) :: rest)
    else if u < k then (if v = 0 then (k, c) :: rest else (u, v) :: (k, c) :: rest)
    else (k, c) :: putHealth u v rest

/-- A health counter advanced by 1, held at 0xFFFF (R331). -/
def State.wear (s : State) (u : Nat) : State :=
  { s with health := putHealth u (Nat.min 0xFFFF (s.healthOf u + 1)) s.health }

/-- Limit of a class in force (ST_LIMc). -/
def State.limitOf (s : State) (cls : Nat) : Nat := s.f cls R.ST_LIM.limit

/-- Has a unit reached its limit? Classes 0x4 and 0x6 have none (R331). -/
def State.worn (s : State) (u : Nat) : Bool :=
  let c := u / 4096
  c != 4 && c != 6 && decide (s.limitOf c ≤ s.healthOf u)

/-- A substitution is counted (ST_SUB). -/
def State.substituted (s : State) : State := (s.inc pk R.ST_SUB.sub_boot).inc pk R.ST_SUB.sub_total

/-- A pool loses its last spare: EV000 once for the pool, and ST_EXH shows its class (R333). -/
def State.poolEmpty (s : State) (cls : Nat) : State :=
  let w := s.word 0x2002
  (s.setWord 0x2002 (setBit w cls true)).raise 0

end Sys2Proof.Machine
end

