-- ==== Sys2Proof/Machine/Sensing.lean ====
section
/-! DEFINITION. Current and voltage sensing (04_current_and_voltage_sensing R111 to R137): sequences and their triggers,
urgent requests, result words, accumulators, DMA, calibration of the slices and the amplifiers. -/

namespace Sys2Proof.Machine

/-- Base of the sequence fields of a group: in the active set for a motor group, in the group block otherwise. -/
def State.seqB (s : State) (g : Grp) : Nat :=
  match grpMc g with
  | some n => s.act n + 0xC00
  | none => grpB g + 0x40

/-- Sequence slices of a group: MEAS alone, or SEQ0 to SEQ2 (R111). -/
def seqSlices (g : Grp) : List (Fin 3) := if g.val < 6 then [0] else [0, 1, 2]

/-- Role of a sequence slice. -/
def slotRole (g : Grp) (i : Fin 3) : Nat := if g.val < 6 then 3 else i.val

/-- Physical slice in a role (xx_SEN_ROLE). -/
def State.slice (s : State) (g : Grp) (role : Nat) : Nat := bitsAt (s.word (grpB g)).toNat (3 * role) 3

/-- Is the die of a group powered (R113)? -/
def State.grpPowered (s : State) (g : Grp) : Bool :=
  match grpRg g with
  | some r => !(s.link[r]).supplyLost
  | none => true

/-- Does the group's sensing run (R113)? A motor group's in every cluster state but UNUSED; the sequences of the region
and Kilid groups from READY on, so not in RECOVERY, which the next READY ends. -/
def State.senRuns (s : State) (g : Grp) : Bool :=
  s.grpPowered g &&
    match grpMc g with
    | some n => (s.cl[mcCl n]).st != .unused
    | none => s.dev.st == .ready || s.dev.st == .run || s.dev.st == .bivouac

/-- The entries of a pass in order, without the skipped ones (R120, R122). -/
def State.seqPlan (s : State) (g : Grp) (inj : Bool) : List (Nat × Nat) :=
  let b := s.seqB g
  let len := if inj then s.f b R.SEQ_CFG.inj_len else s.f b R.SEQ_CFG.reg_len
  let at_ := if inj then 0x20 else 0x10
  ((List.range len).map fun k => (k, (s.word (b + at_ + k)).toNat)).filter fun e => e.2 % 64 != 0x3F

/-- Can a sequence's trigger code occur: none never, those of the PWM unit only while the carrier of the cluster runs
(R113, R121)? -/
def State.trigLive (s : State) (g : Grp) (trig : Nat) : Bool :=
  if trig = 0 then false
  else if 6 ≤ trig then true
  else
    match grpMc g, grpRg g with
    | some n, _ => (s.cl[mcCl n]).st.active
    | none, some r => (rgMcs r).any fun n =>
        s.f (s.seqB g) R.SEQ_CFG.trig_mc == n.val % 3 && (s.cl[mcCl n]).st.active
    | none, none => false

/-- The tick of a trigger, which further triggers on it do not count beside (R125). -/
def State.seqMark (s : State) (g : Grp) (inj : Bool) : State :=
  s.modGrp g fun x =>
    if inj then { x with inj := { x.inj with last := some s.now } } else { x with reg := { x.reg with last := some s.now } }

/-- A pass starts, or counts as an overrun while one is still issuing (R121, R125). A software or continuous trigger has no
delay. -/
def State.seqPass (s : State) (g : Grp) (inj : Bool) : State :=
  let b := s.seqB g
  let q := if inj then (s.grp[g]).inj else (s.grp[g]).reg
  let trig := if inj then s.f b R.SEQ_CFG.inj_trig else s.f b R.SEQ_CFG.reg_trig
  let dly := if inj then s.f b R.SEQ_DLY.inj_delay else s.f b R.SEQ_DLY.reg_delay
  if q.plan ≠ [] then
    (s.inc (grpB g) (if inj then R.SEN_CNT.inj_overrun else R.SEN_CNT.reg_overrun)).raise 33
  else
    let q' : Seq := { plan := s.seqPlan g inj, pass := (q.pass + 1) % 128, last := q.last
                      due := s.now + (if trig = 7 ∨ trig = 8 then 0 else 2 * dly) }
    s.modGrp g fun x => if inj then { x with inj := q' } else { x with reg := q' }

/-- A trigger of a sequence (R113, R121, R125): several on one tick count as one. -/
def State.seqTrigger (s : State) (g : Grp) (inj : Bool) : State :=
  let b := s.seqB g
  let q := if inj then (s.grp[g]).inj else (s.grp[g]).reg
  let len := if inj then s.f b R.SEQ_CFG.inj_len else s.f b R.SEQ_CFG.reg_len
  let trig := if inj then s.f b R.SEQ_CFG.inj_trig else s.f b R.SEQ_CFG.reg_trig
  if s.senRuns g ∧ len ≠ 0 ∧ s.trigLive g trig ∧ q.last ≠ some s.now then (s.seqMark g inj).seqPass g inj else s

/-- A trigger of the given code reaches the sequences of a group that select it; a regular and an injected trigger on one
tick start both passes (R121, R125). -/
def State.trigCode (s : State) (g : Grp) (code : Nat) : State :=
  let b := s.seqB g
  let s := if s.f b R.SEQ_CFG.inj_trig = code then s.seqTrigger g true else s
  if s.f b R.SEQ_CFG.reg_trig = code then s.seqTrigger g false else s

/-- A PWM event of motor cluster n triggers its own group and the region group that selects it (R121). -/
def State.pwmTrigger (s : State) (n : Mcn) (code : Nat) : State :=
  let r := clRg (mcCl n)
  let g := rgG r
  let s := s.trigCode (mcG n) code
  if s.f (s.seqB g) R.SEQ_CFG.trig_mc = n.val % 3 then s.trigCode g code else s

/-- The lowest-numbered sequence slice that is free (R122). -/
def State.freeSlice (s : State) (g : Grp) : Option (Fin 3) :=
  (seqSlices g).find? fun i => ((s.grp[g]).slot[i]).isNone && decide ((s.grp[g]).freeAt[i] ≤ s.now)

/-- The slice in a sequence role holds (R112): the role can hold again 200 ns later. -/
def State.hold (s : State) (g : Grp) (i : Fin 3) (c : Conv) : State :=
  s.modGrp g fun x =>
    { x with slot := upd x.slot i (some (c, s.slice g (slotRole g i))), freeAt := upd x.freeAt i (s.now + 100) }

/-- Is an urgent request due (R123)? -/
def State.urgentDue (s : State) (g : Grp) : Bool :=
  (s.grp[g]).urgent != [] || ((s.grp[g]).inj.plan != [] && decide ((s.grp[g]).inj.due ≤ s.now))

/-- A regular entry holds on the lowest free slice once it is due and no urgent request waits (R122 to R124); a
continuous sequence starts its next pass as the last entry is issued (R121). -/
def State.issueRegular (s : State) (g : Grp) : State :=
  let q := (s.grp[g]).reg
  match q.plan, s.freeSlice g with
  | (k, e) :: rest, some i =>
    if q.due ≤ s.now ∧ !s.urgentDue g then
      let s := s.hold g i (.reg k e q.pass)
      let s := s.modGrp g fun x => { x with reg := { x.reg with plan := rest } }
      if rest = [] ∧ s.f (s.seqB g) R.SEQ_CFG.reg_trig = 8 ∧ s.f (s.seqB g) R.SEQ_CFG.reg_len ≠ 0 then s.seqPass g false else s
    else s
  | _, _ => s

/-- An injected entry takes a slice once it is due (R123). -/
def State.issueInjected (s : State) (g : Grp) (i : Fin 3) : State :=
  let q := (s.grp[g]).inj
  match q.plan with
  | (k, e) :: rest =>
    if q.due ≤ s.now then
      (s.hold g i (.inj k e q.pass)).modGrp g fun x => { x with inj := { x.inj with plan := rest } }
    else s
  | [] => s

/-- An urgent request takes the next free slice, in order of due instant, and on one tick a graticule conversion before an
injected entry (R123). -/
def State.issueUrgent (s : State) (g : Grp) : State :=
  match s.freeSlice g with
  | none => s
  | some i =>
    match (s.grp[g]).urgent with
    | (t, c) :: rest =>
      if (s.grp[g]).inj.plan = [] ∨ t ≤ (s.grp[g]).inj.due then
        (s.hold g i c).modGrp g fun x => { x with urgent := rest }
      else s.issueInjected g i
    | [] => s.issueInjected g i

/-- A result word (R130). -/
def resultWord (code slice tag : Nat) : Word := BitVec.ofNat 32 (code % 16384 * 2 ^ 18 + slice % 16 * 4096 + tag % 4096)

/-- A result is added to an accumulator (R133). -/
def State.accumulate (s : State) (g : Grp) (a : Fin 4) (w : Word) : State :=
  let x := s.grp[g]
  if x.count[a] = 0xFFFFFF then s
  else
    let c := x.count[a] + 1
    let s := s.modGrp g fun x =>
      { x with sum := upd x.sum a ((x.sum[a] + w.toNat / 65536) % 2 ^ 40), count := upd x.count a c }
    if c = 0xFFFFFF then s.setF (grpB g + a.val) R.SEN_ACC_CTL.full 1 else s

/-- An accumulator restarts at 0 (R133, R134). -/
def State.accRestart (s : State) (g : Grp) (a : Fin 4) : State :=
  (s.modGrp g fun x => { x with sum := upd x.sum a 0, count := upd x.count a 0 }).setF (grpB g + a.val)
    R.SEN_ACC_CTL.full 0

/-- A structure-class field of a group's block in effect (R36): a motor group's from the last entry to ARMED. -/
def State.gst (s : State) (g : Grp) (f : Fld) : Nat := s.f (if g.val < 6 then eff (grpB g) else grpB g) f

/-- A word enters the group's DMA FIFO, or is lost to DMA when the FIFO is full (R137). The Kilid group has no channel. -/
def State.dmaPush (s : State) (g : Grp) (w : Word) : State :=
  if g = 8 ∨ s.gst g R.SEN_DMA_CTL.dma_en = 0 then s
  else if 32 ≤ (s.grp[g]).fifo.length then s.inc (grpB g) R.SEN_CNT2.fifo_loss
  else s.modGrp g fun x => { x with fifo := x.fifo ++ [w] }

/-- Buffer length in force: clamped at the top of sample memory (R135). -/
def State.dmaLen (s : State) (g : Grp) : Nat :=
  Nat.min (s.gst g R.SEN_DMA_BUF.length) (65536 - s.gst g R.SEN_DMA_BUF.base)

/-- Fill of the buffer (R135). -/
def State.dmaFill (s : State) (g : Grp) : Nat :=
  let len := Nat.max 1 (s.dmaLen g)
  (s.f (grpB g) R.SEN_DMA_PTR.wptr + len - s.f (grpB g) R.SEN_DMA_PTR.rptr % len) % len

/-- The fill against the watermark after it has changed (R136): a rise through it raises dma-watermark once. -/
def State.dmaMark (s : State) (g : Grp) : State :=
  if s.gst g R.SEN_DMA_CTL.watermark ≤ s.dmaFill g then
    if (s.grp[g]).wmUp then s else (s.modGrp g fun x => { x with wmUp := true }).raise 34
  else s.modGrp g fun x => { x with wmUp := false }

/-- One word written by the channel (R135, R136). -/
def State.dmaWord (s : State) (g : Grp) (w : Word) : State :=
  let b := grpB g
  let len := Nat.max 1 (s.dmaLen g)
  let full := decide (len - 1 ≤ s.dmaFill g)
  let s := if full then (s.inc b R.SEN_CNT2.dma_overrun).raise 35 else s
  if full ∧ s.gst g R.SEN_DMA_CTL.policy ≠ 0 then s
  else
    let s := if full then s.setF b R.SEN_DMA_PTR.rptr ((s.f b R.SEN_DMA_PTR.rptr + 1) % len) else s
    let wp := s.f b R.SEN_DMA_PTR.wptr
    let s := s.setWord (0x580000 + s.gst g R.SEN_DMA_BUF.base + wp) w
    (s.setF b R.SEN_DMA_PTR.wptr ((wp + 1) % len)).dmaMark g

/-- A granted burst: up to eight words, 32 bytes, leave the FIFO (R39, R135). (DESIGN CHOICE, log 76) -/
def State.dmaBurst (s : State) (g : Grp) : State :=
  let ws := (s.grp[g]).fifo.take 8
  let s := s.modGrp g fun x => { x with fifo := x.fifo.drop 8 }
  s.each ws fun w s => s.dmaWord g w

/-- Host firmware moves the read pointer (R135): a value of length or more stores 0. -/
def State.dmaRptr (s : State) (g : Grp) (v : Nat) : State :=
  if g = 8 then s
  else (s.setF (grpB g) R.SEN_DMA_PTR.rptr (if s.dmaLen g ≤ v then 0 else v)).dmaMark g

/-- The bus code offered to the feed-forward follows channel 0x00 of the region group and channel 0x03 of the cluster's
own (R132). -/
def State.busCode (s : State) (g : Grp) (ch code : Nat) : State :=
  match grpMc g, grpRg g with
  | some n, _ => if ch = 3 then s.modMc n fun m => { m with vsCode := code } else s
  | none, some r =>
    if ch = 0 then
      let s : State := { s with rg := upd s.rg r { s.rg[r] with vsCode := code } }
      s.each (rgMcs r) fun n s => s.modMc n fun m => { m with vsCode := code }
    else s
  | none, none => s

/-- Bus voltage in mV from a code of a 75 V channel (R120). -/
def codeMv (code : Nat) : Int := qdiv (code * 75000) 16384

/-- Bus value of R132 of a cluster, mV. -/
def State.vsMv (s : State) (n : Mcn) : Int := codeMv (s.mc[n]).vsCode

/-- A sequence result goes to its register, its accumulator and DMA (R130, R131, R133, R135). -/
def State.seqResult (s : State) (g : Grp) (off k entry tag code : Nat) (slice : Nat) : State :=
  let w := resultWord code slice tag
  let s := s.setWord (grpB g + off + k) w
  let s := s.busCode g (entry % 64) code
  let s := if bitAt entry 7 then s.accumulate g ⟨bitsAt entry 8 2, by unfold bitsAt; omega⟩ w else s
  if bitAt entry 6 then s.dmaPush g w else s

/-- Does the role's conversion pass a test? -/
def State.slotIs (s : State) (g : Grp) (p : Conv → Bool) (i : Fin 3) : Bool :=
  match (s.grp[g]).slot[i] with
  | some c => p c.1
  | none => false

/-- The sequence role that has converted longest of those that pass a test: the one that held first. -/
def State.slotOf (s : State) (g : Grp) (p : Conv → Bool) : Option (Fin 3) :=
  ((seqSlices g).filter (s.slotIs g p)).foldl (fun b i =>
    match b with
    | none => some i
    | some j => if (s.grp[g]).freeAt[i] < (s.grp[g]).freeAt[j] then some i else b) none

def State.clearSlot (s : State) (g : Grp) (i : Fin 3) : State := s.modGrp g fun x => { x with slot := upd x.slot i none }

/-- Offset in codes of the amplifier that serves a phase (R116). -/
def State.izero (s : State) (n : Mcn) (p : Fin 3) : Int :=
  let b := grpB (mcG n)
  match p with
  | 0 => s.fi b R.SEN_IZERO_UV.zero_lo
  | 1 => s.fi b R.SEN_IZERO_UV.zero_hi
  | 2 => s.fi b R.SEN_IZERO_WS.zero_lo

/-- Current roles hold (R111): each keeps the slice and the amplifier that hold at this instant (R118, R129). -/
def State.holdRoles (s : State) (n : Mcn) (ps : List (Fin 3)) : State :=
  s.each ps fun p s => s.modGrp (mcG n) fun g =>
    { g with held := if bitAt g.held p.val then g.held else g.held + 2 ^ p.val
             heldBy := upd g.heldBy p (s.slice (mcG n) p.val), heldZero := upd g.heldZero p (s.izero n p) }

/-- The current delivered to the lanes, with the offset of the amplifier that held (R115, R118). -/
def State.ampsOf (s : State) (n : Mcn) (p : Fin 3) (code : Nat) : Int :=
  sat32 (((code : Int) - 8192 - (s.grp[mcG n]).heldZero[p]) * (s.grp[mcG n]).scale)

/-- Scale of the currents, computed at each entry to ARMED (R115). -/
def State.curScale (s : State) (n : Mcn) : Int :=
  let b := grpB (mcG n)
  let gain : Int := 5 * 2 ^ s.f (eff b) R.SEN_AMP.gain
  qdiv (3 * 16384 * 1000000000) (gain * s.f (eff b) R.SEN_AMP.shunt_uohm * s.iBase n)

/-- A current result: its register and the clip counter (R130, R131). -/
def State.currentResult (s : State) (n : Mcn) (p : Fin 3) (code : Nat) : State :=
  let g := mcG n
  let x := s.grp[g]
  let w := resultWord code x.heldBy[p] (0x800 + (8 + p.val) * 128 + x.curPass)
  let s := s.setWord (grpB g + 0x34 + p.val) w
  let s := if code = 0 ∨ code = 16383 then s.inc (grpB g) R.SEN_CNT.amp_clip else s
  let s := if s.gst g R.SEN_DMA_CTL.cur_dma = 1 then s.dmaPush g w else s
  let i := s.ampsOf n p code
  s.modGrp g fun x => { x with codes := upd x.codes p code, amps := upd x.amps p i }

/-! ## Amplifiers (R114 to R118) -/

def ampB (n : Mcn) : Nat := grpB (mcG n)
/-- Physical amplifier that serves a phase; 3 is the spare's place. -/
def State.amp (s : State) (n : Mcn) (p : Nat) : Nat := bitsAt (s.word (ampB n + 0x39)).toNat (2 * p) 2
def State.ampSpare (s : State) (n : Mcn) : Bool := !s.fb (ampB n) R.SEN_AMPMAP.no_spare
/-- Unit of the amplifier in a place (class 0x3, R114). -/
def State.ampUnit (s : State) (n : Mcn) (p : Nat) : Nat := unitId 3 (4 * n.val + s.amp n p)

/-- The spare amplifier is retired (R117, R118). -/
def State.ampRetireSpare (s : State) (n : Mcn) : State :=
  let b := ampB n
  let a := s.f b R.SEN_AMPMAP.amp_spare
  let s := s.setF b R.SEN_AMPMAP.retired (s.f b R.SEN_AMPMAP.retired ||| 2 ^ a)
  let s := ((s.setF b R.SEN_AMPMAP.no_spare 1).setF b R.SEN_AMPMAP.amp_spare 0).setF b R.SEN_AMPMAP.spare_conn 0
  (s.modGrp (mcG n) fun x => { x with ampBusy := false }).poolEmpty 3

/-- The steward is to substitute the spare for the amplifier of a phase between two samples (R118). -/
def State.ampWant (s : State) (n : Mcn) (p : Nat) : State :=
  if s.ampSpare n then s.modGrp (mcG n) fun x => { x with ampSwap := some p } else s

/-- The substitution itself (R118): the spare serves the phase, the removed amplifier becomes the spare on the test source,
and each keeps its own offset. -/
def State.ampSwapNow (s : State) (n : Mcn) : State :=
  match (s.grp[mcG n]).ampSwap with
  | none => s
  | some p =>
    let b := ampB n
    let s := s.modGrp (mcG n) fun x => { x with ampSwap := none }
    if s.ampSpare n then
      let a := s.amp n p
      let sp := s.f b R.SEN_AMPMAP.amp_spare
      let f : Fld := ⟨0x39, 2 * p, 2⟩
      let zf := match p with | 0 => R.SEN_IZERO_UV.zero_lo | 1 => R.SEN_IZERO_UV.zero_hi | _ => R.SEN_IZERO_WS.zero_lo
      let z := s.f b zf
      let zs := s.f b R.SEN_IZERO_WS.zero_hi
      let s := ((s.setF b f sp).setF b R.SEN_AMPMAP.amp_spare a).setF b R.SEN_AMPMAP.spare_conn 0
      ((s.setF b zf zs).setF b R.SEN_IZERO_WS.zero_hi z).substituted
    else s

/-- An amplifier event beyond half its limit wears the amplifier; at its limit it is to be substituted (R331). -/
def State.ampWear (s : State) (n : Mcn) (p : Nat) : State :=
  let u := s.ampUnit n p
  let s := s.wear u
  if s.worn u ∧ p < 3 then s.ampWant n p else s

/-- A periodic amplifier check that has run to its verdict (R117): the spare's own test, then the mean difference in codes
against the amplifier whose turn it is. (DESIGN CHOICE, log 34) -/
def State.ampCheck (s : State) (n : Mcn) (spareOk : Bool) (diff : Option Nat) : State :=
  let b := ampB n
  if s.ampSpare n ∧ (s.mc[n]).pwm.running ∧ s.f b R.SEN_AMPCHK.amp_period ≠ 0 then
    let p := (s.grp[mcG n]).ampTurn
    if spareOk then
      match diff with
      | none =>
        -- the comparison has begun: the spare is in parallel with the amplifier of the phase
        (s.setF b R.SEN_AMPMAP.spare_conn (p + 1)).modGrp (mcG n) fun x => { x with ampBusy := true }
      | some d =>
        let tol := s.f b R.SEN_AMPCHK.amp_tol
        let s := if tol < 2 * d then s.ampWear n p else s
        let s := if tol < d then (s.raise (evMc n 7)).ampWant n p else s
        (s.setF b R.SEN_AMPMAP.spare_conn 0).modGrp (mcG n) fun x =>
          { x with ampBusy := false, ampTurn := (p + 1) % 3 }
    else s.ampRetireSpare n
  else s

/-- A check step without an open window for 100 ms ends without a verdict (R117). -/
def State.ampTimeout (s : State) (n : Mcn) : State :=
  if (s.grp[mcG n]).ampBusy then
    (s.setF (ampB n) R.SEN_AMPMAP.spare_conn 0).modGrp (mcG n) fun x =>
      { x with ampBusy := false, ampTurn := (x.ampTurn + 1) % 3 }
  else s

/-- The offset measurement ends: the offsets are stored and judged (R116, R331). -/
def State.offsetEnd (s : State) (n : Mcn) : State :=
  let x := s.grp[mcG n]
  let z (i : Fin 4) (k : Nat) : Int := qdiv (x.offSum[i]) k - 8192
  let b := ampB n
  let s := ((s.setF b R.SEN_IZERO_UV.zero_lo (uns 16 (z 0 64))).setF b R.SEN_IZERO_UV.zero_hi (uns 16 (z 1 64))).setF b
    R.SEN_IZERO_WS.zero_lo (uns 16 (z 2 64))
  let spare : Bool := s.ampSpare n && x.offSpare != 0
  let zs := z 3 (Nat.max 1 x.offSpare)
  let s := if spare then s.setF b R.SEN_IZERO_WS.zero_hi (uns 16 zs) else s
  let lim := s.f b R.SEN_AMPCHK.izero_lim
  -- the spare is judged like the others
  let s := if spare ∧ lim < 2 * zs.natAbs then s.ampWear n 3 else s
  let s := if spare ∧ lim < zs.natAbs then s.raise (evMc n 6) else s
  s.each ([0, 1, 2] : List (Fin 3)) fun p s =>
    let m := (z ⟨p.val, by omega⟩ 64).natAbs
    let s := if lim < 2 * m then s.ampWear n p.val else s
    if lim < m then
      let s := s.raise (evMc n 6)
      if spare ∧ zs.natAbs ≤ lim then s.ampWant n p.val else s
    else s

/-- A phase's sample counts in the offset measurement while the cluster is ARMED (R116). -/
def State.offsetPhase (s : State) (n : Mcn) (p : Fin 3) (code : Nat) : State :=
  s.modGrp (mcG n) fun x =>
    if x.offLeft[p] = 0 then x
    else { x with
      offLeft := upd x.offLeft p (x.offLeft[p] - 1)
      offSum := x.offSum.set p.val (x.offSum[(⟨p.val, by omega⟩ : Fin 4)] + code) }

/-- Samples of some phases, with the spare's code, in the offset measurement (R116); the last ends it. A START that comes
first leaves the offsets as they were. (DESIGN CHOICE, log 34) -/
def State.offsetSample (s : State) (n : Mcn) (ps : List (Fin 3 × Nat)) (spare : Option Nat) : State :=
  let live (s : State) : Bool := ([0, 1, 2] : List (Fin 3)).any fun p => (s.grp[mcG n]).offLeft[p] != 0
  if live s ∧ (s.cl[mcCl n]).st = .armed then
    let s := s.each ps fun (p, c) s => s.offsetPhase n p c
    let s := match spare with
      | some c => s.modGrp (mcG n) fun x => { x with
          offSum := x.offSum.set 3 (x.offSum[(3 : Fin 4)] + c), offSpare := x.offSpare + 1 }
      | none => s
    if live s then s else s.offsetEnd n
  else s

/-! ## Background calibration (R127 to R129) -/

/-- The role of the spare, and the roles in service. -/
def spareRole (g : Grp) : Nat := if g.val < 6 then 4 else 3
def sliceUnit (g : Grp) (slice : Nat) : Nat := unitId 2 (8 * g.val + slice)

/-- The spare slice is retired: the group continues without a spare (R127, R128). -/
def State.sliceRetire (s : State) (g : Grp) : State :=
  let b := grpB g
  let sp := s.slice g (spareRole g)
  let s := s.setF b R.SEN_ROLE.retired (s.f b R.SEN_ROLE.retired ||| 2 ^ sp)
  let f : Fld := ⟨0, 3 * spareRole g, 3⟩
  (((s.setF b f 7).setF b R.SEN_ROLE.no_spare 1).setF b R.SEN_ROLE.cal_active 0).poolEmpty 2

/-- A calibration step begins with the reference check of the spare (R127); a slice at its health limit is retired at its
turn as spare (R331). (DESIGN CHOICE, log 34) -/
def State.calStep (s : State) (g : Grp) (refOk : Bool) : State :=
  let b := grpB g
  if s.fb b R.SEN_CAL.cal_en ∧ !s.fb b R.SEN_ROLE.no_spare ∧ !(s.grp[g]).shadow then
    let sp := s.slice g (spareRole g)
    let u := sliceUnit g sp
    let s := if refOk then s else s.wear u
    if refOk ∧ !s.worn u then
      let s := s.setF b R.SEN_ROLE.suspect (s.f b R.SEN_ROLE.suspect - b2n (bitAt (s.f b R.SEN_ROLE.suspect) sp) * 2 ^ sp)
      (s.setF b R.SEN_ROLE.cal_active 1).modGrp g fun x => { x with shadow := true }
    else s.sliceRetire g
  else s

/-- Does the slice in a role convert: does it hold a sample whose result is not yet ready? -/
def State.roleBusy (s : State) (g : Grp) (role : Nat) : Bool :=
  if g.val < 6 then (if role < 3 then bitAt (s.grp[g]).held role else ((s.grp[g]).slot[(0 : Fin 3)]).isSome)
  else ((s.grp[g]).slot[(⟨role % 3, by omega⟩ : Fin 3)]).isSome

/-- The shadowing ends: the comparison, then the handover of the role between two of its conversions (R127, R128).
(DESIGN CHOICE, log 34) -/
def State.calHandover (s : State) (g : Grp) (diff : Option Nat) : State :=
  let b := grpB g
  if (s.grp[g]).shadow ∧ !s.roleBusy g (s.grp[g]).calNext then
    let role := (s.grp[g]).calNext
    let x := s.slice g role
    let sp := s.slice g (spareRole g)
    let s := match diff with
      | none => s.inc b R.SEN_CNT.cal_skip
      | some d =>
        if s.f b R.SEN_CAL.cal_tol < d then
          ((s.setF b R.SEN_ROLE.suspect (s.f b R.SEN_ROLE.suspect ||| 2 ^ x)).wear (sliceUnit g x)).raise 32
        else s
    let fr : Fld := ⟨0, 3 * role, 3⟩
    let fs : Fld := ⟨0, 3 * spareRole g, 3⟩
    let s := (((s.setF b fr sp).setF b fs x).setF b R.SEN_ROLE.cal_active 0)
    s.modGrp g fun y => { y with shadow := false, calNext := (role + 1) % spareRole g }
  else s

end Sys2Proof.Machine
end

