-- ==== Sys2Proof/Machine/Gate.lean ====
section
/-! DEFINITION. Gate outputs, known shorts, the active short and the region power stage (09_gate_drive_and_power_stage R249
to R277). -/

namespace Sys2Proof.Machine

/-! ## Outputs and segments -/

/-- Gate output of switch s of MCn (R249). -/
def swOut (n : Mcn) (sw : Fin 6) : Fin 40 := ⟨6 * n.val + sw.val, by omega⟩
/-- Brake output and reverse-battery output of a region. -/
def brkOut (r : Rg) : Fin 40 := ⟨36 + r.val, by omega⟩
def rbgOut (r : Rg) : Fin 40 := ⟨38 + r.val, by omega⟩
/-- The motor cluster and switch of an output, if it is a motor switch. -/
def outMc (o : Fin 40) : Option (Mcn × Fin 6) :=
  if h : o.val < 36 then some (⟨o.val / 6, by omega⟩, ⟨o.val % 6, by omega⟩) else none
/-- The region of an output. -/
def outRg (o : Fin 40) : Rg := if o.val < 18 ∨ o.val = 36 ∨ o.val = 38 then 0 else 1
/-- The six switches; even numbers are high sides (R58). -/
def allSw : List (Fin 6) := [0, 1, 2, 3, 4, 5]
/-- Switches of a side: true is high. -/
def sideSw (high : Bool) : List (Fin 6) := if high then [0, 2, 4] else [1, 3, 5]
/-- The other switch of the same leg. -/
def otherSw (sw : Fin 6) : Fin 6 := if sw.val % 2 = 0 then ⟨(sw.val + 1) % 6, by omega⟩ else ⟨sw.val - 1, by omega⟩

def GPhase.isOn : GPhase → Bool
  | .on1 | .on2 | .onHold => true
  | .off | .soft | .offHold => false

def State.gate (s : State) (o : Fin 40) : GateOut := s.gates[o]
def State.modGate (s : State) (o : Fin 40) (g : GateOut → GateOut) : State :=
  { s with gates := upd s.gates o (g s.gates[o]) }
/-- Is a switch commanded on? -/
def State.swOn (s : State) (n : Mcn) (sw : Fin 6) : Bool := (s.gate (swOut n sw)).phase.isOn

/-- Number of set bits among the low 36. -/
def popc (m : Nat) : Nat := (List.range 36).foldl (fun c b => c + b2n (bitAt m b)) 0

/-- A turn-on or turn-off command that a switch receives while it is the hard-switching one of its leg: the high side while
the phase current is positive, the low side while it is negative (R301). -/
def State.switched (s : State) (o : Fin 40) (on : Bool) : State :=
  match outMc o with
  | some (n, sw) =>
    let i := (s.grp[mcG n]).amps[(⟨sw.val / 2, by omega⟩ : Fin 3)]
    if (if sw.val % 2 = 0 then 0 < i else i < 0) then
      s.modModel n sw fun m => if on then { m with nOn := m.nOn + 1 } else { m with nOff := m.nOff + 1 }
    else s
  | none => s

/-- Turn-on command (R251): stage 1 is skipped when t_on1 is 0. A tripped switch stays off (R261); a switch in soft-off
completes it first (R277). -/
def State.turnOn (s : State) (o : Fin 40) : State :=
  let g := s.gate o
  if g.tripped ∨ g.phase = .soft ∨ g.phase.isOn then s
  else
    let ph := match outMc o with
      | some (n, _) => if s.f (s.act n) R.MC_GD_ON.t_on1 = 0 then GPhase.on2 else .on1
      | none => .on2
    (s.switched o true).modGate o fun g => { g with phase := ph, cmdAt := s.now, onAt := s.now }

/-- Turn-off command (R251). -/
def State.turnOff (s : State) (o : Fin 40) : State :=
  if (s.gate o).phase.isOn then (s.switched o false).modGate o fun g => { g with phase := .off, cmdAt := s.now } else s

/-- Soft-off command (R251, R261). -/
def State.softOff (s : State) (o : Fin 40) : State :=
  s.modGate o fun g => { g with phase := .soft, cmdAt := s.now }

/-- The device uses the reset values of the ladder until READY and in RECOVERY (R270, R363). -/
def State.early (s : State) : Bool :=
  match s.dev.st with
  | .off | .basecamp | .verify | .recovery => true
  | _ => false

/-- A field of the region's ladder in force. -/
def State.ovF (s : State) (r : Rg) (f : Fld) : Nat :=
  if s.early then f.get (regReset (rgB r + f.off)) else s.f (s.actPkg + rgB r) f

/-- Ticks from its command until the present phase of an output ends (R251): t_on1 is in 4 ns, t_tr and t_soft are in 20 ns.
The spec gives a reverse-battery output no timer. (DEDUCED, log 44) -/
def State.phaseTicks (s : State) (o : Fin 40) : Nat :=
  let t (m : Fld) (b : Fld) : Nat :=
    match outMc o with
    | some (n, _) => s.f (s.act n) m
    | none => if o.val < 38 then s.ovF (outRg o) b else 0
  match (s.gate o).phase with
  | .on1 => match outMc o with
    | some (n, _) => s.f (s.act n) R.MC_GD_ON.t_on1 * 2
    | none => 0
  | .on2 | .off => t R.MC_GD_TIME.t_tr R.RG_BRK_DESAT.t_tr * 10
  | .soft => t R.MC_GD_TIME.t_soft R.RG_BRK_DESAT.t_soft * 10
  | .onHold | .offHold => 0

/-- Has the present phase of an output run its time? (DEDUCED, log 44) -/
def State.phaseOver (s : State) (o : Fin 40) : Bool := decide ((s.gate o).cmdAt + s.phaseTicks o ≤ s.now)

/-- A gate phase ends on its timer (R251). -/
def State.phaseEnd (s : State) (o : Fin 40) : State :=
  s.modGate o fun g =>
    match g.phase with
    | .on1 => { g with phase := .on2 }
    | .on2 => { g with phase := .onHold, endAt := s.now }
    | .off | .soft => { g with phase := .offHold, endAt := s.now }
    | .onHold | .offHold => g

/-- Every switch of a motor cluster off. -/
def State.swAllOff (s : State) (n : Mcn) : State :=
  (s.each allSw fun sw s => s.turnOff (swOut n sw)).modMc n fun m => { m with vD := 0, vQ := 0 }

/-! ## The record of known shorts and the active short (R262 to R267) -/

def State.known (s : State) (n : Mcn) : Nat := s.f (mcB n) R.MC_GATE_SHORT.known
/-- Is a switch of a side known shorted? -/
def State.knownSide (s : State) (n : Mcn) (high : Bool) : Bool := (sideSw high).any fun sw => bitAt (s.known n) sw.val

/-- Side of the active short by the record (R264): some true is high, some false low, none all switches off. -/
def State.safeSide (s : State) (n : Mcn) : Option Bool :=
  let hi := s.knownSide n true
  let lo := s.knownSide n false
  if (hi && lo) || s.fb (mcB n) R.MC_GATE_SHORT.same_window then none else some hi

/-- Does the OV2 action apply in the region of a cluster? -/
def State.ov2 (s : State) (r : Rg) : Bool := s.fb (rgB r) R.RG_PS_STAT.ov2_act
def State.ov3 (s : State) (r : Rg) : Bool := s.fb (rgB r) R.RG_PS_STAT.ov3_latch

/-- Is an active short called for (R264): the safe state of a motor cluster, the short path of a recovery, or the OV2
action? -/
def State.wantShort (s : State) (n : Mcn) : Bool :=
  let st := (s.cl[mcCl n]).st
  !s.conv n &&
    (st == .safe || (s.mc[n]).dieSafe || (st.moving && (s.ov2 (clRg (mcCl n)) || (s.mc[n]).est.recPath == some .short
      || (s.mc[n]).est.brake.isSome)))

/-- Is the modulator in command of the switches: the cluster drives its outputs, and no coast path, probe or supply keeps
them off? -/
def State.modulates (s : State) (n : Mcn) : Bool :=
  let m := s.mc[n]
  let ph := s.f (mcB n) R.MC_EST_STAT.phase
  (s.cl[mcCl n]).st.moving && m.short == .none && m.est.recPath.isNone && !m.est.failed && ph != 1
    && (s.conv n || (s.cl[mcCl n]).st != .starting || m.dat.valid || ph != 0)
    && !(s.conv n && (s.ov2 (clRg (mcCl n)) || s.fb (mcB n) R.MC_CONV_STAT.vlo_off))

/-- A switch of the cluster is in soft-off. -/
def State.softRuns (s : State) (n : Mcn) : Bool := allSw.any fun sw => (s.gate (swOut n sw)).phase == .soft

/-- The short of a side begins: the other side turns off, and the side's turn-on follows after the dead time (R265). -/
def State.shortEnter (s : State) (n : Mcn) (high : Bool) : State :=
  let s := s.each (sideSw (!high)) fun sw s => s.turnOff (swOut n sw)
  s.modMc n fun m => { m with short := .entering high, vD := 0, vQ := 0 }

/-- All switches of a cluster held off until its next entry to ARMED (R264, R266, R267). -/
def State.holdAllOff (s : State) (n : Mcn) : State :=
  (s.swAllOff n).modMc n fun m => { m with short := .allOff }

/-- The switches obey the highest claim of R277: loss of the hold supply, the OV3 latch, all switches off, an active
short, and otherwise the modulator, or all off where nothing drives them. A switch in soft-off completes it before a
short is entered (R265). (DEDUCED, log 44) -/
def State.gateApply (s : State) (n : Mcn) : State :=
  let r := clRg (mcCl n)
  let m := s.mc[n]
  if (s.link[r]).holdLost ∨ s.ov3 r then
    (s.swAllOff n).modMc n fun m => { m with short := if m.short = .allOff then .allOff else .none }
  else if m.short = .allOff then s.swAllOff n
  else if m.precharge ∧ (s.cl[mcCl n]).st = .armed then s
  else if s.wantShort n then
    if s.softRuns n then s
    else
      match s.safeSide n, m.short with
      | none, _ => (s.holdAllOff n).raise (evMc n 20)
      | some h, .held h' => if h = h' then s else s.shortEnter n h
      | some h, .entering h' => if h = h' then s else s.shortEnter n h
      | some h, _ => s.shortEnter n h
  else
    let s := s.modMc n fun m => { m with short := .none }
    if s.modulates n then s else s.swAllOff n

/-- Has dead_time passed since the commands of the other side of a short, with no soft-off of it still running (R265)? -/
def State.sideClear (s : State) (n : Mcn) (high : Bool) : Bool :=
  let d := s.f (s.act n) R.MC_PWM_DT.dead_time
  (sideSw (!high)).all fun sw =>
    let g := s.gate (swOut n sw)
    g.phase != .soft && decide (g.cmdAt + d ≤ s.now)

/-- Dead time after the other side has turned off, the short's side turns on (R265); a high-side short stops the carrier
and is held by the hold pumps (R266). -/
def State.shortOn (s : State) (n : Mcn) : State :=
  match (s.mc[n]).short with
  | .entering h =>
    s.onlyIf (s.sideClear n h) fun s =>
    let s := s.each (sideSw h) fun sw s => s.turnOn (swOut n sw)
    s.modMc n fun m => { m with short := .held h, pwm := if h then { m.pwm with running := false } else m.pwm }
  | _ => s

/-- The record gains a bit; a short held is chosen afresh at once (R262, R264). -/
def State.markShort (s : State) (n : Mcn) (sw : Fin 6) : State :=
  let s := s.setF (mcB n) R.MC_GATE_SHORT.known (s.known n ||| 2 ^ sw.val)
  match (s.mc[n]).short with
  | .held _ | .entering _ => s.gateApply n
  | _ => s

/-- Blanking time of a cluster in ticks (R258). -/
def State.blank (s : State) (n : Mcn) : Nat := (s.f (s.act n) R.MC_GD_DESAT.t_blank + 1) * 125

/-- Is the active short held? -/
def State.shortHeld (s : State) (n : Mcn) : Bool :=
  match (s.mc[n]).short with
  | .held _ => true
  | _ => false

/-- Has a switch of the other side hard-short tripped within the blanking time (R262)? -/
def State.hardNear (s : State) (n : Mcn) (other : Fin 2) : Bool :=
  match (s.mc[n]).hardAt[other] with
  | some t => decide (s.now - t ≤ s.blank n)
  | none => false

/-- The records of a hard-short trip (R262): the counter, the sticky bit, the other switch of the leg known shorted while it
is not commanded on, and the two sides within one blanking time. -/
def State.hardShort (s : State) (n : Mcn) (sw : Fin 6) : State :=
  let b := mcB n
  let s := s.inc b R.MC_GATE_CNT.hard_count
  let s := s.setF b R.MC_GATE_SHORT.hard_sticky (s.f b R.MC_GATE_SHORT.hard_sticky ||| 2 ^ sw.val)
  let s := if s.swOn n (otherSw sw) then s
    else s.setF b R.MC_GATE_SHORT.known (s.known n ||| 2 ^ (otherSw sw).val)
  let side : Fin 2 := if sw.val % 2 = 0 then 0 else 1
  let near := s.hardNear n (if sw.val % 2 = 0 then 1 else 0)
  let s := s.modMc n fun m => { m with hardAt := upd m.hardAt side (some s.now) }
  if near then s.setF b R.MC_GATE_SHORT.same_window 1 else s

/-- The trip of a motor switch (R261, R262, R267). -/
def State.trip (s : State) (n : Mcn) (sw : Fin 6) (hard : Bool) : State :=
  let o := swOut n sw
  let b := mcB n
  let held := s.shortHeld n
  let s := (s.softOff o).modGate o fun g => { g with tripped := true }
  let s := s.inc b R.MC_GATE_CNT.desat_count
  let s := s.setF b R.MC_GATE_SHORT.trip_sticky (s.f b R.MC_GATE_SHORT.trip_sticky ||| 2 ^ sw.val)
  let s := if hard then s.hardShort n sw else s
  let s := s.raise (evMc n 19)
  if held then (s.holdAllOff n).raise (evMc n 20) else s

/-! ## Segments (R250, R252, R331) -/

/-- Segment k of a direction of an output: the unit (R249). -/
def segUnit (o : Fin 40) (d : Fin 2) (k : Nat) : Nat := 0x5000 + 72 * o.val + 36 * d.val + k

/-- Is an output in a turn-on phase (direction 0, source) or in its turn-off phase (direction 1, sink), in which the shares
of the segments are compared (R252)? -/
def GateOut.compares (g : GateOut) (d : Fin 2) : Bool :=
  match g.phase with
  | .on1 | .on2 => d == 0
  | .off => d == 1
  | .onHold | .soft | .offHold => false

/-- A segment outside ±20 % of the mean share: switched off, counted and waiting for a spare (R252).
(DEDUCED, log 44) -/
def State.segFault (s : State) (o : Fin 40) (d : Fin 2) (k : Nat) : State :=
  if (s.gate o).compares d ∧ bitAt ((s.gate o).inServ[d]) k then
    let s := s.modGate o fun g =>
      { g with inServ := upd g.inServ d (g.inServ[d] - 2 ^ k), want := upd g.want d (g.want[d] + 1) }
    (s.wear (segUnit o d k)).raise 36
  else s

/-- The lowest set bit of a mask of 36. -/
def lowBit (m : Nat) : Option Nat := (List.range 36).find? (bitAt m)

/-- The steward substitutes a spare of the direction within a hold phase, 100 ns after the switching phase or later (R252);
the pool's last spare is noted (R333). -/
def State.segSub (s : State) (o : Fin 40) (d : Fin 2) : State :=
  let g := s.gate o
  if 0 < g.want[d] ∧ (g.phase = .onHold ∨ g.phase = .offHold) ∧ g.endAt + 50 ≤ s.now then
    match lowBit g.spare[d] with
    | some k =>
      let s := s.modGate o fun g =>
        { g with inServ := upd g.inServ d (g.inServ[d] + 2 ^ k), spare := upd g.spare d (g.spare[d] - 2 ^ k)
                 want := upd g.want d (g.want[d] - 1) }
      let s := s.substituted
      if (s.gate o).spare[d] = 0 then s.poolEmpty 5 else s
    | none => s.modGate o fun g => { g with want := upd g.want d 0 }
  else s

/-- A gate fault (R253). -/
def State.gateFault (s : State) (o : Fin 40) : State :=
  let s := s.wear (0x4000 + o.val)
  match outMc o with
  | some (n, sw) =>
    let s := (s.inc (mcB n) R.MC_GATE_CNT.gate_fault_count).raise (evMc n 17)
    if (s.gate o).phase.isOn then s else s.markShort n sw
  | none => s.raise (evRg (outRg o) 7)

/-! ## Bootstrap (R255, R256) -/

/-- A carrier period ends: the run counts of the comparators (R256). -/
def State.bstPeriod (s : State) (n : Mcn) : State :=
  let any := (s.mc[n]).bstNow[(0 : Fin 3)] || (s.mc[n]).bstNow[(1 : Fin 3)] || (s.mc[n]).bstNow[(2 : Fin 3)]
  let s := if any then s.inc (mcB n) R.MC_GATE_CNT.bst_uv_count else s
  s.each ([0, 1, 2] : List (Fin 3)) fun p s =>
    if (s.mc[n]).bstNow[p] then
      let run := (s.mc[n]).bstRun[p] + 1
      let s := s.modMc n fun m => { m with bstNow := upd m.bstNow p (bitAt (s.f (mcB n) R.MC_GATE_STAT.bst_uv) p.val)
                                           bstRun := upd m.bstRun p run }
      if run = s.f (s.act n) R.MC_GD_BST.bst_uv_n then s.raise (evMc n 18) else s
    else s.modMc n fun m => { m with bstRun := upd m.bstRun p 0 }

/-! ## The region power stage (R269 to R276) -/

def State.modRg (s : State) (r : Rg) (g : Region → Region) : State := { s with rg := upd s.rg r (g s.rg[r]) }

/-- The chopper's protections run while the region's VCC is above its undervoltage threshold (R270). -/
def State.chopLives (s : State) (r : Rg) : Bool := s.dev.st != .off && !(s.link[r]).supplyLost

/-- The brake switch turns off, and its on-time is counted (R302). -/
def State.chopOff (s : State) (r : Rg) : State :=
  let s := s.modRg r fun x => { x with
    onTicks := x.onTicks + (match x.onSince with | some t => s.now - t | none => 0), onSince := none }
  (s.setF (rgB r) R.RG_PS_STAT.chop_on 0).turnOff (brkOut r)

/-- The chopper switches on or off; its 2 us minimum time starts (R270). -/
def State.chopSet (s : State) (r : Rg) (on : Bool) : State :=
  let b := rgB r
  let s := s.modRg r fun x => { x with chopWant := on }
  if (s.rg[r]).chopMin ∨ s.fb b R.RG_PS_STAT.chop_on = on then s
  else if on ∧ (s.fb b R.RG_PS_STAT.chop_desat ∨ s.ov3 r ∨ (s.link[r]).holdLost) then s
  else
    let s := s.modRg r fun x => { x with chopMin := true, chopAt := s.now }
    if on then
      let s := (s.setF b R.RG_PS_STAT.chop_on 1).turnOn (brkOut r)
      let c := (s.rg[r]).chopCnt + 1
      let s := s.modRg r fun x => { x with
        chopCnt := c % 256, onSince := some s.now, turnOns := x.turnOns + 1, checks := x.checks ++ [s.now] }
      if c = 256 then s.inc b R.RG_PS_CNT.chop_count else s
    else s.chopOff r

/-- The switches of every motor cluster of a region follow the claims of R277. -/
def State.gateApplyRg (s : State) (r : Rg) : State := s.each (rgMcs r) fun n s => s.gateApply n

/-- The OV2 action begins (R271). -/
def State.ov2Begin (s : State) (r : Rg) : State :=
  let b := rgB r
  if s.fb b R.RG_PS_STAT.ov2_act then s
  else
    let s := (s.setF b R.RG_PS_STAT.ov2_act 1).inc b R.RG_PS_CNT.ov2_count
    let s := s.assertOn (evRg r 0)
    let s := s.each (rgMcs r) fun n s =>
      if (s.cl[mcCl n]).st.moving then
        s.modMc n fun m => { m with loops := m.loops.map fun l => { l with started := false } }
      else s
    s.gateApplyRg r

/-- The bus level register follows what has been reached (R269). -/
def State.busLevel (s : State) (r : Rg) (l : Nat) : State := s.setF (rgB r) R.RG_PS_STAT.level l

/-- Is the chopper faulty (R274)? -/
def State.chopFaulty (s : State) (r : Rg) : Bool :=
  s.fb (rgB r) R.RG_PS_STAT.chop_desat || s.fb (rgB r) R.RG_PS_STAT.chop_noeffect

/-- VS reaches a threshold: 1 ov1, 2 ov2, 3 ov3 (R269 to R273). -/
def State.ovReach (s : State) (r : Rg) (k : Nat) : State :=
  if s.chopLives r then
    let s := s.modRg r fun x => { x with vsTop := Nat.max x.vsTop k }
    let s := s.busLevel r (Nat.max (s.f (rgB r) R.RG_PS_STAT.level) k)
    let s := s.chopSet r true
    let s := if s.chopFaulty r then s.ov2Begin r else s
    let s := if 2 ≤ k then s.ov2Begin r else s
    if 3 ≤ k ∧ !s.ov3 r then
      let s := ((s.setF (rgB r) R.RG_PS_STAT.ov3_latch 1).inc (rgB r) R.RG_PS_CNT.ov3_count).assertOn (evRg r 1)
      (s.chopOff r).gateApplyRg r
    else s
  else s

/-- VS falls below ov1 - ov1_hyst (R270). While the OV2 action or the OV3 latch holds, the level stays (R269). -/
def State.ovFall (s : State) (r : Rg) : State :=
  if s.chopLives r then
    let s := s.modRg r fun x => { x with vsTop := 0, lowAt := if x.vsTop = 0 then x.lowAt else s.now }
    let s := s.chopSet r false
    if s.ov3 r then s else if s.ov2 r then s else s.busLevel r 0
  else s

/-- VS below ov2, as far as the comparators have told: certain below it until it is reached, and open from then until VS
is next below ov1 - ov1_hyst. (DESIGN CHOICE, log 45) -/
def State.vsBelowOv2 (s : State) (r : Rg) : Bool :=
  if (s.rg[r]).vsTop < 2 then true else bitAt s.freeNat 0

/-- A chopper fault is found (R274): the OV2 action applies at once if VS is at or above ov1. -/
def State.chopFault (s : State) (r : Rg) (desat : Bool) : State :=
  let s := s.setF (rgB r) (if desat then R.RG_PS_STAT.chop_desat else R.RG_PS_STAT.chop_noeffect) 1
  let s := s.assertOn (evRg r 2)
  let s := if desat then s.chopOff r else s
  if 1 ≤ (s.rg[r]).vsTop then s.ov2Begin r else s

/-- May the gate be on: it is in use, no reverse lockout runs, and VCC holds gates? -/
def State.rbgMay (s : State) (r : Rg) : Bool :=
  s.fb (rgB r) R.RG_RBG_CFG.rbg_en && !s.fb (rgB r) R.RG_PS_STAT.rbg_rev && !(s.link[r]).holdLost

/-- The reverse-battery gate is commanded on or off (R275). -/
def State.rbgSet (s : State) (r : Rg) (on : Bool) : State :=
  let s := s.setF (rgB r) R.RG_PS_STAT.rbg_on (b2n on)
  if on then s.turnOn (rbgOut r) else s.turnOff (rbgOut r)

/-- A reverse-battery switch that is not in use is held off; one that comes into use turns on when RBS is at 6.0 V or more
(R275). RBS has been there and has not fallen below 5.5 V: whether it is there now is a free value. (DESIGN CHOICE, log 45) -/
def State.rbgHeld (s : State) (r : Rg) : State :=
  if s.fb (rgB r) R.RG_RBG_CFG.rbg_en then
    if (s.rg[r]).rbsHigh ∧ s.rbgMay r ∧ !s.fb (rgB r) R.RG_PS_STAT.rbg_on then
      let there := bitAt s.freeNat 0
      s.drawn.onlyIf there fun s => s.rbgSet r true
    else s
  else s.rbgSet r false

end Sys2Proof.Machine
end

