-- ==== Sys2Proof/Machine/Datum.lean ====
section
/-! DEFINITION. The datum and the graticule's bookkeeping (02_datum_and_graticule R49 to R72): extrapolation, prediction of
edge times, live and spent entries, datum updates, references, and the selection of the synchronous carrier. -/

namespace Sys2Proof.Machine

/-- Counts of 125 ps in a second. -/
def hz16 : Int := 8000000000

/-- Turns times 2^32 travelled from the latest update to an instant (R49): speed Q16.16 Hz, acceleration Q16.16 Hz/ms.
(DEDUCED, log 29) -/
def Datum.travel (d : Datum) (t : Int) : Int :=
  let dt := t - d.ts
  qdiv (d.speed * dt * 65536) hz16 + qdiv (d.acc * 1000 * dt * dt * 65536) (2 * hz16 * hz16)

/-- The angle code reported at an instant (R49, R52). -/
def Datum.at (d : Datum) (t : Int) : Nat :=
  if d.valid then uns 32 ((d.angle : Int) + d.travel t) else d.angle

/-- The speed reported at an instant, Q16.16 Hz (R49, R52). -/
def Datum.speedAt (d : Datum) (t : Int) : Int :=
  if d.valid then sat32 (d.speed + qdiv (d.acc * 1000 * (t - d.ts)) hz16) else 0

/-- Distance from an angle forward to a target along the rotation, as a code of a turn (R60). -/
def ahead (rev : Bool) (angle target : Nat) : Nat :=
  if rev then uns 32 ((angle : Int) - target) else uns 32 ((target : Int) - angle)

/-- Edge time of a target by one Newton step (R55), rounded once to 125 ps; none when the target is not reached within
100 ms or never. With the distance D in 2^-32 turns, the speed w in Q16.16 Hz and the acceleration a in Q16.16 Hz/s along
the rotation, t0 = D / 2^16 w, den = (2^16 w² + a D) / 2^32 w and t = D (2^17 w² + a D) / 2^17 w (2^16 w² + a D), in
seconds. (DEDUCED, log 29) -/
def Datum.predict (d : Datum) (target : Nat) : Option Int :=
  let dist : Int := ahead d.rev d.angle target
  let w : Int := d.speed.natAbs
  let a : Int := d.acc * 1000 * (if d.rev then -1 else 1)
  let den := 65536 * w * w + a * dist
  if w = 0 ∨ den ≤ 0 ∨ 65536 * w < 10 * dist then none
  else some (d.ts + rdiv (hz16 * dist * (131072 * w * w + a * dist)) (131072 * w * den))

/-- A field of graticule entry k in the active set. -/
def State.gf (s : State) (n : Mcn) (k : Fin 64) (f : Fld) : Nat := s.f (s.act n + 2 * k.val) f

/-- Is the entry enabled (R58)? -/
def State.gOn (s : State) (n : Mcn) (k : Fin 64) : Bool := s.gf n k R.MC_GRAT_CTL.type != 0

/-- The 64 entries. -/
def allK : List (Fin 64) := List.finRange 64

/-- Does an entry act when it fires: its direction is admitted (R61) and its type fires in the cluster's state (R64)? -/
def State.gActs (s : State) (n : Mcn) (k : Fin 64) : Bool :=
  let dir := s.gf n k R.MC_GRAT_CTL.dir
  let ty := s.gf n k R.MC_GRAT_CTL.type
  let dirOk := if (s.mc[n]).dat.rev then bitAt dir 1 else bitAt dir 0
  let stOk := match (s.cl[mcCl n]).st with
    | .unused => false
    | .stopped | .safe | .faulted => ty == 2 || ty == 8
    | .armed => [2, 3, 6, 7, 8].contains ty
    | .starting | .running | .stopping => true
  dirOk && stOk

/-- The target angle of an entry measured against its reference (R59), with the advance that a COMMUTATE entry with ref 1
fires earlier by (R95). -/
def State.gTarget (s : State) (n : Mcn) (k : Fin 64) : Option Nat :=
  let m := s.mc[n]
  let ang := (m.grat[k]).target
  match s.gf n k R.MC_GRAT_CTL.ref with
  | 1 =>
    let adv : Int := if s.gf n k R.MC_GRAT_CTL.type = 1 then m.pwm.heldAdv else 0
    m.ref1.map fun r => uns 32 ((r : Int) + ang - (if m.dat.rev then -adv else adv))
  | 2 => m.ref2.map fun r => uns 32 ((r : Int) + ang)
  | _ => some ang

/-- Live or spent from the distance ahead: live when it is half a turn or less (R60, R61, R65). -/
def liveAt (d : Nat) : Bool := d ≤ 0x80000000

/-- An edge time within 2 us of now is committed: no datum update moves it (R56). -/
def State.within2us (s : State) (t : Option Int) : Bool :=
  match t with
  | some t => decide (t ≤ s.now16 + 16000)
  | none => false

/-- Is the edge time of an entry committed (R56)? -/
def State.gHeld (s : State) (e : GEntry) : Bool := e.edge.isSome && (e.committed || s.within2us e.edge)

/-- The edge time of an entry predicted afresh in prediction mode; a time already past marks a late firing at the next
tick (R55, R57). -/
def State.gPredict (s : State) (n : Mcn) (k : Fin 64) : State :=
  let m := s.mc[n]
  match s.gTarget n k with
  | none => s.modEntry n k fun e => { e with edge := none, committed := false, late := false }
  | some tgt =>
    match m.dat.predict tgt with
    | none => s.modEntry n k fun e => { e with edge := none, committed := false, late := false }
    | some t =>
      if t < s.now16 then
        s.modEntry n k fun e => { e with edge := some (s.now16 + 16), committed := true, late := true }
      else s.modEntry n k fun e => { e with edge := some t, committed := false, late := false }

/-- The entry made spent: it loses its edge time (R56). -/
def GEntry.spend (e : GEntry) : GEntry := { e with live := false, edge := none, committed := false, late := false }

/-- An entry becomes live or stays so by a re-evaluation: a committed edge time holds while the entry stays live, and
otherwise it is predicted afresh (R56, R59, R61). (DESIGN CHOICE, log 77) -/
def State.gLive (s : State) (n : Mcn) (k : Fin 64) : State :=
  let m := s.mc[n]
  let e := m.grat[k]
  if e.live ∧ s.gHeld e then s.modEntry n k fun e => { e with committed := true }
  else
    let s := s.modEntry n k fun e => { e.spend with live := true }
    if m.dat.predicted then s.gPredict n k else s

/-- One entry after a datum update (R54 to R57, R60, R61): `turned` says that the direction of rotation changed. A spent
entry at its target exactly stays spent, and a committed entry is not moved, nor dropped where its time passed while the datum
was invalid. (DESIGN CHOICE, log 77) -/
def State.gUpdate (s : State) (n : Mcn) (turned : Bool) (k : Fin 64) : State :=
  if s.gOn n k then
    match s.gTarget n k with
    | none => s
    | some tgt =>
      let m := s.mc[n]
      let e := m.grat[k]
      let d := ahead m.dat.rev (m.dat.at s.now16) tgt
      if turned then (if liveAt d then s.gLive n k else s.modEntry n k GEntry.spend)
      else if e.live then
        if s.gHeld e then s.modEntry n k fun e => { e with committed := true }
        else if 0xC0000000 < d then
          -- jumped over: it fires at the next tick, late in prediction mode
          s.modEntry n k fun e =>
            { e with edge := some (s.now16 + 16), committed := true, late := m.dat.predicted }
        else if m.dat.predicted then s.gPredict n k
        else s.modEntry n k fun e => { e with edge := none, late := false }
      else if liveAt d ∧ 0 < d then s.gLive n k
      else s
  else s

/-- Every enabled entry takes its state from the datum angle, with no edge time kept but those of the entries that `keep`
names (R65), as at an entry to ARMED. (DESIGN CHOICE, log 77) -/
def State.gReeval (s : State) (n : Mcn) (keep : Fin 64 → Bool) : State :=
  s.each allK fun k s =>
    if keep k then s
    else if s.gOn n k then
      match s.gTarget n k with
      | none => s.modEntry n k GEntry.spend
      | some tgt =>
        let m := s.mc[n]
        if liveAt (ahead m.dat.rev (m.dat.at s.now16) tgt) then (s.modEntry n k GEntry.spend).gLive n k
        else s.modEntry n k GEntry.spend
    else s.modEntry n k GEntry.spend

/-- A reference of R59 moves: every enabled entry with that ref is re-evaluated, except the entry whose firing moved it;
live only when 0 < d ≤ 0.5. -/
def State.refMoved (s : State) (n : Mcn) (ref : Nat) (but : Option (Fin 64)) : State :=
  s.each allK fun k s =>
    if s.gf n k R.MC_GRAT_CTL.ref ≠ ref ∨ some k = but ∨ !s.gOn n k then s
    else
      match s.gTarget n k with
      | none => s.modEntry n k GEntry.spend
      | some tgt =>
        let m := s.mc[n]
        let d := ahead m.dat.rev (m.dat.at s.now16) tgt
        if 0 < d ∧ liveAt d then s.gLive n k else s.modEntry n k GEntry.spend

/-! ## The synchronous carrier -/

/-- Entries, thresholds and ratios of the active contour (R66). -/
def State.scN (s : State) (n : Mcn) : Nat := s.f (s.act n) R.MC_SCAR_CFG.n_entries
def State.scEnt (s : State) (n : Mcn) (f : Fld) (j : Nat) : Nat := s.f (s.act n + j) f

/-- The upward and downward walks of R68; entries are counted from 1, with 0 for asynchronous. -/
def scUp (n : Nat) (up : Nat → Nat) (speed : Int) : Nat → Nat → Nat
  | 0, e => e
  | fuel + 1, e => if e < n ∧ (up e : Int) * 65536 ≤ speed then scUp n up speed fuel (e + 1) else e
def scDown (down : Nat → Nat) (speed : Int) : Nat → Nat → Nat
  | 0, e => e
  | fuel + 1, e => if 0 < e ∧ speed < (down (e - 1) : Int) * 65536 then scDown down speed fuel (e - 1) else e

/-- The entry selected at a ratio crossing at a speed (R68), counted from 1. -/
def State.scSelect (s : State) (n : Mcn) (speed : Int) : Nat :=
  let cnt := s.scN n
  let present := match (s.mc[n]).scar.entry with | none => 0 | some e => e + 1
  let e0 := if s.fb (s.act n) R.MC_SCAR_CFG.enable then Nat.min present cnt else 0
  if s.fb (s.act n) R.MC_SCAR_CFG.enable then
    let e1 := scUp cnt (s.scEnt n R.MC_SCAR_ENT.f_up) speed.natAbs 8 e0
    if e1 = e0 then scDown (s.scEnt n R.MC_SCAR_ENT.f_down) speed.natAbs 8 e0 else e1
  else 0

/-- The asynchronous frequency of the active set, in Hz (R83). -/
def State.fAsync (s : State) (n : Mcn) : Nat := s.f (s.act n) R.MC_PWM_CARRIER.f_async

/-- Lowest and highest carrier frequency of the personality in Hz (R83). -/
def State.fRange (s : State) (n : Mcn) : Nat × Nat := if s.conv n then (20000, 400000) else (4000, 100000)

/-- Period in ticks of a frequency of `f` / `d` Hz, rounded to the nearest multiple of 4 ns (R83). -/
def periodTicks (f : Nat) (d : Nat := 1) : Nat := if f = 0 then 0 else 2 * (rdiv (250000000 * d : Nat) f).toNat

/-- Period of the asynchronous carrier in ticks, with the frequency factor in force, never longer than the range allows
(R83, R307). -/
def State.asyncPeriod (s : State) (n : Mcn) : Nat :=
  Nat.min (periodTicks (s.fAsync n * (s.mc[n]).pwm.kf) 16) (periodTicks (s.fRange n).1)

/-- The carrier leaves synchronous operation at once: an asynchronous period starts at the next tick (R72). Leaving
six-step discards nothing else; the loops start afresh by R181. -/
def State.scLeave (s : State) (n : Mcn) : State :=
  let m := s.mc[n]
  if m.scar.entry.isSome then
    let s := s.modMc n fun m =>
      { m with
        scar := { m.scar with entry := none, ratio := 0, clamp := false }
        pwm := { m.pwm with virt := false, bridging := false, endAt := none, rising := true, zeroAt := s.now + 1,
                            period := s.asyncPeriod n }
        loops := if m.scar.ratio = 1 then m.loops.map (fun l => { l with started := false }) else m.loops }
    s.setF (mcB n) R.MC_PWM_STAT.six_step 0
  else s

/-! ## Datum updates -/

/-- A coefficient word of a bank group: the sheet value laid over the active set where the active bank carries one
(R183, R93, R145). -/
def State.bankW (s : State) (n : Mcn) (g : Fin 4) (off : Nat) : Word :=
  let b := ((s.mc[n]).banks[g])[if bitAt (s.f (mcB n) R.MC_LOOP_BANK.active) g.val then (1 : Fin 2) else 0]
  match wordAt b off with
  | some w => w
  | none => s.word (s.act n + off)

/-- A field of a coefficient word of a bank group. -/
def State.bankF (s : State) (n : Mcn) (g : Fin 4) (f : Fld) (i : Nat := 0) : Nat := f.get (s.bankW n g (f.off + i))

/-- Point j of a contour table of bank group 0. -/
def State.fcPoint (s : State) (n : Mcn) (f : Fld) (sgnd : Bool) (j : Nat) : Int :=
  let v := s.bankF n 0 f j
  if sgnd then sgn 32 v else v

/-- The contour values that follow the datum's speed: advance and margin (R91). BLOCK has no advance. -/
def State.contours (s : State) (n : Mcn) : State :=
  let sp := (s.mc[n]).dat.speed
  let step := s.f (s.act n) R.MC_FC_AXIS.speed_step
  let fam := s.st n R.MC_PWM_CTRL.family
  let adv := if fam = 2 then 0 else contour qdiv (s.fcPoint n R.MC_FC_ADV.advance false) step sp
  let mar := contour qdiv (s.fcPoint n R.MC_FC_MARG.margin true) step sp
  s.modPwm n fun p => { p with advance := uns 32 adv, margin := mar }

/-- Prediction mode (R54): valid and at least pred_min_speed, in 1/256 Hz. -/
def State.predMode (s : State) (n : Mcn) (valid : Bool) (speed : Int) : Bool :=
  valid && decide ((s.st n R.MC_DAT_CFG.pred_min_speed : Int) * 256 ≤ speed.natAbs)

/-! ## Boundaries that are predicted like graticule targets -/

/-- The sense in which the source's angles and speeds enter the datum is inverted (R51). -/
def State.datInv (s : State) (n : Mcn) : Bool := s.st n R.MC_DAT_CFG.dir_invert == 1 && !s.conv n
/-- An angle and a speed of the source as they enter the datum, and back (R51). -/
def State.srcAngle (s : State) (n : Mcn) (angle : Nat) : Nat := if s.datInv n then uns 32 (-(angle : Int)) else angle
def State.srcSpeed (s : State) (n : Mcn) (speed : Int) : Int := if s.datInv n then -speed else speed

/-- The angle of period boundary m of a synchronous ratio (R69). -/
def boundAngle (ratio m : Nat) : Nat := (rdiv ((m % ratio : Nat) * 4294967296 : Nat) ratio).toNat % 4294967296
/-- The boundary after boundary m along the rotation (R69). -/
def boundNext (rev : Bool) (ratio m : Nat) : Nat := if rev then (m + ratio - 1) % ratio else (m + 1) % ratio

/-- Does the synchronous carrier run, with periods between boundaries (R69, R71)? -/
def State.scRuns (s : State) (n : Mcn) : Bool :=
  let m := s.mc[n]
  m.pwm.running && m.scar.entry.isSome && decide (1 < m.scar.ratio) && !m.pwm.virt

/-- Would the carrier of a ratio at the present speed exceed 100 kHz (R73)? -/
def State.scOver (s : State) (n : Mcn) : Bool :=
  let m := s.mc[n]
  decide (6553600000 < m.scar.ratio * (m.dat.speedAt s.now16).natAbs)

/-- A period that ends at an instant (125 ps); the count runs in whole ticks. -/
def State.periodTo (s : State) (n : Mcn) (e : Int) : State :=
  s.modPwm n fun w => { w with endAt := some e, period := Nat.max 1 (e / 16 - w.zeroAt).toNat }

/-- The end of the synchronous period in progress, predicted afresh; the clamp of R73 holds it at 10 us (R69). Without an
edge time it lasts an asynchronous period. (DEDUCED, log 78) -/
def State.syncEnd (s : State) (n : Mcn) : State :=
  let m := s.mc[n]
  let z : Int := (m.pwm.zeroAt : Int) * 16
  if s.scOver n then s.periodTo n (z + 80000)
  else
    match m.dat.predict (boundAngle m.scar.ratio (boundNext m.dat.rev m.scar.ratio m.pwm.bound)) with
    | some t => s.periodTo n t
    | none => s.periodTo n (z + s.asyncPeriod n * 16)

/-- The ratio crossing that lies ahead, as a graticule target, where a crossing at its speed would select an entry (R68,
R70). -/
def State.crossAhead (s : State) (n : Mcn) : Option Int :=
  let d := (s.mc[n]).dat
  if d.valid ∧ d.predicted ∧ (s.cl[mcCl n]).st.moving ∧ !s.conv n then
    match d.predict 0 with
    | some t => if s.scSelect n (d.speedAt t) = 0 then none else some t
    | none => none
  else none

/-- The first angle of sector k: the datum angle at which the sector begins, along forward rotation (R71, R90, R95).
(DESIGN CHOICE in reverse rotation, log 79) -/
def State.sectorAngle (s : State) (n : Mcn) (foc : Bool) (k : Nat) : Nat :=
  let m := s.mc[n]
  let base : Int := if foc then 0 else s.f (s.act n) R.MC_BLK_OFFSET.comm_offset
  let adv : Int := if m.dat.rev then -(m.pwm.advance : Int) else m.pwm.advance
  uns 32 (base + rdiv ((k % 6 : Nat) * 4294967296 : Nat) 6 - adv)

/-- Is the output by sectors that follow the datum: a block family with block_src 0, or six-step (R90, R95)? -/
def State.sectorsByDatum (s : State) (n : Mcn) : Bool :=
  !s.conv n && ((s.mc[n]).pwm.virt
    || (decide (2 ≤ s.st n R.MC_PWM_CTRL.family) && s.st n R.MC_PWM_CTRL.block_src == 0))

/-- The next sector boundary predicted afresh, as a graticule target (R95): in reverse rotation it is the beginning of the
present sector. -/
def State.sectorPredict (s : State) (n : Mcn) : State :=
  let m := s.mc[n]
  let k := s.f (mcB n) R.MC_PWM_STAT.sector
  let foc := decide (s.st n R.MC_PWM_CTRL.family < 2)
  let e := if m.dat.valid && m.dat.predicted && s.sectorsByDatum n then
      m.dat.predict (s.sectorAngle n foc (if m.dat.rev then k else k + 1)) else none
  s.modPwm n fun w => { w with sectorEnd := e }

/-- The carrier's boundary, the bridging crossing and the sector boundary after a datum update: those within 2 us stay
(R56, R69, R70, R95). -/
def State.boundsUpdate (s : State) (n : Mcn) (turned : Bool) : State :=
  let w := (s.mc[n]).pwm
  let s :=
    if s.scRuns n then (if s.within2us w.endAt then s else s.syncEnd n)
    else if w.bridging then
      if s.within2us w.endAt then s
      else
        match s.crossAhead n with
        | some t => s.periodTo n t
        | none => s.modPwm n fun w => { w with bridging := false, endAt := none, period := s.asyncPeriod n }
    else s
  if !turned && s.within2us w.sectorEnd then s else s.sectorPredict n

/-- A datum update (R49, R50, R54 to R57, R60, R61) by an angle and a speed (Q16.16 Hz) in the datum's own sense, true at an
instant (125 ps). The datum becomes or stays valid. At speed 0 the direction stays, and two updates at one instant give no
slope. (DEDUCED, log 29; DESIGN CHOICE, log 77) -/
def State.datumUpdate (s : State) (n : Mcn) (angle : Nat) (speed : Int) (ts : Int) : State :=
  let old := (s.mc[n]).dat
  let rev := if speed = 0 then old.rev else decide (speed < 0)
  let turned := rev != old.rev
  let acc :=
    if !old.valid || turned || s.conv n then 0
    else
      -- Δω / Δt in Q16.16 Hz per ms, then one eighth of the difference
      let slope := if ts = old.ts then (if speed = old.speed then old.acc else Config.slopeNow (speed - old.speed) old.acc)
        else qdiv ((speed - old.speed) * 8000000) (ts - old.ts)
      sat32 (old.acc + qdiv (slope - old.acc) 8)
  let pred := s.predMode n true speed
  let s := s.modDat n fun _ =>
    { valid := true, angle := angle, speed := speed, acc := acc, ts := ts, predicted := pred, rev := rev }
  let s := s.assertOff (evMc n 0)
  let s := s.contours n
  let s := if turned ∧ old.valid then s.scLeave n else s
  let s := s.each allK fun k s => s.gUpdate n turned k
  s.boundsUpdate n turned

/-- An update by the datum source: dir_invert negates its angle and speed before they enter the datum (R51). -/
def State.sourceUpdate (s : State) (n : Mcn) (angle : Nat) (speed : Int) (ts : Int) : State :=
  s.datumUpdate n (s.srcAngle n angle) (s.srcSpeed n speed) ts

/-- The datum becomes invalid (R52): the angle holds, speed and acceleration read 0, the synchronous carrier leaves, and
datum-invalid is raised at the change. -/
def State.datumInvalid (s : State) (n : Mcn) : State :=
  let old := (s.mc[n]).dat
  if old.valid then
    let s := s.modDat n fun d =>
      { d with valid := false, angle := old.at s.now16, speed := 0, acc := 0, predicted := false, ts := s.now16 }
    let s := s.modPwm n fun w => { w with sectorEnd := none, bridging := false, endAt := none }
    let s := s.scLeave n
    s.assertOn (evMc n 0)
  else s

/-- Switching frequency of a converter in Hz, as its datum's speed is read (R53). -/
def State.convHz (s : State) (n : Mcn) : Int := qdiv 500000000 (s.mc[n]).pwm.period

/-- The status word of the datum as it is read (MC_DAT_STAT). -/
def State.datStat (s : State) (n : Mcn) : Nat :=
  let m := s.mc[n]
  let nib (e : Option Nat) : Nat := match e with | none => 15 | some k => k
  let sel := s.scSelect n (m.dat.speedAt s.now16)
  b2n m.dat.valid + 2 * b2n m.dat.predicted + 4 * b2n m.dat.rev + 8 * b2n m.scar.entry.isSome
    + 16 * nib m.scar.entry + 256 * (if sel = 0 then 15 else sel - 1) + 65536 * m.scar.ratio
    + 16777216 * b2n m.scar.clamp

end Sys2Proof.Machine
end

