-- ==== Sys2Proof/Machine/Lanes.lean ====
section
/-! DEFINITION. The lane pool (06_control_lanes R170 to R194): the job catalogue, the ready list and dispatch, drops and
misses, completion, the trace of a run (R196, R197), lane rates and the substitution of lanes. What a job reads when it
starts (R171) is given by the function handed to the dispatcher. -/

namespace Sys2Proof.Machine

/-- Job codes (R171). -/
def jobCode : JobId → Nat
  | .cur _ => 1 | .obs _ => 2 | .spd _ => 3 | .pos _ => 4 | .prof _ => 5 | .ccur _ => 6 | .cvolt _ => 7
  | .thermM _ => 8 | .thermR _ => 8 | .atlas _ => 9 | .trace _ => 10 | .ltest _ => 11

/-- Owner of a job: 0 to 5 MC, 6, 7 SC, 8, 9 regions, 15 none (LN_LANEk.cluster). A TRACE job belongs to the cluster its
unit traces. -/
def State.jobOwner (s : State) : JobId → Nat
  | .cur n | .obs n | .spd n | .pos n | .ccur n | .cvolt n | .thermM n | .atlas n => n.val
  | .prof a => (axCl a).val
  | .thermR r => 8 + r.val
  | .trace u => s.f (trB u) R.TR_CFG.cluster
  | .ltest _ => 15

/-- Nominal cycles (R171). -/
def State.jobCycles (s : State) : JobId → Nat
  | .cur n => if 2 ≤ s.st n R.MC_PWM_CTRL.family then 90 else 180
  | .obs _ => 240 | .spd _ => 60 | .pos _ => 70
  | .prof (.mc _) => 50 | .prof (.st _) => 40
  | .ccur _ => 150 | .cvolt _ => 90
  | .thermM _ => 150 | .thermR _ => 60
  | .atlas _ => 100 | .trace _ => 20 | .ltest _ => 200

/-- Current-class jobs are band 0 (R171). -/
def jobBand0 : JobId → Bool
  | .cur _ | .ccur _ => true
  | _ => false

/-- Ticks between releases of a job, where they follow from the samples or a period (R171, R213, R222, R286). -/
def State.jobPeriod (s : State) (j : JobId) : Option Nat :=
  let samples (n : Mcn) (f : Fld) : Nat := (s.f (s.act n) f + 1) * (s.mc[n]).pwm.period
  match j with
  | .cur n | .obs n | .ccur n => some (s.mc[n]).pwm.period
  | .spd n => if s.f (s.act n) R.MC_LOOP_CFG.spd_src = 0 then some (samples n R.MC_LOOP_CFG.spd_div) else none
  | .cvolt n => some (samples n R.MC_CV_MODE.cv_div)
  | .atlas n =>
    let p := s.f (s.act n) R.MC_ATL_TIME.atl_period
    if p = 0 then none else some (50000 * p)
  | .pos n | .prof (.mc n) => some ((s.f (s.moSet (.mc n)) R.MO_TIME.serv_div + 1) * (s.mc[n]).pwm.period)
  | .prof (.st _) => some 12500
  | .thermM _ | .thermR _ => some 500000
  | .ltest _ => some 5000000
  | .trace _ => none

/-- The tick of a job's latest release. -/
def State.lastRelease (s : State) (j : JobId) : Option Nat := (s.runs.find? fun p => p.1 == j).map (·.2.2)

/-- When a job released at a tick is released next, where that can be foretold. (DEDUCED, log 39) -/
def State.nextRelease (s : State) (j : JobId) (rel : Nat) : Option Nat := (s.jobPeriod j).map (rel + ·)

/-- Deadline of a job released now (R171); none where it is a next release that the state does not foretell.
(DEDUCED, log 39) -/
def State.jobDeadline (s : State) (j : JobId) : Option Nat :=
  let outer (n : Mcn) : Nat := s.now + 500 * s.f (s.act n) R.MC_LOOP_CFG.outer_dl
  match j with
  | .cur n | .ccur n => some ((s.mc[n]).pwm.sampleAt + (s.mc[n]).pwm.period / 2)
  | .obs n => some ((s.mc[n]).pwm.sampleAt + (s.mc[n]).pwm.period)
  | .spd n | .pos n => some (outer n)
  | .prof (.mc n) => some (outer n)
  | .prof (.st _) => some (s.now + 12500)
  | .thermM _ | .thermR _ => some (s.now + 500000)
  | .ltest _ => some (s.now + 5000000)
  | .cvolt _ | .atlas _ => s.nextRelease j s.now
  | .trace u => (s.trace[u]).run.bind fun x => s.nextRelease x.1 x.2

/-- Is an instance of the job running? -/
def State.running (s : State) (j : JobId) : Bool :=
  s.lanes.any fun l => match l.busy with | some r => r.what.job == j | none => false

/-- The lane that runs a job. -/
def State.laneOf (s : State) (j : JobId) : Option (Fin 8) :=
  (List.finRange 8).find? fun i => match (s.lanes[i]).busy with | some r => r.what.job == j | none => false

/-- The base and cluster number of a miss or saturation record (R176, R189). -/
def ownerCl (o : Nat) : Option Cl := if h : o < 8 then some ⟨o, h⟩ else none

/-- The loops that note a missed run (R177, R189). -/
def markMissed (j : JobId) (s : State) : State :=
  let mk (n : Mcn) (xs : List (Fin 4)) : State := s.each xs fun x s => s.modLoop n x fun l => { l with missed := true }
  match j with
  | .cur n => mk n [0, 1]
  | .ccur n => s.modMc n fun m => { m with conv := { m.conv with ph := m.conv.ph.map fun l => { l with missed := true } } }
  | .spd n => mk n [2]
  | .cvolt n => mk n [2]
  | .pos n => mk n [3]
  | _ => s

/-- Trace units that trace a job of a cluster (R196). -/
def State.tracers (s : State) (j : JobId) : List (Fin 4) :=
  ([0, 1, 2, 3] : List (Fin 4)).filter fun u =>
    s.f (trB u) R.TR_CFG.job == jobCode j && s.f (trB u) R.TR_CFG.cluster == s.jobOwner j && jobCode j != 10

/-- A missed run counts as a run of the traced job (R197), and the next record says so (R196). A dropped TRACE job leaves no
record, so what its own header was to say stays to be said (R189). -/
def traceMissed (j : JobId) (s : State) : State :=
  let s := s.each (s.tracers j) fun u s => s.modTrace u fun t => { t with missed := true, skip := t.skip - 1 }
  match j with
  | .trace u => s.modTrace u fun t => { t with
      missed := t.missed || (match t.latched with | some (h :: _) => bitAt h.toNat 9 | _ => false) }
  | _ => s

/-- A missed self-test is repeated at the next instant at which its lane is free (R189). -/
def ltestMissed (j : JobId) (s : State) : State :=
  match j with
  | .ltest i => { s with lanes := upd s.lanes i { s.lanes[i] with again := true } }
  | _ => s

/-- A miss (R189): the records, and the event deadline-miss of the job's cluster, or EV059 for a region THERM job. -/
def State.miss (s : State) (j : JobId) : State :=
  let s := s.inc pk R.LN_CNT.miss_count
  let s := ltestMissed j (markMissed j (traceMissed j s))
  match ownerCl (s.jobOwner j) with
  | some c =>
    let b := loopB c
    let sticky := s.f b R.MC_LOOP_MISS.miss_sticky
    let s := s.setF b R.MC_LOOP_MISS.miss_sticky (sticky ||| 2 ^ jobCode j)
    let s := s.inc b R.MC_LOOP_MISS.miss_count
    match clMc c with
    | some n => s.raise (evMc n 14)
    | none => s.raise (evSc (clRg c) 5)
  | none => if s.jobOwner j = 8 ∨ s.jobOwner j = 9 then s.raise 59 else s

/-- A run saturated (R176). -/
def State.saturated (s : State) (j : JobId) (sat : Bool) : State :=
  if sat then
    match ownerCl (s.jobOwner j) with
    | some c =>
      let b := loopB c
      let s := s.setF b R.MC_LOOP_SAT.sat_sticky (s.f b R.MC_LOOP_SAT.sat_sticky ||| 2 ^ jobCode j)
      let s := s.inc b R.MC_LOOP_SAT.sat_count
      match clMc c with
      | some n => s.raise (evMc n 13)
      | none => s.raise (evSc (clRg c) 4)
    | none => s.raise 59
  else s

/-- A job dropped (R188). -/
def State.dropJob (s : State) (r : Ready) : State :=
  let s : State := { s with ready := s.ready.filter (· != r) }
  let s := s.inc pk R.LN_CNT.drop_count
  s.miss r.job

/-- Does ready job a come before b in its band (R187): earlier deadline, then lower code, then lower owner? -/
def State.before (s : State) (a b : Ready) : Bool :=
  let key (r : Ready) : Nat × Nat × Nat :=
    (r.deadline.getD (r.release + 2 ^ 60), jobCode r.job, s.jobOwner r.job)
  let (x, y, z) := key a
  let (x', y', z') := key b
  decide (x < x') || (x == x' && (decide (y < y') || (y == y' && decide (z < z'))))

/-- The first job of a list in dispatch order. -/
def State.firstJob (s : State) : List Ready → Option Ready
  | [] => none
  | r :: rest =>
    match s.firstJob rest with
    | none => some r
    | some r' => if s.before r' r then some r' else some r

/-- The job dispatched next: band 0 first; a job whose earlier instance still runs waits (R187, R188). -/
def State.nextJob (s : State) : Option Ready :=
  let free := s.ready.filter fun r => !s.running r.job
  match s.firstJob (free.filter fun r => jobBand0 r.job) with
  | some r => some r
  | none => s.firstJob (free.filter fun r => !jobBand0 r.job)

/-- Ticks a job takes on a lane: cycles of 4 ns over the lane's rate in 1/4,096 (R187). -/
def laneTicks (cycles rate : Nat) : Nat := (qdiv (cycles * 2 * 4096 : Nat) (Nat.max 1 rate)).toNat

/-- Predicted completion of a job on lane i (R187). -/
def State.finOn (s : State) (j : JobId) (i : Fin 8) : Nat :=
  let l := s.lanes[i]
  let t0 := match l.busy with | some r => Nat.max s.now r.fin | none => s.now
  t0 + laneTicks (s.jobCycles j) l.rate

/-- The candidate with the least predicted completion, ties to the lower lane. -/
def State.bestLane (s : State) (j : JobId) : List (Fin 8) → Option (Fin 8)
  | [] => none
  | i :: rest =>
    match s.bestLane j rest with
    | none => some i
    | some k => if s.finOn j k < s.finOn j i then some k else some i

/-- Candidate lanes of a job (R187): its own lane for LTEST, else the lanes IN_SERVICE. -/
def State.candidates (s : State) (j : JobId) : List (Fin 8) :=
  match j with
  | .ltest l => if (s.lanes[l]).st = .inService ∨ (s.lanes[l]).st = .spare then [l] else []
  | _ => (List.finRange 8).filter fun i => (s.lanes[i]).st == .inService

/-- Active operating set and active banks of a job's cluster. -/
def State.jobSet (s : State) (j : JobId) : Bool × Nat :=
  match ownerCl (s.jobOwner j) with
  | some c => ((s.cl[c]).setB, match clMc c with | some n => s.f (mcB n) R.MC_LOOP_BANK.active | none => 0)
  | none => (false, 0)

/-- The same set back: a job runs on what it read when it started, whatever swap came in between (R171, R184).
(DEDUCED, log 15) -/
def State.useSet (s : State) (j : JobId) (x : Bool × Nat) : State :=
  match ownerCl (s.jobOwner j) with
  | some c =>
    let s := s.modCl c fun k => { k with setB := x.1 }
    match clMc c with
    | some n => s.setF (mcB n) R.MC_LOOP_BANK.active x.2
    | none => s
  | none => s

/-- Dispatch (R187), at most `fuel` rounds. A job abandoned on a failed lane that runs again counts in rerun_count
(R193). -/
def dispatch (inputs : JobId → State → List Int) : Nat → State → State
  | 0, s => s
  | fuel + 1, s =>
    match s.nextJob with
    | none => s
    | some r =>
      match s.bestLane r.job (s.candidates r.job) with
      | none => dispatch inputs fuel (s.dropJob r)
      | some i =>
        let fin := s.finOn r.job i
        if (match r.deadline with | some d => decide (d < fin) | none => false) then
          dispatch inputs fuel (s.dropJob r)
        else if (s.lanes[i]).busy.isSome then s
        else
          let (set, banks) := s.jobSet r.job
          let run : Running :=
            { what := r, start := s.now, fin := fin, inp := inputs r.job s, setB := set, banks := banks }
          -- the cycles of a spare's self-test are none of the pool's (R191)
          let cyc := if (s.lanes[i]).st = .spare then 0 else s.jobCycles r.job
          let s : State := { s with
            ready := s.ready.filter (· != r)
            lanes := upd s.lanes i { s.lanes[i] with busy := some run }
            poolCyc := s.poolCyc + cyc }
          let s := if r.rerun then s.inc pk R.LN_CNT.rerun_count else s
          dispatch inputs fuel s

/-- Dispatch of everything that can start. (DEDUCED, log 39) -/
def State.dispatchAll (inputs : JobId → State → List Int) (s : State) : State :=
  dispatch inputs (s.ready.length + 1) s

/-- One more release of a job is counted (R196), with its tick. -/
def countRun (j : JobId) (now : Nat) : List (JobId × Nat × Nat) → List (JobId × Nat × Nat)
  | [] => [(j, 1, now)]
  | (k, c, t) :: rest => if k = j then (k, (c + 1) % 65536, now) :: rest else (k, c, t) :: countRun j now rest

/-- Releases of a job so far, modulo 65,536. -/
def State.runNum (s : State) (j : JobId) : Nat := ((s.runs.find? fun p => p.1 == j).map (·.2.1)).getD 0

/-- A release into the ready list: an older unstarted instance is dropped (R188), and the scheduler dispatches.
(DEDUCED, log 39) -/
def State.release (inputs : JobId → State → List Int) (s : State) (j : JobId) : State :=
  let s := match s.ready.find? (fun r => r.job == j) with
    | some old => s.dropJob old
    | none => s
  let s : State := { s with
    runs := countRun j s.now s.runs }
  let s : State := { s with
    ready := s.ready ++
      [{ job := j, release := s.now, num := s.runNum j, deadline := s.jobDeadline j, rerun := false }] }
  s.dispatchAll inputs

/-- A running job leaves its lane; a DRAINING lane becomes RETIRED (R192). -/
def State.freeLane (s : State) (i : Fin 8) : State :=
  let l := s.lanes[i]
  { s with lanes := upd s.lanes i { l with busy := none, st := if l.st = .draining then .retired else l.st } }

/-- The record of a traced run is latched in a unit that records this run, and its TRACE job is released (R196, R197). -/
def traceRun (inputs : JobId → State → List Int) (j : JobId) (what : Ready) (sat : Bool) (node : Fin 4 → Nat → Word)
    (s : State) : State :=
  s.each (s.tracers j) fun u s =>
    let st := s.f (trB u) R.TR_STAT.state
    if st = 1 ∨ st = 2 then
      if (s.trace[u]).skip = 0 then
        let sel := [R.TR_NODE_LO.node0, R.TR_NODE_LO.node1, R.TR_NODE_LO.node2, R.TR_NODE_LO.node3,
          R.TR_NODE_HI.node4, R.TR_NODE_HI.node5, R.TR_NODE_HI.node6, R.TR_NODE_HI.node7].map (s.f (trB u))
        let words := (sel.filter (· != 0)).map (node u)
        -- an older record that its TRACE job has not built yet is lost
        let s := match s.ready.find? (fun r => r.job == .trace u) with
          | some old => s.dropJob old
          | none => s
        let hdr := BitVec.ofNat 32 (what.num % 65536 * 65536 + b2n sat * 1024 + b2n (s.trace[u]).missed * 512 + words.length)
        let s := s.modTrace u fun t =>
          { t with latched := some (hdr :: words), run := some (j, what.release), missed := false, skip := s.f (trB u) R.TR_CFG.decim }
        s.release inputs (.trace u)
      else s.modTrace u fun t => { t with skip := t.skip - 1 }
    else s

/-- A spare lane joins the pool (R192): the lowest-numbered SPARE becomes IN_SERVICE, with the spare-in event. -/
def State.spareLane (s : State) : Option (Fin 8) :=
  (List.finRange 8).find? fun i => (s.lanes[i]).st == .spare

def State.laneState (s : State) (i : Fin 8) (st : LaneSt) : State :=
  { s with lanes := upd s.lanes i { s.lanes[i] with st := st } }

/-- A spare abandons a running LTEST and runs it again later (R192). -/
def State.laneIn (s : State) (i : Fin 8) : State :=
  let s := match (s.lanes[i]).busy with
    | some r =>
      { s with lanes := upd s.lanes i { s.lanes[i] with busy := none }, ready := s.ready ++ [r.what] }
    | none => s
  (s.laneState i .inService).raise 39

end Sys2Proof.Machine
end

