-- ==== Sys2Proof/Machine/Motion.lean ====
section
/-! DEFINITION. Motion (08_motion_and_steppers R220 to R247, R458): the check of motion commands, the profile step, routes
and blends, stop ramps, the indexer, the chopper and the stall test. -/

namespace Sys2Proof.Machine

/-! ## Quantities -/

/-- Ticks of 2 ns in a second. -/
def hz : Int := 500000000
/-- One turn of a position, 2^32. -/
def turn : Int := 4294967296

/-- Full steps per turn in effect (ST_CFG.steps_rev). -/
def State.stepsRev (s : State) (k : Chan) : Int := Nat.max 1 (s.f (eff (stB k)) R.ST_CFG.steps_rev)
/-- Is a channel in use (ST_CFG.enable)? -/
def State.chanOn (s : State) (k : Chan) : Bool := s.fb (eff (stB k)) R.ST_CFG.enable
/-- Pole pairs of a motor cluster. -/
def State.polePairs (s : State) (n : Mcn) : Int := Nat.max 1 (s.st n R.MC_DAT_CFG.pole_pairs)

def AxisSt.sign (x : AxisSt) : Int := if x.neg then -1 else 1
/-- Speed ceiling and acceleration ceiling of an axis, Q16.16. -/
def State.vMax (s : State) (a : Axis) : Nat := s.f (s.moSet a) R.MO_VMAX.v_max
def State.aMax (s : State) (a : Axis) : Nat := s.f (s.moSet a) R.MO_AMAX.a_max
/-- Stop deceleration (R229). -/
def State.aStop (s : State) (a : Axis) : Nat :=
  let x := s.f (s.moSet a) R.MO_ASTOP.a_stop
  if x = 0 then s.aMax a else x

/-- A position held to its 64 bits (R6, R174). -/
def sat64 (v : Int) : Int := clampI (-9223372036854775808) 9223372036854775807 v

/-- Emitted position of a stepper channel in 2^-32 turns (R235). -/
def State.emitted (s : State) (k : Chan) : Int :=
  let p := s.stp[k]
  sat64 (p.origin + rdiv (p.idx * turn) (256 * s.stepsRev k))

/-- Measured position of an axis (R223, R235). -/
def State.measured (s : State) : Axis → Int
  | .mc n => (s.axM[n]).base
  | .st k => s.emitted k

/-- The measured position of a motor axis advances by a sample's angle change over its pole pairs; what the division leaves
waits for the next sample (R223). (DEDUCED, log 42) -/
def AxisSt.travel (x : AxisSt) (pp change : Int) : AxisSt :=
  { x with base := sat64 (x.base + (x.elec + change) / pp), elec := (x.elec + change) % pp }

/-- The measured position set to an exact value: a stepper's coil origin moves with it, and its indexer rests there (R235). -/
def State.setMeasured (s : State) (a : Axis) (p : Int) : State :=
  match a with
  | .mc n => s.modAx (.mc n) fun x => { x with base := p, elec := 0 }
  | .st k => s.modStp k fun q => { q with origin := q.origin + p - s.emitted k, lineFrom := p }

/-! ## Commands (R224, R225, R229) -/

/-- The axis state and the queue's length as the accepted commands will have made them (R224). -/
def virt1 (running : Bool) (x : AxKind × Nat) : MoCmd → AxKind × Nat
  | .move .. => (.move, x.2)
  | .stop => (match x.1 with | .idle => .idle | _ => .stopping, x.2)
  | .setV _ | .setA _ | .setPos _ => x
  | .speed .. => (if running then .speed else x.1, x.2)
  | .append _ => (match x.1 with | .routeWait => .route | k => k, x.2 + 1)
  | .routeStart _ => (.route, x.2)
  | .routeLoad ws => (x.1, ws.length)
  | .routeClear => (x.1, 0)
  | .home => (.homing, x.2)

/-- Is the axis's cluster RUNNING? -/
def State.axRunning (s : State) (a : Axis) : Bool := (s.cl[axCl a]).st == .running

/-- The state and queue length that an axis will have when the commands accepted so far have acted (R224; DEDUCED, log 42). -/
def State.virt (s : State) (a : Axis) : AxKind × Nat :=
  let x := s.ax a
  x.cmds.foldl (virt1 (s.axRunning a)) (x.st, x.queue.length)

/-- Codes of xx_MO_STAT.refused. -/
def refusedCode : Status → Nat
  | .badState => 1 | .badMode => 2 | .badArg => 3 | .busyTarget => 4 | .queueFull => 5 | .noRoute => 6 | .badCmd => 7
  | _ => 0

/-- A motion command refused: the status is answered and kept (R224). -/
def State.moRefuse (s : State) (a : Axis) (st : Status) : State :=
  let s := s.answer st
  if (s.cl[axCl a]).st = .unused then s
  else match a with
  | .mc n => if s.conv n then s
    else (s.setF (moB a) R.MO_STAT.refused (refusedCode st)).inc (moB a) R.MO_STAT.refuse_count
  | .st _ => (s.setF (moB a) R.MO_STAT.refused (refusedCode st)).inc (moB a) R.MO_STAT.refuse_count

/-- Steps 1 to 3 of R224, with the axis kinds and modes a command's row admits: `pos` POSITION mode, `spd` SPEED mode,
`st` a stepper. (DEDUCED, log 42) -/
def State.moCheck (s : State) (a : Axis) (pos spd st : Bool) : Option Status :=
  if (s.cl[axCl a]).st = .unused then some .badState
  else
    match a with
    | .mc n =>
      if s.conv n then some .badMode
      else if s.st n R.MC_MO_MODE.mode = 1 then (if pos then none else some .badMode)
      else (if spd then none else some .badMode)
    | .st k =>
      if s.chanOn k then (if st then none else some .badMode) else some .badState

/-- The staged arguments of a command: position, velocity (signed), acceleration, dwell and stop flag (R224, R231). -/
structure Staged where
  tgt   : Int
  vel   : Int
  acc   : Nat
  dwell : Nat
  stop  : Bool

/-- The staging registers of an axis in the copy of a port: 0 the host port's, 2 to 4 those of CAN0 to CAN2 (R382, R439). -/
def State.staged (s : State) (space : Nat) (a : Axis) : Staged :=
  let b := moB a + space * 0x1000000
  { tgt := sgn 64 (s.f b R.MO_TGT_LO.tgt + s.f b R.MO_TGT_HI.tgt * 4294967296), vel := s.fi b R.MO_VEL.vel
    acc := s.f b R.MO_ACC.acc, dwell := s.f b R.MO_WPX.dwell, stop := s.fb b R.MO_WPX.stop }

/-- The clamps of R224 recorded, when a command with those arguments is accepted. -/
def State.noteClamp (s : State) (a : Axis) (v acc : Nat) : State :=
  let s := if s.vMax a < v then s.setF (moB a) R.MO_STAT.v_clamped 1 else s
  if s.aMax a < acc then s.setF (moB a) R.MO_STAT.a_clamped 1 else s

/-- A motion command accepted: it acts at the next PROF run (R224). -/
def State.moAccept (s : State) (a : Axis) (c : MoCmd) : State :=
  (s.modAx a fun x => { x with cmds := x.cmds ++ [c] }).answer .ok

/-- A command judged: the statuses of steps 1 to 4, of R229 while a stop ramp runs, and of its row, in order. -/
def State.moJudge (s : State) (a : Axis) (pre : Option Status) (argBad : Bool) (ramp : Status)
    (row : List (Bool × Status)) : Option Status :=
  match pre with
  | some st => some st
  | none =>
    if argBad then some .badArg
    else if (s.virt a).1 = .stopping then some ramp
    else (row.find? (fun p => p.1)).map (·.2)

/-- A judged command refused or accepted. -/
def State.moDo (s : State) (a : Axis) (j : Option Status) (v acc : Nat) (c : MoCmd) : State :=
  match j with
  | some st => s.moRefuse a st
  | none => (s.noteClamp a v acc).moAccept a c

def State.moMove (s : State) (a : Axis) (g : Staged) : State :=
  let v := g.vel.natAbs
  let acc := g.acc
  let j := s.moJudge a (s.moCheck a true false true) (v == 0 || acc == 0) .busyTarget
    [(!s.axRunning a, .badState), ((s.virt a).1 != .idle, .busyTarget)]
  s.moDo a j v acc (.move g.tgt (Nat.min v (s.vMax a)) (Nat.min acc (s.aMax a)))

def State.moStop (s : State) (a : Axis) : State :=
  match s.moCheck a true true true with
  | some st => s.moRefuse a st
  | none => s.moAccept a .stop

def State.moSetV (s : State) (a : Axis) (g : Staged) : State :=
  let v := g.vel.natAbs
  let k := (s.virt a).1
  let j := s.moJudge a (s.moCheck a true true true) (v == 0) .badState
    [(k != .move && k != .route && k != .speed, .badState)]
  s.moDo a j v 0 (.setV (Nat.min v (s.vMax a)))

def State.moSetA (s : State) (a : Axis) (g : Staged) : State :=
  let acc := g.acc
  let k := (s.virt a).1
  let j := s.moJudge a (s.moCheck a true true true) (acc == 0) .badState
    [(k != .move && k != .route && k != .homing && k != .speed, .badState)]
  s.moDo a j 0 acc (.setA (Nat.min acc (s.aMax a)))

def State.moSpeed (s : State) (a : Axis) (g : Staged) : State :=
  let v := g.vel
  let acc := g.acc
  let m : Int := s.vMax a
  let j := s.moJudge a (s.moCheck a false true false) (acc == 0) .badState []
  s.moDo a j v.natAbs acc (.speed (clampI (-m) m v) (Nat.min acc (s.aMax a)))

def State.moAppend (s : State) (a : Axis) (g : Staged) : State :=
  let v := g.vel.natAbs
  let acc := g.acc
  let j := s.moJudge a (s.moCheck a true false true) (v == 0 || acc == 0) .badState
    [(decide (16 ≤ (s.virt a).2), .queueFull)]
  s.moDo a j v acc (.append
    { tgt := g.tgt, v := Nat.min v (s.vMax a), a := Nat.min acc (s.aMax a)
      dwell := g.dwell, stop := g.stop })

def State.moRouteStart (s : State) (a : Axis) (openRt : Bool) : State :=
  let (k, len) := s.virt a
  let j := s.moJudge a (s.moCheck a true false true) false .busyTarget
    [(!s.axRunning a, .badState), (k != .idle, .busyTarget), (len == 0, .noRoute)]
  s.moDo a j 0 0 (.routeStart openRt)

/-- ROUTE_LOAD, with the waypoints of the image's route if it is present (R231). -/
def State.moRouteLoad (s : State) (a : Axis) (route : Option (List Waypoint)) : State :=
  let j := s.moJudge a (s.moCheck a true false true) false .busyTarget
    [((s.virt a).1 != .idle, .busyTarget), (route.isNone, .noRoute)]
  let ws := route.getD []
  let cl (w : Waypoint) : Waypoint := { w with v := Nat.min w.v (s.vMax a), a := Nat.min w.a (s.aMax a) }
  let v := ws.foldl (fun m w => Nat.max m w.v) 0
  let acc := ws.foldl (fun m w => Nat.max m w.a) 0
  s.moDo a j v acc (.routeLoad (ws.map cl))

def State.moRouteClear (s : State) (a : Axis) : State :=
  let j := s.moJudge a (s.moCheck a true false true) false .busyTarget [((s.virt a).1 != .idle, .busyTarget)]
  s.moDo a j 0 0 .routeClear

def State.moHome (s : State) (a : Axis) : State :=
  let j := s.moJudge a (s.moCheck a false false true) false .busyTarget
    [(!s.axRunning a, .badState), ((s.virt a).1 != .idle, .busyTarget)]
  s.moDo a j 0 0 .home

def State.moSetPos (s : State) (a : Axis) (g : Staged) : State :=
  let j := s.moJudge a (s.moCheck a true true true) false .busyTarget [((s.virt a).1 != .idle, .busyTarget)]
  s.moDo a j 0 0 (.setPos g.tgt)

/-! ## Freeing (R225, R230, R458) -/

/-- The axis is freed; the rest of a motion is forgotten. -/
def AxisSt.free (x : AxisSt) : AxisSt :=
  { x with st := .idle, blend := none, blendSeg := false, dwelling := false, toTarget := false }

/-- Freed with its queue and its accepted commands discarded and the velocity 0 (R230, R458). -/
def AxisSt.freeAll (x : AxisSt) : AxisSt :=
  { x.free with queue := [], cmds := [], spd := none, v := 0, acc := 0 }

/-- Every axis of a cluster. -/
def clAxes (c : Cl) : List Axis :=
  match clMc c with
  | some n => [.mc n]
  | none => (rgChans (clRg c)).map .st

/-- Every axis of a cluster freed (R230, R458). -/
def State.freeAxes (s : State) (c : Cl) : State := s.each (clAxes c) fun a s => s.modAx a AxisSt.freeAll

/-- A stop ramp begins (R229). -/
def AxisSt.stopRamp (x : AxisSt) : AxisSt :=
  match x.st with
  | .idle | .stopping => x
  | k =>
    let towards := x.blend.isNone && !x.dwelling && (k == .move || k == .route || k == .homing)
    { x with st := .stopping, toTarget := towards, blend := none, blendSeg := false, dwelling := false }

/-- A cluster STOP or a STOP fault: accepted commands that have not acted are discarded (R224, R229). An axis in SPEED mode that
moves without a command, at the datum's speed (R223), ramps down too. -/
def State.stopAxes (s : State) (c : Cl) : State :=
  s.each (clAxes c) fun a s => s.modAx a fun x =>
    let x := { x with cmds := [] }
    if x.st = .idle ∧ x.v ≠ 0 then { x with st := .stopping, toTarget := false } else x.stopRamp

/-! ## The profile step (R226 to R234) -/

/-- Acceleration times a time, in 2^-32 turns/s. -/
def dvOf (a : Int) (dt : Int) : Int := rdiv (a * 65536 * dt) hz

/-- The advance of R226 from speed u to u1 towards the target. -/
def AxisSt.advance (x : AxisSt) (u u1 dt : Int) : AxisSt :=
  { x with p := x.p + x.sign * rdiv ((u + u1) * dt) (2 * hz), v := x.sign * u1
           acc := x.sign * rdiv ((u1 - u) * hz) (dt * 65536) }

/-- Distance covered at mean speed (u + u1) / 2. -/
def distOf (u u1 dt : Int) : Int := rdiv ((u + u1) * dt) (2 * hz)

/-- The outcome of a profile step: the axis, whether it has completed, whether a_req was kept. -/
structure Stepped where
  x    : AxisSt
  done : Bool
  kept : Bool
  deriving DecidableEq, Repr

/-- The second half of the rule of R226: the final deceleration. -/
def AxisSt.decel (x : AxisSt) (rem u dt : Int) : Stepped :=
  let a : Int := x.mvA
  let x := { x with phase := 2 }
  let rem1 := rem - distOf u u dt
  if 0 < u ∧ 0 < rem1 ∧ u * u ≤ 2 * a * rem1 * 65536 then ⟨x.advance u u dt, false, false⟩
  else
    let kept := decide (2 * a * rem * 65536 < u * u)
    let dv := rdiv (u * u * dt) (2 * rem * hz)          -- a_req * T
    if u * (2 * rem * hz) ≤ u * u * dt then ⟨{ x with p := x.tgt, v := 0, acc := 0 }, true, kept⟩
    else ⟨x.advance u (u - dv) dt, false, kept⟩

/-- The profile step of R226 over dt ticks. (DEDUCED, log 42) -/
def AxisSt.step (x : AxisSt) (dt : Int) : Stepped :=
  let rem := (x.tgt - x.p) * x.sign
  let u := x.v * x.sign
  let a : Int := x.mvA
  if rem ≤ 0 ∨ (u = 0 ∧ rem * hz * hz < a * 65536 * dt * dt) then
    ⟨{ x with p := x.tgt, v := 0, acc := 0 }, true, false⟩
  else if x.phase != 2 then
    let lim : Int := (x.mvV : Int) * 65536
    let dv := dvOf a dt
    let u1 := u + clampI (-dv) dv (lim - u)
    let rem1 := rem - distOf u u1 dt
    if 0 < rem1 ∧ u1 * u1 ≤ 2 * a * rem1 * 65536 then
      ⟨{ (x.advance u u1 dt) with phase := if u1 = lim then 1 else 0 }, false, false⟩
    else x.decel rem u dt
  else x.decel rem u dt

/-- Velocity change of a blend and its length in ticks (R233): from v_i along dir to v_{i+1} towards the next waypoint. -/
def blendOf (s : State) (a : Axis) (neg : Bool) (w w' : Waypoint) : Int × Int × Nat :=
  let v0 : Int := (w.v : Int) * 65536 * (if neg then -1 else 1)
  let v1 : Int := (w'.v : Int) * 65536 * (if w'.tgt < w.tgt then -1 else 1)
  let amin : Int := Nat.max 1 (Nat.min w.a w'.a)
  let t1 := 500000 * s.f (s.moSet a) R.MO_TIME.t_blend
  let t2 := (rdiv (2 * (v1 - v0).natAbs * hz) (amin * 65536)).toNat
  (v0, v1, Nat.max t1 t2)

/-- Conditions 2 and 3 of R232 for the joint at the head of the queue. -/
def State.blendFits (s : State) (a : Axis) (x : AxisSt) (w w' : Waypoint) : Bool :=
  let (_, _, tb) := blendOf s a x.neg w w'
  let rem0 := (w.tgt - x.p) * x.sign
  let u0 := x.v
  let vi : Int := (w.v : Int) * 65536
  let vj : Int := (w'.v : Int) * 65536
  let c2 := decide ((vi * vi - u0 * u0) * (2 * hz) ≤ (rem0 * (2 * hz) - vi * tb) * 2 * w.a * 65536)
  let c3 := decide (vj * vj * (2 * hz) ≤ ((w'.tgt - w.tgt).natAbs * (2 * hz) - vj * tb) * 2 * w'.a * 65536)
  c2 && c3

/-- The next segment begins, or the route completes or waits (R232, R234). -/
def State.nextSeg (s : State) (a : Axis) : State :=
  let x := s.ax a
  match x.queue with
  | [] => s.modAx a fun x => if x.openRt then { x with st := .routeWait, dwelling := false } else x.free
  | w :: rest =>
    let x := { x with st := .route, dwelling := false, blend := none, blendSeg := false, tgt := w.tgt
                      neg := decide (w.tgt < x.p), mvV := w.v, mvA := w.a, phase := 0 }
    match rest with
    | w' :: _ =>
      if w.dwell = 0 ∧ !w.stop then
        if s.blendFits a x w w' then s.modAx a fun _ => { x with blendSeg := true }
        else (s.modAx a fun _ => x).inc (moB a) R.MO_ROUTE.blend_skip
      else s.modAx a fun _ => x
    | [] => s.modAx a fun _ => x

/-- A joint is passed: its waypoint leaves the queue (R231). -/
def State.jointPassed (s : State) (a : Axis) : State :=
  let s := s.modAx a fun x => { x with queue := x.queue.drop 1 }
  s.setF (moB a) R.MO_ROUTE.done ((s.f (moB a) R.MO_ROUTE.done + 1) % 256)

/-- Velocity and position within a blend after t ticks (R233): acceleration linear up to the midpoint and down again. -/
def Blend.at (b : Blend) (t : Int) : Int × Int :=
  let len : Int := b.len
  let d := b.v1 - b.v0
  let end_ := b.p0 + distOf b.v0 b.v1 len
  if 2 * t ≤ len then
    (b.v0 + rdiv (2 * d * t * t) (len * len), b.p0 + rdiv (b.v0 * t) hz + rdiv (2 * d * t * t * t) (3 * len * len * hz))
  else
    let r := len - t
    (b.v1 - rdiv (2 * d * r * r) (len * len),
      end_ - rdiv (b.v1 * r) hz + rdiv (2 * d * r * r * r) (3 * len * len * hz))

/-- One run of a segment, a move or a homing run that is not blending, with what its completion does. `home` is the
success or failure of a homing run at its end of travel. (DEDUCED, log 42) -/
def State.runTo (home : Axis → State → State) (s : State) (a : Axis) (dt : Int) : State :=
  let x := s.ax a
  if x.blendSeg then
    match x.queue with
    | w :: w' :: _ =>
      let (_, v1, len) := blendOf s a x.neg w w'
      let rem := (x.tgt - x.p) * x.sign
      let vi : Int := (w.v : Int) * 65536
      if rem * 2 * hz ≤ vi * len then
        -- the blend begins where v_i reaches the waypoint at its midpoint, and so far into it as the axis has passed that point
        let b : Blend := { v0 := x.sign * vi, v1 := v1, p0 := x.tgt - x.sign * rdiv (vi * len) (2 * hz), len := len
                           elapsed := (rdiv (vi * len - rem * 2 * hz) (2 * vi)).toNat }
        s.modAx a fun x => { x with blend := some b, phase := 3 }
      else
        let u := x.v * x.sign
        let lim : Int := (x.mvV : Int) * 65536
        let dv := dvOf x.mvA dt
        let u1 := u + clampI (-dv) dv (lim - u)
        s.modAx a fun x => { (x.advance u u1 dt) with phase := if u1 = lim then 1 else 0 }
    | _ => s
  else
    let r := x.step dt
    let s := s.modAx a fun _ => r.x
    let s := if r.kept then s.setF (moB a) R.MO_STAT.acc_clamped 1 else s
    if r.done then
      match x.st with
      | .route =>
        let d := match x.queue with | w :: _ => w.dwell | [] => 0
        let s := s.jointPassed a
        if d = 0 then s.nextSeg a else s.modAx a fun x => { x with dwelling := true, dwellEnd := s.now + 500000 * d }
      | .homing => home a s
      | _ => s.modAx a AxisSt.free
    else s

/-- One run within a blend: at its end the joint is passed and segment i + 1 begins with what is left of the period.
(DEDUCED, log 42) -/
def State.runBlend (home : Axis → State → State) (s : State) (a : Axis) (b : Blend) (dt : Nat) : State :=
  let t := b.elapsed + dt
  if t < b.len then
    let (v, p) := b.at t
    s.modAx a fun x => { x with
      p := p, v := v, acc := rdiv ((v - x.v) * hz) ((dt : Int) * 65536), blend := some { b with elapsed := t } }
  else
    let s := s.modAx a fun x => { x with p := b.p0 + distOf b.v0 b.v1 b.len, v := b.v1, acc := 0, blend := none }
    let s := (s.jointPassed a).nextSeg a
    if t = b.len then s
    else if (s.ax a).st = .route then s.runTo home a ((t - b.len : Nat) : Int) else s

/-- One run of a stop ramp (R229); its end frees the axis and discards the queue. -/
def State.runStop (s : State) (a : Axis) (dt : Int) : State :=
  let x := s.ax a
  let neg := decide (x.v < 0)
  let u : Int := x.v.natAbs
  let ended (x : AxisSt) : AxisSt := { x.free with queue := [], spd := none, v := 0, acc := 0 }
  if u = 0 then s.modAx a ended
  else
    let aS : Int := s.aStop a
    let rem := (x.tgt - x.p) * (if neg then -1 else 1)
    let dvS := dvOf aS dt
    let dv := if x.toTarget ∧ 0 < rem then
        let r := rdiv (u * u * dt) (2 * rem * hz)
        if dvS < r then r else dvS
      else dvS
    let x := { x with neg := neg }
    if u ≤ dv then
      -- rest within the period, after u² / (2 a), and never past the target
      let d := rdiv (u * u * dt) (2 * dv * hz)
      let d := if x.toTarget ∧ rem < d then rem else d
      s.modAx a fun _ => ended { x with p := x.p + x.sign * d }
    else s.modAx a fun _ => x.advance u (u - dv) dt

/-- One run in SPEED state (R228). -/
def State.runSpeed (s : State) (a : Axis) (dt : Int) : State :=
  let x := s.ax a
  match x.spd with
  | none => s
  | some (v, acc) =>
    let lim : Int := v * 65536
    let dv := dvOf acc dt
    let v1 := x.v + clampI (-dv) dv (lim - x.v)
    s.modAx a fun x => { x with
      p := x.p + distOf x.v v1 dt, v := v1, acc := rdiv ((v1 - x.v) * hz) (dt * 65536)
      phase := if v1 = lim then 1 else 0 }

/-- A homing run begins (R245). -/
def State.homeBegin (s : State) (k : Chan) : State :=
  let b := s.actSt k
  let sr := s.stepsRev k
  let neg := s.f b R.ST_HOME.home_dir = 0
  let trav := qdiv ((s.f b R.ST_HOME.home_travel : Int) * turn) sr
  s.modAx (.st k) fun x => { x with
    st := .homing, phase := 0, neg := neg, tgt := x.p + (if neg then -trav else trav)
    mvV := (qdiv ((s.f b R.ST_HOME.home_v : Int) * 65536) sr).toNat, mvA := s.aMax (.st k) }

/-- A motion command acts (R224, R227, R228, R231). -/
def State.act1 (a : Axis) (c : MoCmd) (s : State) : State :=
  match c with
  | .move tgt v acc => s.modAx a fun x => { x with
      st := .move, phase := 0, tgt := tgt, neg := decide (tgt < x.p), mvV := v, mvA := acc }
  | .stop => s.modAx a AxisSt.stopRamp
  | .setV v => s.modAx a fun x =>
      match x.st, x.spd with
      | .speed, some (t, acc) => if t = 0 then x else { x with spd := some (if t < 0 then -(v : Int) else v, acc) }
      | .move, _ => { x with mvV := v }
      | .route, _ => { x with mvV := v }
      | _, _ => x
  | .setA acc => s.modAx a fun x =>
      match x.st, x.spd with
      | .speed, some (t, _) => { x with spd := some (t, acc) }
      | .move, _ | .route, _ | .homing, _ => { x with mvA := acc }
      | _, _ => x
  | .speed v acc => s.modAx a fun x =>
      { x with spd := some (v, acc), st := if s.axRunning a then .speed else x.st, phase := 0 }
  | .append w =>
      let s := s.modAx a fun x => { x with queue := x.queue ++ [w] }
      if (s.ax a).st = .routeWait then s.nextSeg a else s
  | .routeStart o =>
      let s := (s.modAx a fun x => { x with openRt := o }).setF (moB a) R.MO_ROUTE.done 0
      s.nextSeg a
  | .routeLoad ws => s.modAx a fun x => { x with queue := ws }
  | .routeClear => s.modAx a fun x => { x with queue := [] }
  | .home => (match a with | .st k => s.homeBegin k | .mc _ => s)
  | .setPos p =>
      let s := (s.setMeasured a p).modAx a fun x => { x with p := p }
      s.setF (moB a) R.MO_STAT.pos_lost 0

/-- A motor axis whose profile follows the measured position (R223, R230). -/
def State.follow (s : State) (n : Mcn) : State :=
  s.modAx (.mc n) fun x => { x with p := s.measured (.mc n) }

/-- A PROF run over dt ticks, on the first `k` accepted commands (R222, R224): the commands act, then the profile
advances. (DEDUCED, log 42) -/
def State.profRun (home : Axis → State → State) (s : State) (a : Axis) (k : Nat) (dt : Nat) : State :=
  let now := (s.ax a).cmds.take k
  let s := s.modAx a fun x => { x with cmds := x.cmds.drop k }
  let s := s.each now (State.act1 a)
  -- a stored SPEED target acts from the entry to RUNNING
  let s := if s.axRunning a ∧ (s.ax a).st = .idle ∧ (s.ax a).spd.isSome then
      s.modAx a fun x => { x with st := .speed, phase := 0 } else s
  let x := s.ax a
  if dt = 0 then s
  else
    match x.st with
    | .move | .homing => s.runTo home a dt
    | .route =>
      if x.dwelling then s
      else match x.blend with
        | some b => s.runBlend home a b dt
        | none =>
          let s := s.runTo home a dt
          -- a blend that begins at this run starts its course at once
          match (s.ax a).blend with
          | some b => s.runBlend home a b dt
          | none => s
    | .stopping => s.runStop a dt
    | .speed => s.runSpeed a dt
    -- no target yet: the axis goes on at its velocity (R223)
    | .idle => s.modAx a fun x => { x with p := x.p + distOf x.v x.v dt }
    | .routeWait => s

/-! ## The stepper drive (R235 to R247) -/

/-! Cosine of a quarter of the electrical period, 256 points, in 1/2^30 (R236). -/

def cosTab0 : List Nat := [1073741824, 1073721611, 1073660973, 1073559913, 1073418433, 1073236540, 1073014240,
  1072751542, 1072448455, 1072104991, 1071721163, 1071296985, 1070832474, 1070327646, 1069782521, 1069197120,
  1068571464, 1067905576, 1067199483, 1066453210, 1065666786, 1064840240, 1063973603, 1063066909, 1062120190,
  1061133483, 1060106826, 1059040255, 1057933813, 1056787540, 1055601479, 1054375676, 1053110176, 1051805027,
  1050460278, 1049075980, 1047652185, 1046188946, 1044686319, 1043144360, 1041563127, 1039942680, 1038283080]
def cosTab1 : List Nat := [1036584389, 1034846671, 1033069992, 1031254418, 1029400018, 1027506862, 1025575020,
  1023604567, 1021595575, 1019548121, 1017462281, 1015338134, 1013175761, 1010975242, 1008736660, 1006460100,
  1004145648, 1001793390, 999403415, 996975812, 994510675, 992008094, 989468165, 986890984, 984276646, 981625251,
  978936898, 976211688, 973449725, 970651112, 967815955, 964944360, 962036435, 959092290, 956112036, 953095785,
  950043650, 946955747, 943832191, 940673101, 937478595, 934248793, 930983817]
def cosTab2 : List Nat := [927683790, 924348837, 920979082, 917574653, 914135678, 910662286, 907154608, 903612776,
  900036924, 896427186, 892783698, 889106597, 885396022, 881652112, 877875009, 874064853, 870221790, 866345964,
  862437520, 858496606, 854523370, 850517961, 846480531, 842411232, 838310216, 834177638, 830013654, 825818421,
  821592095, 817334838, 813046808, 808728167, 804379079, 799999706, 795590213, 791150767, 786681534, 782182683,
  777654384, 773096806, 768510122, 763894504, 759250125]
def cosTab3 : List Nat := [754577161, 749875788, 745146182, 740388522, 735602987, 730789757, 725949013, 721080937,
  716185713, 711263525, 706314559, 701339000, 696337036, 691308855, 686254647, 681174602, 676068911, 670937767,
  665781362, 660599890, 655393548, 650162530, 644907034, 639627258, 634323400, 628995660, 623644239, 618269338,
  612871159, 607449906, 602005783, 596538995, 591049748, 585538248, 580004702, 574449320, 568872310, 563273883,
  557654248, 552013618, 546352205, 540670223, 534967884]
def cosTab4 : List Nat := [529245404, 523502998, 517740883, 511959275, 506158392, 500338453, 494499676, 488642281,
  482766489, 476872522, 470960600, 465030947, 459083786, 453119340, 447137835, 441139496, 435124548, 429093217,
  423045732, 416982319, 410903207, 404808624, 398698801, 392573967, 386434353, 380280190, 374111709, 367929144,
  361732726, 355522689, 349299266, 343062693, 336813204, 330551034, 324276419, 317989595, 311690799, 305380268,
  299058239, 292724951, 286380643, 280025552, 273659918]
def cosTab5 : List Nat := [267283981, 260897982, 254502159, 248096755, 241682010, 235258165, 228825464, 222384147,
  215934457, 209476638, 203010932, 196537583, 190056834, 183568930, 177074115, 170572633, 164064728, 157550647,
  151030634, 144504935, 137973796, 131437462, 124896179, 118350194, 111799753, 105245103, 98686491, 92124163,
  85558366, 78989349, 72417357, 65842639, 59265442, 52686014, 46104602, 39521455, 32936819, 26350943, 19764076,
  13176464, 6588356, 0]

/-- cos of point i of a quarter period, 0 to 256. -/
def cosQuarter (i : Nat) : Nat := nth (cosTab0 ++ cosTab1 ++ cosTab2 ++ cosTab3 ++ cosTab4 ++ cosTab5) i 0

/-- cos of a grid point in 1/256 full steps: 1,024 points an electrical period (R53). -/
def cosIdx (idx : Int) : Int :=
  let m := uns 10 idx
  if m ≤ 256 then cosQuarter m
  else if m ≤ 512 then -(cosQuarter (512 - m) : Int)
  else if m ≤ 768 then -(cosQuarter (m - 512) : Int)
  else cosQuarter (1024 - m)

/-- Derating factor of a stepper cluster in 1/4,096 (R241, R306). -/
def State.kiSt (s : State) (r : Rg) : Nat := if r = 0 then s.f pk R.TH_ST_STAT.ki_sc0 else s.f pk R.TH_ST_STAT.ki_sc1

/-- Is the axis moving, from the run at which its move, route segment or homing run begins (R241)?
(DEDUCED, log 43) -/
def AxisSt.underWay (x : AxisSt) : Bool :=
  x.v != 0 || (match x.st with
    | .move | .homing => true
    | .route => !x.dwelling && x.blend.isNone
    | _ => false)

/-- Present level of a channel: the code of ST_DRV_STAT.cur and the current in mA before derating (R241, R242). -/
def State.coilLevel (s : State) (k : Chan) : Nat × Nat :=
  let b := s.actSt k
  let x := s.axS[k]
  let st := (s.cl[stCl k]).st
  let run := if x.st = .homing then s.f b R.ST_CUR2.i_home else s.f b R.ST_CUR.i_run
  let hold := Nat.min (s.f b R.ST_CUR.i_hold) run
  if (s.stp[k]).tripped ∨ !s.chanOn k then (0, 0)
  else
    match st with
    | .unused | .stopped | .safe | .faulted => (0, 0)
    | .armed => if s.fb (eff (stB k)) R.ST_CFG.arm_hold then (2, hold) else (0, 0)
    | .starting => (2, hold)
    | .running | .stopping =>
      if x.underWay then (1, run)
      else if st = .running ∧ (s.stp[k]).standby then (3, Nat.min (s.f b R.ST_CUR2.i_standby) hold)
      else (2, hold)

/-- Number of segments in service of a coil's bridge. -/
def segCount (m : Nat) : Nat := (List.range 18).foldl (fun c b => c + b2n (bitAt m b)) 0

/-- Reference of a coil at a grid point (R236, R247). -/
def State.coilRef (s : State) (k : Chan) (x : Fin 2) (idx : Int) : Int :=
  let i : Int := (s.coilLevel k).2 * s.kiSt (stRg k)
  -- sin is cos a quarter period earlier
  let c := if x.val = 0 then cosIdx idx else cosIdx (idx - 256)
  let m := rdiv (i * c.natAbs * 255) (1500 * 4096 * 1073741824)
  let lim : Int := (Nat.min 16 (segCount ((s.stp[k]).coils[x]).inServ) * 255 / 16 : Nat)
  let m := if lim < m then lim else m
  if c < 0 then -m else m

/-- A coil takes a reference (R239, R240): a zero reference puts it in fast decay until its current has gone, and one that
is not zero ends that; the window of R243 holds the reference at 0. The share of fast decay follows the reference that an
emission gives (R239). -/
def Coil.take (c : Coil) (now : Nat) (off emission : Bool) (r : Int) : Coil :=
  if off then { c with ref := r, chop := .off, win := .none, openRun := 0 }
  else if c.win ≠ .none then c
  else
    let c := { c with ref := r, rise := if !emission then c.rise
                                        else if c.ref.natAbs < r.natAbs then true
                                        else if r.natAbs < c.ref.natAbs then false else c.rise }
    if r = 0 then (match c.chop with | .off | .zero => c | _ => { c with chop := .zero, phaseAt := now })
    else
      match c.chop with
      | .off | .zero => { c with chop := .on, neg := decide (r < 0), phaseAt := now }
      | _ => c

/-- Are the bridges off: no level, or a standby current of 0 (R241, R242)? -/
def State.bridgesOff (s : State) (k : Chan) : Bool :=
  let (c, i) := s.coilLevel k
  c == 0 || (c == 3 && i == 0)

/-- References of both coils at the present grid point, after an emission or for another reason. -/
def State.coilRefsBy (s : State) (k : Chan) (emission : Bool) : State :=
  let off := s.bridgesOff k
  let idx := (s.stp[k]).idx
  s.each ([0, 1] : List (Fin 2)) fun x s => s.modCoil k x fun c => c.take s.now off emission (s.coilRef k x idx)
def State.coilRefs (s : State) (k : Chan) : State := s.coilRefsBy k false

/-- References of every channel of a stepper cluster. -/
def State.coilRefsRg (s : State) (r : Rg) : State := s.each (rgChans r) fun k s => s.coilRefs k

/-- Grid of a level: spacing and offset in 1/256 full steps (R236). -/
def gridOf (level : Nat) (half : Bool) : Int × Int :=
  match level with
  | 0 => (1, 0) | 1 => (4, 0) | 2 => (16, 0) | 3 => (if half then 128 else 64, 0) | _ => (256, 128)

/-- Does a point lie on a grid? -/
def onGrid (g : Int × Int) (i : Int) : Bool := (i - g.2) % g.1 == 0

/-- The grid point next to `idx`, upwards or downwards. -/
def nextPoint (g : Int × Int) (idx : Int) (up : Bool) : Int :=
  let q := (idx - g.2) / g.1
  if up then g.2 + g.1 * (q + 1) else if (idx - g.2) % g.1 = 0 then g.2 + g.1 * (q - 1) else g.2 + g.1 * q

/-- Magnitude of the profile velocity in full steps/s times 2^32. -/
def State.fsSpeed (s : State) (k : Chan) : Int := (s.axS[k]).v.natAbs * s.stepsRev k

/-- The level due (R237). -/
def State.levelDue (s : State) (k : Chan) : State :=
  let b := s.actSt k
  let fixed := s.f b R.ST_USTEP2.fixed
  let v := s.fsSpeed k
  let thr (i : Nat) : Int := match i with
    | 0 => s.f b R.ST_USTEP0.thr0 | 1 => s.f b R.ST_USTEP0.thr1
    | 2 => s.f b R.ST_USTEP1.thr2 | _ => s.f b R.ST_USTEP1.thr3
  let hy : Int := 16 - s.f b R.ST_USTEP2.hyst
  let up (d : Nat) : Nat := if d < 4 ∧ thr d * turn ≤ v then d + 1 else d
  let down (d : Nat) : Nat := if 0 < d ∧ v * 16 < thr (d - 1) * hy * turn then d - 1 else d
  let d := (s.stp[k]).due
  let d := if fixed ≤ 4 then fixed
    else
      let u := up (up (up (up d)))
      if u = d then down (down (down (down d))) else u
  s.modStp k fun p => { p with due := d }

/-- Does the channel test its back-EMF (R243)? -/
def State.stallTest (s : State) (k : Chan) : Bool :=
  let b := s.actSt k
  let homing := (s.axS[k]).st == .homing
  (s.fb b R.ST_STALL.stall_en || (homing && s.f b R.ST_HOME.home_mode == 1))
    && decide ((s.f b R.ST_STALL.stall_vmin : Int) * turn ≤ s.fsSpeed k)
    && decide ((s.stp[k]).level ≤ 3)

/-- The level after an emission at a point (R238). -/
def State.coincide (s : State) (k : Chan) : State :=
  let p := s.stp[k]
  let halfSet := s.fb (s.actSt k) R.ST_USTEP2.half
  let nl := if p.level < p.due then p.level + 1 else p.level - 1
  let coarse := if p.level < nl then gridOf nl halfSet else gridOf p.level p.half
  if p.due ≠ p.level ∧ onGrid coarse p.idx then
    s.modStp k fun p => { p with level := nl, half := if nl = 3 then halfSet else p.half }
  else if p.level = 3 ∧ p.half ≠ halfSet ∧ onGrid (128, 0) p.idx then s.modStp k fun p => { p with half := halfSet }
  else s

/-- The indexer's place, in 1/256 full steps from the coil origin times 2^32 · 12500: on the straight line in time that runs
over one servo period of 25 us from the previous set-point to the present one (R235). (DEDUCED, log 43) -/
def State.linePos (s : State) (k : Chan) : Int :=
  let p := s.stp[k]
  let t : Int := Nat.min 12500 (s.now - p.lineAt)
  (p.lineFrom * (12500 - t) + (s.axS[k]).p * t - p.origin * 12500) * 256 * s.stepsRev k

/-- The indexer emits the next grid point towards its place, when that point lies nearer to it, 500 ns or more after the
latest emission (R235). (DEDUCED, log 43) -/
def State.emit (s : State) (k : Chan) : State :=
  let p := s.stp[k]
  let u := s.linePos k
  let at_ (i : Int) : Int := i * turn * 12500
  let nxt := nextPoint (gridOf p.level p.half) p.idx (decide (at_ p.idx < u))
  if (s.cl[stCl k]).st.moving ∧ p.emitAt + 250 ≤ s.now ∧ (at_ nxt - u).natAbs < (at_ p.idx - u).natAbs then
    let test := s.stallTest k && !s.bridgesOff k
    let before := (s.stp[k]).coils
    let s := (s.modStp k fun p => { p with idx := nxt, emitAt := s.now }).coincide k
    let s := s.coilRefsBy k true
    s.each ([0, 1] : List (Fin 2)) fun x s =>
      let c := (s.stp[k]).coils[x]
      if test ∧ (before[x]).win = .none ∧ (before[x]).ref ≠ 0 ∧ c.ref = 0 then
        s.modCoil k x fun c => { c with win := .waiting s.now }
      else s
  else s

/-- Success of a homing run (R245): both positions take home_pos and the axis is freed. -/
def State.homeDone (s : State) (k : Chan) : State :=
  let p := qdiv (s.fi (s.actSt k) R.ST_HOME2.home_pos * turn) (s.stepsRev k)
  let s := s.setMeasured (.st k) p
  let s := s.modAx (.st k) fun x => { x.free with p := p, v := 0, acc := 0 }
  (s.setF (stB k) R.MO_STAT.homed 1).coilRefs k

/-- End of travel of a homing run (R245). -/
def State.homeTravel (a : Axis) (s : State) : State :=
  match a with
  | .mc _ => s
  | .st k =>
    if s.f (s.actSt k) R.ST_HOME.home_mode = 0 then s.homeDone k
    else
      let s := (s.modAx a AxisSt.free).setF (stB k) R.MO_STAT.homed 0
      s.raise (evSc (stRg k) 1)

/-- A stall (R243 to R245): the end of a homing run with home_mode 1, and otherwise the stall event. -/
def State.stall (s : State) (k : Chan) : State :=
  let s := s.modStp k fun p => { p with lowRun := 0 }
  if (s.axS[k]).st = .homing then
    if s.f (s.actSt k) R.ST_HOME.home_mode = 1 then s.homeDone k else s
  else
    let s := (s.inc (stB k) R.ST_DRV_CNT.stall_count).setF (stB k) R.MO_STAT.homed 0
    s.raise (evSc (stRg k) 0)

/-- A window ends with its conversion (R243). (DEDUCED, log 43) -/
def State.windowEnd (s : State) (k : Chan) (x : Fin 2) (code : Nat) : State :=
  match ((s.stp[k]).coils[x]).win with
  | .running since counts =>
    -- t_zcw is in steps of 10 us
    s.onlyIf (decide (since + 5000 * s.f (s.actSt k) R.ST_STALL.t_zcw ≤ s.now)) fun s =>
    let s := s.modCoil k x fun c => { c with win := .none }
    let b := s.actSt k
    let fits := decide ((s.f b R.ST_STALL.t_zcw : Int) * 20 * s.fsSpeed k ≤ 1000000 * turn)
    let d := ((code : Int) - 8192).natAbs * 75000
    let s := if counts ∧ fits then
        let low := decide (d < s.f b R.ST_STALL.sg_thr * 20 * 16384)
        let s := s.setF (stB k) R.ST_DRV_STAT.verdict_low (b2n low)
        let s := s.setF (stB k) R.ST_DRV_STAT.bemf (qdiv d 16384).toNat
        let s := s.modStp k fun p => { p with lowRun := if low then p.lowRun + 1 else 0 }
        if low ∧ Nat.max 1 (s.f b R.ST_STALL.sg_n) ≤ (s.stp[k]).lowRun then s.stall k else s
      else s
    -- the reference of the emissions during the window
    s.coilRefsBy k true
  | _ => s

/-- The current of a decaying coil has fallen below 30 mA (R240, R243). (DEDUCED, log 43) -/
def State.coilZero (s : State) (k : Chan) (x : Fin 2) : State :=
  s.modCoil k x fun c =>
    if c.chop = .zero then
      { c with chop := .off
               win := match c.win with
                 | .waiting t => .running s.now (decide (s.now - t ≤ 5000))
                 | w => w }
    else c

/-- Blanking and off time of a channel's chopper in ticks. -/
def State.chopBlank (s : State) (k : Chan) : Nat := s.f (s.actSt k) R.ST_CHOP.t_blank * 125
def State.chopOffTime (s : State) (k : Chan) : Nat := s.f (s.actSt k) R.ST_CHOP.t_off * 250

/-- The on phase ends at its reference, after the blanking time (R239). (DEDUCED, log 43) -/
def State.onEnd (s : State) (k : Chan) (x : Fin 2) : State :=
  s.modCoil k x fun c =>
    if c.chop = .on ∧ c.phaseAt + s.chopBlank k ≤ s.now then { c with chop := .fast, phaseAt := s.now, openRun := 0 } else c

/-- Share of fast decay in the present off phase, in sixteenths (R239). -/
def State.decayShare (s : State) (k : Chan) (rise : Bool) : Nat :=
  s.f (s.actSt k) (if rise then R.ST_CHOP.fd_rise else R.ST_CHOP.fd_fall)

/-- The fast part of every off phase that has run its share goes over to slow decay (R239).
(DESIGN CHOICE, log 30; DEDUCED, log 43) -/
def State.decayEnds (s : State) : State :=
  s.each allSt fun k s => s.each ([0, 1] : List (Fin 2)) fun x s =>
    s.modCoil k x fun c =>
      if c.chop = .fast ∧ c.phaseAt + s.decayShare k c.rise * s.chopOffTime k / 16 ≤ s.now then { c with chop := .slow }
      else c

/-- An open load or overcurrent wears the bridge (R331). -/
def bridgeUnit (k : Chan) (x : Fin 2) : Nat := 0x6000 + 2 * k.val + x.val

/-- A new on phase begins: after the off time, or after an on phase of 200 us that did not reach a reference of 100 mA or
more, eight of which in a row are an open load (R239, R246). (DEDUCED, log 43) -/
def State.onBegin (s : State) (k : Chan) (x : Fin 2) : State :=
  let c := (s.stp[k]).coils[x]
  let start (s : State) : State := s.modCoil k x fun c =>
    { c with chop := .on, neg := decide (c.ref < 0), phaseAt := s.now }
  match c.chop with
  | .fast | .slow => if c.phaseAt + s.chopOffTime k ≤ s.now then start s else s
  | .on =>
    if 100000 ≤ s.now - c.phaseAt ∧ 100 * 255 ≤ c.ref.natAbs * 1500 then
      let run := c.openRun + 1
      let s := (start s).modCoil k x fun c => { c with openRun := run % 8 }
      if run = 8 then
        ((s.inc (stB k) R.ST_DRV_CNT.open_count).wear (bridgeUnit k x)).raise (evSc (stRg k) 3)
      else s
    else s
  | _ => s

/-- Overcurrent of a bridge (R246). -/
def State.bridgeOc (s : State) (k : Chan) (x : Fin 2) : State :=
  let s := (s.modStp k fun p => { p with tripped := true }).modAx (.st k) fun q => { q with v := 0, acc := 0 }
  let s := (s.setF (stB k) R.MO_STAT.homed 0).inc (stB k) R.ST_DRV_CNT.ocp_count
  let s := (s.wear (bridgeUnit k x)).raise (evSc (stRg k) 2)
  s.coilRefs k

/-- The channel and coil of an H-bridge (R247). -/
def bridgeChan (h : Fin 16) : Chan := ⟨h.val / 2, by omega⟩
def bridgeCoil (h : Fin 16) : Fin 2 := ⟨h.val % 2, by omega⟩

/-- A bridge segment outside its share is switched off (R246). -/
def State.bridgeSeg (s : State) (h : Fin 16) (seg : Nat) : State :=
  let k := bridgeChan h
  let x := bridgeCoil h
  if bitAt ((s.stp[k]).coils[x]).inServ seg then
    let s := s.modCoil k x fun c => { c with inServ := c.inServ - 2 ^ seg, want := c.want + 1 }
    let s := s.inc (stB k) R.ST_DRV_CNT.seg_off
    (s.wear (0x7000 + 18 * h.val + seg)).coilRefs k
  else s

/-- A spare segment is switched in at standstill (R247): velocity 0 for 1 ms and at the start of an on phase, or bridges
off. (DEDUCED, log 43) -/
def State.bridgeSpare (s : State) (h : Fin 16) : State :=
  let k := bridgeChan h
  let x := bridgeCoil h
  let c := (s.stp[k]).coils[x]
  let still := s.bridgesOff k
    || (c.chop == .on && c.phaseAt == s.now && (s.axS[k]).zeroAt.any fun t => decide (500000 ≤ s.now - t))
  if 0 < c.want ∧ still then
    match (List.range 18).find? (bitAt c.spare) with
    | some j =>
      let s := s.modCoil k x fun c =>
        { c with inServ := c.inServ + 2 ^ j, spare := c.spare - 2 ^ j, want := c.want - 1 }
      let s := s.substituted
      let s := if ((s.stp[k]).coils[x]).spare = 0 then s.poolEmpty 7 else s
      s.coilRefs k
    | none => s.modCoil k x fun c => { c with want := 0 }
  else s

/-- A PROF run of a stepper channel (R222, R237, R241). -/
def State.profStepper (s : State) (k : Chan) (cmds dt : Nat) : State :=
  let s := s.modStp k fun q => { q with lineFrom := (s.axS[k]).p, lineAt := s.now }
  let s := s.profRun State.homeTravel (.st k) cmds dt
  let s := s.levelDue k
  let moving := (s.axS[k]).v ≠ 0
  let s := s.modAx (.st k) fun x => { x with zeroAt := if moving then none else some (x.zeroAt.getD s.now) }
  let s := if moving then s.modStp k fun p => { p with standby := false } else s
  s.coilRefs k

/-- A PROF run of a motor axis (R222, R223): until RUNNING the profile follows the measurement. -/
def State.profMotor (s : State) (n : Mcn) (cmds dt : Nat) : State :=
  let s := s.profRun (fun _ s => s) (.mc n) cmds dt
  if (s.cl[mcCl n]).st = .starting then
    let s := s.follow n
    if s.st n R.MC_MO_MODE.mode = 0 then
      s.modAx (.mc n) fun x => { x with v := qdiv ((s.mc[n]).dat.speed * 65536) (s.polePairs n) }
    else s
  else s

/-- The measured position of a motor axis at a current sample (R223), and the profile that follows it where the axis does
not run. -/
def State.measureAxis (s : State) (n : Mcn) : State :=
  if s.conv n then s
  else
    let d := (s.mc[n]).dat
    let s :=
      if d.valid then
        let a := d.at (((s.mc[n]).pwm.sampleAt : Int) * 16)
        s.modAx (.mc n) fun x =>
          { x.travel (s.polePairs n) (match x.prevAng with | some p => wrapDiff a p | none => 0) with prevAng := some a }
      else (s.modAx (.mc n) fun x => { x with prevAng := none }).setF (moB (.mc n)) R.MO_STAT.pos_lost 1
    match (s.cl[mcCl n]).st with
    | .running | .stopping => s
    | _ => s.follow n

/-- A waypoint's dwell has passed (R234): the next segment begins, or the route completes or waits. -/
def State.dwellOver (s : State) (a : Axis) : State :=
  if (s.ax a).st = .route ∧ (s.ax a).dwelling ∧ (s.ax a).dwellEnd ≤ s.now then s.nextSeg a else s

/-- The velocity has stayed 0 for t_standby (R241). -/
def State.standbyDue (s : State) (k : Chan) : State :=
  match (s.axS[k]).zeroAt with
  | some t =>
    if (s.axS[k]).v = 0 ∧ t + s.f (s.actSt k) R.ST_STBY.t_standby * 500000 ≤ s.now then
      (s.modStp k fun p => { p with standby := true }).coilRefs k
    else s
  | none => s

end Sys2Proof.Machine
end

