-- ==== Sys2Proof/Machine/Thermal.lean ====
section
/-! DEFINITION. Thermal management (11_thermal_management R295 to R310): conversions, the hot-spot sensors and their spare,
limits and rates, the switch and brake models, derating, and the cold limits. Temperatures are in 1/64 °C. -/

namespace Sys2Proof.Machine

/-- Full scale: the reading of a broken source (R295). -/
def tBroken : Int := 32767
/-- A signed 10-bit limit in 0.5 °C (R295). -/
def tLim (f : Nat) : Int := sgn 10 f * 32
/-- 2 K. -/
def twoK : Int := 128

/-! ## Readings -/

/-- A hot-spot code (R297). (DEDUCED, log 47) -/
def hotT (unit code : Nat) : Int := 1600 + (code : Int) - (Config.c25 unit : Nat)

/-- A thermistor code (R298): T = 1 / (1/298.15 + ln (R / r25) / beta) - 273.15.
(DESIGN CHOICE, log 13; DEDUCED, log 47) -/
def ntcT (code r25 beta : Nat) : Int :=
  let num := 10000 * code
  let den := (16384 - code) * Nat.max 1 r25 * 10
  let beta := Nat.max 1 beta
  -- 1/T in units of 2^-64 per K
  let inv := fxOne * 100 / 29815 + lnFx num den / beta
  clampI (-32768) 32766 (qdiv (320 * fxOne - 87408 * inv) (5 * inv))   -- 273.15 * 64 = 87408 / 5

/-- Roles of a die, spare sensor number, source of its events. -/
def dieRoles (d : Fin 3) : Nat := if d = 0 then 6 else 12
def sensUnit (d : Fin 3) (p : Nat) : Nat := 0x8000 + 16 * d.val + p

def State.modDie (s : State) (d : Fin 3) (g : DieTh → DieTh) : State := { s with die := upd s.die d (g s.die[d]) }
def State.modNtc (s : State) (k : Fin 4) (g : Ntc → Ntc) : State := { s with ntc := upd s.ntc k (g s.ntc[k]) }

/-- Package-set fields in force: the reset set applies until READY (R296). -/
def State.thF (s : State) (f : Fld) (i : Nat) : Nat :=
  match s.dev.st with
  | .off | .basecamp | .verify => f.get (regReset (f.off + i))
  | _ => s.f (s.actPkg + i) f

/-! ## Limits and rates (R303, R304) -/

/-- One limit: reached at or above it, released 2 K below. -/
def limStep1 (on : Bool) (t l : Int) : Bool := if on then decide (l - twoK ≤ t) else decide (l ≤ t)

/-- A level source that several instances share: raised at each reach, asserted while any holds (R303, R309, R314). -/
def State.reach (s : State) (e : Nat) (new any : Bool) : State :=
  if any then
    if s.rails.contains e then (if new then s.raise e else s) else s.assertOn e
  else s.assertOff e

/-- A source at its limits; the new limit record, and which limits are newly reached. -/
def LimSt.next (l : LimSt) (t w d tr : Int) : LimSt :=
  { l with warn := limStep1 l.warn t w, derate := limStep1 l.derate t d, trip := limStep1 l.trip t tr }

/-- Ticks between the readings of a history: one sixteenth of a window in 0.1 s. -/
def histStep (win : Nat) : Nat := Nat.max 1 win * 3125000

/-- A reading enters the history (R304). (DEDUCED, log 47) -/
def Hist.push (h : Hist) (now win : Nat) (t : Int) : Hist :=
  match h.at_ with
  | some a => if histStep win ≤ now - a then { vals := (t :: h.vals).take 16, at_ := some now } else h
  | none => { vals := [t], at_ := some now }

/-- Does the reading exceed the rate limit against the reading one window earlier (R304)? -/
def Hist.fast (h : Hist) (win rate : Nat) (t : Int) : Bool :=
  rate != 0 && h.vals.length == 16
    && decide ((rate * 64 * Nat.max 1 win : Nat) < (t - nth h.vals 15 t) * 10)

/-- A rate event, once per excursion (R304). -/
def State.rateEvent (s : State) (e : Nat) (was is : Bool) : State :=
  if is ∧ !was then (s.inc pk R.TH_CNT.rate_count).raise e else s

/-! ## The thermal pass (R296, R297, R309, R310) -/

/-- The physical sensor of a role. -/
def State.sensor (s : State) (d : Fin 3) (r : Nat) : Nat :=
  if s.f d.val R.TH_SENS_STAT.spare_used = 1 ∧ s.f d.val R.TH_SENS_STAT.spare_role = r then dieRoles d else r

/-- Is a physical sensor broken? -/
def State.sensBroken (s : State) (d : Fin 3) (p : Nat) : Bool := bitAt (s.f d.val R.TH_SENS_STAT.broken) p

/-- Reading of a role (R297, R309). -/
def State.roleT (s : State) (d : Fin 3) (code : Nat → Nat) (r : Nat) : Int :=
  let p := s.sensor d r
  if s.sensBroken d p then tBroken
  else hotT (sensUnit d p) (code p) + (if p = dieRoles d then 640 else 0)

/-- A sensor becomes broken (R309, R310): the die's spare takes over its role at once, or the pool is empty. -/
def State.sensBreak (s : State) (d : Fin 3) (p : Nat) : State :=
  if s.sensBroken d p then s
  else
    let used := s.fb d.val R.TH_SENS_STAT.spare_used
    let spare := dieRoles d
    let spareGood := !used && !s.sensBroken d spare
    let s := s.setF d.val R.TH_SENS_STAT.broken (s.f d.val R.TH_SENS_STAT.broken ||| 2 ^ p)
    let s := s.inc pk R.TH_CNT.broken_count
    let s := s.reach (16 + d.val) true true
    if p = spare then
      -- a spare that still waited leaves the pool without one; one in service leaves its role at full scale
      if used then s else (s.setF d.val R.TH_SENS_STAT.no_spare 1).poolEmpty 8
    else if spareGood then
      let s := ((s.setF d.val R.TH_SENS_STAT.spare_role p).setF d.val R.TH_SENS_STAT.spare_used 1).setF d.val
        R.TH_SENS_STAT.no_spare 1
      let s := s.modDie d fun x => { x with
        hist := x.hist.set p { vals := [], at_ := none }, outlier := x.outlier.set p 0, rate := x.rate.set p false }
      (s.substituted).poolEmpty 8
    else s

/-- The largest reading with its role, the first role that has it. -/
def maxRole : List Int → Nat → Int × Nat → Int × Nat
  | [], _, m => m
  | t :: rest, i, m => maxRole rest (i + 1) (if m.1 < t then (t, i) else m)

/-- The neighbour rule of R309 and the wear of R331 for one role. -/
def State.outlier (s : State) (d : Fin 3) (temps : List Int) (r : Nat) : State :=
  let n := dieRoles d
  let t := nth temps r 0
  let far (k : Int) : Bool :=
    decide (k < (t - nth temps ((r + 1) % n) 0).natAbs) && decide (k < (t - nth temps ((r + n - 1) % n) 0).natAbs)
  let p := s.sensor d r
  if s.sensBroken d p then s
  else
    let s := if far 640 then s.wear (sensUnit d p) else s
    let run := if far 1600 then nth (s.die[d]).outlier r 0 + 1 else 0
    let s := s.modDie d fun x => { x with outlier := x.outlier.set r run }
    if 3 ≤ run ∨ (far 640 ∧ s.worn (sensUnit d p)) then s.sensBreak d p else s

/-- Sources of a die: warn, trip, rate and, for a Polrex die, derate. -/
def State.dieLimits (s : State) (d : Fin 3) (t : Int) : State :=
  let old := (s.die[d]).lim
  let lf (f : Fld) : Int := tLim (s.thF f d.val)
  let l := old.next t (lf R.TH_LIM_DIE.warn) (lf R.TH_LIM_DIE.derate) (lf R.TH_LIM_DIE.trip)
  let s := s.modDie d fun x => { x with lim := l }
  let s := s.level (7 + d.val) l.warn
  let s := s.level (10 + d.val) l.trip
  if d = 0 then s else s.level (18 + d.val) l.derate

/-- The rate test of one role (R304). -/
def State.dieRate (s : State) (d : Fin 3) (temps : List Int) (r : Nat) : State :=
  let t := nth temps r 0
  let win := s.thF R.TH_RATE_CFG.rate_win 0
  let h := nth (s.die[d]).hist r { vals := [], at_ := none }
  let was := nth (s.die[d]).rate r false
  let is := h.fast win (s.thF R.TH_RATE_CFG.die_rate 0) t
  let s := s.modDie d fun x => { x with hist := x.hist.set r (h.push s.now win t), rate := x.rate.set r is }
  s.rateEvent (13 + d.val) was is

/-- The pass of one die. -/
def State.diePass (s : State) (d : Fin 3) (code : Nat → Nat) : State :=
  let n := dieRoles d
  let s := s.each (List.range (n + 1)) fun p s =>
    if code p < 320 ∨ 16000 < code p then s.sensBreak d p else s
  let temps := (List.range n).map (s.roleT d code)
  let s := s.each (List.range n) (fun r s => s.outlier d temps r)
  let temps := (List.range n).map (s.roleT d code)
  let (t, r) := maxRole temps 0 (-32768, 0)
  let s := s.modDie d fun x => { x with temps := temps }
  let s := (s.setF d.val R.TH_DIE_T.t_die (uns 16 (clampI (-32768) tBroken t))).setF d.val R.TH_DIE_T.hottest r
  let s := s.dieLimits d t
  s.each (List.range n) (fun r s => s.dieRate d temps r)

/-- Die temperature as kept. -/
def State.dieT (s : State) (d : Fin 3) : Int := s.fi d.val R.TH_DIE_T.t_die

/-- One thermistor input (R298, R303, R308, R309). -/
def State.ntcPass (s : State) (k : Fin 4) (code : Nat) : State :=
  let bad := decide (code ≤ 150) || decide (16200 ≤ code)
  let old := s.ntc[k]
  let run := if bad then 0 else old.inRange + 1
  let broken := if bad then true else old.broken && decide (run < 1000)
  let t := if broken then tBroken else ntcT code (s.f k.val R.TH_NTC_CFG.r25) (s.f k.val R.TH_NTC_CFG.beta)
  let lf (f : Fld) : Int := tLim (s.thF f k.val)
  let l := old.lim.next t (lf R.TH_LIM_NTC.warn) (lf R.TH_LIM_NTC.derate) (lf R.TH_LIM_NTC.trip)
  let win := s.thF R.TH_RATE_CFG.rate_win 0
  let is := old.hist.fast win (s.thF R.TH_RATE_CFG.ntc_rate 0) t
  let s := s.modNtc k fun _ =>
    { t := t, broken := broken, inRange := run, lim := { l with rate := is }, hist := old.hist.push s.now win t }
  let newBroken := broken && !old.broken
  let s := if newBroken then s.inc pk R.TH_CNT.broken_count else s
  let any (p : Ntc → Bool) : Bool := s.ntc.any p
  let s := s.reach 30 newBroken (any (·.broken))
  let s := s.level (21 + k.val) l.warn
  let s := s.level (25 + k.val) l.trip
  let s := s.reach 31 (l.derate && !old.lim.derate) (any (·.lim.derate))
  let s := s.rateEvent 29 old.lim.rate is
  -- cold limits: below the limit, until 2 K above it
  let cold (f : Fld) (was : Bool) : Bool :=
    !broken && (if was then decide (t < tLim (s.thF f k.val) + twoK) else decide (t < tLim (s.thF f k.val)))
  let block := cold R.TH_COLD.cold_block (s.fb k.val R.TH_NTC_T.block)
  let cap := cold R.TH_COLD.cold_cap (s.fb k.val R.TH_NTC_T.cap)
  (((s.setF k.val R.TH_NTC_T.t_ntc (uns 16 t)).setF k.val R.TH_NTC_T.broken (b2n broken)).setF k.val
    R.TH_NTC_T.block (b2n block)).setF k.val R.TH_NTC_T.cap (b2n cap)

/-- Is a START of the cluster blocked by a cold limit (R308)? -/
def State.coldBlocked (s : State) (c : Cl) : Bool :=
  (List.range 4).any fun k => s.fb k R.TH_NTC_T.block && bitAt (s.f k R.TH_NTC_MASK.cold_mask) c.val

/-- The cold-block marks of the clusters (MC_TH_STAT.cold_block). -/
def State.coldMarks (s : State) : State :=
  s.each allMc fun n s => s.setF (mcB n) R.MC_TH_STAT.cold_block (b2n (s.coldBlocked (mcCl n)))

/-- A thermal pass: each powered die, and the thermistors its group reads. -/
def State.thermalPass (s : State) (t : ThermIn) : State :=
  let code {m : Nat} (v : Vector Code m) (p : Nat) : Nat := ((v.toList[p]?).map BitVec.toNat).getD 0
  if s.dev.st = .off then s
  else
    let s := s.diePass 0 (code t.kilid)
    let powered (d : Rg) (s : State) : Bool := !(s.link[d]).supplyLost
    let s := if powered 0 s then
        ((s.diePass 1 (code t.polA)).ntcPass 0 (code t.th 0)).ntcPass 1 (code t.th 1) else s
    let s := if powered 1 s then
        ((s.diePass 2 (code t.polB)).ntcPass 2 (code t.th 2)).ntcPass 3 (code t.th 3) else s
    s.coldMarks

/-! ## Switch and brake models (R299 to R302) -/

/-- The three stages over dt ticks, with the loss in 1e-11 W, resistances in 10 mK/W and time constants in ticks.
(DEDUCED, log 47) -/
def fosterStep (th : Vector Int 3) (p : Int) (r tau : Vector Nat 3) (dt : Nat) : Vector Int 3 :=
  let one (i : Fin 3) : Int :=
    let target := rdiv (p * r[i] * 67108864) 10000000000000
    th[i] + rdiv ((target - th[i]) * oneMinusExp dt tau[i]) fxOne
  #v[one 0, one 1, one 2]

/-- Junction temperature over a reference, with the mark that it left its format (R174). -/
def tjOf (ref : Int) (th : Vector Int 3) : Fx :=
  let t := ref + rdiv (th[(0 : Fin 3)] + th[(1 : Fin 3)] + th[(2 : Fin 3)]) 1048576
  let c := clampI (-32768) 32766 t
  ⟨c, decide (c ≠ t)⟩

/-- Interval of the on side of a switch in the carrier period, in 1/65,536 of it (R300). -/
def State.onShare (s : State) (n : Mcn) (sw : Fin 6) : Int :=
  let w := (s.mc[n]).pwm
  let p : Fin 3 := ⟨sw.val / 2, by omega⟩
  let high := sw.val % 2 = 0
  match (s.mc[n]).short with
  | .held h => if h = high then 65536 else 0
  | _ =>
    if !s.modulates n then 0
    else
      let t : Int := 16 * w.period
      let lowT : Int := w.inForce.cUp[p] + w.inForce.cDn[p]
      let hi := if w.inForce.hi[p] then clampI 0 t (t - lowT) else 0
      let lo := if w.inForce.lo[p] then clampI 0 t lowT else 0
      qdiv ((if high then hi else lo) * 65536) t

/-- Current of a phase in mA. -/
def State.phaseMa (s : State) (n : Mcn) (p : Fin 3) : Int := qdiv ((s.grp[mcG n]).amps[p] * s.iBase n) q1

/-- A current sample enters the sums of the six models (R300, R301); the commands are counted where they are given. -/
def State.modelSample (s : State) (n : Mcn) : State :=
  s.each allSw fun sw s =>
    let p : Fin 3 := ⟨sw.val / 2, by omega⟩
    let i := s.phaseMa n p
    let c := s.onShare n sw
    s.modModel n sw fun m => { m with
      sumIC := m.sumIC + i * i * c, sumI := m.sumI + i.natAbs, cnt := m.cnt + 1
      carried := m.carried + b2n (decide (0 < c) && decide (s.iBase n < 20 * i.natAbs)) }

/-- A Vds result of a switch (R300): it counts in the on-hold phase with at least 5 % of I_base. -/
def State.vdsResult (s : State) (n : Mcn) (sw : Fin 6) (code : Nat) : State :=
  let i : Int := (s.phaseMa n ⟨sw.val / 2, by omega⟩).natAbs
  if (s.gate (swOut n sw)).phase = .onHold ∧ s.iBase n ≤ 20 * i ∧ 0 < i then
    let uv := qdiv (code * 750000) 16384 - 75000
    s.modModel n sw fun m => { m with
      sumR := m.sumR + qdiv (uv * 100) i, cntR := m.cntR + 1, rOnAt := some s.now }
  else s

/-- Reference temperature of a cluster's models (R299). -/
def State.modelRef (s : State) (n : Mcn) : Int :=
  match s.st n R.MC_TH_CEIL.ref_src with
  | 1 => (s.ntc[(0 : Fin 4)]).t | 2 => (s.ntc[(1 : Fin 4)]).t | 3 => (s.ntc[(2 : Fin 4)]).t
  | 4 => (s.ntc[(3 : Fin 4)]).t
  | 5 => s.dieT (if n.val < 3 then 1 else 2)
  | _ => tLim (s.st n R.MC_TH_CEIL.t_ref_fix)

/-- An energy of the ESW table at a mean current in 1/4,096 per unit (R301), in 1/16 µJ. -/
def State.esw (s : State) (n : Mcn) (off : Bool) (iq : Int) : Int :=
  let word (j : Nat) : Nat := s.bankF n 0 R.MC_TH_ESW.esw j
  let e (j : Nat) : Int := if j = 0 then 0 else if off then word j / 65536 else word j % 65536
  let st : Int := word 0 % 65536
  if st = 0 then 0
  else
    let j := (iq / st).toNat
    if 15 ≤ j then rdiv (e 15 * iq) (15 * st)
    else e j + rdiv ((iq - j * st) * (e (j + 1) - e j)) st

/-- The sums of a switch model that a run takes (R300, R301). -/
def Model.sums (m : Model) : List Int :=
  [m.sumIC, m.sumI, m.cnt, m.sumR, m.cntR, m.nOn, m.nOff, m.carried]

/-- One run of a switch model (R299 to R301, R309) at an instant, with the reference, VS and the sums that the job read when
it started: they go from the sums kept. (DEDUCED, log 47) -/
def State.modelRun (s : State) (n : Mcn) (sw : Fin 6) (at_ : Nat) (ref vs : Int) (sums : List Int) : State × Bool :=
  let m := (s.mc[n]).models[sw]
  let b := s.act n
  let g (k : Nat) : Int := nth sums k 0
  let dt := Nat.max 1 (at_ - m.lastAt)
  let aged := match m.rOnAt with
    | some t => decide (s.f b R.MC_TH_RDS.r_age * 5000000 ≤ at_ - t)
    | none => true
  let fb : Int := s.f b R.MC_TH_RDS.rds_fb
  let stale := aged && decide (g 4 = 0)
  let rOn := if 0 < g 4 then rdiv (g 3) (g 4) else if aged then fb else m.rOn
  let bad := decide (tBroken ≤ ref) || (stale && decide (fb = 0) && decide (g 7 ≠ 0))
  let cnt : Int := if g 2 ≤ 0 then 1 else g 2
  let pCond := rdiv (rOn * g 0) (cnt * 65536)
  let iq := rdiv (g 1 * 4096) (cnt * s.iBase n)
  let vref : Int := s.bankF n 0 R.MC_TH_ESW.esw 0 / 65536
  let eSum := g 5 * s.esw n false iq + g 6 * s.esw n true iq
  let pSw := if vref = 0 then 0 else rdiv (eSum * 3125000000000 * vs) (dt * 100 * vref)
  let rs : Vector Nat 3 := #v[s.f b R.MC_TH_FR.r1, s.f b R.MC_TH_FR.r2, s.f b R.MC_TH_FR.r3]
  let taus : Vector Nat 3 :=
    #v[s.f b R.MC_TH_FT.tau1 * 50000, s.f b R.MC_TH_FT.tau2 * 500000, s.f b R.MC_TH_FT.tau3 * 50000000]
  let th := if bad then m.th else fosterStep m.th (pCond + pSw) rs taus dt
  let tj : Fx := if bad then ⟨tBroken, false⟩ else tjOf ref th
  let t := tj.v
  let lf (f : Fld) : Int := tLim (s.f b f)
  let l := m.lim.next t (lf R.MC_TH_LIM.warn) (lf R.MC_TH_LIM.derate) (lf R.MC_TH_LIM.trip)
  let win := s.f b R.MC_TH_DR.rate_win
  let is := m.hist.fast win (s.f b R.MC_TH_DR.rate_lim) t
  let less (a : Nat) (k : Nat) : Nat := a - (g k).toNat
  let s := s.modModel n sw fun m => { m with
    th := th, tj := t, valid := !bad, lastAt := at_, rOn := rOn
    rOnAt := if stale then none else m.rOnAt
    sumIC := m.sumIC - g 0, sumI := m.sumI - g 1, cnt := less m.cnt 2, sumR := m.sumR - g 3, cntR := less m.cntR 4
    nOn := less m.nOn 5, nOff := less m.nOff 6, carried := less m.carried 7
    lim := { l with rate := is }, hist := m.hist.push s.now win t }
  let any (p : Model → Bool) : Bool := ((s.mc[n]).models).any p
  let newBad := bad && m.valid
  let s := if newBad then s.inc pk R.TH_CNT.broken_count else s
  let s := s.reach (evMc n 25) newBad (any (!·.valid))
  let s := s.reach (evMc n 21) (l.warn && !m.lim.warn) (any (·.lim.warn))
  let s := s.reach (evMc n 22) (l.trip && !m.lim.trip) (any (·.lim.trip))
  let s := s.reach (evMc n 24) (l.derate && !m.lim.derate) (any (·.lim.derate))
  let s := s.rateEvent (evMc n 23) m.lim.rate is
  (((s.setF (mcB n + sw.val) R.MC_TH_T.tj (uns 16 t)).setF (mcB n + sw.val) R.MC_TH_T.invalid (b2n bad)).setF
    (mcB n + sw.val) R.MC_TH_T.r_on (clampI 0 32767 rOn).toNat, tj.sat)

/-- Time that a region's brake switch has been on since the model's latest run. -/
def Region.brakeOn (x : Region) (now : Nat) : Nat := x.onTicks + (match x.onSince with | some t => now - t | none => 0)

/-- What a THERM job of a region reads when it starts (R302): the instant, the reference, VS, the on-time and the turn-ons. -/
def State.brakeInputs (s : State) (r : Rg) : List Int :=
  let x := s.rg[r]
  let ref := match s.f (s.actPkg + r.val) R.TH_BRK_P.brk_ref with
    | 1 => (s.ntc[(0 : Fin 4)]).t | 2 => (s.ntc[(1 : Fin 4)]).t | 3 => (s.ntc[(2 : Fin 4)]).t
    | 4 => (s.ntc[(3 : Fin 4)]).t
    | _ => s.dieT (if r = 0 then 1 else 2)
  [(s.now : Int), ref, codeMv x.vsCode, (x.brakeOn s.now : Int), x.turnOns]

/-- One run of a region's brake model (R302). -/
def State.brakeRun (s : State) (r : Rg) (inp : List Int) : State × Bool :=
  let m := s.brake[r]
  let x := s.rg[r]
  let g (k : Nat) : Int := nth inp k 0
  let at_ := (g 0).toNat
  let dt := Nat.max 1 (at_ - m.lastAt)
  let pf (f : Fld) : Nat := s.f (s.actPkg + r.val) f
  let ref := g 1
  let bad := decide (tBroken ≤ ref)
  let rb : Int := Nat.max 1 (pf R.TH_BRK_P.r_brk)
  let p := rdiv (g 2 * g 2 * pf R.TH_BRK_P.rds_brk * 4000 * g 3) (rb * rb * dt)
    + rdiv (g 4 * pf R.TH_BRK_P.e_brk * 100000000000000) dt
  let rs : Vector Nat 3 := #v[pf R.TH_BRK_FR.r1, pf R.TH_BRK_FR.r2, pf R.TH_BRK_FR.r3]
  let taus : Vector Nat 3 :=
    #v[pf R.TH_BRK_FT.tau1 * 50000, pf R.TH_BRK_FT.tau2 * 500000, pf R.TH_BRK_FT.tau3 * 50000000]
  let th := if bad then m.th else fosterStep m.th p rs taus dt
  let tj : Fx := if bad then ⟨tBroken, false⟩ else tjOf ref th
  let t := tj.v
  let lf (f : Fld) : Int := tLim (pf f)
  let l := m.lim.next t (lf R.TH_BRK_LIM.warn) (lf R.TH_BRK_LIM.derate) (lf R.TH_BRK_LIM.trip)
  let win := s.thF R.TH_RATE_CFG.rate_win 0
  let is := m.hist.fast win (s.thF R.TH_RATE_CFG.brk_rate 0) t
  let s : State := { s with
    brake := upd s.brake r { m with
      th := th, tj := t, valid := !bad, lastAt := at_, lim := { l with rate := is }, hist := m.hist.push s.now win t }
    rg := upd s.rg r { x with
      onTicks := x.brakeOn s.now - (g 3).toNat, turnOns := x.turnOns - (g 4).toNat
      onSince := x.onSince.map fun _ => s.now } }
  let s := if bad ∧ m.valid then s.inc pk R.TH_CNT.broken_count else s
  let s := s.level (evRg r 8) bad
  let s := s.level (evRg r 4) l.warn
  let s := s.level (evRg r 5) l.trip
  let s := s.rateEvent (evRg r 6) m.lim.rate is
  ((s.setF r.val R.TH_BRK_T.tj (uns 16 t)).setF r.val R.TH_BRK_T.invalid (b2n bad), tj.sat)

/-! ## Derating (R305 to R307) -/

/-- x = (T - derate) / (trip - derate) within 0 to 1, as a fraction. -/
def derX (t d tr : Int) : Int × Int :=
  if t < d then (0, 1)
  else if tr ≤ d then (1, 1)
  else (clampI 0 (tr - d) (t - d), tr - d)

/-- k_i in 1/4,096 for a floor in 1/4,096, where the factor falls with `num` / `den`. -/
def kiOf (num den floor : Int) : Int := 4096 - rdiv (clampI 0 den num * (4096 - floor)) den

/-- k_f rounded down to sixteenths for a floor in sixteenths. -/
def kfOf (num den floor : Int) : Int := (16 * den - clampI 0 den num * (16 - floor)) / den

/-- A source's temperature with its derate and trip limits, and its kind: 1 switch model, 2 die, 3 TH. -/
structure DerSrc where
  kind : Nat
  t    : Int
  d    : Int
  tr   : Int
  deriving DecidableEq, Repr

/-- The TH inputs that act on a cluster. -/
def State.ntcSrcs (s : State) (c : Cl) : List DerSrc :=
  (List.finRange 4).filterMap fun k =>
    if bitAt (s.f k.val R.TH_NTC_MASK.der_mask) c.val then
      some ⟨3, (s.ntc[k]).t, tLim (s.thF R.TH_LIM_NTC.derate k.val), tLim (s.thF R.TH_LIM_NTC.trip k.val)⟩
    else none

/-- The Polrex die of a region as a source. -/
def State.dieSrc (s : State) (r : Rg) : DerSrc :=
  let d := r.val + 1
  ⟨2, s.fi d R.TH_DIE_T.t_die, tLim (s.thF R.TH_LIM_DIE.derate d), tLim (s.thF R.TH_LIM_DIE.trip d)⟩

/-- The cold cap of a cluster, 4,096 when no limit is in force (R308). -/
def State.coldCap (s : State) (c : Cl) : Int :=
  ((List.range 4).filterMap fun k =>
    if s.fb k R.TH_NTC_T.cap ∧ bitAt (s.f k R.TH_NTC_MASK.cold_mask) c.val then
      some ((s.thF R.TH_COLD.cap_k k : Int) * 16) else none).foldl (fun m x => if x < m then x else m) 4096

/-- Is the carrier stage available (R305)? -/
def State.carrierStage (s : State) (n : Mcn) : Bool := (s.mc[n]).scar.entry.isNone && !(s.mc[n]).pwm.virt

/-- Factors of one source on a motor or converter cluster (R305). -/
def State.derOf (s : State) (n : Mcn) (x : DerSrc) : Int × Int :=
  let (a, b) := derX x.t x.d x.tr
  let iF : Int := s.f (s.act n) R.MC_TH_DR.i_floor
  let fF : Int := s.f (s.act n) R.MC_TH_DR.f_floor
  let av := s.carrierStage n || s.conv n
  if x.kind = 2 then
    if av then (4096, kfOf (2 * a - b) b fF) else (kiOf (2 * a - b) b iF, 16)
  else if av then (kiOf (2 * a) b iF, kfOf (2 * a - b) b fF) else (kiOf a b iF, 16)

/-- What the derating of a cluster reads besides its models: the cold cap, the factor of R317, and each die and TH source with
its kind, reading and limits. -/
def State.derInputs (s : State) (n : Mcn) : List Int :=
  [s.coldCap (mcCl n), s.evFactor (mcCl n)]
    ++ (s.dieSrc (clRg (mcCl n)) :: s.ntcSrcs (mcCl n)).flatMap fun x => [(x.kind : Int), x.t, x.d, x.tr]

/-- The sources of such a list. -/
def derSrcs : List Int → List DerSrc
  | k :: t :: d :: tr :: r => ⟨k.toNat, t, d, tr⟩ :: derSrcs r
  | _ => []

/-- Derating of a motor or converter cluster after its models have run (R305 to R307), with the factors of R317. -/
def State.derateBy (s : State) (n : Mcn) (inp : List Int) : State :=
  let lf (f : Fld) : Int := tLim (s.f (s.act n) f)
  let mods := allSw.map fun sw =>
    (⟨1, ((s.mc[n]).models[sw]).tj, lf R.MC_TH_LIM.derate, lf R.MC_TH_LIM.trip⟩ : DerSrc)
  let srcs := mods ++ derSrcs (inp.drop 2)
  let fs := srcs.map fun x => (x.kind, s.derOf n x)
  let cap := nth inp 0 0
  let evf := nth inp 1 0
  let ki := fs.foldl (fun m p => if p.2.1 < m then p.2.1 else m) (if evf < cap then evf else cap)
  let kf := fs.foldl (fun m p => if p.2.2 < m then p.2.2 else m) 16
  let lim :=
    if ki < 4096 then
      match fs.find? (fun p => p.2.1 == ki) with | some p => p.1 | none => if ki = cap then 4 else 0
    else if kf < 16 then (match fs.find? (fun p => p.2.2 == kf) with | some p => p.1 | none => 0)
    else 0
  let old : Int := s.f (mcB n) R.MC_TH_STAT.k_f
  let kf' := if kf < old ∨ old + 2 ≤ kf ∨ kf = 16 then kf else old
  let (_, hot) := maxRole (allSw.map fun sw => ((s.mc[n]).models[sw]).tj) 0 (-40000, 0)
  let b := mcB n
  let s := (((s.setF b R.MC_TH_STAT.k_i ki.toNat).setF b R.MC_TH_STAT.k_f kf'.toNat).setF b
    R.MC_TH_STAT.limiter lim).setF b R.MC_TH_STAT.hottest hot
  if kf' = (s.mc[n]).pwm.kf then s.modPwm n fun w => { w with kfNext := none }
  else s.modPwm n fun w => { w with kfNext := some kf'.toNat }

/-- Derating by the present readings. -/
def State.derate (s : State) (n : Mcn) : State := s.derateBy n (s.derInputs n)

/-- Derating of a region's stepper cluster (R305). -/
def State.derateSt (s : State) (r : Rg) : State :=
  let floor : Int := (s.f pk R.TH_ST_CFG.st_floor : Int) * 16
  let d := s.dieSrc r
  let (a, b) := derX d.t d.d d.tr
  let kd := kiOf (2 * a) b floor
  let ki := (s.ntcSrcs (scCl r)).foldl
    (fun m x => let (a, b) := derX x.t x.d x.tr; let k := kiOf a b floor; if k < m then k else m) kd
  let cap := s.coldCap (scCl r)
  let evf := s.evFactor (scCl r)
  let ki := if cap < ki then cap else ki
  let ki := if evf < ki then evf else ki
  let s := s.setF pk (if r = 0 then R.TH_ST_STAT.ki_sc0 else R.TH_ST_STAT.ki_sc1) ki.toNat
  -- a stepper cluster's own thermal-derate source (R313): a source of temperature that acts on it has reached its derate
  -- limit (R303)
  let die : Fin 3 := ⟨r.val + 1, by omega⟩
  let hot := (s.die[die]).lim.derate
    || (List.finRange 4).any fun k => bitAt (s.f k.val R.TH_NTC_MASK.der_mask) (scCl r).val && (s.ntc[k]).lim.derate
  let s := s.level (evSc r 6) hot
  s.coilRefsRg r

/-- What a THERM job of a motor cluster reads when it starts (R171): the instant, the reference, VS, the sums of each model,
and what the derating reads. -/
def State.thermInputs (s : State) (n : Mcn) : List Int :=
  [(s.now : Int), s.modelRef n, s.vsMv n] ++ (allSw.flatMap fun sw => ((s.mc[n]).models[sw]).sums) ++ s.derInputs n

/-- The THERM job of a motor cluster (R299 to R306). -/
def State.thermMotor (s : State) (n : Mcn) (inp : List Int) : State × Bool :=
  let (s, sat) := allSw.foldl (fun (x : State × Bool) sw =>
    let (s, b) := x.1.modelRun n sw (nth inp 0 0).toNat (nth inp 1 0) (nth inp 2 0) ((inp.drop (3 + 8 * sw.val)).take 8)
    (s, x.2 || b)) (s, false)
  (s.derateBy n (inp.drop 51), sat)

/-- The THERM job of a region (R302), and the factor of its stepper cluster. -/
def State.thermRegion (s : State) (r : Rg) (inp : List Int) : State × Bool :=
  let (s, sat) := s.brakeRun r inp
  (s.derateSt r, sat)

/-- k_f takes effect at its counter zero (R307). -/
def State.carrierChange (s : State) (n : Mcn) : State :=
  match (s.mc[n]).pwm.kfNext with
  | none => s
  | some k => s.modPwm n fun w => { w with kf := k, kfNext := none }

end Sys2Proof.Machine
end

