-- ==== Sys2Proof/Machine/Pwm.lean ====
section
/-! DEFINITION. Field control and the PWM unit (03_field_control_and_pwm R82 to R110), the carrier (02_datum_and_graticule
R68 to R73, R78, R79), and the loops of 06_control_lanes (R176 to R182). -/

namespace Sys2Proof.Machine

/-! ## Loops (R177 to R182) -/

/-- Coefficients of a loop as a job reads them when it starts (R171, R183). -/
structure Coef where
  kp   : Int
  ki   : Int
  kd   : Int
  tf   : Int
  lim  : Int
  ss   : Int
  deriving DecidableEq, Repr

/-- Bank group of a loop (R183). -/
def loopGroup (x : Fin 4) : Fin 4 := if x.val < 2 then 0 else x

/-- Coefficients of loop x from its group's active bank. -/
def State.coef (s : State) (n : Mcn) (x : Fin 4) : Coef :=
  let g := loopGroup x
  let f (fl : Fld) : Int := s.bankF n g fl (8 * x.val)
  { kp := f R.MC_LP_KP.kp, ki := f R.MC_LP_KI.ki, kd := f R.MC_LP_KD.kd, tf := f R.MC_LP_KD.tf
    lim := f R.MC_LP_LIM.out_lim * 65536, ss := f R.MC_LP_LIM.ss_rate }

/-- The same as a list of numbers, and back. -/
def Coef.list (c : Coef) : List Int := [c.kp, c.ki, c.kd, c.tf, c.lim, c.ss]
def Coef.ofList (l : List Int) : Coef :=
  { kp := nth l 0 0, ki := nth l 1 0, kd := nth l 2 0, tf := nth l 3 0, lim := nth l 4 0, ss := nth l 5 0 }

/-- A loop before its limit: its record, the error, the sum u_raw with the saturation mark. -/
structure Pre where
  l    : LoopSt
  uRaw : Fx
  dt   : Int
  deriving DecidableEq, Repr

/-- The ramped reference of R182: at most ss_rate · dt nearer to the target. (DEDUCED, log 32) -/
def rampTo (ramp target ss dt : Int) : Int :=
  let d := rdiv (ss * 1048576 * dt) 500000
  if (target - ramp).natAbs ≤ d.natAbs then target else if target < ramp then ramp - d else ramp + d

/-- The terms of R177 up to u_raw. `target` is the reference's target, `seed` the present value of the quantity that the
loop drives (R181), `ramps` false for POS (R182). (DEDUCED, log 32) -/
def loopPre (l : LoopSt) (c : Coef) (target meas seed ff : Int) (now : Nat) (ramps : Bool) : Pre :=
  let start := !l.started
  let dt : Int := if start then 0 else (now - l.lastAt : Nat)
  let ramp := if !ramps then target else if start then l.seedRef.getD meas
    else if l.arrived then target else rampTo l.ramp target c.ss dt
  -- the position error of POS is formed in full and then saturated (R178)
  let e := Fx.of (ramp - meas)
  let p := Fx.mulS 24 ⟨c.kp, false⟩ e
  let prev := if start then meas else l.measPrev
  let d : Fx :=
    if start then ⟨0, false⟩
    else if c.kd = 0 then ⟨0, false⟩
    else if l.missed ∨ dt = 0 then ⟨l.d, false⟩
    else
      let dm := (Fx.of meas).sub (Fx.of prev)
      let raw := Fx.of (-(rdiv (c.kd * 500 * dm.v) dt)) dm.sat
      let dd := raw.sub ⟨l.d, false⟩
      (Fx.of (rdiv (dd.v * dt) (c.tf * 500 + dt)) dd.sat).add ⟨l.d, false⟩
  let i : Fx := if start then
      (match l.seed with
        | some v => Fx.of v
        | none => (((Fx.of seed).sub p).sub d).sub (Fx.of ff))
    else ⟨l.i, false⟩
  let u := ((p.add i).add d).add (Fx.of ff)
  ⟨{ l with i := i.v, d := d.v, ramp := ramp, arrived := (l.arrived && !start) || ramp == target, e := e.v, p := p.v, ff := ff, meas := meas, lastAt := now
            started := true, missed := false, seed := none, seedRef := none }, u, dt⟩

/-- The rest of R177: the output `u` after its limit, of the value `raw` that was limited, and the integrator unless the limit
and the error forbid it. With the bus feed-forward both are products (R179). (DEDUCED, log 32) -/
def loopPost (p : Pre) (c : Coef) (raw u : Int) : LoopSt × Bool :=
  let l := p.l
  let sgnOf (v : Int) : Int := if v < 0 then -1 else if 0 < v then 1 else 0
  let stop := u ≠ raw ∧ sgnOf l.e = sgnOf (raw - u)
  let di := Fx.of (rdiv (c.ki * l.e * p.dt) (4096 * 500000000))
  let i := if stop then (⟨l.i, false⟩ : Fx) else
    let x := (⟨l.i, false⟩ : Fx).add di
    ⟨clampI (-c.lim) c.lim x.v, x.sat⟩
  ({ l with i := i.v, out := u, measPrev := l.meas }, p.uRaw.sat || i.sat)

/-- The bit of MC_LOOP_RAMP of a loop. -/
def State.rampBit (s : State) (n : Mcn) (x : Nat) (ramping : Bool) : State :=
  let v := s.f (mcB n) R.MC_LOOP_RAMP.ramping
  s.setF (mcB n) R.MC_LOOP_RAMP.ramping (v - b2n (bitAt v x) * 2 ^ x + b2n ramping * 2 ^ x)

/-! ## Quantities of the PWM unit, in units of 125 ps -/

def State.dead16 (s : State) (n : Mcn) : Int := (s.f (s.act n) R.MC_PWM_DT.dead_time : Int) * 16
def State.tsw16 (s : State) (n : Mcn) : Int := (s.f (s.act n) R.MC_PWM_WIN.t_sw : Int) * 80
def State.loMin16 (s : State) (n : Mcn) : Int := (s.f (s.act n) R.MC_PWM_WIN.lo_on_min : Int) * 80
def State.tRef16 (s : State) (n : Mcn) : Int := (s.f (s.act n) R.MC_PWM_REFRESH.t_refresh : Int) * 16
def State.t16 (s : State) (n : Mcn) : Int := ((s.mc[n]).pwm.period : Int) * 16
/-- PWM mode family in effect (R82). -/
def State.family (s : State) (n : Mcn) : Nat := s.st n R.MC_PWM_CTRL.family
/-- A FOC family? -/
def State.foc (s : State) (n : Mcn) : Bool := decide (s.family n < 2)

/-- 1 / √3, √3 and 2 / √3 in Q3.28. -/
def invSqrt3 : Int := 154981282
def sqrt3 : Int := 464943848

/-- A root whose rounding is not stated. (DESIGN CHOICE, log 13) -/
def qsqrt (v : Int) : Int :=
  let r := isqrt v.toNat
  if r * r = v.toNat then r else if Config.roundUp v r then r + 1 else r

/-- The voltage limit of R88 on a d, q vector: the limited vector and the flag: 0 none, 1 q reduced, 2 both. -/
def State.limitDq (s : State) (n : Mcn) (vd vq : Int) : Int × Int × Nat :=
  let mMax : Int := (s.f (s.act n) R.MC_PWM_MOD.m_max : Int) * 16384
  let famLim : Int := if s.family n = 1 then 232471924
    else if s.fb (s.act n) R.MC_PWM_MOD.ovm_mode then 309962564 else q1
  let m := (if mMax < famLim then mMax else famLim) - (s.mc[n]).pwm.margin
  let lim := if m < 0 then 0 else qdiv (m * invSqrt3) q1
  if lim < vd.natAbs then (if vd < 0 then -lim else lim, 0, 2)
  else if lim * lim < vd * vd + vq * vq then
    let q := qsqrt (lim * lim - vd * vd)
    (vd, if vq < 0 then -q else q, 1)
  else (vd, vq, 0)

/-- Phase values of a stationary vector. -/
def phases (a b : Int) : Vector Int 3 :=
  let h := rdiv (b * sqrt3) (2 * q1)
  #v[a, rdiv (-a) 2 + h, rdiv (-a) 2 - h]

/-- The largest and the least of three. -/
def max3 (v : Vector Int 3) : Int := v.foldl (fun m x => if m < x then x else m) v[(0 : Fin 3)]
def min3 (v : Vector Int 3) : Int := v.foldl (fun m x => if x < m then x else m) v[(0 : Fin 3)]

/-- Length factor of the hexagon clamp of R89 for a stationary vector, Q3.28: 1 where the vector is not clamped. -/
def State.hexFactor (s : State) (n : Mcn) (a b : Int) : Fx :=
  let v := phases a b
  let span := max3 v - min3 v
  if s.family n ≠ 1 ∧ s.fb (s.act n) R.MC_PWM_MOD.ovm_mode ∧ q1 < span then Fx.div ⟨q1, false⟩ ⟨span, false⟩ else ⟨q1, false⟩

/-- Duties of R87 of a stationary vector. -/
def State.duties (s : State) (n : Mcn) (a b : Int) : Vector Int 3 :=
  let v := phases a b
  let z := if s.family n = 1 then 0 else rdiv (max3 v + min3 v) 2
  v.map fun x => clampI 0 q1 (q1 / 2 + x - z)

/-- The vector of three duties as a fraction of the bus, Q3.28 (R145). -/
def dutyVec (d : Vector Int 3) : Int × Int :=
  (qdiv (2 * d[(0 : Fin 3)] - d[(1 : Fin 3)] - d[(2 : Fin 3)]) 3, qdiv ((d[(1 : Fin 3)] - d[(2 : Fin 3)]) * invSqrt3) q1)

/-- The current of a phase in the latest sample as it is delivered (R102): sampled, or reconstructed or predicted where its
window was closed. -/
def State.phaseAmps (s : State) (n : Mcn) (p : Fin 3) : Int :=
  let m := s.mc[n]
  if m.recon = 2 ∨ bitAt m.closed p.val then (phases m.iA m.iB)[p] else (s.grp[mcG n]).amps[p]

/-- Dead-time compensation of R98, with the currents of the latest sample. -/
def State.dtComp (s : State) (n : Mcn) (d : Vector Int 3) : Vector Int 3 :=
  if s.fb (s.act n) R.MC_PWM_DT.dt_comp then
    let band := qdiv ((s.f (s.act n) R.MC_PWM_DT.comp_band : Int) * q1) 1000
    let one (p : Fin 3) : Int :=
      let i := s.phaseAmps n p
      let k := if (i.natAbs : Int) < band then qdiv (i * q1) band else if i < 0 then -q1 else if 0 < i then q1 else 0
      clampI 0 q1 (d[p] + qdiv (s.dead16 n * k) (s.t16 n))
    #v[one 0, one 1, one 2]
  else d

/-- Where the compare values of one phase come out (R99, R101). -/
structure Placed where
  duty  : Int
  shift : Nat
  cUp   : Nat
  cDn   : Nat
  lo    : Bool
  hi    : Bool
  opened : Bool
  rLo   : Int
  rHi   : Int
  drop  : Nat
  deriving DecidableEq, Repr

/-- One phase (R99, R101): duty and residuals carried in. The times of the two intervals are exact, as multiples of
1 / 2^28 of a count; the shift is rounded up as R101 says. (DEDUCED, log 33) -/
def placePhase (t dead loMin tsw : Int) (d rLo rHi : Int) : Placed :=
  -- ideal times of the two intervals with their residuals, times 2^28
  let xHi := clampI 0 (t * q1) (d * t + (rHi - rLo) * q1)
  let xLo := t * q1 - xHi
  let loDrop := decide (dead * q1 < xLo) && decide (xLo < (dead + loMin) * q1)
  let hiDrop := decide (dead * q1 < xHi) && decide (xHi < (dead + loMin) * q1) && !loDrop
  let lo := !loDrop && decide (dead * q1 < xLo)
  let hi := !hiDrop && decide (dead * q1 < xHi)
  let duty := qdiv xHi (if t = 0 then 1 else t)
  let rLo' := if loDrop then qdiv xLo q1 else if lo then 0 else rLo
  let rHi' := if hiDrop then qdiv xHi q1 else if hi then 0 else rHi
  let drop := b2n loDrop + b2n hiDrop
  if !lo then ⟨duty, 0, 0, 0, false, true, false, rLo', rHi', drop⟩
  else if !hi then ⟨duty, 0, (t / 2).toNat, (t / 2).toNat, true, false, true, rLo', rHi', drop⟩
  else
    let half := qdiv xLo (2 * q1)
    -- t_sw less the tail, rounded up
    let need := cdiv (2 * q1 * (tsw + dead) - xLo) (2 * q1)
    let sh := if need ≤ 0 then 0 else if half < need then half else need
    ⟨duty, sh.toNat, (half - sh).toNat, clampI 0 (t / 2) (half + sh) |>.toNat, true, true, true, rLo', rHi', drop⟩

/-- Compare values of three duties (steps 5 to 7 of R85), with the residuals and the drop count they leave.
(DEDUCED, log 33) -/
def State.place (s : State) (n : Mcn) (d : Vector Int 3) (ua ub : Int) : Compare × State :=
  let w := (s.mc[n]).pwm
  let one (p : Fin 3) : Placed :=
    placePhase (s.t16 n) (s.dead16 n) (s.loMin16 n) (s.tsw16 n) d[p] w.residLo[p] w.residHi[p]
  let a := one 0
  let b := one 1
  let c := one 2
  let cmp : Compare :=
    { duty := #v[a.duty, b.duty, c.duty], shift := #v[a.shift, b.shift, c.shift], cUp := #v[a.cUp, b.cUp, c.cUp]
      cDn := #v[a.cDn, b.cDn, c.cDn], lo := #v[a.lo, b.lo, c.lo], hi := #v[a.hi, b.hi, c.hi]
      opened := #v[a.opened, b.opened, c.opened], ua := ua, ub := ub }
  let s := s.modPwm n fun w => { w with residLo := #v[a.rLo, b.rLo, c.rLo], residHi := #v[a.rHi, b.rHi, c.rHi] }
  (cmp, s.inc (mcB n) R.MC_PWM_APPLY_CNT.pulse_drop (a.drop + b.drop + c.drop))

/-- Compare values of equal duty on three phases without windows: the block families (R96). -/
def Compare.block (t : Int) (d : Int) : Compare :=
  let c := (qdiv ((q1 - d) * t) (2 * q1)).toNat
  { duty := #v[d, d, d], shift := #v[0, 0, 0], cUp := #v[c, c, c], cDn := #v[c, c, c], lo := #v[true, true, true]
    hi := #v[true, true, true], opened := #v[true, true, true], ua := 0, ub := 0 }

/-! ## Applying compare values (R107, R108) -/

def allP : List (Fin 3) := [0, 1, 2]

/-- Can new values act in the rising half at an instant (125 ps): the new edges 8 ns ahead and the old not yet come? -/
def canRise (w : Pwm) (c : Compare) (now : Int) : Bool :=
  allP.all fun p =>
    let z : Int := (w.zeroAt : Int) * 16
    (!(c.hi[p] && c.lo[p]) || decide (now + 64 ≤ z + c.cUp[p] - w.owed[p]))
      && (!(w.inForce.hi[p] && w.inForce.lo[p]) || decide (now < z + w.inForce.cUp[p] - w.owed[p]))

/-- The values of a falling half under R108: the new ideal edge with the shift already applied. -/
def fallValues (w : Pwm) (c : Compare) : Compare :=
  { c with
    shift := w.inForce.shift
    cUp := w.inForce.cUp
    cDn := Vector.ofFn fun p : Fin 3 =>
      let c0 : Nat := if c.lo[p] && c.hi[p] then c.cUp[p] + c.shift[p] else c.cUp[p]
      Nat.min (w.period * 8) (c0 + (if c.lo[p] && c.hi[p] then w.inForce.shift[p] else 0)) }

/-- Can new values act in the falling half in progress? -/
def canFall (w : Pwm) (c : Compare) (now : Int) : Bool :=
  let e (x : Compare) (p : Fin 3) : Int := (w.peakAt : Int) * 16 + (w.period : Int) * 8 - x.cDn[p]
  let c' := fallValues w c
  allP.all fun p =>
    (!(c.hi[p] && c.lo[p]) || decide (now + 64 ≤ e c' p))
      && (!(w.inForce.hi[p] && w.inForce.lo[p]) || decide (now < e w.inForce p))

/-- The windows of the sample that ends a period whose falling half took new values under R108. -/
def State.fallWindows (s : State) (n : Mcn) (c : Compare) : Compare :=
  let t := s.t16 n
  { c with opened := Vector.ofFn fun p : Fin 3 =>
      if !c.lo[p] then false
      else if !c.hi[p] then true
      else decide (s.tsw16 n ≤ qdiv ((q1 - c.duty[p]) * t) (2 * q1) + c.shift[p] - s.dead16 n) }

/-- The half-period in which values arriving at an instant first act, as its midpoint in 125 ps: the present or the next
(R107, R109). -/
def State.actsAt (s : State) (n : Mcn) (c : Compare) (now : Int) : Int :=
  let w := (s.mc[n]).pwm
  let z : Int := (w.zeroAt : Int) * 16
  let q : Int := (w.period : Int) * 4
  -- an instant past the period event lies in the falling half, one past the period in the next rising half
  if now < z + 2 * q then (if canRise w c now then z + q else z + 3 * q)
  else
    let w' := if w.rising then { w with peakAt := w.zeroAt + w.period / 2 } else w
    if canFall w' c now then z + 3 * q else z + 5 * q

/-- The applied duty and shift registers. -/
def State.showApplied (s : State) (n : Mcn) (c : Compare) : State :=
  s.each allP fun p s =>
    (s.setF (mcB n + p.val) R.MC_PWM_DUTY.duty (qdiv c.duty[p] 4096).toNat).setF (mcB n + p.val)
      R.MC_PWM_SHIFT.shift c.shift[p]

/-- Delay in 4 ns, saturating at 16 bits. -/
def lat4 (t : Nat) : Nat := Nat.min 65535 (t / 2)

/-- The two latency registers (R110). -/
def State.latency (s : State) (n : Mcn) (apply out : Nat) : State :=
  let b := mcB n
  let fresh := (s.mc[n]).pwm.latRestart
  let mn (f : Fld) (v : Nat) (s : State) : State := s.setF b f (if fresh then v else Nat.min v (s.f b f))
  let mx (f : Fld) (v : Nat) (s : State) : State := s.setF b f (if fresh then v else Nat.max v (s.f b f))
  let s := mx R.MC_PWM_LAT_APPLY.apply_max (lat4 apply) (mn R.MC_PWM_LAT_APPLY.apply_min (lat4 apply) s)
  let s := mx R.MC_PWM_LAT_OUT.out_max (lat4 out) (mn R.MC_PWM_LAT_OUT.out_min (lat4 out) s)
  s.modPwm n fun w => { w with latRestart := false }

/-! ## Gate states and edges (R84, R94, R96, R97, R104) -/

/-- High side and low side of a phase. -/
def hiSw (p : Fin 3) : Fin 6 := ⟨2 * p.val, by omega⟩
def loSw (p : Fin 3) : Fin 6 := ⟨2 * p.val + 1, by omega⟩
/-- The switch of a side of a phase: true is the high side. -/
def legSw (p : Fin 3) (high : Bool) : Fin 6 := if high then hiSw p else loSw p

/-- High-side and low-side phase of a sector (R94). -/
def sectorPhases (k : Nat) : Fin 3 × Fin 3 :=
  match k with
  | 0 => (0, 1) | 1 => (0, 2) | 2 => (1, 2) | 3 => (1, 0) | 4 => (2, 0) | _ => (2, 1)

/-- Is the output by sectors: a block family, or six-step? -/
def State.bySector (s : State) (n : Mcn) : Bool := !s.conv n && (!s.foc n || (s.mc[n]).pwm.virt)

/-- May an edge of the PWM unit act on the gates: the modulator drives them, or a converter's precharge runs (R287)? -/
def State.legsLive (s : State) (n : Mcn) : Bool :=
  s.modulates n || (s.conv n && (s.mc[n]).precharge && (s.cl[mcCl n]).st == .armed)

/-- An edge put among those to come, after those of the same instant. -/
def putEdge (e : Int × Fin 3 × LegCmd) : List (Int × Fin 3 × LegCmd) → List (Int × Fin 3 × LegCmd)
  | [] => [e]
  | x :: r => if x.1 ≤ e.1 then x :: putEdge e r else e :: x :: r

/-- Is a command a turn-on that waits for the dead time? -/
def LegCmd.isTurnOn : LegCmd → Bool
  | .turnOn _ => true
  | .level _ => false

/-- One edge of a leg, at an instant of 125 ps (R84, R97): a change of the ideal level turns off at once what is not to
conduct, and turns on the other side after the dead time; an undervoltage of its bootstrap suppresses a high side's turn-on
(R256). -/
def State.legEdge (s : State) (n : Mcn) (t : Int) (p : Fin 3) (c : LegCmd) : State :=
  if s.legsLive n then
    let uv := bitAt (s.f (mcB n) R.MC_GATE_STAT.bst_uv) p.val
    match c with
    | .turnOn high => if high ∧ uv then s else s.turnOn (swOut n (legSw p high))
    | .level side =>
      -- a suppressed turn-on: the low side stays as it is for this period, which is the phase's forced refresh
      if side = some true ∧ !s.swOn n (hiSw p) ∧ (uv ∨ (s.mc[n]).pwm.refNow[p]) then
        s.modPwm n fun w => { w with refNow := upd w.refNow p true }
      else
      let s := s.modPwm n fun w => { w with edges := w.edges.filter fun e => !(e.2.1 == p && e.2.2.isTurnOn) }
      let s := if side = some true then s else s.turnOff (swOut n (hiSw p))
      let s := if side = some false then s else s.turnOff (swOut n (loSw p))
      match side with
      | none => s
      | some high =>
        if s.swOn n (legSw p high) then s
        else s.modPwm n fun w => { w with edges := putEdge (t + s.dead16 n, p, .turnOn high) w.edges }
  else s

/-- The edges of a cluster that have come, in time order; each acts at its own tick. -/
def State.edgesGo (n : Mcn) : Nat → State → State
  | 0, s => s
  | k + 1, s =>
    match (s.mc[n]).pwm.edges with
    | [] => s
    | (t, p, c) :: r =>
      if t ≤ s.now16 then
        let s1 := s.modPwm n fun w => { w with edges := r }
        let s2 := ({ s1 with now := (t / 16).toNat } : State).legEdge n t p c
        State.edgesGo n k { s2 with now := s.now }
      else s

/-- The edges that have come; a level brings at most one turn-on after it. -/
def State.runEdges (s : State) (n : Mcn) : State := State.edgesGo n (2 * (s.mc[n]).pwm.edges.length + 1) s

/-- New levels for legs: they replace the levels still to come of the phases named; of those that lie in the past, the
latest of each phase acts at once. -/
def State.schedule (s : State) (n : Mcn) (ps : List (Fin 3)) (es : List (Int × Fin 3 × LegCmd)) : State :=
  let s := s.modPwm n fun w => { w with edges := w.edges.filter fun e => e.2.2.isTurnOn || !ps.contains e.2.1 }
  let s := s.each ps fun p s =>
    match (es.filter fun e => e.2.1 == p && decide (e.1 ≤ s.now16)).getLast? with
    | some e => s.legEdge n s.now16 p e.2.2
    | none => s
  let s := s.modPwm n fun w => { w with edges := (es.filter fun e => decide (s.now16 < e.1)).foldl (fun l e => putEdge e l) w.edges }
  s.runEdges n

/-- Levels of one phase in the half-period in progress, by the values in force (R84); time owed for a refresh pulse
lengthens the high side's part of the rising half (R105). -/
def Pwm.halfLevels (w : Pwm) (p : Fin 3) : List (Int × Fin 3 × LegCmd) :=
  let c := w.inForce
  let z : Int := (w.zeroAt : Int) * 16
  let half : Int := (w.period : Int) * 8
  let at_ (t : Int) (high : Bool) : Int × Fin 3 × LegCmd := (t, p, .level (some high))
  if w.rising then
    let up : Int := if !c.lo[p] then 0 else (if c.hi[p] then (c.cUp[p] : Int) else half) - w.owed[p]
    if up ≤ 0 then [at_ z true] else [at_ z false, at_ (z + up) true]
  else
    let pk : Int := (w.peakAt : Int) * 16
    if !c.lo[p] then [at_ pk true]
    else if !c.hi[p] then [at_ pk false]
    else [at_ pk true, at_ (pk + half - c.cDn[p]) false]

/-- The refresh pulse that ends the period in progress (R104): off before it by the dead time, low side on for t_refresh up
to the counter zero. -/
def State.refreshLevels (s : State) (n : Mcn) (p : Fin 3) : List (Int × Fin 3 × LegCmd) :=
  let w := (s.mc[n]).pwm
  let e : Int := ((w.zeroAt + w.period : Nat) : Int) * 16
  [(e - s.tRef16 n - s.dead16 n, p, .level (some false)), (e, p, .level (some true))]

/-- Levels of the legs of a block sector, or of six-step, in the half-period in progress (R94, R96). Six-step has no
chopping. -/
def State.sectorLevels (s : State) (n : Mcn) : List (Int × Fin 3 × LegCmd) :=
  let w := (s.mc[n]).pwm
  let (h, l) := sectorPhases (s.f (mcB n) R.MC_PWM_STAT.sector)
  let chop := if s.foc n then 3 else s.st n R.MC_PWM_CTRL.chop
  let d := w.inForce.duty[(0 : Fin 3)]
  let cut : Int := w.inForce.cUp[(0 : Fin 3)]
  let t0 : Int := ((if w.rising then w.zeroAt else w.peakAt : Nat) : Int) * 16
  let half : Int := (w.period : Int) * 8
  let steady (p : Fin 3) (side : Option Bool) : List (Int × Fin 3 × LegCmd) := [(t0, p, .level side)]
  let chopped (p : Fin 3) (on off : Option Bool) : List (Int × Fin 3 × LegCmd) :=
    if d ≤ 0 then steady p off
    else if q1 ≤ d then steady p on
    else if w.rising then [(t0, p, .level off), (t0 + cut, p, .level on)]
    else [(t0, p, .level on), (t0 + half - cut, p, .level off)]
  let hi := if chop = 0 then chopped h (some true) none
    else if chop = 1 then chopped h (some true) (some false) else steady h (some true)
  let lo := if chop = 2 then chopped l (some false) none else steady l (some false)
  hi ++ lo ++ ((allP.filter fun p => p ≠ h ∧ p ≠ l).flatMap fun p => steady p none)

/-- The part of an injection or polarity pulse that lies in the half-period in progress: the leg goes low half its low time
before the period event and high again as long after it (R148, R156). -/
def Pwm.pulseLevels (w : Pwm) (p : Fin 3) : List (Int × Fin 3 × LegCmd) :=
  let half : Int := qdiv w.inj[p] 2
  if w.inj[p] = 0 then []
  else if w.rising then [((w.zeroAt : Int) * 16 + (w.period : Int) * 8 - half, p, .level (some false))]
  else [((w.peakAt : Int) * 16, p, .level (some false)), ((w.peakAt : Int) * 16 + half, p, .level (some true))]

/-- The legs follow the values in force for the half-period in progress, with the period's pulse; the edges of the phases that
a refresh pulse is to come for are laid over the falling half. (DESIGN CHOICE, log 30) -/
def State.driveHalf (s : State) (n : Mcn) : State :=
  if s.modulates n then
    let w := (s.mc[n]).pwm
    let es := if s.bySector n then s.sectorLevels n else allP.flatMap fun p => w.halfLevels p ++ w.pulseLevels p
    let rs := (allP.filter fun p => w.refNow[p]).flatMap fun p => s.refreshLevels n p
    s.schedule n allP (es ++ rs)
  else s.modPwm n fun w => { w with edges := [] }

/-- Compare values arrive at the PWM unit of a motor cluster (R107 to R110). -/
def State.compareApply (s : State) (n : Mcn) : State :=
  let w := (s.mc[n]).pwm
  match w.pend with
  | none => s
  | some c =>
    let now := s.now16
    let actual := s.actsAt n c now
    let s := s.latency n (s.now - w.tsAt) ((w.outAt / 16).toNat - w.tsAt)
    let s := if w.outAt < actual then s.inc (mcB n) R.MC_PWM_APPLY_CNT.late_apply else s
    let s := s.showApplied n c
    if w.rising ∧ canRise w c now then
      (s.modPwm n fun w => { w with inForce := c, pend := none, wait := none }).driveHalf n
    else if !w.rising ∧ canFall w c now then
      let f := s.fallWindows n (fallValues w c)
      (s.modPwm n fun w => { w with inForce := f, pend := none, wait := some c }).driveHalf n
    else s.modPwm n fun w => { w with pend := none, wait := some c }

/-! ## The carrier (R68 to R73, R78, R79, R83) -/

/-- Whole-tick period k of N of an aligned frame (R78): multiples of 4 ns that fill the frame, the longer first. -/
def alignedPeriod (frameUs count k : Nat) : Nat :=
  let total := frameUs * 250
  2 * (total / count + b2n (decide (k < total % count)))

/-- Is the carrier aligned to SYNC frames now (R78, R307)? -/
def State.aligned (s : State) (n : Mcn) : Bool :=
  (s.st n R.MC_DAT_SYNC.align_en == 1) && (s.mc[n]).scar.entry.isNone && !(s.mc[n]).pwm.virt
    && decide ((s.mc[n]).pwm.kf = 16) && !(s.mc[n]).pwm.alignSusp

/-- Carrier periods in a frame (R78). -/
def State.framePeriods (s : State) (n : Mcn) : Nat := s.sync.period * s.fAsync n / 1000000

/-- Ticks from the alignment instant of the frame in progress: its boundary plus align_phase / 256 of a period (R78). -/
def State.alignPos (s : State) (n : Mcn) : Nat :=
  let cnt := Nat.max 1 (s.framePeriods n)
  let frame := s.sync.period * 500
  let off := (rdiv ((alignedPeriod s.sync.period cnt 0 * s.st n R.MC_DAT_SYNC.align_phase : Nat) : Int) 256).toNat
  (s.now + frame - (s.sync.lastAt + off) % frame) % Nat.max 1 frame

/-- The counter zeros of an aligned frame, in ticks from its alignment instant (R78). -/
def alignedZeros (frameUs count : Nat) : List Nat :=
  (List.range (count + 1)).map fun k =>
    let total := frameUs * 250
    2 * (k * (total / count) + Nat.min k (total % count))

/-- The next asynchronous period in ticks: an aligned one by its place in the frame, corrected once by the phase error
measured at the latest frame boundary, by at most 1/64 (R78, R79, R83). -/
def State.nextAsync (s : State) (n : Mcn) : Nat :=
  if s.aligned n ∧ 0 < s.framePeriods n then
    let cnt := s.framePeriods n
    let x := s.alignPos n
    let k := ((List.range cnt).map fun k => alignedPeriod s.sync.period cnt k).foldl
      (fun (a : Nat × Nat) t => if a.2 + t / 2 ≤ x then (a.1 + 1, a.2 + t) else a) (0, 0)
    let t := alignedPeriod s.sync.period cnt (k.1 % cnt)
    let lim : Int := t / 64
    ((t : Int) - clampI (-lim) lim (s.mc[n]).pwm.phaseErr).toNat
  else s.asyncPeriod n

/-- The first period of an aligned carrier at an entry to ARMED (R79): a bridging period, which ends at the next counter
zero of the frame, or at the one after it where it would be shorter than half a period (R70). -/
def State.alignBridge (s : State) (n : Mcn) : Nat :=
  let cnt := s.framePeriods n
  let x := s.alignPos n
  let t := s.asyncPeriod n
  match (alignedZeros s.sync.period cnt).find? (fun z => x + t / 2 ≤ z) with
  | some z => z - x
  | none => t

/-- Compare values scaled from a period to another, so that duty is preserved (R70). -/
def Compare.scale (c : Compare) (from_ into : Nat) : Compare :=
  let f (x : Nat) : Nat := if from_ = 0 then x else (qdiv ((x * into : Nat) : Int) from_).toNat
  { c with shift := c.shift.map f, cUp := c.cUp.map f, cDn := c.cDn.map f }

/-- The period that begins now is a bridging one, or follows one: the values in force keep their duty (R70). -/
def State.scalePeriod (s : State) (n : Mcn) (from_ into : Nat) : State :=
  s.modPwm n fun w => { w with inForce := w.inForce.scale from_ into, wait := w.wait.map fun c => c.scale from_ into }

/-- The period that begins now (R69, R70, R73, R78, R83): a synchronous one ends at its next boundary; the asynchronous one
before a ratio crossing ends at the crossing, where it is at least half its length and less than one and a half. -/
def State.newPeriod (s : State) (n : Mcn) : State :=
  let m := s.mc[n]
  if s.scRuns n then
    let past := s.scOver n
    let s := s.modMc n fun m => { m with
      pwm := { m.pwm with phaseErr := 0, bridging := false }
      scar := { m.scar with clamp := past, clamped := m.scar.clamped || past } }
    let s := s.syncEnd n
    if past && !m.scar.clamped then s.raise (evMc n 3) else s
  else
    let t := s.nextAsync n
    let s1 := s.modPwm n fun w => { w with period := t, phaseErr := 0, bridging := false, endAt := none }
    let s2 := match (if m.pwm.virt then none else s.crossAhead n) with
      | some e =>
        if s.now16 + t * 8 ≤ e ∧ e < s.now16 + t * 24 then
          (s1.periodTo n e).modPwm n fun w => { w with bridging := true }
        else s1
      | none => s1
    if ((s2.mc[n]).pwm.bridging || m.pwm.bridging) && !s.conv n then s2.scalePeriod n m.pwm.period (s2.mc[n]).pwm.period
    else s2

/-- The carrier starts at an entry to ARMED (R83); an aligned one starts in phase by its bridging period (R79). -/
def State.carrierStart (s : State) (n : Mcn) : State :=
  let zero : Compare := Compare.block 0 0
  let s := s.modMc n fun m => { m with
    scar := { entry := none, ratio := 0, clamp := false, clamped := false }
    pwm := { m.pwm with
      running := true, virt := false, rising := true, zeroAt := s.now, peakAt := s.now, bridging := false, phaseErr := 0
      bound := 0, endAt := none, sectorEnd := none, edges := [], refNow := #v[false, false, false]
      inForce := zero, pend := none, wait := none, residLo := #v[0, 0, 0], residHi := #v[0, 0, 0], hiRun := #v[0, 0, 0]
      forced := #v[false, false, false], owed := #v[0, 0, 0], heldAdv := 0, missRun := 0, alignSusp := false } }
  let s := (s.setF (mcB n) R.MC_PWM_STAT.six_step 0).newPeriod n
  if s.aligned n ∧ 0 < s.framePeriods n then
    s.modPwm n fun w => { w with period := s.alignBridge n }
  else s

/-- The carrier stops (R72, R113). -/
def State.carrierStop (s : State) (n : Mcn) : State :=
  let s := s.modMc n fun m => { m with
    scar := { m.scar with entry := none, ratio := 0, clamp := false }
    pwm := { m.pwm with running := false, virt := false, pend := none, wait := none, bridging := false, endAt := none
                        sectorEnd := none, edges := [] } }
  s.setF (mcB n) R.MC_PWM_STAT.six_step 0

/-- A carrier that a high-side short stopped (R266) starts again once that short is left in a moving state.
(DESIGN CHOICE, log 84) -/
def State.carrierBack (s : State) (n : Mcn) : State :=
  let high := (s.mc[n]).short = .held true ∨ (s.mc[n]).short = .entering true
  s.onlyIf ((s.cl[mcCl n]).st.moving && !(s.mc[n]).pwm.running && !decide high) fun s => s.carrierStart n

/-- The switches take what claims them, and the carrier runs with them. (DESIGN CHOICE, log 84) -/
def State.gateBack (s : State) (n : Mcn) : State := (s.gateApply n).carrierBack n

/-- The residuals of R99 discarded. -/
def State.dropResiduals (s : State) (n : Mcn) : State :=
  s.modPwm n fun w => { w with residLo := #v[0, 0, 0], residHi := #v[0, 0, 0] }

/-- Is the present period at least half an asynchronous period old (R70)? -/
def State.halfOld (s : State) (n : Mcn) : Bool :=
  decide (s.asyncPeriod n ≤ 2 * (s.now - (s.mc[n]).pwm.zeroAt))

/-- The sector that a datum angle lies in (R90, R95): the last whose first angle it has reached.
(DESIGN CHOICE, log 79) -/
def State.sectorAt (s : State) (n : Mcn) (angle : Nat) : Nat :=
  let x := uns 32 ((angle : Int) - s.sectorAngle n (s.foc n) 0)
  ((List.range 6).filter fun k => decide (rdiv ((k * 4294967296 : Nat) : Int) 6 ≤ x)).length - 1

/-- A sector begins (R94, R95). -/
def State.sectorSet (s : State) (n : Mcn) (k : Nat) : State :=
  let s := s.setF (mcB n) R.MC_PWM_STAT.sector (k % 6)
  let s := s.modEst n fun e => { e with zcDone := false, zcOver := false, zcKept := none, zcStart := (s.mc[n]).dat.at s.now16 }
  let s := s.sectorPredict n
  if s.bySector n then s.driveHalf n else s

/-- The sector of the present datum angle is taken, and drives the phases, as the output by sectors begins and as a datum
becomes valid (R71, R90, R95). -/
def State.sectorSync (s : State) (n : Mcn) : State :=
  let d := (s.mc[n]).dat
  if d.valid ∧ s.bySector n ∧ (s.foc n ∨ s.st n R.MC_PWM_CTRL.block_src = 0) then
    s.sectorSet n (s.sectorAt n (d.at s.now16))
  else s

/-- Has the predicted sector boundary been reached: its edge time has come, or without one the latest update shows that it
was passed (R54, R95)? -/
def State.sectorDue (s : State) (n : Mcn) : Bool :=
  let m := s.mc[n]
  match m.pwm.sectorEnd with
  | some t => decide (t / 16 ≤ s.now)
  | none => s.sectorAt n m.dat.angle != s.f (mcB n) R.MC_PWM_STAT.sector

/-- A predicted sector boundary is reached (R90, R95): the sector advances along the rotation. -/
def State.sectorBoundary (s : State) (n : Mcn) : State :=
  let m := s.mc[n]
  if m.dat.valid ∧ s.sectorsByDatum n ∧ s.sectorDue n then
    let k := s.f (mcB n) R.MC_PWM_STAT.sector
    s.sectorSet n (if m.dat.rev then (k + 5) % 6 else (k + 1) % 6)
  else s

/-! ## Counter zero and period event -/

/-- A refresh pulse has ended this period for a phase (R104, R105). -/
def State.refreshDone (s : State) (n : Mcn) (p : Fin 3) : State :=
  let s := s.inc (mcB n) R.MC_PWM_REF_CNT.refresh_count
  s.modPwm n fun w => { w with
    hiRun := upd w.hiRun p 0, forced := upd w.forced p false, refNow := upd w.refNow p false
    owed := upd w.owed p (s.tRef16 n + 2 * s.dead16 n).toNat
    inForce := if s.tsw16 n ≤ s.tRef16 n then { w.inForce with opened := upd w.inForce.opened p true } else w.inForce }

/-- Does the high side of a phase stay on throughout the period, with no low-side interval (R104)? By sectors it is that
of the sector's high side, unless it is chopped. -/
def State.hiFull (s : State) (n : Mcn) (p : Fin 3) : Bool :=
  let c := (s.mc[n]).pwm.inForce
  if s.bySector n then
    s.modulates n && (sectorPhases (s.f (mcB n) R.MC_PWM_STAT.sector)).1 == p
      && (s.foc n || s.st n R.MC_PWM_CTRL.chop == 2 || decide (q1 ≤ c.duty[(0 : Fin 3)]))
  else !c.lo[p]

/-- What a period adds to the count of R104: one, or in the block families and in six-step its ticks, which R105 counts in
asynchronous periods. -/
def State.refreshStep (s : State) (n : Mcn) : Nat := if s.bySector n then (s.mc[n]).pwm.period else 1
/-- The count at which a refresh pulse ends the period (R104, R105). -/
def State.refreshAt (s : State) (n : Mcn) : Nat :=
  s.f (s.act n) R.MC_PWM_REFRESH.n_refresh * (if s.bySector n then s.asyncPeriod n else 1)

/-- At the period event it is settled for which phases a refresh pulse ends the period (R104), or a forced one (R105). -/
def State.refreshPlan (s : State) (n : Mcn) : State :=
  s.modPwm n fun w => { w with refNow := Vector.ofFn fun p : Fin 3 =>
    w.refNow[p] || w.forced[p] || (s.hiFull n p && decide (s.refreshAt n ≤ w.hiRun[p] + s.refreshStep n)) }

/-- A refresh pulse is forced on a phase (R105, R256): it ends the period in progress if there is still time for it, and
otherwise the next. -/
def State.forceRefresh (s : State) (n : Mcn) (p : Fin 3) : State :=
  let s := s.modPwm n fun w => { w with forced := upd w.forced p true }
  let w := (s.mc[n]).pwm
  if !w.rising ∧ w.running ∧ s.modulates n ∧ (s.refreshLevels n p).all (fun e => decide (s.now16 < e.1)) then
    let s := s.modPwm n fun w => { w with refNow := upd w.refNow p true }
    s.modPwm n fun w => { w with edges := (s.refreshLevels n p).foldl (fun l e => putEdge e l) w.edges }
  else s

/-- The comparator of a phase after its filter (R255, R256). -/
def State.bstSet (s : State) (n : Mcn) (p : Fin 3) (low : Bool) : State :=
  let b := mcB n
  let v := s.f b R.MC_GATE_STAT.bst_uv
  let s := s.setF b R.MC_GATE_STAT.bst_uv (v - b2n (bitAt v p.val) * 2 ^ p.val + b2n low * 2 ^ p.val)
  let s := s.modMc n fun m => { m with bstAt := upd m.bstAt p (if low ∧ !bitAt v p.val then s.now else m.bstAt[p]) }
  if low ∧ (s.mc[n]).pwm.running then
    let s := s.modMc n fun m => { m with bstNow := upd m.bstNow p true }
    -- the high side is on: a forced refresh follows at the next counter zero
    if s.swOn n (hiSw p) then s.forceRefresh n p else s
  else s

/-- The refresh bookkeeping of one phase as a period ends (R104, R105). -/
def State.refreshPhase (s : State) (n : Mcn) (p : Fin 3) : State :=
  let w := (s.mc[n]).pwm
  let full := s.hiFull n p
  -- time lost in an earlier period: returned in this one, or discarded
  let s := if 0 < w.owed[p] then
      let s := if full then s.inc (mcB n) R.MC_PWM_REF_CNT.uncomp_count else s
      s.modPwm n fun w => { w with owed := upd w.owed p 0 }
    else s
  if w.refNow[p] then s.refreshDone n p
  else s.modPwm n fun w => { w with hiRun := upd w.hiRun p (if full then w.hiRun[p] + s.refreshStep n else 0) }

/-- Phases whose window is closed at a sample (R100, R102): a window is open when the low side has been on, at the gate, for
the whole of t_sw; the modulator of a FOC family has placed it or not (R101). -/
def State.closedBits (s : State) (n : Mcn) : Nat :=
  let w := (s.mc[n]).pwm
  allP.foldl (fun b p =>
    let g := s.gate (swOut n (loSw p))
    let o := g.phase.isOn && decide (g.cmdAt + s.f (s.act n) R.MC_PWM_WIN.t_sw * 5 ≤ s.now)
      && (w.virt || !s.modulates n || w.inForce.opened[p])
    b + b2n (!o) * 2 ^ p.val) 0

/-- The vector applied in the period that ends (R145): that of the duties after limiting and dead-time compensation; of the
sector in six-step, where the floating phase counts as half the bus; none under a short (DEDUCED, log 36). -/
def State.appliedVec (s : State) (n : Mcn) : Int × Int :=
  let c := (s.mc[n]).pwm.inForce
  if !s.modulates n then (0, 0)
  else if s.bySector n then
    let (h, l) := sectorPhases (s.f (mcB n) R.MC_PWM_STAT.sector)
    dutyVec (Vector.ofFn fun p : Fin 3 => if p = h then q1 else if p = l then 0 else q1 / 2)
  else (c.ua, c.ub)

/-- A sample boundary of a cluster: the first at or after the due instant of a fill or of held banks is its due boundary
(R214). -/
def State.sampleBoundary (s : State) (n : Mcn) : State :=
  s.modMc n fun m =>
    let a : Pager := m.atl
    let due := match a.held with | some f => some f.due | none => a.fill.map (·.due)
    match a.dueAt, due with
    | none, some d => if d ≤ s.now then { m with atl := { a with dueAt := some s.now } } else m
    | _, _ => m

/-- The current roles hold (R100, R111): the sample instant, the windows, the pass of the current results. -/
def State.holdCurrents (s : State) (n : Mcn) : State :=
  let closed := s.closedBits n
  let (ua, ub) := s.appliedVec n
  let s := s.setF (mcB n) R.MC_PWM_STAT.closed closed
  let s := (s.modGrp (mcG n) fun g => { g with curPass := (g.curPass + 1) % 128 }).holdRoles n allP
  let s := s.sampleBoundary n
  s.modMc n fun m => { m with uA := ua, uB := ub, closed := closed, pwm := { m.pwm with sampleAt := s.now, sampleSec := s.f (mcB n) R.MC_PWM_STAT.sector } }

/-- Is the current sampled at the period event (R96)? -/
def State.sampleTop (s : State) (n : Mcn) : Bool :=
  !s.conv n && !s.foc n && (s.cl[mcCl n]).st.moving && s.st n R.MC_PWM_CTRL.chop != 2

/-- Low times of the legs in a voltage pulse of an amplitude (1/256 of V_base), a width (125 ps) and a direction, centred on the
period event: legs go low out of the zero vector in which every high side conducts, at most two active vectors long, and the
pulse has the stated voltage-time area as far as the width allows. (DESIGN CHOICE, log 80) -/
def State.pulseLegs (s : State) (n : Mcn) (amp width : Nat) (dir : Nat) : Vector Nat 3 :=
  let x (p : Fin 3) : Int := cosQ (BitVec.ofInt 32 ((dir : Int) - rdiv ((p.val * 4294967296 : Nat) : Int) 3))
  let v : Vector Int 3 := #v[x 0, x 1, x 2]
  let one (p : Fin 3) : Nat :=
    (clampI 0 width (qdiv (width * (max3 v - v[p]) * amp * s.vBase n) (256 * q1 * s.vsMv n))).toNat
  #v[one 0, one 1, one 2]

/-- Direction of the injection pulse of a period in its cycle of four, from the tracker angle (R148). -/
def injDir (cycle angle : Nat) : Nat :=
  (angle + (match cycle with | 0 => 0x20000000 | 1 => 0xA0000000 | 2 => 0xE0000000 | _ => 0x60000000)) % 4294967296

/-- The pulse of the coming period: one of a polarity pair, five whole periods apart (R156), or an injection pulse, which a
zero-vector interval that is too short does not carry (R148). (DESIGN CHOICE, log 80) -/
def State.injPlan (s : State) (n : Mcn) : State :=
  let m := s.mc[n]
  let none_ (s : State) : State := s.modPwm n fun w => { w with inj := #v[0, 0, 0] }
  if !s.modulates n ∨ m.pwm.virt ∨ !s.foc n ∨ s.conv n then none_ s
  else
    let th := s.f (mcB n) R.MC_EST_INJ_ANGLE.angle
    if s.f (mcB n) R.MC_EST_STAT.phase = 3 ∧ (m.est.polStep = 0 ∨ m.est.polStep = 6) then
      let dir := if m.est.polStep = 0 then th else (th + 0x80000000) % 4294967296
      let legs := s.pulseLegs n (s.f (s.act n) R.MC_INJ_POL.pol_amp) (Nat.max 1 (s.f (s.act n) R.MC_INJ_POL.pol_width) * 800) dir
      (s.modPwm n fun w => { w with inj := legs }).modEst n fun e => { e with polStep := e.polStep + 1 }
    else
      let s := if s.f (mcB n) R.MC_EST_STAT.phase = 3 then s.modEst n fun e => { e with polStep := e.polStep + 1 } else s
      if m.est.injOn ∧ s.fb (s.act n) R.MC_INJ_CFG.inj_en then
        let c := m.pwm.inForce
        let up := allP.foldl (fun x p => Nat.max x c.cUp[p]) 0
        let dn := allP.foldl (fun x p => Nat.max x c.cDn[p]) 0
        let zv : Int := s.t16 n - up - dn
        let width := s.f (s.act n) R.MC_INJ_CFG.inj_width * 160
        if zv < (width : Int) + 2 * s.dead16 n then (none_ s).inc (mcB n) R.MC_EST_CNT2.inj_skip
        else
          let legs := s.pulseLegs n (s.f (s.act n) R.MC_INJ_CFG.inj_amp) width (injDir m.est.injCycle th)
          s.modPwm n fun w => { w with inj := legs }
      else none_ s

/-- A counter zero of a motor cluster's carrier, or of its virtual carrier, comes now (R71, R83, R100, R104, R107, R108). -/
def State.zeroNow (s : State) (n : Mcn) : State :=
  let s := s.each allP fun p s => s.refreshPhase n p
  let s := s.bstPeriod n
  let s := if s.sampleTop n then s else s.holdCurrents n
  -- values that wait act from this counter zero
  let s := s.modPwm n fun w => { w with inForce := w.wait.getD w.inForce, wait := none, rising := true, zeroAt := s.now }
  let s := (s.newPeriod n).injPlan n
  let s := if (s.mc[n]).pwm.virt then s else s.driveHalf n
  s.pwmTrigger n 1

/-- Counter zero: the period in progress has ended (R83); a synchronous one has come to its next boundary (R69). -/
def State.counterZero (s : State) (n : Mcn) : State :=
  let m := s.mc[n]
  if m.pwm.running ∧ m.pwm.zeroAt + m.pwm.period ≤ s.now then
    let s := if s.scRuns n then
        s.modPwm n fun w => { w with bound := boundNext m.dat.rev m.scar.ratio w.bound } else s
    s.zeroNow n
  else s

/-- The period event of a motor cluster (R83, R96, R104, R108). -/
def State.periodEvent (s : State) (n : Mcn) : State :=
  let m := s.mc[n]
  if m.pwm.running ∧ m.pwm.rising ∧ m.pwm.zeroAt + m.pwm.period / 2 ≤ s.now then
    let s := s.modPwm n fun w => { w with rising := false, peakAt := s.now }
    let s := match (s.mc[n]).pwm.wait with
      | some c =>
        let f := s.fallWindows n (fallValues (s.mc[n]).pwm c)
        s.modPwm n fun w => { w with inForce := f }
      | none => s
    let s := s.refreshPlan n
    let s := if s.sampleTop n then s.holdCurrents n else s
    let s := if !(s.mc[n]).pwm.virt then s.driveHalf n
      else s.modPwm n fun w => { w with
        edges := ((allP.filter fun p => w.refNow[p]).flatMap fun p => s.refreshLevels n p).foldl (fun l e => putEdge e l) w.edges }
    s.pwmTrigger n 2
  else s

/-- A ratio crossing (R68 to R71): the entry is selected afresh. The period in progress ends here when it is a bridging or a
synchronous period, or old enough; otherwise it ends at the first boundary after the crossing. (DESIGN CHOICE, log 31) -/
def State.ratioCrossing (s : State) (n : Mcn) : State :=
  let m := s.mc[n]
  if s.conv n ∨ !m.pwm.running ∨ !m.dat.valid ∨ !((s.cl[mcCl n]).st.moving) then s
  else
    let sel := s.scSelect n (m.dat.speedAt s.now16)
    let old := match m.scar.entry with | none => 0 | some e => e + 1
    let ratio := if sel = 0 then 0 else s.scEnt n R.MC_SCAR_ENT.ratio (sel - 1)
    let six := ratio = 1
    let wasSix := m.scar.ratio = 1
    let same : Bool := m.scar.ratio == ratio
    let s := if same then s else s.dropResiduals n
    let s := s.modMc n fun m => { m with
      scar := { entry := if sel = 0 then none else some (sel - 1), ratio := ratio, clamp := m.scar.clamp && same
                clamped := m.scar.clamped && sel == old }
      pwm := { m.pwm with bound := 0 } }
    if sel = 0 ∧ old = 0 then (if m.pwm.bridging then s.zeroNow n else s)
    else if six ∧ wasSix then s
    else
      let s := if sel ≠ 0 then (s.modPwm n fun w => { w with kf := 16, kfNext := none }).setF (mcB n) R.MC_TH_STAT.k_f 16 else s
      let s := if wasSix then
          -- the loops resume with the voltage that reproduces the measured currents (R90): free values
          let vd := sgn 32 s.freeNat
          let s := s.drawn
          let vq := sgn 32 s.freeNat
          let s := s.drawn
          s.modMc n fun m => { m with
            pwm := { m.pwm with virt := false }
            loops :=
              let ls := m.loops.map fun l => { l with started := false }
              upd (upd ls 0 { ls[(0 : Fin 4)] with seed := some vd }) 1 { ls[(1 : Fin 4)] with seed := some vq } }
        else s
      let s := s.setF (mcB n) R.MC_PWM_STAT.six_step (b2n six)
      if six then ((s.modPwm n fun w => { w with virt := true }).zeroNow n).sectorSync n
      else if wasSix ∨ old ≠ 0 ∨ m.pwm.bridging ∨ s.halfOld n then s.zeroNow n
      else
        -- the period runs on to the first boundary after this tick
        let b := m.dat.at s.now16 * ratio / 4294967296 + b2n m.dat.rev
        (s.modPwm n fun w => { w with bound := b }).syncEnd n

end Sys2Proof.Machine
end

