-- ==== Sys2Proof/Machine/Est.lean ====
section
/-! DEFINITION. Rotor estimation, start and recovery (05_rotor_estimation_and_startup R139 to R169). Where the spec gives a
tracking loop no equations (R149, R152, R165), its angle or speed is a free value; what it decides is as the rules say. -/

namespace Sys2Proof.Machine

/-- Datum source in effect; none in converter personality (R279). -/
def State.source (s : State) (n : Mcn) : Nat :=
  if s.conv n ∨ (s.cl[mcCl n]).st = .unused then 0 else s.st n R.MC_DAT_CFG.source

/-- The estimator's registers. -/
def State.estF (s : State) (n : Mcn) (f : Fld) : Nat := s.f (mcB n) f
def State.estSet (s : State) (n : Mcn) (f : Fld) (v : Nat) : State := s.setF (mcB n) f v
/-- Fields of the active set. -/
def State.setFld (s : State) (n : Mcn) (f : Fld) : Nat := s.f (s.act n) f

/-- A parameter of the observer: the sheet's value while one is paged into the active bank (R145, R183). -/
def State.obsF (s : State) (n : Mcn) (f : Fld) : Int := s.bankF n 1 f

/-- Code of k · 60 °e. -/
def deg60 (k : Int) : Int := rdiv (k * turn) 6
/-- Code of 30 °e. -/
def deg30 : Int := 357913941

/-- Instant of a change that has just passed the glitch filter (chapter opening), 125 ps. -/
def State.filtered (s : State) (n : Mcn) : Int := s.now16 - (s.st n R.MC_POS_CFG.pos_filt : Int) * 160

/-- Is the datum's supplier the sensor now: no start stage drives it? -/
def State.sensorDrives (s : State) (n : Mcn) : Bool :=
  let ph := s.estF n R.MC_EST_STAT.phase
  ph != 4 && ph != 5

/-- A sensor update of the datum (src_now sensor). -/
def State.sensorUpdate (s : State) (n : Mcn) (angle : Nat) (speed ts : Int) : State :=
  if s.sensorDrives n then
    let was := (s.mc[n]).dat.valid
    let s := (s.sourceUpdate n angle speed ts).estSet n R.MC_EST_STAT.src_now 1
    if was then s else s.sectorSync n
  else s

/-- Q16.16 Hz of `num` / 6 turns in an interval of 125 ps units. -/
def sixths (num dt : Int) : Int := if dt ≤ 0 then 0 else sat32 (qdiv (num * 65536 * hz16) (6 * dt))

/-! ## Hall (R139 to R141) -/

/-- Speed magnitude by the Hall edges in one direction, newest first (R140). -/
def hallSpeed (edges : List Int) : Int :=
  match edges with
  | a :: b :: _ => if edges.length = 7 then sixths 6 (a - nth edges 6 a) else sixths 1 (a - b)
  | _ => 0

/-- At speed 0 a Hall datum holds its angle: no acceleration carries it on (R140; DEDUCED, log 37). -/
def State.hallHold (s : State) (n : Mcn) : State := s.modDat n fun d => if d.speed = 0 then { d with acc := 0 } else d

/-- A Hall code after its filter. (DEDUCED, log 37) -/
def State.hallEdge (s : State) (n : Mcn) (code : Nat) : State :=
  if s.source n ≠ 1 then s
  else
    let v := bitsAt (s.st n R.MC_POS_MAP.hall_map) (3 * code) 3
    let off : Int := s.st n R.MC_POS_OFFSET.pos_offset
    let e := (s.mc[n]).est
    let t := s.filtered n
    if 6 ≤ v then
      let s := s.inc (mcB n) R.MC_EST_CNT.hall_bad
      let s := s.modEst n fun e => { e with badRun := e.badRun + 1 }
      if s.st n R.MC_POS_CFG.bad_n ≤ e.badRun + 1 then
        (s.datumInvalid n).modEst n fun e => { e with hall := none, edges := [] }
      else s
    else
      let s := s.modEst n fun e => { e with badRun := 0 }
      match e.hall with
      | none =>
        let s := s.modEst n fun e => { e with hall := some v, edges := [] }
        (s.sensorUpdate n (uns 32 (off + deg60 v + deg30)) 0 t).hallHold n
      | some o =>
        if v = o then s
        else if v = (o + 1) % 6 ∨ o = (v + 1) % 6 then
          let rev := v ≠ (o + 1) % 6
          let at_ := uns 32 (off + deg60 (if rev then o else v))
          let edges := if e.edges = [] ∨ rev ≠ e.hallRev then [t] else (t :: e.edges).take 7
          let mag := hallSpeed edges
          let s := s.modEst n fun e => { e with hall := some v, hallRev := rev, edges := edges }
          (s.sensorUpdate n at_ (if rev then -mag else mag) t).hallHold n
        else
          let s := s.raise (evMc n 8)
          let d := (s.mc[n]).dat
          -- the source's own sense of rotation
          let rev := d.rev != s.datInv n
          let s := s.modEst n fun e => { e with hall := some v, edges := [t] }
          s.sensorUpdate n (uns 32 (off + deg60 (if rev then (v + 1 : Nat) else v))) (s.srcSpeed n d.speed) t

/-- Angle of a count. -/
def State.encAngle (s : State) (n : Mcn) (count : Int) : Nat :=
  let lines : Int := Nat.max 1 (s.st n R.MC_POS_ENC.enc_lines)
  uns 32 ((s.st n R.MC_POS_OFFSET.pos_offset : Int) + rdiv (count * s.polePairs n * turn) (4 * lines))

def State.encCount (s : State) (n : Mcn) : Int := s.fi (mcB n) R.MC_EST_ENC_COUNT.count
def State.setEncCount (s : State) (n : Mcn) (c : Int) : State := s.estSet n R.MC_EST_ENC_COUNT.count (uns 32 c)

/-- The encoder's datum update with its speed over the edges of the last eight samples. -/
def State.encUpdate (s : State) (n : Mcn) : State :=
  if s.source n = 2 ∧ s.fb (mcB n) R.MC_EST_STAT.enc_ref then
    let lines : Int := Nat.max 1 (s.st n R.MC_POS_ENC.enc_lines)
    let es := (s.mc[n]).est.encEdges
    let speed := match es.head?, es.getLast? with
      | some (_, t1, c1), some (_, t0, c0) =>
        if t1 ≤ t0 then 0 else sat32 (qdiv ((c1 - c0) * s.polePairs n * 65536 * hz16) (4 * lines * (t1 - t0)))
      | _, _ => 0
    s.sensorUpdate n (s.encAngle n (s.encCount n)) speed s.now16
  else s

/-- No Hall or count edge for stop_ms (R140, R142). -/
def State.posStop (s : State) (n : Mcn) : State :=
  let off : Int := s.st n R.MC_POS_OFFSET.pos_offset
  match s.source n, (s.mc[n]).est.hall with
  | 1, some v =>
    if (s.mc[n]).dat.valid then
      ((s.modEst n fun e => { e with edges := [] }).sensorUpdate n (uns 32 (off + deg60 v + deg30)) 0 s.now16).hallHold n
    else s
  | 2, _ =>
    (s.modEst n fun e => { e with encEdges := [] }).encUpdate n
  | _, _ => s

/-- The interpolated Hall update of a current sample (R140): the extrapolation of R49 from the latest edge, which never
passes the next boundary along the rotation. (DEDUCED, log 37) -/
def State.hallSample (s : State) (n : Mcn) : State :=
  let d := (s.mc[n]).dat
  let e := (s.mc[n]).est
  match e.edges with
  | [] => s
  | t :: _ =>
    if !d.valid ∨ d.speed = 0 then s
    else
      let mag := hallSpeed e.edges
      -- the edge's own update, in the source's sense; the acceleration is the datum's
      let w := if mag = 0 then s.srcSpeed n d.speed else if e.hallRev then -mag else mag
      let x : Datum := { d with speed := w, acc := if s.datInv n then -d.acc else d.acc, ts := t }
      let room := deg60 1
      let v : Int := e.hall.getD 0
      let edgeAt := (s.st n R.MC_POS_OFFSET.pos_offset : Int) + deg60 (if e.hallRev then v + 1 else v)
      let go := if e.hallRev then clampI (-room) 0 (x.travel s.now16) else clampI 0 room (x.travel s.now16)
      s.sensorUpdate n (uns 32 (edgeAt + go)) (x.speedAt s.now16) s.now16

/-! ## Encoder (R142, R143) -/

/-- A quadrature transition. (DEDUCED, log 37) -/
def State.encEdge (s : State) (n : Mcn) (q : Quad) : State :=
  if s.source n ≠ 2 then s
  else
    let step (d : Int) : State :=
      let c := s.encCount n + d
      (s.setEncCount n c).modEst n fun e => { e with encEdges := (0, s.filtered n, c) :: e.encEdges }
    match q with
    | .up => step 1
    | .down => step (-1)
    | .illegal => (s.inc (mcB n) R.MC_EST_CNT.enc_err).raise (evMc n 8)

/-- A rising index edge (R143). (DEDUCED, log 37) -/
def State.encIndex (s : State) (n : Mcn) : State :=
  if s.source n = 2 ∧ s.st n R.MC_POS_ENC.z_en = 1 then
    let m : Int := 4 * Nat.max 1 (s.st n R.MC_POS_ENC.enc_lines)
    let c := s.encCount n
    let near := rdiv c m * m
    let s := if s.st n R.MC_POS_CFG.z_tol < (c - near).natAbs then
        (s.inc (mcB n) R.MC_EST_CNT.enc_err).raise (evMc n 8) else s
    let s := s.setEncCount n near
    let s := s.modEst n fun e => { e with encEdges := e.encEdges.map fun (k, t, x) => (k, t, x + near - c) }
    (s.estSet n R.MC_EST_STAT.enc_ref 1).encUpdate n
  else s

/-- An encoder takes an angle as its reference (R143, R155, R156). -/
def State.encRef (s : State) (n : Mcn) (angle : Nat) : State :=
  if s.source n = 2 then
    let lines : Int := Nat.max 1 (s.st n R.MC_POS_ENC.enc_lines)
    let c := rdiv (wrapDiff angle (s.st n R.MC_POS_OFFSET.pos_offset) * 4 * lines) (turn * s.polePairs n)
    ((s.setEncCount n c).modEst n fun e => { e with encEdges := [] }).estSet n R.MC_EST_STAT.enc_ref 1
  else s

/-! ## Absolute sensor (R144) -/

/-- A completed transfer: its start in 125 ps, its word, whether the port found no error. (DEDUCED, log 37) -/
def State.absUpdate (s : State) (n : Mcn) (start : Int) (w : Nat) (portOk : Bool) : State :=
  if s.source n = 3 ∨ s.source n = 4 then
    let bits := s.st n R.MC_POS_SENS.ang_bits
    let ok := portOk && bitAt w (s.st n R.MC_POS_SENS.ok_bit) == (s.st n R.MC_POS_SENS.ok_pol == 1)
    if ok then
      let mech : Int := bitsAt w (s.st n R.MC_POS_SENS.ang_lsb) bits
      let a := uns 32 ((s.st n R.MC_POS_OFFSET.pos_offset : Int) + mech * 2 ^ (32 - bits) * s.polePairs n)
      let ts := start + (s.st n R.MC_POS_SENS.sens_lat : Int) * 160
      let e := (s.mc[n]).est
      let diffs := match e.sensLast with
        | some (a0, t0) =>
          if t0 < ts then (qdiv (wrapDiff a a0 * hz16) ((ts - t0) * 65536) :: e.sensDiffs).take 8 else e.sensDiffs
        | none => []
      let speed := if diffs = [] then 0 else sat32 (qdiv (diffs.foldl (· + ·) 0) diffs.length)
      let s := s.modEst n fun e => { e with sensLast := some (a, ts), sensDiffs := diffs, sensBad := 0 }
      s.sensorUpdate n a speed ts
    else
      let s := s.inc (mcB n) R.MC_EST_CNT.sens_bad
      let run := (s.mc[n]).est.sensBad + 1
      let s := s.modEst n fun e => { e with sensBad := run }
      if run = Nat.max 1 (s.st n R.MC_POS_CFG.bad_n) then
        (((s.raise (evMc n 8)).datumInvalid n).modEst n fun e => { e with sensLast := none, sensDiffs := [] })
      else s
  else s

/-! ## Blend (R150) -/

/-- The weight w as a fraction. -/
def State.blendW (s : State) (n : Mcn) : Int × Int :=
  let lo : Int := s.setFld n R.MC_OBS_BLEND.blend_lo
  let hi : Int := s.setFld n R.MC_OBS_BLEND.blend_hi
  if s.setFld n R.MC_INJ_CFG.inj_en = 0 ∨ !(s.mc[n]).est.injOn ∨ hi ≤ lo then (1, 1)
  else
    let w : Int := (s.mc[n]).est.prevSpeed.natAbs
    (clampI 0 ((hi - lo) * 4096) (w - lo * 4096), (hi - lo) * 4096)

/-- Injection restarts below blend_hi, and stops after 32 samples at or above it (R150). -/
def State.injBand (s : State) (n : Mcn) : State :=
  if s.setFld n R.MC_INJ_CFG.inj_en = 0 then s.modEst n fun e => { e with injOn := false }
  else
    let hi : Int := (s.setFld n R.MC_OBS_BLEND.blend_hi : Int) * 4096
    let e := (s.mc[n]).est
    let high := decide (hi ≤ (e.prevSpeed.natAbs : Int))
    if e.injOn then
      let run := if high then e.blendRun + 1 else 0
      s.modEst n fun e => { e with blendRun := run, injOn := run < 32 }
    else if !high ∧ (s.mc[n]).dat.valid then
      let d := (s.mc[n]).dat
      let s := s.modEst n fun e => { e with
        injOn := true, blendRun := 0, injSpeed := s.srcSpeed n (d.speedAt s.now16), injCycle := 0, injRun := 32
        injPrev := [], injResp := [] }
      (s.estSet n R.MC_EST_INJ_ANGLE.angle (s.srcAngle n (d.at s.now16))).estSet n R.MC_EST_STAT.inj_lock 1
    else s

/-- The datum from the estimators (R150). -/
def State.blendDatum (s : State) (n : Mcn) (ts : Int) : State :=
  let (num, den) := s.blendW n
  let ti := s.estF n R.MC_EST_INJ_ANGLE.angle
  let tp := s.estF n R.MC_EST_OBS_ANGLE.angle
  let wi := (s.mc[n]).est.injSpeed
  let wp := s.fi (mcB n) R.MC_EST_OBS_SPEED.speed
  let s := s.estSet n R.MC_EST_STAT.blend_w (qdiv (num * 255) den).toNat
  let full := num = den
  let ok := if full then s.fb (mcB n) R.MC_EST_STAT.obs_lock else s.fb (mcB n) R.MC_EST_STAT.inj_lock
  if ok then
    let a := if full then tp else uns 32 ((ti : Int) + qdiv (num * wrapDiff tp ti) den)
    let v := if full then wp else wi + qdiv (num * (wp - wi)) den
    let src := if full then 6 else if num = 0 then 4 else 5
    (s.sourceUpdate n a v ts).estSet n R.MC_EST_STAT.src_now src
  else (s.datumInvalid n).estSet n R.MC_EST_STAT.src_now 0

/-! ## Recovery (R161 to R169) -/

/-- Is the estimated back-EMF E = √3 · 2π · |ω| · ψ below 0.9 of the bus (R163)? Speed Q16.16 Hz, flux nWb. -/
def State.eLow (s : State) (n : Mcn) (w : Int) : Bool :=
  decide (10882796185 * (w.natAbs : Int) * s.obsF n R.MC_OBS_PSI.value * 10 < 9 * s.vsMv n * 65536000000000000000)

/-- The phase code of a path. -/
def pathPhase : Path → Nat
  | .coast => 6
  | .short => 7

/-- The record of a recovery (MC_EST_REACQ). -/
def State.reacqRecord (s : State) (n : Mcn) (ok : Bool) : State :=
  let e := (s.mc[n]).est
  let us := Nat.min 65535 ((s.now - e.recAt) / 500)
  ((s.estSet n R.MC_EST_REACQ.reacq_time us).estSet n R.MC_EST_REACQ.path (b2n (e.recPath == some .short))).estSet n
    R.MC_EST_REACQ.ok (b2n ok)

/-- A path is taken (R163): every switch off, or the active short. Where the short would be of the high side, or no short is
left, the recovery is impossible: it ends, and the switches stay as the rules of the short give them. -/
def State.takePath (s : State) (n : Mcn) (p : Path) : State :=
  let lost := p == .short && s.safeSide n != some false
  let s := s.modEst n fun e => { e with
    recPath := some p, recOver := lost, fsOn := false, fsTurned := 0, fsRun := 0, lowRun := 0, scTurned := 0, scMag := 0
    scSum := (0, 0), scCnt := 0, scMean := (0, 0), resume := none, clipClose := p == .short }
  let s := (s.estSet n R.MC_EST_STAT.fs_lock 0).estSet n R.MC_EST_STAT.sc_lock 0
  let s := s.estSet n R.MC_EST_STAT.phase (pathPhase p)
  (if lost ∧ (s.cl[mcCl n]).st ≠ .starting then s.reacqRecord n false else s).gateBack n

/-- The path chosen by R163 from ω_0, or from the measured magnitude once the tracker has one (R164). -/
def State.choosePath (s : State) (n : Mcn) : State :=
  let e := (s.mc[n]).est
  let low := if e.fsGot then decide (10 * (e.fsMag : Int) < 9 * s.vsMv n) else s.eLow n e.omega0
  s.takePath n (if low then .coast else .short)

/-- A recovery begins (R162): the datum is invalid, the speed loop frozen, the window starts, a path is chosen. -/
def State.recover (s : State) (n : Mcn) : State :=
  let s := s.datumInvalid n
  let s := s.estSet n R.MC_EST_STAT.src_now 0
  let s := s.modLoop n 2 fun l => { l with started := false }
  let s := s.modEst n fun e => { e with recAt := s.now, again := false, fsGot := false }
  s.choosePath n

/-- The lock-loss event and its counter (R161, R162). -/
def State.lockLost (s : State) (n : Mcn) : State := (s.raise (evMc n 11)).inc (mcB n) R.MC_EST_CNT2.lol_count

/-- Loss of lock is declared (R161, R162). -/
def State.lossOfLock (s : State) (n : Mcn) : State :=
  let s := s.lockLost n
  let s := s.estSet n R.MC_EST_STAT.obs_lock 0
  let (num, den) := s.blendW n
  let full := num = den
  let st := (s.cl[mcCl n]).st
  if (st = .running ∨ st = .stopping) ∧ full then s.recover n
  else if full ∧ s.estF n R.MC_EST_STAT.src_now = 6 then
    (s.datumInvalid n).estSet n R.MC_EST_STAT.src_now 0
  else s

/-- The window expires (R167). What follows the reaction is applied with it (`settle`). -/
def State.reacqExpire (s : State) (n : Mcn) : State :=
  if (s.mc[n]).est.recPath.isSome ∧ !(s.mc[n]).est.again ∧ !(s.mc[n]).est.recOver then
    let s := (s.raise (evMc n 12)).inc (mcB n) R.MC_EST_CNT2.reacq_fail
    let s := s.reacqRecord n false
    let e := (s.mc[n]).est
    let w := if s.fb (mcB n) R.MC_EST_STAT.fs_lock then e.fsSpeed
      else if s.fb (mcB n) R.MC_EST_STAT.sc_lock then e.scSpeed else e.omega0
    s.modEst n fun e => { e with again := true, omega0 := w }
  else s

/-! ## Starting (R154 to R159) -/

/-- The commanded direction (R154, "Starting a motor"): the sign of the speed set-point; true is reverse. -/
def State.cmdRev (s : State) (n : Mcn) : Bool :=
  let x := s.axM[n]
  let v : Int := x.cmds.foldl (fun v c => match c with | .speed t _ => t | _ => v) ((x.spd.map (·.1)).getD 0)
  decide (v < 0)

/-- Stage 4: RUNNING is entered within this step. -/
def State.startReady (s : State) (n : Mcn) : State :=
  let s := s.estSet n R.MC_EST_STAT.phase 0
  s.modCl (mcCl n) fun c => { c with startDone := true }

/-- RUNNING is entered without a ramp: the speed loop starts from the measured speed (R159). -/
def State.startSpeed (s : State) (n : Mcn) : State :=
  (s.modLoop n 2 fun l => { l with started := false, seed := none, seedRef := none }).startReady n

/-- Has the datum a supplier of its own: valid, and not by an alignment that a ramp is to follow? -/
def State.datumReady (s : State) (n : Mcn) : Bool :=
  (s.mc[n]).dat.valid && !(s.setFld n R.MC_START_CFG.ramp == 1 && s.source n == 5
    && s.estF n R.MC_EST_STAT.src_now == 2)

/-- Stage 3, or the entry to RUNNING (R157, R159). -/
def State.startAccel (s : State) (n : Mcn) : State :=
  if s.datumReady n then s.startSpeed n
  else if s.setFld n R.MC_START_CFG.ramp = 1 then
    let s := s.modEst n fun e => { e with
      rampAngle := (s.mc[n]).dat.angle, rampSpeed := 0, rampAt := s.now16
      rampI := s.setFld n R.MC_START_RAMP.ramp_i, zcSeq := 0 }
    let s := (s.estSet n R.MC_EST_STAT.phase 4).estSet n R.MC_EST_STAT.src_now 3
    (s.datumUpdate n (s.mc[n]).est.rampAngle 0 s.now16).sectorSync n
  else s.estSet n R.MC_EST_STAT.phase 0

/-- Stage 2 (R155): skipped with a valid datum. (DESIGN CHOICE, log 80) -/
def State.startFind (s : State) (n : Mcn) : State :=
  let s := (s.modEst n fun e => { e with fsOn := false, brake := none }).estSet n R.MC_EST_STAT.phase 0
  if (s.mc[n]).dat.valid then s.startAccel n
  else
    match s.setFld n R.MC_START_CFG.find with
    | 1 =>
      let s := s.modEst n fun e => { e with rampAt := s.now16, rampI := 0 }
      let s := s.estSet n R.MC_EST_STAT.phase 2
      -- the block families align in the sector nearest to the angle (DESIGN CHOICE, log 80)
      if s.foc n then s else s.sectorSet n 0
    | 2 =>
      let s := s.modEst n fun e => { e with injOn := true, injSpeed := 0, injCycle := 0, injRun := 0, blendRun := 0
                                            injPrev := [], injResp := [], polTries := 0 }
      (s.estSet n R.MC_EST_STAT.inj_lock 0).estSet n R.MC_EST_STAT.phase 2
    | _ => s.startAccel n

/-- What the entry to STARTING fixes for the whole start: the commanded direction, and that the observer has not been locked
(R157, R161). -/
def State.startFix (s : State) (n : Mcn) : State :=
  s.modEst n fun e => { e with startRev := s.cmdRev n, everLock := false, stallSince := none }

/-- A start begins (R154): the probe, or the find stage. -/
def State.startBegin (s : State) (n : Mcn) : State :=
  let s := s.modEst n fun e => { e with
    failed := false, brake := none, recPath := none, recOver := false, resume := none, polTries := 0, again := false
    zcSeq := 0, zcNone := 0, fsOn := false, clipClose := false }
  if s.setFld n R.MC_START_CFG.fly = 1 then
    let s := s.modEst n fun e => { e with
      fsOn := true, fsMag := 0, fsTurned := 0, fsRun := 0, fsSeen := false, fsGot := false, fsBelow := none, recAt := s.now
      fsRaw := #v[none, none, none], fsLast := #v[none, none, none] }
    (s.estSet n R.MC_EST_STAT.fs_lock 0).estSet n R.MC_EST_STAT.phase 1
  else s.startFind n

/-- A start fails (R159): every switch off. -/
def State.startFail (s : State) (n : Mcn) : State :=
  let s := (s.raise (evMc n 9)).inc (mcB n) R.MC_EST_CNT2.start_fail
  let s := s.modEst n fun e => { e with failed := true, fsOn := false, recPath := none, resume := none, brake := none }
  let s := s.estSet n R.MC_EST_STAT.phase 0
  -- a datum that a start stage drove has lost its supplier
  let src := s.estF n R.MC_EST_STAT.src_now
  let s := if src = 2 ∨ src = 3 then (s.datumInvalid n).estSet n R.MC_EST_STAT.src_now 0 else s
  s.gateBack n

/-- The probe time ends (R154). -/
def State.probeEnd (s : State) (n : Mcn) : State :=
  if s.estF n R.MC_EST_STAT.phase = 1 ∧ !(s.mc[n]).est.fsSeen then s.startFind n else s

/-- The alignment has run (R155). -/
def State.alignDone (s : State) (n : Mcn) : State :=
  if s.estF n R.MC_EST_STAT.phase = 2 ∧ s.setFld n R.MC_START_CFG.find = 1 ∧ (s.cl[mcCl n]).st = .starting then
    let s := s.datumUpdate n 0 0 s.now16
    let s := s.estSet n R.MC_EST_STAT.src_now 2
    (s.encRef n 0).startAccel n
  else s

/-- The peaks of a polarity pulse pair that has been applied (R156). -/
def State.polarity (s : State) (n : Mcn) (plus minus : Nat) : State :=
  if s.estF n R.MC_EST_STAT.phase = 3 ∧ (s.cl[mcCl n]).st = .starting ∧ 6 < (s.mc[n]).est.polStep then
    let s := s.modEst n fun e => { e with polStep := 0 }
    if 40 * ((plus : Int) - minus).natAbs < plus + minus then
      let k := (s.mc[n]).est.polTries + 1
      let s := s.modEst n fun e => { e with polTries := k }
      if k = 3 then s.startFail n else s
    else
      let a := s.estF n R.MC_EST_INJ_ANGLE.angle
      let a := if plus < minus then (a + 0x80000000) % 4294967296 else a
      let s := s.estSet n R.MC_EST_INJ_ANGLE.angle a
      let s := s.encRef n a
      let s := s.sourceUpdate n a (s.mc[n]).est.injSpeed s.now16
      (s.estSet n R.MC_EST_STAT.src_now 4).startAccel n
  else s

/-- The angle and speed of the open-loop ramp at a current sample (R157), and the fall of its current in the handover
(R158). -/
def State.rampSample (s : State) (n : Mcn) : State :=
  let ph := s.estF n R.MC_EST_STAT.phase
  if ph = 4 ∨ ph = 5 then
    let e := (s.mc[n]).est
    let dt := s.now16 - e.rampAt
    let top : Int := (s.setFld n R.MC_START_RAMP.ramp_f_end : Int) * 4096
    let mag := (e.rampSpeed.natAbs : Int) + qdiv ((s.setFld n R.MC_START_HO.ramp_acc : Int) * 65536 * dt) hz16
    let mag := if top < mag then top else mag
    let v := if e.startRev then -mag else mag
    let a := uns 32 ((e.rampAngle : Int) + qdiv ((e.rampSpeed + v) * dt * 65536) (2 * hz16))
    let fall := qdiv ((s.setFld n R.MC_START_RAMP.ramp_i : Int) * s.setFld n R.MC_START_HO.ho_rate * dt) (256 * 8000000)
    let i := if ph = 5 then (if e.rampI < fall then 0 else e.rampI - fall) else e.rampI
    let s := s.modEst n fun e => { e with rampAngle := a, rampSpeed := v, rampAt := s.now16, rampI := i }
    s.datumUpdate n a v s.now16
  else s

/-- The handover to the observer in the FOC families (R158), judged as the observer's run completes. -/
def State.handover (s : State) (n : Mcn) : State :=
  let ph := s.estF n R.MC_EST_STAT.phase
  let e := (s.mc[n]).est
  let top : Int := (s.setFld n R.MC_START_RAMP.ramp_f_end : Int) * 4096
  if ph = 4 ∧ s.fb (mcB n) R.MC_EST_STAT.obs_lock ∧ top ≤ (e.rampSpeed.natAbs : Int) then
    s.estSet n R.MC_EST_STAT.phase 5
  else if ph = 5 then
    let th := s.srcAngle n (s.estF n R.MC_EST_OBS_ANGLE.angle)
    let load := wrapDiff th e.rampAngle
    let load := if e.startRev then -load else load
    if (s.setFld n R.MC_START_HO.ho_angle : Int) * turn ≤ load * 360 then
      -- the current vector keeps its place: its components in the observer frame start the references
      let d := uns 32 (wrapDiff th e.rampAngle)
      let c := cosQ (BitVec.ofNat 32 d)
      let sn := sinQ (BitVec.ofNat 32 d)
      let m := s.mc[n]
      let rd := rdiv (m.iD * c + m.iQ * sn) q1
      let rq := rdiv (m.iQ * c - m.iD * sn) q1
      let s := (s.modLoop n 0 fun l => { l with ramp := rd, arrived := false }).modLoop n 1 fun l =>
        { l with ramp := rq, arrived := false }
      s.startReady n
    else s
  else s

/-! ## The flux observer (R145, R146, R161) -/

/-- 2π and 4π² in units of 2^-64. -/
def twoPiFx : Int := 2 * piFx
def fourPi2Fx : Int := 4 * piFx * piFx / fxOne

/-- What an OBS job reads when it starts. -/
def State.obsInputs (s : State) (n : Mcn) : List Int :=
  let m := s.mc[n]
  let b (f : Fld) : Int := s.bankF n 1 f
  [(m.pwm.sampleAt : Int), qdiv (m.iA * s.iBase n) q1, qdiv (m.iB * s.iBase n) q1, qdiv (m.iD * s.iBase n) q1, m.uA, m.uB,
    s.vsMv n, b R.MC_OBS_RS.value, b R.MC_OBS_LD.value, b R.MC_OBS_LQ.value, b R.MC_OBS_PSI.value,
    b R.MC_OBS_PLL.pll_bw, b R.MC_OBS_PLL.pll_zeta, b R.MC_OBS_PLL.flux_k]

/-- One run of the observer (R145): voltages in mV, currents in mA, fluxes in nWb; and whether it saturated (R174).
(DEDUCED, log 36) -/
def State.observe (s : State) (n : Mcn) (inp : List Int) : State × Bool :=
  let g (k : Nat) : Int := nth inp k 0
  let e := (s.mc[n]).est
  let ts := g 0
  let dt := if e.obsAt = 0 then 0 else ts - e.obsAt         -- ticks of 2 ns
  let flux (p u i : Int) : Fx := Fx.of (p + rdiv ((rdiv (u * g 6) q1 * 1000000 - g 7 * i) * dt) 500000000)
  let fa := flux e.psiS.1 (g 4) (g 1)
  let fb := flux e.psiS.2 (g 5) (g 2)
  let sa := fa.v
  let sb := fb.v
  let la := Fx.of (sa - rdiv (g 9 * g 1) 1000) fa.sat
  let lb := Fx.of (sb - rdiv (g 9 * g 2) 1000) fb.sat
  let fx := Fx.of (g 10 + rdiv ((g 8 - g 9) * g 3) 1000)
  let px := fx.v
  let mag := magQ la.v lb.v
  let fix (x : Fx) : Fx := if mag = 0 then x else Fx.of (x.v + rdiv (g 13 * dt * (rdiv (px * x.v) mag - x.v)) hz) x.sat
  let la := fix la
  let lb := fix lb
  let aa := la.v
  let ab := lb.v
  let mag := magQ aa ab
  let th := s.estF n R.MC_EST_OBS_ANGLE.angle
  let w := s.fi (mcB n) R.MC_EST_OBS_SPEED.speed
  let er := wrapDiff (atanQ ab aa).toNat th
  let fw := Fx.of (w + rdiv (fourPi2Fx * g 11 * g 11 * er * dt) (fxOne * 65536 * hz))
  let w' := fw.v
  let th' := uns 32 ((th : Int) + rdiv (w' * 65536 * dt) hz
    + rdiv (2 * g 12 * twoPiFx * g 11 * er * dt) (100 * fxOne * hz))
  let s := (s.estSet n R.MC_EST_OBS_ANGLE.angle th').estSet n R.MC_EST_OBS_SPEED.speed (uns 32 w')
  let s := s.modEst n fun e => { e with psiS := (sa, sb), psiA := (aa, ab), obsAt := ts }
  -- residuals
  let dev : Int := (mag - px).natAbs
  let pct := if px ≤ 0 then 255 else clampI 0 255 (rdiv (dev * 100) px)
  let beyond := decide ((s.setFld n R.MC_LOL_CFG.lol_angle : Int) * turn < er.natAbs * 360)
    || decide ((s.setFld n R.MC_LOL_CFG.lol_flux : Int) * px < dev * 100)
  let run := s.estF n R.MC_EST_RESID.over_run
  let s := (s.estSet n R.MC_EST_RESID.resid_angle (er.natAbs / 65536 % 65536)).estSet n R.MC_EST_RESID.resid_flux
    pct.toNat
  let s := s.estSet n R.MC_EST_RESID.over_run (if beyond then Nat.min 255 (run + 1) else 0)
  let s := if beyond ∧ run = 0 then s.modEst n fun e => { e with omega0 := e.prevSpeed } else s
  -- lock
  let min : Int := (s.setFld n R.MC_EST_REST.obs_min_speed : Int) * 4096
  let good := !beyond && decide (min ≤ (w'.natAbs : Int))
  let k := if good then (s.mc[n]).est.obsRun + 1 else 0
  let s := s.modEst n fun e => { e with obsRun := k }
  let s := if 64 ≤ k then
      (s.estSet n R.MC_EST_STAT.obs_lock 1).modEst n fun e => { e with everLock := true }
    else s
  let s := if (w'.natAbs : Int) * 16 < min * 15 then s.estSet n R.MC_EST_STAT.obs_lock 0 else s
  let st := (s.cl[mcCl n]).st
  let watched := s.source n == 5 && s.foc n && st.moving && (s.mc[n]).est.everLock
  let s := if watched ∧ beyond ∧ run = s.setFld n R.MC_LOL_CFG.lol_n then s.lossOfLock n else s
  (s, la.sat || lb.sat || fx.sat || fw.sat)

/-- The completion of an OBS job: the observer, the handover, the datum by the blend. (DEDUCED, log 36) -/
def State.obsDone (s : State) (n : Mcn) (inp : List Int) : State × Bool :=
  let (s, sat) := s.observe n inp
  let s := s.handover n
  let ph := s.estF n R.MC_EST_STAT.phase
  let drives := ph = 0 && s.source n == 5 && s.foc n && (s.mc[n]).est.recPath.isNone && !(s.mc[n]).est.failed
  let s := if drives then (s.injBand n).blendDatum n (nth inp 0 0 * 16) else s
  (s.modEst n fun e => { e with prevSpeed := (s.mc[n]).dat.speedAt s.now16 }, sat)

/-! ## Injection (R148, R149) -/

/-- The magnitude of a pulse's response: of the second difference of three successive current samples (R149). -/
def injResponse (x : Int × Int) (prev : List (Int × Int)) : Int :=
  match prev with
  | y :: z :: _ =>
    let a := x.1 - 2 * y.1 + z.1
    let b := x.2 - 2 * y.2 + z.2
    qsqrt (a * a + b * b)
  | _ => 0

/-- The end of a cycle of four periods (R149): the signal is the responses along +45 and -45 degrees less those along +225 and
+135 degrees. The tracking loop's angle and speed are free values: the spec gives it no equations.
(DESIGN CHOICE, log 35) -/
def State.injCycleEnd (s : State) (n : Mcn) (rs : List Int) : State :=
  let sig := nth rs 0 0 + nth rs 2 0 - nth rs 1 0 - nth rs 3 0
  let norm := Config.injNorm sig (rs.foldl (· + ·) 0)
  let a := s.freeNat
  let s := s.drawn
  let v := sgn 32 s.freeNat
  let s := s.drawn
  let run := if 20 * (norm.natAbs : Int) < q1 then (s.mc[n]).est.injRun + 1 else 0
  let s := (s.modEst n fun e => { e with injRun := run, injSpeed := v }).estSet n R.MC_EST_INJ_ANGLE.angle a
  if 32 ≤ run then
    let s := s.estSet n R.MC_EST_STAT.inj_lock 1
    if s.estF n R.MC_EST_STAT.phase = 2 ∧ (s.cl[mcCl n]).st = .starting then
      (s.modEst n fun e => { e with polStep := 0 }).estSet n R.MC_EST_STAT.phase 3
    else s
  else s

/-- One current sample of the injection tracker (R148, R149). -/
def State.injSample (s : State) (n : Mcn) : State :=
  let m := s.mc[n]
  let e := m.est
  if e.injOn ∧ s.setFld n R.MC_INJ_CFG.inj_en = 1 ∧ (s.cl[mcCl n]).st.moving then
    let rs := e.injResp ++ [injResponse (m.iA, m.iB) e.injPrev]
    let s := s.modEst n fun e => { e with
      injPrev := ((m.iA, m.iB) :: e.injPrev).take 2, injCycle := (e.injCycle + 1) % 4
      injResp := if e.injCycle = 3 then [] else rs }
    if e.injCycle = 3 then s.injCycleEnd n rs else s
  else s

/-! ## Zero crossings (R151) -/

/-- The floating phase of a sector (R94). -/
def floating (k : Nat) : Nat := match k with | 0 => 2 | 1 => 1 | 2 => 0 | 3 => 2 | 4 => 1 | _ => 0

/-- The chopped switch of a block sector (R96). -/
def State.chopped (s : State) (n : Mcn) : Fin 6 :=
  let (h, l) := sectorPhases (s.f (mcB n) R.MC_PWM_STAT.sector)
  if s.st n R.MC_PWM_CTRL.chop = 2 then loSw l else hiSw h

/-- A crossing is accepted (R151): the reference of R59, the datum, the handover of the block families. -/
def State.zcAccept (s : State) (n : Mcn) (k angle : Nat) (t : Int) : State :=
  let s := s.estSet n R.MC_EST_ZC_ANGLE.angle angle
  let e := (s.mc[n]).est
  let times := (t :: e.zcTimes).take 7
  let s := s.modEst n fun e => { e with zcDone := true, zcNone := 0, zcSeq := e.zcSeq + 1, zcTimes := times }
  let s := (s.modMc n fun m => { m with ref1 := some angle }).refMoved n 1 none
  if s.source n = 5 then
    let mag := match times with
      | a :: b :: _ => if times.length = 7 then sixths 6 (a - nth times 6 a) else sixths 1 (a - b)
      | _ => 0
    -- the sectors, and so the angle, are the datum's own
    let rev := (s.mc[n]).dat.rev
    let ang := uns 32 ((s.setFld n R.MC_BLK_OFFSET.comm_offset : Int) + deg60 k + deg30)
    let v := if rev then -mag else mag
    let ph := s.estF n R.MC_EST_STAT.phase
    let upd (s : State) : State := (s.datumUpdate n ang v t).estSet n R.MC_EST_STAT.src_now 7
    if ph = 4 then
      if 6 ≤ (s.mc[n]).est.zcSeq then
        let s := (s.estSet n R.MC_EST_STAT.phase 0)
        (upd s).startReady n
      else s
    else if 2 ≤ (s.mc[n]).est.zcSeq then upd s
    else s
  else s

/-- Had a gate output been on for some time at a tick no more than one command back? -/
def GateOut.onFor (g : GateOut) (t d : Nat) : Bool :=
  decide (g.onAt + d ≤ t) && (if g.phase.isOn then true else decide (t < g.cmdAt))

/-- A back-EMF conversion of a phase with its hold tick (R151). -/
def State.bemf (s : State) (n : Mcn) (p : Nat) (code : Nat) (hold : Nat) : State :=
  let k := s.f (mcB n) R.MC_PWM_STAT.sector
  let kept := (s.gate (swOut n (s.chopped n))).onFor hold (s.setFld n R.MC_PWM_WIN.t_sw * 5)
  if !s.foc n ∧ p = floating k ∧ kept then
    let t : Int := (hold : Int) * 16
    let a := (s.mc[n]).dat.at t
    let v := 2 * codeMv code - s.vsMv n
    let e := (s.mc[n]).est
    let s := s.modEst n fun e => { e with zcKept := some (k, a, t, v) }
    match e.zcKept with
    | some (k0, a0, t0, v0) =>
      let rises := (k % 2 = 1) != (s.mc[n]).dat.rev
      let crossed := if rises then decide (v0 < 0) && decide (0 ≤ v) else decide (0 < v0) && decide (v ≤ 0)
      if k0 = k ∧ crossed then
        let d := v - v0
        let ang := uns 32 ((a0 : Int) + qdiv (wrapDiff a a0 * (-v0)) d)
        let tc := t0 + qdiv ((t - t0) * (-v0)) d
        let from_ : Int := ahead (s.mc[n]).dat.rev e.zcStart ang
        if rdiv ((s.setFld n R.MC_ZC_WIN.zc_lo : Int) * turn) 360 ≤ from_
            ∧ from_ ≤ rdiv ((s.setFld n R.MC_ZC_WIN.zc_hi : Int) * turn) 360 then s.zcAccept n k ang tc
        else s.inc (mcB n) R.MC_EST_CNT.zc_miss
      else s
    | none => s
  else s

/-- The window of a sector closes without an accepted crossing (R151, R160). -/
def State.zcExpire (s : State) (n : Mcn) : State :=
  if s.foc n ∨ s.conv n ∨ (s.mc[n]).est.zcDone ∨ (s.mc[n]).est.zcOver ∨ !(s.cl[mcCl n]).st.moving then s
  else
    let s := s.inc (mcB n) R.MC_EST_CNT.zc_miss
    let k := (s.mc[n]).est.zcNone + 1
    let s := s.modEst n fun e => { e with zcNone := k, zcSeq := 0, zcOver := true, zcTimes := [] }
    if k = Nat.max 1 (s.setFld n R.MC_STALL_CFG.stall_zc_n) then
      let s := s.raise (evMc n 10)
      if s.source n = 5 ∧ s.estF n R.MC_EST_STAT.phase = 0 then
        (s.datumInvalid n).estSet n R.MC_EST_STAT.src_now 0
      else s
    else s

/-! ## The terminal-voltage tracker (R152 to R154, R164) -/

/-- Does the terminal-voltage tracker convert? A start's probe and a coast path run it (R154, R164); so does the wait for the
rest condition with every switch off and the datum invalid, which R169 judges by its magnitude. (DESIGN CHOICE, log 35) -/
def State.fsRuns (s : State) (n : Mcn) : Bool :=
  let m := s.mc[n]
  let st := (s.cl[mcCl n]).st
  m.est.fsOn || (!s.conv n && m.est.recPath.isNone && !m.dat.valid && (st == .stopping || st == .safe)
    && (match m.short with | .held _ => false | _ => true))

/-- TRACKER_CONVERSION: the three phase voltages are requested, ahead of the injected sequence (R152). -/
def State.trackerConv (s : State) (n : Mcn) : State :=
  if s.fsRuns n then
    let s := s.modEst n fun e => { e with fsLast := e.fsRaw, fsRaw := #v[none, none, none] }
    s.modGrp (mcG n) fun g => { g with urgent := g.urgent ++ allP.map fun p => (s.now, Conv.track p) }
  else s

/-- A phase voltage in mV corrected to an instant by linear interpolation between the two latest conversions of the phase; a
phase with one conversion stands as it is (R152). (DESIGN CHOICE, log 35) -/
def Est.fsAt (e : Est) (p : Fin 3) (t : Int) : Int :=
  match e.fsRaw[p], e.fsLast[p] with
  | some (c, t1), some (c0, t0) =>
    if t0 < t1 then codeMv c + qdiv ((codeMv c - codeMv c0) * (t - t1)) (t1 - t0) else codeMv c
  | some (c, _), none => codeMv c
  | none, _ => 0

/-- The three phase voltages of a conversion are complete (R152): the vector at the instant of the first of them. The tracking
loop's angle and speed are free values: the spec gives it no equations. (DESIGN CHOICE, log 35) -/
def State.trackerStep (s : State) (n : Mcn) (t : Int) : State :=
  let e := (s.mc[n]).est
  let u := e.fsAt 0 t
  let v := e.fsAt 1 t
  let w := e.fsAt 2 t
  let a := qdiv (2 * u - v - w) 3
  let b := qdiv ((v - w) * invSqrt3) q1
  let mag := qdiv (qsqrt (a * a + b * b) * sqrt3) q1
  let ang := (atanQ b a).toNat
  let th := s.freeNat
  let s := s.drawn
  let sp := sgn 32 s.freeNat
  let s := s.drawn
  let min : Int := (s.setFld n R.MC_FS_CFG.fs_vmin : Int) * 20
  let big := decide (min ≤ mag)
  -- the vector leads the d axis by a quarter turn along the rotation
  let lead := uns 32 ((ang : Int) - (if sp < 0 then -1073741824 else 1073741824))
  let small := decide ((wrapDiff lead th).natAbs * 360 < 5 * 4294967296)
  let turned := if e.fsMag = 0 ∨ !big then 0 else e.fsTurned + wrapDiff ang e.fsTheta
  let run := if big ∧ small then e.fsRun + 1 else 0
  let s := s.modEst n fun e => { e with
    fsMag := mag.toNat, fsGot := true, fsTurned := turned, fsRun := run, fsSeen := e.fsSeen || big, fsTheta := ang
    fsRotor := th, fsSpeed := sp, fsBelow := if big then none else some (e.fsBelow.getD s.now) }
  -- below fs_vmin for 10 ms the lock is lost
  let gone : Bool := (s.mc[n]).est.fsBelow.any fun t => decide (t + 5000000 ≤ s.now)
  let s := if gone then s.estSet n R.MC_EST_STAT.fs_lock 0 else s
  let lock := decide (2147483648 ≤ turned.natAbs) && big && decide (Nat.max 1 (s.setFld n R.MC_FS_CFG.fs_confirm) ≤ run)
  let short := decide (9 * s.vsMv n ≤ 10 * mag)
  let st := (s.cl[mcCl n]).st
  -- in STOPPING every switch stays off until the rest condition (R168)
  if short ∧ st ≠ .stopping ∧ (s.estF n R.MC_EST_STAT.phase = 1 ∨ e.recPath = some .coast) then s.takePath n .short
  else if lock then
    let s := s.estSet n R.MC_EST_STAT.fs_lock 1
    if st = .starting then
      let against := decide (sp < 0) != e.startRev
      if against ∧ s.setFld n R.MC_INJ_CFG.inj_en = 0 then
        -- the low-side short brakes the rotor before the find stage
        let s := s.modEst n fun e => { e with fsOn := false, brake := some s.now }
        s.gateApply n
      else s.modEst n fun e => { e with resume := some .coast }
    else if st = .running then s.modEst n fun e => { e with resume := some .coast }
    else s
  else s

/-- The result of one of the tracker's conversions, with its hold tick; the third completes the vector (R152). -/
def State.trackerResult (s : State) (n : Mcn) (p : Fin 3) (code hold : Nat) : State :=
  if s.fsRuns n then
    let s := s.modEst n fun e => { e with fsRaw := upd e.fsRaw p (some (code, (hold : Int) * 16)) }
    match (s.mc[n]).est.fsRaw[(0 : Fin 3)] with
    | some (_, t) => if p = 2 then s.trackerStep n t else s
    | none => s
  else s

/-- Seed of v_q that holds the current at zero: ω · ψ in per unit of V_base (R153). -/
def State.backEmf (s : State) (n : Mcn) (w : Int) : Int :=
  sat32 (qdiv (6283185307 * w * s.obsF n R.MC_OBS_PSI.value * q1) (65536000000000000000 * s.vBase n))

/-- The rotor's d axis behind the short-circuit phasor along the rotation (R165): θ_d = θ_i - 180° - atan (rs / (2π|ω| lq)). -/
def State.scAxis (s : State) (n : Mcn) : Nat :=
  let e := (s.mc[n]).est
  let w := e.scSpeed
  let at_ := (atanQ (s.obsF n R.MC_OBS_RS.value * 65536000000000)
    (6283185307 * (w.natAbs : Int) * s.obsF n R.MC_OBS_LQ.value)).toNat
  let back : Int := 2147483648 + at_
  uns 32 ((e.scTheta : Int) - (if w < 0 then -back else back))

/-- Control resumes at a current sample after a lock (R153, R166). The tracker's angle is the datum's own, and the estimators
take it in the sense of the source (R51). (DEDUCED, log 29) (DESIGN CHOICE, log 35) -/
def State.resumeControl (s : State) (n : Mcn) : State :=
  let e := (s.mc[n]).est
  let st := (s.cl[mcCl n]).st
  match e.resume with
  | none => s
  | some p =>
    if (st = .starting ∨ st = .running) ∧ !e.recOver then
      let w : Int := match p with | .coast => e.fsSpeed | .short => e.scSpeed
      let th : Nat := match p with | .coast => e.fsRotor | .short => s.scAxis n
      let thS := s.srcAngle n th
      let wS := s.srcSpeed n w
      let psi := s.obsF n R.MC_OBS_PSI.value
      let a := BitVec.ofNat 32 thS
      let flux := (rdiv (psi * cosQ a) q1, rdiv (psi * sinQ a) q1)
      let s := if st = .starting then s else s.reacqRecord n true
      let s := s.modEst n fun e => { e with
        recPath := none, resume := none, fsOn := false, psiA := flux, psiS := flux, obsAt := 0, obsRun := 0
        everLock := true, prevSpeed := w, injSpeed := wS }
      let s := ((s.estSet n R.MC_EST_OBS_ANGLE.angle thS).estSet n R.MC_EST_OBS_SPEED.speed (uns 32 wS)).estSet n
        R.MC_EST_STAT.obs_lock 1
      let s := s.estSet n R.MC_EST_RESID.over_run 0
      let s := if s.setFld n R.MC_INJ_CFG.inj_en = 1 then s.estSet n R.MC_EST_INJ_ANGLE.angle thS else s
      let s := (s.datumUpdate n th w s.now16).estSet n R.MC_EST_STAT.src_now 6
      let s := s.estSet n R.MC_EST_STAT.phase 0
      let s := match p with
        | .coast =>
          (s.modLoop n 0 fun l => { l with started := false, seed := some 0, seedRef := none }).modLoop n 1 fun l =>
            { l with started := false, seed := some (s.backEmf n w), seedRef := none }
        | .short =>
          -- the d and q components of the estimator's phasor
          let d := BitVec.ofInt 32 ((e.scTheta : Int) - th)
          let rd := qdiv (e.scMag * cosQ d) q1
          let rq := qdiv (e.scMag * sinQ d) q1
          (s.modLoop n 0 fun l => { l with started := false, seed := some 0, seedRef := some rd }).modLoop n 1 fun l =>
            { l with started := false, seed := some 0, seedRef := some rq }
      let s := (s.modLoop n 2 fun l => { l with started := false }).modLoop n 3 fun l => { l with started := false }
      let s := if st = .starting then s.startReady n else s
      (s.sectorSync n).gateBack n
    else s

/-! ## The current sample -/

/-- Are all phase currents below 2 % of I_base? -/
def State.lowAmps (s : State) (n : Mcn) : Bool :=
  allP.all fun p => decide (50 * (((s.grp[mcG n]).amps[p]).natAbs : Int) < q1)

/-- Number of phases at code 0 or 16,383. -/
def State.clipped (s : State) (n : Mcn) : Nat :=
  allP.foldl (fun c p => let x := (s.grp[mcG n]).codes[p]; c + b2n (x == 0 || x == 16383)) 0

/-- Since when has the short of the low sides been applied: the latest turn-on among them (R165). -/
def State.shortSince (s : State) (n : Mcn) : Nat := (sideSw false).foldl (fun t sw => Nat.max t (s.gate (swOut n sw)).onAt) 0

/-- The three currents with one clipped phase taken as minus the sum of the other two (R165), in the stationary frame. -/
def State.scCurrents (s : State) (n : Mcn) : Int × Int :=
  let g := s.grp[mcG n]
  let cl (p : Fin 3) : Bool := g.codes[p] == 0 || g.codes[p] == 16383
  let i (p : Fin 3) : Int := g.amps[p]
  let u := if cl 0 then -(i 1 + i 2) else i 0
  let v := if cl 1 then -(i 0 + i 2) else i 1
  let w := if cl 2 then -(i 0 + i 1) else i 2
  (qdiv (2 * u - v - w) 3, qdiv ((v - w) * invSqrt3) q1)

/-- The phasor has turned to a new angle; at each full turn the mean current over it becomes the offset that is subtracted
(R165). -/
def Est.scFollow (e : Est) (th : Nat) : Est :=
  let turned := e.scTurned + wrapDiff th e.scTheta
  let whole := decide (e.scTurned.natAbs / 4294967296 < turned.natAbs / 4294967296) && e.scCnt != 0
  let e := { e with scTheta := th, scTurned := turned }
  if whole then
    { e with scMean := (qdiv e.scSum.1 e.scCnt, qdiv e.scSum.2 e.scCnt), scSum := (0, 0), scCnt := 0 }
  else e

/-- A kept sample: the stationary currents, and the phasor's angle, magnitude and rate at an instant (R165). -/
def Est.scKeep (e : Est) (a b : Int) (th : Nat) (mag w ts : Int) : Est :=
  let x : Est := { e with scSum := (e.scSum.1 + a, e.scSum.2 + b), scCnt := e.scCnt + 1 }
  let y : Est := if x.scMag = (0 : Int) then { x with scTheta := th, scTurned := 0 } else x.scFollow th
  { y with scMag := mag, scSpeed := w, scAt := ts }

/-- A discarded sample: the phasor is carried forward at its rate (R165). -/
def Est.scCarry (e : Est) (ts : Int) : Est :=
  if e.scMag = (0 : Int) then e
  else
    let y : Est := e.scFollow (uns 32 ((e.scTheta : Int) + qdiv (e.scSpeed * (ts - e.scAt) * 65536) hz16))
    { y with scAt := ts }

/-- One sample of the short-circuit estimator (R165): a kept sample gives the phasor, less the offset; across a discarded one it
is carried forward. Its rotation rate is a free value: the spec does not say how it is found. (DESIGN CHOICE, log 35) -/
def State.scStep (s : State) (n : Mcn) : State :=
  let e := (s.mc[n]).est
  let ts := s.now16
  if s.clipped n < 2 then
    let (a, b) := s.scCurrents n
    let x := a - e.scMean.1
    let y := b - e.scMean.2
    let w := sgn 32 s.freeNat
    s.drawn.modEst n fun e => e.scKeep a b (atanQ y x).toNat (qsqrt (x * x + y * y)) w ts
  else s.modEst n fun e => e.scCarry ts

/-- The short-circuit estimator at a sample after sc_settle (R165, R166, R168). (DESIGN CHOICE, log 35) -/
def State.scSample (s : State) (n : Mcn) : State :=
  let e := (s.mc[n]).est
  if e.recPath = some .short ∧ !e.recOver ∧ (s.mc[n]).short = .held false
      ∧ s.shortSince n + s.setFld n R.MC_SC_CFG.sc_settle * 50000 ≤ s.now then
    let s := s.scStep n
    let s := if Nat.max 2 (s.setFld n R.MC_SC_CFG.sc_turns) * 4294967296 ≤ (s.mc[n]).est.scTurned.natAbs then
        let s := s.estSet n R.MC_EST_STAT.sc_lock 1
        if (s.cl[mcCl n]).st = .stopping then s else s.modEst n fun e => { e with resume := some .short }
      else s
    -- a recovery in STOPPING holds the short until E is below 0.9 of the bus (R168)
    if (s.cl[mcCl n]).st = .stopping ∧ s.fb (mcB n) R.MC_EST_STAT.sc_lock ∧ s.eLow n (s.mc[n]).est.scSpeed then
      s.takePath n .coast
    else s
  else s

/-- What the estimation block does at a current sample (R140, R142, R154, R157, R164, R165). -/
def State.estSample (s : State) (n : Mcn) : State :=
  if s.conv n then s
  else
    let s := s.modEst n fun e => { e with
      encEdges := (e.encEdges.map fun (k, t, c) => (k + 1, t, c)).filter fun x => x.1 ≤ 8 }
    let s := if s.source n = 1 then s.hallSample n else s
    let s := if s.source n = 2 then s.encUpdate n else s
    let s := s.rampSample n
    let s := s.injSample n
    let s := s.modEst n fun e => { e with lowSince := if s.lowAmps n then some (e.lowSince.getD s.now) else none }
    -- coast path: three samples of low currents start the tracker
    let e := (s.mc[n]).est
    let low := s.lowAmps n
    let s := if e.recPath = some .coast ∧ !e.fsOn then
        let k := if low then e.lowRun + 1 else 0
        s.modEst n fun e => { e with
          lowRun := k, fsOn := 3 ≤ k, fsMag := 0, fsTurned := 0, fsRun := 0, fsBelow := none
          fsRaw := #v[none, none, none], fsLast := #v[none, none, none] }
      else s
    let s := s.scSample n
    -- the braking short of a flying start: low currents for 10 ms
    match (s.mc[n]).est.brake with
    | some t =>
      if low then
        if 5000000 ≤ s.now - t then (s.startFind n).gateApply n else s
      else s.modEst n fun e => { e with brake := some s.now }
    | none => s

/-- A start whose datum has become valid enters RUNNING (R159). -/
def State.startCheck (s : State) (n : Mcn) : State :=
  if (s.cl[mcCl n]).st = .starting ∧ !s.conv n ∧ s.estF n R.MC_EST_STAT.phase = 0 ∧ !(s.mc[n]).est.failed
      ∧ (s.mc[n]).est.brake.isNone ∧ !(s.cl[mcCl n]).startDone ∧ s.datumReady n then
    s.startSpeed n
  else s

/-- The short-circuit and coast conditions of a start timeout (R159). -/
def State.startTimeout (s : State) (n : Mcn) : State :=
  if (s.cl[mcCl n]).st = .starting ∧ !s.conv n ∧ !(s.mc[n]).est.failed then s.startFail n else s

/-- A cluster still in STARTING 100 ms after a failure begins its start again (R159). -/
def State.startAgain (s : State) (n : Mcn) : State :=
  if (s.cl[mcCl n]).st = .starting ∧ !s.conv n ∧ (s.mc[n]).est.failed then s.startBegin n else s

/-- The conditions of a stall at a run of the speed loop (R160): the set-point and the datum speed, per unit of f_base, more
than stall_dspeed apart, and the loop's output at its limit. -/
def State.stallWatch (s : State) (n : Mcn) (ref meas : Int) (limited : Bool) : State :=
  let far := decide ((s.setFld n R.MC_STALL_CFG.stall_dspeed : Int) * q1 < (ref - meas).natAbs * s.fBase n * 16)
  s.modEst n fun e => { e with stallSince := if far && limited then some (e.stallSince.getD s.now) else none }

/-- A stall is declared in a FOC family once both conditions have held for stall_t (R160); the next one begins afresh. In the
block families the windows of the zero crossings declare it. (DEDUCED, log 36) -/
def State.stallDeclared (s : State) (n : Mcn) : State :=
  match (s.mc[n]).est.stallSince with
  | some t =>
    if s.foc n ∧ !s.conv n ∧ (s.cl[mcCl n]).st.moving
        ∧ t + Nat.max 1 (s.setFld n R.MC_STALL_CFG.stall_t) * 500000 ≤ s.now then
      (s.modEst n fun e => { e with stallSince := none }).raise (evMc n 10)
    else s
  | none => s

end Sys2Proof.Machine
end

