-- ==== Sys2Proof/Machine/Conv.lean ====
section
/-! DEFINITION. The converter personality (10_converter_personality R279 to R294). -/

namespace Sys2Proof.Machine

/-- The leader of the converter that a cluster belongs to. -/
def State.leader (s : State) (n : Mcn) : Mcn :=
  match s.partner n with
  | some q => if q.val < n.val then q else n
  | none => n

/-- Is a cluster the follower of a pair? -/
def State.follower (s : State) (n : Mcn) : Bool := s.leader n != n

/-- The clusters of the converter led by a cluster. -/
def State.convCls (s : State) (l : Mcn) : List Mcn :=
  match s.partner l with
  | some q => [l, q]
  | none => [l]

/-- The interleave order (R291). -/
def State.interleave (s : State) (l : Mcn) : List (Mcn × Fin 3) :=
  allP.flatMap fun p => (s.convCls l).map fun n => (n, p)

/-- Is a phase active: its switches run? -/
def State.phActive (s : State) (n : Mcn) (p : Fin 3) : Bool := bitAt (s.f (mcB n) R.MC_CONV_STAT.active) p.val
def State.phShed (s : State) (n : Mcn) (p : Fin 3) : Bool := ((s.mc[n]).conv.shedding)[p]

def State.modConv (s : State) (n : Mcn) (g : ConvSt → ConvSt) : State := s.modMc n fun m => { m with conv := g m.conv }

/-- The phases that carry the load, in interleave order: active and not being shed. -/
def State.loaded (s : State) (l : Mcn) : List (Mcn × Fin 3) :=
  (s.interleave l).filter fun (n, p) => s.phActive n p && !s.phShed n p

/-- The active bits of a phase, and the count of active phases in both clusters of a pair. (DEDUCED, log 46) -/
def State.setActive (s : State) (n : Mcn) (p : Fin 3) (on : Bool) : State :=
  let v := s.f (mcB n) R.MC_CONV_STAT.active
  let s := s.setF (mcB n) R.MC_CONV_STAT.active (v - b2n (bitAt v p.val) * 2 ^ p.val + b2n on * 2 ^ p.val)
  let l := s.leader n
  let k := ((s.interleave l).filter fun (m, q) => s.phActive m q).length
  s.each (s.convCls l) fun m s => s.setF (mcB m) R.MC_CONV_STAT.n_active k

/-- VLO in mV from a code of channel 0x13 (R280). (DEDUCED, log 46) -/
def State.vloOf (s : State) (n : Mcn) (code : Nat) : Int :=
  qdiv (code * 3000 * s.st n R.MC_CONV_CFG.vlo_gain) (16384 * 256)
/-- Latest VLO, mV. -/
def State.vlo (s : State) (n : Mcn) : Int := s.f (mcB n) R.MC_CONV_VLO.vlo

/-- Lowest and highest duty (R282). -/
def State.dutyRange (s : State) (n : Mcn) : Int × Int :=
  let t := s.t16 n
  let a := s.loMin16 n + s.dead16 n
  let b := 2 * (s.tsw16 n + s.dead16 n)
  (qdiv (a * q1) t, q1 - qdiv ((if a < b then b else a) * q1) t)

/-- Limits of the mean phase-current reference (R285). -/
def State.irefRange (s : State) (n : Mcn) (lim : Int) : Int × Int :=
  let hi := rdiv (lim * s.f (mcB n) R.MC_TH_STAT.k_i) 4096
  (if s.setFld n R.MC_CV_MODE.rev_en = 0 then 0 else -hi, hi)

/-- Measured mean phase current of the loaded phases of a converter. -/
def State.meanAmps (s : State) (l : Mcn) : Int :=
  let ps := s.loaded l
  if ps = [] then 0
  else qdiv (ps.foldl (fun x (n, p) => x + (s.grp[mcG n]).amps[p]) 0) ps.length

/-- The seeds of R287, as also R289 applies them: every loop starts afresh, the current integrators at 0. -/
def State.convSeed (s : State) (n : Mcn) : State :=
  let s := s.modConv n fun c => { c with
    ph := c.ph.map fun l => { l with started := false, seed := some 0, seedRef := none }, lowSince := none, cycles := 0 }
  s.modLoop n 2 fun l => { l with started := false, seed := none, seedRef := none }

/-- The ramped references of a cluster's phases move to their new targets at ss_rate (R288, R290). -/
def State.convRamps (s : State) (n : Mcn) : State :=
  s.modConv n fun c => { c with ph := c.ph.map fun l => { l with arrived := false } }

/-- The converter's phases at an entry to ARMED: all three active. (DEDUCED, log 46) -/
def State.convArm (s : State) (n : Mcn) : State :=
  let s := s.modConv n fun c => { c with
    shedding := #v[false, false, false], iref := 0, target := 0, lowSince := none, ocRun := #v[0, 0, 0]
    ocNext := #v[none, none, none], uvBelow := false, offs := #v[(0, 0), (0, 0), (0, 0)]
    own := #v[(0, 0), (0, 0), (0, 0)], rise := #v[false, false, false], cycles := 0 }
  let s := s.each allP fun p s => s.setActive n p true
  let s := s.setF (mcB n) R.MC_CONV_STAT.leader (b2n ((s.partner n).isSome && !s.follower n))
  (s.setF (mcB n) R.MC_CONV_STAT.clamped 0).convSeed n

/-! ## Carrier of each phase (R281, R283) -/

/-- Is a phase the first active one in interleave order: its counter zero is the zero crossing of the switching phase? -/
def State.firstPhase (s : State) (n : Mcn) (p : Fin 3) : Bool :=
  (s.interleave (s.leader n)).find? (fun (m, q) => s.phActive m q) == some (n, p)

/-- A phase takes values that have waited at least 8 ns (R283). -/
def State.phaseTake (s : State) (n : Mcn) (p : Fin 3) : State :=
  let w := (s.mc[n]).pwm
  match w.wait with
  | some c =>
    if w.applyAt + 4 ≤ s.now then
      s.modPwm n fun w => { w with inForce := { w.inForce with
        duty := upd w.inForce.duty p c.duty[p], cUp := upd w.inForce.cUp p c.cUp[p], cDn := upd w.inForce.cDn p c.cDn[p]
        lo := upd w.inForce.lo p true, hi := upd w.inForce.hi p true } }
    else s
  | none => s

/-- Compare values of a phase at a duty. -/
def State.phaseDuty (s : State) (n : Mcn) (p : Fin 3) (d : Int) : State :=
  let c := Compare.block (s.t16 n) d
  s.modPwm n fun w => { w with inForce := { w.inForce with
    duty := upd w.inForce.duty p d, cUp := upd w.inForce.cUp p c.cUp[p], cDn := upd w.inForce.cDn p c.cDn[p] } }

/-- Offset of a phase as the active phases give it, k of n (R281). -/
def State.offsetOf (s : State) (n : Mcn) (p : Fin 3) : Nat × Nat :=
  let order := (s.interleave (s.leader n)).filter fun (m, q) => s.phActive m q
  (order.findIdx fun x => x == (n, p), Nat.max 1 order.length)

/-- The zero crossing of the switching phase (R53, R281): the cycle of every cluster of the pair begins, its datum passes 0,
its current samples take the next pass number, and its phases the offsets of their present number (R290). -/
def State.cycleBegin (s : State) (n : Mcn) : State :=
  let l := s.leader n
  let s := s.newPeriod l
  let t := (s.mc[l]).pwm.period
  s.each (s.convCls l) fun m s =>
    let s := (s.modPwm m fun w => { w with zeroAt := s.now, period := t }).sampleBoundary m
    let s := s.modGrp (mcG m) fun g => { g with curPass := (g.curPass + 1) % 128 }
    let s := s.modConv m fun c => { c with offs := #v[s.offsetOf m 0, s.offsetOf m 1, s.offsetOf m 2] }
    s.datumUpdate m 0 (qdiv (32768000000000 : Int) (Nat.max 1 t)) s.now16

/-- A period of a phase begins: one in which its offset moves is a bridging period that ends at the new offset (R290).
(DEDUCED, log 46) -/
def State.phasePeriod (s : State) (n : Mcn) (p : Fin 3) : State :=
  let t := s.t16 n
  s.modConv n fun c =>
    let (k, m) := c.offs[p]
    let (k0, m0) := c.own[p]
    { c with own := upd c.own p c.offs[p], zAt := upd c.zAt p s.now, rise := upd c.rise p true
             len := upd c.len p (if m = 0 ∨ m0 = 0 then t else t + qdiv (((k * m0 : Nat) - (k0 * m : Nat) : Int) * t) (m * m0)) }

/-- Levels of a phase in the half-period that its own counter zero or period event begins (R84, R281), and the low-side pulse
of lo_on_min of its precharge (R287). The compares of a bridging period are scaled to its length (R290). -/
def State.phaseLevels (s : State) (n : Mcn) (p : Fin 3) (rising : Bool) : List (Int × Fin 3 × LegCmd) :=
  let w := (s.mc[n]).pwm
  let t := s.now16
  let len := (s.mc[n]).conv.len[p]
  let scaled (c : Int) : Int := if len = s.t16 n then c else qdiv (c * len) (s.t16 n)
  if s.modulates n then
    if !s.phActive n p then []
    else if rising then [(t, p, .level (some false)), (t + scaled w.inForce.cUp[p], p, .level (some true))]
    else [(t, p, .level (some true)), (t + len / 2 - scaled w.inForce.cDn[p], p, .level (some false))]
  else if rising then [(t, p, .level (some false)), (t + s.dead16 n + s.loMin16 n, p, .level none)]
  else []

/-- The leg of a phase follows its levels. -/
def State.phaseDrive (s : State) (n : Mcn) (p : Fin 3) (rising : Bool) : State :=
  if s.legsLive n then
    match s.phaseLevels n p rising with
    | [] => s
    | es => s.schedule n [p] es
  else s

/-- Has a phase come to its counter zero: its present period is over, or, before its first one, the switching phase has
reached its offset (R281)? (DEDUCED, log 46) -/
def State.zeroDue (s : State) (n : Mcn) (p : Fin 3) : Bool :=
  let c := (s.mc[n]).conv
  let w := (s.mc[n]).pwm
  if c.own[p].2 = 0 then
    s.firstPhase n p
      || (c.offs[p].2 != 0 && decide ((w.zeroAt : Int) * 16 + qdiv ((c.offs[p].1 : Int) * s.t16 n) c.offs[p].2 ≤ s.now16))
  else decide ((c.zAt[p] : Int) * 16 + c.len[p] ≤ s.now16)

/-- Counter zero of phase p (R281, R290, R293): its current role holds; the phase's next period follows an overcurrent. -/
def State.convZero (s : State) (n : Mcn) (p : Fin 3) : State :=
  if (s.mc[n]).pwm.running ∧ s.zeroDue n p then
    let first := s.firstPhase n p
    let s := s.phaseTake n p
    let s : State := match ((s.mc[n]).conv.ocNext)[p] with
      | some neg =>
        let (lo, hi) := s.dutyRange n
        (s.phaseDuty n p (if neg then hi else lo)).modConv n fun c => { c with ocNext := upd c.ocNext p none }
      | none => s
    let s := if first then s.cycleBegin n else s
    let s := (s.phasePeriod n p).holdRoles n [p]
    let s := s.modPwm n fun w => { w with sampleAt := s.now, rising := true }
    let s := s.phaseDrive n p true
    if first then s.each (s.convCls (s.leader n)) fun m s => s.pwmTrigger m 1 else s
  else s

/-- Period event of phase p. -/
def State.convPeriod (s : State) (n : Mcn) (p : Fin 3) : State :=
  let c := (s.mc[n]).conv
  if (s.mc[n]).pwm.running ∧ c.rise[p] ∧ (c.zAt[p] : Int) * 16 + c.len[p] / 2 ≤ s.now16 then
    let s := (s.phaseTake n p).modConv n fun c => { c with rise := upd c.rise p false }
    let s := s.modPwm n fun w => { w with peakAt := s.now, rising := false }
    let s := s.phaseDrive n p false
    if s.firstPhase n p then s.each (s.convCls (s.leader n)) fun m s => s.pwmTrigger m 2 else s
  else s

/-- Midpoint of the half-period in which values that arrive at an instant first act on a phase: the phase's first counter zero
or period event at least 8 ns later (R109, R281, R283). -/
def State.phaseActs (s : State) (n : Mcn) (p : Fin 3) (t : Int) : Int :=
  let order := (s.interleave (s.leader n)).filter fun (m, q) => s.phActive m q
  let k := order.findIdx fun x => x == (n, p)
  let w := (s.mc[n]).pwm
  let half : Int := (w.period : Int) * 8
  let z : Int := (w.zeroAt : Int) * 16 + qdiv ((k : Int) * w.period * 16) (Nat.max 1 order.length)
  z + (if half = 0 then 0 else cdiv (t + 64 - z) half * half) + (w.period : Int) * 4

/-- Values arrive at a converter's PWM unit (R283, with R109 and R110 per phase). -/
def State.convApply (s : State) (n : Mcn) : State :=
  match (s.mc[n]).pwm.pend with
  | none => s
  | some c =>
    let w := (s.mc[n]).pwm
    let s := s.each (allP.filter (s.phActive n)) fun p s =>
      let due := s.phaseActs n p w.outAt
      let s := s.latency n (s.now - w.tsAt) ((due / 16).toNat - w.tsAt)
      if due < s.phaseActs n p s.now16 then s.inc (mcB n) R.MC_PWM_APPLY_CNT.late_apply else s
    (s.showApplied n c).modPwm n fun w => { w with pend := none, wait := some c, applyAt := s.now }

/-! ## Samples and the VLO channel -/

/-- One phase current of a converter (R281, R290, R293). -/
def State.convSample (s : State) (n : Mcn) (p : Fin 3) : State :=
  let i := (s.grp[mcG n]).amps[p]
  let s := s.modGrp (mcG n) fun g => { g with held := if bitAt g.held p.val then g.held - 2 ^ p.val else g.held }
  -- a phase being shed stops at its first sample below 2 % of I_base
  let s := if s.phShed n p ∧ 50 * (i.natAbs : Int) < q1 then
      let s := s.modConv n fun c => { c with shedding := upd c.shedding p false }
      ((s.setActive n p false).turnOff (swOut n (hiSw p))).turnOff (swOut n (loSw p))
    else s
  if (s.setFld n R.MC_CV_PROT.oc_lim : Int) * 65536 < i.natAbs ∧ (s.cl[mcCl n]).st.moving then
    let s := s.inc (mcB n) R.MC_CONV_CNT.oc_count
    let run := ((s.mc[n]).conv.ocRun)[p] + 1
    let s := s.modConv n fun c => { c with ocRun := upd c.ocRun p run, ocNext := upd c.ocNext p (some (decide (i < 0))) }
    if run = Nat.max 1 (s.setFld n R.MC_CV_MODE.oc_n) then s.raise (evMc n 8) else s
  else s.modConv n fun c => { c with ocRun := upd c.ocRun p 0 }

/-- Is the latest VLO above vlo_ov (R293)? -/
def State.vloHigh (s : State) (n : Mcn) : Bool := decide ((s.setFld n R.MC_CV_VLIM.vlo_ov : Int) * 10 < s.vlo n)

/-- VLO above vlo_ov: every switch off (R293). -/
def State.vloOv (s : State) (n : Mcn) : State :=
  if s.conv n ∧ s.vloHigh n then
    let s := s.setF (mcB n) R.MC_CONV_STAT.vlo_off 1
    (s.assertOn (evMc n 9)).gateApply n
  else s

/-- A VLO result (R280, R293). (DEDUCED, log 46) -/
def State.vloResult (s : State) (n : Mcn) (code : Nat) : State :=
  if s.conv n then
    let v := s.vloOf n code
    let s := s.setF (mcB n) R.MC_CONV_VLO.vlo (clampI 0 131071 v).toNat
    let low := decide (v < (s.setFld n R.MC_CV_VLIM.vlo_uv : Int) * 10) && (s.cl[mcCl n]).st == .running
    let was := (s.mc[n]).conv.uvBelow
    let s := s.modConv n fun c => { c with
      vloCode := code, vloNew := true, uvBelow := low
      ovLow := if s.vloHigh n then none else some (c.ovLow.getD s.now) }
    let s := if low ∧ !was then s.raise (evMc n 10) else s
    s.vloOv n
  else s

/-- VLO has stayed below vlo_ov for 1 ms (R289, R293). -/
def State.vloOk (s : State) (n : Mcn) : State :=
  if s.conv n ∧ s.fb (mcB n) R.MC_CONV_STAT.vlo_off ∧ ((s.mc[n]).conv.ovLow.any fun t => decide (t + 500000 ≤ s.now)) then
    let s := s.setF (mcB n) R.MC_CONV_STAT.vlo_off 0
    ((s.assertOff (evMc n 9)).convSeed n).gateApply n
  else s

/-! ## The loops (R284 to R292) -/

/-- The target of the mean reference: MC_CONV_ISET limited in reg_mode CURRENT, else the latest of CVOLT (R285). -/
def State.convTarget (s : State) (n : Mcn) : Int :=
  let l := s.leader n
  if s.setFld l R.MC_CV_MODE.reg_mode = 2 then
    let (lo, hi) := s.irefRange l (s.coef l 2).lim
    clampI lo hi (s.fi (mcB l) R.MC_CONV_ISET.iset)
  else (s.mc[n]).conv.target

/-- What CCUR reads when it starts: period, VLO, coefficients of loop 0, bus feed-forward. -/
def State.ccurInputs (s : State) (n : Mcn) : List Int :=
  let w := (s.mc[n]).pwm
  [(w.sampleAt : Int), s.vlo n, (w.period : Int), s.vsMv n, s.setFld n R.MC_LOOP_CFG.ff_sel % 2,
    sgn 32 (s.bankF n 0 R.MC_FF_BUS_K.ff_bus_k), s.convTarget n] ++ (s.coef n 0).list
    ++ allP.map (fun p => (s.grp[mcG n]).amps[p])

/-- Factor of the bus feed-forward on a voltage (R179): ff_bus_k × V_base / VS, with VS no less than V_base / 4. -/
def busFf (k vBase vs v : Int) : Fx :=
  let vs := if 4 * vs < vBase then rdiv vBase 4 else vs
  Fx.of (rdiv (v * k * vBase) (q1 * vs))

/-- Target of a phase's reference: 0 where it is being shed, and in STOPPING (R288, R290). -/
def State.phTarget (s : State) (n : Mcn) (p : Fin 3) (target : Int) : Int :=
  if (s.mc[n]).conv.shedding[p] || (s.cl[mcCl n]).st == .stopping then 0 else target

/-- One phase of CCUR (R282, R284): the state and whether the run saturated. -/
def State.ccurPhase (s : State) (n : Mcn) (inp : List Int) (p : Fin 3) : State × Int × Bool :=
  let c := Coef.ofList (inp.drop 7)
  let cv := (s.mc[n]).conv
  let target := s.phTarget n p (nth inp 6 0)
  let ffx := Fx.of (rdiv (nth inp 1 0 * q1) (s.vBase n))
  let ff := ffx.v
  let pre := loopPre cv.ph[p] c target (nth inp (13 + p.val) 0) 0 ff (nth inp 0 0).toNat true
  let fact (v : Int) : Fx := if nth inp 4 0 = 1 then busFf (nth inp 5 0) (s.vBase n) (nth inp 3 0) v else ⟨v, false⟩
  let d := fact pre.uRaw.v
  let (lo, hi) := s.dutyRange n
  let duty := clampI lo hi d.v
  let (l, sat) := loopPost pre c d.v duty
  let cl := s.f (mcB n) R.MC_CONV_STAT.clamped
  let s := s.setF (mcB n) R.MC_CONV_STAT.clamped
    (cl - b2n (bitAt cl p.val) * 2 ^ p.val + b2n (duty != d.v) * 2 ^ p.val)
  (s.modConv n fun x => { x with ph := upd x.ph p l }, duty, sat || d.sat || ffx.sat)

/-- The energy meters at a CCUR run (R292). -/
def State.meter (s : State) (n : Mcn) (inp : List Int) : State :=
  let sum := allP.foldl (fun x p => if s.phActive n p then x + nth inp (13 + p.val) 0 else x) 0
  let e := nth inp 1 0 * sum * s.iBase n * nth inp 2 0
  let den : Nat := 134217728000000000
  s.modConv n fun c =>
    if 0 < e then { c with eFwd := (c.eFwd + (c.remF + e.toNat) / den) % 2 ^ 64, remF := (c.remF + e.toNat) % den }
    else if e < 0 then
      { c with eRev := (c.eRev + (c.remR + e.natAbs) / den) % 2 ^ 64, remR := (c.remR + e.natAbs) % den }
    else c

/-- CCUR completes (R284, R292): the duties of every active phase go to the PWM unit. -/
def State.ccurDone (s : State) (n : Mcn) (inp : List Int) (fin : Nat) : State × Bool :=
  let step (x : State × List Int × Bool) (p : Fin 3) : State × List Int × Bool :=
    let (s, ds, b) := x
    if s.phActive n p then
      let (s, d, sat) := s.ccurPhase n inp p
      (s, ds ++ [d], b || sat)
    else (s, ds ++ [0], b)
  let (s, ds, sat) := allP.foldl step (s, [], false)
  let t := s.t16 n
  let one (p : Fin 3) : Int := nth ds p.val 0
  let cut (p : Fin 3) : Nat := (qdiv ((q1 - one p) * t) (2 * q1)).toNat
  let c : Compare :=
    { Compare.block t 0 with duty := #v[one 0, one 1, one 2], cUp := #v[cut 0, cut 1, cut 2], cDn := #v[cut 0, cut 1, cut 2] }
  let s := s.meter n inp
  -- predicted arrival at the PWM unit (R187); the values act at the next counter zero or period event of each phase
  let s := s.modPwm n fun w => { w with pend := some c, tsAt := (nth inp 0 0).toNat, outAt := (fin : Int) * 16 + 960 }
  let ramping := allP.any fun p => s.phActive n p && ((s.mc[n]).conv.ph[p]).ramp != s.phTarget n p (nth inp 6 0)
  let s := s.rampBit n 0 ramping
  let s := if (s.cl[mcCl n]).st = .starting then s.modCl (mcCl n) fun c => { c with startDone := true } else s
  (s.modConv n fun c => { c with cycles := c.cycles + 1 }, sat)

/-- Is a CVOLT run due at this completion of CCUR (R286, R288)? -/
def State.cvoltDue (s : State) (n : Mcn) : Bool :=
  let st := (s.cl[mcCl n]).st
  s.conv n && !s.follower n && (st == .starting || st == .running) && s.setFld n R.MC_CV_MODE.reg_mode != 2
    && decide (s.setFld n R.MC_CV_MODE.cv_div < (s.mc[n]).conv.cycles)

/-- The mean reference of a converter set: both clusters of a pair follow it. -/
def State.setIref (s : State) (l : Mcn) (iref target : Int) : State :=
  s.each (s.convCls l) fun n s =>
    (s.modConv n fun c => { c with iref := iref, target := target }).setF (mcB n) R.MC_CONV_IREF.iref (uns 32 iref)

/-- The target of reg_mode CURRENT (R285). -/
def State.isetTarget (s : State) (n : Mcn) : State :=
  if s.conv n ∧ !s.follower n ∧ s.setFld n R.MC_CV_MODE.reg_mode = 2 then
    let v := s.convTarget n
    s.setIref n v v
  else s

/-- What CVOLT reads when it starts. -/
def State.cvoltInputs (s : State) (n : Mcn) : List Int :=
  let vs := s.setFld n R.MC_CV_MODE.reg_mode = 1
  let pu (mv : Int) : Int := sat32 (rdiv (mv * q1) (s.vBase n))
  let c := s.coef n 2
  let (lo, hi) := s.irefRange n c.lim
  [(s.now : Int), pu (s.f (mcB n) R.MC_CONV_VSET.vset), pu (if vs then s.vsMv n else s.vlo n), b2n vs, lo, hi,
    s.meanAmps n, b2n ((s.mc[n]).conv.vloNew)] ++ c.list

/-- One phase is shed or added (R290). -/
def State.shed (s : State) (l : Mcn) : State :=
  let ps := s.loaded l
  let k := ps.length
  let iref := (s.mc[l]).conv.iref
  let tot : Int := k * iref.natAbs
  let q (f : Fld) : Int := (s.setFld l f : Int) * 65536
  let scaleI (k' : Nat) (s : State) : State := s.modLoop l 2 fun x => { x with i := sat32 (rdiv (x.i * k) k') }
  let idle := (s.interleave l).filter fun (n, p) => !(s.phActive n p && !s.phShed n p)
  if s.setFld l R.MC_CV_MODE.shed_en = 0 ∨ k = 0 then s
  else
    let low := decide (2 ≤ k) && decide (tot < q R.MC_CV_SHED.i_shed * (k - 1 : Nat))
    let since := if low then some (((s.mc[l]).conv.lowSince).getD s.now) else none
    let s := s.modConv l fun c => { c with lowSince := since }
    let long : Bool := match since with
      | some t => decide (Nat.max 1 (s.setFld l R.MC_CV_MODE.shed_t) * 500000 ≤ s.now - t)
      | none => false
    if q R.MC_CV_SHED.i_add * k < tot then
      match idle with
      | (n, p) :: _ =>
        let i := (s.grp[mcG n]).amps[p]
        let s := s.modConv n fun c => { c with
          shedding := upd c.shedding p false
          own := if s.phActive n p then c.own else upd c.own p (0, 0)
          ph := upd c.ph p { c.ph[p] with started := false, seed := some 0, seedRef := some i } }
        let s := (s.setActive n p true).inc (mcB l) R.MC_CONV_CNT.add_count
        let v := rdiv (iref * k) (k + 1)
        (scaleI (k + 1) s).setIref l v v
      | [] => s
    else if long ∧ Nat.max 1 (s.setFld l R.MC_CV_MODE.min_ph) < k then
      match ps.getLast? with
      | some (n, p) =>
        let s := s.modConv n fun c => { c with shedding := upd c.shedding p true }
        let s := (s.modConv l fun c => { c with lowSince := none }).inc (mcB l) R.MC_CONV_CNT.shed_count
        let s := s.each (s.convCls l) fun m s => s.convRamps m
        let v := rdiv (iref * k) (k - 1 : Nat)
        (scaleI (k - 1) s).setIref l v v
      | none => s
    else s

/-- CVOLT completes (R285 to R287, R290). -/
def State.cvoltDone (s : State) (n : Mcn) (inp : List Int) (rel : Nat) : State × Bool :=
  let c := Coef.ofList (inp.drop 8)
  let neg := nth inp 3 0 = 1
  let sg (v : Int) : Int := if neg then -v else v
  let mean := nth inp 6 0
  let l := (s.mc[n]).loops[(2 : Fin 4)]
  -- at a start the integrator itself takes the measured mean current
  let l := if l.started then l else { l with seed := some (l.seed.getD (sg mean)) }
  let pre := loopPre l c (nth inp 1 0) (nth inp 2 0) 0 0 rel true
  let lo := nth inp 4 0
  let hi := nth inp 5 0
  let u := if neg then clampI (-hi) (-lo) pre.uRaw.v else clampI lo hi pre.uRaw.v
  let (l, sat) := loopPost pre c pre.uRaw.v u
  let s := s.modLoop n 2 fun _ => l
  let s := s.rampBit n 2 (l.ramp != nth inp 1 0)
  let s := if !neg ∧ nth inp 7 0 = 0 then s.inc (mcB n) R.MC_CONV_CNT.vlo_stale else s
  let s := s.modConv n fun c => { c with vloNew := if nth inp 7 0 = 1 then false else c.vloNew }
  let s := s.setIref n (sg u) (sg u)
  (s.shed n, sat)

/-- Both meters set to 0 (R292). -/
def State.meterClear (s : State) (n : Mcn) : State :=
  if s.conv n then s.modConv n fun c => { c with eFwd := 0, eRev := 0, remF := 0, remR := 0 } else s

end Sys2Proof.Machine
end

