-- ==== Sys2Proof/Machine/Banks.lean ====
section
/-! DEFINITION. The coefficient banks of the loops and their boundaries (06_control_lanes R183, R184, R186;
07_atlas_paging R214). -/

namespace Sys2Proof.Machine

/-- The bank groups. -/
def allG : List (Fin 4) := [0, 1, 2, 3]

/-- The idle bank of a group, as an index. -/
def State.idle (s : State) (n : Mcn) (g : Fin 4) : Fin 2 :=
  if bitAt (s.f (mcB n) R.MC_LOOP_BANK.active) g.val then 0 else 1

def State.setBank (s : State) (n : Mcn) (g : Fin 4) (i : Fin 2) (b : Bank) : State :=
  s.modMc n fun m => { m with banks := upd m.banks g (upd m.banks[g] i b) }

/-- One bit of a field of MC_LOOP_BANK. -/
def State.bankBit (s : State) (n : Mcn) (f : Fld) (g : Fin 4) (v : Bool) : State :=
  let x := s.f (mcB n) f
  s.setF (mcB n) f (x - b2n (bitAt x g.val) * 2 ^ g.val + b2n v * 2 ^ g.val)

def State.modAtl (s : State) (n : Mcn) (g : Pager → Pager) : State := s.modMc n fun m => { m with atl := g m.atl }

/-- The bank of a group changes: the idle bank becomes active (R184). -/
def State.bankFlip (s : State) (n : Mcn) (g : Fin 4) : State :=
  let i := s.idle n g
  let s := s.bankBit n R.MC_LOOP_BANK.active g (i == 1)
  let s := s.bankBit n R.MC_LOOP_BANK.pending g false
  s.bankBit n R.MC_LOOP_BANK.sheet g (((s.mc[n]).banks[g])[i] != [])

/-- What is shown of the active group-0 content (MC_ATL_ACT). -/
def State.showAct (s : State) (n : Mcn) (f : Fill) : State :=
  let b := mcB n
  let s := s.modAtl n fun a => { a with act := f.cells }
  let s := (s.setF b R.MC_ATL_ACT.sheet (f.first.getD 0)).setF b R.MC_ATL_ACT.sheet_valid (b2n f.first.isSome)
  (s.setF b R.MC_ATL_ACT.w_s f.qs).setF b R.MC_ATL_ACT.w_l f.ql

/-- A held bank becomes active at a boundary of its group once the due boundary has come: groups 0 and 1 at that one, groups 2
and 3 not before them (R184, R186, R214). -/
def State.bankSwap (s : State) (n : Mcn) (g : Fin 4) : State :=
  let p := s.f (mcB n) R.MC_LOOP_BANK.pending
  let a : Pager := (s.mc[n]).atl
  if bitAt p g.val ∧ (g.val < 2 ∨ p % 4 = 0) ∧ a.swap.isNone ∧ a.dueAt.isSome then
    match a.held with
    | some f =>
      let s := s.bankFlip n g
      let s := if g = 0 then s.showAct n f else s
      if s.f (mcB n) R.MC_LOOP_BANK.pending = 0 then
        let s := if (s.mc[n]).atl.act = f.cells then s else s.showAct n f
        (s.modAtl n fun a => { a with held := none, dueAt := none }).setF (mcB n) R.MC_ATL_STAT.held 0
      else s
    | none => s
  else s

/-- The release of a job is the boundary of its group: what is held for it swaps before the job can start (R184). -/
def State.jobBoundary (s : State) (j : JobId) : State :=
  match j with
  | .cur n | .ccur n => (s.bankSwap n 0).bankSwap n 1
  | .spd n | .cvolt n => s.bankSwap n 2
  | .pos n => s.bankSwap n 3
  | _ => s

end Sys2Proof.Machine
end

