-- ==== Sys2Proof/Machine/Jobs.lean ====
section
/-! DEFINITION. The lane jobs of the loops (06_control_lanes R171 to R182, R196; 03 R85 to R91, R102, R109; 08 R221):
which may be released, what each reads when it starts, and what it publishes when it completes. -/

namespace Sys2Proof.Machine

/-! ## Release (R171 to R173) -/

/-- Does the cluster's recovery, its start probe or an OV2 action keep its loops from running (R172, R271)? -/
def State.loopsHeld (s : State) (n : Mcn) : Bool := (s.mc[n]).est.recPath.isSome || s.ov2 (clRg (mcCl n))

/-- May a job be released in the present state (R172)? -/
def State.jobAllowed (s : State) (j : JobId) : Bool :=
  let st (n : Mcn) : CState := (s.cl[mcCl n]).st
  let motor (n : Mcn) : Bool := !s.conv n && (st n).moving && !s.loopsHeld n
  match j with
  | .cur n | .spd n => motor n
  | .pos n => motor n && s.st n R.MC_MO_MODE.mode == 1
  | .obs n =>
    !s.conv n && s.foc n && s.source n == 5 && (s.mc[n]).est.recPath.isNone
      && ((st n).active || st n == .safe)
  | .prof (.mc n) => !s.conv n && (st n).moving
  | .prof (.st k) => s.chanOn k && ((s.cl[stCl k]).st).moving
  | .ccur n => s.conv n && (st n).moving
  | .cvolt n => s.conv n && !s.follower n && (st n == .starting || st n == .running)
      && s.setFld n R.MC_CV_MODE.reg_mode != 2
  | .thermM n => st n != .unused
  | .thermR _ => s.dev.st == .ready || s.dev.st == .run || s.dev.st == .bivouac
  | .atlas n => (st n).active && s.setFld n R.MC_ATL_CFG.en == 1
  | .trace u => let t := s.f (trB u) R.TR_STAT.state; t == 1 || t == 2
  -- the retirement map is restored before any lane takes a job (R170)
  | .ltest l => (s.dev.st == .ready || s.dev.st == .run || s.dev.st == .bivouac || s.boot.phase == .monitor)
      && ((s.lanes[l]).st == .inService || (s.lanes[l]).st == .spare)

/-! ## Inputs (R171) -/

/-- i_d reference of the field-weakening contour at a speed (R91). -/
def State.idContour (s : State) (n : Mcn) (speed : Int) : Int :=
  contour rdiv (s.fcPoint n R.MC_FC_ID.id_ref true) (s.f (s.act n) R.MC_FC_AXIS.speed_step) speed

/-- Current along 0 degrees in the alignment, Q3.28 (R155). -/
def State.alignRef (s : State) (n : Mcn) : Int :=
  let full : Int := (s.setFld n R.MC_START_ALIGN.align_i : Int) * 4096
  let ramp : Int := (s.setFld n R.MC_START_ALIGN.align_ramp : Int) * 8000000
  let t := s.now16 - (s.mc[n]).est.rampAt
  if ramp ≤ t then full else rdiv (full * t) ramp

/-- References of the two current loops and the angle of their frame at the sample: alignment, find stage, ramp and
handover, or the normal ones (R91, R155, R157, R178). -/
def State.curRefs (s : State) (n : Mcn) : Int × Int × Nat :=
  let m := s.mc[n]
  let ph := s.estF n R.MC_EST_STAT.phase
  let ts : Int := (m.pwm.sampleAt : Int) * 16
  let th := m.dat.at ts
  let ramp : Int := m.est.rampI * 4096
  if ph = 2 ∨ ph = 3 then
    -- the block families have the q reference alone
    if s.setFld n R.MC_START_CFG.find = 1 then (if s.foc n then (s.alignRef n, 0, 0) else (0, s.alignRef n, 0))
    else (0, 0, s.estF n R.MC_EST_INJ_ANGLE.angle)
  else if ph = 4 ∨ ph = 5 then (0, if m.est.startRev then -ramp else ramp, th)
  else (s.idContour n (m.dat.speedAt ts), m.iqRef, th)

/-- What CUR reads when it starts. -/
def State.curInputs (s : State) (n : Mcn) : List Int :=
  let m := s.mc[n]
  let ts : Int := (m.pwm.sampleAt : Int) * 16
  let (rd, rq, th) := s.curRefs n
  [(th : Int), m.dat.speedAt ts, (m.pwm.sampleAt : Int), m.iA, m.iB, (m.recon : Int), rd, rq,
    s.setFld n R.MC_LOOP_CFG.ff_sel % 2, sgn 32 (s.bankF n 0 R.MC_FF_BUS_K.ff_bus_k), s.vsMv n]
    ++ (s.coef n 0).list ++ (s.coef n 1).list
    -- the current of a block family: through the shunt of the low-side phase of the sector at the sample (R96)
    ++ [-((s.grp[mcG n]).amps[(sectorPhases m.pwm.sampleSec).2])]

/-- Per unit of f_base of a speed in Q16.16 Hz, and of a profile velocity of a motor axis. -/
def State.puSpeed (s : State) (n : Mcn) (w : Int) : Fx := Fx.of (rdiv (w * 4096) (s.fBase n))
def State.puProfile (s : State) (n : Mcn) (v : Int) : Fx := Fx.of (rdiv (v * s.polePairs n) (16 * s.fBase n))

/-- What SPD reads when it starts (R178, R180, R221); the last number before the coefficients says whether a conversion
saturated. -/
def State.spdInputs (s : State) (n : Mcn) : List Int :=
  let m := s.mc[n]
  let x := s.axM[n]
  let w := m.dat.speedAt s.now16
  let ref : Fx := if s.st n R.MC_MO_MODE.mode = 1 then ⟨m.posOut, false⟩ else s.puProfile n x.v
  let acc := Fx.of (rdiv (x.acc * s.polePairs n * 4096) (1000 * s.fBase n))
  let k : Fx := ⟨sgn 32 (s.bankF n 2 R.MC_FF_ACC_K.ff_acc_k), false⟩
  let ff : Fx := if s.setFld n R.MC_LOOP_CFG.ff_sel / 2 % 2 = 1 then k.mul acc else ⟨0, false⟩
  let meas := s.puSpeed n w
  [(s.now : Int), ref.v, meas.v, ff.v, s.f (mcB n) R.MC_TH_STAT.k_i, s.idContour n w, m.iQ,
    b2n (ref.sat || ff.sat || meas.sat)] ++ (s.coef n 2).list

/-- What POS reads when it starts: the profile and the measured position in Q3.28 turns (R178). -/
def State.posInputs (s : State) (n : Mcn) : List Int :=
  let w := s.puSpeed n ((s.mc[n]).dat.speedAt s.now16)
  [(s.now : Int), rdiv (s.axM[n]).p 16, rdiv (s.measured (.mc n)) 16, w.v, b2n w.sat] ++ (s.coef n 3).list

/-- Load of a cluster as its atlas sees it (R208), Q3.28. -/
def State.atlLoad (s : State) (n : Mcn) : Int :=
  if s.conv n then (s.mc[n]).conv.iref.natAbs else (s.mc[n]).iqRef.natAbs

/-- Temperature of the index in 1/64 °C (R208). -/
def State.atlTemp (s : State) (n : Mcn) (base : Nat) : Int :=
  let src := s.f base R.MC_ATL_CFG.temp_src
  if h : 1 ≤ src ∧ src ≤ 4 then (s.ntc[(⟨src - 1, by omega⟩ : Fin 4)]).t
  else if src = 5 then
    (s.mc[n]).models.foldl (fun x m => if x < m.tj then m.tj else x) ((s.mc[n]).models[(0 : Fin 6)]).tj
  else s.dieT (if clRg (mcCl n) = 0 then 1 else 2)

/-- What an ATLAS job reads: speed and acceleration of the datum, load, temperature, instant. -/
def State.atlInputs (s : State) (n : Mcn) : List Int :=
  let d := (s.mc[n]).dat
  [if s.conv n then 0 else d.speedAt s.now16, if s.conv n then 0 else d.acc, s.atlLoad n, s.atlTemp n (s.act n), (s.now : Int)]

/-- What a job reads when it starts (R171). (DEDUCED, log 15) -/
def jobInputs (j : JobId) (s : State) : List Int :=
  match j with
  | .cur n => s.curInputs n
  | .obs n => s.obsInputs n
  | .spd n => s.spdInputs n
  | .pos n => s.posInputs n
  | .prof a =>
    let at_ := match a with | .mc n => (s.mc[n]).pwm.sampleAt | .st _ => s.now
    [(at_ : Int), ((s.ax a).cmds.length : Int)]
  | .ccur n => s.ccurInputs n
  | .cvolt n => s.cvoltInputs n
  | .atlas n => s.atlInputs n
  | .thermM n => s.thermInputs n
  | .thermR r => s.brakeInputs r
  | .trace u => ((s.trace[u]).latched.getD []).map fun w => (w.toNat : Int)
  | .ltest _ => []

/-- A release, with the swap of the banks that its group's boundary brings (R184). -/
def State.rel (s : State) (j : JobId) : State := (s.jobBoundary j).release jobInputs j
def State.dispatchNow (s : State) : State := s.dispatchAll jobInputs

/-- A release that the state and the configuration admit. -/
def State.relIf (s : State) (j : JobId) : State := if s.jobAllowed j then s.rel j else s

/-- The outer loop at a current sample: SPD every spd_div samples (R171). -/
def State.spdCount (s : State) (n : Mcn) : State :=
  if s.setFld n R.MC_LOOP_CFG.spd_src = 0 then
    let c := (s.mc[n]).spdCnt + 1
    if s.setFld n R.MC_LOOP_CFG.spd_div < c then (s.modMc n fun m => { m with spdCnt := 0 }).relIf (.spd n)
    else s.modMc n fun m => { m with spdCnt := c }
  else s

/-- The profile at a current sample: PROF every serv_div samples, also through a recovery (R171, R172, R222). -/
def State.servCount (s : State) (n : Mcn) : State :=
  if s.jobAllowed (.prof (.mc n)) then
    let c := (s.mc[n]).servCnt + 1
    if s.f (s.moSet (.mc n)) R.MO_TIME.serv_div < c then
      (s.modMc n fun m => { m with servCnt := 0 }).rel (.prof (.mc n))
    else s.modMc n fun m => { m with servCnt := c }
  else s

/-- A servo period of a stepper cluster ends at a release of PROF: STARTING ends with the first whole one (R242). -/
def State.servoEnd (s : State) (c : Cl) : State :=
  s.onlyIf ((s.cl[c]).st == .starting && decide ((s.cl[c]).enteredAt + 12500 ≤ s.now)) fun s =>
    s.modCl c fun x => { x with startDone := true }

/-- Has a job's own cause come (R171): a new current sample has reached Kilid, or the period since its latest release is past?
The other jobs are released by these: OBS, SPD and PROF of a motor by the sample, POS, CVOLT and TRACE by a completion.
(DEDUCED, log 39) -/
def State.jobDue (s : State) (j : JobId) : Bool :=
  let past : Bool := match s.lastRelease j with
    | none => true
    | some t => (match s.nextRelease j t with | some x => decide (x ≤ s.now) | none => false)
  match j with
  | .cur n | .ccur n => (s.mc[n]).sampleNew
  | .atlas n => past && s.setFld n R.MC_ATL_TIME.atl_period != 0
  | .prof (.st _) | .thermM _ | .thermR _ | .ltest _ => past
  | .obs _ | .spd _ | .pos _ | .prof (.mc _) | .cvolt _ | .trace _ => false

/-- A motor cluster's current sample has reached Kilid (R171): CUR, with OBS, SPD and PROF. -/
def State.sampleRelease (s : State) (n : Mcn) : State :=
  let s := s.modMc n fun m => { m with sampleNew := false }
  let s := (s.relIf (.cur n)).relIf (.obs n)
  let s := if s.jobAllowed (.spd n) then s.spdCount n else s
  s.servCount n

/-- A release of a job by its own cause (R171). -/
def State.jobRelease (s : State) (j : JobId) : State :=
  if s.jobDue j then
    match j with
    | .cur n => s.sampleRelease n
    | .ccur n => (s.modMc n fun m => { m with sampleNew := false }).relIf (.ccur n)
    | .prof (.st k) => if s.jobAllowed j then (s.servoEnd (stCl k)).rel j else s
    | j => s.relIf j
  else s

/-! ## The current loop (R85 to R91, R102, R109, R177 to R182) -/

/-- Currents delivered for a sample (R102): the sampled ones, the reconstruction of one, or a prediction, whose value the
spec does not give. (DESIGN CHOICE, log 31) -/
def State.deliver (s : State) (n : Mcn) : State :=
  let m := s.mc[n]
  let g := s.grp[mcG n]
  let clip := m.est.clipClose
  let shut := allP.foldl (fun b p =>
    let x := g.codes[p]
    b + b2n (bitAt m.closed p.val || (clip && (x == 0 || x == 16383))) * 2 ^ p.val) 0
  let i (p : Fin 3) : Int := g.amps[p]
  let s := s.setF (mcB n) R.MC_PWM_STAT.closed shut
  let put (u v w : Int) (k : Nat) (s : State) : State :=
    let a := rdiv (2 * u - v - w) 3
    let b := rdiv ((v - w) * invSqrt3) q1
    let s := s.modMc n fun m => { m with iA := sat32 a, iB := sat32 b, recon := k }
    let st := mcB n
    (s.setF st R.MC_PWM_STAT.recon (b2n (k == 1))).setF st R.MC_PWM_STAT.predicted (b2n (k == 2))
  match shut with
  | 0 => put (i 0) (i 1) (i 2) 0 s
  | 1 => put (-(i 1 + i 2)) (i 1) (i 2) 1 s
  | 2 => put (i 0) (-(i 0 + i 2)) (i 2) 1 s
  | 4 => put (i 0) (i 1) (-(i 0 + i 1)) 1 s
  | _ =>
    let a := sgn 32 s.freeNat
    let s := s.drawn
    let b := sgn 32 s.freeNat
    let s := s.drawn
    let s := s.modMc n fun m => { m with iA := a, iB := b, recon := 2 }
    (s.setF (mcB n) R.MC_PWM_STAT.recon 0).setF (mcB n) R.MC_PWM_STAT.predicted 1

/-- The counters of R102 for the sample that a current job uses. -/
def State.windowCount (s : State) (n : Mcn) (recon : Int) : State :=
  let b := mcB n
  if recon = 1 then (s.inc b R.MC_PWM_WIN_CNT.recon_count).modPwm n fun w => { w with missRun := 0 }
  else if recon = 2 then
    let s := (s.inc b R.MC_PWM_WIN_CNT.miss_count).raise (evMc n 4)
    let run := (s.mc[n]).pwm.missRun + 1
    let s := s.modPwm n fun w => { w with missRun := run }
    if run = s.setFld n R.MC_PWM_MOD.miss_limit then s.raise (evMc n 5) else s
  else s.modPwm n fun w => { w with missRun := 0 }

/-- Output instant of R109, in 125 ps: the midpoint of the first of the present and the next two half-periods whose own compare
values act in it when they reach the PWM unit at the predicted instant (R187). -/
def State.outInstant (s : State) (n : Mcn) (at_ : Int) (mk : Int → Compare) : Int :=
  let w := (s.mc[n]).pwm
  let mid (k : Nat) : Int := (w.zeroAt : Int) * 16 + (k * w.period * 4 : Nat)
  let ok (t : Int) : Bool := s.actsAt n (mk t) at_ == t
  if ok (mid 1) then mid 1 else if ok (mid 3) then mid 3 else mid 5

/-- Instant in 125 ps at which the values of a current-class job predicted to complete at a tick reach the PWM unit (R187). -/
def arrive (fin : Nat) : Int := (fin : Int) * 16 + 960

/-- The first component of a vector turned back by an angle, and of one turned forth: products of Q3.28, each rounded (R174). -/
def turnBack (a b c sn : Fx) : Fx := (a.mul c).add (b.mul sn)
def turnForth (a b c sn : Fx) : Fx := (a.mul c).sub (b.mul sn)

/-- The vector in the stationary frame at an angle. -/
def invPark (vd vq : Int) (th : Nat) : Fx × Fx :=
  let a := BitVec.ofNat 32 th
  let c : Fx := ⟨cosQ a, false⟩
  let sn : Fx := ⟨sinQ a, false⟩
  (turnForth ⟨vd, false⟩ ⟨vq, false⟩ c sn, turnBack ⟨vq, false⟩ ⟨vd, false⟩ c sn)

/-- What the PWM unit makes of a voltage vector that is to be output at an instant (R85, R88, R89): d and q after the hexagon, the
compare values with the state they leave, whether the hexagon limited, and whether an operation saturated. -/
structure VecOut where
  vd  : Int
  vq  : Int
  cmp : Compare
  s   : State
  hex : Bool
  sat : Bool

/-- A limited d, q vector of a sample (angle and speed at t_s) for output at an instant (R85, R109). -/
def State.vecOut (s : State) (n : Mcn) (th : Nat) (w : Int) (ts : Nat) (vd vq out : Int) : VecOut :=
  let at_ := uns 32 ((th : Int) + rdiv (w * 65536 * (out - (ts : Int) * 16)) (16 * hz))
  let (x, y) := invPark vd vq at_
  let f := s.hexFactor n x.v y.v
  let hex := decide (f.v ≠ q1)
  let cut (v : Fx) : Fx := if hex then v.mul f else v
  let a := cut x
  let b := cut y
  let d := s.dtComp n (s.duties n a.v b.v)
  let (ua, ub) := dutyVec d
  let (c, t) := s.place n d ua ub
  { vd := (cut ⟨vd, false⟩).v, vq := (cut ⟨vq, false⟩).v, cmp := c, s := t, hex := hex, sat := a.sat || b.sat || f.sat }

/-- One run of the current loops of a FOC family: measured currents, the two loops, the bus feed-forward, the voltage limit,
and the PWM unit's steps with the inverse Park transform at the output instant. (DEDUCED, log 32) -/
def State.curFoc (s : State) (n : Mcn) (inp : List Int) (fin : Nat) : State × Bool :=
  let g (k : Nat) : Int := nth inp k 0
  let th := (g 0).toNat
  let ts := (g 2).toNat
  let a := BitVec.ofNat 32 th
  let cs : Fx := ⟨cosQ a, false⟩
  let sn : Fx := ⟨sinQ a, false⟩
  let id := turnBack ⟨g 3, false⟩ ⟨g 4, false⟩ cs sn
  let iq := turnForth ⟨g 4, false⟩ ⟨g 3, false⟩ cs sn
  let s := s.modMc n fun m => { m with iD := id.v, iQ := iq.v }
  if s.modulates n ∧ !(s.mc[n]).pwm.virt then
    let m := s.mc[n]
    let cd := Coef.ofList (inp.drop 11)
    let cq := Coef.ofList (inp.drop 17)
    let pd := loopPre m.loops[(0 : Fin 4)] cd (g 6) id.v m.vD 0 ts true
    let pq := loopPre m.loops[(1 : Fin 4)] cq (g 7) iq.v m.vQ 0 ts true
    let fact (v : Int) : Fx := if g 8 = 1 then busFf (g 9) (s.vBase n) (g 10) v else ⟨v, false⟩
    let fd := fact pd.uRaw.v
    let fq := fact pq.uRaw.v
    let (vd, vq, flag) := s.limitDq n fd.v fq.v
    let vec (out : Int) : VecOut := s.vecOut n th (g 1) ts vd vq out
    let out := s.outInstant n (arrive fin) fun o => (vec o).cmp
    let v := vec out
    -- the limits act on the products, and decide integration (R178, R179)
    let (ld, sd) := loopPost pd cd fd.v v.vd
    let (lq, sq) := loopPost pq cq fq.v v.vq
    let s := v.s.modMc n fun m => { m with
      vD := v.vd, vQ := v.vq, loops := upd (upd m.loops 0 ld) 1 lq
      pwm := { m.pwm with pend := some v.cmp, tsAt := ts, outAt := out } }
    let s := (s.rampBit n 0 (ld.ramp != g 6)).rampBit n 1 (lq.ramp != g 7)
    let mUse := rdiv (qsqrt (v.vd * v.vd + v.vq * v.vq) * sqrt3) (q1 * 16384)
    let s := s.setF (mcB n) R.MC_PWM_STAT.limited (b2n (flag != 0 || v.hex))
    let s := s.setF (mcB n) R.MC_PWM_STAT.m_used (clampI 0 65535 mUse).toNat
    -- the treatment of clipped phases ends with the soft-start ramp (R166)
    let s := if (s.mc[n]).est.clipClose ∧ ld.ramp = g 6 ∧ lq.ramp = g 7 then
        s.modEst n fun e => { e with clipClose := false } else s
    (s, sd || sq || fd.sat || fq.sat || id.sat || iq.sat || v.sat)
  else
    -- frozen (R90, R162, R271): the next run is a start
    ((s.modLoop n 0 fun l => { l with started := false }).modLoop n 1 fun l => { l with started := false },
      id.sat || iq.sat)

/-- The current loop of a block family (chapter opening of "The loops", R96): its measurement is the current through the
shunt of the low-side phase of the sector at the sample, which flows into that leg. -/
def State.curBlock (s : State) (n : Mcn) (inp : List Int) (fin : Nat) : State × Bool :=
  let g (k : Nat) : Int := nth inp k 0
  let meas := Fx.of (g 23)
  let s := s.modMc n fun m => { m with iD := 0, iQ := meas.v }
  if s.modulates n then
    let m := s.mc[n]
    let c := Coef.ofList (inp.drop 17)
    let pre := loopPre m.loops[(1 : Fin 4)] c (g 7) meas.v m.vQ 0 (g 2).toNat true
    let f : Fx := if g 8 = 1 then busFf (g 9) (s.vBase n) (g 10) pre.uRaw.v else ⟨pre.uRaw.v, false⟩
    let d := clampI 0 q1 f.v
    let (l, sat) := loopPost pre c f.v d
    let cmp := Compare.block (s.t16 n) d
    let out := s.outInstant n (arrive fin) fun _ => cmp
    let s := s.modMc n fun m => { m with
      vD := 0, vQ := d, loops := upd m.loops 1 l
      pwm := { m.pwm with pend := some cmp, tsAt := (g 2).toNat, outAt := out } }
    let s := s.rampBit n 1 (l.ramp != g 7)
    (s.setF (mcB n) R.MC_PWM_STAT.limited (b2n (d != f.v)), sat || f.sat || meas.sat)
  else (s.modLoop n 1 fun l => { l with started := false }, meas.sat)

/-- CUR completes. -/
def State.curDone (s : State) (n : Mcn) (inp : List Int) (fin : Nat) : State × Bool :=
  if s.foc n then (s.windowCount n (nth inp 5 0)).curFoc n inp fin else s.curBlock n inp fin

/-! ## Speed and position (R177 to R182) -/

/-- SPD completes: the i_q reference (R178), `rel` its release instant; a stall is watched (R160). In the phases of a start,
the loop runs and its output waits. (DEDUCED, log 32) -/
def State.spdDone (s : State) (n : Mcn) (inp : List Int) (rel : Nat) : State × Bool :=
  let g (k : Nat) : Int := nth inp k 0
  let c := Coef.ofList (inp.drop 8)
  let pre := loopPre ((s.mc[n]).loops[(2 : Fin 4)]) c (g 1) (g 2) (g 6) (g 3) rel true
  let lim := rdiv (c.lim * g 4) 4096
  let room := lim * lim - g 5 * g 5
  let byId := if room ≤ 0 then 0 else qsqrt room
  let lim := if byId < lim then byId else lim
  let u := clampI (-lim) lim pre.uRaw.v
  let (l, sat) := loopPost pre c pre.uRaw.v u
  let s := s.modMc n fun m => { m with iqRef := u, spdRef := g 1, loops := upd m.loops 2 l }
  let s := s.stallWatch n (g 1) (g 2) (decide (u ≠ pre.uRaw.v))
  (s.rampBit n 2 (l.ramp != g 1), sat || decide (g 7 = 1))

/-- POS completes: the speed reference (R178). (DEDUCED, log 32) -/
def State.posDone (s : State) (n : Mcn) (inp : List Int) (rel : Nat) : State × Bool :=
  let g (k : Nat) : Int := nth inp k 0
  let c := Coef.ofList (inp.drop 5)
  let pre := loopPre ((s.mc[n]).loops[(3 : Fin 4)]) c (g 1) (g 2) (g 3) 0 rel false
  let u := clampI (-c.lim) c.lim pre.uRaw.v
  let (l, sat) := loopPost pre c pre.uRaw.v u
  (s.modMc n fun m => { m with posOut := u, loops := upd m.loops 3 l }, sat || decide (g 4 = 1))

/-! ## Completion of a run (R171, R176, R187, R196) -/

/-- Loop whose terms a trace unit shows for a job (R196). For CCUR, loop 0 of phase U. -/
def State.nodeLoop (s : State) (j : JobId) (axis : Nat) : Option LoopSt :=
  match j with
  | .cur n => some (if axis = 1 then (s.mc[n]).loops[(0 : Fin 4)] else (s.mc[n]).loops[(1 : Fin 4)])
  | .spd n | .cvolt n => some ((s.mc[n]).loops[(2 : Fin 4)])
  | .pos n => some ((s.mc[n]).loops[(3 : Fin 4)])
  | .ccur n => some ((s.mc[n]).conv.ph[(0 : Fin 3)])
  | _ => none

/-- The motor cluster of a job, if it has one. -/
def jobMc : JobId → Option Mcn
  | .cur n | .obs n | .spd n | .pos n | .ccur n | .cvolt n | .thermM n | .atlas n | .prof (.mc n) => some n
  | _ => none

/-- Value of a trace node (R196). -/
def State.nodeVal (s : State) (j : JobId) (sat : Bool) (inp : List Int) (u : Fin 4) (code : Nat) : Word :=
  let w (v : Int) : Word := BitVec.ofInt 32 v
  let axis := s.f (trB u) R.TR_CFG.axis
  let cur := match j with | .cur _ => true | _ => false
  let current := match j with | .cur _ | .ccur _ => true | _ => false
  let ts : Int := match j with | .ccur _ => nth inp 0 0 | _ => nth inp 2 0
  let own := ownerCl (s.jobOwner j)
  match code with
  | 0x12 =>
    let st := match own with | some c => s.f (loopB c) R.MC_LOOP_SAT.sat_sticky | none => 0
    BitVec.ofNat 32 (b2n sat * 2147483648 + st)
  | _ =>
    match s.nodeLoop j axis, jobMc j with
    | some l, some n =>
      let m := s.mc[n]
      match code with
      | 1 => w l.e | 2 => w l.p | 3 => w l.i | 4 => w l.d | 5 => w l.ff | 6 => w l.out | 7 => w (sat32 l.ramp) | 8 => w (sat32 l.meas)
      | 9 => if cur then w m.iD else 0
      | 10 => if cur then w m.iQ else 0
      | 11 => if current then w (s.grp[mcG n]).amps[(0 : Fin 3)] else 0
      | 12 => if current then w (s.grp[mcG n]).amps[(1 : Fin 3)] else 0
      | 13 => if current then w (s.grp[mcG n]).amps[(2 : Fin 3)] else 0
      | 14 => if cur then w (nth inp 0 0) else 0
      | 15 => match j with
        | .cur _ => w (nth inp 1 0)
        | .spd _ => w (m.dat.speedAt s.now16)
        | _ => 0
      | 16 => if cur then w m.vD else 0
      | 17 => if cur then w m.vQ else 0
      | 19 => if cur then s.word (mcB n + R.MC_PWM_STAT.reg) else 0
      | 20 => if cur then w (nth inp 10 0) else match j with | .ccur _ => w (nth inp 3 0) | _ => 0
      | 22 => if current then edgeCode (ts * 16) else 0
      | 23 => if current then BitVec.ofNat 32 (lat4 (s.now + 60 - ts.toNat)) else 0
      | _ => 0
    | none, some n =>
      match j, code with
      | .obs _, 14 => w ((s.mc[n]).dat.at (nth inp 0 0 * 16))
      | .obs _, 15 => w ((s.mc[n]).dat.speedAt (nth inp 0 0 * 16))
      | .obs _, 0x15 => s.word (mcB n + R.MC_EST_RESID.reg)
      | .obs _, 22 => edgeCode (nth inp 0 0 * 16)
      | _, _ => 0
    | _, none => 0

/-! ## Failed lanes (R192, R193) -/

/-- The lanes in service. -/
def State.lanesIn (s : State) : List (Fin 8) := (List.finRange 8).filter fun i => (s.lanes[i]).st == .inService

/-- The lowest-numbered SPARE joins the pool; the last one leaves the pool without a spare (R192, R333). -/
def State.laneSubst (s : State) : State :=
  match s.spareLane with
  | none => s
  | some i =>
    let s := (s.laneIn i).substituted
    if s.spareLane.isNone then s.poolEmpty 1 else s

/-- A lane has failed: it is retired at once, its job re-enters the ready list, and a spare takes its place (R193). -/
def State.laneFail (s : State) (i : Fin 8) : State :=
  let l := s.lanes[i]
  if l.st = .retired then s
  else
    let s : State := { s with
      lanes := upd s.lanes i { l with st := .retired, busy := none, again := false }
      ready := match l.busy with
        | some r => (match r.what.job with
          | .ltest _ => s.ready
          | _ => s.ready ++ [{ r.what with rerun := true }])
        | none => s.ready }
    let s := ((s.inc pk R.LN_CNT.fail_count).raise 40)
    let s := match l.st with
      | .inService => s.laneSubst
      | .spare => if s.spareLane.isNone then s.poolEmpty 1 else s
      | _ => s
    let s := if s.lanesIn.isEmpty then s.assertOn 41 else s
    s.dispatchNow

/-- Has a job overrun the earlier of its deadline and its predicted completion plus a quarter of its predicted execution time
(R193)? (DEDUCED, log 39) -/
def State.overrun (s : State) (r : Running) : Bool :=
  decide (4 * r.fin + (r.fin - r.start) < 4 * s.now)
    || (match r.what.deadline with | some d => decide (d < s.now) | none => false)

/-- A lane is free again; a self-test that it missed is repeated now (R189). -/
def State.laneFree (s : State) (i : Fin 8) : State :=
  let s := s.freeLane i
  if (s.lanes[i]).again && s.jobAllowed (.ltest i) && !(s.ready.any fun r => r.job == .ltest i) then
    ({ s with lanes := upd s.lanes i { s.lanes[i] with again := false } } : State).rel (.ltest i)
  else s

/-- A running job completes on its lane: its outputs, its saturation, its trace record, and the next dispatch; it computes with
the set and the banks of its start. One that comes after its limit has failed its lane, and publishes nothing (R193). A job
that runs nowhere completes nothing. (DEDUCED, logs 15, 39) -/
def State.finish (s : State) (j : JobId) (eff : Running → State → State × Bool) : State :=
  match s.laneOf j with
  | none => s
  | some i =>
    match (s.lanes[i]).busy with
    | none => s
    | some r =>
      if s.overrun r then s.laneFail i
      else
        let now := s.jobSet j
        let (s, sat) := eff r (s.useSet j (r.setB, r.banks))
        let s := s.useSet j now
        let s := s.saturated j sat
        let s := s.laneFree i
        let s := traceRun jobInputs j r.what sat (s.nodeVal j sat r.inp) s
        s.dispatchNow

/-- CUR. -/
def State.curJob (s : State) (n : Mcn) : State := s.finish (.cur n) fun r s => s.curDone n r.inp r.fin
/-- OBS. -/
def State.obsJob (s : State) (n : Mcn) : State := s.finish (.obs n) fun r s => s.obsDone n r.inp
/-- SPD. -/
def State.spdJob (s : State) (n : Mcn) : State := s.finish (.spd n) fun r s => s.spdDone n r.inp r.what.release
/-- POS. -/
def State.posJob (s : State) (n : Mcn) : State := s.finish (.pos n) fun r s => s.posDone n r.inp r.what.release

/-- PROF (R222): the profile advances over the time since its previous run; POS follows for a motor axis in POSITION. -/
def State.profJob (s : State) (a : Axis) : State :=
  let ran := (s.laneOf (.prof a)).isSome
  let s := s.finish (.prof a) fun r s =>
    let at_ := (nth r.inp 0 0).toNat
    let last := (s.ax a).lastAt
    let dt := if last = 0 ∨ at_ < last then 0 else at_ - last
    let k := (nth r.inp 1 0).toNat
    let s := match a with
      | .mc n => s.profMotor n k dt
      | .st c => s.profStepper c k dt
    -- positions and their differences saturate at 64 bits (R6, R174)
    let x := s.ax a
    let past := decide (sat64 x.p ≠ x.p) || (x.st != .idle && decide (sat64 (x.tgt - x.p) ≠ x.tgt - x.p))
    (s.modAx a fun x => { x with p := sat64 x.p, lastAt := at_ }, past)
  match a with
  | .mc n => if ran then s.relIf (.pos n) else s
  | .st _ => s

/-- CCUR (R284, R286). -/
def State.ccurJob (s : State) (n : Mcn) : State :=
  let ran := (s.laneOf (.ccur n)).isSome
  let s := s.finish (.ccur n) fun r s => (s.isetTarget n).ccurDone n r.inp r.fin
  if ran && s.cvoltDue n then (s.modConv n fun c => { c with cycles := 0 }).relIf (.cvolt n) else s

/-- CVOLT. -/
def State.cvoltJob (s : State) (n : Mcn) : State := s.finish (.cvolt n) fun r s => s.cvoltDone n r.inp r.what.release

/-- THERM of a cluster or of a region. -/
def State.thermJob (s : State) (o : Mcn ⊕ Rg) : State :=
  match o with
  | .inl n => s.finish (.thermM n) fun r s => s.thermMotor n r.inp
  | .inr g => s.finish (.thermR g) fun r s => s.thermRegion g r.inp

/-! ## Conversion results (R112, R115, R116, R130) -/

/-- The three currents of a motor cluster's sample reach their registers, the lanes, the models and the estimation
block. -/
def State.currentsReady (s : State) (n : Mcn) (u v w : Nat) (spare : Option Nat) : State :=
  let g := mcG n
  if (s.grp[g]).held = 0 then s
  else
    let s := s.modGrp g fun x => { x with held := 0 }
    let s := ((s.currentResult n 0 u).currentResult n 1 v).currentResult n 2 w
    let s := s.offsetSample n [(0, u), (1, v), (2, w)] spare
    let s := s.modelSample n
    let s := s.deliver n
    let s := s.measureAxis n
    (s.estSample n).modMc n fun m => { m with sampleNew := true }

/-- One phase current of a converter. -/
def State.currentReady (s : State) (n : Mcn) (p : Fin 3) (code : Nat) (spare : Option Nat) : State :=
  if bitAt (s.grp[mcG n]).held p.val then
    let s := ((s.currentResult n p code).offsetSample n [(p, code)] spare).convSample n p
    -- the last sample of a switching cycle feeds the models
    if (s.grp[mcG n]).held = 0 then (s.modelSample n).modMc n fun m => { m with sampleNew := true } else s
  else s

end Sys2Proof.Machine
end

