-- ==== Sys2Proof/Machine/Graticule.lean ====
section
/-! DEFINITION. The firing of graticule entries (02_datum_and_graticule R56 to R65, R95, R173) and the conversion results
of the sequence slices (04_current_and_voltage_sensing R112, R124, R130, R131). -/

namespace Sys2Proof.Machine

/-- The edge time of a live entry becomes committed 2 µs before it falls due (R56). -/
def State.edgeCommit (s : State) (n : Mcn) (k : Fin 64) : State :=
  s.modEntry n k fun e => if e.live && s.within2us e.edge then { e with committed := true } else e

/-- A test pulse on a switch (R58): a switch that is off turns on, until the width has passed. A pulse on a switch that is on,
and one of width 0, which the table does not admit, change nothing. (DESIGN CHOICE, log 30) -/
def State.testPulse (s : State) (n : Mcn) (sw : Fin 6) (width : Nat) : State :=
  if s.swOn n sw ∨ width = 0 then s
  else (s.turnOn (swOut n sw)).modMc n fun m => { m with pulse := m.pulse ++ [(sw, s.now + 4 * width)] }

/-- The test pulses that end within the time that has passed, each at its own tick. (DESIGN CHOICE, log 30) -/
def State.pulseEnds (s : State) : State :=
  s.each allMc fun n s =>
    let past (x : Fin 6 × Nat) : Bool := decide (x.2 ≤ s.now)
    let s1 := s.each ((s.mc[n]).pulse.filter past) fun x s =>
      { ({ s with now := x.2 } : State).turnOff (swOut n x.1) with now := s.now }
    s1.modMc n fun m => { m with pulse := m.pulse.filter fun x => !past x }

/-- What a firing does by its type (R58, R95, R121, R123, R173). -/
def State.gAction (s : State) (n : Mcn) (k : Fin 64) : State :=
  let a := s.gf n k R.MC_GRAT_CTL.param_a
  let g := mcG n
  match s.gf n k R.MC_GRAT_CTL.type with
  | 1 => if a ≤ 5 ∧ !s.foc n ∧ s.st n R.MC_PWM_CTRL.block_src = 1 then s.sectorSet n a else s
  | 2 =>
    let b := s.seqB g
    if a = 0 ∧ s.f b R.SEQ_CFG.reg_trig = 6 then s.seqTrigger g false
    else if a = 1 ∧ s.f b R.SEQ_CFG.inj_trig = 6 then s.seqTrigger g true
    else s
  | 3 => if a ≤ 2 then s.modGrp g fun x => { x with urgent := x.urgent ++ [(s.now, .grat a)] } else s
  | 4 => if h : a < 6 then s.testPulse n ⟨a, h⟩ (s.gf n k R.MC_GRAT_CTL.step_or_b) else s
  | 5 => s.modPwm n fun w => { w with heldAdv := w.advance }
  | 6 => if a ≤ 5 then s.modGrp g fun x => { x with urgent := x.urgent ++ [(s.now, .grat (4 + a))] } else s
  | 7 =>
    if a = 3 ∧ s.setFld n R.MC_LOOP_CFG.spd_src = 1 then s.relIf (.spd n)
    else if a = 9 then s.relIf (.atlas n)
    else s
  | 8 => s.raise (evMc n 2)
  | _ => s

/-- Types whose step_or_b is a step (R62). -/
def gStep (type step : Nat) : Nat := if type = 2 ∨ type = 6 ∨ type = 7 ∨ type = 8 then step else 0

/-- The target of a periodic entry advances along the rotation, and the entry's state follows it (R62). -/
def State.gAdvance (s : State) (n : Mcn) (k : Fin 64) (step : Nat) : State :=
  let m := s.mc[n]
  let d : Int := step * 65536
  let s := s.modEntry n k fun e =>
    { e.spend with target := uns 32 ((e.target : Int) + (if m.dat.rev then -d else d)) }
  match s.gTarget n k with
  | none => s
  | some tgt =>
    if liveAt (ahead m.dat.rev (m.dat.at s.now16) tgt) then
      let s := s.modEntry n k fun e => { e with live := true }
      if m.dat.predicted then s.gPredict n k else s
    else s

/-- The bit of MC_GRAT_FIRED of an entry. -/
def State.gFired (s : State) (n : Mcn) (k : Fin 64) : State :=
  let key := mcB n + (if k.val < 32 then R.MC_GRAT_FIRED_LO.reg else R.MC_GRAT_FIRED_HI.reg)
  s.setWord key (setBit (s.word key) (k.val % 32) true)

/-- The tick at which a live entry fires, once that has come: its edge time, or without one the present tick where the latest
datum update shows its angle reached (R54, R56, R60). -/
def State.gDue (s : State) (n : Mcn) (k : Fin 64) : Option Nat :=
  let m := s.mc[n]
  let e := m.grat[k]
  if s.gOn n k ∧ e.live ∧ m.dat.valid then
    match s.gTarget n k with
    | none => none
    | some tgt =>
      match e.edge with
      | some t => if t / 16 ≤ s.now then some (t / 16).toNat else none
      | none => if ahead m.dat.rev m.dat.angle tgt = 0 then some s.now else none
  else none

/-- A live entry that is due fires (R57 to R64). A periodic one that does not act advances its target like one that does.
(DESIGN CHOICE, log 30) -/
def State.gFire1 (s : State) (n : Mcn) (k : Fin 64) : State :=
  if (s.gDue n k).isSome then
    let e := (s.mc[n]).grat[k]
    let tgt := (s.gTarget n k).getD 0
    let type := s.gf n k R.MC_GRAT_CTL.type
    let step := gStep type (s.gf n k R.MC_GRAT_CTL.step_or_b)
    let acts := s.gActs n k
    let merged : Bool := step != 0 && (match e.lastFire with | some t => decide (s.now16 - t < 8000) | none => false)
    let s := s.modEntry n k GEntry.spend
    let s :=
      if merged then s.inc (mcB n) R.MC_GRAT_STAT.coalesce_count
      else if acts then
        let s := if e.late then (s.inc (mcB n) R.MC_GRAT_STAT.late_count).raise (evMc n 1) else s
        let s := (s.gFired n k).modEntry n k fun e => { e with lastFire := some s.now16 }
        let s := s.gAction n k
        if type = 1 then (s.modMc n fun m => { m with ref2 := some tgt }).refMoved n 2 (some k) else s
      else s
    if step = 0 then s else s.gAdvance n k step
  else s

/-- An entry falls due: the entries of lower number that fall due on the same tick act before it (R63).
(DESIGN CHOICE, log 30) -/
def State.gFire (s : State) (n : Mcn) (k : Fin 64) : State :=
  let at_ := s.gDue n k
  let s := if at_.isSome then
      s.each (allK.filter fun j => decide (j.val < k.val) && s.gDue n j == at_) fun j s => s.gFire1 n j
    else s
  s.gFire1 n k

/-- The COMMUTATE entries that are due act before an event of the PWM unit on the same tick (R63). -/
def State.commuteDue (s : State) (n : Mcn) : State :=
  s.each (allK.filter fun j => s.gf n j R.MC_GRAT_CTL.type == 1) fun j s => s.gFire1 n j

/-! ## Sequence and graticule results -/

/-- Vds and VLO channels among the results of a motor group's sequences (R280, R300). -/
def State.channelUse (s : State) (g : Grp) (entry code : Nat) : State :=
  match grpMc g with
  | some n =>
    let c := entry % 64
    if h : 4 ≤ c ∧ c < 10 then s.vdsResult n ⟨c - 4, by omega⟩ code
    else if c = 0x13 then s.vloResult n code
    else s
  | none => s

/-- A regular result of a group. -/
def State.regularReady (s : State) (g : Grp) (k code : Nat) : State :=
  match s.slotOf g (fun c => match c with | .reg j _ _ => j == k | _ => false) with
  | none => s
  | some i =>
    match (s.grp[g]).slot[i] with
    | some (.reg _ e pass, by_) =>
      ((s.clearSlot g i).seqResult g R.SEN_RES_REG.reg k e (k * 128 + pass) code by_).channelUse g e code
    | _ => s

/-- An injected result of a group. -/
def State.injectedReady (s : State) (g : Grp) (k code : Nat) : State :=
  match s.slotOf g (fun c => match c with | .inj j _ _ => j == k | _ => false) with
  | none => s
  | some i =>
    match (s.grp[g]).slot[i] with
    | some (.inj _ e pass, by_) =>
      ((s.clearSlot g i).seqResult g R.SEN_RES_INJ.reg k e (0x800 + k * 128 + pass) code by_).channelUse g e code
    | _ => s

/-- The result of a BEMF_SAMPLE or VDS_MEAS conversion (R124): never to DMA. The hold lies 160 ns back. -/
def State.graticuleReady (s : State) (g : Grp) (code : Nat) : State :=
  match s.slotOf g (fun c => match c with | .grat _ => true | _ => false) with
  | none => s
  | some i =>
    match (s.grp[g]).slot[i], grpMc g with
    | some (.grat ch, by_), some n =>
      let x := s.grp[g]
      let w := resultWord code by_ (0x800 + 0xB * 128 + x.gratPass)
      let s := (s.clearSlot g i).setWord (grpB g + R.SEN_RES_GRAT.reg) w
      let s := s.modGrp g fun x => { x with gratPass := (x.gratPass + 1) % 128 }
      if ch ≤ 2 then s.bemf n ch code (s.now - 80) else s.channelUse g ch code
    | _, _ => s

/-- The result of one of the tracker's conversions (R152). The hold lies 160 ns back. -/
def State.trackReady (s : State) (g : Grp) (code : Nat) : State :=
  match s.slotOf g (fun c => match c with | .track _ => true | _ => false), grpMc g with
  | some i, some n =>
    match (s.grp[g]).slot[i] with
    | some (.track p, _) => (s.clearSlot g i).trackerResult n p code (s.now - 80)
    | _ => s
  | _, _ => s

/-- A conversion result is ready (R112, R130, R131). (DESIGN CHOICE, log 34) -/
def State.resultReady (s : State) (g : Grp) (r : Result) : State :=
  match r with
  | .regular k c => s.regularReady g k.val c.toNat
  | .injected k c => s.injectedReady g k.val c.toNat
  | .graticule c => s.graticuleReady g c.toNat
  | .tracker c => s.trackReady g c.toNat
  | .currents u v w sp =>
    match grpMc g with
    | some n => if s.conv n then s else s.currentsReady n u.toNat v.toNat w.toNat (sp.map (·.toNat))
    | none => s
  | .current p c sp =>
    match grpMc g with
    | some n => if s.conv n then s.currentReady n p c.toNat (sp.map (·.toNat)) else s
    | none => s

end Sys2Proof.Machine
end

