-- ==== Sys2Proof/Machine/Atlas.lean ====
section
/-! DEFINITION. The atlas store and its pager (07_atlas_paging R201 to R219; 06_control_lanes R183 to R186). -/

namespace Sys2Proof.Machine

/-! ## What a write stores (field tables of every chapter) -/

/-- The value a rule of a field's table gives in place of a written one. -/
def StoreRule.apply (r : StoreRule) (v : Nat) : Nat :=
  match r with
  | .below a x => if v < a then x else v
  | .above a x => if a < v then x else v
  | .eq a x => if v = a then x else v
  | .refuseAbove _ => v
  | .clampMargin => (clampI 0 67108864 (sgn 32 v)).toNat

/-- The value stored in a field. (DEDUCED, log 75) -/
def FDesc.stored (f : FDesc) (v : Nat) : Nat := f.rules.foldl (fun v r => r.apply v) v

/-- A word as a register write would clamp it (R206). (DEDUCED, log 75) -/
def RDesc.clampWord (d : RDesc) (w : Nat) : Nat :=
  d.fields.foldl (fun n f => n + f.stored (bitsAt w f.lo f.w) % 2 ^ f.w * 2 ^ f.lo) 0

/-- The table row of an offset of a motor operating set. -/
def setRow (off : Nat) : Option RDesc := (rowIn off (tables (.mcSet 0 false))).map (·.1)

/-! ## The store (R201 to R204) -/

def sheetAddr (n : Nat) : Nat := 0x400000 + n * 256
def State.sheetWord (s : State) (n i : Nat) : Nat := (s.word (sheetAddr n + i)).toNat

/-- State of a sheet: 0 FREE, 1 LOADED, 2 BAD, 3 CHECKING. -/
def State.sheetSt (s : State) (n : Nat) : Nat := bitsAt (s.word (0x9100 + n / 16)).toNat (2 * (n % 16)) 2

/-- The state of a sheet set; n_loaded follows. -/
def State.setSheet (s : State) (n st : Nat) : State :=
  let old := s.sheetSt n
  let f : Fld := ⟨0x9100 + n / 16, 2 * (n % 16), 2⟩
  let s := s.setF 0 f st
  let c := s.f pk R.ATL_STAT.n_loaded
  s.setF pk R.ATL_STAT.n_loaded (c + b2n (st == 1) - b2n (old == 1))

/-- Does a word of an index name a sheet (R207)? -/
def idxNames (w n : Nat) : Bool :=
  (bitAt w 12 && bitsAt w 0 12 == n) || (bitAt w 28 && bitsAt w 16 12 == n)

/-- Is a key a word of an index of an operating set? -/
def isIdx (key : Nat) : Bool :=
  match locate key with
  | (.mcSet _ _, o) => key < 0x1000000 && 0x2000 ≤ o && o < 0x2200
  | _ => false

/-- Is a sheet in use (R203)? -/
def State.sheetInUse (s : State) (n : Nat) : Bool :=
  s.store.any (fun (k, w) => isIdx k && idxNames w.toNat n)
    || allMc.any fun m =>
      let a := (s.mc[m]).atl
      let held : Cells := match a.held with | some h => h.cells | none => []
      let next : Cells := match a.swap with | some h => h.cells | none => []
      (a.act ++ held ++ next).any fun c => c.2 == some n

/-- A host write of one word of the window (R203). -/
def State.sheetWrite (s : State) (off : Nat) (w : Word) : State :=
  let n := off / 256
  if s.sheetSt n = 3 ∨ s.sheetInUse n then s.answer .sheetBusy
  else
    -- a sheet that the host rewrites comes no longer from the running image (R217)
    let s := { s.setWord (0x400000 + off) w with imgSheets := s.imgSheets.filter fun p => p.1 != n }
    (if s.sheetSt n = 0 then s else s.setSheet n 0).answer .ok

/-- Test 1 of R204 by content: the checksum. -/
def State.sheetCrcOk (s : State) (n : Nat) : Bool :=
  crc32Words ((List.range 255).map (s.sheetWord n)) == s.sheetWord n 255

/-- Words of a sheet that are reserved (R205). -/
def sheetReserved : List Nat := (List.range 6).map (· + 0x0A) ++ [0xDE, 0xDF] ++ (List.range 15).map (· + 0xF0)

/-- Does a sheet carry section k? -/
def State.carries (s : State) (n k : Nat) : Bool := bitAt (s.sheetWord n 0) (8 + k)

/-- Non-decreasing. -/
def ascending : List Int → Bool
  | [] => true
  | a :: rest => (match rest with | [] => true | b :: _ => decide (a ≤ b)) && ascending rest

/-- Test 3. -/
def State.sheetOrder (s : State) (n : Nat) : Bool :=
  (!s.carries n 1 || ascending ((List.range 64).map fun j => (s.sheetWord n (0x10 + j) : Int)))
    && (!s.carries n 2 || ascending ((List.range 64).map fun j => -sgn 32 (s.sheetWord n (0x50 + j))))

/-- The machine parameters and gains of an OBS section, or of a set: rs, ld, lq, psi, pll word (test 4, R147). -/
def obsGainOk (rs ld lq psi pll : Nat) : Bool :=
  let bw := bitsAt pll 0 12
  let zeta := bitsAt pll 12 8
  let k := bitsAt pll 20 12
  rs != 0 && ld != 0 && lq != 0 && psi != 0 && decide (ld ≤ lq) && decide (1 ≤ bw) && decide (50 ≤ zeta)
    && decide (zeta ≤ 200) && decide ((k : Int) * fxOne ≤ piFx * bw)

/-- Test 4. -/
def State.sheetObs (s : State) (n : Nat) : Bool :=
  let p (i : Nat) : Nat := s.sheetWord n (0xD0 + i) % 2 ^ 24
  !s.carries n 4 || obsGainOk (p 0) (p 1) (p 2) (p 3) (s.sheetWord n 0xD4)

/-- The first test of R204 that a sheet fails, as the result code; 1 is OK. -/
def State.sheetTest (s : State) (n : Nat) : Nat :=
  if !s.sheetCrcOk n then 2
  else if s.sheetWord n 0 % 256 ≠ 1 ∨ sheetReserved.any (fun i => s.sheetWord n i != 0) then 3
  else if !s.sheetOrder n then 4
  else if !s.sheetObs n then 5
  else 1

/-- A sheet check begins or is refused (R204). -/
def State.sheetCheck (s : State) (n : Nat) : State :=
  let s := s.setF pk R.ATL_CMD.sheet n
  if s.fb pk R.ATL_CMD.busy ∨ s.sheetInUse n then s.setF pk R.ATL_CMD.result 6
  else
    let s := (s.setF pk R.ATL_CMD.busy 1).setF pk R.ATL_CMD.result 0
    { s.setSheet n 3 with atlChk := some n }

/-- A row group flagged to the steward. -/
def State.flagRow (s : State) (n : Nat) : State :=
  if s.rowFlags.contains (n / 8) then s else { s with rowFlags := s.rowFlags ++ [n / 8] }

/-- The unit in service for a row group. -/
def State.rowUnit (s : State) (g : Nat) : Nat := 0xA000 + ((s.rowMap.find? (fun p => p.1 == g)).map (·.2)).getD g

/-- A corrected single-bit error in a sheet (R201, R216, R331). -/
def State.eccCorrected (s : State) (k : Nat) : State :=
  let s := (s.inc pk R.ATL_CNT.ecc_corr).wear (s.rowUnit (k / 8))
  if s.worn (s.rowUnit (k / 8)) then s.flagRow k else s

/-- The check ends (R204), with the ECC errors that its reading met. -/
def State.sheetCheckDone (s : State) (ecc : Ecc) : State :=
  match s.atlChk with
  | none => s
  | some n =>
    let s : State := { s.setF pk R.ATL_CMD.busy 0 with atlChk := none }
    let s := s.each (ecc.filter fun e => e.1.val == n && !e.2) fun _ s => s.eccCorrected n
    if ecc.any fun e => e.1.val == n && e.2 then
      (((s.setF pk R.ATL_CMD.result 2).setSheet n 2).inc pk R.ATL_CNT.uncorr).flagRow n
    else
      let r := s.sheetTest n
      (s.setF pk R.ATL_CMD.result r).setSheet n (if r = 1 then 1 else 0)

/-! ## Banks (R183, R205, R206, R210, R211) -/

/-- The words of a sheet that belong to a bank group: word of the sheet, section, set offset. -/
def sheetMap (g : Fin 4) : List (Nat × Nat × Nat) :=
  let run (w sec off n : Nat) : List (Nat × Nat × Nat) := (List.range n).map fun i => (w + i, sec, off + i)
  match g with
  | 0 => run 1 0 R.MC_LP_KP.reg 4 ++ run 5 0 (R.MC_LP_KP.reg + 8) 4 ++ [(9, 0, R.MC_FF_BUS_K.reg)]
      ++ run 0x10 1 R.MC_FC_ADV.reg 64 ++ run 0x50 2 R.MC_FC_ID.reg 64 ++ run 0x90 3 R.MC_FC_MARG.reg 64
      ++ run 0xE0 7 R.MC_TH_ESW.reg 16
  | 1 => run 0xD0 4 R.MC_OBS_RS.reg 5
  | 2 => run 0xD5 5 (R.MC_LP_KP.reg + 16) 4 ++ [(0xD9, 5, R.MC_FF_ACC_K.reg)]
  | 3 => run 0xDA 6 (R.MC_LP_KP.reg + 24) 4

/-- Subfields of a set word for blending: low bit, width, signed (R211). -/
def subFields (off : Nat) : List (Nat × Nat × Bool) :=
  if R.MC_TH_ESW.reg ≤ off ∧ off < R.MC_TH_ESW.reg + 16 then [(0, 16, false), (16, 16, false)]
  else if R.MC_FC_ID.reg ≤ off ∧ off < R.MC_FC_ID.reg + 64 then [(0, 32, true)]
  else
    match setRow off with
    | some d => d.fields.map fun f => (f.lo, f.w, off == R.MC_FF_BUS_K.reg || off == R.MC_FF_ACC_K.reg)
    | none => [(0, 32, false)]

/-- The value a cell contributes to a set word. -/
def State.cellWord (s : State) (base : Nat) (c : Option Nat) (w sec off : Nat) : Nat :=
  match c with
  | some n =>
    if s.carries n sec then
      match setRow off with
      | some d => d.clampWord (s.sheetWord n w)
      | none => s.sheetWord n w
    else (s.word (base + off)).toNat
  | none => (s.word (base + off)).toNat

/-- The weighted sum of a set word over the cells (R211). -/
def State.blendWord (s : State) (base : Nat) (cells : Cells) (w sec off : Nat) : Word :=
  let one (lo width : Nat) (sg : Bool) : Nat :=
    let sum := cells.foldl (fun (x : Int) c =>
      let v := bitsAt (s.cellWord base c.2 w sec off) lo width
      x + c.1 * (if sg then sgn width v else (v : Int))) 0
    uns width (rdiv sum 64) * 2 ^ lo
  BitVec.ofNat 32 ((subFields off).foldl (fun n (lo, width, sg) => n + one lo width sg) 0)

/-- A bank group filled with a target over a set (R206, R211). -/
def State.bankOf (s : State) (base : Nat) (cells : Cells) (g : Fin 4) : Bank :=
  ((sheetMap g).filter fun (_, sec, _) => cells.any fun c => match c.2 with | some n => s.carries n sec | none => false).map
    fun (w, sec, off) => (off, s.blendWord base cells w sec off)

/-! ## The index (R207 to R212) -/

/-- Entry of a cell: the sheet it names, if any. -/
def State.idxEntry (s : State) (base sp l t : Nat) : Option Nat :=
  let e := t * 256 + l * 16 + sp
  let w := (s.word (base + R.MC_ATL_IDX.reg + e / 2)).toNat
  let h := bitsAt w (16 * (e % 2)) 13
  if bitAt h 12 then some (h % 4096) else none

/-- Bin of an axis with hysteresis (R209): x and width in one unit, present bin. -/
def binOf (x w : Int) (top hyst : Nat) (old : Option Nat) : Nat :=
  let w := if w ≤ 0 then 1 else w
  let fresh := (clampI 0 top (x / w)).toNat
  match old with
  | none => fresh
  | some b =>
    let h := (hyst : Int) * w
    if 16 * (x - (b + 1) * w) ≥ h ∨ 16 * (b * w - x) ≥ h then fresh else Nat.min b top

/-- Lower neighbour and weight in eighths of an axis with blending (R210). -/
def blendOfAxis (x w : Int) (top : Nat) (old : Option Nat) : Nat × Nat :=
  let w := if w ≤ 0 then 1 else w
  if top = 0 then (0, 0)
  else
    let i0 := clampI 0 (top - 1 : Nat) ((2 * x - w) / (2 * w))
    let num := clampI 0 (2 * w) (2 * x - w - 2 * w * i0)
    let q := (rdiv (8 * num) (2 * w)).toNat
    let q := match old with
      | some o => if 3 * (2 * w) ≤ ((32 * num - 4 * o * (2 * w)).natAbs : Int) then q else o
      | none => q
    (i0.toNat, q)

/-- Temperature edges reached, with their 2 K hysteresis (R209). -/
def State.edgesOf (s : State) (base : Nat) (t : Int) (old : Nat) : Nat :=
  let cnt := s.f base R.MC_ATL_CFG.n_temp
  let e : List Fld := [R.MC_ATL_TEDGE.t_edge0, R.MC_ATL_TEDGE.t_edge1, R.MC_ATL_TEDGE.t_edge2]
  (List.range cnt).foldl (fun m i =>
    let lim : Int := sgn 10 (s.f base (nth e i R.MC_ATL_TEDGE.t_edge0)) * 32
    let on := decide (lim ≤ t) || (bitAt old i && decide (lim - 128 ≤ t))
    m + b2n on * 2 ^ i) 0

/-- An evaluation of an index at a point: speed Q16.16 Hz, load Q3.28, temperature 1/64 °C. -/
def State.evaluate (s : State) (base : Nat) (x l t : Int) (bins : Option (Nat × Nat × Nat × Nat)) (edges : Nat) :
    Fill × Nat × Nat :=
  let f (fl : Fld) : Nat := s.f base fl
  let ws : Int := (f R.MC_ATL_AXIS.spd_w : Int) * 4096
  let wl : Int := (f R.MC_ATL_AXIS.load_w : Int) * 65536
  let ns := f R.MC_ATL_CFG.n_spd
  let nl := f R.MC_ATL_CFG.n_load
  let ed := s.edgesOf base t edges
  let tb := Nat.min (popc ed) (f R.MC_ATL_CFG.n_temp)
  if f R.MC_ATL_CFG.blend = 1 then
    let (i, qs) := blendOfAxis x ws ns (bins.map fun b => b.2.2.1)
    let (j, ql) := blendOfAxis l wl nl (bins.map fun b => b.2.2.2)
    let cell (a b w : Nat) : Cells := if w = 0 then [] else [(w, s.idxEntry base (i + a) (j + b) tb)]
    let cells := cell 0 0 ((8 - qs) * (8 - ql)) ++ cell 1 0 (qs * (8 - ql)) ++ cell 0 1 ((8 - qs) * ql) ++ cell 1 1 (qs * ql)
    (⟨cells, 0, i, j, qs, ql, s.idxEntry base i j tb⟩, tb, ed)
  else
    let h := f R.MC_ATL_CFG.hyst
    let i := binOf x ws ns h (bins.map (·.1))
    let j := binOf l wl nl h (bins.map fun b => b.2.1)
    (⟨[(64, s.idxEntry base i j tb)], 0, i, j, 0, 0, s.idxEntry base i j tb⟩, tb, ed)

/-- The sheets of a target. -/
def Cells.sheets (c : Cells) : List Nat := c.filterMap (·.2)

/-- Is a swap that includes the cluster pending? -/
def State.swapPend (s : State) (c : Cl) : Bool :=
  (s.cl[c]).swapPending || (match s.dev.swap with | some (m, _) => bitAt m c.val | none => false)

/-- The ATLAS job completes (R212, R213): evaluation at the predicted point, and a fill where the target is new.
(DEDUCED, log 41) -/
def State.atlasDone (s : State) (n : Mcn) (inp : List Int) : State × Bool :=
  let g (k : Nat) : Int := nth inp k 0
  let base := s.act n
  let b := mcB n
  let a : Pager := (s.mc[n]).atl
  let h : Int := s.f base R.MC_ATL_TIME.pf_horizon
  let x := Fx.of (g 0 + rdiv (g 1 * h) 10)
  let l := match a.prev with
    | some (l0, t0) => if (t0 : Int) < g 4 then Fx.of (g 2 + rdiv ((g 2 - l0) * h * 50000) (g 4 - t0)) else Fx.of (g 2)
    | none => Fx.of (g 2)
  let (f, tb, ed) := s.evaluate base x.v.natAbs l.v (g 3) a.bins a.edges
  let f : Fill := { f with due := s.now + 500 * s.f base R.MC_ATL_TIME.fill_budget }
  let s := s.modAtl n fun a => { a with
    bins := some (f.sBin, f.lBin, f.qs, f.ql), edges := ed, prev := some (g 2, (g 4).toNat) }
  let s := ((s.setF b R.MC_ATL_STAT.s_bin f.sBin).setF b R.MC_ATL_STAT.l_bin f.lBin).setF b R.MC_ATL_STAT.t_bin tb
  let s := s.setF b R.MC_ATL_STAT.blended (b2n (decide (1 < f.cells.length)))
  let heldSame : Bool := (a.held.map (·.cells)) == some f.cells
  let s :=
    if f.cells = a.act ∨ heldSame ∨ a.held.isSome ∨ a.fill.isSome then s
    else if f.cells.sheets.any fun k => s.sheetSt k != 1 then s
    else if s.swapPend (mcCl n) then s.inc b R.MC_ATL_CNT.refused
    else (s.modAtl n fun a => { a with fill := some f, dueAt := none }).setF b R.MC_ATL_STAT.fill_busy 1
  (s, x.sat || l.sat)

/-- The ATLAS job of a cluster. -/
def State.atlasJob (s : State) (n : Mcn) : State := s.finish (.atlas n) fun r s => s.atlasDone n r.inp

/-- A sheet fails test 1 at a page-in (R216). -/
def State.sheetFail (s : State) (n : Mcn) (k : Nat) : State :=
  let s := (s.setSheet k 2).inc (mcB n) R.MC_ATL_CNT.crc_count
  ((s.inc pk R.ATL_CNT.uncorr).raise (evMc n 16)).flagRow k

/-- The fill is over: its flags clear. -/
def State.fillEnd (s : State) (n : Mcn) : State :=
  let b := mcB n
  ((s.modAtl n fun a => { a with fill := none, dueAt := none }).setF b R.MC_ATL_STAT.fill_busy 0).setF b R.MC_ATL_STAT.critical 0

/-- A sheet is read for a fill or a copy and checked by test 1 of R204 (R201, R216): each corrected error counts; and whether it
passes. -/
def State.readSheet (s : State) (ecc : Ecc) (k : Nat) : State × Bool :=
  let mine := ecc.filter fun e => e.1.val == k
  let s := s.each (mine.filter fun e => !e.2) fun _ s => s.eccCorrected k
  (s, s.sheetCrcOk k && !mine.any (·.2))

/-- The sheets of a fill, one after the other; the first that fails ends it (R216). -/
def readSheets (ecc : Ecc) : List Nat → State → State × Option Nat
  | [], s => (s, none)
  | k :: ks, s =>
    let (s, ok) := s.readSheet ecc k
    if ok then readSheets ecc ks s else (s, some k)

/-- The due boundary of a fill has come before it is complete (R215): a miss, once, and the rest is critical traffic. -/
def State.sheetMiss (s : State) (n : Mcn) : State :=
  let b := mcB n
  let a : Pager := (s.mc[n]).atl
  if a.fill.isSome ∧ a.dueAt.isSome ∧ !s.fb b R.MC_ATL_STAT.critical then
    ((s.inc b R.MC_ATL_CNT.miss_count).setF b R.MC_ATL_STAT.critical 1).raise (evMc n 15)
  else s

/-- A fill completes (R213 to R216), with the ECC errors that its reads met. After its due boundary it is a miss, and the next
sample boundary takes that one's place. (DEDUCED, log 41) -/
def State.fillComplete (s : State) (n : Mcn) (ecc : Ecc) : State :=
  match (s.mc[n]).atl.fill with
  | none => s
  | some f =>
    let b := mcB n
    let s := s.sheetMiss n
    let late := s.fb b R.MC_ATL_STAT.critical
    let (s, bad) := readSheets ecc f.cells.sheets s
    let s := s.fillEnd n
    match bad with
    | some k => s.sheetFail n k
    | none =>
      let base := s.act n
      let changed := allG.filter fun g => s.bankOf base f.cells g != ((s.mc[n]).banks[g])[if s.idle n g = 0 then (1 : Fin 2) else 0]
      if changed = [] then s.showAct n f
      else
        let s := s.each changed fun g s =>
          (s.setBank n g (s.idle n g) (s.bankOf base f.cells g)).bankBit n R.MC_LOOP_BANK.pending g true
        let f := if late then { f with due := s.now } else f
        (s.modAtl n fun a => { a with held := some f, dueAt := none }).setF b R.MC_ATL_STAT.held 1

/-! ## Set swaps (R185, R218) -/

/-- A pager fill or a held pager bank is discarded. -/
def State.atlDiscard (s : State) (n : Mcn) : State :=
  let a : Pager := (s.mc[n]).atl
  if a.fill.isSome ∨ a.held.isSome then
    let s := s.fillEnd n
    let s := (s.modAtl n fun a => { a with held := none, dueAt := none }).setF (mcB n) R.MC_ATL_STAT.held 0
    (s.setF (mcB n) R.MC_LOOP_BANK.pending 0).inc (mcB n) R.MC_ATL_CNT.refused
  else s

/-- The fill of a set swap (R185, R218): the incoming set with its own index at the present point, with fresh bins, which wait
for the swap. A sheet that fails ends it: the answer is then none. (DEDUCED, log 41) -/
def State.swapFill (s : State) (n : Mcn) (base : Nat) (ecc : Ecc) : State × Bool :=
  let s := s.atlDiscard n
  let active := (s.cl[mcCl n]).st.active
  let take (s : State) (f : Fill) (bins : Option (Nat × Nat × Nat × Nat)) (ed : Nat) (bank : Fin 4 → Bank) : State × Bool :=
    let s := s.each allG fun g s => s.setBank n g (s.idle n g) (bank g)
    let s := s.setF (mcB n) R.MC_LOOP_BANK.pending 15
    (s.modAtl n fun a => { a with swap := some f, swapBins := bins, swapEdges := ed }, true)
  if s.f base R.MC_ATL_CFG.en = 1 then
    let x : Int := if active ∧ !s.conv n then ((s.mc[n]).dat.speedAt s.now16).natAbs else 0
    let l := if active then s.atlLoad n else 0
    let (f, _, ed) := s.evaluate base x l (s.atlTemp n base) none 0
    match readSheets ecc f.cells.sheets s with
    | (s, some k) => (s.sheetFail n k, false)
    | (s, none) => take s f (some (f.sBin, f.lBin, f.qs, f.ql)) ed (s.bankOf base f.cells)
  else take s ⟨[(64, none)], 0, 0, 0, 0, 0, none⟩ none 0 fun _ => []

/-- The banks of a rejected set swap are released (R185). -/
def State.swapRelease (s : State) (n : Mcn) : State :=
  if (s.mc[n]).atl.swap.isSome then
    (s.modAtl n fun a => { a with swap := none }).setF (mcB n) R.MC_LOOP_BANK.pending 0
  else s

/-- All four groups change banks with the set (R28, R185). -/
def State.swapBanks (s : State) (n : Mcn) : State :=
  match (s.mc[n]).atl.swap with
  | some f =>
    let s := s.each allG fun g s => s.bankFlip n g
    (s.showAct n f).modAtl n fun a => { a with swap := none, bins := a.swapBins, edges := a.swapEdges }
  | none => s

/-- The pager at an entry to ARMED: the first evaluation has no derivative (R212). -/
def State.atlArm (s : State) (n : Mcn) : State := s.modAtl n fun a => { a with prev := none }

/-! ## Row groups (R217) -/

/-- The word at an address of the flash, least significant byte first. (DESIGN CHOICE, log 3) -/
def flashByte (m : List Host.Cell) (a : Nat) : Nat :=
  match m.find? (fun c => c.1 == a) with
  | some c => c.2.toNat
  | none => 255
def State.flashWord (s : State) (a : Nat) : Word :=
  BitVec.ofNat 32 (flashByte s.flash a + 256 * flashByte s.flash (a + 1) + 65536 * flashByte s.flash (a + 2)
    + 16777216 * flashByte s.flash (a + 3))

/-- A copied sheet is checked by test 1; one of the running image is reloaded from the flash and checked again.
(DEDUCED, log 41) -/
def State.rowSheet (s : State) (ecc : Ecc) (k : Nat) : State :=
  let st := s.sheetSt k
  if st = 1 ∨ st = 2 then
    let (s, ok) := s.readSheet ecc k
    if ok then s.setSheet k 1
    else
      match s.imgSheets.find? (fun p => p.1 == k) with
      | some (_, a) =>
        let s := s.each (List.range 256) fun i s => s.setWord (sheetAddr k + i) (s.flashWord (a + 4 * i))
        s.setSheet k (if s.sheetCrcOk k then 1 else 2)
      | none => s.setSheet k 2
  else s

/-- The spare row groups that wait (R201): neither in service nor retired. -/
def State.rowSpares (s : State) : List Nat :=
  ((List.range 16).map (· + 512)).filter fun u => !s.rowMap.any (fun p => p.2 == u) && !s.rowDead.contains u

/-- A spare takes the place of a row group; the one that it replaces, if it was a spare itself, is retired.
(DEDUCED, log 49) -/
def State.rowTake (s : State) (g u : Nat) : State :=
  let dead := match s.rowMap.find? (fun p => p.1 == g) with
    | some p => p.2 :: s.rowDead
    | none => s.rowDead
  { s with rowMap := (s.rowMap.filter fun p => p.1 != g) ++ [(g, u)], rowDead := dead }

/-- The steward substitutes the lowest spare for a flagged row group. -/
def State.rowSub (s : State) (g : Nat) (ecc : Ecc) : State :=
  if s.rowFlags.contains g then
    let s : State := { s with rowFlags := s.rowFlags.filter (· != g) }
    match s.rowSpares with
    | [] => s
    | u :: rest =>
      let s := s.rowTake g u
      let s := (s.setF pk R.ATL_STAT.rg_spares rest.length).inc pk R.ATL_CNT.rg_remap
      let s := s.substituted.raise 37
      let s := if rest.isEmpty then s.poolEmpty 10 else s
      s.each (List.range 8) fun i s => s.rowSheet ecc (8 * g + i)
  else s

end Sys2Proof.Machine
end

