-- ==== Sys2Proof/Machine/Agree.lean ====
section
/-! DEFINITION. The agreement checks (01_architecture R31, R36): each reason is judged as the chapter that owns its
fields defines it, and the first failing reason in the order of R31 is reported. -/

namespace Sys2Proof.Machine

/-- What a check of a motor cluster judges: the cluster, the base of the set, the base of its structure words (those
stored at an ARM, those in effect at a swap), the personality put in effect, and its leader's f_async (R294). -/
structure Judge where
  n     : Mcn
  set   : Nat
  str   : Nat
  conv  : Bool
  leadF : Nat

/-- A field of the set under check, and of its structure. -/
def Judge.f (j : Judge) (s : State) (f : Fld) : Nat := s.f j.set f
def Judge.st (j : Judge) (s : State) (f : Fld) : Nat := s.f j.str f
/-- Field k of contour entry i, graticule entry k and other repeated registers: the base moved on. -/
def Judge.fAt (j : Judge) (s : State) (f : Fld) (i : Nat) : Nat := s.f (j.set + i) f

def Judge.family (j : Judge) (s : State) : Nat := j.st s R.MC_PWM_CTRL.family
/-- FOC families, in motor personality. -/
def Judge.foc (j : Judge) (s : State) : Bool := decide (j.family s < 2)
def Judge.scar (j : Judge) (s : State) : Bool := j.f s R.MC_SCAR_CFG.enable == 1
/-- The contour's entries in use: ratio, f_up, f_down (R66, R67). -/
def Judge.entries (j : Judge) (s : State) : List (Nat × Nat × Nat) :=
  (List.range (j.f s R.MC_SCAR_CFG.n_entries)).map fun i =>
    (j.fAt s R.MC_SCAR_ENT.ratio i, j.fAt s R.MC_SCAR_ENT.f_up i, j.fAt s R.MC_SCAR_ENT.f_down i)
/-- Sheets named by valid entries inside the grid of an enabled index (R218). -/
def Judge.sheets (j : Judge) (s : State) : List Nat :=
  if j.f s R.MC_ATL_CFG.en = 1 then
    (List.range (j.f s R.MC_ATL_CFG.n_temp + 1)).flatMap fun t =>
      (List.range (j.f s R.MC_ATL_CFG.n_load + 1)).flatMap fun l =>
        (List.range (j.f s R.MC_ATL_CFG.n_spd + 1)).filterMap fun sp => s.idxEntry j.set sp l t
  else []
/-- The same, LOADED ones only. -/
def Judge.loadedSheets (j : Judge) (s : State) : List Nat := (j.sheets s).filter fun k => s.sheetSt k == 1

/-! ## The checks of a motor cluster, by reason: true says that the rule holds -/

/-- SPEED_RANGE (R4, R67, R92, R208, R248). -/
def Judge.speedRange (j : Judge) (s : State) : Bool :=
  let lim (f : Fld) : Bool := decide (j.f s f ≤ 48000)
  (!j.scar s || (j.entries s).all fun e => decide (e.2.1 ≤ 3000) && decide (e.2.2 ≤ 3000))
    && decide (63 * j.f s R.MC_FC_AXIS.speed_step ≤ 48000)
    && (j.conv ||
      (lim R.MC_EST_REST.speed_rest && lim R.MC_EST_REST.obs_min_speed && lim R.MC_OBS_BLEND.blend_lo
        && lim R.MC_OBS_BLEND.blend_hi && lim R.MC_START_RAMP.ramp_f_end && lim R.MC_STALL_CFG.stall_dspeed
        && (j.f s R.MC_ATL_CFG.en == 0
          || decide ((j.f s R.MC_ATL_CFG.n_spd + 1) * j.f s R.MC_ATL_AXIS.spd_w ≤ 48000))
        && decide (s.f (j.set + 0x1800) R.MO_VMAX.v_max * Nat.max 1 (j.st s R.MC_DAT_CFG.pole_pairs) ≤ 3000 * 65536)))

/-- Longest and shortest duty of a converter at f_async (R282), as fractions of its period in 125 ps. -/
def Judge.dtWindow (j : Judge) (s : State) : Bool :=
  let dead := j.f s R.MC_PWM_DT.dead_time * 16
  let tsw := j.f s R.MC_PWM_WIN.t_sw * 80
  let lo := j.f s R.MC_PWM_WIN.lo_on_min * 80
  if j.conv then
    decide (lo + dead + Nat.max (lo + dead) (2 * (tsw + dead)) < periodTicks (j.f s R.MC_PWM_CARRIER.f_async) * 16)
  else decide (dead + tsw < lo)

/-- CARRIER_RANGE (R67, R78, R82, R83, R294, R312). -/
def Judge.carrierRange (j : Judge) (s : State) : Bool :=
  let f := j.f s R.MC_PWM_CARRIER.f_async
  let (lo, hi) := if j.conv then (20000, 400000) else (4000, 100000)
  let es := j.entries s
  let scar : Bool :=
    !j.conv
      && (es.all fun e => e.1 == 1 || decide (4000 ≤ e.1 * e.2.2))
      && ((es.zip (es.drop 1)).all fun p => decide (p.1.1 * p.2.2.1 ≤ 100000))
      && (match es.getLast? with | some e => e.1 == 1 || decide (e.1 * 3000 ≤ 100000) | none => true)
      && (!(es.any fun e => e.1 == 1)
        || (j.family s == 0 && j.f s R.MC_PWM_MOD.ovm_mode == 1) || decide (2 ≤ j.family s))
  decide (lo ≤ f) && decide (f ≤ hi)
    && decide (16 * lo ≤ f * j.f s R.MC_TH_DR.f_floor) && decide (f * j.f s R.MC_TH_DR.f_floor ≤ 16 * hi)
    && (!j.scar s || scar)
    && (!j.conv || f == j.leadF)
    && (j.st s R.MC_DAT_SYNC.align_en == 0 || s.sync.period * f % 1000000 == 0)

/-- SYNC_RATIO (R67). -/
def Judge.syncRatio (j : Judge) (s : State) : Bool :=
  let es := j.entries s
  let n := es.length
  !j.scar s ||
    (n != 0
      && ((List.range n).all fun i =>
        let e := nth es i (0, 0, 0)
        let p := nth es (i - 1) (0, 0, 0)
        ((decide (3 ≤ e.1) && e.1 % 6 == 3) || (e.1 == 1 && i + 1 == n))
          && decide (e.2.2 < e.2.1)
          && (i == 0 || (decide (e.1 < p.1) && decide (p.2.1 < e.2.1) && decide (p.2.1 < e.2.2)))))

/-- CONTOUR_MONO (R92). (DEDUCED, log 74) -/
def Judge.contourMono (j : Judge) (s : State) : Bool :=
  ascending ((List.range 64).map fun i => (j.fAt s R.MC_FC_ADV.advance i : Int))
    && ascending ((List.range 64).map fun i => -sgn 32 (j.fAt s R.MC_FC_ID.id_ref i))

/-- The rules of R147 on the machine parameters and gains, given as the five words of an OBS section. -/
def Judge.obsWords (j : Judge) (s : State) (w : Vector Nat 5) : Bool :=
  let p (i : Fin 5) : Nat := w[i] % 2 ^ 24
  let bw := bitsAt w[(4 : Fin 5)] 0 12
  let inj : Bool := j.f s R.MC_INJ_CFG.inj_en == 1
  (!j.foc s || (obsGainOk (p 0) (p 1) (p 2) (p 3) w[(4 : Fin 5)] && decide (20 * bw ≤ j.f s R.MC_PWM_CARRIER.f_async)))
    && (!inj || (decide (23 * p 1 ≤ 20 * p 2) && decide (j.f s R.MC_INJ_CFG.inj_bw ≤ bw)))

/-- The OBS words of the set, or of a sheet that carries them (R218). -/
def Judge.setObs (j : Judge) (s : State) : Vector Nat 5 :=
  Vector.ofFn fun i => (s.word (j.set + R.MC_OBS_RS.reg + i.val)).toNat
def Judge.sheetObs (j : Judge) (s : State) (k : Nat) : Vector Nat 5 :=
  if s.carries k 4 then Vector.ofFn fun i => s.sheetWord k (0xD0 + i.val) else j.setObs s

/-- OBS_GAIN (R147, R218). -/
def Judge.obsGain (j : Judge) (s : State) : Bool :=
  let inj : Bool := j.f s R.MC_INJ_CFG.inj_en == 1
  j.conv || j.st s R.MC_DAT_CFG.source != 5 ||
    (j.obsWords s (j.setObs s)
      && (!inj ||
        (decide (j.f s R.MC_EST_REST.obs_min_speed ≤ j.f s R.MC_OBS_BLEND.blend_lo)
          && decide (j.f s R.MC_OBS_BLEND.blend_lo < j.f s R.MC_OBS_BLEND.blend_hi)))
      && (!j.foc s ||
        ((j.f s R.MC_START_CFG.find != 2 || inj)
          && (j.f s R.MC_START_CFG.ramp == 0
            || decide (j.f s R.MC_EST_REST.obs_min_speed ≤ j.f s R.MC_START_RAMP.ramp_f_end))))
      && (j.foc s || decide (j.f s R.MC_ZC_WIN.zc_lo < j.f s R.MC_ZC_WIN.zc_hi))
      && ((j.loadedSheets s).all fun k => j.obsWords s (j.sheetObs s k)))

/-- Output limit of loop x of the set. -/
def Judge.outLim (j : Judge) (s : State) (x : Nat) : Nat := j.fAt s R.MC_LP_LIM.out_lim (8 * x)

/-- ILIM_CEIL (R200, R218, R254, R294, R311). -/
def Judge.ilimCeil (j : Judge) (s : State) : Bool :=
  let ceil := j.st s R.MC_GATE_CEIL.i_ceil
  let th := j.st s R.MC_TH_CEIL.th_ceil
  let within (v : Nat) : Bool := decide (v ≤ ceil) && decide (v ≤ th)
  within (j.outLim s 2)
    && (!j.conv || decide (j.f s R.MC_CV_PROT.oc_lim ≤ ceil))
    && ((j.loadedSheets s).all fun k => !s.carries k 5 || within (bitsAt (s.sheetWord k 0xD8) 0 16))

/-- REFRESH (R106): t_refresh and the dead time in 2 ns against half the shortest period. -/
def Judge.refresh (j : Judge) (s : State) : Bool :=
  let f := j.f s R.MC_PWM_CARRIER.f_async
  let t := j.f s R.MC_PWM_REFRESH.t_refresh + 2 * j.f s R.MC_PWM_DT.dead_time
  decide (2 * t * f ≤ 500000000) && (!j.scar s || decide (2 * t ≤ 5000))

/-- Ordered limits of 10 bits (R295, R312). -/
def limOrder (warn derate trip : Nat) : Bool :=
  decide (sgn 10 warn ≤ sgn 10 derate) && decide (sgn 10 derate < sgn 10 trip)

/-- LIMIT_ORDER of a cluster (R294, R312). -/
def Judge.limitOrder (j : Judge) (s : State) : Bool :=
  limOrder (j.f s R.MC_TH_LIM.warn) (j.f s R.MC_TH_LIM.derate) (j.f s R.MC_TH_LIM.trip)
    && (!j.conv ||
      (decide (j.f s R.MC_CV_VLIM.vlo_uv < j.f s R.MC_CV_VLIM.vlo_ov)
        && (j.f s R.MC_CV_MODE.shed_en == 0 || decide (j.f s R.MC_CV_SHED.i_shed < j.f s R.MC_CV_SHED.i_add))))

/-- Loops in use (R200). -/
def Judge.loops (j : Judge) (s : State) : List Nat :=
  if j.conv then [0, 2]
  else
    (if j.foc s then [0, 1] else [1]) ++ [2] ++ (if j.st s R.MC_MO_MODE.mode = 1 then [3] else [])

/-- PROFILE (R157, R200, R248, R254). -/
def Judge.profile (j : Judge) (s : State) : Bool :=
  ((j.loops s).all fun x => j.outLim s x != 0 && (x == 3 || j.fAt s R.MC_LP_LIM.ss_rate (8 * x) != 0))
    && decide (2 * j.f s R.MC_GD_ON.t_on1 ≤ 10 * j.f s R.MC_GD_TIME.t_tr)
    && (j.conv ||
      ((j.f s R.MC_LOOP_CFG.spd_src == 0
          || (List.range 64).any fun k =>
            j.fAt s R.MC_GRAT_CTL.type (2 * k) == 7 && j.fAt s R.MC_GRAT_CTL.param_a (2 * k) == 3)
        && j.f s R.MC_START_HO.ramp_acc != 0
        && s.f (j.set + 0x1800) R.MO_VMAX.v_max != 0 && s.f (j.set + 0x1800) R.MO_AMAX.a_max != 0))

/-- ATLAS_SHEET (R218). -/
def Judge.atlasSheet (j : Judge) (s : State) : Bool := (j.sheets s).all fun k => s.sheetSt k == 1

/-- The pair rule of R291, with the structure words that `str` gives for each cluster. -/
def partnerOk (s : State) (str : Mcn → Nat) (n : Mcn) : Bool :=
  let p := s.f (str n) R.MC_CONV_CFG.partner
  s.f (str n) R.MC_CONV_CFG.personality == 0 || p == 7 ||
    (if h : p < 6 then
      let q : Mcn := ⟨p, h⟩
      q != n && clRg (mcCl q) == clRg (mcCl n) && s.f (str q) R.MC_CONV_CFG.personality == 1
        && s.f (str q) R.MC_CONV_CFG.partner == n.val
    else false)

/-- The first failing reason of a list of reasons with their verdicts; 0 for none (R31). (DEDUCED, log 74) -/
def firstReason : List (Nat × Bool) → Nat
  | [] => 0
  | (r, ok) :: rest => if ok then firstReason rest else r

/-- The reason of a motor cluster's check, PARTNER apart. (DEDUCED, log 74) -/
def Judge.reason (j : Judge) (s : State) : Nat :=
  firstReason [(2, j.speedRange s), (3, j.dtWindow s), (4, j.carrierRange s), (5, j.syncRatio s), (6, j.contourMono s),
    (7, j.obsGain s), (8, j.ilimCeil s), (9, j.refresh s), (0xA, j.limitOrder s), (0xC, j.profile s),
    (0xD, j.atlasSheet s)]

/-! ## A stepper cluster (R248), over the four channels of its region -/

/-- Full steps per second of a channel's ceiling, times 65,536. -/
def stepFs (s : State) (set str : Nat) : Nat := s.f set R.MO_VMAX.v_max * Nat.max 1 (s.f str R.ST_CFG.steps_rev)

def stepThr (s : State) (set : Nat) : List Nat :=
  [s.f set R.ST_USTEP0.thr0, s.f set R.ST_USTEP0.thr1, s.f set R.ST_USTEP1.thr2, s.f set R.ST_USTEP1.thr3]

/-- The reason of one channel's set, as a list of verdicts. -/
def stepVerdicts (s : State) (r : Rg) (set str : Nat) : List (Nat × Bool) :=
  let thr := stepThr s set
  let fs := stepFs s set str
  let pts := [256, 64, 16, if s.f set R.ST_USTEP2.half = 1 then 2 else 4]
  let ceil := if r = 0 then s.f pk R.TH_ST_CFG.st_ceil0 else s.f pk R.TH_ST_CFG.st_ceil1
  [(2, decide (fs ≤ 4 * 3000 * 65536) && (thr.all fun t => decide (t ≤ 12000))
      && decide (s.f set R.ST_STALL.stall_vmin ≤ 12000) && decide (s.f set R.ST_HOME.home_v ≤ 12000)),
    (8, decide (s.f set R.ST_CUR.i_run ≤ ceil) && decide (s.f set R.ST_CUR2.i_home ≤ ceil)),
    (0xB, ((List.range 3).all fun i => decide (nth thr i 0 < nth thr (i + 1) 0))
      && ((List.range 4).all fun i => decide (nth pts i 0 * Nat.min (nth thr i 0 * 65536) fs ≤ 2000000 * 65536))),
    (0xC, s.f set R.MO_VMAX.v_max != 0 && s.f set R.MO_AMAX.a_max != 0
      && (s.f set R.ST_HOME.home_mode == 0
        || (s.f set R.ST_HOME.home_v != 0 && s.f set R.ST_HOME.home_travel != 0)))]

/-- The reason of a stepper cluster: for each reason in turn, every channel is judged. (DEDUCED, log 74) -/
def stepReason (s : State) (r : Rg) (set str : Chan → Nat) : Nat :=
  let vs := (rgChans r).map fun k => stepVerdicts s r (set k) (str k)
  firstReason ((List.range 4).map fun i =>
    (nth [2, 8, 0xB, 0xC] i 0, vs.all fun v => (nth v i (0, true)).2))

/-! ## The package set (R254, R312, R411) -/

/-- CAN_TIMING of one controller (R411): a nominal bit of (ntseg1 + 1) + (ntseg2 + 1) + 1 quanta of (nbrp + 1) ticks of
the 40 MHz clock (R409). -/
def canTiming (nbt dbt : Word) : Bool :=
  let nq := (R.CAN_NBT.nbrp.get nbt + 1) * (R.CAN_NBT.ntseg1.get nbt + R.CAN_NBT.ntseg2.get nbt + 3)
  let dq := (R.CAN_DBT.dbrp.get dbt + 1) * (R.CAN_DBT.dtseg1.get dbt + R.CAN_DBT.dtseg2.get dbt + 3)
  decide (40000000 ≤ 1000000 * nq) && decide (40000000 ≤ 8000000 * dq) && decide (dq ≤ nq)
    && (R.CAN_NBT.triple.get nbt == 0
      || (decide (40000000 ≤ 125000 * nq) && decide (2 ≤ R.CAN_NBT.ntseg1.get nbt)))
    && decide (R.CAN_NBT.nsjw.get nbt ≤ R.CAN_NBT.ntseg2.get nbt)
    && decide (R.CAN_DBT.dsjw.get dbt ≤ R.CAN_DBT.dtseg2.get dbt)
    && (R.CAN_DBT.tdc_en.get dbt == 0 || decide (R.CAN_DBT.dbrp.get dbt ≤ 1))

/-- LIMIT_ORDER of the package set at a base. -/
def pkgLimits (s : State) (b : Nat) : Bool :=
  ((List.range 3).all fun d =>
    limOrder (s.f (b + d) R.TH_LIM_DIE.warn) (s.f (b + d) R.TH_LIM_DIE.derate) (s.f (b + d) R.TH_LIM_DIE.trip)
      && decide (sgn 10 (s.f (b + d) R.TH_LIM_DIE.trip) ≤ 300))
    && ((List.range 4).all fun k =>
      limOrder (s.f (b + k) R.TH_LIM_NTC.warn) (s.f (b + k) R.TH_LIM_NTC.derate) (s.f (b + k) R.TH_LIM_NTC.trip)
        && decide (sgn 10 (s.f (b + k) R.TH_COLD.cold_block) ≤ sgn 10 (s.f (b + k) R.TH_COLD.cold_cap)))
    && ((List.range 2).all fun g =>
      limOrder (s.f (b + g) R.TH_BRK_LIM.warn) (s.f (b + g) R.TH_BRK_LIM.derate) (s.f (b + g) R.TH_BRK_LIM.trip))
    && (allRg.all fun r =>
      let o (f : Fld) : Nat := s.f (b + rgB r) f
      decide (o R.RG_OV_THR.ov1 < o R.RG_OV_THR.ov2) && decide (o R.RG_OV_THR.ov2 < o R.RG_OV_THR.ov3)
        && decide (200 + o R.RG_OV_CFG.ov1_hyst ≤ o R.RG_OV_THR.ov1))

/-- The reason of the package set at a base. (DEDUCED, log 74) -/
def pkgReason (s : State) (b : Nat) : Nat :=
  firstReason [(0xA, pkgLimits s b),
    (0xE, ([0, 1, 2] : List Can).all fun n =>
      canTiming (s.word (b + canB n + R.CAN_NBT.reg)) (s.word (b + canB n + R.CAN_DBT.reg)))]

end Sys2Proof.Machine
end

