-- ==== Sys2Proof/Machine/Cluster.lean ====
section
/-! DEFINITION. The cluster state machine (01_architecture R20 to R24, R36), what each entry of a state does to the units of
the cluster, the reactions of raised events (12 R316, R317, R321, R326, R327), and the device's HALT (R25, R26). -/

namespace Sys2Proof.Machine

/-! ## Structure words in effect (R36) -/

/-- Offsets of the words of a block that hold a structure-class field. -/
def stWords (b : Blk) : List Nat :=
  (tables b).flatMap fun t =>
    (t.2.filter fun d => d.fields.any fun f => f.cls == .st).flatMap fun d =>
      (List.range d.count).map fun i => t.1 + d.off + i * d.stride

/-- The stored structure words of a block at a base take effect. -/
def State.effCopy (s : State) (b : Blk) (base : Nat) : State :=
  s.each (stWords b) fun o s => s.setWord (eff (base + o)) (s.word (base + o))

/-- The structure words of every block of a cluster take effect. (DEDUCED, log 17) -/
def State.effCluster (s : State) (c : Cl) : State :=
  match clMc c with
  | some n => s.effCopy (.mc n) (mcB n)
  | none => s.each (rgChans (clRg c)) fun k s => s.effCopy (.st k) (stB k)

/-! ## Sensor ports (R402) -/

/-- The sensor port that a datum source names. -/
def sourcePort (src : Nat) : Option (Fin 2) := if src = 3 then some 0 else if src = 4 then some 1 else none
/-- The port's role: 0 off, 1 master, 2 slave. -/
def State.portMode (s : State) (p : Fin 2) : Nat := s.f (8 * p.val) R.SP_CFG.mode

/-! ## Entries -/

/-- What ends with a start, a recovery or a brake as the cluster's outputs stop (R168, R172): a recovery under way leaves its
record, and the locks of its estimators end with it. -/
def State.endEst (s : State) (n : Mcn) : State :=
  let e := (s.mc[n]).est
  let s := if e.recPath.isSome ∧ !e.recOver ∧ !e.again then s.reacqRecord n false else s
  let s := s.modEst n fun e => { e with
    recPath := none, recOver := false, resume := none, brake := none, failed := false, again := false, injOn := false
    clipClose := false, fsOn := false, fsBelow := none, lowSince := none }
  ((s.estSet n R.MC_EST_STAT.fs_lock 0).estSet n R.MC_EST_STAT.sc_lock 0).estSet n R.MC_EST_STAT.phase 0

/-- A sensor's history ends where the datum takes another source (R139, R142, R144). -/
def State.endSensor (s : State) (n : Mcn) : State :=
  s.modEst n fun e => { e with
    hall := none, edges := [], badRun := 0, encEdges := [], sensLast := none, sensDiffs := [], sensBad := 0 }

/-- The start method ends with a STOP before RUNNING is reached: a stage that drove the datum leaves it without a supplier,
and every switch stays off; the spec gives a STOP no start stage of its own (DEDUCED, log 18). -/
def State.startAbort (s : State) (n : Mcn) : State :=
  let src := s.estF n R.MC_EST_STAT.src_now
  let ph := s.estF n R.MC_EST_STAT.phase
  let s := (s.modEst n fun e => { e with fsOn := false, brake := none }).estSet n R.MC_EST_STAT.phase 0
  if src = 2 ∨ src = 3 then
    let s := ((s.datumInvalid n).estSet n R.MC_EST_STAT.src_now 0).modEst n fun e => { e with failed := true }
    s.gateApply n
  else if ph ≠ 0 ∨ !(s.mc[n]).dat.valid then (s.modEst n fun e => { e with failed := true }).gateApply n
  else s

/-- The counter zero with which a carrier that no frame aligns starts at the entry to ARMED (R83): the current roles take their
first sample there, and the sequences see its trigger; a pair's phases start together, as its second cluster enters. -/
def State.armZero (s : State) (n : Mcn) : State :=
  if s.aligned n then s
  else if s.conv n then
    if (s.partner n).isSome && !s.follower n then s else s.convZero (s.leader n) 0
  else (s.holdCurrents n).pwmTrigger n 1

/-- A motor or converter cluster enters ARMED (R36, R59, R83, R115, R212, R255, R261, R279). Every graticule entry takes its
state from the datum angle afresh. (DEDUCED, log 17; DESIGN CHOICE, log 77) -/
def State.armMc (s : State) (n : Mcn) : State :=
  let old := s.source n
  let s := s.effCluster (mcCl n)
  let s := s.setF (mcB n) R.MC_STATE.personality (s.st n R.MC_CONV_CFG.personality)
  let s := s.each allSw fun sw s => s.modGate (swOut n sw) fun g => { g with tripped := false }
  let s := s.modMc n fun m => { m with
    short := .none, precharge := true, ref1 := none, ref2 := none, spdCnt := 0, servCnt := 0, sampleNew := false
    bstRun := #v[0, 0, 0] }
  let s := s.endEst n
  let s := if s.conv n ∨ s.source n ≠ old then ((s.datumInvalid n).estSet n R.MC_EST_STAT.src_now 0).endSensor n else s
  let s := (s.atlArm n).modGrp (mcG n) fun g => { g with scale := s.curScale n, offLeft := #v[0, 0, 0] }
  let s := s.carrierStart n
  let s := s.gReeval n fun _ => false
  if s.conv n then (s.convArm n).armZero n
  else
    let s := s.armZero n
    if s.ov3 (clRg (mcCl n)) ∨ (s.link[clRg (mcCl n)]).holdLost then s
    else s.each (sideSw false) fun sw s => s.turnOn (swOut n sw)

/-- A stepper cluster enters ARMED (R36, R242, R246). -/
def State.armSt (s : State) (r : Rg) : State :=
  let s := s.effCluster (scCl r)
  let s := s.each (rgChans r) fun k s => s.modStp k fun p => { p with tripped := false, standby := false, lowRun := 0 }
  s.coilRefsRg r

/-- The set-point of an autostart rule is the default at START unless its source has given one (R361).
(DEDUCED, log 54) -/
def State.defaultSp (s : State) (c : Cl) : State :=
  let a := s.auto[c]
  if !a.rule ∨ (a.src ≠ 0 ∧ a.gotSp) then s
  else
    match clMc c with
    | some n =>
      if s.conv n then s.setF (mcB n) R.MC_CONV_VSET.vset (a.sp.toNat % 131072)
      else if s.st n R.MC_MO_MODE.mode = 0 then
        let x : Axis := .mc n
        let m : Int := s.vMax x
        s.modAx x fun y => { y with cmds := y.cmds ++ [.speed (clampI (-m) m a.sp.toInt) (s.aMax x)] }
      else s
    | none => s

/-- A cluster enters STARTING (R154, R181, R223, R287, R242). -/
def State.startUnits (s : State) (c : Cl) : State :=
  let s := s.each (clAxes c) fun a s => s.modAx a fun x => { x with lastAt := s.now }
  match clMc c with
  | some n =>
    let s := s.modMc n fun m => { m with
      precharge := false, spdCnt := 0, servCnt := 0, sampleNew := false
      loops := m.loops.map fun l => { l with started := false, seed := none, seedRef := none } }
    if s.conv n then (s.convSeed n).gateApply n
    else
      let s := s.follow n
      let s :=
        if s.st n R.MC_MO_MODE.mode = 0 then
          s.modAx (.mc n) fun x => { x with v := qdiv ((s.mc[n]).dat.speed * 65536) (s.polePairs n) }
        else s
      (((s.startFix n).startBegin n).sectorSync n).gateApply n
  | none => s.coilRefsRg (clRg c)

/-- A cluster enters RUNNING: a stepper cluster whose rule homes it receives HOME (R361). -/
def State.runUnits (s : State) (c : Cl) : State :=
  match clMc c with
  | some n => s.gateApply n
  | none =>
    let s := s.coilRefsRg (clRg c)
    let a := s.auto[c]
    if a.rule ∧ bitAt a.sp.toNat 0 then
      s.each ((rgChans (clRg c)).filter s.chanOn) fun k s =>
        s.modAx (.st k) fun x => { x with cmds := x.cmds ++ [.home] }
    else s

/-- A cluster enters STOPPING (R229, R288); the residuals of RUNNING are discarded (R99). -/
def State.stopUnits (s : State) (c : Cl) (starting : Bool) : State :=
  let s := s.stopAxes c
  match clMc c with
  | some n =>
    if s.conv n then (s.modConv n fun x => { x with target := 0 }).convRamps n
    else
      let s := s.dropResiduals n
      if starting then s.startAbort n else s
  | none => s.coilRefsRg (clRg c)

/-- A cluster enters STOPPED, SAFE or FAULTED: the axes are freed, the carrier and the loops end, and the switches take the
state's claim (R72, R113, R230, R242, R264, R458). -/
def State.restUnits (s : State) (c : Cl) : State :=
  let s := s.freeAxes c
  match clMc c with
  | some n =>
    let s := ((s.endEst n).carrierStop n).dropResiduals n
    let s := (s.modMc n fun m => { m with precharge := false, pulse := [] }).modGrp (mcG n) fun g =>
      { g with offLeft := #v[0, 0, 0] }
    let s := if s.conv n then (s.each allP fun p s => s.setActive n p false).datumInvalid n else s.follow n
    s.gateApply n
  | none =>
    let r := clRg c
    let s := if (s.cl[c]).st = .safe then
        s.each (rgChans r) fun k s => s.setF (moB (.st k)) R.MO_STAT.homed 0 else s
    s.coilRefsRg r

/-- A cluster changes state (R20): `ev` is the new cause_event, where the entry sets one. An entry to STOPPED that ends a
stop not made by command makes the autostart rule re-arm (R360). -/
def State.enter (s : State) (c : Cl) (goal : CState) (cause : Nat) (ev : Option Nat) : State :=
  let was := s.cl[c]
  let rearm : Bool := goal == .stopped
    && (cause == 5 || (cause == 4 && was.st == .stopping && (was.cause == 6 || was.cause == 7)))
  let s := s.modCl c fun x => { x with
    st := goal, cause := cause, causeEvent := ev.getD x.causeEvent, enteredAt := s.now, heldStart := false
    startDone := false, autoStart := false }
  let s := { s with auto := upd s.auto c (let a := s.auto[c]; { a with
    rearm := a.rule && a.restart && rearm
    dueAt := if rearm then s.now + 50000000 else a.dueAt }) }
  match goal with
  | .armed => (match clMc c with | some n => s.armMc n | none => s.armSt (clRg c))
  | .starting => (s.defaultSp c).startUnits c
  | .running => s.runUnits c
  | .stopping => s.stopUnits c (was.st == .starting)
  | .stopped | .safe | .faulted | .unused => s.restUnits c

/-! ## ARM (R23) -/

/-- The pair that an ARM judges: by the stored structure (R291). (DEDUCED, log 21) -/
def State.storedPair (s : State) (n : Mcn) : Option Mcn :=
  if s.f (mcB n) R.MC_CONV_CFG.personality = 1 ∧ partnerOk s mcB n then
    let p := s.f (mcB n) R.MC_CONV_CFG.partner
    if h : p < 6 then some ⟨p, h⟩ else none
  else none

/-- The clusters that an ARM acts on, leader first; none for the follower of a pair. (DEDUCED, log 21) -/
def State.armGroup (s : State) (c : Cl) : Option (List Cl) :=
  match clMc c with
  | none => some [c]
  | some n =>
    match s.storedPair n with
    | none => some [c]
    | some q => if q.val < n.val then none else some [c, mcCl q]

/-- Step 5 of R23: the sensor port of the datum source. -/
def State.armPort (s : State) (c : Cl) : Bool :=
  match clMc c with
  | none => true
  | some n =>
    if s.f (mcB n) R.MC_CONV_CFG.personality = 1 then true
    else
      match sourcePort (s.f (mcB n) R.MC_DAT_CFG.source) with
      | none => true
      | some p =>
        s.portMode p != 0 && allMc.all fun q =>
          q == n || (s.cl[mcCl q]).st == .unused || s.conv q
            || sourcePort (s.f (mcB q) R.MC_DAT_CFG.source) != some p

/-- What the check of a motor cluster at an ARM judges (R36): the active set with the stored structure. -/
def State.armJudge (s : State) (n : Mcn) : Judge :=
  let lead : Mcn := match s.storedPair n with | some q => if q.val < n.val then q else n | none => n
  { n := n, set := s.act n, str := mcB n, conv := s.f (mcB n) R.MC_CONV_CFG.personality == 1
    leadF := s.f (s.act lead) R.MC_PWM_CARRIER.f_async }

/-- Reason of the agreement checks at an ARM; 0 for none. -/
def State.armReason (s : State) (c : Cl) : Nat :=
  match clMc c with
  | none => stepReason s (clRg c) s.actSt stB
  | some n =>
    let r := (s.armJudge n).reason s
    if r ≠ 0 then r else if partnerOk s mcB n then 0 else 0xF

/-- Is an event's source a cluster in converter personality? -/
def State.srcConv (s : State) (e : Nat) : Bool := match evScope e with | .cluster c => s.convC c | _ => false

/-- A level source of severity STOP or above that is asserted in the cluster's scope (R320), or of severity `k` or above
(R22). Whether a source is a level is its own cluster's personality's (R315). -/
def State.faultIn (s : State) (c : Cl) (k : Nat) (pulses : Bool) : Bool :=
  (List.range 256).any fun e =>
    s.asserted e && (pulses || evLevel (s.srcConv e) e || s.guyFault.contains e) && decide (k ≤ s.sev e)
      && ((s.inScope e).contains c || s.sev e == 5)

/-- A rejection is recorded in the swap registers of a cluster (R31, R36). -/
def State.rejectSwap (s : State) (c : Cl) (reason : Nat) : State :=
  (s.setF (clB c) R.MC_SWAP.reject 1).setF (clB c) R.MC_SWAP.reason reason

/-- ARM by a command (cause 1) or an autostart rule (cause 2): the status of the first failing check, or the transition.
(DEDUCED, log 20) -/
def State.armCmd (s : State) (c : Cl) (cause : Nat) : State :=
  match s.armGroup c with
  | none => s.answer .badState
  | some cs =>
    if cs.any fun x => (s.cl[x]).st != .stopped then s.answer .badState
    else if s.dev.st = .bivouac then s.answer .badState
    else if s.fb (rgB (clRg c)) R.RG_PS_STAT.bus_absent then s.answer .noBus
    else if cs.any fun x => match clMc x with | some n => s.known n != 0 || s.fb (mcB n) R.MC_GATE_SHORT.same_window | none => false then
      s.answer .knownShort
    else if cs.any fun x => s.faultIn x 3 false then s.answer .activeFault
    else if cs.any fun x => !s.armPort x then s.answer .struct
    else
      match cs.find? (fun x => s.armReason x != 0) with
      | some x =>
        let why := s.armReason x
        (s.each cs fun y s => s.rejectSwap y why).answer .swapReject
      | none => (s.each cs fun x s => s.enter x .armed cause none).answer .ok

/-! ## The other commands (R20, R22, R308) -/

/-- The clusters a command acts on, its own first; none for the follower of a pair (R291). (DEDUCED, log 21) -/
def State.cmdGroup (s : State) (c : Cl) : Option (List Cl) :=
  match clMc c with
  | some n => if s.follower n then none else some (s.group c)
  | none => some [c]

/-- A transition for every cluster of a group whose state the command names a transition out of. -/
def State.enterAll (s : State) (cs : List Cl) (ok : CState → Bool) (goal : CState) (cause : Nat) (ev : Option Nat) : State :=
  s.each cs fun x s => if ok (s.cl[x]).st then s.enter x goal cause ev else s

def State.disarmCmd (s : State) (c : Cl) : State :=
  match s.cmdGroup c with
  | some cs =>
    if (s.cl[c]).st = .armed then (s.enterAll cs (· == .armed) .stopped 1 none).answer .ok else s.answer .badState
  | none => s.answer .badState

/-- A START admitted by the state: refused, or held for an autostart rule, while a cold block is in force (R308). -/
def State.startGo (s : State) (c : Cl) (cs : List Cl) (auto : Bool) : State :=
  if cs.any s.coldBlocked then
    let s := ((s.raise (match clMc c with | some n => evMc n 26 | none => evSc (clRg c) 7)).inc pk R.TH_CNT.cold_refuse)
    if auto then (s.modCl c fun x => { x with heldStart := true }) else s.answer .coldBlock
  else (s.enterAll cs (· == .armed) .starting (if auto then 2 else 1) none).answer .ok

def State.startCmd (s : State) (c : Cl) : State :=
  match s.cmdGroup c with
  | some cs =>
    match (s.cl[c]).st with
    | .armed => s.startGo c cs false
    | .stopping => s.answer .busyStop
    | _ => s.answer .badState
  | none => s.answer .badState

def State.stopCmd (s : State) (c : Cl) : State :=
  match s.cmdGroup c with
  | some cs =>
    match (s.cl[c]).st with
    | .starting | .running =>
      (s.enterAll cs (fun x => x == .starting || x == .running) .stopping 1 (some 0)).answer .ok
    | _ => s.answer .badState
  | none => s.answer .badState

def State.safeCmd (s : State) (c : Cl) : State :=
  match s.cmdGroup c with
  | some cs =>
    if ((s.cl[c]).st).active then (s.enterAll cs CState.active .safe 1 (some 0)).answer .ok else s.answer .badState
  | none => s.answer .badState

/-- CLEAR (R22): refused while a source of severity SAFE or above is asserted in scope. The die leaves its own safe state
with it (R19). -/
def State.clearCmd (s : State) (c : Cl) : State :=
  match s.cmdGroup c with
  | some cs =>
    if (s.cl[c]).st ≠ .faulted then s.answer .badState
    else if cs.any fun x => s.faultIn x 4 true then s.answer .activeFault
    else
      let s := s.each cs fun x s => match clMc x with | some n => s.modMc n fun m => { m with dieSafe := false } | none => s
      (s.enterAll cs (· == .faulted) .stopped 1 none).answer .ok
  | none => s.answer .badState

/-- Does what the state holds admit the rest condition of a cluster (R21, R169)? Currents of a cluster whose carrier has
stopped are the event's own; with every switch off, the conversions of the tracker show the voltages.
(DESIGN CHOICE, log 12) -/
def State.atRest (s : State) (c : Cl) : Bool :=
  match clMc c with
  | none => (rgChans (clRg c)).all fun k => !s.chanOn k || (s.axS[k]).v == 0
  | some n =>
    let rest : Int := (s.setFld n R.MC_EST_REST.speed_rest : Int) * 4096
    let slow (w : Int) : Bool := decide ((w.natAbs : Int) < rest)
    let m := s.mc[n]
    if s.conv n then (s.cl[c]).st != .stopping || s.lowAmps n
    else if m.dat.valid then slow (m.dat.speedAt s.now16)
    else
      match m.short with
      | .held true => false
      | .held false =>
        if s.fb (mcB n) R.MC_EST_STAT.sc_lock then slow m.est.scSpeed
        else !m.pwm.running || m.est.lowSince.any fun t => decide (t + 5000000 ≤ s.now)
      | _ =>
        if s.fb (mcB n) R.MC_EST_STAT.fs_lock then slow m.est.fsSpeed
        else m.est.fsBelow.any fun t => decide (t + 5000000 ≤ s.now)

/-- The rest condition is met (R21): STOPPING goes to STOPPED, SAFE to FAULTED. -/
def State.restMet (s : State) (c : Cl) : State :=
  let cs := s.group c
  if cs.all s.atRest then
    match (s.cl[c]).st with
    | .stopping => s.enterAll cs (· == .stopping) .stopped 4 none
    | .safe => s.enterAll cs (· == .safe) .faulted 4 none
    | _ => s
  else s

/-- arm_timeout expires (R20); it is in steps of 100 ms. -/
def State.armTimeout (s : State) (c : Cl) : State :=
  let t := s.f (clB c) R.MC_CTRL.arm_timeout
  if (s.cl[c]).st = .armed ∧ t ≠ 0 ∧ (s.cl[c]).enteredAt + 50000000 * t ≤ s.now then
    s.enterAll (s.group c) (· == .armed) .stopped 5 none
  else s

/-! ## Autostart's START (R24, R308, R360) -/

/-- The START of a rule whose cluster is ARMED, unless it waits for a set-point or a hold (R360). (DEDUCED, log 54) -/
def State.autoStartNow (s : State) (c : Cl) : State :=
  let a := s.auto[c]
  if s.fb pk R.DEV_BOOT_CTRL.auto_hold ∨ (a.waitSp ∧ a.src ≠ 0 ∧ !a.gotSp) then
    s.modCl c fun x => { x with autoStart := true }
  else
    let s := s.modCl c fun x => { x with autoStart := false }
    s.startGo c ((s.cmdGroup c).getD [c]) true

/-- The ARM of a rule (R360): accepted once, it is followed by its START; a refused one is issued again 100 ms later.
(DEDUCED, log 54) -/
def State.autoArm (s : State) (c : Cl) : State :=
  if s.dev.st = .run ∧ !s.fb pk R.DEV_BOOT_CTRL.auto_hold ∧ (s.auto[c]).rule ∧ (s.auto[c]).dueAt ≤ s.now then
    let st := s.status
    let s := s.armCmd c 2
    let s := if (s.cl[c]).st = .armed ∧ s.status = .ok then
        (({ s with auto := upd s.auto c { s.auto[c] with armed := true, rearm := false } }).autoStartNow c)
      else { s with auto := upd s.auto c { s.auto[c] with dueAt := s.now + 50000000 } }
    { s with status := st }
  else s

/-- The first set-point from a source (1 CAN routing, 2 host chain) reaches a cluster (R360, R424).
(DEDUCED, log 54) -/
def State.firstSp (s : State) (c : Cl) (src : Nat) : State :=
  let a := s.auto[c]
  if a.rule ∧ a.src = src then
    let s := { s with auto := upd s.auto c { a with gotSp := true } }
    if (s.cl[c]).autoStart ∧ (s.cl[c]).st = .armed then
      let st := s.status
      { s.autoStartNow c with status := st }
    else s
  else s

/-! ## The logbook's requests (R336) -/

/-- A record is requested; a request already waiting takes it in. (DEDUCED, log 50) -/
def State.logRequest (s : State) (cause : Nat) : State :=
  match s.log.pend with
  | some _ => s
  | none => { s with log := { s.log with pend := some cause } }

/-! ## The device (R25, R26, R326, R327) -/

/-- LANTERN goes dark (R326). -/
def State.dark (s : State) : State := s.modDev fun d => { d with lantern := false }

/-- A cluster to SAFE, or from STOPPED to FAULTED, by a fault or a HALT (R20). -/
def State.faultSafe (s : State) (c : Cl) (cause : Nat) (ev : Option Nat) : State :=
  match (s.cl[c]).st with
  | .armed | .starting | .running | .stopping => s.enter c .safe cause ev
  | .stopped => s.enter c .faulted cause ev
  | _ => s

/-- last_cause of a source's reaction on a cluster. A link loss counts as such (0x8) for every cluster it acts on, also for those
of the other die. (DESIGN CHOICE, log 81) -/
def State.causeOf (s : State) (c : Cl) (e : Nat) : Nat :=
  if e = 2 ∨ e = 3 then 8
  else match evScope e with | .cluster c' => if (s.group c).contains c' then 6 else 7 | _ => 7

/-- The device enters BIVOUAC with every configured cluster in SAFE or FAULTED (R26, R330). -/
def State.bivouac (s : State) (cause : Nat) (ev : Option Nat) : State :=
  let s := s.each allCl fun c s => s.faultSafe c (match ev with | some e => s.causeOf c e | none => 1) (some (ev.getD 0))
  ((s.modDev fun d => { d with st := .bivouac, cause := cause }).dark).logRequest 2

/-- Conditions of R327. -/
def State.lightable (s : State) : Bool :=
  (s.dev.st == .ready || s.dev.st == .run) && !s.dev.rcClock
    && !((List.range 256).any fun e => s.asserted e && decide (4 ≤ s.sev e))
    && allCl.all fun c =>
      !(((s.cl[c]).st == .safe || (s.cl[c]).st == .faulted) && decide (6 ≤ (s.cl[c]).cause) && decide ((s.cl[c]).cause ≤ 8))

/-! ## Reactions (R315 to R321) -/

/-- The reaction of one source at a severity: 5 HALT, 4 SAFE, 3 STOP. -/
def State.reactAt (s : State) (k : Nat) (e : Nat) : State :=
  let sev := s.sev e
  if sev ≠ k then s
  else if k = 5 then
    let s := s.dark
    if s.dev.st = .ready ∨ s.dev.st = .run then s.bivouac 3 (some e) else s
  else if k = 4 then (s.dark).each (s.inScope e) fun c s => s.faultSafe c (s.causeOf c e) (some e)
  else
    s.each (s.inScope e) fun c s =>
      if (s.cl[c]).st = .starting ∨ (s.cl[c]).st = .running then s.enter c .stopping (s.causeOf c e) (some e) else s

/-- What a raising of a severity of DERATE or above, or of scope 4, leaves for 1 s after it (R317, R45). (DEDUCED, log 48) -/
def State.reactHold (s : State) (e : Nat) : State :=
  let s :=
    if !evLevel (s.srcConv e) e ∧ (2 ≤ s.sev e ∨ s.scope e = 4) then
      s.modDev fun d => { d with pulseHold := (e, s.now) :: d.pulseHold.filter (·.1 != e) }
    else s
  if 2 ≤ s.sev e then
    s.each (s.inScope e) fun c s =>
      if (s.cl[c]).st = .unused then s
      else match clMc c with | some n => s.derate n | none => s.derateSt (clRg c)
  else s

/-- The reactions of the events raised so far, SAFE and HALT first (R24, R321). (DEDUCED, log 19) -/
def State.react (s : State) : State :=
  let es := s.raised
  let s := { s with raised := [] }
  let s := s.each es (fun e s => s.reactAt 5 e)
  let s := s.each es (fun e s => s.reactAt 4 e)
  let s := s.each es (fun e s => s.reactAt 3 e)
  s.each es (fun e s => s.reactHold e)

/-- Reactions until no further event is raised. (DEDUCED, log 19) -/
def reactAll : Nat → State → State
  | 0, s => s
  | k + 1, s => if s.raised.isEmpty then s else reactAll k s.react

/-- The starts that have completed (R158, R159, R287), and a recovery that begins again (R167). (DEDUCED, log 19) -/
def State.advance (s : State) : State :=
  let s := s.each allMc fun n s => s.startCheck n
  let s := s.each allCl fun c s =>
    if (s.cl[c]).startDone ∧ (s.cl[c]).st = .starting then s.enter c .running 3 none else s
  s.each allMc fun n s =>
    if (s.mc[n]).est.again then
      if (s.cl[mcCl n]).st = .running ∨ (s.cl[mcCl n]).st = .stopping then
        ((s.modEst n fun e => { e with again := false }).lockLost n).recover n
      else s.modEst n fun e => { e with again := false }
    else s

/-- What follows from a command before it ends: the reactions of everything it raised, the transitions that have come due,
LANTERN's light. (DEDUCED, logs 14, 19) -/
def State.settle (s : State) : State :=
  let was := s.raised
  let s := reactAll 16 s
  let s := reactAll 16 s.advance
  if s.lightable ∧ !(was.any fun e => decide (4 ≤ s.sev e)) then s.modDev fun d => { d with lantern := true } else s

end Sys2Proof.Machine
end

