-- ==== Sys2Proof/Machine/Swap.lean ====
section
/-! DEFINITION. Operating-set swaps (01_architecture R28 to R35, 06_control_lanes R185, 07_atlas_paging R218,
10_converter_personality R291): requests with their agreement checks, the change of sets, COPY_SHADOW, and the
device-wide swap. -/

namespace Sys2Proof.Machine

/-- Shadow set of a motor cluster, of a stepper channel. -/
def State.shadow (s : State) (n : Mcn) : Nat := mcSetB n (!(s.cl[mcCl n]).setB)
def State.shadowSt (s : State) (k : Chan) : Nat := stSetB k (!(s.cl[stCl k]).setB)

/-- Is the shadow of a cluster locked (R29, R30)? -/
def State.setLocked (s : State) (c : Cl) : Bool := s.swapPend c || (s.cl[c]).copying

/-! ## Checks -/

/-- What a swap of a motor cluster judges: the shadow with the stored structure; `changes` says whether the leader's set
changes with it. -/
def State.swapJudge (s : State) (n : Mcn) (changes : Cl → Bool) : Judge :=
  let lead : Mcn := match s.storedPair n with | some q => if q.val < n.val then q else n | none => n
  { n := n, set := s.shadow n, str := mcB n, conv := s.f (mcB n) R.MC_CONV_CFG.personality == 1
    leadF := s.f (if changes (mcCl lead) then s.shadow lead else s.act lead) R.MC_PWM_CARRIER.f_async }

/-- Reason of the checks of one cluster of a swap (R31). -/
def State.swapReason (s : State) (changes : Cl → Bool) (c : Cl) : Nat :=
  if (s.cl[c]).st = .unused then 1
  else
    match clMc c with
    | some n => (s.swapJudge n changes).reason s
    | none => stepReason s (clRg c) s.shadowSt stB

/-- PARTNER: a device swap that includes one cluster of a pair without the other (R31). -/
def State.splitPair (s : State) (changes : Cl → Bool) (c : Cl) : Bool :=
  match clMc c with
  | some n => (match s.storedPair n with | some q => !changes (mcCl q) | none => false)
  | none => false

/-- The pager fills and held banks of the clusters of a swap are discarded (R185). -/
def State.discardAll (s : State) (cs : List Cl) : State :=
  s.each cs fun c s => match clMc c with | some n => s.atlDiscard n | none => s

/-- The idle banks of the motor clusters of a swap are filled; the first cluster whose fill meets a bad sheet, if any. -/
def fillAll (ecc : Ecc) : List Cl → State → State × Option Cl
  | [], s => (s, none)
  | c :: cs, s =>
    match clMc c with
    | some n =>
      let (s, ok) := s.swapFill n (s.shadow n) ecc
      if ok then fillAll ecc cs s else (s, some c)
    | none => fillAll ecc cs s

/-- The banks of a rejected swap are released. -/
def State.releaseAll (s : State) (cs : List Cl) : State :=
  s.each cs fun c s => match clMc c with | some n => s.swapRelease n | none => s

/-! ## Cluster swaps -/

/-- A write of go (R28 to R33, R291). (DEDUCED, log 27) -/
def State.swapReq (s : State) (c : Cl) (ecc : Ecc) : State :=
  match s.cmdGroup c with
  | none => s.answer .badState
  | some cs =>
    if cs.any s.setLocked then s.answer .swapPend
    else
      let s := (s.discardAll cs).answer .ok
      match cs.find? (fun x => s.swapReason cs.contains x != 0) with
      | some x => s.each cs fun y t => t.rejectSwap y (s.swapReason cs.contains x)
      | none =>
        match fillAll ecc cs s with
        | (s, some _) => (s.releaseAll cs).each cs fun y s => s.rejectSwap y 0xD
        | (s, none) =>
          s.each cs fun y s =>
            (s.setF (clB y) R.MC_SWAP.reject 0).modCl y fun x => { x with swapPending := true }

/-- The graticule entries take their state from the new active set; those that `keep` names stay as they are (R65). -/
def State.gLoad (s : State) (n : Mcn) (keep : Fin 64 → Bool) : State :=
  let s := s.each allK fun k s =>
    if keep k then s else s.modEntry n k fun e => { e with target := s.gf n k R.MC_GRAT_ANG.angle, lastFire := none }
  s.gReeval n keep

/-- The sets of one cluster change roles (R28). -/
def State.swapSets (s : State) (c : Cl) : State :=
  let was := s
  let s := (s.modCl c fun x => { x with setB := !x.setB, swapPending := false }).inc (clB c) R.MC_SWAP.swap_count
  match clMc c with
  | some n =>
    let same (k : Fin 64) : Bool :=
      was.word (was.act n + 2 * k.val + R.MC_GRAT_CTL.reg) == was.word (was.shadow n + 2 * k.val + R.MC_GRAT_CTL.reg)
        && was.word (was.act n + 2 * k.val + R.MC_GRAT_ANG.reg) == was.word (was.shadow n + 2 * k.val + R.MC_GRAT_ANG.reg)
    (s.swapBanks n).gLoad n same
  | none => s.each (rgChans (clRg c)) fun k s => (s.levelDue k).coilRefs k

/-- A pending cluster swap takes effect. -/
def State.swapNow (s : State) (c : Cl) : State :=
  s.each ((s.group c).filter fun x => (s.cl[x]).swapPending) fun x s => s.swapSets x

/-! ## COPY_SHADOW (R20, R30) -/

/-- Ranges of a cluster's sets: base of the set in its first argument's role, and its size. -/
def State.setRanges (s : State) (c : Cl) (active : Bool) : List (Nat × Nat) :=
  match clMc c with
  | some n => [(if active then s.act n else s.shadow n, 0x4000)]
  | none => (rgChans (clRg c)).map fun k => (if active then s.actSt k else s.shadowSt k, 0x400)

/-- The words of a range copied to another. -/
def copyRange (m : List (Nat × Word)) (src dst size : Nat) : List (Nat × Word) :=
  let kept := m.filter fun e => !(decide (dst ≤ e.1) && decide (e.1 < dst + size))
  (m.filter fun e => decide (src ≤ e.1) && decide (e.1 < src + size)).foldl
    (fun m e => insertKey m (e.1 - src + dst) e.2) kept

/-- COPY_SHADOW (R30): the shadow is locked until the copy has ended (DEDUCED, log 27). -/
def State.copyShadow (s : State) (c : Cl) : State :=
  match s.cmdGroup c with
  | none => s.answer .badState
  | some cs =>
    if (s.cl[c]).st = .unused then s.answer .badState
    else if cs.any s.setLocked then s.answer .swapPend
    else (s.each cs fun x s => s.modCl x fun y => { y with copying := true }).answer .ok

/-- The copy ends: every shadow word is the active one (R30; DEDUCED, log 27). -/
def State.copyDone (s : State) (c : Cl) : State :=
  if (s.cl[c]).copying then
    let s := s.each ((s.setRanges c true).zip (s.setRanges c false)) fun p s =>
      { s with store := copyRange s.store p.1.1 p.2.1 p.1.2 }
    s.modCl c fun x => { x with copying := false }
  else s

/-! ## The device-wide swap (R32 to R35) -/

/-- Clusters that a mask selects, in mask order. -/
def maskCls (mask : Nat) : List Cl := allCl.filter fun c => bitAt mask c.val

/-- Is the requested frame too near or in the past (R35)? -/
def State.framePast (s : State) : Bool :=
  let d := (s.f pk R.DEV_SWAP.at_frame + 256 - s.sync.frame % 256) % 256
  d == 0 || decide (129 ≤ d)
    || (d == 1 && decide ((s.sync.lastAt + 500 * s.sync.period : Nat) < s.now + 10000))

/-- The device swap is rejected: nothing changes (R32). -/
def State.devReject (s : State) (unit reason : Nat) : State :=
  (((s.setF pk R.DEV_SWAP.reject 1).setF pk R.DEV_SWAP.reject_unit unit).setF pk R.DEV_SWAP_STAT.reason reason).raise 45

/-- A write of DEV_SWAP.go. (DEDUCED, log 27) -/
def State.devSwapReq (s : State) (ecc : Ecc) : State :=
  let mask := s.f pk R.DEV_SWAP.cluster_mask
  let pkg := s.fb pk R.DEV_SWAP.package_set
  let frame := s.fb pk R.DEV_SWAP.use_frame
  let cs := maskCls mask
  let sel (c : Cl) : Bool := cs.contains c
  if s.dev.swap.isSome ∨ cs.any s.setLocked then s.answer .swapPend
  else if frame ∧ s.sync.lost then s.answer .syncLost
  else if frame ∧ s.framePast then s.answer .framePast
  else
    let s := (s.discardAll cs).answer .ok
    let reason (c : Cl) : Nat := let r := s.swapReason sel c; if r = 0 ∧ s.splitPair sel c then 0xF else r
    match cs.find? (fun c => reason c != 0) with
    | some c => s.devReject c.val (reason c)
    | none =>
      let pr := if pkg then pkgReason s (pkgB (!s.dev.pkgB)) else 0
      if pr ≠ 0 then s.devReject 8 pr
      else
        match fillAll ecc cs s with
        | (s, some c) => (s.releaseAll cs).devReject c.val 0xD
        | (s, none) =>
          (s.setF pk R.DEV_SWAP.reject 0).modDev fun d =>
            { d with swap := some (mask + 256 * b2n pkg, if frame then some (s.f pk R.DEV_SWAP.at_frame) else none) }

/-- The package sets change roles; a CAN controller whose timing changes integrates to the bus again (R34, R410). -/
def State.swapPackage (s : State) : State :=
  let old := s.actPkg
  let s := s.modDev fun d => { d with pkgB := !d.pkgB }
  s.each ([0, 1, 2] : List Can) fun n s =>
    let differs (r : Nat) : Bool := s.word (old + canB n + r) != s.word (s.actPkg + canB n + r)
    if (differs R.CAN_NBT.reg || differs R.CAN_DBT.reg) && (s.can[n]).mode != 0 && s.f (canB n) R.CAN_STAT.state != 3 then
      s.setF (canB n) R.CAN_STAT.integrating 1
    else s

/-- The pending device swap acts at its frame boundary. (DEDUCED, log 27) -/
def State.devSwapNow (s : State) : State :=
  match s.dev.swap with
  | some (mask, frame) =>
    if frame.all fun f => f == s.sync.frame % 256 then
      let s := s.modDev fun d => { d with swap := none }
      let s := s.each (maskCls mask) fun c s => s.swapSets c
      let s := if bitAt mask 8 then s.swapPackage else s
      s.inc pk R.DEV_SWAP_STAT.swap_count
    else s
  | none => s

end Sys2Proof.Machine
end

