-- ==== Sys2Proof/Machine/Store.lean ====
section
/-! DEFINITION. What a write of a word stores (00_scope R8; the field tables; 04 R120, R121; 10 R280, R291; 12 R316 to
R319): the values a field takes in place of a written one, the values a write refuses whole, and the merging of a word by
the classes of its fields. -/

namespace Sys2Proof.Machine

/-- A channel code as a group stores it (R120, R280): kind 0 motor, 1 region, 2 Kilid. -/
def chanStored (kind : Nat) (conv : Bool) (v : Nat) : Nat :=
  let ok : Bool := match kind with
    | 0 => decide (v ≤ 0x12) || (v == 0x13 && conv)
    | 1 => decide (v ≤ 0x25)
    | _ => decide (v ≤ 0x0D)
  if ok then v else 0x3F

/-- A trigger code as a group stores it (R121). -/
def trigStored (kind : Nat) (inj : Bool) (v : Nat) : Nat :=
  let ok : Bool := match kind with
    | 0 => decide (v ≤ 9)
    | 1 => decide (v ≤ 9) && v != 6
    | _ => v == 7 || v == 8 || v == 9
  if ok && !(inj && v == 8) then v else 0

/-- A sequence word, by its offset in the sequence block. -/
def seqStored (kind : Nat) (conv : Bool) (o w : Nat) : Nat :=
  if o = 0 then
    let reg := trigStored kind false (bitsAt w 8 4)
    let inj := trigStored kind true (bitsAt w 12 4)
    bitsAt w 0 8 + reg * 256 + inj * 4096 + (if kind = 1 then bitsAt w 16 2 * 65536 else 0)
  else if 0x10 ≤ o then w - w % 64 + chanStored kind conv (w % 64)
  else w

/-- The rules that depend on more than the field: applied to a word after its fields' own rules. (DEDUCED, log 75) -/
def storedFix (b : Blk) (conv : Bool) (o w : Nat) : Nat :=
  match b with
  | .mcSet _ _ => if 0xC00 ≤ o ∧ o < 0xC24 then seqStored 0 conv (o - 0xC00) w else w
  | .kl => if 0x40 ≤ o then seqStored 2 false (o - 0x40) w else if 5 ≤ o ∧ o ≤ 7 then 0 else w
  | .rg _ => if 0x440 ≤ o then seqStored 1 false (o - 0x440) w else if o = 0x406 then w - bitsAt w 3 1 * 8 else w
  | .fc =>
    if 0x1100 ≤ o ∧ o < 0x1200 then
      let e := o - 0x1100
      w - w % 64 + sevStored e (w % 8) + 8 * scopeStored e (bitsAt w 3 3)
    else w
  | .stw => if o = 0x2014 ∨ o = 0x2016 then 0 else w
  | _ => w

/-- The word that a register's storable fields hold after a write. (DEDUCED, log 75) -/
def stored (b : Blk) (conv : Bool) (d : RDesc) (o : Nat) (w : Word) : Nat := storedFix b conv o (d.clampWord w.toNat)

/-- Does a write of the word name a value that is refused whole with STRUCT (R350)? (DEDUCED, log 75) -/
def refusedWhole (d : RDesc) (w : Word) : Bool :=
  d.fields.any fun f => f.rules.any fun r =>
    match r with
    | .refuseAbove a => decide (a < bitsAt w.toNat f.lo f.w)
    | _ => false

/-- The class of a field in a block: sequence fields are SW in a motor cluster, ST elsewhere. -/
def Cls.at (c : Cls) (b : Blk) : Cls :=
  match c with
  | .sq => (match b with | .mcSet _ _ => .sw | _ => .st)
  | c => c

/-- A field kept by a write of the image: it is not RO, WO or W1C. -/
def Cls.loads (c : Cls) : Bool :=
  match c with
  | .rw | .sw | .st | .sq => true
  | _ => false

/-- A word with the fields that `sel` names taken from `new`, and the others from `old`. -/
def mergeWord (d : RDesc) (sel : FDesc → Bool) (old new : Nat) : Nat :=
  d.fields.foldl (fun n f => n + bitsAt (if sel f then new else old) f.lo f.w * 2 ^ f.lo) 0

/-- The word after a host's write (R8): RW, SW and ST fields take the written value, a written 1 clears a W1C bit, RO and WO
fields keep theirs. -/
def hostWord (d : RDesc) (b : Blk) (conv : Bool) (o : Nat) (old w : Word) : Word :=
  let st := stored b conv d o w
  let cleared := mergeWord d (fun f => f.cls.loads) (Nat.land old.toNat (4294967295 - w.toNat)) st
  BitVec.ofNat 32 (mergeWord d (fun f => f.cls.loads || f.cls == .w1c) old.toNat cleared)

/-- Does the write change an ST field (R8)? -/
def stChanges (d : RDesc) (b : Blk) (conv : Bool) (o : Nat) (old w : Word) : Bool :=
  let st := stored b conv d o w
  d.fields.any fun f => f.cls.at b == .st && bitsAt st f.lo f.w != bitsAt old.toNat f.lo f.w

/-- The word after the image's write (R350). (DEDUCED, log 75) -/
def imageWord (d : RDesc) (b : Blk) (conv : Bool) (o : Nat) (old w : Word) : Word :=
  BitVec.ofNat 32 (mergeWord d (fun f => f.cls.loads) old.toNat (stored b conv d o w))

end Sys2Proof.Machine
end

