-- ==== Sys2Proof/Machine/Frames.lean ====
section
/-! DEFINITION. SYNC frames (02_datum_and_graticule R75 to R80, 01_architecture R42, R43): the slave's edges and windows,
the frame boundary with its snapshots and alignment, loss of SYNC and contention. -/

namespace Sys2Proof.Machine

/-- The system role in force: 0 NONE, 1 MASTER, 2 SLAVE; NONE until the image's fields act at READY (R42, R358).
(DEDUCED, log 28) -/
def State.syncRole (s : State) : Nat :=
  match s.dev.st with
  | .ready | .run | .bivouac => s.f pk R.DEV_SYS.sync_role
  | _ => 0

def State.modSync (s : State) (g : Sync → Sync) : State := { s with sync := g s.sync }

/-- Ticks of a frame in force. -/
def State.frameTicks (s : State) : Nat := s.sync.period * 500

/-- A slave misses an expected frame; the third in a row loses SYNC (R43). -/
def State.syncMiss (s : State) : State :=
  let s := s.modSync fun y => { y with misses := y.misses + 1, good := 0 }
  if 3 ≤ s.sync.misses ∧ !s.sync.lost then (s.modSync fun y => { y with lost := true }).assertOn 43 else s

/-- Half-width of a slave's window in ticks: 1 % of the frame (R76). -/
def Sync.window (y : Sync) : Nat := y.period * 5

/-- The level that the device drives on SYNC (R75): as the master, high from the start of each frame for 80 ns, and for 240 ns
at frame 0; R43 releases it after contention. (DEDUCED, log 28) -/
def State.syncOut (s : State) : Bool :=
  let y := s.sync
  let high (t f : Nat) : Bool := decide (t ≤ s.now) && decide (s.now < t + (if f % 256 = 0 then 120 else 40))
  s.syncRole == 1 && !y.released
    && (match y.startAt with | some t => high t y.frame || high (t + s.frameTicks) (y.frame + 1) | none => false)

/-- While SYNC is lost: has the boundary of the expected frame been placed already (R76)? -/
def Sync.placed (y : Sync) : Bool :=
  y.lost && (match y.expected, y.dueAt with
    | some e, some d => decide (e + y.comp < d)
    | _, _ => false)

/-- The boundary that follows an accepted edge of a slave (R76, R77): sync_comp after it. A boundary already placed for the
edge's frame stands, and the next one is counted from the edge. -/
def State.edgeDue (s : State) (was : Sync) : Option Nat :=
  if !was.placed then some (s.now + was.comp)
  else if s.sync.lost then some (s.now + s.frameTicks + was.comp)
  else none

/-- A rising SYNC edge (R76): `long` says that the level stayed high for 160 ns or more. The first one, which no expected
instant precedes, is taken whenever it comes. (DEDUCED, log 28) -/
def State.syncEdge (s : State) (long : Bool) : State :=
  if s.syncRole = 2 then
    let was := s.sync
    let inWindow : Bool := match was.expected with
      | none => true
      | some e => decide (e ≤ s.now + was.window) && decide (s.now ≤ e + was.window)
    if inWindow then
      let s := s.modSync fun y => { y with
        expected := some (s.now + s.frameTicks), numbered := !was.placed, missNoted := false, misses := 0, good := y.good + 1
        frame := if long then 0 else if was.placed then y.frame else (y.frame + 1) % 256 }
      let s := if s.sync.lost ∧ 8 ≤ s.sync.good then (s.modSync fun y => { y with lost := false }).assertOff 43 else s
      s.modSync fun y => { y with dueAt := s.edgeDue was }
    else if s.sync.missNoted then s
    else (s.modSync fun y => { y with missNoted := true }).syncMiss
  else s

/-- The window closes without an accepted edge (R76): the next instant is counted from the expected one, and the frame's
boundary comes sync_comp after the close; while SYNC is lost it has its place already. (DEDUCED, log 28) -/
def State.syncWindowClose (s : State) : State :=
  if s.syncRole = 2 then
    let e := s.sync.expected.getD s.now
    let noted := s.sync.missNoted
    let s := s.modSync fun y => { y with
      expected := some (e + s.frameTicks), missNoted := false
      dueAt := if y.lost then y.dueAt else some (e + y.window + y.comp) }
    if noted then s else s.syncMiss
  else s

/-- The snapshot of a cluster's datum (R80); of a converter, the speed in Hz as MC_DAT_SPEED holds it.
(DESIGN CHOICE, log 82) -/
def State.snapshot (s : State) (n : Mcn) : State :=
  if (s.cl[mcCl n]).st = .unused then s
  else
    let d := (s.mc[n]).dat
    let b := mcB n
    let v := if s.conv n then s.convHz n else d.speedAt s.now16
    let s := s.setF b R.MC_DAT_SNAP_ANGLE.angle (if d.valid then d.at s.now16 else 0)
    let s := s.setF b R.MC_DAT_SNAP_SPEED.speed (if d.valid then uns 32 v else 0)
    (s.setF b R.MC_DAT_SNAP_FRAME.frame (s.sync.frame % 256)).setF b R.MC_DAT_SNAP_FRAME.snap_valid (b2n d.valid)

/-- The phase error of an aligned carrier, to be corrected in its next periods (R79); positive when it is late. -/
def State.alignMeasure (s : State) (n : Mcn) : State :=
  let w := (s.mc[n]).pwm
  if w.running ∧ s.aligned n ∧ !s.follower n ∧ 0 < w.period then
    let t : Int := w.period
    let due : Int := s.now + qdiv (t * (s.st n R.MC_DAT_SYNC.align_phase : Int)) 256
    let e := ((w.zeroAt : Int) - due) % t
    s.modPwm n fun w => { w with phaseErr := if 2 * e ≤ t then e else e - t }
  else s

/-- A new frame period: an aligned cluster whose carrier no longer fits suspends its alignment (R75). -/
def State.newFramePeriod (s : State) : State :=
  if s.sync.cfgDue then
    let s := s.modSync fun y => { y with
      cfgDue := false, period := s.f pk R.DEV_SYNC_CFG.frame_period, comp := s.f pk R.DEV_SYNC_CFG.sync_comp }
    s.each allMc fun n s =>
      if (s.mc[n]).pwm.running ∧ s.st n R.MC_DAT_SYNC.align_en = 1 ∧ s.sync.period * s.fAsync n % 1000000 ≠ 0 then
        s.modPwm n fun w => { w with alignSusp := true }
      else s
  else s

/-- A master's read-back (R43): a wrong level in two consecutive frames releases SYNC. (DEDUCED, log 28) -/
def State.contention (s : State) (wrong : Bool) : State :=
  if s.syncRole = 1 ∧ !s.sync.released then
    let s := s.modSync fun y => { y with wrong := if wrong then y.wrong + 1 else 0 }
    if 2 ≤ s.sync.wrong then (s.modSync fun y => { y with released := true }).raise 42 else s
  else s

/-- May an internal frame boundary come now (R76, R77)? A slave's follows its edges and its windows; the first one of a device
that keeps its own frames sets their phase. (DEDUCED, log 28) -/
def State.frameDue (s : State) : Bool :=
  match s.sync.dueAt with
  | some d => decide (d ≤ s.now) && (s.syncRole != 2 || s.sync.expected.isSome)
  | none => s.syncRole != 2

/-- The next boundary, once that of the frame with a start has been placed (R75 to R77): a frame later; a slave in lock waits for
its edge, and one that has lost SYNC goes by the expected instants. (DEDUCED, log 28) -/
def State.nextFrame (s : State) (start : Nat) : State :=
  s.modSync fun y =>
    { y with
      startAt := some start
      dueAt := if s.syncRole = 2 then
          (if y.lost then y.expected.map fun e => (if e ≤ start then e + s.frameTicks else e) + y.comp else none)
        else some (start + s.frameTicks + y.comp) }

/-- An internal frame boundary (R75 to R80, R121). (DEDUCED, log 28) -/
def State.frameBoundary (s : State) (wrong : Bool) : State :=
  if s.dev.st = .off ∨ !s.frameDue then s
  else
    let start := s.sync.dueAt.getD s.now - s.sync.comp
    let s := s.contention wrong
    let s := s.modSync fun y => { y with
      frame := if y.numbered then y.frame else (y.frame + 1) % 256, numbered := false, lastAt := s.now }
    let s := s.newFramePeriod.nextFrame start
    let s := s.each allMc fun n s => (s.snapshot n).alignMeasure n
    s.each (List.finRange 9) fun g s => s.trigCode g 9

end Sys2Proof.Machine
end

