-- ==== Sys2Proof/Machine/Device.lean ====
section
/-! DEFINITION. The device state machine's commands (01_architecture R25 to R27), the pins FAULT_N and LANTERN (R45, 12 R326),
the guy lines and sticky bits (12 R315, R323, R324), the clock check (12 R328), the buses and supplies (01 R14, R15, R18,
17 R442), and the inter-die links (01 R16 to R19, 12 R322, R332). -/

namespace Sys2Proof.Machine

/-! ## Device commands -/

/-- A source of severity HALT is asserted (R27). -/
def State.haltAsserted (s : State) : Bool := (List.range 256).any fun e => s.asserted e && s.sev e == 5

/-- The device enters RUN; a value of DEV_SYNC_CFG written before acts at the next frame boundary (R75), and the autostart
rules begin afresh (R360). -/
def State.runEnter (s : State) (cause : Nat) : State :=
  let s := (s.modDev fun d => { d with st := .run, cause := cause }).modSync fun y => { y with cfgDue := true }
  { s with auto := s.auto.map fun a => { a with armed := false, rearm := false, dueAt := s.now + 500000 * a.delay } }

def State.runCmd (s : State) : State :=
  if s.dev.st = .ready then (s.runEnter 1).answer .ok else s.answer .badState

def State.haltCmd (s : State) : State :=
  if s.dev.st = .ready ∨ s.dev.st = .run then (s.bivouac 1 none).answer .ok else s.answer .badState

/-- RESUME (R25, R27; DEDUCED, log 20). -/
def State.resumeCmd (s : State) : State :=
  if s.dev.st = .bivouac then
    if s.haltAsserted then s.answer .activeFault else (s.runEnter 1).answer .ok
  else s.answer .badState

/-! ## FAULT_N (R45) -/

/-- Sources of system scope. -/
def State.sysScope (s : State) (e : Nat) : Bool := s.scope e == 4

/-- Does the device drive FAULT_N low? (DEDUCED, logs 48, 73) -/
def State.faultNOut (s : State) : Bool :=
  s.fb pk R.DEV_SYS.fault_n_drive && (match s.dev.st with | .ready | .run | .bivouac => true | _ => false)
    && (s.dev.st == .bivouac
      || ((List.range 256).any fun e => (s.asserted e || s.pulseHeld e) && s.sysScope e)
      || allCl.any fun c =>
        let x := s.cl[c]
        (match x.st with | .stopping | .safe | .faulted => true | _ => false)
          && x.causeEvent != 0 && s.sysScope x.causeEvent)

/-- FAULT_N has been low for its filter time (R45; DEDUCED, log 48). -/
def State.faultNLow (s : State) : State :=
  if s.dev.st = .off then s
  else
    let s := s.modDev fun d => { d with faultNIn := true }
    if s.faultNOut then s else s.assertOn 44

def State.faultNHigh (s : State) : State :=
  if s.dev.st = .off then s else (s.modDev fun d => { d with faultNIn := false }).assertOff 44

/-! ## The collector -/

def State.lanternToggle (s : State) : State :=
  if s.dev.lantern then s.modDev fun d => { d with lanternLvl := !d.lanternLvl } else s

/-- One second after a pulse source's latest raising its factor and its FAULT_N hold end (R45, R317). (DEDUCED, log 48) -/
def State.pulseExpire (s : State) (e : Nat) : State :=
  s.modDev fun d => { d with pulseHold := d.pulseHold.filter fun x => x.1 != e || s.now < x.2 + 500000000 }

/-- A write of FC_STICKYk: a written 1 clears, unless the source is asserted (R315). -/
def State.stickyClear (s : State) (k : Nat) (w : Word) : State :=
  s.setWord (0x1010 + k)
    (s.word (0x1010 + k) &&& ((BitVec.ofNat 32 4294967295 ^^^ w) ||| s.word (0x1018 + k)))

/-- A write of FC_GUYk: a written 1 clears, unless the pair has a wire fault (R324). -/
def State.guyClear (s : State) (k : Nat) (w : Word) : State :=
  let now := s.guyFault.foldl (fun m e => if e / 32 = k then setBit m (e % 32) true else m) (0 : Word)
  s.setWord (0x1020 + k) (s.word (0x1020 + k) &&& ((BitVec.ofNat 32 4294967295 ^^^ w) ||| now))

/-- A wire fault begins: the source counts as asserted and is raised (R323, R324). -/
def State.guyBegin (s : State) (e : Nat) : State :=
  if s.guyFault.contains e ∨ s.dev.st = .off then s
  else
    let s := { s with guyFault := e :: s.guyFault }
    let s := s.setWord (0x1020 + e / 32) (setBit (s.word (0x1020 + e / 32)) (e % 32) true)
    let s := (s.setWord (0x1018 + e / 32) (setBit (s.word (0x1018 + e / 32)) (e % 32) true)).raise e
    s.assertOn 1

/-- A wire fault ends: the source follows its true rail again. -/
def State.guyEnd (s : State) (e : Nat) : State :=
  if s.guyFault.contains e then
    let s := { s with guyFault := s.guyFault.filter (· != e) }
    let s := s.setWord (0x1018 + e / 32) (setBit (s.word (0x1018 + e / 32)) (e % 32) (s.rails.contains e))
    if s.guyFault.isEmpty then s.assertOff 1 else s
  else s

/-! ## Safe states of a die (R17, R18, R444) -/

/-- The motor clusters of a die that the image configures, in motor personality. -/
def State.dieMotors (s : State) (d : Rg) : List Mcn :=
  (rgMcs d).filter fun n => (s.cl[mcCl n]).st != .unused && !s.conv n

/-- The die applies the safe state to its clusters without Kilid's help. -/
def State.dieApply (s : State) (d : Rg) : State :=
  s.each (s.dieMotors d) fun n s => (s.modMc n fun m => { m with dieSafe := true }).gateApply n

/-- Link loss of a die (R16, R17): its event moves the clusters in Kilid's records. (DEDUCED, log 25) -/
def State.linkLoss (s : State) (d : Rg) : State :=
  if (s.link[d]).lost ∨ s.dev.st = .off then s
  else
    let s := s.modLink d fun l => { l with lost := true }
    (s.assertOn (2 + d.val)).dieApply d

/-- A logic supply or VCC of a die falls (R18). -/
def State.supplyLoss (s : State) (d : Rg) : State :=
  let s := s.linkLoss d
  let s := s.modLink d fun l => { l with supplyLost := true }
  s.chopOff d

/-- VCC below the hold level: every gate of the region by its passive sink (R268). -/
def State.holdLoss (s : State) (r : Rg) : State :=
  let s := s.modLink r fun l => { l with holdLost := true }
  let s := s.gateApplyRg r
  (s.chopOff r).rbgSet r false

/-- The raisings that the local collector kept reach Kilid, each as often as it counted (R322). (DEDUCED, log 23) -/
def State.deliverRaisings (s : State) (d : Rg) : State :=
  let b := (s.link[d]).buffer
  let s := s.modLink d fun l => { l with buffer := [] }
  s.each b fun p s => s.each (List.range p.2) fun _ s => s.raise p.1

/-- The link is restored (R19, R322). A die that had lost its supply comes out of its own reset, without the record that it
had (R444). (DEDUCED, log 25) -/
def State.linkRestored (s : State) (d : Rg) : State :=
  if (s.link[d]).lost ∧ s.dev.st ≠ .off then
    let dead := (s.link[d]).supplyLost
    let s := s.modLink d fun l => { l with lost := false, supplyLost := false, holdLost := false }
    let s := if dead then
        s.each (rgMcs d) fun n s =>
          ((s.setF (mcB n) R.MC_GATE_SHORT.known 0).setF (mcB n) R.MC_GATE_SHORT.same_window 0).gateApply n
      else s
    ((s.assertOff (2 + d.val)).deliverRaisings d).rbgHeld d
  else s

/-! ## Link lanes (R331, R332) -/

/-- Unit of a lane: direction 0 from Kilid, 1 to Kilid. -/
def linkUnit (d : Rg) (dir : Fin 2) (lane : Nat) : Nat := 0x9000 + 10 * d.val + 5 * dir.val + lane

/-- Is a lane in service? Lane 4 is the spare at reset. -/
def State.laneServes (s : State) (d : Rg) (dir : Fin 2) (lane : Nat) : Bool :=
  let l := s.link[d]
  !(l.excluded[dir]).contains lane && (lane != 4 || l.spareUsed[dir])

/-- A link frame arrives, with code or disparity errors on some lanes. (DEDUCED, log 25) -/
def State.linkFrame (s : State) (d : Rg) (toKilid : Bool) (bad : List (Fin 5)) : State :=
  if (s.link[d]).lost ∨ s.dev.st = .off then s
  else
    let dir : Fin 2 := if toKilid then 1 else 0
    s.each bad fun l s => if s.laneServes d dir l.val then s.wear (linkUnit d dir l.val) else s

/-- A lane at its limit, or without symbol lock, is replaced by the spare, or excluded; the second loss is a link loss.
(DEDUCED, log 25) -/
def State.laneRetrain (s : State) (d : Rg) (toKilid : Bool) (lane : Fin 5) : State :=
  let dir : Fin 2 := if toKilid then 1 else 0
  if (s.link[d]).lost ∨ s.dev.st = .off ∨ !s.laneServes d dir lane.val then s
  else
    let l := s.link[d]
    let out := (l.excluded[dir]).length
    let s := s.modLink d fun l => { l with
      excluded := upd l.excluded dir (lane.val :: l.excluded[dir]), spareUsed := upd l.spareUsed dir true }
    if out = 0 then
      ((s.substituted).raise 4).poolEmpty 9
    else if out = 1 then s.raise 4
    else s.linkLoss d

/-! ## Buses and supplies (R14, R15, R442) -/

/-- Supply conditions that hold supply-warn asserted: monitors 0 VDDC, 1 VIO, 2 VDDA, 3 references, 4 and 5 VCC of A and B,
6 and 7 VS of A and B (while the bus is present), 8 and 9 an absent bus. (DEDUCED, log 26) -/
def State.supplyEvent (s : State) : State :=
  let on := s.dev.supplyWarn.any fun m =>
    !(m == 6 && s.dev.supplyWarn.contains 8) && !(m == 7 && s.dev.supplyWarn.contains 9)
  if s.dev.st = .off then s else s.level 6 on

/-- A supply condition begins or ends: supply-warn holds while one of them does (R15, R442; DEDUCED, log 26). -/
def State.supplyMark (s : State) (m : Nat) (on : Bool) : State :=
  let rest := s.dev.supplyWarn.filter (· != m)
  (s.modDev fun d => { d with supplyWarn := if on then m :: rest else rest }).supplyEvent

/-- A region's bus becomes absent (R15): its active clusters go to SAFE with cause 0x8 and no
cause_event. (DESIGN CHOICE, log 81) -/
def State.busAbsent (s : State) (r : Rg) : State :=
  let s := s.setF (rgB r) R.RG_PS_STAT.bus_absent 1
  let s := s.supplyMark (8 + r.val) true
  s.each (rgCls r) fun c s => if ((s.cl[c]).st).active then s.enter c .safe 8 (some 0) else s

def State.busPresent (s : State) (r : Rg) : State :=
  (s.setF (rgB r) R.RG_PS_STAT.bus_absent 0).supplyMark (8 + r.val) false

/-! ## The clock check (R328) -/

def State.clockCheck (s : State) (v : ClockVerdict) : State :=
  if s.dev.st = .off then s
  else
    match v with
    | .good => s
    | .spareAgreesSystem => s.modDev fun d => { d with oscSpare := !d.oscSpare }
    | .spareAgreesOscillator =>
      if s.dev.rcClock then s
      else
        let s := (s.modDev fun d => { d with rcClock := true }).dark
        ((s.assertOn 5).dieApply 0).dieApply 1

end Sys2Proof.Machine
end

