-- ==== Sys2Proof/Machine/Pool.lean ====
section
/-! DEFINITION. The lane pool's rows (06_control_lanes R190 to R194): rate windows, the steward's test, lane failures and
self-tests; and the trace units (R196 to R199). -/

namespace Sys2Proof.Machine

/-! ## Rates (R190) -/

/-- The lowest rate of a lane over its last 16 windows. -/
def Lane.low (l : Lane) : Nat := l.rates.foldl Nat.min l.rate

/-- The unit of a lane (class 0x1). -/
def laneUnit (l : Fin 8) : Nat := unitId 1 l.val

/-- A 64 µs window of a lane ends with a count of its own cycles. -/
def State.laneWindow (s : State) (i : Fin 8) (count : Nat) : State :=
  let r := (clampI 0 4096 (qdiv (count * 4096 : Nat) 16000)).toNat
  let l := s.lanes[i]
  let s : State := { s with lanes := upd s.lanes i { l with rate := r, rates := (r :: l.rates).take 16 } }
  let low := (List.range 8).map fun k =>
    let old := nth s.log.minRate k 4096
    if k = i.val then Nat.min old r else old
  let s : State := { s with log := { s.log with minRate := low } }
  if r * 10 < 36864 then s.wear (laneUnit i) else s

/-! ## Substitution (R191 to R193) -/

/-- A lane leaves the pool: DRAINING while a job runs on it, RETIRED if it is idle (R192). -/
def State.laneDrain (s : State) (i : Fin 8) : State :=
  s.laneState i (if (s.lanes[i]).busy.isSome then .draining else .retired)

/-- The lane of the least value, the first of equals. -/
def leastLane (v : Fin 8 → Nat) : List (Fin 8) → Option (Fin 8)
  | [] => none
  | i :: rest =>
    match leastLane v rest with
    | none => some i
    | some k => if v k < v i then some k else some i

/-! ## The steward's test (R191) -/

/-- Cost of a cluster's current-class job. -/
def State.curCost (s : State) (n : Mcn) : Nat := if s.conv n then 150 else if s.foc n then 180 else 90

/-- Half of the shortest carrier period (R106), or of a converter's switching period, in ns as a fraction: the denominator
is the frequency in Hz; the first component is the numerator. -/
def State.halfMin (s : State) (n : Mcn) : Nat × Nat :=
  let f := Nat.max 1 (s.fAsync (s.leader n))
  if !s.conv n ∧ s.fb (s.act n) R.MC_SCAR_CFG.enable ∧ f < 100000 then (5000, 1) else (500000000, f)

/-- Slack of a cluster in ns, as a numerator over a positive denominator. -/
def State.slackOf (s : State) (lanes rMin : Nat) (cs : List Mcn) (n : Mcn) : Int × Int :=
  let a := cs.length
  let q := (a + lanes - 1) / lanes - 1
  let big := (cs.filter (· != n)).foldl (fun m c => Nat.max m (s.curCost c)) 0
  let k := 240 + q * big + s.curCost n
  let (t, f) := s.halfMin n
  let guard := 4 * s.f pk R.LN_CFG.guard
  ((t : Int) * rMin - ((1000 + guard) * f * rMin : Nat) - (k * 16384 * f : Nat), (f * rMin : Nat))

/-- The least slack with its cluster, the first of equals. -/
def leastSlack : List (Mcn × Int × Int) → Option (Mcn × Int × Int)
  | [] => none
  | x :: rest =>
    match leastSlack rest with
    | none => some x
    | some y => if y.2.1 * x.2.2 < x.2.1 * y.2.2 then some y else some x

/-- The test of the pool, every 1,024 µs. With no lane in service there is nothing to test. -/
def State.poolTest (s : State) : State :=
  let ls := s.lanesIn
  let rMin := Nat.max 1 (ls.foldl (fun m i => Nat.min m (s.lanes[i]).low) 4096)
  let sum := Nat.max 1 (ls.foldl (fun t i => t + (s.lanes[i]).rate) 0)
  let cyc := s.poolCyc
  let s : State := { s with poolCyc := 0 }
  if ls.isEmpty ∨ s.dev.st = .off then s
  else
    let util := (clampI 0 255 (qdiv (cyc * 409600 : Nat) (sum * 256000 : Nat))).toNat
    let s := (s.setF pk R.LN_LOAD.util util).setF pk R.LN_LOAD.util_peak (Nat.max util (s.f pk R.LN_LOAD.util_peak))
    let cs := allMc.filter fun n => (s.cl[mcCl n]).st != .unused
    let slacks := cs.map fun n => (n, s.slackOf ls.length rMin cs n)
    let s := match leastSlack slacks with
      | some (n, num, den) =>
        (s.setF pk R.LN_BOUND.slack_min (uns 16 (clampI (-32768) 32767 (qdiv num (4 * den))))).setF pk R.LN_BOUND.slack_cl
          n.val
      | none => (s.setF pk R.LN_BOUND.slack_min 0).setF pk R.LN_BOUND.slack_cl 0
    let breach : Bool := decide (s.f pk R.LN_CFG.util_max * sum * 256000 < cyc * 409600) || slacks.any fun x => decide (x.2.1 < 0)
    let worn := ls.filter fun i => s.worn (laneUnit i)
    let slow : Bool := decide (rMin < s.f pk R.LN_CFG.rate_min) || !worn.isEmpty
    let out := if worn.isEmpty then leastLane (fun i => (s.lanes[i]).low) ls else worn.head?
    let s :=
      if (breach || slow) && s.spareLane.isSome then
        let s := s.laneSubst
        match out with
        | some i => s.laneDrain i
        | none => s
      else if breach then s.assertOn 38 else s
    (if breach then s else s.assertOff 38).dispatchNow

/-! ## Failures (R193, R194) -/

/-- A job has overrun the earlier of its deadline and its prediction plus a quarter: the lane fails. -/
def State.laneOverrun (s : State) (i : Fin 8) : State :=
  match (s.lanes[i]).busy with
  | some r => if s.overrun r then s.laneFail i else s
  | none => s

/-- A self-test ends (R194). -/
def State.ltestDone (s : State) (i : Fin 8) (good : Bool) : State :=
  match (s.lanes[i]).busy with
  | some r =>
    if r.what.job = .ltest i then
      if good && !s.overrun r then (s.laneFree i).dispatchNow else s.laneFail i
    else s
  | none => s

/-! ## Trace units (R196 to R199) -/

/-- Words of a record: the header and the selected nodes. -/
def State.recLen (s : State) (u : Fin 4) : Nat :=
  1 + (([R.TR_NODE_LO.node0, R.TR_NODE_LO.node1, R.TR_NODE_LO.node2, R.TR_NODE_LO.node3, R.TR_NODE_HI.node4,
    R.TR_NODE_HI.node5, R.TR_NODE_HI.node6, R.TR_NODE_HI.node7].map (s.f (trB u))).filter (· != 0)).length
/-- Records that the buffer holds. -/
def State.traceCap (s : State) (u : Fin 4) : Nat := 16384 / s.recLen u
/-- Words of the buffer in use. -/
def State.traceLen (s : State) (u : Fin 4) : Nat := s.traceCap u * s.recLen u
/-- Records after the trigger record (R198). -/
def State.tracePost (s : State) (u : Fin 4) : Nat :=
  Nat.min (s.f (trB u) R.TR_DEPTH.post) (s.traceCap u - 1 - s.f (trB u) R.TR_DEPTH.pre)

def State.traceArm (s : State) (u : Fin 4) : State :=
  let st := s.f (trB u) R.TR_STAT.state
  if st = 0 ∨ st = 3 then
    let post := s.tracePost u
    let s := (s.setF (trB u) R.TR_STAT.wptr 0).setF (trB u) R.TR_STAT.state 1
    s.modTrace u fun _ =>
      { postLeft := post, skip := 0, missed := false, trig := false, written := 0, latched := none, run := none, readPos := 0 }
  else s

def State.traceSoft (s : State) (u : Fin 4) : State :=
  if s.f (trB u) R.TR_TRIG.trig_src = 0 then s else traceTrigger u s

def State.traceStop (s : State) (u : Fin 4) : State := s.setF (trB u) R.TR_STAT.state 0

/-- Words written one after another from an address. -/
def State.putWords (s : State) (a : Nat) (ws : List Word) : State :=
  s.each ((List.range ws.length).zip ws) fun x s => s.setWord (a + x.1) x.2

/-- The record that a TRACE job read when it started goes into the unit's buffer. -/
def State.traceRecord (s : State) (u : Fin 4) (inp : List Int) : State :=
  let st := s.f (trB u) R.TR_STAT.state
  let t := s.trace[u]
  match inp.map (BitVec.ofInt 32) with
  | [] => s
  | h :: r =>
    if st = 1 ∨ st = 2 then
      let at_ := s.f (trB u) R.TR_STAT.wptr
      let ws := (if t.trig then setBit h 8 true else h) :: r
      let s := s.putWords (0x500000 + u.val * 0x4000 + at_) ws
      let next := at_ + ws.length
      let s := s.setF (trB u) R.TR_STAT.wptr (if s.traceLen u < next + ws.length then 0 else next)
      let s := if t.trig then s.setF (trB u) R.TR_STAT.trig_pos at_ else s
      let s := s.modTrace u fun t => { t with trig := false, written := t.written + 1 }
      if st = 2 ∧ !s.fb (trB u) R.TR_CFG.mode then
        let left := if t.trig then t.postLeft else t.postLeft - 1
        let s := s.modTrace u fun t => { t with postLeft := left }
        if left = 0 then s.setF (trB u) R.TR_STAT.state 3 else s
      else s
    else s

/-- TRACE. -/
def State.traceJob (s : State) (u : Fin 4) : State := s.finish (.trace u) fun r s => (s.traceRecord u r.inp, false)

/-- Words that the DONE buffer offers, oldest first (R199): their number and the offset of the first. -/
def State.traceKept (s : State) (u : Fin 4) : Nat × Nat :=
  let len := s.recLen u
  let post := s.tracePost u
  let before := (s.trace[u]).written - 1 - post
  let pre := Nat.min (Nat.min (s.f (trB u) R.TR_DEPTH.pre) (s.traceCap u - 1 - post)) before
  let size := Nat.max 1 (s.traceLen u)
  ((pre + 1 + post) * len, (s.f (trB u) R.TR_STAT.trig_pos + size - pre * len % size) % size)

/-- The next words of a bulk read of a DONE buffer (R397). -/
def State.traceTake (s : State) (u : Fin 4) (n : Nat) : State × List Word :=
  let (total, first) := s.traceKept u
  let pos := (s.trace[u]).readPos
  let k := Nat.min n (total - pos)
  let size := Nat.max 1 (s.traceLen u)
  (s.modTrace u fun t => { t with readPos := pos + k },
    (List.range k).map fun i => s.word (0x500000 + u.val * 0x4000 + (first + pos + i) % size))

end Sys2Proof.Machine
end

