-- ==== Sys2Proof/Machine/Units.lean ====
section
/-! DEFINITION. The units of the device as the steward shows and keeps them (01_architecture R11, 12_faults_and_stewardship
R333, R334, R340, ST_SPARE, ST_HVAL): the role of a unit, the spares left, the retirement map and its restoration. -/

namespace Sys2Proof.Machine

/-- Slices of a group. -/
def grpSlices (g : Nat) : Nat := if g < 6 then 5 else 4

/-- Roles of ST_HVAL: 0 in service, 1 spare, 2 retired, 3 no such unit. -/
def maskRole (inServ spare k : Nat) : Nat := if bitAt inServ k then 0 else if bitAt spare k then 1 else 2

def State.laneRole (s : State) (i : Nat) : Nat :=
  if h : i < 8 then
    match (s.lanes[i]).st with
    | .inService | .draining => 0
    | .spare => 1
    | .retired => 2
  else 3

def State.sliceRole (s : State) (i : Nat) : Nat :=
  let g := i / 8
  let k := i % 8
  if h : g < 9 then
    if grpSlices g ≤ k then 3
    else
      let b := grpB ⟨g, h⟩
      if bitAt (s.f b R.SEN_ROLE.retired) k then 2
      else if !s.fb b R.SEN_ROLE.no_spare && s.slice ⟨g, h⟩ (spareRole ⟨g, h⟩) == k then 1 else 0
  else 3

def State.ampRole (s : State) (i : Nat) : Nat :=
  if h : i / 4 < 6 then
    let n : Mcn := ⟨i / 4, h⟩
    if bitAt (s.f (ampB n) R.SEN_AMPMAP.retired) (i % 4) then 2
    else if s.ampSpare n && s.f (ampB n) R.SEN_AMPMAP.amp_spare == i % 4 then 1 else 0
  else 3

def State.gateSegRole (s : State) (i : Nat) : Nat :=
  if h : i / 72 < 40 then
    let g := s.gate ⟨i / 72, h⟩
    let d : Fin 2 := ⟨i / 36 % 2, by omega⟩
    maskRole g.inServ[d] g.spare[d] (i % 36)
  else 3

def State.stepSegRole (s : State) (i : Nat) : Nat :=
  if h : i / 18 < 16 then
    let c := (s.stp[bridgeChan ⟨i / 18, h⟩]).coils[bridgeCoil ⟨i / 18, h⟩]
    maskRole c.inServ c.spare (i % 18)
  else 3

def State.sensRole (s : State) (i : Nat) : Nat :=
  if h : i / 16 < 3 then
    let d : Fin 3 := ⟨i / 16, h⟩
    let p := i % 16
    if dieRoles d < p then 3
    else if s.sensBroken d p then 2
    else if p = dieRoles d ∧ !s.fb d.val R.TH_SENS_STAT.spare_used then 1 else 0
  else 3

def State.linkRole (s : State) (i : Nat) : Nat :=
  if h : i / 10 < 2 then
    let l := s.link[(⟨i / 10, h⟩ : Rg)]
    let d : Fin 2 := ⟨i / 5 % 2, by omega⟩
    if (l.excluded[d]).contains (i % 5) then 2
    else if i % 5 = 4 ∧ !(l.spareUsed[d]) then 1 else 0
  else 3

def State.rowRole (s : State) (i : Nat) : Nat :=
  if i < 512 then (if s.rowMap.any fun p => p.1 == i then 2 else 0)
  else if i < 528 then
    (if s.rowDead.contains i then 2 else if s.rowMap.any fun p => p.2 == i then 0 else 1)
  else 3

/-- The role of a unit (ST_HVAL.role). -/
def State.role (s : State) (u : Nat) : Nat :=
  let i := u % 4096
  match u / 4096 with
  | 1 => s.laneRole i
  | 2 => s.sliceRole i
  | 3 => s.ampRole i
  | 4 => if i < 40 then 0 else 3
  | 5 => s.gateSegRole i
  | 6 => if i < 16 then 0 else 3
  | 7 => s.stepSegRole i
  | 8 => s.sensRole i
  | 9 => s.linkRole i
  | 10 => s.rowRole i
  | _ => 3

/-! ## Spares left (ST_SPARE0, ST_SPARE1) -/

def popLen (m n : Nat) : Nat := (List.range n).foldl (fun c b => c + b2n (bitAt m b)) 0

def State.spareWord0 (s : State) : Nat :=
  let lanes := ((List.range 8).filter fun i => s.laneRole i == 1).length
  let slices := ((List.finRange 9).filter fun g => !s.fb (grpB g) R.SEN_ROLE.no_spare).length
  let amps := (allMc.filter fun n => s.ampSpare n).length
  let sens := ((List.finRange 3).filter fun d => !s.fb d.val R.TH_SENS_STAT.no_spare).length
  let link := ((List.range 20).filter fun i => s.linkRole i == 1).length
  lanes + slices * 4 + amps * 64 + sens * 512 + link * 2048 + s.rowSpares.length * 16384

def State.spareWord1 (s : State) : Nat :=
  let gate := s.gates.foldl (fun t g => t + popLen g.spare[(0 : Fin 2)] 36 + popLen g.spare[(1 : Fin 2)] 36) 0
  let step := s.stp.foldl (fun t p => t + popLen (p.coils[(0 : Fin 2)]).spare 18 + popLen (p.coils[(1 : Fin 2)]).spare 18) 0
  gate + step * 65536

/-! ## The retirement map (R340) -/

/-- Bits of the map, each with its unit: ranges of first bit, number, and unit of the first bit. -/
def mapRanges : List (Nat × Nat × Nat) :=
  [(0, 8, 0x1000), (8, 72, 0x2000), (80, 24, 0x3000), (104, 2880, 0x5000), (2984, 288, 0x7000), (3272, 48, 0x8000),
    (3320, 20, 0x9000), (3340, 528, 0xA000)]

/-- The retired units of a range. -/
def State.retiredIn (s : State) (first n : Nat) : List Nat :=
  ((List.range n).map (· + first)).filter fun u => s.role u == 2

/-- The retirement map as one number, bit b by R340. -/
def State.retireMap (s : State) : Nat :=
  mapRanges.foldl (fun m r => m + ((s.retiredIn r.2.2 r.2.1).foldl (fun t u => t + 2 ^ (r.1 + u - r.2.2)) 0)) 0

/-- A unit pool starts with its retired units out: the others in service in rising order, then the spares. A unit in the
place of a retired one is a spare; the rest keep their own places. (DEDUCED, log 49) -/
def poolSplit (total serve dead : Nat) : Nat × Nat :=
  let alive := (List.range total).filter fun k => !bitAt dead k
  let mask (l : List Nat) : Nat := l.foldl (fun m k => m + 2 ^ k) 0
  (mask (alive.take serve), mask (alive.drop serve))

/-- Places 0 to n - 1 of a map each hold their own unit, or the spare `n` where that unit is retired; 7 with no spare
left. (DEDUCED, log 49) -/
def placed (n dead k : Nat) : Nat := if bitAt dead k then (if bitAt dead n then 7 else n) else k

/-- Is the spare of such a pool still free? -/
def spareFree (n dead : Nat) : Bool := !bitAt dead n && (List.range n).all fun k => !bitAt dead k

def State.restoreLanes (s : State) (dead : Nat) : State :=
  let (ins, sp) := poolSplit 8 6 dead
  let s := s.each (List.finRange 8) fun i s =>
    s.laneState i (if bitAt ins i.val then .inService else if bitAt sp i.val then .spare else .retired)
  if sp = 0 then s.setWord 0x2002 (setBit (s.word 0x2002) 1 true) else s

def State.restoreSlices (s : State) (dead : Nat) : State :=
  s.each (List.finRange 9) fun g s =>
    let d := dead / 2 ^ (8 * g.val) % 2 ^ grpSlices g.val
    if d = 0 then s
    else
      let n := spareRole g
      let free := spareFree n d
      let b := grpB g
      let s := s.each (List.range n) fun k s => s.setF b ⟨0, 3 * k, 3⟩ (placed n d k)
      let s := (s.setF b ⟨0, 3 * n, 3⟩ (if free then n else 7)).setF b R.SEN_ROLE.retired d
      let s := s.setF b R.SEN_ROLE.no_spare (b2n (!free))
      if free then s else s.setWord 0x2002 (setBit (s.word 0x2002) 2 true)

def State.restoreAmps (s : State) (dead : Nat) : State :=
  s.each allMc fun n s =>
    let d := dead / 2 ^ (4 * n.val) % 16
    if d = 0 then s
    else
      let b := ampB n
      let free := spareFree 3 d
      let s := s.each (List.range 3) fun k s => s.setF b ⟨0x39, 2 * k, 2⟩ (placed 3 d k)
      let s := (s.setF b R.SEN_AMPMAP.amp_spare (if free then 3 else 0)).setF b R.SEN_AMPMAP.retired d
      let s := s.setF b R.SEN_AMPMAP.no_spare (b2n (!free))
      if free then s else s.setWord 0x2002 (setBit (s.word 0x2002) 3 true)

def State.restoreGates (s : State) (dead : Nat) : State :=
  s.each (List.finRange 40) fun o s =>
    s.each ([0, 1] : List (Fin 2)) fun d s =>
      let m := dead / 2 ^ (72 * o.val + 36 * d.val) % 2 ^ 36
      if m = 0 then s
      else
        let (ins, sp) := poolSplit 36 32 m
        let s := s.modGate o fun g => { g with inServ := upd g.inServ d ins, spare := upd g.spare d sp }
        if sp = 0 then s.setWord 0x2002 (setBit (s.word 0x2002) 5 true) else s

def State.restoreSteps (s : State) (dead : Nat) : State :=
  s.each (List.finRange 16) fun h s =>
    let m := dead / 2 ^ (18 * h.val) % 2 ^ 18
    if m = 0 then s
    else
      let (ins, sp) := poolSplit 18 16 m
      let s := s.modCoil (bridgeChan h) (bridgeCoil h) fun c => { c with inServ := ins, spare := sp }
      if sp = 0 then s.setWord 0x2002 (setBit (s.word 0x2002) 7 true) else s

def State.restoreSensors (s : State) (dead : Nat) : State :=
  s.each (List.finRange 3) fun d s =>
    let n := dieRoles d
    let m := dead / 2 ^ (16 * d.val) % 2 ^ (n + 1)
    if m = 0 then s
    else
      let s := (s.setF d.val R.TH_SENS_STAT.broken m).setF d.val R.TH_SENS_STAT.no_spare 1
      let s := s.setWord 0x2002 (setBit (s.word 0x2002) 8 true)
      match (List.range n).find? (bitAt m) with
      | some r =>
        if bitAt m n then s
        else (s.setF d.val R.TH_SENS_STAT.spare_role r).setF d.val R.TH_SENS_STAT.spare_used 1
      | none => s

def State.restoreLinks (s : State) (dead : Nat) : State :=
  s.each allRg fun k s =>
    s.each ([0, 1] : List (Fin 2)) fun d s =>
      let m := dead / 2 ^ (10 * k.val + 5 * d.val) % 32
      if m = 0 then s
      else
        let s := s.modLink k fun l => { l with
          excluded := upd l.excluded d ((List.range 5).filter (bitAt m)), spareUsed := upd l.spareUsed d true }
        s.setWord 0x2002 (setBit (s.word 0x2002) 9 true)

def State.restoreRows (s : State) (dead : Nat) : State :=
  let s : State := { s with rowDead := (List.range 16).filterMap fun i => if bitAt dead (512 + i) then some (512 + i) else none }
  let s := s.each (List.range 512) fun g s =>
    if bitAt dead g then (match s.rowSpares with | u :: _ => s.rowTake g u | [] => s) else s
  let s := s.setF pk R.ATL_STAT.rg_spares s.rowSpares.length
  if s.rowSpares.isEmpty then s.setWord 0x2002 (setBit (s.word 0x2002) 10 true) else s

/-- The retirement map is applied before any unit enters service (R334, R358). (DEDUCED, log 49) -/
def State.restoreMap (s : State) (m : Nat) : State :=
  let part (first n : Nat) : Nat := m / 2 ^ first % 2 ^ n
  (((((((s.restoreLanes (part 0 8)).restoreSlices (part 8 72)).restoreAmps (part 80 24)).restoreGates
    (part 104 2880)).restoreSteps (part 2984 288)).restoreSensors (part 3272 48)).restoreLinks (part 3320 20)).restoreRows
    (part 3340 528)

end Sys2Proof.Machine
end

