-- ==== Sys2Proof/Machine/Flash.lean ====
section
/-! DEFINITION. The attached flash (12_faults_and_stewardship R335, R342; 13_image_boot_and_security R344, R356;
14_serial_ports_and_lyjan R397, R403, R406): bytes read, programmed and erased. A byte never programmed reads 0xFF (R356, R397).
Programming a byte that is not erased leaves it at a free value, as does an operation that fails: the spec gives neither. -/

namespace Sys2Proof.Machine

/-- Cells of the canonical form: addresses strictly rising, and none that holds 0xFF. -/
def Flash.wf : List Host.Cell → Bool
  | [] => true
  | (a, b) :: rest => (match rest with | [] => true | (a', _) :: _ => decide (a < a')) && b != 255 && Flash.wf rest

/-- The list without an address. -/
def eraseCell : List Host.Cell → Nat → List Host.Cell
  | [], _ => []
  | (x, b) :: rest, a => if x = a then eraseCell rest a else (x, b) :: eraseCell rest a

/-- The list with an address's byte put in its place, addresses rising. -/
def insertCell : List Host.Cell → Nat → BitVec 8 → List Host.Cell
  | [], a, v => [(a, v)]
  | (x, b) :: rest, a, v =>
    if a < x then (a, v) :: (x, b) :: rest
    else if x = a then (a, v) :: rest
    else (x, b) :: insertCell rest a v

/-- A byte put into the list: 0xFF removes its entry. -/
def putByte (m : List Host.Cell) (a : Nat) (v : BitVec 8) : List Host.Cell :=
  if v = 255 then eraseCell m a else insertCell m a v

/-- `n` bytes from address `a` on, given cells that begin at or past `a`. -/
def bytesFrom : Nat → Nat → List Host.Cell → List Nat
  | 0, _, _ => []
  | n + 1, a, [] => 255 :: bytesFrom n (a + 1) []
  | n + 1, a, (x, b) :: rest =>
    if x = a then b.toNat :: bytesFrom n (a + 1) rest else 255 :: bytesFrom n (a + 1) ((x, b) :: rest)

/-- `n` bytes of the flash from an address on. -/
def flashBytes (m : List Host.Cell) (a n : Nat) : List Nat := bytesFrom n a (m.dropWhile fun c => decide (c.1 < a))

/-- Bytes as words, least significant byte first; an incomplete last word is left out. -/
def leWords : List Nat → List Nat
  | a :: b :: c :: d :: rest => (a + 256 * b + 65536 * c + 16777216 * d) :: leWords rest
  | _ => []

/-- Words of the flash. -/
def flashWords (m : List Host.Cell) (a n : Nat) : List Nat := leWords (flashBytes m a (4 * n))

/-- A range erased. (DESIGN CHOICE, log 51) -/
def State.flashErase (s : State) (a n : Nat) : State :=
  { s with flash := s.flash.filter fun c => decide (c.1 < a) || decide (a + n ≤ c.1) }

/-- A range left at free values. (DESIGN CHOICE, log 51) -/
def State.flashFree (s : State) (a n : Nat) : State :=
  s.each (List.range n) fun i s =>
    { s with flash := putByte s.flash (a + i) (BitVec.ofNat 8 s.freeNat), fresh := s.fresh + 1 }

/-- Bytes programmed one after another: an erased byte takes its value. (DESIGN CHOICE, log 51) -/
def State.flashProgram (s : State) : Nat → List Nat → State
  | _, [] => s
  | a, b :: bs =>
    let s :=
      if flashByte s.flash a = 255 then { s with flash := putByte s.flash a (BitVec.ofNat 8 b) } else s.flashFree a 1
    s.flashProgram (a + 1) bs

/-! ## The memory port's present mode (MP_STAT, R345, R346, R403) -/

def State.memMode (s : State) (mode clk dly : Nat) : State :=
  ((s.setF pk R.MP_STAT.mode mode).setF pk R.MP_STAT.clk_mhz clk).setF pk R.MP_STAT.dqs_dly dly

/-- Users of the memory port: 0 none, 1 image load, 2 sheet reload, 3 logbook, 4 NVM pass-through. -/
def State.memUser (s : State) (u : Nat) : State := { s with mp := { s.mp with user := u } }

end Sys2Proof.Machine
end

