-- ==== Sys2Proof/Machine/Logbook.lean ====
section
/-! DEFINITION. The logbook (12_faults_and_stewardship R335 to R342, 11 R301, R304 for the temperatures): requests, the
record, its write and its failures, and the restoration by basecamp. -/

namespace Sys2Proof.Machine

/-- The wall counter in 4 ns (R81); 0 in OFF. -/
def State.wall (s : State) : Nat := if s.dev.st = .off then 0 else (s.now - s.boot.relAt) / 2

/-- Operating seconds over all boots (R336). -/
def State.opSeconds (s : State) : Nat := s.log.opBase + s.log.opTicks / 500000000

/-- First byte of the logbook area (R335, DEV_LOG_BASE). -/
def State.logBase (s : State) : Nat := s.f pk R.DEV_LOG_BASE.base * 4096

/-- More than 16 bad sectors stop the logbook (R342). -/
def State.logStopped (s : State) : Bool := decide (16 < s.log.bad.length)

/-! ## Requests (R336) -/

/-- 3,600 s of operation have passed since the latest hourly request. -/
def State.logHourly (s : State) : State :=
  if s.dev.st.operates ∧ (s.log.hours + 1) * 1800000000000 ≤ s.log.opTicks then
    ({ s with log := { s.log with hours := s.log.hours + 1 } }).logRequest 1
  else s

/-- A write of LOG_CMD.now. -/
def State.logNow (s : State) : State := if s.dev.st = .off then s else (s.logRequest 4).answer .ok

/-! ## Temperatures since the previous record (R338) -/

/-- The present temperatures in the order of the record: dies, TH0 to TH3, the hottest switch model of each motor cluster,
the brake models. -/
def State.tempsNow (s : State) : List Int :=
  (List.finRange 3).map (fun d => s.dieT d)
    ++ (List.finRange 4).map (fun k => (s.ntc[k]).t)
    ++ allMc.map (fun n => ((s.mc[n]).models.foldl (fun m x => if m < x.tj then x.tj else m) (-32768)))
    ++ allRg.map (fun r => (s.brake[r]).tj)

/-- Highest temperatures so far, with the present ones. -/
def State.tempsMax (s : State) : List Int :=
  let now := s.tempsNow
  (List.range now.length).map fun i =>
    let t := nth now i 0
    let old := nth s.log.maxT i t
    if old < t then t else old

/-- The present temperatures are noted. -/
def State.noteTemps (s : State) : State := { s with log := { s.log with maxT := s.tempsMax } }

/-! ## The record (R338 to R340) -/

/-- The health list: at most 255 entries, the highest counters first in choice, in rising order of identifiers (R339).
(DEDUCED, log 49) -/
def healthList (h : List (Nat × Nat)) : List (Nat × Nat) :=
  h.filter fun x => decide ((h.filter fun y => decide (x.2 < y.2) || (y.2 == x.2 && decide (y.1 < x.1))).length < 255)

/-- Slot of the running image (DEV_STATE.image_slot). -/
def dstateCode : DState → Nat
  | .off => 0 | .basecamp => 1 | .verify => 2 | .ready => 3 | .run => 4 | .bivouac => 5 | .recovery => 6

/-- A list of words brought to a length with zeros. -/
def padTo (n : Nat) (l : List Nat) : List Nat := (l ++ List.replicate n 0).take n

/-- Words 0x000 to 0x1FF of a record. (DEDUCED, log 50) -/
def State.logRecord (s : State) (cause : Nat) : List Nat :=
  let wall := s.wall
  let bad (lo : Nat) : Nat := s.log.bad.foldl (fun m b => if lo ≤ b ∧ b < lo + 32 then m + 2 ^ (b - lo) else m) 0
  let map := s.retireMap
  let reg (a n : Nat) : List Nat := (List.range n).map fun i => (s.word (a + i)).toNat
  let temps := s.tempsMax
  let half (i : Nat) : Nat := uns 16 (clampI (-32768) 32767 (nth temps i 0))
  let rate (i : Fin 8) : Nat := nth s.log.minRate i.val (s.lanes[i]).rate % 8192
  let head := [0x4C4F4731, (s.f pk R.LOG_SEQ.seq + 1) % 2 ^ 32, 1 + 256 * cause + 0x02000000, s.opSeconds % 2 ^ 32,
    wall % 2 ^ 32, wall / 2 ^ 32 % 2 ^ 32, s.f pk R.LOG_BOOTS.boots, s.f pk R.DEV_IMG_SEQ.seq,
    b2n s.dev.slot + 256 * dstateCode s.dev.st + 65536 * s.f pk R.ST_SUB.sub_total, s.log.bad.length % 128, bad 0, bad 32,
    0, 0, 0, 0]
  let body := head ++ (List.range 128).map (fun i => map / 2 ^ (32 * i) % 2 ^ 32)
    ++ reg 0x1040 64 ++ reg 0x1010 8 ++ reg 0x1020 8
    ++ (List.range 8).map (fun i => half (2 * i) + 65536 * (if 2 * i + 1 < 15 then half (2 * i + 1) else 0))
    ++ (List.finRange 8).map rate ++ List.replicate 16 0
    ++ padTo 255 ((healthList s.health).map fun h => h.1 + 65536 * h.2)
  body ++ [crc32Words body]

/-! ## Writing (R337, R342) -/

/-- The first slot from one on that lies in a good sector; an odd slot of a bad sector leads to the next sector. -/
def goodSlot (bad : List Nat) : Nat → Nat → Option Nat
  | 0, _ => none
  | k + 1, slot =>
    if bad.contains (slot / 2) then goodSlot bad k ((slot / 2 + 1) % 64 * 2) else some slot

/-- The slot of the next record: after that of the newest (R337). (DEDUCED, log 50) -/
def State.nextSlot (s : State) : Option Nat :=
  goodSlot s.log.bad 65 (match s.log.slot with | some x => (x + 1) % 128 | none => 0)

/-- May a write take place in the present state (R336, R362)? -/
def State.logMay (s : State) : Bool := s.dev.st.operates || s.boot.phase == .logging

/-- A pending write begins (R337). (DEDUCED, log 50) -/
def State.logStart (s : State) : State :=
  match s.log.pend, s.log.busy, s.nextSlot with
  | some cause, none, some slot =>
    if s.logMay ∧ !s.logStopped ∧ (s.mp.user = 0 ∨ s.mp.user = 3) then
      let rec_ := s.logRecord cause
      let a := s.logBase + 2048 * slot
      let s := if slot % 2 = 0 then s.flashErase a 4096 else s
      let s := s.flashProgram a (rec_.flatMap wordBytes)
      ({ s with log := { s.log with pend := none, busy := some (cause, slot, s.now) } }).memUser 3
    else s
  | _, _, _ => s

/-- A write has been verified. -/
def State.logOk (s : State) (slot : Nat) : State :=
  let s := (s.setF pk R.LOG_SEQ.seq ((s.f pk R.LOG_SEQ.seq + 1) % 2 ^ 32)).inc pk R.LOG_CNT.written
  let s : State := { s with log := { s.log with
    busy := none, slot := some slot, failed := false, maxT := [], minRate := [] } }
  (if s.logStopped then s else s.assertOff 48).memUser 0

/-- A write has failed: its sector is bad, and the record goes to the next good slot (R342). -/
def State.logFail (s : State) (cause slot : Nat) : State :=
  let s := s.flashFree (s.logBase + 2048 * slot) (if slot % 2 = 0 then 4096 else 2048)
  let s := s.inc pk R.LOG_CNT.failed
  let s : State := { s with log := { s.log with
    busy := none, failed := true
    bad := if s.log.bad.contains (slot / 2) then s.log.bad else slot / 2 :: s.log.bad
    pend := some (match s.log.pend with | some c => Nat.max c cause | none => cause)
    slot := some (slot / 2 * 2 + 1) } }
  (s.assertOn 48).memUser 0

/-- 400 ms. -/
def logLimit : Nat := 200000000

/-- The read-back of the write in progress ends (R337, R342). (DEDUCED, log 50) -/
def State.logComplete (s : State) (ok : Bool) : State :=
  match s.log.busy with
  | some (cause, slot, t) => if ok ∧ s.now ≤ t + logLimit then s.logOk slot else s.logFail cause slot
  | none => s

/-- 400 ms have passed since the write's start (R337). (DEDUCED, log 50) -/
def State.logTimeout (s : State) : State :=
  match s.log.busy with
  | some (cause, slot, t) => if t + logLimit ≤ s.now then s.logFail cause slot else s
  | none => s

/-! ## Restoration (R341) -/

/-- Is a record valid: the constant and a correct CRC? -/
def recordOk (w : List Nat) : Bool := nth w 0 0 == 0x4C4F4731 && nth w 511 0 == crc32Words (w.take 511)

/-- The valid record with the highest sequence number, with its slot; the first of equals. -/
def newestRecord : List (Nat × List Nat) → Option (Nat × List Nat)
  | [] => none
  | x :: rest =>
    match newestRecord rest with
    | none => if recordOk x.2 then some x else none
    | some y => if recordOk x.2 ∧ nth y.2 1 0 ≤ nth x.2 1 0 then some x else some y

/-- The health counters of a record. -/
def healthOfWords : List Nat → List (Nat × Nat) → List (Nat × Nat)
  | [], h => h
  | w :: rest, h => if w = 0 then h else healthOfWords rest (putHealth (w % 65536) (w / 65536) h)

/-- The number that the bits of a list of words spell. -/
def wordsNat (ws : List Nat) : Nat := ws.foldr (fun w n => w + 2 ^ 32 * n) 0

/-- Basecamp scans the logbook and restores from the newest valid record. -/
def State.logRestore (s : State) : State :=
  let base := s.logBase
  let recs := (List.range 128).map fun k => (k, flashWords s.flash (base + 2048 * k) 512)
  match newestRecord recs with
  | none => s
  | some (slot, w) =>
    let map := wordsNat ((w.drop 0x10).take 128)
    let bad := nth w 0xA 0 + 2 ^ 32 * nth w 0xB 0
    let s : State := { s with
      health := healthOfWords ((w.drop 0x100).take 255) []
      log := { s.log with slot := some slot, bad := (List.range 64).filter (bitAt bad), opBase := nth w 3 0, opTicks := 0, hours := 0 } }
    let s := (s.setF pk R.ST_SUB.sub_total (nth w 8 0 / 65536)).setF pk R.LOG_BOOTS.boots (Nat.min 65535 (nth w 6 0 % 65536 + 1))
    let s := (s.setF pk R.LOG_SEQ.seq (nth w 1 0)).setF pk R.DEV_BOOT_STAT.log_restored 1
    let s := if s.logStopped then s.assertOn 48 else s
    s.restoreMap map

end Sys2Proof.Machine
end

