-- ==== Sys2Proof/Machine/CanMap.lean ====
section
/-! DEFINITION. The message RAM of the CAN controllers (15_can_fd R412 to R415, R420, R422, R428 to R430): regions, elements,
filters, routes and the schedule matrix as words, and the layout check. -/

namespace Sys2Proof.Machine

/-- A word of message RAM. -/
def ramAddr (i : Nat) : Nat := 0x600000 + i
def State.ram (s : State) (i : Nat) : Nat := (s.word (ramAddr i)).toNat
def State.setRam (s : State) (i : Nat) (w : Nat) : State := s.setWord (ramAddr i) (BitVec.ofNat 32 w)

/-- Data bytes of an element (R413). -/
def esizeBytes (e : Nat) : Nat := nth [8, 12, 16, 20, 24, 32, 48, 64] e 64
/-- Words of an element. -/
def elemWords (e : Nat) : Nat := 2 + esizeBytes e / 4

def State.cf (s : State) (n : Can) (f : Fld) : Nat := s.f (canB n) f

/-- First word of transmit buffer b, of receive buffer b, of element e of FIFO f, of route i, of filter element i, of pack
entry i. -/
def State.txAt (s : State) (n : Can) (b : Nat) : Nat := s.cf n R.CAN_TXB.base + b * elemWords (s.cf n R.CAN_TXB.esize)
def State.rxAt (s : State) (n : Can) (b : Nat) : Nat := s.cf n R.CAN_RXB.base + b * elemWords (s.cf n R.CAN_RXB.esize)
def State.fifoF (s : State) (n : Can) (f : Nat) (x : Fld) : Nat := s.f (canB n + f) x
def State.fifoAt (s : State) (n : Can) (f e : Nat) : Nat :=
  s.fifoF n f R.CAN_FIFO.base + e * elemWords (s.fifoF n f R.CAN_FIFO.esize)
def State.routeAt (s : State) (n : Can) (i : Nat) : Nat := s.cf n R.CAN_RT.base + 5 * i
def State.filterAt (s : State) (n : Can) (i : Nat) : Nat := s.cf n R.CAN_FLT.base + 3 * i
def State.packAt (s : State) (n : Can) (i : Nat) : Nat := s.cf n R.CAN_PACK.base + i

/-- Cell of cycle c and column k, and the mark of a column (R429). -/
def State.cellByte (s : State) (n : Can) (c k : Nat) : Nat :=
  s.ram (s.cf n R.CAN_TT2.base + 32 + 8 * c + k / 4) / 2 ^ (8 * (k % 4)) % 256
def State.colMark (s : State) (n : Can) (k : Nat) : Nat := s.ram (s.cf n R.CAN_TT2.base + k) % 65536
def cellValid (b : Nat) : Bool := bitAt b 7

/-- Is a buffer named by any valid cell (R429)? -/
def State.scheduled (s : State) (n : Can) (b : Nat) : Bool :=
  s.cf n R.CAN_TT.role != 0 && (List.range 64).any fun c => (List.range 32).any fun k =>
    let x := s.cellByte n c k
    cellValid x && x % 32 == b

/-! ## The layout (R412) -/

/-- Regions of a controller: first word and length. The matrix is a region while the controller keeps a schedule. -/
def State.regions (s : State) (n : Can) : List (Nat × Nat) :=
  [(s.cf n R.CAN_FLT.base, 3 * s.cf n R.CAN_FLT.count),
    (s.cf n R.CAN_RXB.base, s.cf n R.CAN_RXB.count * elemWords (s.cf n R.CAN_RXB.esize)),
    (s.fifoF n 0 R.CAN_FIFO.base, s.fifoF n 0 R.CAN_FIFO.count * elemWords (s.fifoF n 0 R.CAN_FIFO.esize)),
    (s.fifoF n 1 R.CAN_FIFO.base, s.fifoF n 1 R.CAN_FIFO.count * elemWords (s.fifoF n 1 R.CAN_FIFO.esize)),
    (s.cf n R.CAN_TXB.base, s.cf n R.CAN_TXB.count * elemWords (s.cf n R.CAN_TXB.esize)),
    (s.cf n R.CAN_RT.base, 5 * s.cf n R.CAN_RT.count),
    (s.cf n R.CAN_PACK.base, s.cf n R.CAN_PACK.count),
    (s.cf n R.CAN_TT2.base, if s.cf n R.CAN_TT.role = 0 then 0 else 544)]

def overlaps (a b : Nat × Nat) : Bool :=
  a.2 != 0 && b.2 != 0 && decide (a.1 < b.1 + b.2) && decide (b.1 < a.1 + a.2)

def noOverlap : List (Nat × Nat) → Bool
  | [] => true
  | a :: rest => !rest.any (overlaps a) && noOverlap rest

/-- A filter element breaks no rule of R414. -/
def State.filterOk (s : State) (n : Can) (i : Nat) : Bool :=
  let a := s.filterAt n i
  let w := s.ram a
  let ida := s.ram (a + 1) % 2 ^ 29
  let idb := s.ram (a + 2) % 2 ^ 29
  let kind := w % 8
  let dest := bitsAt w 8 4
  let idx := bitsAt w 12 5
  kind == 0
    || ((kind == 1 || kind == 2 || kind == 4) && bitsAt w 4 2 != 3 && decide (dest ≤ 4)
      && !(dest == 3 && decide (s.cf n R.CAN_RXB.count ≤ idx)) && !(dest == 4 && decide (s.cf n R.CAN_RT.count ≤ idx))
      && !(kind == 2 && decide (idb < ida)) && (bitAt w 3 || (decide (ida < 2048) && decide (idb < 2048))))

/-- A route entry names what exists, and its kind suits its target (R420, R422). -/
def State.routeOk (s : State) (n : Can) (i : Nat) : Bool :=
  let a := s.routeAt n i
  let w := s.ram a
  if bitAt w 0 then
    let w3 := s.ram (a + 3)
    decide (bitsAt w3 8 8 ≤ 16) && decide (bitsAt w3 0 8 + bitsAt w3 8 8 ≤ s.cf n R.CAN_PACK.count)
  else
    let t := bitsAt w 1 4
    match bitsAt w 5 4 with
    | 0 => true
    | 1 => decide (t ≤ 5)
    | 2 => decide (t ≤ 5) || decide (8 ≤ t)
    | 3 | 4 => decide (t ≤ 5)
    | 5 => decide (t ≤ 7)
    | _ => false

/-- Marks strictly ascending. -/
def marksRise : List Nat → Bool
  | a :: b :: rest => decide (a < b) && marksRise (b :: rest)
  | _ => true

/-- The schedule breaks no rule of R430. -/
def State.scheduleOk (s : State) (n : Can) : Bool :=
  s.cf n R.CAN_TT.role == 0
    || (let cycles := s.cf n R.CAN_TT.n_cycles + 1
        let cols := (List.range 32).filter fun k => (List.range 64).any fun c => cellValid (s.cellByte n c k)
        let marks := cols.map (s.colMark n)
        let rb := s.cf n R.CAN_TT.ref_buf
        [1, 2, 4, 8, 16, 32, 64].contains cycles && marksRise marks
          && marks.all (fun m => decide (m < s.cf n R.CAN_TT.cycle_len)) && !s.scheduled n rb
          && decide (rb < s.cf n R.CAN_TXB.count)
          && s.ram (s.txAt n rb) % 2 ^ 30 == (s.word (canB n + 0x1C)).toNat % 2 ^ 30)

/-- The layout check of a controller. -/
def State.layoutOk (s : State) (n : Can) : Bool :=
  let rs := s.regions n
  let others := (([0, 1, 2] : List Can).filter fun m => m != n && s.cf m R.CAN_CTRL.mode != 0).flatMap s.regions
  rs.all (fun r => decide (r.1 + r.2 ≤ 0x4000) || r.2 == 0) && noOverlap rs
    && rs.all (fun r => !others.any (overlaps r))
    && (List.range (s.cf n R.CAN_FLT.count)).all (s.filterOk n)
    && (List.range (s.cf n R.CAN_RT.count)).all (s.routeOk n) && s.scheduleOk n

end Sys2Proof.Machine
end

