-- ==== Sys2Proof/Machine/Crypto.lean ====
section
/-! DEFINITION. The algorithms that 13_image_boot_and_security R355, R366, R371 and R374 name: SHA-256, AES-128 and AES-256,
AES-CMAC and ECDSA over P-256, as the standards the spec names by their names define them (PRESUMED, log 40). Bytes are
numbers below 256, integers of a signature are big-endian. -/

namespace Sys2Proof.Machine

/-! ## SHA-256 (FIPS 180-4) -/

def shaH0 : List Nat :=
  [0x6a09e667, 0xbb67ae85, 0x3c6ef372, 0xa54ff53a, 0x510e527f, 0x9b05688c, 0x1f83d9ab, 0x5be0cd19]

def shaK : List Nat :=
  ([0x428a2f98, 0x71374491, 0xb5c0fbcf, 0xe9b5dba5, 0x3956c25b, 0x59f111f1, 0x923f82a4, 0xab1c5ed5] ++
   [0xd807aa98, 0x12835b01, 0x243185be, 0x550c7dc3, 0x72be5d74, 0x80deb1fe, 0x9bdc06a7, 0xc19bf174] ++
   [0xe49b69c1, 0xefbe4786, 0x0fc19dc6, 0x240ca1cc, 0x2de92c6f, 0x4a7484aa, 0x5cb0a9dc, 0x76f988da] ++
   [0x983e5152, 0xa831c66d, 0xb00327c8, 0xbf597fc7, 0xc6e00bf3, 0xd5a79147, 0x06ca6351, 0x14292967] ++
   [0x27b70a85, 0x2e1b2138, 0x4d2c6dfc, 0x53380d13, 0x650a7354, 0x766a0abb, 0x81c2c92e, 0x92722c85] ++
   [0xa2bfe8a1, 0xa81a664b, 0xc24b8b70, 0xc76c51a3, 0xd192e819, 0xd6990624, 0xf40e3585, 0x106aa070] ++
   [0x19a4c116, 0x1e376c08, 0x2748774c, 0x34b0bcb5, 0x391c0cb3, 0x4ed8aa4a, 0x5b9cca4f, 0x682e6ff3] ++
   [0x748f82ee, 0x78a5636f, 0x84c87814, 0x8cc70208, 0x90befffa, 0xa4506ceb, 0xbef9a3f7, 0xc67178f2])

def m32 : Nat := 4294967296
def rotr (x n : Nat) : Nat := x / 2 ^ n + x % 2 ^ n * 2 ^ (32 - n)

/-- The message schedule, newest word first. -/
def shaW : Nat → List Nat → List Nat
  | 0, l => l
  | k + 1, l =>
    let a := nth l 14 0
    let b := nth l 1 0
    let s0 := Nat.xor (Nat.xor (rotr a 7) (rotr a 18)) (a / 8)
    let s1 := Nat.xor (Nat.xor (rotr b 17) (rotr b 19)) (b / 1024)
    shaW k (((nth l 15 0 + s0 + nth l 6 0 + s1) % m32) :: l)

/-- One round: a to h, with the constant and the schedule word. -/
def shaRound (v : List Nat) (kw : Nat × Nat) : List Nat :=
  match v with
  | [a, b, c, d, e, f, g, h] =>
    let s1 := Nat.xor (Nat.xor (rotr e 6) (rotr e 11)) (rotr e 25)
    let ch := Nat.xor (Nat.land e f) (Nat.land (m32 - 1 - e) g)
    let t1 := h + s1 + ch + kw.1 + kw.2
    let s0 := Nat.xor (Nat.xor (rotr a 2) (rotr a 13)) (rotr a 22)
    let mj := Nat.xor (Nat.xor (Nat.land a b) (Nat.land a c)) (Nat.land b c)
    [(t1 + s0 + mj) % m32, a, b, c, (d + t1) % m32, e, f, g]
  | _ => v

/-- Big-endian number of a list of bytes. -/
def beNat (bs : List Nat) : Nat := bs.foldl (fun n b => n * 256 + b % 256) 0
/-- The low `k` bytes of a number, most significant first. -/
def beBytes : Nat → Nat → List Nat
  | 0, _ => []
  | k + 1, n => n / 256 ^ k % 256 :: beBytes k n

/-- The words of a block of 64 bytes. -/
def beWords : Nat → List Nat → List Nat
  | 0, _ => []
  | k + 1, bs => beNat (bs.take 4) :: beWords k (bs.drop 4)

/-- One block of 64 bytes. -/
def shaBlock (h : List Nat) (blk : List Nat) : List Nat :=
  let w := (shaW 48 (beWords 16 blk).reverse).reverse
  let v := (shaK.zip w).foldl shaRound h
  (h.zip v).map fun p => (p.1 + p.2) % m32

def shaBlocks : Nat → List Nat → List Nat → List Nat
  | 0, h, _ => h
  | k + 1, h, bs => shaBlocks k (shaBlock h (bs.take 64)) (bs.drop 64)

/-- The digest of a string of bytes, as 32 bytes. (PRESUMED, log 40) -/
def sha256 (bs : List Nat) : List Nat :=
  let n := bs.length
  let pad := bs ++ 0x80 :: (List.replicate ((119 - n % 64) % 64) 0 ++ beBytes 8 (8 * n))
  (shaBlocks (pad.length / 64) shaH0 pad).flatMap (beBytes 4)

/-! ## AES (FIPS 197) and CMAC (NIST SP 800-38B) -/

/-- The S-box: byte i of the number is its value at i. -/
def aesSboxWord : Nat :=
  0x16bb54b00f2d99416842e6bf0d89a18cdf2855cee9871e9b948ed9691198f8e19e1dc186b95735610ef6034866b53e708a8bbd4b1f74dde8c6b4a61c2e2578ba08ae7a65eaf4566ca94ed58d6d37c8e779e4959162acd3c25c2406490a3a32e0db0b5ede14b8ee4688902a22dc4f816073195d643d7ea7c41744975fec130ccdd2f3ff1021dab6bcf5389d928f40a351a89f3c507f02f94585334d43fbaaefd0cf584c4a39becb6a5bb1fc20ed00d153842fe329b3d63b52a05a6e1b1a2c830975b227ebe28012079a059618c323c7041531d871f1e5a534ccf73f362693fdb7c072a49cafa2d4adf04759fa7dc982ca76abd7fe2b670130c56f6bf27b777c63

def sbox (i : Nat) : Nat := aesSboxWord / 2 ^ (8 * (i % 256)) % 256

/-- Doubling in the field of AES. -/
def xtime (b : Nat) : Nat := if 128 ≤ b then Nat.xor (2 * b % 256) 0x1B else 2 * b

def xorBytes (a b : List Nat) : List Nat := List.zipWith Nat.xor a b

/-- The next words of a key schedule, newest first: `nk` words of key, word number `i`, round constant. -/
def aesExpand (nk : Nat) : Nat → Nat → Nat → List (List Nat) → List (List Nat)
  | 0, _, _, l => l
  | k + 1, i, rc, l =>
    let t := nth l 0 []
    let (t, rc) : List Nat × Nat :=
      if i % nk = 0 then
        (xorBytes ((t.drop 1 ++ t.take 1).map sbox) [rc, 0, 0, 0], xtime rc)
      else if nk = 8 ∧ i % nk = 4 then (t.map sbox, rc)
      else (t, rc)
    aesExpand nk k (i + 1) rc (xorBytes (nth l (nk - 1) []) t :: l)

def chunk4 : Nat → List Nat → List (List Nat)
  | 0, _ => []
  | k + 1, l => l.take 4 :: chunk4 k (l.drop 4)
def chunk16 : Nat → List Nat → List (List Nat)
  | 0, _ => []
  | k + 1, l => l.take 16 :: chunk16 k (l.drop 16)

/-- Round keys of a key of 16 or 32 bytes. -/
def aesKeys (key : List Nat) : List (List Nat) :=
  let nk := key.length / 4
  let n := 4 * (nk + 7)
  chunk16 (nk + 7) ((aesExpand nk (n - nk) nk 1 (chunk4 nk key).reverse).reverse.flatMap id)

def aesShift (s : List Nat) : List Nat :=
  [0, 5, 10, 15, 4, 9, 14, 3, 8, 13, 2, 7, 12, 1, 6, 11].map fun i => nth s i 0

def aesMixCol : List Nat → List Nat
  | [a, b, c, d] =>
    let x := Nat.xor
    [x (x (xtime a) (x (xtime b) b)) (x c d), x (x (xtime b) (x (xtime c) c)) (x a d),
      x (x (xtime c) (x (xtime d) d)) (x a b), x (x (xtime d) (x (xtime a) a)) (x b c)]
  | l => l

def aesRounds : List Nat → List (List Nat) → List Nat
  | s, [] => s
  | s, [k] => xorBytes (aesShift (s.map sbox)) k
  | s, k :: ks => aesRounds (xorBytes ((chunk4 4 (aesShift (s.map sbox))).flatMap aesMixCol) k) ks

/-- The encryption of a block of 16 bytes. (PRESUMED, log 40) -/
def aesEnc (key blk : List Nat) : List Nat :=
  match aesKeys key with
  | k :: ks => aesRounds (xorBytes blk k) ks
  | [] => blk

/-- The doubling of a subkey. -/
def cmacDouble (l : List Nat) : List Nat :=
  let n := beNat l
  beBytes 16 (Nat.xor (2 * n % 2 ^ 128) (if 2 ^ 127 ≤ n then 0x87 else 0))

/-- AES-CMAC of a string of bytes. (PRESUMED, log 40) -/
def cmac (key msg : List Nat) : List Nat :=
  let k1 := cmacDouble (aesEnc key (List.replicate 16 0))
  let k := if msg.isEmpty then 1 else (msg.length + 15) / 16
  let last := msg.drop (16 * (k - 1))
  let last := if last.length = 16 then xorBytes last k1
    else xorBytes (last ++ 0x80 :: List.replicate (15 - last.length) 0) (cmacDouble k1)
  let c := (chunk16 (k - 1) msg).foldl (fun c b => aesEnc key (xorBytes c b)) (List.replicate 16 0)
  aesEnc key (xorBytes c last)

/-! ## ECDSA over P-256 (FIPS 186-4) -/

def p256p : Nat := 0xffffffff00000001000000000000000000000000ffffffffffffffffffffffff
def p256n : Nat := 0xffffffff00000000ffffffffffffffffbce6faada7179e84f3b9cac2fc632551
def p256b : Nat := 0x5ac635d8aa3a93e7b3ebbd55769886bc651d06b0cc53b0f63bce3c3e27d2604b
def p256gx : Nat := 0x6b17d1f2e12c4247f8bce6e563a440f277037d812deb33a0f4a13945d898c296
def p256gy : Nat := 0x4fe342e2fe1a7f9b8ee7eb4a7c0f9e162bce33576b315ececbb6406837bf51f5

/-- A power modulo m, exponent bits from the top. -/
def powMod (m b e : Nat) : Nat → Nat → Nat
  | 0, acc => acc
  | k + 1, acc =>
    let a := acc * acc % m
    powMod m b e k (if bitAt e k then a * b % m else a)
/-- The inverse modulo a prime of 256 bits. -/
def invMod (m a : Nat) : Nat := powMod m (a % m) (m - 2) 256 1

/-- A point in Jacobian coordinates; the third is 0 at infinity. -/
structure JPoint where
  x : Nat
  y : Nat
  z : Nat
  deriving DecidableEq, Repr

def subP (a b : Nat) : Nat := (a + p256p - b % p256p) % p256p

def JPoint.dbl (q : JPoint) : JPoint :=
  if q.z = 0 ∨ q.y = 0 then ⟨1, 1, 0⟩
  else
    let z2 := q.z * q.z % p256p
    let m := 3 * (subP q.x z2) * (q.x + z2) % p256p
    let y2 := q.y * q.y % p256p
    let s := 4 * q.x * y2 % p256p
    let x := subP (m * m) (2 * s)
    ⟨x, subP (m * subP s x) (8 * y2 * y2), 2 * q.y * q.z % p256p⟩

def JPoint.add (a b : JPoint) : JPoint :=
  if a.z = 0 then b
  else if b.z = 0 then a
  else
    let z1 := a.z * a.z % p256p
    let z2 := b.z * b.z % p256p
    let u1 := a.x * z2 % p256p
    let u2 := b.x * z1 % p256p
    let s1 := a.y * z2 * b.z % p256p
    let s2 := b.y * z1 * a.z % p256p
    if u1 = u2 then (if s1 = s2 then a.dbl else ⟨1, 1, 0⟩)
    else
      let h := subP u2 u1
      let r := subP s2 s1
      let h2 := h * h % p256p
      let h3 := h2 * h % p256p
      let u := u1 * h2 % p256p
      let x := subP (subP (r * r) h3) (2 * u)
      ⟨x, subP (r * subP u x) (s1 * h3), h * a.z * b.z % p256p⟩

/-- u1 G + u2 Q, over 256 bits. -/
def mulAdd (u1 u2 : Nat) (g q gq : JPoint) : Nat → JPoint → JPoint
  | 0, acc => acc
  | k + 1, acc =>
    let a := acc.dbl
    let a := match bitAt u1 k, bitAt u2 k with
      | true, true => a.add gq
      | true, false => a.add g
      | false, true => a.add q
      | false, false => a
    mulAdd u1 u2 g q gq k a

/-- Does the signature (r, s) of a digest verify under the public key (x, y)? (PRESUMED, log 40) -/
def ecdsaOk (x y r s : Nat) (digest : List Nat) : Bool :=
  let onCurve := decide (x < p256p) && decide (y < p256p)
    && (y * y % p256p == (x * x * x + (p256p - 3) * x + p256b) % p256p)
  if !onCurve || r == 0 || decide (p256n ≤ r) || s == 0 || decide (p256n ≤ s) then false
  else
    let w := invMod p256n s
    let u1 := beNat digest * w % p256n
    let u2 := r * w % p256n
    let g : JPoint := ⟨p256gx, p256gy, 1⟩
    let q : JPoint := ⟨x, y, 1⟩
    let t := mulAdd u1 u2 g q (g.add q) 256 ⟨1, 1, 0⟩
    if t.z = 0 then false
    else
      let zi := invMod p256p t.z
      t.x * (zi * zi % p256p) % p256p % p256n == r

end Sys2Proof.Machine
end

