-- ==== Sys2Proof/Machine/Image.lean ====
section
/-! DEFINITION. The configuration image (13_image_boot_and_security R347 to R357, R369): its header and section table, the
register records and sheets that the loader applies while the image streams, and the checks after the stream. An image is
handled as its words, least significant byte first. -/

namespace Sys2Proof.Machine

/-! ## Reasons (DEV_BOOT_STAT) -/

inductive Reason where
  | passed | notTried | read | header | device | key | layout | section_ | sheet | signature | check | keyref | chain
  | start
  deriving DecidableEq, Repr

def Reason.code : Reason → Nat
  | .passed => 0 | .notTried => 1 | .read => 2 | .header => 3 | .device => 4 | .key => 5 | .layout => 6 | .section_ => 7
  | .sheet => 8 | .signature => 9 | .check => 10 | .keyref => 11 | .chain => 12 | .start => 13

/-- First byte of a slot (R344). -/
def slotBase (k : Fin 2) : Nat := if k.val = 0 then 0 else 0x1000000

/-! ## Key slots (R367) -/

/-- A slot holds a key of a usage that is not revoked. -/
def KeySlot.holds (k : KeySlot) (usage : Nat) : Bool := k.type != 0 && k.usage == usage && !k.revoked

/-- The key of a slot as bytes in order. (PRESUMED, log 40) -/
def KeySlot.bytes (k : KeySlot) : List Nat := k.key.flatMap fun w => wordBytes w.toNat

def State.slot (s : State) (i : Nat) : KeySlot := if h : i < 16 then s.sec.slots[i] else KeySlot.reset

/-! ## The header (R347, R348, R369) -/

def hdrLength (h : List Nat) : Nat := nth h 2 0
def hdrSequence (h : List Nat) : Nat := nth h 3 0
def hdrAutorun (h : List Nat) : Bool := bitAt (nth h 4 0) 24
def hdrKeySlot (h : List Nat) : Nat := bitsAt (nth h 5 0) 0 8
def hdrRollback (h : List Nat) : Nat := bitsAt (nth h 5 0) 8 8
def hdrSections (h : List Nat) : Nat := bitsAt (nth h 5 0) 16 16

/-- Rules of reason HEADER. -/
def headerOk (h : List Nat) : Bool :=
  let len := hdrLength h
  nth h 63 0 == crc32Words (h.take 63) && nth h 0 0 == 0x49514C53 && nth h 1 0 == 0x01000001
    && len % 4 == 0 && decide (0x400 ≤ len) && decide (len ≤ 0x800000)
    && decide (1 ≤ hdrSequence h) && decide (hdrSequence h ≤ 0xFFFFFFFE)
    && (decide (hdrKeySlot h ≤ 15) || hdrKeySlot h == 255) && decide (hdrRollback h ≤ 32)
    && decide (1 ≤ hdrSections h) && decide (hdrSections h ≤ 64) && nth h 6 0 == 0x100
    && decide (nth h 4 0 / 2 ^ 25 = 0) && ((h.take 63).drop 10).all (· == 0)

/-- Rules of reason DEVICE: part code and silicon steps. (UNVERIFIED, log 70) -/
def deviceOk (h : List Nat) : Bool :=
  let w := nth h 4 0
  w % 65536 == 0x0648 && decide (bitsAt w 16 4 ≤ (Config.siliconStep 2).toNat)
    && decide (bitsAt w 20 4 ≤ (Config.siliconStep 0).toNat) && decide (bitsAt w 20 4 ≤ (Config.siliconStep 1).toNat)

/-- Rules of reason KEY by the lifecycle (R369). -/
def State.keyOk (s : State) (h : List Nat) : Bool :=
  let k := hdrKeySlot h
  let verifies := decide (k ≤ 15) && (s.slot k).type == 3 && (s.slot k).holds 0
  match s.sec.life with
  | 0 => k == 255 || verifies
  | 1 => verifies && decide (s.sec.rb ≤ hdrRollback h)
  | _ => false

def State.headerReason (s : State) (h : List Nat) : Reason :=
  if !headerOk h then .header
  else if !deviceOk h then .device
  else if !s.keyOk h then .key
  else .notTried

/-! ## The section table (R349) -/

structure Sect where
  type : Nat
  inst : Nat
  off  : Nat
  len  : Nat
  crc  : Nat
  deriving DecidableEq, Repr

def sectOf (img : List Nat) (i : Nat) : Sect :=
  let w := (img.drop (64 + 4 * i)).take 4
  { type := nth w 0 0 % 65536, inst := nth w 0 0 / 65536, off := nth w 1 0, len := nth w 2 0, crc := nth w 3 0 }

/-- Highest instance of a type. -/
def typeInst (t : Nat) : Option Nat :=
  match t with
  | 1 | 5 | 6 | 8 | 9 | 10 => some 0
  | 2 => some 7
  | 3 | 4 => some 8
  | 7 => some 2
  | _ => none

/-- Judgement of the table, entry by entry: the first failing entry decides. `low` is the least offset of the next
section, `prev` the type and instance before it. -/
def tableReason (total : Nat) : Nat → Nat → Option (Nat × Nat) → List Sect → Option (Reason × Nat)
  | _, _, _, [] => none
  | i, low, prev, x :: rest =>
    if !((typeInst x.type).any fun m => decide (x.inst ≤ m)) then some (.section_, i)
    else if x.off % 4 ≠ 0 ∨ x.len % 4 ≠ 0 ∨ x.len = 0 ∨ x.off < low ∨ total < x.off + x.len + 64
        ∨ prev.any (fun p => decide (x.type < p.1) || (x.type == p.1 && decide (x.inst ≤ p.2))) then some (.layout, i)
    else tableReason total (i + 1) (x.off + x.len) (some (x.type, x.inst)) rest

/-! ## Register records (R350) -/

/-- The key that a record's word is stored under; none outside the window of the section. -/
def sectKey (t inst a : Nat) : Option Nat :=
  let set (k : Nat) : Option Nat := some (if t = 4 then k else a)
  match t with
  | 1 =>
    match locate a with
    | (.dev, _) | (.kl, _) | (.stw, _) | (.ser, _) | (.ln, _) | (.atl, _) | (.tr, _) => some a
    | (.fc, o) => if o < 0x1100 then some a else none
    | (.th, o) => if o < 0x3040 then some a else none
    | (.sec, o) => if o = 0x4008 ∨ o = 0x4009 then some a else none
    | (.rg _, o) => if 0x200 ≤ o ∧ o < 0x800 ∧ !(0x280 ≤ o ∧ o < 0x284) then some a else none
    | _ => none
  | 2 =>
    match locate a with
    | (.mc n, _) => if n.val = inst then some a else none
    | (.st k, _) => if 6 + k.val / 4 = inst then some a else none
    | (.rg r, o) => if o = 0x100 ∧ 6 + r.val = inst then some a else none
    | _ => none
  | 3 | 4 =>
    match locate a with
    | (.mcSet n false, _) => if n.val = inst then set (a + 0x4000) else none
    | (.stSet k false, _) => if 6 + k.val / 4 = inst then set (a + 0x400) else none
    | (.fc, o) => if inst = 8 ∧ 0x1100 ≤ o then set (a + 0x1000000) else none
    | (.th, o) => if inst = 8 ∧ 0x3040 ≤ o then set (a + 0x1000000) else none
    | (.rg _, o) => if inst = 8 ∧ 0x280 ≤ o ∧ o < 0x284 then set (a + 0x1000000) else none
    | (.can _, o) => if inst = 8 ∧ (o = 5 ∨ o = 6) then set (a + 0x1000000) else none
    | _ => none
  | 7 =>
    match locate a with
    | (.can n, o) => if n.val = inst ∧ o ≠ 5 ∧ o ≠ 6 then some a else none
    | (.canRam, o) => if o < 0x4000 then some a else none
    | _ => none
  | _ => none

/-- The stored personality of a set's cluster (R279). -/
def State.storedConv (s : State) (b : Blk) : Bool :=
  match b with
  | .mcSet n _ | .mc n => s.f (mcB n) R.MC_CONV_CFG.personality == 1
  | _ => false

/-- One word of a record: none where the word gives reason SECTION. -/
def State.loadWord (s : State) (t inst a w : Nat) : Option State :=
  match sectKey t inst a with
  | none => none
  | some key =>
    let (b, o) := locate a
    let keep (s : State) : State := { s with boot := { s.boot with written := key :: s.boot.written } }
    match b with
    | .canRam => some ((keep s).setWord key (BitVec.ofNat 32 w))
    | _ =>
      match regAt a with
      | none => none
      | some (d, _) =>
        let ctrl : Bool := match b with | .can _ => o == 0 | _ => false
        if (d.fields.any (fun f => f.cls == .wo) && !ctrl) || refusedWhole d (BitVec.ofNat 32 w) then none
        else
          some ((keep s).setWord key (imageWord d b (s.storedConv b) o (s.word key) (BitVec.ofNat 32 w)))

/-- Consecutive words of one record. The Boolean says whether the load goes on. -/
def loadWords (t inst : Nat) : Nat → List Nat → State → State × Bool
  | _, [], s => (s, true)
  | a, w :: ws, s =>
    match s.loadWord t inst a w with
    | none => (s, false)
    | some s => loadWords t inst (a + 1) ws s

/-- A section of register records. -/
def loadRecords (t inst : Nat) : Nat → List Nat → State → State × Bool
  | 0, ws, s => (s, ws.isEmpty)
  | _ + 1, [], s => (s, true)
  | k + 1, h :: ws, s =>
    let n := h / 2 ^ 24
    if n = 0 ∨ ws.length < n then (s, false)
    else
      match loadWords t inst (h % 2 ^ 24) (ws.take n) s with
      | (s, true) => loadRecords t inst k (ws.drop n) s
      | (s, false) => (s, false)

/-! ## Sheets (R351) -/

/-- The sheets of one run: `at_` is the flash address of the first. -/
def loadSheets : Nat → Nat → Nat → List Nat → State → State × Bool
  | 0, _, _, _, s => (s, true)
  | c + 1, n, at_, ws, s =>
    if 4096 ≤ n then (s, false)
    else
      let s := s.putWords (sheetAddr n) ((ws.take 256).map fun w => BitVec.ofNat 32 w)
      if s.sheetTest n = 1 then
        let s : State := { s.setSheet n 1 with imgSheets := (n, at_) :: s.imgSheets.filter (fun p => p.1 != n) }
        loadSheets c (n + 1) (at_ + 1024) (ws.drop 256) s
      else (s, false)

/-- A section of sheet runs. -/
def loadRuns : Nat → Nat → List Nat → State → State × Option Reason
  | 0, _, ws, s => (s, if ws.isEmpty then none else some .section_)
  | _ + 1, _, [], s => (s, none)
  | k + 1, at_, h :: ws, s =>
    let c := bitsAt h 12 12
    if c = 0 ∨ h / 2 ^ 24 ≠ 0 ∨ ws.length < 256 * c then (s, some .section_)
    else
      match loadSheets c (h % 4096) (at_ + 4) ws s with
      | (s, true) => loadRuns k (at_ + 4 + 1024 * c) (ws.drop (256 * c)) s
      | (s, false) => (s, some .sheet)

/-! ## Routes, chain map, key references and rules (R352 to R354) -/

def waypointOf (w : List Nat) : Option Waypoint :=
  let v := nth w 2 0
  let a := nth w 3 0
  let l := nth w 4 0
  if v = 0 ∨ a = 0 ∨ l / 2 ^ 17 ≠ 0 then none
  else some { tgt := sgn 64 (nth w 0 0 + 2 ^ 32 * nth w 1 0), v := v, a := a, dwell := l % 65536, stop := bitAt l 16 }

def waypointsOf : Nat → List Nat → Option (List Waypoint)
  | 0, _ => some []
  | k + 1, ws =>
    match waypointOf (ws.take 5), waypointsOf k (ws.drop 5) with
    | some p, some ps => if ws.length < 5 then none else some (p :: ps)
    | _, _ => none

/-- The routes of a section: none where the section is malformed. -/
def routesOf : Nat → List Nat → Option (List (Nat × List Waypoint))
  | 0, ws => if ws.isEmpty then some [] else none
  | _ + 1, [] => none
  | m + 1, h :: ws =>
    let k := bitsAt h 8 5
    if k = 0 ∨ 16 < k ∨ h / 2 ^ 13 ≠ 0 then none
    else
      match waypointsOf k ws, routesOf m (ws.drop (5 * k)) with
      | some ps, some rs => if rs.any (fun r => r.1 == h % 256) then none else some ((h % 256, ps) :: rs)
      | _, _ => none

def routeTable : List Nat → Option (List (Nat × List Waypoint))
  | [] => none
  | m :: ws => if m = 0 ∨ 256 < m then none else routesOf m ws

/-- Is the structure of a CHAIN, KEYREF or START section right? -/
def shapeOk (t : Nat) (ws : List Nat) : Bool :=
  match t with
  | 8 => ws.length == 17
  | 9 => decide (nth ws 0 0 ≤ 15) && ws.length == nth ws 0 0 + 1
  | 10 =>
    let c := nth ws 0 0
    decide (c ≤ 8) && ws.length == 1 + 2 * c && (List.range c).all fun i => bitsAt (nth ws (1 + 2 * i) 0) 8 8 == 0
  | _ => true

/-! ## The stream (R356) -/

/-- Does the logbook area overlap a slot (R344)? -/
def logOverlap (base : Nat) : Bool :=
  decide (base < 0x800000) || (decide (base < 0x1800000) && decide (0x1000000 < base + 0x40000))

/-- One section is judged and applied; none where it passes. -/
def State.loadSection (s : State) (slot : Nat) (x : Sect) (ws : List Nat) : State × Option Reason :=
  let (s, r) : State × Option Reason :=
    match x.type with
    | 5 => loadRuns ws.length (slot + x.off) ws s
    | 6 => (s, if (routeTable ws).isSome then none else some .section_)
    | 8 | 9 | 10 => (s, if shapeOk x.type ws then none else some .section_)
    | _ => match loadRecords x.type x.inst ws.length ws s with | (s, ok) => (s, if ok then none else some .section_)
  match r with
  | some r => (s, some r)
  | none =>
    if crc32Words ws ≠ x.crc then (s, some .layout)
    else if x.type = 1 ∧ logOverlap s.logBase then (s, some .layout)
    else (s, none)

/-- The sections in table order: the first fault with the index of its section. -/
def loadAll (slot : Nat) (img : List Nat) : Nat → List Sect → State → State × Option (Reason × Nat)
  | _, [], s => (s, none)
  | i, x :: rest, s =>
    match s.loadSection slot x ((img.drop (x.off / 4)).take (x.len / 4)) with
    | (s, some r) => (s, some (r, i))
    | (s, none) => loadAll slot img (i + 1) rest s

/-- The words of the image in a slot, as many as its header declares. -/
def State.imageWords (s : State) (k : Fin 2) : List Nat :=
  flashWords s.flash (slotBase k) (nth (flashWords s.flash (slotBase k) 64) 2 0 / 4)

def imageSects (img : List Nat) : List Sect := (List.range (hdrSections img)).map (sectOf img)

/-- The stream of a slot: header, section table, sections. (DEDUCED, log 53) -/
def State.loadImage (s : State) (k : Fin 2) : State × Option (Reason × Nat) :=
  let img := s.imageWords k
  let hr := s.headerReason (img.take 64)
  if hr ≠ .notTried then (s, some (hr, 0))
  else
    let sects := imageSects img
    match tableReason (hdrLength img) 0 (0x100 + 16 * sects.length) none sects with
    | some r => (s, some r)
    | none =>
      if !sects.any (fun x => x.type == 1) then (s, some (.layout, 0))
      else loadAll (slotBase k) img 0 sects s

/-! ## The checks after the stream (R353 to R356, R373) -/

/-- The words of the first section of a type and instance, with its index. -/
def sectWords (img : List Nat) (t inst : Nat) : Option (Nat × List Nat) :=
  let sects := imageSects img
  match ((List.range sects.length).zip sects).find? fun p => p.2.type == t && p.2.inst == inst with
  | some (i, x) => some (i, (img.drop (x.off / 4)).take (x.len / 4))
  | none => none

/-- The signature (R355). (PRESUMED, log 40) -/
def State.signatureOk (s : State) (img : List Nat) : Bool :=
  let n := img.length - 16
  let digest := sha256 ((img.take n).flatMap wordBytes)
  let sig := (img.drop n).flatMap wordBytes
  if hdrKeySlot img = 255 then sig.take 32 == digest && (sig.drop 32).all (· == 0)
  else
    let key := (s.slot (hdrKeySlot img)).bytes
    ecdsaOk (beNat (key.take 32)) (beNat (key.drop 32)) (beNat (sig.take 32)) (beNat (sig.drop 32)) digest

/-- Key references: reference number and slot. -/
def keyrefsOf (ws : List Nat) : List (Nat × Nat) := (ws.drop 1).map fun w => (w % 256, bitsAt w 8 4)

/-- Does a controller hold a secure route? -/
def State.secureRoutes (s : State) : Bool :=
  ([0, 1, 2] : List Can).any fun n => (List.range (s.cf n R.CAN_RT.count)).any fun i => bitAt (s.ram (s.routeAt n i)) 19

def State.keyrefOk (s : State) (ws : List Nat) : Bool :=
  (keyrefsOf ws).all fun r => decide (1 ≤ r.1) && decide (r.1 ≤ 15) && (s.slot r.2).holds 2

/-- The chain map against DEV_SYS and the header (R353). -/
def State.chainOk (s : State) (img ws : List Nat) : Bool :=
  let w := nth ws 0 0
  let own := bitsAt w 8 3
  w % 8 == s.f pk R.DEV_SYS.chain_len && own == s.f pk R.DEV_SYS.chain_pos
    && nth ws (2 + 2 * own) 0 == hdrSequence img

/-- Clusters with a STRUCT section, in order. -/
def configuredOf (img : List Nat) : List Cl :=
  allCl.filter fun c => (imageSects img).any fun x => x.type == 2 && x.inst == c.val

/-- Words a and b of the autostart rules (R354). -/
def rulesOf (ws : List Nat) : List (Nat × Nat) :=
  (List.range (nth ws 0 0)).map fun i => (nth ws (1 + 2 * i) 0, nth ws (2 + 2 * i) 0)

def rulesOk (cfg : List Cl) : List (Nat × Nat) → Bool
  | [] => true
  | (a, _) :: rest =>
    cfg.any (fun c => c.val == a % 16) && bitsAt a 6 2 != 3 && !rest.any (fun r => r.1 % 16 == a % 16)
      && rulesOk cfg rest

/-- The first failing check after the stream: its reason, the index of a section, and the unit and the reason code of a
failed agreement check. (DEDUCED, log 53) -/
def State.postReason (s : State) (img : List Nat) : Option (Reason × Nat × Nat × Nat) :=
  let ref := sectWords img 9 0
  let chain := sectWords img 8 0
  let rules := sectWords img 10 0
  let cfg := configuredOf img
  let at_ (x : Option (Nat × List Nat)) : Nat := match x with | some p => p.1 | none => 0
  if !s.signatureOk img then some (.signature, 0, 0, 0)
  else if (ref.any fun p => !s.keyrefOk p.2) || (s.f pk R.SEC_CAN_CFG.ann_ctl == 3 && s.secureRoutes) then
    some (.keyref, at_ ref, 0, 0)
  else if chain.any fun p => !s.chainOk img p.2 then some (.chain, at_ chain, 0, 0)
  else if rules.any fun p => !rulesOk cfg (rulesOf p.2) then some (.start, at_ rules, 0, 0)
  else
    match ([0, 1, 2] : List Can).find? fun n => s.cf n R.CAN_CTRL.mode != 0 && !s.layoutOk n with
    | some n => some (.section_, at_ (sectWords img 7 n.val), 0, 0)
    | none =>
      match cfg.find? fun c => s.armReason c != 0 with
      | some c => some (.check, 0, c.val, s.armReason c)
      | none =>
        let r := pkgReason s (pkgB false)
        if r ≠ 0 then some (.check, 0, 8, r) else none

end Sys2Proof.Machine
end

