-- ==== Sys2Proof/Machine/Boot.lean ====
section
/-! DEFINITION. Reset, boot and recovery (01_architecture R25, R27, 13_image_boot_and_security R344 to R347, R356 to R364,
17_electrical_and_package R443, R444), and autostart (R360). -/

namespace Sys2Proof.Machine

/-! ## OFF (R25, R444) -/

/-- Words that belong to the Polrex dies and outlive a reset of Kilid: the known-short records and the state of the buses.
(DEDUCED, log 22) -/
def dieWords : List Nat :=
  allMc.map (fun n => mcB n + R.MC_GATE_SHORT.reg) ++ allRg.map (fun r => rgB r + R.RG_PS_STAT.reg)

/-- The words of some keys taken over from another state. -/
def State.takeWords (t s : State) (keys : List Nat) : State := t.each keys fun k t => t.setWord k (s.word k)

/-- Every gate output takes what claims it now. -/
def State.gatesNow (s : State) : State := s.each allMc fun n s => s.gateApply n

/-- A gate output with every segment as at reset. -/
def GateOut.fresh (g : GateOut) : GateOut := { GateOut.reset with phase := g.phase, cmdAt := g.cmdAt, endAt := g.endAt }

/-- The device goes to OFF: Kilid is reset, and each die applies and holds its safe state. (DEDUCED, log 22) -/
def State.toOff (s : State) : State :=
  if s.dev.st = .off then s
  else
    let motors := allMc.filter fun n =>
      ((s.cl[mcCl n]).st != .unused && !s.conv n) || (s.mc[n]).dieSafe
    let t : State := { State.reset with
      now := s.now, flash := s.flash, fresh := s.fresh, pending := s.pending, status := s.status
      dev := { Dev.reset with faultNIn := s.dev.faultNIn, supplyWarn := s.dev.supplyWarn }
      sec := { Sec.reset with life := s.sec.life, rb := s.sec.rb, slots := s.sec.slots }
      link := s.link.map fun l => { Link.reset with supplyLost := l.supplyLost, holdLost := l.holdLost }
      gates := s.gates.map GateOut.fresh
      rg := s.rg }
    let t := t.takeWords s dieWords
    (t.each motors fun n t => t.modMc n fun m => { m with dieSafe := true }).gatesNow

/-! ## BASECAMP (R345, R346) -/

/-- RESET_N is released with all supplies good; `sess` is what the TRNG draws (R371).
(DEDUCED, log 23; DESIGN CHOICE, log 56) -/
def State.release_n (s : State) (sess : BitVec 64) : State :=
  if s.dev.st = .off then
    let s : State := { s with
      boot := { Boot.reset with phase := .params, fromOff := true, relAt := s.now }
      sec := { s.sec with sess := sess, fresh := 0 }
      mp := { MemPort.reset with user := 1 } }
    let s := s.modDev fun d => { d with st := .basecamp, cause := 0 }
    let s := s.each allRg fun d s =>
      let l := s.link[d]
      let s := s.modLink d fun l => { l with lost := l.supplyLost }
      if l.supplyLost then s.assertOn (2 + d.val) else s.deliverRaisings d
    s.gatesNow.supplyEvent
  else s

def State.bootPhase (s : State) (p : BPhase) : State := { s with boot := { s.boot with phase := p } }

/-- The parameter tables answer with a valid signature. (DESIGN CHOICE, log 52) -/
def State.paramsRead (s : State) (valid : Bool) : State :=
  if s.boot.phase = .params ∧ valid then s.bootPhase .octal else s

/-- The switch to octal DDR is confirmed, or the load goes on in single lane. The clock of the flash's table and the
calibrated delay are free values. (DESIGN CHOICE, log 52) -/
def State.octalSwitch (s : State) (ok : Bool) : State :=
  if s.boot.phase = .octal then
    let s := s.bootPhase .headers
    if ok then
      let clk := 1 + s.freeNat % 200
      let s := s.drawn
      let dly := s.freeNat % 64
      (s.drawn.setF pk R.DEV_BOOT_STAT.octal 1).memMode 2 clk dly
    else (s.setF pk R.DEV_BOOT_STAT.fallback 1).memMode 1 50 0
  else s

/-- Outcome of a slot. -/
def State.setReason (s : State) (k : Fin 2) (r : Reason) : State :=
  s.setF pk (if k.val = 0 then R.DEV_BOOT_STAT.reason0 else R.DEV_BOOT_STAT.reason1) r.code

/-- The memory port leaves the load: single lane at 50 MHz, once the flash has answered (R403). -/
def State.loadEnds (s : State) : State :=
  let s := s.memUser 0
  if s.f pk R.MP_STAT.mode = 0 then s else s.memMode 1 50 0

/-- RECOVERY without a running image (R25, R363). -/
def State.toRecovery (s : State) : State :=
  let s := (s.modDev fun d => { d with st := .recovery, cause := 4 }).dark
  ({ s with boot := { s.boot with phase := .idle, cands := [] } }).loadEnds

/-- The flash does not answer within 1 ms: both slots are unreadable (R345). (DESIGN CHOICE, log 52) -/
def State.flashSilent (s : State) : State :=
  if s.boot.phase = .params ∨ (s.boot.phase = .headers ∧ s.dev.st = .recovery) then
    ((s.setReason 0 .read).setReason 1 .read).toRecovery
  else s

/-! ## Candidates (R347) -/

def State.slotHeader (s : State) (k : Fin 2) : List Nat := flashWords s.flash (slotBase k) 64

/-- DEV_IMG_ALT: the sequence in the other slot's valid header. -/
def State.setAlt (s : State) (k : Fin 2) : State :=
  let o : Fin 2 := if k.val = 0 then 1 else 0
  let h := s.slotHeader o
  s.setF pk R.DEV_IMG_ALT.seq (if s.headerReason h = .notTried then hdrSequence h else 0)

/-- The headers of both slots are judged and the candidates ordered (R347; DEDUCED, log 53). -/
def State.headerCheck (s : State) : State :=
  if s.boot.phase = .headers ∧ (s.mp.user = 0 ∨ s.mp.user = 1) then
    let s := s.memUser 1
    let h (k : Fin 2) : List Nat := s.slotHeader k
    let ok (k : Fin 2) : Bool := s.headerReason (h k) == .notTried
    let s := (s.setReason 0 (s.headerReason (h 0))).setReason 1 (s.headerReason (h 1))
    let order : List (Fin 2) := if hdrSequence (h 0) < hdrSequence (h 1) then [1, 0] else [0, 1]
    match order.filter ok with
    | [] => s.toRecovery
    | k :: ks =>
      let s : State := { s with boot := { s.boot with phase := .stream, cands := k :: ks } }
      (s.modDev fun d => { d with st := .verify }).setAlt k
  else s

/-! ## VERIFY (R356, R357) -/

/-- What the records of a failed load wrote returns to reset, and every sheet to FREE. (DEDUCED, log 53) -/
def State.undoLoad (s : State) : State :=
  let s := s.each s.boot.written fun key s =>
    let a := key % 0x1000000
    match regAt a with
    | some (d, _) =>
      s.setWord key (BitVec.ofNat 32
        (mergeWord d (fun f => f.cls.loads) (s.word key).toNat (regReset key).toNat))
    | none => s.setWord key (regReset key)
  let s := s.each (List.range 256) fun k s => s.setWord (0x9100 + k) 0
  ({ s with imgSheets := [], boot := { s.boot with written := [] } }).setF pk R.ATL_STAT.n_loaded 0

/-- The candidate fails; the next one is tried, or the device enters RECOVERY. (DEDUCED, log 53) -/
def State.imageFail (s : State) (r : Reason) (section_ unit check : Nat) : State :=
  match s.boot.cands with
  | [] => s
  | k :: ks =>
    let s := s.setReason k r
    let s := ((s.setF pk R.DEV_BOOT_DIAG.unit unit).setF pk R.DEV_BOOT_DIAG.check check).setF pk
      R.DEV_BOOT_DIAG.section section_
    let s := s.undoLoad.raise 46
    match ks with
    | [] => s.toRecovery
    | k' :: _ => ({ s with boot := { s.boot with phase := .stream, cands := ks } }).setAlt k'

def State.imageStream (s : State) : State :=
  if s.boot.phase = .stream then
    match s.boot.cands with
    | [] => s
    | k :: _ =>
      match s.loadImage k with
      | (s, some (r, i)) => s.imageFail r i 0 0
      | (s, none) => s.bootPhase .post
  else s

/-- A rule of the START section (R354). -/
def autoOf (a b : Nat) : Auto :=
  { rule := true, restart := bitAt a 4, waitSp := bitAt a 5, src := bitsAt a 6 2, delay := a / 65536
    sp := BitVec.ofNat 32 b, armed := false, rearm := false, gotSp := false, dueAt := 0 }

/-- The image becomes the running image (R357). -/
def State.imagePass (s : State) (k : Fin 2) (img : List Nat) : State :=
  let s := (s.setReason k .passed).setF pk R.DEV_IMG_SEQ.seq (hdrSequence img)
  let s := s.modDev fun d => { d with slot := k.val == 1, autorun := hdrAutorun img }
  let routes := match sectWords img 6 0 with | some (_, ws) => (routeTable ws).getD [] | none => []
  let refs := match sectWords img 9 0 with | some (_, ws) => keyrefsOf ws | none => []
  let rules := match sectWords img 10 0 with | some (_, ws) => rulesOf ws | none => []
  let s : State := { s with boot := { s.boot with
    phase := if s.boot.fromOff then .restore else .monitor, monAt := s.now, cands := [], written := [], routes := routes, keyrefs := refs
    rbLevel := hdrRollback img, keySlot := hdrKeySlot img, configured := configuredOf img } }
  let s := s.each rules fun r s =>
    if h : r.1 % 16 < 8 then
      let c : Cl := ⟨r.1 % 16, h⟩
      ({ s with auto := upd s.auto c (autoOf r.1 r.2) }).setF (clB c) R.MC_CTRL.autostart 1
    else s
  if s.boot.fromOff then s else s.loadEnds

def State.imagePost (s : State) : State :=
  if s.boot.phase = .post then
    match s.boot.cands with
    | [] => s
    | k :: _ =>
      let img := s.imageWords k
      match s.postReason img with
      | some (r, i, unit, check) => s.imageFail r i unit check
      | none => s.imagePass k img
  else s

/-- The logbook scan of a boot from OFF (R358). -/
def State.bootRestore (s : State) : State :=
  if s.boot.phase = .restore then
    let s := s.logRestore
    ({ s with boot := { s.boot with phase := .monitor, monAt := s.now } }).loadEnds
  else s

/-! ## READY (R20, R358) -/

/-- A CAN controller takes the mode of the image (R408), and the counters of its secure transmit routes start at 1 (R374). -/
def State.canReady (s : State) (n : Can) : State :=
  let s : State := { s with can := upd s.can n { CanC.reset with
    mode := s.cf n R.CAN_CTRL.mode, lastEnd := s.now, tx := Vector.replicate 32 { TxBuf.reset with perAt := s.now } } }
  let s := s.each (List.range (s.cf n R.CAN_RT.count)) fun i s =>
    if bitAt (s.ram (s.routeAt n i)) 0 then s.setRam (s.routeAt n i + 4) 1 else s
  if s.cf n R.CAN_CTRL.mode = 0 then s
  else (s.setF (canB n) R.CAN_STAT.state 1).setF (canB n) R.CAN_STAT.integrating 1

/-- A configured cluster leaves UNUSED: its structure takes effect, and set A is active. (DEDUCED, log 17) -/
def State.clusterReady (s : State) (c : Cl) : State :=
  let s := (s.modCl c fun x => { x with setB := false }).effCluster c
  let s := match clMc c with
    | some n => (s.setF (mcB n) R.MC_STATE.personality (s.st n R.MC_CONV_CFG.personality)).gLoad n (fun _ => false)
    | none => s.each (rgChans (clRg c)) fun k s => s.levelDue k
  s.enter c .stopped 0 none

/-- The device enters READY after 8 ms of sampling (R358), and draws sv (R373; DESIGN CHOICE, log 56). -/
def State.ready_ (s : State) : State :=
  if s.boot.phase = .monitor ∧ s.boot.monAt + 4000000 ≤ s.now then
    let s := (s.bootPhase .idle).modDev fun d => { d with st := .ready, cause := 5, pkgB := false }
    let s := s.modSync fun y => { y with
      cfgDue := false, period := s.f pk R.DEV_SYNC_CFG.frame_period, comp := s.f pk R.DEV_SYNC_CFG.sync_comp
      lastAt := s.now }
    let s := s.each s.boot.configured fun c s => s.clusterReady c
    let s := s.each ([0, 1, 2] : List Can) fun n s => s.canReady n
    let s := s.each ([0, 1] : List Rg) fun r s => s.rbgHeld r
    let sv : Word := Config.freeWord s.fresh
    let s : State := { s.drawn with sec := { s.sec with sv := sv, annAt := s.now } }
    let s := s.setF pk R.DEV_BOOT_STAT.boot_time (Nat.min 65535 ((s.now - s.boot.relAt) / 50000))
    if s.dev.autorun then s.runEnter 2 else s
  else s

/-! ## Recovery (R27, R362, R363) -/

/-- Words that a RECOVER keeps: the collector's records, the steward's, those of the logbook, the unit maps, and what the
Polrex dies hold. (DEDUCED, log 24) -/
def recoverWords : List Nat :=
  (List.range 8).map (· + 0x1010) ++ (List.range 8).map (· + 0x1020) ++ (List.range 64).map (· + 0x1040)
    ++ (List.range 0x26).map (· + 0x2000) ++ (List.finRange 9).map (fun g => grpB g) ++ allMc.map (fun n => ampB n + 0x39)
    ++ [0x3008, 0x3009, 0x300A, 0x9000] ++ [0x5020, 0x5021, R.SEC_STAT.reg] ++ dieWords

/-- Level sources whose condition does not end with a RECOVER: it lies in a unit, a supply, a pin or the logbook.
(DEDUCED, log 24) -/
def recoverLevels : List Nat :=
  [1, 2, 3, 5, 6, 16, 17, 18, 41, 44, 48] ++ allRg.flatMap fun r => (List.range 4).map fun k => evRg r k

/-- Every block returns to its reset state, but for what R362 keeps and the conditions outside the blocks.
(DEDUCED, log 24) -/
def State.blockReset (s : State) : State :=
  let rails := s.rails.filter recoverLevels.contains
  let t : State := { State.reset with
    now := s.now, flash := s.flash, fresh := s.fresh, pending := s.pending, status := s.status, data := s.data
    raised := s.raised, guyFault := s.guyFault, rails := rails, link := s.link, rg := s.rg
    dev := { Dev.reset with
      st := .recovery, cause := 1, faultNIn := s.dev.faultNIn, rcClock := s.dev.rcClock, oscSpare := s.dev.oscSpare
      supplyWarn := s.dev.supplyWarn }
    sync := { Sync.reset with lastAt := s.sync.lastAt }
    gates := s.gates.map fun g => { g with tripped := false }
    stp := s.stp.map fun p => { Stepper.reset with
      coils := p.coils.map fun c => { Coil.reset with inServ := c.inServ, spare := c.spare, want := c.want } }
    lanes := s.lanes.map fun l => { l with
      busy := none, again := false, st := if l.st = .draining then .retired else l.st }
    rowFlags := s.rowFlags, rowMap := s.rowMap, rowDead := s.rowDead, health := s.health, log := s.log, mp := s.mp
    boot := { Boot.reset with phase := .headers, relAt := s.boot.relAt }
    sec := { Sec.reset with
      life := s.sec.life, rb := s.sec.rb, slots := s.sec.slots, sess := s.sec.sess, fresh := s.sec.fresh
      trngFail := s.sec.trngFail }
    hp := { HostPort.reset with exec := s.hp.exec } }
  let t := t.each allMc fun n t => t.modMc n fun m => { m with dieSafe := (s.mc[n]).dieSafe }
  let t := t.takeWords s recoverWords
  let t := t.each (List.finRange 9) fun g t => (t.setF (grpB g) R.SEN_ROLE.cal_active 0).setF (grpB g) R.SEN_ROLE.suspect 0
  let t := t.each allMc fun n t => t.setF (ampB n) R.SEN_AMPMAP.spare_conn 0
  let t := (t.setF pk R.ATL_STAT.n_loaded 0).each (rails ++ s.guyFault) fun e t =>
    t.setWord (0x1018 + e / 32) (setBit (t.word (0x1018 + e / 32)) (e % 32) true)
  let t := (t.setF pk R.DEV_BOOT_STAT.octal (s.f pk R.DEV_BOOT_STAT.octal)).setF pk R.DEV_BOOT_STAT.fallback
    (s.f pk R.DEV_BOOT_STAT.fallback)
  t.gatesNow

/-- A load begins (R347); it runs in the mode that the flash was brought up in (R346). (DESIGN CHOICE, log 52) -/
def State.loadBegin (s : State) : State :=
  let s := { s with boot := { s.boot with phase := .headers, fromOff := false } }
  let s := if s.mp.user = 0 then s.memUser 1 else s
  if s.fb pk R.DEV_BOOT_STAT.octal then
    let clk := 1 + s.freeNat % 200
    let s := s.drawn
    let dly := s.freeNat % 64
    s.drawn.memMode 2 clk dly
  else s

/-- Steps 2 and 3 of R362, once the record is written or writing has stopped. (DEDUCED, log 24) -/
def State.recoverStep (s : State) : State :=
  if s.boot.phase = .logging ∧ (s.logStopped ∨ (s.log.pend.isNone ∧ s.log.busy.isNone)) then s.blockReset.loadBegin else s

/-- RECOVER (R25, R27). (DEDUCED, log 20) -/
def State.recoverCmd (s : State) : State :=
  if allCl.any fun c => ((s.cl[c]).st).active || (s.cl[c]).st == .safe then s.answer .busyRun
  else if s.dev.st.operates then
    let s := ((s.modDev fun d => { d with st := .recovery, cause := 1, swap := none }).dark).answer .ok
    let s : State := { s with
      log := { s.log with pend := if s.logStopped then none else some 3 }, boot := { s.boot with phase := .logging } }
    s.recoverStep
  else s.answer .badState

/-- A write of DEV_BOOT_CTRL.load (R363). -/
def State.bootLoad (s : State) : State :=
  if s.dev.st = .recovery ∧ s.boot.phase = .idle then s.loadBegin.answer .ok else s.answer .badState

/-! ## Logbook rows that a RECOVER waits for -/

def State.logCompleteStep (s : State) (ok : Bool) : State := (s.logComplete ok).recoverStep
def State.logTimeoutStep (s : State) : State := s.logTimeout.recoverStep

/-! ## Autostart (R360) -/

/-- start_delay after the entry to RUN, and each retry until one ARM is accepted. -/
def State.autoFirst (s : State) (c : Cl) : State := if (s.auto[c]).armed then s else s.autoArm c

/-- 100 ms after a fault stop. -/
def State.autoAgain (s : State) (c : Cl) : State := if (s.auto[c]).rearm then s.autoArm c else s

/-- A write of auto_hold; clearing it releases the STARTs that waited for it. (DEDUCED, log 54) -/
def State.autoHold (s : State) (hold : Bool) : State :=
  let s := (s.setF pk R.DEV_BOOT_CTRL.auto_hold (b2n hold)).answer .ok
  if hold then s
  else
    s.each allCl fun c s =>
      if (s.cl[c]).autoStart ∧ (s.cl[c]).st = .armed ∧ s.dev.st = .run then
        let st := s.status
        { s.autoStartNow c with status := st }
      else s

/-- A cold block ends (R308): the START of a rule that it held is issued. (DEDUCED, log 54) -/
def State.coldEnd (s : State) (c : Cl) : State :=
  let s := s.coldMarks
  if (s.cl[c]).heldStart ∧ (s.cl[c]).st = .armed ∧ !s.fb pk R.DEV_BOOT_CTRL.auto_hold then
    let st := s.status
    let cs := (s.cmdGroup c).getD [c]
    if cs.any s.coldBlocked then s
    else { (s.modCl c fun x => { x with heldStart := false }).startGo c cs true with status := st }
  else s

end Sys2Proof.Machine
end

