-- ==== Sys2Proof/Machine/Power.lean ====
section
/-! DEFINITION. Events of the power stage (09_gate_drive_and_power_stage R251 to R276): gate phases, trips and their
soft-off, the precharge, the known-short record, the overvoltage ladder with its chopper, and the reverse-battery switch. -/

namespace Sys2Proof.Machine

/-! ## Gate outputs -/

/-- A phase of a gate output ends (R251); the end of a soft-off lets the die apply the cluster's safe state (R261).
(DEDUCED, log 44) -/
def State.gatePhaseEnd (s : State) (o : Fin 40) : State :=
  if s.phaseOver o then
    let soft := (s.gate o).phase == .soft
    let s := s.phaseEnd o
    match outMc o with
    | some (n, _) => if soft then s.gateBack n else s
    | none => s
  else s

/-- A soft-off ends (R261). -/
def State.softOffEnd (s : State) (o : Fin 40) : State := if (s.gate o).phase = .soft then s.gatePhaseEnd o else s

/-- Blanking time of an output in ticks: of its cluster, or of its region's brake switch (R258). -/
def State.outBlank (s : State) (o : Fin 40) : Nat :=
  match outMc o with
  | some (n, _) => s.blank n
  | none => (s.ovF (outRg o) R.RG_BRK_DESAT.t_blank + 1) * 125

/-- A trip of a motor or brake switch that is commanded on, from `after` ticks past its command (R258 to R261, R274).
(DEDUCED, log 44) -/
def State.outTrip (s : State) (o : Fin 40) (hard : Bool) (after : Nat) : State :=
  if (s.gate o).phase.isOn ∧ (s.gate o).cmdAt + after ≤ s.now then
    match outMc o with
    | some (n, sw) => s.trip n sw hard
    | none =>
      if o.val < 38 then
        ((s.softOff o).modGate o fun g => { g with tripped := true }).chopFault (outRg o) true
      else s
  else s

/-- Desaturation, after the blanking time (R258); hard short, at half of it and before its end (R259). -/
def State.desatTrip (s : State) (o : Fin 40) : State := s.outTrip o false (s.outBlank o)
def State.hardTrip (s : State) (o : Fin 40) : State :=
  s.onlyIf (decide (s.now ≤ (s.gate o).cmdAt + s.outBlank o)) fun s => s.outTrip o true (s.outBlank o / 2)

/-- A gate voltage has not passed its level t_tr + 1 us after its command (R253). -/
def State.gateLate (s : State) (o : Fin 40) : State :=
  let tTr := match outMc o with
    | some (n, _) => s.f (s.act n) R.MC_GD_TIME.t_tr
    | none => s.ovF (outRg o) R.RG_BRK_DESAT.t_tr
  -- t_tr is in steps of 20 ns
  if (s.gate o).cmdAt + 10 * tTr + 500 ≤ s.now then
    let s := s.gateFault o
    match outMc o with
    | some (n, _) => s.carrierBack n
    | none => s
  else s

/-- Does the rotor turn too fast for the offset measurement (R116)? A converter has no rotor. (DESIGN CHOICE, log 34) -/
def State.offSkip (s : State) (n : Mcn) : Bool :=
  !s.conv n && (s.mc[n]).dat.valid
    && decide ((s.f (s.act n) R.MC_EST_REST.speed_rest : Int) * 4096 ≤ ((s.mc[n]).dat.speedAt s.now16).natAbs)

/-- The precharge ends (R255, R287); the offsets of the amplifiers are measured next (R116). -/
def State.prechargeEnd (s : State) (n : Mcn) : State :=
  -- pre_t is in steps of 10 us
  if (s.mc[n]).precharge ∧ (s.cl[mcCl n]).st = .armed
      ∧ (s.cl[mcCl n]).enteredAt + 5000 * s.f (s.act n) R.MC_GD_BST.pre_t ≤ s.now then
    let k := if s.offSkip n then 0 else 64
    let s := (s.modMc n fun m => { m with precharge := false }).gateApply n
    let s := s.modGrp (mcG n) fun g => { g with offLeft := #v[k, k, k], offSum := #v[0, 0, 0, 0], offSpare := 0 }
    let low := s.f (mcB n) R.MC_GATE_STAT.bst_uv
    s.each (allP.filter fun p => bitAt low p.val) fun _ s => s.raise (evMc n 18)
  else s

/-- A write of MC_GATE_SHORT.clr (R263). -/
def State.knownClear (s : State) (n : Mcn) : State :=
  let st := (s.cl[mcCl n]).st
  if st = .stopped ∨ st = .faulted then
    ((s.setF (mcB n) R.MC_GATE_SHORT.known 0).setF (mcB n) R.MC_GATE_SHORT.same_window 0).answer .ok
  else s.answer .badState

/-- A bootstrap comparator of a held high side has been asserted for 1 ms (R266). -/
def State.holdPumpOut (s : State) (n : Mcn) : State :=
  let low := s.f (mcB n) R.MC_GATE_STAT.bst_uv
  let out := allP.any fun p => bitAt low p.val && decide ((s.mc[n]).bstAt[p] + 500000 ≤ s.now)
  match (s.mc[n]).short with
  | .held true => s.onlyIf out fun s => (s.holdAllOff n).raise (evMc n 20)
  | _ => s

/-! ## The overvoltage ladder (R270 to R274) -/

/-- The chopper's minimum time ends (R270): it takes what VS has called for since. -/
def State.chopMinEnd (s : State) (r : Rg) : State :=
  if (s.rg[r]).chopMin ∧ (s.rg[r]).chopAt + 1000 ≤ s.now then
    let s := s.modRg r fun x => { x with chopMin := false }
    if s.chopLives r then s.chopSet r (s.rg[r]).chopWant else s
  else s

/-- VS has stayed below ov1 - ov1_hyst for ov2_hold (R272): control resumes out of the short with integrators at 0 V and
references from the measured currents (R166), a converter by its seeds (R289); a recovery chooses its path afresh
(R168). -/
def State.ov2End (s : State) (r : Rg) : State :=
  -- ov2_hold is in steps of 0.1 ms
  if s.ov2 r ∧ (s.rg[r]).vsTop = 0 ∧ (s.rg[r]).lowAt + 50000 * s.ovF r R.RG_OV_CFG.ov2_hold ≤ s.now then
    let s := (s.setF (rgB r) R.RG_PS_STAT.ov2_act 0).assertOff (evRg r 0)
    let s := if s.ov3 r then s else s.busLevel r 0
    s.each (rgMcs r) fun n s =>
      let s :=
        if (s.cl[mcCl n]).st.moving then
          if s.conv n then s.convSeed n
          else if (s.mc[n]).est.recPath.isSome then s.choosePath n
          else
            let s := s.each ([0, 1] : List (Fin 4)) fun x s =>
              s.modLoop n x fun l => { l with started := false, seed := some 0, seedRef := none }
            (s.modLoop n 2 fun l => { l with started := false }).modEst n fun e => { e with clipClose := true }
        else s
      s.gateBack n
  else s

/-- A write of RG_PS_CMD.ov3_clr (R273). -/
def State.ov3Clear (s : State) (r : Rg) : State :=
  let s := s.answer .ok
  if s.ov3 r then
    let below := s.vsBelowOv2 r
    let s := if (s.rg[r]).vsTop < 2 then s else s.drawn
    if below then
      let s := (s.setF (rgB r) R.RG_PS_STAT.ov3_latch 0).assertOff (evRg r 1)
      let s := s.modRg r fun x => { x with vsTop := Nat.min x.vsTop 1 }
      let s := s.busLevel r (if s.ov2 r then 2 else (s.rg[r]).vsTop)
      -- the chopper is called for again while VS has not fallen below ov1 - ov1_hyst (R270)
      let s := s.chopSet r (decide (1 ≤ (s.rg[r]).vsTop))
      s.each (rgMcs r) fun n s => s.gateBack n
    else s
  else s

/-- A write of RG_PS_CMD.chop_clr while VS is below ov1 - ov1_hyst (R274). -/
def State.chopClear (s : State) (r : Rg) : State :=
  let s := s.answer .ok
  if (s.rg[r]).vsTop = 0 then
    let b := rgB r
    let s := ((s.setF b R.RG_PS_STAT.chop_desat 0).setF b R.RG_PS_STAT.chop_noeffect 0).assertOff (evRg r 2)
    s.modGate (brkOut r) fun g => { g with tripped := false }
  else s

/-- Has the oldest turn-on that waits for its judgement been 50 us ago (R274)? -/
def State.checkDue (s : State) (r : Rg) : Bool :=
  match (s.rg[r]).checks with
  | t :: _ => decide (t + 25000 ≤ s.now)
  | [] => false

/-- 50 us after a turn-on of the chopper: VS has risen by more than rise_tol (R274). Codes of the bus span 75 V. -/
def State.chopCheck (s : State) (r : Rg) (before after : Nat) : State :=
  if s.chopLives r ∧ s.checkDue r then
    let tol : Int := (s.ovF r R.RG_OV_CFG.rise_tol : Int) * 10
    let s := s.modRg r fun x => { x with checks := x.checks.tail }
    -- both are VS conversions of the region group (R132)
    let s := (s.busCode (rgG r) 0 before).busCode (rgG r) 0 after
    if tol < codeMv after - codeMv before ∧ !s.fb (rgB r) R.RG_PS_STAT.chop_noeffect then s.chopFault r false else s
  else s

/-! ## The reverse-battery switch (R275, R276) -/

/-- RBS reaches 6.0 V. -/
def State.rbsRise (s : State) (r : Rg) : State :=
  let s := s.modRg r fun x => { x with rbsHigh := true }
  if s.rbgMay r then s.rbgSet r true else s

/-- RBS falls below 5.5 V. -/
def State.rbsFall (s : State) (r : Rg) : State := (s.modRg r fun x => { x with rbsHigh := false }).rbgSet r false

/-- RBS below -0.5 V for 0.5 us. -/
def State.rbsReverse (s : State) (r : Rg) : State :=
  let s := (s.rbsFall r).inc (rgB r) R.RG_PS_CNT.rbg_rev_count
  (s.setF (rgB r) R.RG_PS_STAT.rbg_rev 1).assertOn (evRg r 3)

/-- RBS has stayed at 6.0 V or more for 10 ms. -/
def State.rbsRecover (s : State) (r : Rg) : State :=
  if s.fb (rgB r) R.RG_PS_STAT.rbg_rev then
    let s := (s.setF (rgB r) R.RG_PS_STAT.rbg_rev 0).assertOff (evRg r 3)
    s.rbsRise r
  else s

end Sys2Proof.Machine
end

