-- ==== Sys2Proof/Machine/Security.lean ====
section
/-! DEFINITION. The security module (13_image_boot_and_security R366 to R374): the commands of the lifecycle, random words,
the check of an authenticated packet with its lockout, and the message authentication of CAN secure routes. -/

namespace Sys2Proof.Machine

def State.modSec (s : State) (g : Sec → Sec) : State := { s with sec := g s.sec }

/-- The Lyjan key: the lowest HOST_AUTH slot that is not revoked (R367). -/
def State.hostSlot (s : State) : Option (Fin 16) := (List.finRange 16).find? fun i => (s.sec.slots[i]).holds 1

/-- Key check value of a slot (R367), as a 16-bit number, its first byte in the low bits. (DEDUCED, log 55) -/
def KeySlot.kcv (k : KeySlot) : Nat :=
  match k.type with
  | 0 => 0
  | 3 => let d := sha256 k.bytes; nth d 0 0 + 256 * nth d 1 0
  | _ => let d := aesEnc k.bytes (List.replicate 16 0); nth d 0 0 + 256 * nth d 1 0

/-! ## Commands (R368) -/

/-- SEC_CMD.result, with the status of the write that gave the command: the write itself is executed. -/
def State.secResult (s : State) (r : Nat) : State := (s.setF pk R.SEC_CMD.result r).answer .ok

/-- Key buffer cleared. -/
def State.keyBufClear (s : State) : State := s.each (List.range 16) fun j s => s.setWord (0x4020 + j) 0

/-- Words of a key of a type. -/
def keyWords (type : Nat) : Nat := match type with | 1 => 4 | 2 => 8 | 3 => 16 | _ => 0

/-- Compatible types and usages (R367). -/
def keyFits (type usage : Nat) : Bool :=
  (type == 3 && usage == 0) || ((type == 1 || type == 2) && (usage == 1 || usage == 2))

def State.putSlot (s : State) (i : Fin 16) (k : KeySlot) : State := s.modSec fun x => { x with slots := upd x.slots i k }

/-- The slot that a command word names. -/
def argSlot (arg : Word) : Fin 16 := ⟨R.SEC_CMD.slot.get arg % 16, by omega⟩

/-- PROGRAM. (DEDUCED, log 55) -/
def State.secProgram (s : State) (arg : Word) (otpOk : Bool) : State :=
  let type := R.SEC_CMD.type.get arg
  let usage := R.SEC_CMD.usage.get arg
  if s.sec.life ≠ 0 then s.secResult 2
  else if (s.sec.slots[argSlot arg]).type ≠ 0 then s.secResult 3
  else if !keyFits type usage then s.secResult 2
  else
    let key := (List.range (keyWords type)).map fun j => s.word (0x4020 + j)
    let s := s.keyBufClear
    if otpOk then (s.putSlot (argSlot arg) { type := type, usage := usage, revoked := false, key := key }).secResult 1
    else s.secResult 6

/-- Is the running image signed? -/
def State.imageSigned (s : State) : Bool := s.f pk R.DEV_IMG_SEQ.seq != 0 && s.boot.keySlot != 0xFF

/-- SEAL. -/
def State.secSeal (s : State) (otpOk : Bool) : State :=
  let has (usage : Nat) : Bool := (List.finRange 16).any fun i => (s.sec.slots[i]).holds usage
  if s.sec.life ≠ 0 ∨ s.dev.st ≠ .ready then s.secResult 2
  else if !has 0 ∨ !has 1 ∨ !s.imageSigned then s.secResult 4
  else if otpOk then ((s.modSec fun x => { x with life := 1 }).keyBufClear).secResult 1
  else s.secResult 6

/-- A slot overwritten: what its words now hold is a free value, and it is never used again. (DEDUCED, log 55) -/
def State.slotBurn (s : State) (i : Fin 16) : State :=
  let k := s.sec.slots[i]
  let words := (List.range k.key.length).map fun j => Config.freeWord (s.fresh + j)
  { (s.putSlot i { k with revoked := true, key := words }) with fresh := s.fresh + k.key.length }

/-- RETIRE. -/
def State.secRetire (s : State) (otpOk : Bool) : State :=
  if s.sec.life ≠ 1 then s.secResult 2
  else if otpOk then
    let s := s.each (List.finRange 16) fun i s => s.slotBurn i
    ((s.modSec fun x => { x with life := 2 }).keyBufClear).secResult 1
  else s.secResult 6

/-- REVOKE. -/
def State.secRevoke (s : State) (arg : Word) (otpOk : Bool) : State :=
  let i := argSlot arg
  let lastHost := (s.sec.slots[i]).holds 1 && (List.finRange 16).all fun j => j == i || !(s.sec.slots[j]).holds 1
  if s.sec.life ≠ 1 then s.secResult 2
  else if (s.imageSigned ∧ s.boot.keySlot = i.val) ∨ lastHost then s.secResult 5
  else if otpOk then (s.putSlot i { s.sec.slots[i] with revoked := true }).secResult 1
  else s.secResult 6

/-- ADVANCE. -/
def State.secAdvance (s : State) (otpOk : Bool) : State :=
  if s.sec.life ≠ 1 then s.secResult 2
  else if s.boot.rbLevel ≤ s.sec.rb then s.secResult 5
  else if otpOk then (s.modSec fun x => { x with rb := s.boot.rbLevel }).secResult 1
  else s.secResult 6

/-- A write of SEC_CMD; whether the OTP takes what the command programs is a free value there. (DEDUCED, log 55) -/
def State.secCmd (s : State) (w : Word) : State :=
  let ok := s.freeNat % 2 == 1
  match R.SEC_CMD.cmd.get w with
  | 1 => s.drawn.secProgram w ok
  | 2 => s.drawn.secSeal ok
  | 3 => s.drawn.secRetire ok
  | 4 => s.drawn.secRevoke w ok
  | 5 => s.drawn.secAdvance ok
  | _ => s.answer .badCmd

/-! ## Random words (R366) -/

/-- A read of SEC_TRNG: fresh bits that no earlier read returned, or the last ones again; which, and the bits, are free
values. (DESIGN CHOICE, log 56) -/
def State.trngRead (s : State) : State × Word :=
  let w := s.freeNat
  let s := s.drawn
  if w / 2 ^ 31 = 1 then (s.modSec fun x => { x with trngLast := w % 2 ^ 24 }, BitVec.ofNat 32 (2 ^ 31 + w % 2 ^ 24))
  else (s, BitVec.ofNat 32 s.sec.trngLast)

def State.trngFails (s : State) : State := if s.dev.st = .off then s else s.modSec fun x => { x with trngFail := true }

/-! ## Authenticated packets (R371, R372) -/

/-- The bytes of a 64-bit value, least significant first. -/
def sessBytes (sess : BitVec 64) : List Nat := wordBytes (sess.toNat % 2 ^ 32) ++ wordBytes (sess.toNat / 2 ^ 32)

/-- The MAC words that a packet must carry. (DEDUCED, log 55) -/
def macWords (key : List Nat) (sess : BitVec 64) (fv : Nat) (ws : List Nat) : Nat × Nat :=
  let m := cmac key (sessBytes sess ++ wordBytes fv ++ ws.flatMap wordBytes)
  (nth m 0 0 + 256 * nth m 1 0 + 65536 * nth m 2 0 + 16777216 * nth m 3 0,
    nth m 4 0 + 256 * nth m 5 0 + 65536 * nth m 6 0 + 16777216 * nth m 7 0)

/-- A refused authenticated packet (R372). -/
def State.authRefuse (s : State) : State :=
  let s := (s.inc pk R.SEC_CNT.auth_fail).modSec fun x => { x with failRun := Nat.min 255 (x.failRun + 1) }
  let s := s.raise 47
  if !s.sec.locked ∧ 8 ≤ s.sec.failRun then
    s.modSec fun x => { x with
      locked := true, lockEnd := s.now + x.lockTime * 500000000, lockTime := Nat.min 64 (2 * x.lockTime) }
  else s

/-- The check of an authenticated packet: `ws` is its header, length and payload. (DEDUCED, log 55) -/
def State.authCheck (s : State) (fv : Nat) (ws : List Nat) (mac : Nat × Nat) : State × Option Status :=
  if s.sec.locked then (s.authRefuse, some .authLock)
  else
    let good : Bool := match s.hostSlot with
      | some i => !s.sec.trngFail && macWords (s.sec.slots[i]).bytes s.sec.sess fv ws == mac && decide (s.sec.fresh < fv)
      | none => false
    if good then (s.modSec fun x => { x with fresh := fv, failRun := 0, lockTime := 1 }, none)
    else (s.authRefuse, some .auth)

/-- The lockout time has passed. -/
def State.lockoutEnd (s : State) : State :=
  if s.sec.locked ∧ s.sec.lockEnd ≤ s.now then s.modSec fun x => { x with locked := false } else s

/-! ## Secure routes (R374) -/

/-- The 8 MAC bytes of a secure frame: data identifier, sv, payload, fv, each big-endian. -/
def State.routeMac (s : State) (key : List Nat) (dataId : Nat) (payload : List Nat) (fv : Nat) : List Nat :=
  (cmac key (beBytes 2 dataId ++ beBytes 4 s.sec.sv.toNat ++ payload ++ beBytes 4 fv)).take 8

end Sys2Proof.Machine
end

