-- ==== Sys2Proof/Machine/Views.lean ====
section
/-! DEFINITION. What a read of an address returns (00_scope R7 to R9, 01_architecture R34, R457, 16_register_map R436 to R439):
the key that an address means to a reader, the words that read 0, and the registers whose value the device computes from
its state. Reading without the side effects of a read; those are in Bus.lean. -/

namespace Sys2Proof.Machine

/-! ## Keys -/

/-- Space of a port's motion staging copy (R439). -/
def portSpace : Port → Nat
  | .host => 0
  | .diag n => 2 + n.val
/-- Place of a port in the list of reading ports. -/
def portIdx : Port → Fin 4
  | .host => 0
  | .diag n => ⟨n.val + 1, by omega⟩

/-- Words of the package set (R34, R410). -/
def pkgSetAddr (a : Nat) : Bool :=
  match locate a with
  | (.fc, o) => decide (0x1100 ≤ o)
  | (.th, o) => decide (0x3040 ≤ o)
  | (.rg _, o) => decide (0x280 ≤ o) && decide (o < 0x284)
  | (.can _, o) => o == 5 || o == 6
  | _ => false

/-- Motion staging registers (R439). -/
def stagingAddr (a : Nat) : Bool :=
  match locate a with
  | (.mc _, o) => decide (0x1801 ≤ o) && decide (o ≤ 0x1805)
  | (.st _, o) => decide (1 ≤ o) && decide (o ≤ 5)
  | _ => false

/-- The key of a word of a set, given which of the two sets is meant: active or shadow; other words by their address and
the port's staging copy. (DESIGN CHOICE, log 69) -/
def State.keyOf (s : State) (p : Port) (a : Nat) (active : Cl → Bool) (pkgActive : Bool) : Nat :=
  match locate a with
  | (.mcSet n _, o) => (if active (mcCl n) then s.act n else s.shadow n) + o
  | (.stSet k _, o) => (if active (stCl k) then s.actSt k else s.shadowSt k) + o
  | _ =>
    if pkgSetAddr a then a + pkgB (if pkgActive then s.dev.pkgB else !s.dev.pkgB)
    else if stagingAddr a then a + portSpace p * 0x1000000
    else a

/-- The key that a read means (R8, R34, R438). -/
def State.readKey (s : State) (p : Port) (a : Nat) : Nat :=
  s.keyOf p a (fun c => s.fb (clB c) R.MC_CTRL.read_active) (s.fb pk R.DEV_SWAP.pkg_read_active)

/-- The key that a write means: always the shadow of a set. -/
def State.writeKey (s : State) (p : Port) (a : Nat) : Nat := s.keyOf p a (fun _ => false) false

/-! ## Words that read 0 -/

def State.unused (s : State) (c : Cl) : Bool := (s.cl[c]).st == .unused

/-- Words that read 0 and whose writes are ignored: of an UNUSED cluster (R457), of the other personality (R220, R279), of
the DMA channel that Kilid's group has not. (DEDUCED, log 68) -/
def State.blind (s : State) (a : Nat) : Bool :=
  match locate a with
  | (.mc n, o) =>
    (s.unused (mcCl n) && o != 1)
      || (s.conv n && decide (0x1800 ≤ o) && decide (o < 0x1810))
      || (!s.conv n && decide (0x41 ≤ o) && decide (o ≤ 0x4B))
  | (.mcSet n _, _) => s.unused (mcCl n)
  | (.st k, _) | (.stSet k _, _) => s.unused (stCl k)
  | (.rg r, o) => decide (0x100 ≤ o) && decide (o < 0x200) && o != 0x101 && s.unused (scCl r)
  | (.kl, o) => decide (5 ≤ o) && decide (o ≤ 7)
  | _ => false

/-! ## Computed registers -/

def cstateCode : CState → Nat
  | .unused => 0 | .stopped => 1 | .armed => 2 | .starting => 3 | .running => 4 | .stopping => 5 | .safe => 6
  | .faulted => 7

def axCode : AxKind → Nat
  | .idle => 0 | .move => 1 | .route => 2 | .routeWait => 3 | .homing => 4 | .stopping => 5 | .speed => 6

/-- A word with several fields put. -/
def putAll (w : Word) (l : List (Fld × Nat)) : Word := l.foldl (fun w p => p.1.put w p.2) w

/-- Low and high half of a value of 64 bits (R9). -/
def lo64 (v : Int) : Word := BitVec.ofNat 32 (uns 64 v % 2 ^ 32)
def hi64 (v : Int) : Word := BitVec.ofNat 32 (uns 64 v / 2 ^ 32)

/-- Device registers. -/
def State.viewDev (s : State) (o : Nat) (w : Word) : Word :=
  match o with
  | 0 => putAll 0 [(R.DEV_ID.part_code, 0x0648), (R.DEV_ID.kilid_step, (Config.siliconStep 2).toNat),
      (R.DEV_ID.polrex_a_step, (Config.siliconStep 1).toNat), (R.DEV_ID.polrex_b_step, (Config.siliconStep 0).toNat)]
  | 1 => putAll 0 [(R.DEV_STATE.state, dstateCode s.dev.st), (R.DEV_STATE.image_slot, b2n s.dev.slot),
      (R.DEV_STATE.last_cause, s.dev.cause), (R.DEV_STATE.autorun, b2n s.dev.autorun),
      (R.DEV_STATE.sync_lost, b2n s.sync.lost), (R.DEV_STATE.fault_n_in, b2n s.dev.faultNIn),
      (R.DEV_STATE.fault_n_out, b2n s.faultNOut), (R.DEV_STATE.sync_frame, s.sync.frame)]
  | 3 => R.DEV_SWAP.pending.put w (b2n s.dev.swap.isSome)
  | 8 => lo64 s.wall
  | 9 => hi64 s.wall
  | _ => w

/-- IRQ_N is driven low (R325). (DEDUCED, log 73) -/
def State.irqN (s : State) : Bool :=
  s.fb pk R.FC_CTRL.irq_en && (List.range 256).any fun e =>
    bitAt (s.word (0x1010 + e / 32)).toNat (e % 32) && decide (1 ≤ s.sev e) && R.FC_SEV.irq.get (s.word (sevKey s e)) == 1

/-- Number of sticky bits set. -/
def State.nSticky (s : State) : Nat :=
  (List.range 8).foldl (fun c k => c + popLen (s.word (0x1010 + k)).toNat 32) 0

/-- Highest severity among asserted sources; 7 none. -/
def State.sevMax (s : State) : Nat :=
  match (List.range 256).filter fun e => s.asserted e with
  | [] => 7
  | es => es.foldl (fun m e => Nat.max m (s.sev e)) 0

def State.viewFc (s : State) (o : Nat) (w : Word) : Word :=
  if o = 0x1000 then
    putAll 0 [(R.FC_STAT.sev_max, s.sevMax), (R.FC_STAT.lantern_lit, b2n s.dev.lantern), (R.FC_STAT.irq, b2n s.irqN),
      (R.FC_STAT.guy_any, b2n ((List.range 8).any fun k => s.word (0x1020 + k) != 0)), (R.FC_STAT.n_sticky, s.nSticky)]
  else w

def State.viewStw (s : State) (o : Nat) (w : Word) : Word :=
  match o with
  | 0x2000 => BitVec.ofNat 32 s.spareWord0
  | 0x2001 => BitVec.ofNat 32 s.spareWord1
  | 0x2004 =>
    let u := s.f pk R.ST_HSEL.unit
    putAll 0 [(R.ST_HVAL.health, s.healthOf u), (R.ST_HVAL.role, s.role u)]
  | 0x2014 | 0x2016 => 0
  | 0x2020 => putAll 0 [(R.LOG_STAT.busy, b2n s.log.busy.isSome), (R.LOG_STAT.pending, b2n s.log.pend.isSome),
      (R.LOG_STAT.stopped, b2n s.logStopped), (R.LOG_STAT.bad, s.log.bad.length)]
  | 0x2022 => BitVec.ofNat 32 s.opSeconds
  | _ => w

def State.viewSec (s : State) (o : Nat) (w : Word) : Word :=
  if o = 0x4000 then
    putAll 0 [(R.SEC_STAT.lifecycle, s.sec.life), (R.SEC_STAT.debug_locked, b2n (s.sec.life != 0)),
      (R.SEC_STAT.auth_lock, b2n s.sec.locked), (R.SEC_STAT.trng_fail, b2n s.sec.trngFail),
      (R.SEC_STAT.fail_run, s.sec.failRun), (R.SEC_STAT.rb_level, s.sec.rb),
      (R.SEC_STAT.host_slot, match s.hostSlot with | some i => i.val | none => 31)]
  else if o = 0x4001 then lo64 (s.sec.sess.toNat : Nat)
  else if o = 0x4002 then hi64 (s.sec.sess.toNat : Nat)
  else if o = 0x4003 then BitVec.ofNat 32 s.sec.fresh
  else if o = 0x4004 then s.sec.sv
  else if o = 0x4006 then BitVec.ofNat 32 s.sec.trngLast
  else if 0x4010 ≤ o ∧ o < 0x4020 then
    let k := s.slot (o - 0x4010)
    putAll 0 [(R.SEC_SLOT.type, k.type), (R.SEC_SLOT.usage, k.usage), (R.SEC_SLOT.revoked, b2n k.revoked),
      (R.SEC_SLOT.kcv, k.kcv)]
  else if 0x4020 ≤ o then 0
  else w

/-- The motor cluster whose source names a sensor port (SP_STATn). -/
def State.portOwner (s : State) (p : Fin 2) : Option Mcn := allMc.find? fun n => sourcePort (s.source n) == some p

def State.viewSer (s : State) (o : Nat) (w : Word) : Word :=
  let sp (p : Fin 2) : Word := match s.portOwner p with
    | some n => putAll 0 [(R.SP_STAT.owner, n.val), (R.SP_STAT.owned, 1)]
    | none => 0
  match o with
  | 0x5001 =>
    putAll w [(R.HP_STAT.exec_busy, b2n s.hp.exec.isSome), (R.HP_STAT.pkt_pending, b2n s.hp.resp.isSome),
      (R.HP_STAT.chain_pending, b2n (s.hp.chainStat.1 != 4)), (R.HP_STAT.hold_valid, b2n (s.ports[(0 : Fin 4)]).hold.isSome)]
  | 0x5004 => R.HP_CHAIN.pointer.put w s.hp.ptr
  | 0x5015 => sp 0
  | 0x501D => sp 1
  | 0x5020 => R.MP_STAT.user.put w s.mp.user
  | _ => w

/-- Rates in force of a controller in kbit/s, rounded down (R409). -/
def canRates (nbt dbt : Word) : Nat × Nat :=
  let q (f : Fld) (w : Word) : Nat := f.get w + 1
  (40000 / (q R.CAN_NBT.nbrp nbt * (1 + q R.CAN_NBT.ntseg1 nbt + q R.CAN_NBT.ntseg2 nbt)),
    40000 / (q R.CAN_DBT.dbrp dbt * (1 + q R.CAN_DBT.dtseg1 dbt + q R.CAN_DBT.dtseg2 dbt)))

/-- Locks that the reading ports hold (R417). -/
def State.locked (s : State) (n : Can) (kind : Fin 3) (e : Nat) : Bool :=
  s.ports.any fun p => p.lock == some (n, kind, e)

def State.viewCan (s : State) (n : Can) (o : Nat) (w : Word) : Word :=
  match o with
  | 4 =>
    let (a, b) := canRates (s.word (s.actPkg + canB n + 5)) (s.word (s.actPkg + canB n + 6))
    putAll 0 [(R.CAN_RATE.nom_kbps, a), (R.CAN_RATE.data_kbps, b)]
  | 0x10 | 0x11 =>
    let f := o - 0x10
    let fill := R.CAN_FS.fill.get w
    let count := s.fifoF n f R.CAN_FIFO.count
    let wm := s.fifoF n f R.CAN_FIFO.watermark
    putAll w [(R.CAN_FS.full, b2n (fill == count && fill != 0)), (R.CAN_FS.wm, b2n (decide (wm ≤ fill) && wm != 0))]
  | 0x14 => BitVec.ofNat 32 ((List.range 32).foldl (fun m b => m + b2n (s.locked n 0 b) * 2 ^ b) 0)
  | 0x17 => BitVec.ofNat 32 ((List.finRange 32).foldl (fun m b => m + b2n ((s.can[n]).tx[b]).pend * 2 ^ b.val) 0)
  | _ => w

/-- Code of a lane's state. -/
def laneCode : LaneSt → Nat
  | .inService => 0 | .spare => 1 | .draining => 2 | .retired => 3

def State.viewLn (s : State) (o : Nat) (w : Word) : Word :=
  let bits (st : LaneSt) : Nat := (List.finRange 8).foldl (fun m i => m + b2n ((s.lanes[i]).st == st) * 2 ^ i.val) 0
  if o = 0x8001 then
    putAll 0 [(R.LN_STAT.in_service, bits .inService), (R.LN_STAT.spare, bits .spare), (R.LN_STAT.retired, bits .retired),
      (R.LN_STAT.draining, bits .draining)]
  else if h : 0x8010 ≤ o ∧ o < 0x8018 then
    let l := s.lanes[o - 0x8010]
    let (j, c) : Nat × Nat := match l.busy with
      | some r => (jobCode r.what.job, s.jobOwner r.what.job)
      | none => (0, 15)
    putAll 0 [(R.LN_LANE.rate, l.rate), (R.LN_LANE.state, laneCode l.st), (R.LN_LANE.job, j), (R.LN_LANE.cluster, c)]
  else w

/-- Accumulators of a sensing group (R133). -/
def State.viewGrp (s : State) (g : Grp) (o : Nat) (w : Word) : Word :=
  if h : 0xC ≤ o ∧ o < 0x14 then
    let a : Fin 4 := ⟨(o - 0xC) / 2, by omega⟩
    let x := s.grp[g]
    if o % 2 = 0 then BitVec.ofNat 32 x.sum[a]
    else putAll 0 [(R.SEN_ACC_HI.sum_hi, x.sum[a] / 2 ^ 32), (R.SEN_ACC_HI.count, x.count[a])]
  else w

/-- A motion block (R220 to R231), by its own offset. -/
def State.viewMo (s : State) (a : Axis) (o : Nat) (w : Word) : Word :=
  let x := s.ax a
  match o with
  | 6 => putAll w [(R.MO_STAT.state, axCode x.st), (R.MO_STAT.phase, x.phase)]
  | 7 => lo64 (sat64 x.p)
  | 8 => hi64 (sat64 x.p)
  | 9 => lo64 (sat64 (s.measured a))
  | 0xA => hi64 (sat64 (s.measured a))
  | 0xB => BitVec.ofInt 32 (qdiv x.v 65536)
  | 0xC => R.MO_ROUTE.fill.put w x.queue.length
  | _ => w

/-- Segments of a gate output (MC_GATE_SEGs, RG_GATE_SEGg). -/
def State.viewSeg (s : State) (o : Fin 40) : Word :=
  let g := s.gate o
  putAll 0 [(R.MC_GATE_SEG.src_n, popc g.inServ[(0 : Fin 2)]), (R.MC_GATE_SEG.snk_n, popc g.inServ[(1 : Fin 2)]),
    (R.MC_GATE_SEG.src_spare, popc g.spare[(0 : Fin 2)]), (R.MC_GATE_SEG.snk_spare, popc g.spare[(1 : Fin 2)]),
    (R.MC_GATE_SEG.sub_pending, b2n (g.want[(0 : Fin 2)] != 0 || g.want[(1 : Fin 2)] != 0))]

/-- Does an output have fewer segments in service than a code of the active set calls for (R250)? -/
def State.codeClip (s : State) (n : Mcn) (sw : Fin 6) : Bool :=
  let g := s.gate (swOut n sw)
  let fewer (d : Fin 2) (f : Fld) : Bool := decide (popc g.inServ[d] < s.f (s.act n) f)
  fewer 0 R.MC_GD_ON.on1 || fewer 0 R.MC_GD_ON.on2 || fewer 0 R.MC_GD_OFF.hold_src || fewer 1 R.MC_GD_OFF.off
    || fewer 1 R.MC_GD_OFF.soft || fewer 1 R.MC_GD_OFF.hold_snk

def State.viewGate (s : State) (n : Mcn) (w : Word) : Word :=
  let bits (p : Fin 6 → Bool) : Nat := allSw.foldl (fun m sw => m + b2n (p sw) * 2 ^ sw.val) 0
  putAll w [(R.MC_GATE_STAT.gate_on, bits (s.swOn n)),
    (R.MC_GATE_STAT.safe_side, match s.safeSide n with | some false => 0 | some true => 1 | none => 2),
    (R.MC_GATE_STAT.short_held, b2n (s.shortHeld n)), (R.MC_GATE_STAT.hold_pump, b2n ((s.mc[n]).short == .held true)),
    (R.MC_GATE_STAT.code_clip, bits (s.codeClip n))]

/-- Control, state and swap words of a cluster, by their offset 0 to 3. -/
def State.viewCl (s : State) (c : Cl) (o : Nat) (w : Word) : Word :=
  let x := s.cl[c]
  match o with
  | 1 => putAll w [(R.MC_STATE.state, cstateCode x.st), (R.MC_STATE.active_set, b2n x.setB),
      (R.MC_STATE.last_cause, x.cause), (R.MC_STATE.cause_event, x.causeEvent),
      (R.MC_STATE.swap_pending, b2n (s.swapPend c))]
  | 3 => R.MC_SWAP.pending.put w (b2n x.swapPending)
  | _ => w

/-- The datum of a cluster as it reads; in converter personality the switching phase and frequency (R49, R53). -/
def State.viewDat (s : State) (n : Mcn) (o : Nat) (w : Word) : Word :=
  let m := s.mc[n]
  let per : Int := m.pwm.period
  match o with
  | 0x401 =>
    if s.conv n ∧ m.dat.valid then BitVec.ofInt 32 (qdiv ((s.now - m.pwm.zeroAt : Nat) * turn) per)
    else BitVec.ofNat 32 (m.dat.at s.now16)
  | 0x402 =>
    if s.conv n ∧ m.dat.valid then BitVec.ofInt 32 (s.convHz n) else BitVec.ofInt 32 (m.dat.speedAt s.now16)
  | 0x403 => BitVec.ofInt 32 (if m.dat.valid then m.dat.acc else 0)
  | 0x404 => BitVec.ofNat 32 (s.datStat n)
  | _ => w

/-- A motor cluster's block. -/
def State.viewMc (s : State) (n : Mcn) (o : Nat) (w : Word) : Word :=
  let c := (s.mc[n]).conv
  if o < 4 then s.viewCl (mcCl n) o w
  else if o = 0x45 then lo64 c.eFwd
  else if o = 0x46 then hi64 c.eFwd
  else if o = 0x47 then lo64 c.eRev
  else if o = 0x48 then hi64 c.eRev
  else if 0x400 ≤ o ∧ o < 0x800 then s.viewDat n o w
  else if 0xC00 ≤ o ∧ o < 0x1000 then s.viewGrp (mcG n) (o - 0xC00) w
  else if o = 0x1400 then s.viewGate n w
  else if h : 0x1404 ≤ o ∧ o < 0x140A then s.viewSeg (swOut n ⟨o - 0x1404, by omega⟩)
  else if 0x1800 ≤ o ∧ o < 0x1810 then s.viewMo (.mc n) (o - 0x1800) w
  else w

/-- A stepper channel's block. -/
def State.viewSt (s : State) (k : Chan) (o : Nat) (w : Word) : Word :=
  if o < 0x10 then s.viewMo (.st k) o w
  else if o = 0x11 then
    let p := s.stp[k]
    putAll w [(R.ST_DRV_STAT.level, p.level), (R.ST_DRV_STAT.cur, (s.coilLevel k).1),
      (R.ST_DRV_STAT.seg_a, segCount (p.coils[(0 : Fin 2)]).inServ),
      (R.ST_DRV_STAT.seg_b, segCount (p.coils[(1 : Fin 2)]).inServ)]
  else w

/-- A region's block. -/
def State.viewRg (s : State) (r : Rg) (o : Nat) (w : Word) : Word :=
  if 0x100 ≤ o ∧ o < 0x104 then s.viewCl (scCl r) (o - 0x100) w
  else if o = 0x203 then
    putAll 0 [(R.RG_OV_ACT.ov1, s.ovF r R.RG_OV_THR.ov1), (R.RG_OV_ACT.ov2, s.ovF r R.RG_OV_THR.ov2),
      (R.RG_OV_ACT.ov3, s.ovF r R.RG_OV_THR.ov3)]
  else if o = 0x204 then s.viewSeg (brkOut r)
  else if o = 0x205 then s.viewSeg (rbgOut r)
  else if 0x400 ≤ o ∧ o < 0x440 then s.viewGrp (rgG r) (o - 0x400) w
  else w

/-- The word that a reader at a port finds at an address. (DEDUCED, log 68) -/
def State.view (s : State) (p : Port) (a : Nat) : Word :=
  if !implemented a || s.blind a then 0
  else
    let w := s.word (s.readKey p a)
    match locate a with
    | (.dev, o) => s.viewDev o w
    | (.kl, o) => s.viewGrp 8 o w
    | (.fc, o) => s.viewFc o w
    | (.stw, o) => s.viewStw o w
    | (.sec, o) => s.viewSec o w
    | (.ser, o) => s.viewSer o w
    | (.can n, o) => s.viewCan n o w
    | (.ln, o) => s.viewLn o w
    | (.mc n, o) => s.viewMc n o w
    | (.st k, o) => s.viewSt k o w
    | (.rg r, o) => s.viewRg r o w
    | _ => w

end Sys2Proof.Machine
end

