-- ==== Sys2Proof/Machine/CanErr.lean ====
section
/-! DEFINITION. The CAN controllers' state on the bus (15_can_fd R407 to R412, R426, R427, R432 to R434): error counters,
the end of a transmission, bus-off, modes. The arithmetic of the error counters is that of ISO 11898-1 (PRESUMED, log 60). -/

namespace Sys2Proof.Machine

def allCan : List Can := [0, 1, 2]
def State.modCan (s : State) (n : Can) (g : CanC → CanC) : State := { s with can := upd s.can n (g s.can[n]) }
def State.modTx (s : State) (n : Can) (b : Fin 32) (g : TxBuf → TxBuf) : State :=
  s.modCan n fun c => { c with tx := upd c.tx b (g c.tx[b]) }
def State.modRoute (s : State) (n : Can) (i : Fin 32) (g : RouteSt → RouteSt) : State :=
  s.modCan n fun c => { c with routes := upd c.routes i (g c.routes[i]) }
def State.cset (s : State) (n : Can) (f : Fld) (v : Nat) : State := s.setF (canB n) f v
def State.cinc (s : State) (n : Can) (f : Fld) : State := s.inc (canB n) f

/-- Status codes (R399). -/
def Status.code : Status → Nat
  | .idle => 0x00 | .ok => 0x01 | .busy => 0x02 | .frameErr => 0x03 | .lenErr => 0x04 | .crc => 0x05 | .badPkt => 0x06
  | .locked => 0x07 | .auth => 0x08 | .authLock => 0x09 | .nvmFail => 0x0A | .struct => 0x10 | .badState => 0x11
  | .badCmd => 0x12 | .badMode => 0x13 | .badArg => 0x14 | .swapPend => 0x15 | .swapReject => 0x16 | .framePast => 0x17
  | .syncLost => 0x18 | .busyRun => 0x19 | .busyStop => 0x1A | .activeFault => 0x1B | .noBus => 0x1C
  | .knownShort => 0x1D | .coldBlock => 0x1E | .busyTarget => 0x1F | .queueFull => 0x20 | .noRoute => 0x21
  | .sheetBusy => 0x22 | .slotBusy => 0x23 | .logArea => 0x24

/-- Events of a controller: no-ack, id-clash, bus-off. -/
def evNoAck (n : Can) : Nat := 50 + n.val
def evClash (n : Can) : Nat := 53 + n.val
def evBusOff (n : Can) : Nat := 56 + n.val

/-- Does a controller take part in the bus, or in its own loop (R408)? -/
def State.canOn (s : State) (n : Can) : Bool :=
  (s.can[n]).mode != 0 && s.cf n R.CAN_STAT.state != 3 && !s.fb (canB n) R.CAN_STAT.integrating

/-! ## Error counters -/

/-- Error active or passive by the counters. -/
def State.canState (s : State) (n : Can) : State :=
  if s.cf n R.CAN_STAT.state = 0 ∨ s.cf n R.CAN_STAT.state = 3 then s
  else s.cset n R.CAN_STAT.state (if 127 < s.cf n R.CAN_STAT.tec ∨ 127 < s.cf n R.CAN_STAT.rec then 2 else 1)

/-- Codes of lec and dlec. -/
def errCode : BusErr → Nat
  | .stuff => 1 | .form => 2 | .ack => 3 | .bit1 => 4 | .bit0 => 5 | .crc => 6

/-- The last error of the nominal or the data phase. -/
def State.noteErr (s : State) (n : Can) (e : BusErr) (dataPhase : Bool) : State :=
  s.cset n (if dataPhase then R.CAN_STAT.dlec else R.CAN_STAT.lec) (errCode e)

/-- An error of a frame being received. In LISTEN the controller sends no error flag. (PRESUMED, log 60) -/
def State.rxError (s : State) (n : Can) (e : BusErr) (dataPhase flagDom : Bool) : State :=
  let s := s.noteErr n e dataPhase
  let k := if flagDom ∧ (s.can[n]).mode ≠ 2 then 9 else 1
  (s.cset n R.CAN_STAT.rec (Nat.min 255 (s.cf n R.CAN_STAT.rec + k))).canState n

/-- A frame has been received without error: above 127, REC takes a value of 119 to 127, which one is a free value.
(PRESUMED, log 60) -/
def State.rxGood (s : State) (n : Can) : State :=
  let r := s.cf n R.CAN_STAT.rec
  if r = 0 then s
  else if r ≤ 127 then (s.cset n R.CAN_STAT.rec (r - 1)).canState n
  else
    let v := 119 + s.freeNat % 9
    ((s.drawn).cset n R.CAN_STAT.rec v).canState n

/-! ## The end of a transmit buffer (R427, R431) -/

/-- A buffer ends with an outcome. -/
def State.txOut (s : State) (n : Can) (out : Nat) (b : Fin 32) : State :=
  let s := s.modTx n b fun t => { t with pend := false, cancel := false, single := false, attempts := 0 }
  let a := s.txAt n b.val + 1
  let s := s.setRam a (s.ram a % 2 ^ 29 + out * 2 ^ 29)
  let f := if out = 1 then R.CAN_TX_DONE.done else R.CAN_TX_FAIL.fail
  let s := s.cset n f (Nat.lor (s.cf n f) (2 ^ b.val))
  if out ≠ 1 ∧ s.cf n R.CAN_TT.role = 1 ∧ s.cf n R.CAN_TT.ref_buf = b.val then s.cinc n R.CAN_TT_STAT.ref_lost_count else s

/-- Pending buffers. -/
def State.pendings (s : State) (n : Can) : List (Fin 32) := (List.finRange 32).filter fun b => ((s.can[n]).tx[b]).pend

/-- Every pending transmission ends with an outcome; the controller's own frames are dropped. (DEDUCED, log 61) -/
def State.txOutAll (s : State) (n : Can) (out : Nat) : State :=
  (s.each (s.pendings n) fun b s => s.txOut n out b).modCan n fun c => { c with diag := none, ann := none }

/-! ## Bus-off (R434) -/

def State.canBusOff (s : State) (n : Can) : State :=
  let s := (s.cset n R.CAN_STAT.state 3).cset n R.CAN_STAT.recovering 0
  ((s.txOutAll n 4).cset n R.CAN_TT_STAT.running 0).assertOn (evBusOff n)

/-- A write of 1 to CANn_CTRL.recover. -/
def State.canRecoverCmd (s : State) (n : Can) : State :=
  if s.cf n R.CAN_STAT.state = 3 then (s.cset n R.CAN_STAT.recovering 1).answer .ok else s.answer .badState

/-- 128 occurrences of 11 recessive bits have passed. (PRESUMED, log 60) -/
def State.canRecovered (s : State) (n : Can) : State :=
  if s.fb (canB n) R.CAN_STAT.recovering ∧ (s.can[n]).mode ≠ 0 then
    let s := ((s.cset n R.CAN_STAT.recovering 0).cset n R.CAN_STAT.tec 0).cset n R.CAN_STAT.rec 0
    ((s.cset n R.CAN_STAT.state 1).cset n R.CAN_STAT.integrating 0).assertOff (evBusOff n)
  else s

/-! ## The end of no-ack (R432) -/

def State.ackSeen (s : State) (n : Can) : State :=
  ((s.modCan n fun c => { c with ackRun := 0 }).cset n R.CAN_STAT.no_ack 0).assertOff (evNoAck n)

/-- A transmission attempt has ended in an error: counters, no-ack, and bus-off. (PRESUMED, log 60) -/
def State.txError (s : State) (n : Can) (e : BusErr) (dataPhase flagDom : Bool) : State :=
  let s := s.noteErr n e dataPhase
  let quiet : Bool := s.cf n R.CAN_STAT.state == 2 && e == .ack && !flagDom
  let tec := s.cf n R.CAN_STAT.tec + (if quiet then 0 else 8)
  let s := s.cset n R.CAN_STAT.tec (Nat.min 511 tec)
  let run := if e = .ack then (s.can[n]).ackRun + 1 else 0
  let s := s.modCan n fun c => { c with ackRun := Nat.min 3 run, lastEnd := s.now }
  let s := if 3 ≤ run then (s.cset n R.CAN_STAT.no_ack 1).assertOn (evNoAck n) else s
  if 255 < tec then s.canBusOff n else s.canState n

/-- A transmission has succeeded. (PRESUMED, log 60) -/
def State.txGood (s : State) (n : Can) : State :=
  let s := (s.cset n R.CAN_STAT.tec (s.cf n R.CAN_STAT.tec - 1)).canState n
  let s := (s.ackSeen n).cinc n R.CAN_CNT.tx_ok
  s.modCan n fun c => { c with lastEnd := s.now }

/-! ## Modes (R408, R412) -/

/-- A mode takes effect. (DEDUCED, log 61) -/
def State.canApplyMode (s : State) (n : Can) (m : Nat) : State :=
  let s := s.modCan n fun c => { c with mode := m, modeNext := none }
  if m = 0 then
    let s := (((s.txOutAll n 5).ackSeen n).cset n R.CAN_TT_STAT.running 0).cset n R.CAN_STAT.integrating 0
    if s.cf n R.CAN_STAT.state = 3 then s else s.cset n R.CAN_STAT.state 0
  else
    let s := s.cset n R.CAN_STAT.integrating 1
    if s.cf n R.CAN_STAT.state = 0 then (s.cset n R.CAN_STAT.state 1).canState n else s

/-- A write of CANn_CTRL.mode: refused where the layout check fails; a controller in OFF has no frame in progress.
(DEDUCED, log 61) -/
def State.canModeCmd (s : State) (n : Can) (m : Nat) : State :=
  if s.cf n R.CAN_CTRL.mode = 0 ∧ m ≠ 0 ∧ !s.layoutOk n then s.answer .badArg
  else
    let s := (s.cset n R.CAN_CTRL.mode m).answer .ok
    let now := (s.can[n]).mode
    if now = m then s.modCan n fun c => { c with modeNext := none }
    else if now = 0 then s.canApplyMode n m
    else s.modCan n fun c => { c with modeNext := some m }

/-- The frame in progress has ended, or the bus is idle. -/
def State.canModeDue (s : State) (n : Can) : State :=
  match (s.can[n]).modeNext with
  | some m => s.canApplyMode n m
  | none => s

/-- Eleven recessive bits have been seen (R410). -/
def State.canJoins (s : State) (n : Can) : State :=
  if (s.can[n]).mode ≠ 0 ∧ s.fb (canB n) R.CAN_STAT.integrating ∧ s.cf n R.CAN_STAT.state ≠ 3 then
    (s.cset n R.CAN_STAT.integrating 0).modCan n fun c => { c with lastEnd := s.now }
  else s

/-- An error of a frame that the controller receives (R407). -/
def State.canRxError (s : State) (n : Can) (e : BusErr) (dataPhase flagDom : Bool) : State :=
  if s.canOn n ∧ (s.can[n]).mode ≠ 3 then s.rxError n e dataPhase flagDom else s

end Sys2Proof.Machine
end

