-- ==== Sys2Proof/Machine/CanRx.lean ====
section
/-! DEFINITION. Reception by a CAN controller (15_can_fd R407, R413 to R419): filters, receive buffers with the pending slot,
FIFOs, locks. -/

namespace Sys2Proof.Machine

/-! ## Lengths (R413) -/

/-- Lengths of FD frames above 8 bytes, by DLC 9 to 15. -/
def fdLens : List Nat := [12, 16, 20, 24, 32, 48, 64]
/-- Data bytes of a DLC. -/
def dlcLen (fd : Bool) (dlc : Nat) : Nat := if dlc ≤ 8 then dlc else if fd then nth fdLens (dlc - 9) 64 else 8
/-- The DLC of a number of data bytes. -/
def lenDlc (len : Nat) : Nat := if len ≤ 8 then len else 9 + fdLens.findIdx fun l => l == len

/-! ## Filters (R414, R415) -/

/-- Does the kind's test pass? -/
def filterTest (kind ida idb id : Nat) : Bool :=
  match kind with
  | 1 => Nat.land (Nat.xor id ida) idb == 0
  | 2 => decide (ida ≤ id) && decide (id ≤ idb)
  | _ => id == ida || id == idb

/-- Does filter element i match a frame? -/
def State.filterHit (s : State) (n : Can) (f : Frame) (i : Nat) : Bool :=
  let a := s.filterAt n i
  let w := s.ram a
  let kind := w % 8
  let fmt := bitsAt w 4 2
  kind != 0 && bitAt w 3 == f.ext && (fmt == 0 || (fmt == 1 && !f.fd) || (fmt == 2 && f.fd))
    && (filterTest kind (s.ram (a + 1) % 2 ^ 29) (s.ram (a + 2) % 2 ^ 29) f.id.toNat != bitAt w 6)

/-- The first element that matches. -/
def State.filterFind (s : State) (n : Can) (f : Frame) : Option Nat :=
  (List.range (s.cf n R.CAN_FLT.count)).find? (s.filterHit n f)

/-! ## Elements (R413) -/

/-- Words of data bytes; the bytes that fill the last word are free values. (DEDUCED, log 62) -/
def State.dataWords (s : State) (bs : List Nat) : List Nat :=
  let pad := (4 - bs.length % 4) % 4
  leWords (bs ++ (List.range pad).map fun i => (Config.freeWord (s.fresh + i)).toNat % 256)

/-- A frame written to the element at `a`, which holds `size` data bytes: filter index and wall stamp.
(DEDUCED, log 62) -/
def State.putElem (s : State) (a size : Nat) (f : Frame) (idx stamp : Nat) : State :=
  let bs := (f.data.take size).map fun b => b.toNat
  let w0 := f.id.toNat + b2n f.ext * 2 ^ 29 + b2n f.esi * 2 ^ 30
  let w1 := lenDlc f.data.length + b2n f.brs * 16 + b2n f.fd * 32 + b2n (decide (size < f.data.length)) * 64
    + idx % 128 * 128 + stamp % 65536 * 65536
  let s := (s.setRam a w0).setRam (a + 1) w1
  let ws := s.dataWords bs
  let s := s.each ((List.range ws.length).zip ws) fun p s => s.setRam (a + 2 + p.1) p.2
  { s with fresh := s.fresh + 4 }

/-! ## Receive buffers (R416, R418) -/

/-- A frame for a buffer is lost. -/
def State.rxLoss (s : State) (n : Can) (b : Nat) : State :=
  (s.cset n R.CAN_RXB_LOST.lost (Nat.lor (s.cf n R.CAN_RXB_LOST.lost) (2 ^ b))).cinc n R.CAN_CNT2.rx_lost

/-- An unlocked buffer takes a frame. -/
def State.rxStore (s : State) (n : Can) (b : Nat) (f : Frame) (idx stamp : Nat) : State :=
  let s := if bitAt (s.cf n R.CAN_RXB_ND.nd) b then s.rxLoss n b else s
  let s := s.putElem (s.rxAt n b) (esizeBytes (s.cf n R.CAN_RXB.esize)) f idx stamp
  s.cset n R.CAN_RXB_ND.nd (Nat.lor (s.cf n R.CAN_RXB_ND.nd) (2 ^ b))

/-- A frame for a receive buffer. -/
def State.rxBuffer (s : State) (n : Can) (b : Nat) (f : Frame) (idx stamp : Nat) : State :=
  if s.locked n 0 b then
    match (s.can[n]).slot with
    | none => s.modCan n fun c => { c with slot := some (b, f, idx, stamp) }
    | some (b', _, _, _) =>
      let s := s.rxLoss n b
      if b' = b then s.modCan n fun c => { c with slot := some (b, f, idx, stamp) } else s
  else s.rxStore n b f idx stamp

/-- A waiting frame is written once its buffer is not locked. -/
def State.slotFlush (s : State) (n : Can) : State :=
  match (s.can[n]).slot with
  | some (b, f, idx, stamp) =>
    if s.locked n 0 b then s else (s.modCan n fun c => { c with slot := none }).rxStore n b f idx stamp
  | none => s

/-! ## FIFOs (R419) -/

/-- A frame for a FIFO. -/
def State.rxFifo (s : State) (n : Can) (k : Fin 2) (f : Frame) (idx stamp : Nat) : State :=
  let b := canB n + k.val
  let count := s.f b R.CAN_FIFO.count
  let fill := s.f b R.CAN_FS.fill
  let get := s.f b R.CAN_FS.get
  let put := s.f b R.CAN_FS.put
  let store (s : State) (fill : Nat) : State :=
    let s := s.putElem (s.fifoAt n k.val put) (esizeBytes (s.f b R.CAN_FIFO.esize)) f idx stamp
    (s.setF b R.CAN_FS.put ((put + 1) % count)).setF b R.CAN_FS.fill fill
  if fill < count then store s (fill + 1)
  else
    let s := s.inc b R.CAN_FS.lost
    if count = 0 ∨ s.f b R.CAN_FIFO.fmode = 0 ∨ s.locked n ⟨k.val + 1, by omega⟩ get then s
    else store (s.setF b R.CAN_FS.get ((get + 1) % count)) fill

/-- A write of get: past put it stores put, which empties the FIFO. (DEDUCED, log 62) -/
def State.fifoGet (s : State) (n : Can) (k : Fin 2) (v : Nat) : State :=
  let b := canB n + k.val
  let count := s.f b R.CAN_FIFO.count
  let fill := s.f b R.CAN_FS.fill
  let get := s.f b R.CAN_FS.get
  let steps := (v + count - get) % Nat.max 1 count
  if v < count ∧ steps ≤ fill then (s.setF b R.CAN_FS.get v).setF b R.CAN_FS.fill (fill - steps)
  else (s.setF b R.CAN_FS.get (s.f b R.CAN_FS.put)).setF b R.CAN_FS.fill 0

/-! ## Locks (R417) -/

/-- A lock of a reading port set or released; frames that waited for the old one are written. -/
def State.setLock (s : State) (p : Fin 4) (l : Option (Fin 3 × Fin 3 × Nat)) : State :=
  let s : State := { s with ports := upd s.ports p { s.ports[p] with lock := l } }
  s.each allCan fun n s => s.slotFlush n

/-- The receive element of controller n that holds a word of message RAM: kind, element, word in it. -/
def State.elemIn (s : State) (n : Can) (i : Nat) : Option (Fin 3 × Nat × Nat) :=
  let within (base count size : Nat) : Option (Nat × Nat) :=
    if base ≤ i ∧ i < base + count * size then some ((i - base) / size, (i - base) % size) else none
  if (s.can[n]).mode = 0 then none
  else
    match within (s.cf n R.CAN_RXB.base) (s.cf n R.CAN_RXB.count) (elemWords (s.cf n R.CAN_RXB.esize)) with
    | some (e, w) => some (0, e, w)
    | none =>
      match within (s.fifoF n 0 R.CAN_FIFO.base) (s.fifoF n 0 R.CAN_FIFO.count) (elemWords (s.fifoF n 0 R.CAN_FIFO.esize)) with
      | some (e, w) => some (1, e, w)
      | none =>
        match within (s.fifoF n 1 R.CAN_FIFO.base) (s.fifoF n 1 R.CAN_FIFO.count)
            (elemWords (s.fifoF n 1 R.CAN_FIFO.esize)) with
        | some (e, w) => some (2, e, w)
        | none => none

/-- Data bytes that an element can hold, by its kind. -/
def State.elemSize (s : State) (n : Can) (kind : Fin 3) : Nat :=
  esizeBytes (match kind with
    | 0 => s.cf n R.CAN_RXB.esize | 1 => s.fifoF n 0 R.CAN_FIFO.esize | 2 => s.fifoF n 1 R.CAN_FIFO.esize)

/-- What a read of a word of message RAM through a port does to the port's lock. -/
def State.ramTouch (s : State) (p : Fin 4) (i : Nat) : State :=
  match allCan.find? fun n => (s.elemIn n i).isSome with
  | none => s
  | some n =>
    match s.elemIn n i with
    | none => s
    | some (kind, e, w) =>
      let w1 := s.ram (i - w + 1)
      let stored := Nat.min (dlcLen (bitAt w1 5) (w1 % 16)) (s.elemSize n kind)
      if w = 0 then s.setLock p (some (n, kind, e))
      else if w = 1 + (stored + 3) / 4 ∧ (s.ports[p]).lock = some (n, kind, e) then s.setLock p none
      else s

end Sys2Proof.Machine
end

