-- ==== Sys2Proof/Machine/CanRoute.lean ====
section
/-! DEFINITION. Receive routes (15_can_fd R420 to R425, 13_image_boot_and_security R374): from a frame's field to a command,
with refusals, first set-points and timeouts. -/

namespace Sys2Proof.Machine

/-! ## Targets and secure frames -/

/-- The axis of a target code. -/
def routeAxis (t : Nat) : Option Axis :=
  if h : t < 6 then some (.mc ⟨t, h⟩) else if h : 8 ≤ t ∧ t < 16 then some (.st ⟨t - 8, by omega⟩) else none

/-- The cluster of a target code. -/
def routeCl (t : Nat) : Cl := if h : t < 8 then ⟨t, h⟩ else stCl ⟨(t - 8) % 8, by omega⟩

/-- The key of a key reference: none where it names no usable slot (R352, R367). -/
def State.routeKey (s : State) (ref : Nat) : Option (List Nat) :=
  match s.boot.keyrefs.find? fun r => r.1 == ref with
  | some (_, slot) => let k := s.slot slot; if k.holds 2 then some k.bytes else none
  | none => none

/-- The fv of a secure frame where its MAC matches and it is fresh. (DEDUCED, log 63) -/
def State.secureFv (s : State) (w0 dataId last : Nat) (bs : List Nat) : Option Nat :=
  let n := bs.length - 12
  let fv := beNat ((bs.drop n).take 4)
  match s.routeKey (bitsAt w0 20 4) with
  | some key =>
    if !s.sec.trngFail ∧ last < fv ∧ fv - last ≤ s.f pk R.SEC_CAN_CFG2.fresh_win
        ∧ s.routeMac key dataId (bs.take n) fv = bs.drop (n + 4) then some fv
    else none
  | none => none

/-- The raw field of a payload (R420, R421); none where the payload does not reach its end. (DEDUCED, log 63) -/
def routeRaw (w0 : Nat) (payload : List Nat) : Option Int :=
  let off := bitsAt w0 9 6
  let k := bitsAt w0 15 2 + 1
  if payload.length < off + k then none
  else
    let bs := (payload.drop off).take k
    let v := beNat (if bitAt w0 18 then bs.reverse else bs)
    some (if bitAt w0 17 then sgn (8 * k) v else v)

/-- The route value in Q16.16, saturating. (DEDUCED, log 63) -/
def routeValue (raw : Int) (scale offset : Nat) : Int := sat32 (raw * sgn 32 scale + sgn 32 offset)

/-! ## Commands (R422) -/

/-- The staging registers of an axis in a controller's own copy. -/
def State.stageRoute (s : State) (n : Can) (a : Axis) (tgt : Option Int) (vel : Int) : State :=
  let b := moB a + (2 + n.val) * 0x1000000
  let s := match tgt with
    | some t => (s.setWord (b + R.MO_TGT_LO.reg) (lo64 t)).setWord (b + R.MO_TGT_HI.reg) (hi64 t)
    | none => s
  (s.setWord (b + R.MO_VEL.reg) (BitVec.ofInt 32 vel)).setWord (b + R.MO_ACC.reg) (BitVec.ofNat 32 (s.aMax a))

/-- A write of a converter's set-point (R220): refused in the other personality, ignored for an UNUSED cluster. -/
def State.convWrite (s : State) (m : Mcn) (f : Fld) (v : Nat) : State :=
  if (s.cl[mcCl m]).st = .unused then s.answer .ok
  else if s.conv m then (s.setF (mcB m) f v).answer .ok
  else s.answer .badMode

/-- Cluster commands by their codes 1 to 6. -/
def State.clusterCmd (s : State) (c : Cl) (k : Nat) : State :=
  match k with
  | 1 => s.armCmd c 1
  | 2 => s.disarmCmd c
  | 3 => s.startCmd c
  | 4 => s.stopCmd c
  | 5 => s.safeCmd c
  | _ => s.clearCmd c

/-- The command of a route's kind for a value; none where it issues nothing. (DEDUCED, log 63) -/
def State.routeCmd (s : State) (n : Can) (kind t : Nat) (v : Int) : Option State :=
  match kind with
  | 1 =>
    match routeAxis t with
    | some a => let s := s.stageRoute n a none v; some (s.moSpeed a (s.staged (2 + n.val) a))
    | none => none
  | 2 =>
    match routeAxis t with
    | some a => let s := s.stageRoute n a (some (v * 65536)) (s.vMax a); some (s.moMove a (s.staged (2 + n.val) a))
    | none => none
  | 3 =>
    match clMc (routeCl t) with
    | some m =>
      some (if v < 0 ∨ 131071 < v / 65536 then s.answer .badArg else s.convWrite m R.MC_CONV_VSET.vset (v / 65536).toNat)
    | none => none
  | 4 =>
    match clMc (routeCl t) with
    | some m => some (s.convWrite m R.MC_CONV_ISET.iset (uns 32 (sat32 (v * 4096))))
    | none => none
  | 5 => if 1 ≤ v / 65536 ∧ v / 65536 ≤ 6 then some (s.clusterCmd (routeCl t) (v / 65536).toNat) else none
  | _ => none

/-! ## Word 4 (R420, R423) -/

def State.routeW4 (s : State) (n : Can) (i : Nat) : Nat := s.ram (s.routeAt n i + 4)
def State.setRouteW4 (s : State) (n : Can) (i : Nat) (w : Nat) : State := s.setRam (s.routeAt n i + 4) w

/-- A bit field of a number replaced. -/
def putBits (n lo w v : Nat) : Nat := n - bitsAt n lo w * 2 ^ lo + v % 2 ^ w * 2 ^ lo

/-- A refusal recorded: status, pending, count. -/
def State.routeRefused (s : State) (n : Can) (i : Nat) (st : Status) : State :=
  let w := s.routeW4 n i
  s.setRouteW4 n i (putBits (putBits (putBits w 0 8 st.code) 8 1 1) 16 8 (Nat.min 255 (bitsAt w 16 8 + 1)))

/-- Is a refusal due only to a cluster that is not yet RUNNING (R424)? (DEDUCED, log 63) -/
def State.notYet (s : State) (kind t : Nat) (st : Status) : Bool :=
  (kind == 1 || kind == 2) && st == .badState
    && (match (s.cl[routeCl t]).st with | .stopped | .armed | .starting => true | _ => false)
    && (match routeAxis t with | some (.st k) => s.chanOn k | _ => true)

/-- A command issued on a route: accepted or refused, with the set-point it counts as. (DEDUCED, log 63) -/
def State.routeIssue (s : State) (n : Can) (i : Fin 32) (w0 : Nat) (v : Int) : State :=
  let kind := bitsAt w0 5 4
  let t := bitsAt w0 1 4
  let what : Int := if kind = 5 then v / 65536 else v
  let again : Bool := kind == 1 || kind == 3 || kind == 4 || ((s.can[n]).routes[i]).last != some what
    || bitAt (s.routeW4 n i.val) 8
  if again then
    match s.routeCmd n kind t v with
    | none => s
    | some s' =>
      let st := s'.status
      if st = .ok then
        let s := (s'.modRoute n i fun r => { r with last := some what })
        (s.setRouteW4 n i.val (putBits (s.routeW4 n i.val) 8 1 0)).firstSp (routeCl t) 1
      else
        let s := s'.routeRefused n i.val st
        let s := if kind = 2 ∧ bitAt w0 26 ∧ st = .busyTarget then
            (match routeAxis t with | some a => s.moStop a | none => s)
          else s
        if s.notYet kind t st then s.firstSp (routeCl t) 1 else s
  else s

/-- A frame routed to a receive route (R421). (DEDUCED, log 63) -/
def State.routeFrame (s : State) (n : Can) (k : Nat) (f : Frame) : State :=
  if h : k < 32 then
    let i : Fin 32 := ⟨k, h⟩
    let a := s.routeAt n k
    let w0 := s.ram a
    if s.cf n R.CAN_RT.count ≤ k ∨ bitAt w0 0 then s
    else
      let bs := f.data.map fun b => b.toNat
      let secure := bitAt w0 19
      if secure ∧ bs.length < 12 then s.cinc n R.CAN_CNT2.route_len
      else
        let fv : Option Nat := if secure then s.secureFv w0 (s.ram (a + 1) % 65536) ((s.can[n]).routes[i]).lastFv bs else some 0
        match fv with
        | none => (s.inc pk R.SEC_CNT.can_mac_fail).raise 47
        | some fv =>
          let s := if secure then s.modRoute n i fun r => { r with lastFv := fv } else s
          match routeRaw w0 (if secure then bs.take (bs.length - 12) else bs) with
          | none => s.cinc n R.CAN_CNT2.route_len
          | some raw =>
            let st := s.status
            let s := s.modRoute n i fun r => { r with seen := true, seenAt := s.now }
            let s := s.setRouteW4 n k (putBits (s.routeW4 n k) 9 1 0)
            { s.routeIssue n i w0 (routeValue raw (s.ram (a + 2)) (s.ram (a + 3))) with status := st }
  else s

/-! ## Timeouts (R425) -/

/-- The action of a timeout. -/
def State.timeoutAct (s : State) (w0 : Nat) : State :=
  let kind := bitsAt w0 5 4
  let t := bitsAt w0 1 4
  match bitsAt w0 24 2 with
  | 0 => s
  | 1 =>
    if kind = 1 ∨ kind = 2 then (match routeAxis t with | some a => s.moStop a | none => s)
    else if kind = 3 ∨ kind = 4 ∨ kind = 5 then s.stopCmd (routeCl t)
    else s
  | 2 => s.stopCmd (routeCl t)
  | _ => s.safeCmd (routeCl t)

/-- The timeout of a receive route expires. -/
def State.routeTimeout (s : State) (n : Can) (i : Fin 32) : State :=
  let a := s.routeAt n i.val
  let w0 := s.ram a
  let w4 := s.routeW4 n i.val
  if i.val < s.cf n R.CAN_RT.count ∧ !bitAt w0 0 ∧ s.ram (a + 1) / 65536 ≠ 0 ∧ ((s.can[n]).routes[i]).seen ∧ !bitAt w4 9
      ∧ ((s.can[n]).routes[i]).seenAt + 500000 * (s.ram (a + 1) / 65536) ≤ s.now then
    let s := s.setRouteW4 n i.val (putBits (putBits w4 9 1 1) 24 8 (Nat.min 255 (bitsAt w4 24 8 + 1)))
    let st := s.status
    { s.timeoutAct w0 with status := st }
  else s

/-! ## A frame received (R407, R415) -/

/-- A valid frame goes where the filter list sends it. -/
def State.frameDest (s : State) (n : Can) (f : Frame) (stamp : Nat) : State :=
  match s.filterFind n f with
  | some i =>
    let w := s.ram (s.filterAt n i)
    let idx := bitsAt w 12 5
    match bitsAt w 8 4 with
    | 1 => s.rxFifo n 0 f i stamp
    | 2 => s.rxFifo n 1 f i stamp
    | 3 => if idx < s.cf n R.CAN_RXB.count then s.rxBuffer n idx f i stamp else s
    | 4 => s.routeFrame n idx f
    | _ => s
  | none =>
    let free := s.freeNat
    match s.cf n R.CAN_FLT.nm_dest with
    | 1 => s.drawn.rxFifo n 0 f free stamp
    | 2 => s.drawn.rxFifo n 1 f free stamp
    | _ => s

/-- A frame received without error: `diag` takes it where it is a diagnostic request. -/
def State.frameIn (diag : Can → Frame → State → Option State) (s : State) (n : Can) (f : Frame) (stamp : Nat) : State :=
  let s := (s.rxGood n).cinc n R.CAN_CNT.rx_ok
  if f.rtr then s.cinc n R.CAN_CNT2.rtr_drop
  else match diag n f s with
    | some s => s
    | none => s.frameDest n f stamp

/-- A frame on the bus (R407): with fd_en 0 an FD frame is a form error, and whether the error flag met a dominant bit is a
free value. -/
def State.canFrame (diag : Can → Frame → State → Option State) (s : State) (n : Can) (ago : Nat) (f : Frame) : State :=
  if s.canOn n ∧ (s.can[n]).mode ≠ 3 then
    if f.fd ∧ !s.fb (canB n) R.CAN_CTRL.fd_en then
      let dom := s.freeNat % 2 == 1
      s.drawn.rxError n .form false dom
    else s.frameIn diag n f ((s.now - ago - s.boot.relAt) / 2 / 4096)
  else s

end Sys2Proof.Machine
end

