-- ==== Sys2Proof/Machine/CanTx.lean ====
section
/-! DEFINITION. Transmission by a CAN controller (15_can_fd R426 to R434, 13_image_boot_and_security R373, R374): requests,
data built by transmit routes, attempts and their ends, cancels, the schedule, the announcement. -/

namespace Sys2Proof.Machine

def State.txW1 (s : State) (n : Can) (b : Nat) : Nat := s.ram (s.txAt n b + 1)

/-- Is a buffer's frame an FD frame, and how many data bytes has it? -/
def State.txFd (s : State) (n : Can) (b : Nat) : Bool := bitAt (s.txW1 n b) 5 && s.fb (canB n) R.CAN_CTRL.fd_en
def State.txLen (s : State) (n : Can) (b : Nat) : Nat := dlcLen (s.txFd n b) (s.txW1 n b % 16)

/-- Bytes of a buffer's element; those past its end are free values. -/
def State.txBytes (s : State) (n : Can) (b len : Nat) : List Nat :=
  let size := esizeBytes (s.cf n R.CAN_TXB.esize)
  (List.range len).map fun i =>
    if i < size then s.ram (s.txAt n b + 2 + i / 4) / 2 ^ (8 * (i % 4)) % 256
    else (Config.freeWord (s.fresh + i)).toNat % 256

/-- The frame of a buffer. -/
def State.txFrame (s : State) (n : Can) (b : Nat) : Frame :=
  let w0 := s.ram (s.txAt n b)
  let fd := s.txFd n b
  { id := BitVec.ofNat 29 (if bitAt w0 29 then w0 else w0 % 2048), ext := bitAt w0 29, fd := fd
    brs := fd && bitAt (s.txW1 n b) 4 && s.fb (canB n) R.CAN_CTRL.brs_en, esi := fd && s.cf n R.CAN_STAT.state == 2
    rtr := false, data := (s.txBytes n b (s.txLen n b)).map fun x => BitVec.ofNat 8 x }

/-- Rank of a buffer's identifier: an 11-bit one as its 29-bit equivalent (R427). -/
def State.txRank (s : State) (n : Can) (b : Nat) : Nat :=
  let f := s.txFrame n b
  if f.ext then f.id.toNat else f.id.toNat * 2 ^ 18

/-! ## Requests (R426) -/

/-- Bytes laid over a list from an offset on; what falls past its end is dropped. -/
def overlay (bs : List Nat) (off : Nat) (new : List Nat) : List Nat :=
  (bs.take off ++ new ++ bs.drop (off + new.length)).take bs.length

/-- The bytes of a pack entry, most significant first, with their offset. -/
def State.packBytes (s : State) (n : Can) (w : Nat) : Nat × List Nat :=
  let a := w % 2 ^ 24
  let v (a : Nat) : Nat := (s.view (.diag n) a).toNat
  (bitsAt w 24 6,
    match bitsAt w 30 2 with
    | 0 => beBytes 1 (v a)
    | 1 => beBytes 2 (v a)
    | 2 => beBytes 4 (v a)
    | _ => beBytes 4 (v (a + 1)) ++ beBytes 4 (v a))

/-- The data bytes of a buffer written to its element. -/
def State.putTxBytes (s : State) (n : Can) (b : Nat) (bs : List Nat) : State :=
  let ws := leWords (overlay (s.txBytes n b (esizeBytes (s.cf n R.CAN_TXB.esize))) 0 bs)
  s.each ((List.range ws.length).zip ws) fun p s => s.setRam (s.txAt n b + 2 + p.1) p.2

/-- The payload that the pack entries of transmit route r give a buffer: the bytes no entry names stay as they are stored.
(DEDUCED, log 64) -/
def State.packed (s : State) (n : Can) (b r len : Nat) : List Nat :=
  let w3 := s.ram (s.routeAt n r + 3)
  (List.range (bitsAt w3 8 8)).foldl (fun bs j =>
      let (off, new) := s.packBytes n (s.ram (s.packAt n (bitsAt w3 0 8 + j)))
      overlay bs off new)
    (s.txBytes n b len)

/-- A buffer becomes pending. -/
def State.txPend (s : State) (n : Can) (b : Fin 32) (single : Bool) : State :=
  s.modTx n b fun t => { t with pend := true, reqAt := s.now, attempts := 0, cancel := false, single := single }

/-- The data of a secure transmit route (R374): payload, fv, MAC; a data field without room for fv and MAC is a free value.
(DEDUCED, log 64) -/
def State.secured (s : State) (key : List Nat) (dataId fv : Nat) (bs : List Nat) : List Nat :=
  if bs.length < 12 then (List.range bs.length).map fun i => (Config.freeWord (s.fresh + 64 + i)).toNat % 256
  else
    let payload := bs.take (bs.length - 12)
    payload ++ beBytes 4 fv ++ s.routeMac key dataId payload fv

/-- A buffer is requested: `single` for one attempt by a schedule cell. A secure route without a usable key, or with a failed
TRNG, transmits nothing (R366). -/
def State.txRequest (s : State) (n : Can) (b : Fin 32) (single : Bool) : State :=
  if s.cf n R.CAN_TXB.count ≤ b.val ∨ (s.can[n]).mode = 0 ∨ ((s.can[n]).tx[b]).pend then s
  else
    let w1 := s.txW1 n b.val
    let r := bitsAt w1 12 5
    let a := s.routeAt n r
    let w0 := s.ram a
    if bitAt w1 11 ∧ r < s.cf n R.CAN_RT.count ∧ bitAt w0 0 then
      let bs := s.packed n b.val r (s.txLen n b.val)
      if bitAt w0 19 then
        let fv := s.ram (a + 4)
        if fv = 0xFFFFFFFF then s.txOut n 7 b
        else
          match (if s.sec.trngFail then none else s.routeKey (bitsAt w0 20 4)) with
          | none => s
          | some key =>
            let s := s.putTxBytes n b.val (s.secured key (s.ram (a + 1) % 65536) fv bs)
            let s : State := { s.setRam (a + 4) (fv + 1) with fresh := s.fresh + 128 }
            (if fv + 1 = 0xFFFFFFFF then s.raise 47 else s).txPend n b single
      else (s.putTxBytes n b.val bs).txPend n b single
    else s.txPend n b single

/-- Buffers of a mask. -/
def maskBufs (w : Word) : List (Fin 32) := (List.finRange 32).filter fun b => bitAt w.toNat b.val

/-- A write of CANn_TX_REQ: requests of scheduled buffers are ignored (R429). (DEDUCED, log 61) -/
def State.txReqCmd (s : State) (n : Can) (w : Word) : State :=
  (s.each (maskBufs w) fun b s => if s.scheduled n b.val then s else s.txRequest n b false).answer .ok

/-- The period of a buffer expires (R426); suspended in bus-off (R434). (DEDUCED, log 64) -/
def State.txPeriod (s : State) (n : Can) (b : Fin 32) : State :=
  let per := 500000 * bitsAt (s.txW1 n b.val) 17 12
  let t := (s.can[n]).tx[b]
  if b.val < s.cf n R.CAN_TXB.count ∧ per ≠ 0 ∧ t.perAt + per ≤ s.now then
    let s := s.modTx n b fun t => { t with perAt := s.now - (s.now - t.perAt) % per }
    if s.cf n R.CAN_STAT.state ≠ 3 ∧ !s.scheduled n b.val then s.txRequest n b false else s
  else s

/-! ## Attempts (R427) -/

/-- May a buffer have been the one in arbitration: no pending buffer with a lower identifier was there to precede it?
(DEDUCED, log 64) -/
def State.txMay (s : State) (n : Can) (b : Fin 32) : Bool :=
  let c := s.can[n]
  let t := c.tx[b]
  s.canOn n && (c.mode == 1 || c.mode == 3) && t.pend
    && !(s.pendings n).any fun b' =>
      decide (s.txRank n b'.val < s.txRank n b.val) && decide ((c.tx[b']).reqAt ≤ Nat.max c.lastEnd t.reqAt)

/-- A write of CANn_TX_CANCEL. Whether a buffer that may be on the bus is being transmitted is a free value.
(DEDUCED, logs 61, 64) -/
def State.txCancelCmd (s : State) (n : Can) (w : Word) : State :=
  (s.each (maskBufs w) fun b s =>
    if !((s.can[n]).tx[b]).pend then s
    else if s.txMay n b then
      let busy := s.freeNat % 2 == 1
      let s := s.drawn
      if busy then s.modTx n b fun t => { t with cancel := true } else s.txOut n 5 b
    else s.txOut n 5 b).answer .ok

/-- The controller takes its own frame in LOOPBACK; the wall stamp of its start of frame is a free value. -/
def State.loopIn (s : State) (n : Can) (f : Frame) : State :=
  if (s.can[n]).mode = 3 then
    let stamp := s.freeNat
    s.drawn.frameIn (fun _ _ _ => none) n f stamp
  else s

/-- An attempt of a buffer has ended in an error; what the buffer's end is. (DEDUCED, log 64) -/
def State.txFailed (s : State) (n : Can) (b : Fin 32) (clash : Bool) : State :=
  let s := s.modTx n b fun t => { t with attempts := t.attempts + 1, clash := if clash then t.clash + 1 else 0 }
  let t := (s.can[n]).tx[b]
  if !t.pend then s
  else if t.cancel then s.txOut n 5 b
  else if 3 ≤ t.clash then
    (((s.modTx n b fun t => { t with clash := 0 }).txOut n 3 b).cinc n R.CAN_CNT2.clash_count).raise (evClash n)
  else if t.single ∨ bitsAt (s.txW1 n b.val) 6 5 < t.attempts then s.txOut n 2 b
  else s

/-- The end of an attempt of a transmit buffer. (DEDUCED, log 64) -/
def State.txBufEnd (s : State) (n : Can) (b : Fin 32) (r : TxEnd) : State :=
  if !s.txMay n b then s
  else
    match r with
    | .ok =>
      let f := s.txFrame n b.val
      let s := ((s.txGood n).modTx n b fun t => { t with clash := 0 }).txOut n 1 b
      s.loopIn n f
    | .arbLost =>
      if (s.can[n]).mode = 3 then s
      else
        let s := s.modCan n fun c => { c with lastEnd := s.now }
        if ((s.can[n]).tx[b]).cancel then s.txOut n 5 b else s
    | .clash d => if (s.can[n]).mode = 3 then s else (s.txError n .bit1 d false).txFailed n b true
    | .error e d dom => if (s.can[n]).mode = 3 then s else (s.txError n e d dom).txFailed n b false

/-! ## The controller's own frames: diagnostic responses (R435) and the announcement (R373) -/

/-- The frame of a diagnostic response or of the announcement. -/
def State.ownFrame (s : State) (n : Can) (diag : Bool) (bs : List Nat) : Frame :=
  let ext := if diag then s.fb (canB n) R.CAN_DIAG_RSP.xtd else s.fb pk R.SEC_CAN_CFG.ann_ext
  let id := if diag then s.cf n R.CAN_DIAG_RSP.id else s.f pk R.SEC_CAN_CFG.ann_id
  let fd := diag && s.fb (canB n) R.CAN_DIAG_RSP.rsp_fd && s.fb (canB n) R.CAN_CTRL.fd_en
  { id := BitVec.ofNat 29 (if ext then id else id % 2048), ext := ext, fd := fd
    brs := fd && s.fb (canB n) R.CAN_CTRL.brs_en, esi := fd && s.cf n R.CAN_STAT.state == 2, rtr := false
    data := bs.map fun x => BitVec.ofNat 8 x }

def CanC.own (c : CanC) (diag : Bool) : Option OwnFrame := if diag then c.diag else c.ann
def State.setOwn (s : State) (n : Can) (diag : Bool) (o : Option OwnFrame) : State :=
  s.modCan n fun c => if diag then { c with diag := o } else { c with ann := o }

/-- The end of an attempt of an own frame: a diagnostic response has retry limit 3, an announcement is repeated until it is
sent. (DEDUCED, log 64) -/
def State.txOwnEnd (s : State) (n : Can) (diag : Bool) (r : TxEnd) : State :=
  match (s.can[n]).own diag with
  | none => s
  | some o =>
    let fails (s : State) : State :=
      if ((s.can[n]).own diag).isNone then s
      else s.setOwn n diag (if diag ∧ 3 ≤ o.attempts then none else some { o with attempts := o.attempts + 1 })
    if !s.canOn n ∨ ((s.can[n]).mode ≠ 1 ∧ (s.can[n]).mode ≠ 3) then s
    else
      match r with
      | .ok => ((s.txGood n).setOwn n diag none).loopIn n (s.ownFrame n diag o.bytes)
      | .arbLost => if (s.can[n]).mode = 3 then s else s.modCan n fun c => { c with lastEnd := s.now }
      | .clash d => if (s.can[n]).mode = 3 then s else fails (s.txError n .bit1 d false)
      | .error e d dom => if (s.can[n]).mode = 3 then s else fails (s.txError n e d dom)

def State.txEnd (s : State) (n : Can) (w : TxWho) (r : TxEnd) : State :=
  match w with
  | .buf b => s.txBufEnd n b r
  | .diag => s.txOwnEnd n true r
  | .ann => s.txOwnEnd n false r

/-- The announcement is due. -/
def State.announce (s : State) : State :=
  let k := s.f pk R.SEC_CAN_CFG.ann_ctl
  if h : k < 3 ∧ s.sec.annAt ≤ s.now then
    let n : Can := ⟨k, h.1⟩
    -- ann_period is in steps of 100 ms
    let s : State := { s with sec := { s.sec with annAt := s.sec.annAt + 50000000 * s.f pk R.SEC_CAN_CFG2.ann_period } }
    if s.dev.st.operates ∧ !s.sec.trngFail ∧ (s.can[n]).mode ≠ 0 ∧ s.cf n R.CAN_STAT.state ≠ 3 then
      s.setOwn n false (some { bytes := beBytes 4 s.sec.sv.toNat ++ [0, 0, 0, 0], attempts := 0 })
    else s
  else s

/-! ## The schedule (R428 to R431) -/

/-- Have `k` ticks for each us of cycle_len passed since the basic cycle began: 500 for one cycle, 750 for 1.5 cycles? -/
def State.cycleRun (s : State) (n : Can) (k : Nat) : Bool := decide ((s.can[n]).cycAt + k * s.cf n R.CAN_TT.cycle_len ≤ s.now)

/-- A basic cycle begins: a master sends the reference message, a follower has received it with its cycle byte.
(DEDUCED, log 65) -/
def State.refMessage (s : State) (n : Can) (cycle : Option (BitVec 8)) : State :=
  let begin_ (s : State) (c : Nat) : State :=
    let s := (s.modCan n fun x => { x with cell := none, cycAt := s.now }).cset n R.CAN_TT_STAT.cycle c
    ((s.cset n R.CAN_TT_STAT.column 0).cset n R.CAN_TT_STAT.ref_lost 0).cset n R.CAN_TT_STAT.running 1
  if (s.can[n]).mode = 0 ∨ s.cf n R.CAN_STAT.state = 3 then s
  else
    match s.cf n R.CAN_TT.role, cycle with
    | 1, none =>
      s.onlyIf (!s.fb (canB n) R.CAN_TT_STAT.running || s.cycleRun n 500) fun s =>
      let b : Fin 32 := ⟨s.cf n R.CAN_TT.ref_buf % 32, by omega⟩
      let cycles := s.cf n R.CAN_TT.n_cycles + 1
      let c := if s.fb (canB n) R.CAN_TT_STAT.running then (s.cf n R.CAN_TT_STAT.cycle + 1) % cycles else 0
      let s := begin_ s c
      if ((s.can[n]).tx[b]).pend then s
      else
        let a := s.txAt n b.val + 2
        (s.setRam a (putBits (s.ram a) 0 6 c)).txRequest n b false
    | 2, some v => begin_ s (v.toNat % 64)
    | _, _ => s

/-- A follower has had no reference message for 1.5 cycles. (DEDUCED, log 65) -/
def State.refLost (s : State) (n : Can) : State :=
  if s.cf n R.CAN_TT.role = 2 ∧ s.fb (canB n) R.CAN_TT_STAT.running ∧ s.cycleRun n 750 then
    let s := (s.cset n R.CAN_TT_STAT.running 0).cset n R.CAN_TT_STAT.ref_lost 1
    s.cinc n R.CAN_TT_STAT.ref_lost_count
  else s

/-- A column's mark is reached: the buffer of a valid cell is requested for one attempt. (DEDUCED, log 65) -/
def State.schedMark (s : State) (n : Can) (col : Nat) : State :=
  if s.fb (canB n) R.CAN_TT_STAT.running ∧ (s.can[n]).mode ≠ 0 ∧ s.cf n R.CAN_STAT.state ≠ 3
      ∧ (s.can[n]).cycAt + 500 * s.colMark n col ≤ s.now then
    let s := s.cset n R.CAN_TT_STAT.column col
    let x := s.cellByte n (s.cf n R.CAN_TT_STAT.cycle) col
    if cellValid x then
      let b : Fin 32 := ⟨x % 32, by omega⟩
      (s.modCan n fun c => { c with cell := some b, markAt := s.now }).txRequest n b true
    else s
  else s

/-- Have tx_win nominal bit times passed since the mark? A bit has (ntseg1 + 1) + (ntseg2 + 1) + 1 quanta of nbrp + 1 periods
of 25 ns (R409). -/
def State.winOver (s : State) (n : Can) : Bool :=
  let w := s.word (s.actPkg + canB n + 5)
  let bit := (R.CAN_NBT.nbrp.get w + 1) * (R.CAN_NBT.ntseg1.get w + R.CAN_NBT.ntseg2.get w + 3)
  decide (2 * (s.can[n]).markAt + 25 * s.cf n R.CAN_TT2.tx_win * bit ≤ 2 * s.now)

/-- No idle bus came within tx_win of the mark. (DEDUCED, log 65) -/
def State.schedMissed (s : State) (n : Can) : State :=
  match (s.can[n]).cell with
  | some b =>
    s.onlyIf (s.winOver n) fun s =>
    let t := (s.can[n]).tx[b]
    let s := s.modCan n fun c => { c with cell := none }
    if t.pend ∧ t.single then (s.txOut n 6 b).cinc n R.CAN_TT_STAT.sched_miss else s
  | none => s

end Sys2Proof.Machine
end

