-- ==== Sys2Proof/Machine/Bus.lean ====
section
/-! DEFINITION. Register access by a port (00_scope R7 to R9, 01_architecture R29, R30, R457, 13 R368, R370, 14 R381, R387,
R396, 15 R412, R416, R417, R426, 16_register_map R436 to R439): what a read returns and does, what a write is refused
with, and what it does. Command registers lead to the operations of their chapters. -/

namespace Sys2Proof.Machine

/-! ## Clears and software triggers (03 R110, 04 R121, R133) -/

/-- Both latency registers restart with the next sample. -/
def State.latClear (s : State) (n : Mcn) : State := s.modPwm n fun w => { w with latRestart := true }

/-- The counters of the PWM unit. -/
def State.pwmClear (s : State) (n : Mcn) : State :=
  ((s.setWord (mcB n + R.MC_PWM_WIN_CNT.reg) 0).setWord (mcB n + R.MC_PWM_REF_CNT.reg) 0).setWord
    (mcB n + R.MC_PWM_APPLY_CNT.reg) 0

/-- The counters of a sensing group. -/
def State.senClear (s : State) (g : Grp) : State :=
  (s.setWord (grpB g + R.SEN_CNT.reg) 0).setWord (grpB g + R.SEN_CNT2.reg) 0

/-- A software trigger of the regular or the injected sequence. -/
def State.swTrigger (s : State) (g : Grp) (inj : Bool) : State :=
  let b := s.seqB g
  if (if inj then s.f b R.SEQ_CFG.inj_trig else s.f b R.SEQ_CFG.reg_trig) = 7 then s.seqTrigger g inj else s

/-- A write of xx_SEN_CLR. -/
def State.senCmd (s : State) (g : Grp) (w : Word) : State :=
  let s := s.onlyIf (R.SEN_CLR.cnt_clr.get w == 1) (·.senClear g)
  let s := s.onlyIf (R.SEN_CLR.sw_reg.get w == 1) (·.swTrigger g false)
  s.onlyIf (R.SEN_CLR.sw_inj.get w == 1) (·.swTrigger g true)

/-! ## Reads -/

/-- The LO words of the values wider than 32 bits that the device itself updates (R9). -/
def splitLo (a : Nat) : Bool :=
  match locate a with
  | (.dev, o) => o == 8
  | (.sec, o) => o == 0x4001
  | (.mc _, o) => [0x45, 0x47, 0x1807, 0x1809, 0xC0C, 0xC0E, 0xC10, 0xC12].contains o
  | (.st _, o) => o == 7 || o == 9
  | (.rg _, o) => [0x40C, 0x40E, 0x410, 0x412].contains o
  | (.kl, o) => [0xC, 0xE, 0x10, 0x12].contains o
  | _ => false
def splitHi (a : Nat) : Bool := decide (0 < a) && splitLo (a - 1)

/-- The accumulator whose LO word an address is. -/
def accOf (a : Nat) : Option (Grp × Fin 4) :=
  let acc (o : Nat) : Fin 4 := ⟨(o - 0xC) / 2 % 4, by omega⟩
  match locate a with
  | (.mc n, o) => if splitLo a ∧ 0xC00 ≤ o ∧ o < 0x1000 then some (mcG n, acc (o - 0xC00)) else none
  | (.rg r, o) => if splitLo a then some (rgG r, acc (o - 0x400)) else none
  | (.kl, o) => if splitLo a then some (8, acc o) else none
  | _ => none

def State.setHold (s : State) (p : Port) (h : Option (Nat × Word)) : State :=
  { s with ports := upd s.ports (portIdx p) { s.ports[portIdx p] with hold := h } }

/-- A read of a word through a port, with the effects of reading it. (DEDUCED, log 68) -/
def State.readWord (s : State) (p : Port) (a : Nat) : State × Word :=
  let v := s.view p a
  if !implemented a then ({ s with range := true }, 0)
  else if splitLo a then
    let s := s.setHold p (some (a + 1, s.view p (a + 1)))
    match accOf a with
    | some (g, x) => (s.onlyIf (s.fb (grpB g + x.val) R.SEN_ACC_CTL.acc_restart) (·.accRestart g x), v)
    | none => (s, v)
  else if splitHi a then
    match (s.ports[portIdx p]).hold with
    | some (k, w) => if k = a then (s, w) else ({ s with tear := true }, v)
    | none => ({ s with tear := true }, v)
  else if a = R.SEC_TRNG.reg then s.trngRead
  else
    match locate a with
    | (.canRam, o) => (s.ramTouch (portIdx p) o, v)
    | _ => (s, v)

/-! ## Refusals of a write (R8, R29, R30, R370, R412, R426) -/

/-- May ST fields of a block change? Its cluster is STOPPED, or, for fields that no cluster owns, the device is not in RUN. -/
def State.stOpen (s : State) (b : Blk) (o : Nat) : Bool :=
  match b with
  | .mc n | .mcSet n _ => (s.cl[mcCl n]).st == .stopped
  | .st k | .stSet k _ => (s.cl[stCl k]).st == .stopped
  | .rg r => if 0x100 ≤ o ∧ o < 0x200 then (s.cl[scCl r]).st == .stopped else s.dev.st != .run
  | _ => s.dev.st != .run

/-- Is the shadow that a SW word lies in locked? -/
def State.shadowLocked (s : State) (b : Blk) (a : Nat) : Bool :=
  match b with
  | .mcSet n _ => s.setLocked (mcCl n)
  | .stSet k _ => s.setLocked (stCl k)
  | _ => pkgSetAddr a && (match s.dev.swap with | some (m, _) => bitAt m 8 | none => false)

/-- Does a controller's mode, in force or written, keep its layout closed? (DEDUCED, log 62) -/
def State.canOpen (s : State) (n : Can) : Bool := s.cf n R.CAN_CTRL.mode == 0 && (s.can[n]).mode == 0

/-- The status that a write of a register's word is refused with. (DEDUCED, log 67) -/
def State.writeRefusal (s : State) (b : Blk) (o : Nat) (d : RDesc) (a key : Nat) (w : Word) : Option Status :=
  let changes := stChanges d b (s.storedConv b) o (s.word key) w
  let secCmd : Bool := a == R.SEC_CMD.reg
  let keyBuf : Bool := decide (R.SEC_KEYBUF.reg ≤ a) && decide (a < R.SEC_KEYBUF.reg + 16)
  let layout : Bool := match b with
    | .can n => [8, 9, 0xA, 0xB, 0xC, 0xD, 0xE, 0x1B].contains o && !s.canOpen n
    | _ => false
  if s.sec.life = 1 ∧ !s.authed ∧ (changes ∨ secCmd) then some .auth
  else if changes ∧ !s.stOpen b o then some .struct
  else if (d.fields.any fun f => f.cls.at b == .sw) ∧ s.shadowLocked b a then some .swapPend
  else if refusedWhole d w then some .struct
  else if layout then some .badState
  else if keyBuf ∧ s.sec.life ≠ 0 then some .badState
  else none

/-! ## Message RAM -/

/-- Is a word inside a region? -/
def inRegion (i base len : Nat) : Bool := decide (base ≤ i) && decide (i < base + len)

/-- Words of a controller that its mode closes to writes (R412). (DEDUCED, log 62) -/
def State.ramClosed (s : State) (n : Can) (i : Nat) : Bool :=
  let rt := s.cf n R.CAN_RT.base
  !s.canOpen n
    && (inRegion i (s.cf n R.CAN_FLT.base) (3 * s.cf n R.CAN_FLT.count)
      || (inRegion i rt (5 * s.cf n R.CAN_RT.count) && (i - rt) % 5 != 4)
      || inRegion i (s.cf n R.CAN_PACK.base) (s.cf n R.CAN_PACK.count)
      || (s.cf n R.CAN_TT.role != 0 && inRegion i (s.cf n R.CAN_TT2.base) 544))

/-- Is a word part of a pending transmit buffer (R426)? (DEDUCED, log 62) -/
def State.ramPending (s : State) (n : Can) (i : Nat) : Bool :=
  (s.pendings n).any fun b => inRegion i (s.txAt n b.val) (elemWords (s.cf n R.CAN_TXB.esize))

/-- (DEDUCED, log 64) -/
def State.ramWrite (s : State) (i : Nat) (w : Word) : State :=
  if allCan.any fun n => s.ramClosed n i || s.ramPending n i then s.answer .badState
  else
    -- the period of a transmit buffer counts from the write of its word (R426)
    let s := s.each allCan fun n s => s.each (List.finRange 32) fun b s =>
      if s.txAt n b.val + 1 = i then s.modTx n b fun t => { t with perAt := s.now } else s
    s.setWord (ramAddr i) w

/-! ## Command registers -/

/-- A device command (DEV_CMD). (DEDUCED, log 67) -/
def State.devCmd (s : State) (w : Word) : State :=
  match R.DEV_CMD.cmd.get w with
  | 1 => s.runCmd
  | 2 => s.haltCmd
  | 3 => s.resumeCmd
  | 4 => s.recoverCmd
  | _ => s.answer .badCmd

/-- A cluster command (MC_CMD, SC_CMD). (DEDUCED, log 67) -/
def State.clCmd (s : State) (c : Cl) (w : Word) : State :=
  let k := R.MC_CMD.cmd.get w
  if 1 ≤ k ∧ k ≤ 6 then s.clusterCmd c k else if k = 7 then s.copyShadow c else s.answer .badCmd

/-- The waypoints of a route of the image. -/
def State.imageRoute (s : State) (r : Nat) : Option (List Waypoint) := (s.boot.routes.find? fun x => x.1 == r).map (·.2)

/-- A motion command (MC_MO_CMD, ST_MO_CMD) with the arguments of a port's staging copy (R224, R382). -/
def State.moCmd (s : State) (p : Port) (a : Axis) (w : Word) : State :=
  let g := s.staged (portSpace p) a
  let arg := R.MO_CMD.arg.get w
  match R.MO_CMD.cmd.get w with
  | 1 => s.moMove a g
  | 2 => s.moStop a
  | 3 => s.moSetV a g
  | 4 => s.moSetA a g
  | 5 => s.moSpeed a g
  | 6 => s.moAppend a g
  | 7 => s.moRouteStart a (arg % 2 == 1)
  | 8 => s.moRouteLoad a (s.imageRoute arg)
  | 9 => s.moRouteClear a
  | 10 => s.moHome a
  | 11 => s.moSetPos a g
  | _ => s.moRefuse a .badCmd

/-- CANn_CTRL. -/
def State.canCtrl (s : State) (n : Can) (w : Word) : State :=
  let recover : Bool := R.CAN_CTRL.recover.get w == 1
  if recover ∧ s.cf n R.CAN_STAT.state ≠ 3 then s.answer .badState
  else
    let s := s.canModeCmd n (R.CAN_CTRL.mode.get w)
    if s.status ≠ .ok then s
    else
      let s := (s.cset n R.CAN_CTRL.fd_en (R.CAN_CTRL.fd_en.get w)).cset n R.CAN_CTRL.brs_en (R.CAN_CTRL.brs_en.get w)
      if recover then s.canRecoverCmd n else s

/-- The commands of TR_TRIG. -/
def State.traceCmd (s : State) (u : Fin 4) (w : Word) : State :=
  let s := s.onlyIf (R.TR_TRIG.stop.get w == 1) (·.traceStop u)
  let s := s.onlyIf (R.TR_TRIG.arm.get w == 1) (·.traceArm u)
  s.onlyIf (R.TR_TRIG.soft.get w == 1) (·.traceSoft u)

/-- A write of DEV_BOOT_CTRL: a refused load changes nothing of the word. -/
def State.bootCtrl (s : State) (w : Word) : State :=
  let hold : Bool := R.DEV_BOOT_CTRL.auto_hold.get w == 1
  if R.DEV_BOOT_CTRL.load.get w = 1 then
    let s := s.bootLoad
    if s.status = .ok then s.autoHold hold else s
  else s.autoHold hold

/-! ## Writes -/

/-- Registers of a sensing group with a meaning of their own; none for the others. -/
def State.senWrite (s : State) (g : Grp) (o : Nat) (w : Word) (plain : State) : Option State :=
  if o = 4 then some (s.senCmd g w)
  else if o = 7 then some (s.dmaRptr g (R.SEN_DMA_PTR.rptr.get w))
  else if h : 8 ≤ o ∧ o < 12 then
    some (plain.onlyIf (R.SEN_ACC_CTL.acc_clr.get w == 1) (·.accRestart g ⟨o - 8, by omega⟩))
  else none

/-- What a write of a register's word does, once it is not refused; `plain` is the state with the word stored.
(DEDUCED, log 67) -/
def State.writeEffect (s : State) (p : Port) (b : Blk) (o : Nat) (w : Word) (plain : State) : State :=
  let swapGo : Bool := R.MC_SWAP.go.get w == 1
  match b with
  | .dev =>
    if o = R.DEV_CMD.reg then s.devCmd w
    else if o = R.DEV_SWAP.reg then plain.onlyIf (R.DEV_SWAP.go.get w == 1) (·.devSwapReq [])
    else if o = R.DEV_BOOT_CTRL.reg then s.bootCtrl w
    else plain
  | .kl => (s.senWrite 8 o w plain).getD plain
  | .fc =>
    if 0x1010 ≤ o ∧ o < 0x1018 then s.stickyClear (o - 0x1010) w
    else if 0x1020 ≤ o ∧ o < 0x1028 then s.guyClear (o - 0x1020) w
    else plain
  | .stw => if o = R.LOG_CMD.reg then s.onlyIf (R.LOG_CMD.now.get w == 1) (·.logNow) else plain
  | .sec =>
    if o = R.SEC_CMD.reg then s.secCmd w
    else if R.SEC_KEYBUF.reg ≤ o then s.setWord o w
    else plain
  | .can n =>
    if o = 0 then s.canCtrl n w
    else if o = 0x10 ∨ o = 0x11 then plain.fifoGet n (if o = 0x10 then 0 else 1) (R.CAN_FS.get.get w)
    else if o = 0x15 then s.txReqCmd n w
    else if o = 0x16 then s.txCancelCmd n w
    else plain
  | .atl =>
    if o = R.ATL_CMD.reg then
      (if R.ATL_CMD.load.get w = 1 then s.sheetCheck (R.ATL_CMD.sheet.get w) else plain)
    else plain
  | .tr =>
    let u : Fin 4 := ⟨o / 16 % 4, by omega⟩
    let st := s.f (trB u) R.TR_STAT.state
    if o % 16 = 3 then plain.traceCmd u w else if st = 1 ∨ st = 2 then s else plain
  | .mc n =>
    if o = R.MC_CMD.reg then s.clCmd (mcCl n) w
    else if o = R.MC_SWAP.reg then plain.onlyIf swapGo (·.swapReq (mcCl n) [])
    else if o = R.MC_PWM_CLR.reg then
      (s.onlyIf (R.MC_PWM_CLR.lat_clr.get w == 1) (·.latClear n)).onlyIf (R.MC_PWM_CLR.cnt_clr.get w == 1) (·.pwmClear n)
    else if o = R.MC_GATE_SHORT.reg then plain.onlyIf (R.MC_GATE_SHORT.clr.get w == 1) (·.knownClear n)
    else if o = R.MC_CONV_CMD.reg then s.onlyIf (R.MC_CONV_CMD.e_clr.get w == 1) (·.meterClear n)
    else if o = 0x1800 then s.moCmd p (.mc n) w
    else if 0xC00 ≤ o ∧ o < 0x1000 then (s.senWrite (mcG n) (o - 0xC00) w plain).getD plain
    else plain
  | .st k => if o = 0 then s.moCmd p (.st k) w else plain
  | .rg r =>
    if o = 0x102 then s.clCmd (scCl r) w
    else if o = 0x103 then plain.onlyIf swapGo (·.swapReq (scCl r) [])
    else if o = R.RG_PS_CMD.reg then
      (s.onlyIf (R.RG_PS_CMD.ov3_clr.get w == 1) (·.ov3Clear r)).onlyIf (R.RG_PS_CMD.chop_clr.get w == 1) (·.chopClear r)
    else if o = R.RG_RBG_CFG.reg then plain.rbgHeld r
    else if 0x400 ≤ o then (s.senWrite (rgG r) (o - 0x400) w plain).getD plain
    else plain
  | _ => plain

/-- Command registers that are judged even where the other words of their cluster ignore writes (R457, R220). -/
def judged (b : Blk) (o : Nat) : Bool :=
  match b with
  | .mc _ => o == 2 || o == 3 || o == 0x1800
  | .st _ => o == 0
  | .rg _ => o == 0x102 || o == 0x103
  | _ => false

/-- The state with a register's word stored by the classes of its fields; a word that ignores writes keeps its own.
(DEDUCED, log 67) -/
def State.plainWrite (s : State) (b : Blk) (o : Nat) (d : RDesc) (a key : Nat) (w : Word) : State :=
  if s.blind a then s else s.setWord key (hostWord d b (s.storedConv b) o (s.word key) w)

/-- A write of a word through a port: its status is answered. -/
def State.writeWord (s : State) (p : Port) (a : Nat) (w : Word) : State :=
  let s := s.answer .ok
  if !implemented a then { s with range := true }
  else
    match locate a with
    | (.atlRam, o) => s.sheetWrite o w
    | (.trRam, _) | (.smpRam, _) => s
    | (.canRam, o) => s.ramWrite o w
    | (b, o) =>
      match regAt a with
      | none => s
      | some (d, _) =>
        let key := s.writeKey p a
        if s.blind a ∧ !judged b o then s
        else
          match s.writeRefusal b o d a key w with
          | some st => s.answer st
          | none => s.writeEffect p b o w (s.plainWrite b o d a key w)

/-! ## Runs of words (R394, R396) -/

/-- `n` words read from an address on, which never wraps. (DEDUCED, log 68) -/
def readRun (p : Port) : Nat → Nat → State → State × List Word
  | 0, _, s => (s, [])
  | n + 1, a, s =>
    if 0x1000000 ≤ a then ({ s with range := true }, [])
    else
      let (s, w) := s.readWord p a
      let (s, ws) := readRun p n (a + 1) s
      (s, w :: ws)

/-- Words written from an address on until one is refused; the number written. -/
def writeRun (p : Port) : Nat → List Word → State → State × Nat
  | _, [], s => (s.answer .ok, 0)
  | a, w :: ws, s =>
    if 0x1000000 ≤ a then ({ s.answer .ok with range := true }, 0)
    else
      let s := s.writeWord p a w
      if s.status = .ok then
        let (s, k) := writeRun p (a + 1) ws s
        (s, k + 1)
      else (s, 0)

/-! ## What a port executes (R381, R392) -/

/-- Registers that a RETIRED device still gives to the host port. (DEDUCED, log 58) -/
def retiredReads (a : Nat) : Bool := [1, 0, R.DEV_BOOT_STAT.reg, R.SEC_STAT.reg].contains a

/-- A write or command of the host port by a row of its own: it answers from BASECAMP on, one operation at a time.
(DESIGN CHOICE, logs 4, 5) -/
def State.hostDo (s : State) (act : State → State) : State :=
  if s.dev.st = .off then s
  else
    let s : State := { s with data := [], tear := false, range := false, authed := false }
    if s.hp.exec.isSome then (s.inc pk R.HP_CNT.busy_count).answer .busy
    else if s.sec.life = 2 then s.answer .locked
    else if s.dev.st = .basecamp ∨ s.dev.st = .verify then s.answer .badState
    else act s

/-- A read of the host port by a row of its own. -/
def State.hostRead (s : State) (a n : Nat) : State :=
  if s.dev.st = .off then s
  else
    let s : State := { s with data := [], tear := false, range := false, authed := false }
    if s.hp.exec.isSome then (s.inc pk R.HP_CNT.busy_count).answer .busy
    else if s.sec.life = 2 ∧ !(n = 1 ∧ retiredReads a) then s.answer .locked
    else
      let (s, ws) := readRun .host n a s
      { s.answer .ok with data := ws }

/-- RANGE advances its counter (R396). -/
def State.countRange (s : State) : State := if s.range ∧ s.dev.st ≠ .off then s.inc pk R.HP_CNT2.range_count else s

/-- A read or write of one word by a CAN controller's diagnostic access (R435), under the same rules.
(DEDUCED, log 66) -/
def State.diagRead (s : State) (n : Can) (a : Nat) : State :=
  let s : State := { s with data := [], tear := false, range := false, authed := false }
  if s.sec.life = 2 ∧ !retiredReads a then s.answer .locked
  else
    let (s, w) := s.readWord (.diag n) a
    { s.answer .ok with data := [w] }
def State.diagWrite (s : State) (n : Can) (a : Nat) (w : Word) : State :=
  let s : State := { s with data := [], tear := false, range := false, authed := false }
  if s.sec.life = 2 then s.answer .locked
  else if s.dev.st = .off ∨ s.dev.st = .basecamp ∨ s.dev.st = .verify then s.answer .badState
  else s.writeWord (.diag n) a w

/-- One word read or written through a port. -/
def State.portRead (s : State) (p : Port) (a : Nat) : State :=
  match p with
  | .host => (s.hostRead a 1).countRange
  | .diag n => s.diagRead n a
def State.portWrite (s : State) (p : Port) (a : Nat) (w : Word) : State :=
  match p with
  | .host => (s.hostDo fun s => s.writeWord .host a w).countRange
  | .diag n => s.diagWrite n a w

end Sys2Proof.Machine
end

