-- ==== Sys2Proof/Machine/SensPort.lean ====
section
/-! DEFINITION. The sensor ports (14_serial_ports_and_lyjan R384, R400 to R402; 05 R144): the word, its port errors, and the
transfer that a cluster's absolute source takes. -/

namespace Sys2Proof.Machine

def spB (p : Fin 2) : Nat := 8 * p.val
def State.modSp (s : State) (p : Fin 2) (g : SensPort → SensPort) : State := { s with sp := upd s.sp p (g s.sp[p]) }

/-- Does the CRC of a received word pass (R401)? -/
def State.spCrcOk (s : State) (p : Fin 2) (w : Nat) : Bool :=
  let b := spB p
  let n := s.f b R.SP_CRC.crc_len
  let len := s.f b R.SP_CFG.wlen
  n == 0
    || (let poly := s.f b R.SP_CRC.poly % 2 ^ n
        let c := crcBits n poly (bitsOf (len - n) (w / 2 ^ n)) (s.f b R.SP_CRC.init % 2 ^ n)
        Nat.xor c (s.f b R.SP_CRC.xorout % 2 ^ n) == w % 2 ^ n)

/-- Are the bits of a word all 0 or all 1? -/
def State.spStuck (s : State) (p : Fin 2) (w : Nat) : Bool :=
  s.fb (spB p) R.SP_CFG.stuck_chk && (w == 0 || w == 2 ^ s.f (spB p) R.SP_CFG.wlen - 1)

/-- A word of the right length: its checks with their counters; whether it is free of port errors.
(DEDUCED, log 59) -/
def State.spJudge (s : State) (p : Fin 2) (w : Nat) : State × Bool :=
  let crc := s.spCrcOk p w
  let stuck := s.spStuck p w
  let s := s.onlyIf (!crc) (·.inc (spB p) R.SP_CNT.crc_err)
  let s := s.onlyIf stuck (·.inc (spB p) R.SP_CNT.stuck_err)
  let ok := crc && !stuck
  (s.onlyIf ok (·.setF (spB p) R.SP_RXW.rxw w), ok)

/-- A word received, right-aligned, the bits above its length at 0. (DEDUCED, log 38) -/
def State.spWord (s : State) (p : Fin 2) (w : Word) : Nat := w.toNat % 2 ^ s.f (spB p) R.SP_CFG.wlen

/-- A select release of a slave port (R400): `bits` were shifted, the select was asserted `ago` ticks before.
(DEDUCED, log 59) -/
def State.slaveWord (s : State) (p : Fin 2) (bits ago : Nat) (w : Word) : State :=
  if s.portMode p ≠ 2 ∨ s.dev.st = .off then s
  else
    let start : Int := s.now16 - 16 * (ago : Int)
    if bits = s.f (spB p) R.SP_CFG.wlen then
      let w := s.spWord p w
      let (s, ok) := s.spJudge p w
      s.modSp p fun _ => { word := BitVec.ofNat 32 w, start := start, new := true, good := ok }
    else (s.inc (spB p) R.SP_CNT.len_err).modSp p fun x => { x with start := start, new := true, good := false }

/-- A transfer of a cluster's absolute source: a master port shifts the word `w` from `ago` ticks before on; a slave port
gives the word that has come since the previous one, or is stale. (DEDUCED, logs 38, 59) -/
def State.sensTransfer (s : State) (n : Mcn) (ago : Nat) (w : Word) : State :=
  if (s.cl[mcCl n]).st = .unused ∨ s.conv n then s
  else
    match sourcePort (s.source n) with
    | none => s
    | some p =>
      match s.portMode p with
      | 1 =>
        let w := s.spWord p w
        let (s, ok) := s.spJudge p w
        s.absUpdate n (s.now16 - 16 * (ago : Int)) w ok
      | 2 =>
        let x := s.sp[p]
        if x.new then (s.modSp p fun x => { x with new := false }).absUpdate n x.start x.word.toNat x.good
        else (s.inc (spB p) R.SP_CNT.stale).absUpdate n x.start x.word.toNat false
      | _ => s

end Sys2Proof.Machine
end

