-- ==== Sys2Proof/Machine/CanDiag.lean ====
section
/-! DEFINITION. The diagnostic access of a CAN controller (15_can_fd R435): a request frame is executed like a single READ or
WRITE, and its response waits for the bus. -/

namespace Sys2Proof.Machine

/-- Is a frame a diagnostic request of a controller? (DEDUCED, log 66) -/
def State.isDiag (s : State) (n : Can) (f : Frame) : Bool :=
  s.fb (canB n) R.CAN_DIAG_REQ.en && s.fb (canB n) R.CAN_DIAG_REQ.xtd == f.ext
    && (if f.ext then s.cf n R.CAN_DIAG_REQ.id else s.cf n R.CAN_DIAG_REQ.id % 2048) == f.id.toNat

/-- The response to a request: status code, tag with TEAR_RISK and RANGE, data most significant byte first. -/
def diagResponse (s : State) (tag : Nat) : List Nat :=
  let w := (s.data.headD 0).toNat
  [s.status.code, tag + 16 * b2n s.tear + 32 * b2n s.range, 0, 0] ++ beBytes 4 w

/-- A request of at least 8 bytes executed: its response is made, and what the port's own flags show is as before.
(DEDUCED, log 66) -/
def State.diagExec (s : State) (n : Can) (bs : List Nat) : State :=
  let a := beNat ((bs.drop 1).take 3)
  let t : State :=
    match nth bs 0 0 / 16 with
    | 1 => s.diagRead n a
    | 2 => s.diagWrite n a (BitVec.ofNat 32 (beNat ((bs.drop 4).take 4)))
    | _ => { s.answer .badPkt with data := [], tear := false, range := false }
  let t : State := if nth bs 0 0 / 16 = 1 ∧ t.status = .ok then t else { t with data := [] }
  let r := diagResponse t (nth bs 0 0 % 16)
  { (t.onlyIf ((t.can[n]).mode != 0) (·.setOwn n true (some { bytes := r, attempts := 0 }))) with
    status := s.status, data := s.data, tear := s.tear, range := s.range }

/-- What becomes of a frame received without error that is a diagnostic request; none for any other frame. A request is
ignored in LISTEN and LOOPBACK, and discarded while the previous response has not been sent or with fewer than 8 bytes.
(DEDUCED, log 66) -/
def diagHook (n : Can) (f : Frame) (s : State) : Option State :=
  if (s.can[n]).mode = 1 ∧ s.isDiag n f then
    if ((s.can[n]).diag).isSome ∨ f.data.length < 8 then some s
    else some (s.diagExec n (f.data.map fun b => b.toNat))
  else none

end Sys2Proof.Machine
end

