-- ==== Sys2Proof/Machine/HostPort.lean ====
section
/-! DEFINITION. The host port (14_serial_ports_and_lyjan R379 to R399, 13 R364, R370 to R372): chain words, packets and their
checks, bursts, bulk transfers, NVM pass-through, responses, and the memory port's turns (R403 to R406). -/

namespace Sys2Proof.Machine

def State.modHp (s : State) (g : HostPort → HostPort) : State := { s with hp := g s.hp }

/-- The flags and data of the latest access cleared. -/
def State.fresh0 (s : State) : State := { s with data := [], tear := false, range := false, authed := false }

/-! ## Flash targets (R364, R397, R398) -/

/-- Do two ranges of bytes meet? -/
def touches (a n b m : Nat) : Bool := decide (a < b + m) && decide (b < a + n)

/-- The status that an NVM operation on `n` bytes from a byte address on is refused with. (DEDUCED, log 58) -/
def State.nvmRefusal (s : State) (a n : Nat) (read : Bool) : Option Status :=
  if s.dev.st = .basecamp ∨ s.dev.st = .verify then some .badState
  else if s.sec.life = 1 ∧ !s.authed then some .auth
  else if read then none
  else if s.f pk R.DEV_IMG_SEQ.seq ≠ 0 ∧ touches a n (slotBase (if s.dev.slot then 1 else 0)) 0x800000 then some .slotBusy
  else if touches a n s.logBase 0x40000 then some .logArea
  else none

/-- An operation waits for the memory port. -/
def State.mpWait (s : State) (op : NvmOp) : State :=
  { s.answer .busy with mp := { s.mp with op := some op, opAt := s.now, busy := false } }

/-! ## Operations: each answers a status and data in the state, with its count and whether it waits -/

/-- A packet that nothing of the table describes. -/
def State.badPkt (s : State) : State := (s.inc pk R.HP_CNT2.bad_pkt).answer .badPkt

def State.opRead (s : State) (a n : Nat) : State × Nat × Bool :=
  let (s, ws) := readRun .host n a s
  ({ s.answer .ok with data := ws }, ws.length, false)

/-- The count of a run of writes is 0 where every word has been written. -/
def State.opWrite (s : State) (a : Nat) (ws : List Word) : State × Nat × Bool :=
  if s.dev.st = .basecamp ∨ s.dev.st = .verify then (s.answer .badState, 0, false)
  else
    let (s, k) := writeRun .host a ws s
    (s, if k = ws.length then 0 else k, false)

/-- Are target, address and count of a bulk transfer valid (R397)? -/
def bulkValid (write : Bool) (target a n : Nat) : Bool :=
  decide (1 ≤ n) && decide (n ≤ 256)
    && match target, write with
      | 0, _ => true
      | 1, _ => n == 256
      | 2, false => decide (a < 4)
      | 3, false => decide (a < 8)
      | 4, false => n == 256
      | 4, true => true
      | 5, false => true
      | 5, true => decide (n ≤ 64) && decide (4 * a % 256 + 4 * n ≤ 256)
      | _, _ => false

/-- The words of sample memory from a group's read pointer on, and the pointer moved (R397, R135). -/
def State.opDma (s : State) (g : Grp) (n : Nat) : State × Nat × Bool :=
  let len := Nat.max 1 (s.dmaLen g)
  let base := 0x580000 + s.gst g R.SEN_DMA_BUF.base
  let rp := s.f (grpB g) R.SEN_DMA_PTR.rptr
  let k := Nat.min n (s.dmaFill g)
  let ws := (List.range k).map fun i => s.word (base + (rp + i) % len)
  ({ (s.dmaRptr g ((rp + k) % len)).answer .ok with data := ws }, k, false)

def State.opBulkRead (s : State) (target a n : Nat) : State × Nat × Bool :=
  if !bulkValid false target a n then (s.badPkt, 0, false)
  else if target = 0 then s.opRead a n
  else if s.dev.st = .basecamp ∨ s.dev.st = .verify then (s.answer .badState, 0, false)
  else
    match target with
    | 1 => ({ s.answer .ok with data := (List.range 256).map fun i => s.word (sheetAddr (a % 4096) + i) }, 256, false)
    | 2 =>
      let u : Fin 4 := ⟨a % 4, by omega⟩
      if s.f (trB u) R.TR_STAT.state = 3 then
        let (s, ws) := s.traceTake u n
        ({ s.answer .ok with data := ws }, ws.length, false)
      else (s.answer .badState, 0, false)
    | 3 => s.opDma ⟨a % 8, by omega⟩ n
    | 4 => (s.mpWait (.read (s.logBase + 2048 * (a % 128) + 1024 * (a / 128 % 2)) 256 false), 0, true)
    | _ =>
      match s.nvmRefusal (4 * a) (4 * n) true with
      | some st => (s.answer st, 0, false)
      | none => (s.mpWait (.read (4 * a) n true), 0, true)

def State.opBulkWrite (s : State) (target a : Nat) (ws : List Word) : State × Nat × Bool :=
  if !bulkValid true target a ws.length then (s.badPkt, 0, false)
  else if target = 0 then s.opWrite a ws
  else if s.dev.st = .basecamp ∨ s.dev.st = .verify then (s.answer .badState, 0, false)
  else
    match target with
    | 1 => s.opWrite (sheetAddr (a % 4096)) ws
    | 4 => (s.answer .logArea, 0, false)
    | _ =>
      match s.nvmRefusal (4 * a) (4 * ws.length) false with
      | some st => (s.answer st, 0, false)
      | none => (s.mpWait (.program (4 * a) (ws.flatMap fun w => wordBytes w.toNat)), 0, true)

/-- NVM_ERASE_4K and NVM_ERASE_64K: `len` bytes at an aligned address. -/
def State.opErase (s : State) (a len : Nat) : State × Nat × Bool :=
  if 4 * a % len ≠ 0 then (s.badPkt, 0, false)
  else
    match s.nvmRefusal (4 * a) len false with
    | some st => (s.answer st, 0, false)
    | none => (s.mpWait (.erase (4 * a) len), 0, true)

/-- HOLD_CLR. -/
def State.opHoldClr (s : State) : State × Nat × Bool :=
  if s.dev.st = .basecamp ∨ s.dev.st = .verify then (s.answer .badState, 0, false)
  else ((s.setHold .host none).answer .ok, 0, false)

/-! ## Rows of the packets' operations -/

/-- An operation by a row of its own: it answers at once, or executes until the memory port has completed it. -/
def State.hostOp (s : State) (retired : Bool) (op : State → State × Nat × Bool) : State :=
  if s.dev.st = .off then s
  else
    let s := s.fresh0
    if s.hp.exec.isSome then (s.inc pk R.HP_CNT.busy_count).answer .busy
    else if s.sec.life = 2 ∧ !retired then s.answer .locked
    else
      let (s, _, wait) := op s
      if wait then
        let e : Exec :=
          { tag := 0, chain := false, auth := false, st := .busy, tear := false, range := false, count := 0, data := []
            wait := true }
        s.modHp fun h => { h with exec := some e }
      else s.countRange

/-- Does a read reach only registers that a RETIRED device gives? -/
def retiredRun (a n : Nat) : Bool := (List.range n).all fun i => retiredReads (a + i)

/-! ## Responses (R391) -/

/-- The words of a response: status, data, CRC. -/
def respWords (st : Status) (tear range auth : Bool) (tag count : Nat) (data : List Word) : List Word :=
  let w := st.code * 2 ^ 24 + b2n auth * 2 ^ 18 + b2n range * 2 ^ 17 + b2n tear * 2 ^ 16 + tag % 4 * 2 ^ 14 + count % 512
  let ws := w :: data.map fun x => x.toNat
  (ws ++ [crc32Words ws]).map fun x => BitVec.ofNat 32 x

/-- A response waits for the next packet frame. -/
def State.respond (s : State) (st : Status) (tear range auth : Bool) (tag count : Nat) (data : List Word) : State :=
  let s := (s.setF pk R.HP_STAT.last_status st.code).setF pk R.HP_STAT.last_tag tag
  s.modHp fun h => { h with resp := some (respWords st tear range auth tag count data) }

/-- A packet refused by a check of its frame (R393). -/
def State.refusePkt (s : State) (st : Status) (tag : Nat) : State := (s.answer st).respond st false false false tag 0 []

/-! ## Chain words (R383 to R388) -/

/-- CRC-4 of bits [31:4]. -/
def crc4 (w : Nat) : Nat := crcBits 4 3 (bitsOf 28 (w / 16)) 0xF

/-- The summary of a status word. -/
def State.summary (s : State) : Nat :=
  dstateCode s.dev.st + 8 * b2n s.irqN + 16 * b2n s.dev.lantern + 32 * (s.nSticky % 512)

/-- The status word that is loaded at the assertion of HP_CS_N. -/
def State.chainStatus (s : State) : Word :=
  let (code, data) : Nat × Option Nat := if s.hp.exec.isSome then (5, none) else s.hp.chainStat
  let w := code * 2 ^ 28 + s.f pk R.HP_CHAIN.rx_count * 2 ^ 20 + data.getD s.summary % 65536 * 16
  BitVec.ofNat 32 (w + Nat.xor (crc4 w) 0xF)

/-- SETPOINT (R388). -/
def State.chainSetpoint (s : State) (arg : Nat) : State :=
  let v := sgn 20 arg
  let mk (a : Axis) (tgt vel : Int) : Staged := { tgt := tgt, vel := vel, acc := s.aMax a, dwell := 0, stop := false }
  let note (c : Cl) (s : State) : State := if s.status = .ok then s.firstSp c 2 else s
  let k := arg / 2 ^ 20 % 16
  if h : k < 6 then
    let n : Mcn := ⟨k, h⟩
    let a : Axis := .mc n
    note (mcCl n)
      (if s.conv n then
        (if 131071 < arg % 2 ^ 20 then s.answer .badArg else s.convWrite n R.MC_CONV_VSET.vset (arg % 2 ^ 20))
      else if s.st n R.MC_MO_MODE.mode = 0 then s.moSpeed a (mk a 0 (v * 256))
      else s.moMove a (mk a (v * 1048576) (s.vMax a)))
  else if h : 8 ≤ k then
    let c : Chan := ⟨k - 8, by omega⟩
    let a : Axis := .st c
    note (stCl c) (s.moMove a (mk a (rdiv (v * turn) (s.stepsRev c)) (s.vMax a)))
  else s.answer .badArg

/-- The pointer moved to the next word. -/
def State.chainNext (s : State) : State := s.modHp fun h => { h with ptr := (h.ptr + 1) % 2 ^ 24 }

/-- A chain command (R387): its status is answered, with the half that a read returns. (DEDUCED, log 57) -/
def State.chainCmd (s : State) (cmd arg : Nat) : State × Option Nat :=
  let closed : Bool := s.dev.st == .basecamp || s.dev.st == .verify
  if s.sec.life = 2 ∧ !((cmd = 5 ∨ cmd = 6) ∧ retiredReads s.hp.ptr) then (s.answer .locked, none)
  else
    match cmd with
    | 0 => (s.answer .ok, none)
    | 1 => (if closed then s.answer .badState else s.chainSetpoint arg, none)
    | 2 => ((s.modHp fun h => { h with ptr := arg }).answer .ok, none)
    | 3 => (if 65536 ≤ arg then s.answer .badArg else (s.modHp fun h => { h with half := arg }).answer .ok, none)
    | 4 =>
      if closed then (s.answer .badState, none)
      else if 65536 ≤ arg then (s.answer .badArg, none)
      else
        let s := s.writeWord .host s.hp.ptr (BitVec.ofNat 32 (arg * 65536 + s.hp.half))
        (if s.status = .ok then s.chainNext else s, none)
    | 5 =>
      let (s, w) := s.readWord .host s.hp.ptr
      ({ (s.modHp fun h => { h with snap := w }).answer .ok with data := [w] }, some (w.toNat % 65536))
    | 6 => ({ s.chainNext.answer .ok with data := [s.hp.snap] }, some (s.hp.snap.toNat / 65536))
    | _ => (s.answer .badCmd, none)

/-- The chain status that a command leaves. (DEDUCED, log 57) -/
def chainOutcome (st : Status) (data : Option Nat) : Nat × Option Nat :=
  if st = .ok then (0, data) else (3, some st.code)

/-- A chain word that has passed its CRC. (DEDUCED, log 57) -/
def State.chainWord (s : State) (cmd arg : Nat) : State × Option Nat :=
  let s := s.setF pk R.HP_CHAIN.rx_count ((s.f pk R.HP_CHAIN.rx_count + 1) % 256)
  let (s, d) := s.chainCmd cmd arg
  (s.countRange, d)

/-- A chain command by a row of its own, executed at once. -/
def State.chainRow (s : State) (cmd : Nat) (arg : BitVec 24) : State :=
  if s.dev.st = .off then s
  else
    let s := s.fresh0
    if s.hp.exec.isSome then (s.inc pk R.HP_CNT.busy_count).answer .busy
    else
      let (s, d) := s.chainWord cmd arg.toNat
      s.modHp fun h => { h with chainStat := chainOutcome s.status d }

/-- A chain frame (R385): the words shifted into the device in order; the last of them is in its register at the release.
A frame too short to bring one leaves the device's own status word there. (DEDUCED, log 57) -/
def State.chainFrame (s : State) (edges : Nat) (ws : List Word) : State :=
  if s.dev.st = .off then s
  else
    let out := s.chainStatus
    let s := s.fresh0
    let shown (s : State) : State := { s with data := [out] }
    if s.hp.exec.isSome then shown ((s.inc pk R.HP_CNT.busy_count).answer .busy)
    else if edges % 32 ≠ 0 then
      shown ((((s.inc pk R.HP_CNT.frame_err).raise 49).answer .frameErr).modHp fun h => { h with chainStat := (2, none) })
    else
      let w := if edges = 0 then out.toNat else ((ws.take (edges / 32)).getLastD 0).toNat
      if crc4 w ≠ w % 16 then
        shown ((((s.inc pk R.HP_CNT2.chain_crc).raise 49).answer .crc).modHp fun h => { h with chainStat := (1, none) })
      else
        let (s, d) := s.chainWord (w / 2 ^ 28) (w / 16 % 2 ^ 24)
        let e : Exec :=
          { tag := 0, chain := true, auth := false, st := s.status, tear := s.tear, range := s.range
            count := d.getD 65536, data := [], wait := false }
        shown (s.modHp fun h => { h with exec := some e })

/-! ## Packets (R389 to R394) -/

/-- Payload words that a packet calls for. -/
def pktPayload (op count : Nat) : Nat := if [2, 4, 5, 7].contains op then count else 0

/-- Are opcode, reserved bits, count and sub valid (R390, R397, R398)? -/
def pktValid (op hdr len : Nat) : Bool :=
  let count := len % 512
  let sub := bitsAt len 16 8
  bitsAt hdr 26 2 == 0 && bitsAt len 9 7 == 0 && len / 2 ^ 24 == 0
    && match op with
      | 1 | 2 => count == 1 && sub == 0
      | 3 | 4 => decide (1 ≤ count) && decide (count ≤ 256) && sub == 0
      | 5 =>
        count == 0
          && (match sub with
            | 1 => 4 * (hdr % 2 ^ 24) % 4096 == 0
            | 2 => 4 * (hdr % 2 ^ 24) % 65536 == 0
            | 3 => true
            | _ => false)
      | 6 => bulkValid false sub (hdr % 2 ^ 24) count
      | 7 => bulkValid true sub (hdr % 2 ^ 24) count
      | _ => false

/-- Is a packet one of the reads that a RETIRED device executes (R381)? -/
def pktRetired (op hdr len : Nat) : Bool :=
  (op == 1 || op == 3 || (op == 6 && bitsAt len 16 8 == 0)) && retiredRun (hdr % 2 ^ 24) (len % 512)

/-- A packet executed. -/
def State.pktRun (s : State) (op hdr len : Nat) (payload : List Word) : State × Nat × Bool :=
  let a := hdr % 2 ^ 24
  let sub := bitsAt len 16 8
  match op with
  | 1 | 3 => s.opRead a (len % 512)
  | 2 | 4 => s.opWrite a payload
  | 5 => (match sub with | 1 => s.opErase a 4096 | 2 => s.opErase a 65536 | _ => s.opHoldClr)
  | 6 => s.opBulkRead sub a (len % 512)
  | _ => s.opBulkWrite sub a payload

/-- A packet that has passed the checks of its frame, up to its authentication and execution. (DEDUCED, log 58) -/
def State.pktExec (s : State) (ws : List Nat) (op : Nat) (auth : Bool) : State :=
  let hdr := nth ws 0 0
  let len := nth ws 1 0
  let tag := bitsAt hdr 24 2
  let n := pktPayload op (len % 512)
  let first := if auth then 3 else 2
  let payload := (ws.drop first).take n
  let (s, bad) : State × Option Status :=
    if auth then
      s.authCheck (nth ws 2 0) (hdr :: len :: payload) (nth ws (first + n) 0, nth ws (first + n + 1) 0)
    else (s, none)
  match bad with
  | some st => s.refusePkt st tag
  | none =>
    let s : State := { s with authed := auth }
    let (s, count, wait) := s.pktRun op hdr len (payload.map fun x => BitVec.ofNat 32 x)
    let s := if wait then s else s.countRange
    let e : Exec :=
      { tag := tag, chain := false, auth := auth, st := s.status, tear := s.tear, range := s.range, count := count
        data := s.data, wait := wait }
    ({ s with authed := false }).modHp fun h => { h with exec := some e }

/-- A packet frame with its whole words (R393, checks 2 to 9). (DEDUCED, log 58) -/
def State.pktFrame (s : State) (edges : Nat) (ws : List Nat) : State :=
  let hdr := nth ws 0 0
  let len := nth ws 1 0
  let tag := if edges < 32 then 0 else bitsAt hdr 24 2
  let op := hdr / 2 ^ 28 % 8
  let auth : Bool := decide (9 ≤ hdr / 2 ^ 28)
  let need := 3 + pktPayload op (len % 512) + (if auth then 3 else 0)
  if edges % 32 ≠ 0 then ((s.inc pk R.HP_CNT.frame_err).raise 49).refusePkt .frameErr tag
  else if hdr = 0 then s.answer .idle
  else if ws.length < 3 ∨ ws.length < need then ((s.inc pk R.HP_CNT.len_err).raise 49).refusePkt .lenErr tag
  else if nth ws (need - 1) 0 ≠ crc32Words (ws.take (need - 1)) then
    ((s.inc pk R.HP_CNT.crc_err).raise 49).refusePkt .crc tag
  else if !pktValid op hdr len then s.badPkt.refusePkt .badPkt tag
  else if s.sec.life = 2 ∧ !pktRetired op hdr len then s.refusePkt .locked tag
  else s.pktExec ws op auth

/-- A packet frame (R391 to R393): the response that waits is shifted out, then the frame is judged at its end. -/
def State.packetFrame (s : State) (edges : Nat) (w : List Word) : State :=
  if s.dev.st = .off ∨ edges = 0 then s
  else
    let n := edges / 32
    let ws := padTo n (w.map fun x => x.toNat)
    let s := s.fresh0
    match s.hp.exec with
    | some e =>
      let s := if edges % 32 = 0 ∧ nth ws 0 0 = 0 then s else s.inc pk R.HP_CNT.busy_count
      { s.answer .busy with data := (respWords .busy false false false e.tag 0 []).take n }
    | none =>
      let resp := s.hp.resp.getD []
      let s := s.onlyIf (decide (n < resp.length)) (·.inc pk R.HP_CNT2.resp_trunc)
      { (s.modHp fun h => { h with resp := none }).pktFrame edges ws with data := resp.take n }

/-- The executing operation completes (R392): a chain word leaves its status, a packet its response.
(DEDUCED, log 58) -/
def State.packetComplete (s : State) : State :=
  match s.hp.exec with
  | some e =>
    if e.wait then s
    else
      let s := (s.modHp fun h => { h with exec := none }).answer e.st
      if e.chain then
        s.modHp fun h => { h with chainStat := chainOutcome e.st (if e.count < 65536 then some e.count else none) }
      else { s.respond e.st e.tear e.range e.auth e.tag e.count e.data with data := e.data }
  | none => s

/-! ## The memory port (R403 to R406) -/

/-- The operation that waits for the memory port ends with a status. -/
def State.mpEnd (s : State) (st : Status) (data : List Word) (nvm : Bool) : State :=
  let s : State := { s with mp := { s.mp with op := none, busy := false, user := if s.mp.user = 4 then 0 else s.mp.user } }
  let s := s.modHp fun h => { h with exec := h.exec.map fun e =>
    if e.wait then { e with st := st, data := data, count := data.length, wait := false } else e }
  if !nvm then s else if st = .ok then s.inc pk R.MP_CNT.nvm_ops else s.inc pk R.MP_CNT.nvm_fail

/-- The free memory port takes the next user: an image load, a logbook write, the host port's operation.
(DEDUCED, log 58) -/
def State.mpGrant (s : State) : State :=
  if s.mp.user ≠ 0 ∨ s.dev.st = .off then s
  else if s.boot.phase = .headers then s.memUser 1
  else if s.log.pend.isSome ∧ s.log.busy.isNone ∧ s.nextSlot.isSome ∧ s.logMay ∧ !s.logStopped then s.memUser 3
  else
    match s.mp.op with
    | none => s
    | some (.read a n nvm) =>
      s.mpEnd .ok ((flashWords s.flash a n).map fun w => BitVec.ofNat 32 w) nvm
    | some _ => ({ s with mp := { s.mp with busy := true } }).memUser 4

/-- Read status: a program or erase that was accepted has ended when the flash is not busy (R406).
(DESIGN CHOICE, log 51) -/
def State.mpPoll (s : State) (busy failed : Bool) : State :=
  match s.mp.op with
  | some op =>
    if !s.mp.busy ∨ s.mp.user ≠ 4 then s
    else if failed then s.mpEnd .nvmFail [] true
    else if busy then s
    else
      match op with
      | .program a bs => (s.flashProgram a bs).mpEnd .ok [] true
      | .erase a n => (s.flashErase a n).mpEnd .ok [] true
      | .read _ _ _ => s
  | none => s

/-- Three seconds have passed: what the flash holds where it was at work is a free value.
(DESIGN CHOICE, log 51; DEDUCED, log 58) -/
def State.mpTimeout (s : State) : State :=
  match s.mp.op with
  | some op =>
    if s.now < s.mp.opAt + 1500000000 then s
    else
      match op, s.mp.busy with
      | .program a bs, true => (s.flashFree a bs.length).mpEnd .nvmFail [] true
      | .erase a n, true => (s.flashFree a n).mpEnd .nvmFail [] true
      | .read _ _ nvm, _ => s.mpEnd .nvmFail [] nvm
      | _, _ => s.mpEnd .nvmFail [] true
  | none => s

end Sys2Proof.Machine
end

