-- ==== Sys2Proof/Machine/Finish.lean ====
section
/-! DEFINITION. The frame that every command shares: the time that has passed, what ends with it by itself, the reactions to
what the command raised, and the canonical form of the store and of the flash. -/

namespace Sys2Proof.Machine

/-- The edges of every motor cluster's legs that have come (R84, R97). (DESIGN CHOICE, log 30) -/
def State.legEdges (s : State) : State := s.each allMc fun n s => s.runEdges n

/-- The state after `dt` ticks of 2 ns, with the edges of the legs (R84, R97) that have come and the test pulses (R58) and fast
decays (R239) that have ended in them. (DESIGN CHOICE, logs 2, 71) -/
def State.elapse (s : State) (dt : Nat) : State := (s.tick dt).legEdges.pulseEnds.decayEnds

/-- The store in its canonical form: each entry put in its place, an entry at its reset value left out. -/
def canonWords (m : List (Nat × Word)) : List (Nat × Word) :=
  m.foldr (fun e acc => if e.2 = regReset e.1 then eraseKey acc e.1 else insertKey acc e.1 e.2) []

/-- The flash in its canonical form. -/
def canonCells (m : List Host.Cell) : List Host.Cell := m.foldr (fun e acc => putByte acc e.1 e.2) []

/-- The end of a command that found the machine in `s` and whose effect, `dt` ticks later, is `t`: the reactions follow
(R315 to R321). What no reaction touches is as the effect left it: the status and the data answered, the flash, the serial
ports, the memory port, the security module, the CAN controllers, the image loader, the store of sheets. The commands that
wait are left alone. (DEDUCED, log 14) -/
def State.done (s : State) (dt : Nat) (t : State) : State :=
  let r := t.settle
  { r with
    store := canonWords r.store, flash := canonCells t.flash, pending := s.pending, now := s.now + dt
    status := t.status, tear := t.tear, range := t.range, data := t.data, authed := false
    hp := t.hp, ports := t.ports, mp := t.mp, sp := t.sp, sec := t.sec, boot := t.boot, can := t.can
    atlChk := t.atlChk, rowFlags := t.rowFlags, rowMap := t.rowMap, rowDead := t.rowDead, imgSheets := t.imgSheets }

/-- A command `dt` ticks after the previous one: its effect on the state at that time. -/
def State.after (s : State) (dt : Nat) (effect : State → State) : Host.Outcome State Fault Refusal :=
  .next (s.done dt (effect (s.elapse dt)))

/-! ## Where a command or event acts -/

/-- A write of a command bit by the host: it is discarded where the register's cluster is UNUSED (R457).
(DESIGN CHOICE, log 5) -/
def State.hostCmd (s : State) (a : Nat) (act : State → State) : State :=
  s.hostDo fun s => let s := s.answer .ok; if s.blind a then s else act s

/-- A command of the host that is judged in every state. (DESIGN CHOICE, log 5) -/
def State.hostAct (s : State) (act : State → State) : State := s.hostDo fun s => act (s.answer .ok)

/-- An event of Kilid's own: none occurs in OFF (R25). (DESIGN CHOICE, log 12) -/
def State.onKilid (s : State) (act : State → State) : State := if s.dev.st = .off then s else act s

/-- An event of a cluster in use (R20): in UNUSED its sensing, datum and lanes are off. (DESIGN CHOICE, log 12) -/
def State.onCl (s : State) (c : Cl) (act : State → State) : State :=
  if (s.cl[c]).st = .unused then s else act s

def State.onMc (s : State) (n : Mcn) (act : State → State) : State := s.onCl (mcCl n) act
def State.onSt (s : State) (k : Chan) (act : State → State) : State := s.onCl (stCl k) act

/-- An event of a sensing group: of its motor cluster, if it has one, and none while its die is without power (R113).
(DESIGN CHOICE, log 12) -/
def State.onGrp (s : State) (g : Grp) (act : State → State) : State :=
  if s.grpPowered g then
    match grpMc g with
    | some n => s.onMc n act
    | none => s.onKilid act
  else s

end Sys2Proof.Machine
end

