-- ==== Sys2Proof/Machine/CmdAtlas.lean ====
section
/-! DEFINITION. Meanings: sheets and the pager (07_atlas_paging). -/

namespace Sys2Proof.Machine

/-- SHEET_WINDOW_WRITE (R203): A write to the atlas window is refused for a sheet in use, or makes the sheet FREE. -/
def execSheetWindowWrite (dt : Nat) (off : Fin 0x100000) (w : Word) (s : State) : Host.Outcome State Fault Refusal :=
  s.after dt (·.portWrite .host (0x400000 + off.val) w)

/-- SHEET_CHECK (R204): A write of ATL_CMD.load starts a sheet check or refuses it as BUSY. -/
def execSheetCheck (dt : Nat) (sheet : BitVec 12) (s : State) : Host.Outcome State Fault Refusal :=
  s.after dt (·.hostAct (·.sheetCheck sheet.toNat))

/-- SHEET_CHECK_DONE (R204): A sheet check ends and the sheet becomes LOADED, FREE or BAD. -/
def execSheetCheckDone (dt : Nat) (ecc : Ecc) (s : State) : Host.Outcome State Fault Refusal :=
  s.after dt (·.onKilid (·.sheetCheckDone ecc))

/-- ATLAS_FILL_COMPLETE (R214): A pager fill completes and its banks are held for their boundaries. -/
def execAtlasFillComplete (dt : Nat) (n : Mcn) (ecc : Ecc) (s : State) : Host.Outcome State Fault Refusal :=
  s.after dt (·.onMc n (·.fillComplete n ecc))

/-- SHEET_MISS (R215): A fill not complete at its due boundary counts a miss and turns critical. -/
def execSheetMiss (dt : Nat) (n : Mcn) (s : State) : Host.Outcome State Fault Refusal :=
  s.after dt (·.onMc n (·.sheetMiss n))

/-- BANK_SWAP (R184): A held coefficient bank becomes active at its group's boundary. -/
def execBankSwap (dt : Nat) (n : Mcn) (g : Fin 4) (s : State) : Host.Outcome State Fault Refusal :=
  s.after dt (·.onMc n (·.bankSwap n g))

/-- ROW_GROUP_SUBSTITUTION (R217): The steward copies a flagged row group to a spare and checks its sheets. -/
def execRowGroupSubstitution (dt : Nat) (pos : Fin 512) (ecc : Ecc) (s : State) : Host.Outcome State Fault Refusal :=
  s.after dt (·.onKilid (·.rowSub pos.val ecc))

end Sys2Proof.Machine
end

