-- ==== Sys2Proof/Machine/CmdBoot.lean ====
section
/-! DEFINITION. Meanings: image load, autostart and the security module (13_image_boot_and_security). -/

namespace Sys2Proof.Machine

/-- PARAMETER_TABLE_READ (R345): Basecamp reads the JESD216 parameter tables of the flash. -/
def execParameterTableRead (dt : Nat) (valid : Bool) (s : State) : Host.Outcome State Fault Refusal :=
  s.after dt (·.paramsRead valid)

/-- FLASH_NO_ANSWER (R345): No valid parameter-table signature within 1 ms sends the device to RECOVERY. -/
def execFlashNoAnswer (dt : Nat) (s : State) : Host.Outcome State Fault Refusal :=
  s.after dt (·.flashSilent)

/-- OCTAL_SWITCH (R346): The switch to octal DDR is confirmed, or the load falls back to single lane. -/
def execOctalSwitch (dt : Nat) (ok : Bool) (s : State) : Host.Outcome State Fault Refusal :=
  s.after dt (·.octalSwitch ok)

/-- HEADER_CHECK (R347): Both slot headers are read and checked, and the first candidate enters VERIFY. -/
def execHeaderCheck (dt : Nat) (s : State) : Host.Outcome State Fault Refusal :=
  s.after dt (·.headerCheck)

/-- IMAGE_STREAM_COMPLETE (R356): The candidate image has streamed with its records applied, or a fault has stopped
the stream. -/
def execImageStreamComplete (dt : Nat) (s : State) : Host.Outcome State Fault Refusal :=
  s.after dt (·.imageStream)

/-- IMAGE_POST_CHECKS (R356): The signature, KEYREF, CHAIN, START, CAN layout and agreement checks complete for the
image. -/
def execImagePostChecks (dt : Nat) (s : State) : Host.Outcome State Fault Refusal :=
  s.after dt (·.imagePost)

/-- LOGBOOK_RESTORE (R341): The logbook scan completes and the newest valid record is restored. -/
def execLogbookRestore (dt : Nat) (s : State) : Host.Outcome State Fault Refusal :=
  s.after dt (·.bootRestore)

/-- MONITOR_SAMPLING_END (R358): 8 ms of monitor sampling end and the device enters READY. -/
def execMonitorSamplingEnd (dt : Nat) (s : State) : Host.Outcome State Fault Refusal :=
  s.after dt (·.ready_)

/-- BOOT_LOAD (R363): A write of DEV_BOOT_CTRL.load in RECOVERY starts an image load. -/
def execBootLoad (dt : Nat) (s : State) : Host.Outcome State Fault Refusal :=
  s.after dt (·.hostAct (·.bootLoad))

/-- AUTO_HOLD (R360): A write of DEV_BOOT_CTRL.auto_hold suspends or releases every autostart action. -/
def execAutoHold (dt : Nat) (hold : Bool) (s : State) : Host.Outcome State Fault Refusal :=
  s.after dt (·.hostAct (·.autoHold hold))

/-- AUTOSTART_ARM (R360): Start_delay after entry to RUN an autostart rule issues its ARM. -/
def execAutostartArm (dt : Nat) (c : Cl) (s : State) : Host.Outcome State Fault Refusal :=
  s.after dt (·.onCl c (·.autoFirst c))

/-- AUTOSTART_ARM_RETRY (R360): A refused autostart ARM is issued again after 100 ms. -/
def execAutostartArmRetry (dt : Nat) (c : Cl) (s : State) : Host.Outcome State Fault Refusal :=
  s.after dt (·.onCl c (·.autoFirst c))

/-- AUTOSTART_RESTART (R360): 100 ms after a fault stop the restart rule re-arms the cluster. -/
def execAutostartRestart (dt : Nat) (c : Cl) (s : State) : Host.Outcome State Fault Refusal :=
  s.after dt (·.onCl c (·.autoAgain c))

/-- PROGRAM (R368): Security command PROGRAM writes SEC_KEYBUF into an empty OTP key slot. -/
def execProgram (dt : Nat) (arg : Word) (otpOk : Bool) (s : State) : Host.Outcome State Fault Refusal :=
  s.after dt (·.hostAct (·.secProgram arg otpOk))

/-- SEAL (R368): Security command SEAL advances the lifecycle from OPEN to SEALED. -/
def execSeal (dt : Nat) (_arg : Word) (otpOk : Bool) (s : State) : Host.Outcome State Fault Refusal :=
  s.after dt (·.hostAct (·.secSeal otpOk))

/-- RETIRE (R368): Security command RETIRE overwrites every key slot and enters RETIRED. -/
def execRetire (dt : Nat) (_arg : Word) (otpOk : Bool) (s : State) : Host.Outcome State Fault Refusal :=
  s.after dt (·.hostAct (·.secRetire otpOk))

/-- REVOKE (R368): Security command REVOKE revokes a key slot. -/
def execRevoke (dt : Nat) (arg : Word) (otpOk : Bool) (s : State) : Host.Outcome State Fault Refusal :=
  s.after dt (·.hostAct (·.secRevoke arg otpOk))

/-- ADVANCE (R368): Security command ADVANCE raises the rollback counter to the running image's level. -/
def execAdvance (dt : Nat) (_arg : Word) (otpOk : Bool) (s : State) : Host.Outcome State Fault Refusal :=
  s.after dt (·.hostAct (·.secAdvance otpOk))

/-- SEC_BAD_CMD (R368): A write of an undefined SEC_CMD code is refused with BAD_CMD. -/
def execSecBadCmd (dt : Nat) (s : State) : Host.Outcome State Fault Refusal :=
  s.after dt (·.hostAct (·.answer .badCmd))

/-- TRNG_READ (R366): A read of SEC_TRNG returns and consumes random bits. -/
def execTrngRead (dt : Nat) (p : Port) (s : State) : Host.Outcome State Fault Refusal :=
  s.after dt (·.portRead p R.SEC_TRNG.reg)

/-- TRNG_HEALTH_FAIL (R366): A failed TRNG health test sets trng_fail until reset. -/
def execTrngHealthFail (dt : Nat) (s : State) : Host.Outcome State Fault Refusal :=
  s.after dt (·.onKilid (·.trngFails))

/-- AUTH_LOCKOUT_END (R372): An authentication lockout time expires. -/
def execAuthLockoutEnd (dt : Nat) (s : State) : Host.Outcome State Fault Refusal :=
  s.after dt (·.onKilid (·.lockoutEnd))

/-- CAN_ANNOUNCEMENT (R373): The bus session value is announced at READY and every ann_period. -/
def execCanAnnouncement (dt : Nat) (s : State) : Host.Outcome State Fault Refusal :=
  s.after dt (·.onKilid (·.announce))

end Sys2Proof.Machine
end

