-- ==== Sys2Proof/WellFormed.lean ====
section
/-! DEFINITION. Well-formed commands and events: operands that the physical interface can carry. -/

namespace Sys2Proof

/-- Data lengths of FD frames above 8 bytes, by DLC 9 to 15 (R413). -/
def fdLengths : List Nat := [12, 16, 20, 24, 32, 48, 64]

/-- A frame that a CAN bus can carry (R407): an 11-bit identifier fits 11 bits; a Classical frame has at most 8 data bytes and
no FD flags; an FD frame has a data length that a DLC names, and is no remote frame; a remote frame carries no data.
(DESIGN CHOICE, log 16) -/
def Frame.ok (f : Frame) : Bool :=
  (f.ext || decide (f.id.toNat < 2048))
    && (if f.fd then !f.rtr && (decide (f.data.length ≤ 8) || fdLengths.contains f.data.length)
      else !f.brs && !f.esi && decide (f.data.length ≤ 8) && (!f.rtr || f.data.isEmpty))

/-- A command whose operands its interface can carry: a frame of the CAN bus, as many whole words as the clock edges of a
serial frame shift, a get index of 6 bits. Every other command is well-formed with any operands. -/
def Instr.wf : Instr → Bool
  | .canFrameReceived _ _ _ f => f.ok
  | .chainFrame _ edges w => w.length == edges / 32
  | .packetFrame _ edges w => w.length == edges / 32
  | .fifoGetWrite _ _ _ v => decide (v < 64)
  | _ => true

end Sys2Proof
end

