-- ==== Sys2Proof/Machine/CmdCan.lean ====
section
/-! DEFINITION. Meanings: the CAN controllers (15_can_fd). -/

namespace Sys2Proof.Machine

/-- CAN_FRAME_RECEIVED (R415): A received frame is filtered and stored, routed or taken as a diagnostic request.
(DESIGN CHOICE, log 16) -/
def execCanFrameReceived (dt : Nat) (n : Can) (ago : Nat) (f : Frame) (s : State) :
    Host.Outcome State Fault Refusal :=
  if !f.ok then .fault .illFormed else
  s.after dt (·.canFrame diagHook n ago f)

/-- ROUTE_TIMEOUT (R425): A receive route with no frame for its timeout applies its timeout action. -/
def execRouteTimeout (dt : Nat) (n : Can) (k : Fin 32) (s : State) : Host.Outcome State Fault Refusal :=
  s.after dt (·.routeTimeout n k)

/-- CAN_ELEMENT_READ (R417): A read of word 0 or the last word of a receive element places or releases the port's
lock. -/
def execCanElementRead (dt : Nat) (p : Port) (off : Fin 0x4000) (s : State) : Host.Outcome State Fault Refusal :=
  s.after dt (·.portRead p (0x600000 + off.val))

/-- FIFO_GET_WRITE (R419): A write of a FIFO's get index acknowledges elements. -/
def execFifoGetWrite (dt : Nat) (n : Can) (f : Fin 2) (v : Nat) (s : State) : Host.Outcome State Fault Refusal :=
  s.after dt (·.hostAct (·.fifoGet n f (v % 64)))

/-- TX_REQ (R426): A write of CANn_TX_REQ requests transmit buffers and builds routed data fields. -/
def execTxReq (dt : Nat) (n : Can) (mask : Word) (s : State) : Host.Outcome State Fault Refusal :=
  s.after dt (·.hostAct (·.txReqCmd n mask))

/-- TX_CANCEL (R427): A write of CANn_TX_CANCEL ends pending buffers with ABORT. -/
def execTxCancel (dt : Nat) (n : Can) (mask : Word) (s : State) : Host.Outcome State Fault Refusal :=
  s.after dt (·.hostAct (·.txCancelCmd n mask))

/-- TX_PERIOD_EXPIRY (R426): A transmit buffer's period expires and it is requested. -/
def execTxPeriodExpiry (dt : Nat) (n : Can) (b : Fin 32) (s : State) : Host.Outcome State Fault Refusal :=
  s.after dt (·.txPeriod n b)

/-- TX_ATTEMPT_END (R427): A transmission attempt ends in success or error, with its retry, clash and no-ack counts.
-/
def execTxAttemptEnd (dt : Nat) (n : Can) (b : TxWho) (r : TxEnd) (s : State) : Host.Outcome State Fault Refusal :=
  s.after dt (·.txEnd n b r)

/-- CAN_RECOVER (R434): A write of CANn_CTRL.recover starts bus-off recovery. -/
def execCanRecover (dt : Nat) (n : Can) (s : State) : Host.Outcome State Fault Refusal :=
  s.after dt (·.hostAct (·.canRecoverCmd n))

/-- BUS_OFF_RECOVERY_DONE (R434): 128 occurrences of 11 recessive bits end the recovery and the controller becomes
error active. -/
def execBusOffRecoveryDone (dt : Nat) (n : Can) (s : State) : Host.Outcome State Fault Refusal :=
  s.after dt (·.canRecovered n)

/-- CAN_MODE_WRITE (R412): A write of CANn_CTRL.mode is checked for layout when leaving OFF. -/
def execCanModeWrite (dt : Nat) (n : Can) (mode : BitVec 2) (s : State) : Host.Outcome State Fault Refusal :=
  s.after dt (·.hostAct (·.canModeCmd n mode.toNat))

/-- CAN_MODE_CHANGE (R408): A new controller mode takes effect at the end of the frame in progress. -/
def execCanModeChange (dt : Nat) (n : Can) (s : State) : Host.Outcome State Fault Refusal :=
  s.after dt (·.canModeDue n)

/-- SCHEDULE_MARK (R430): A schedule cell's mark requests its buffer for a single attempt. -/
def execScheduleMark (dt : Nat) (n : Can) (col : Fin 32) (s : State) : Host.Outcome State Fault Refusal :=
  s.after dt (·.schedMark n col.val)

/-- SCHED_MISS (R430): No idle bus within tx_win ends the cell's buffer with SCHED_MISS. -/
def execSchedMiss (dt : Nat) (n : Can) (s : State) : Host.Outcome State Fault Refusal :=
  s.after dt (·.schedMissed n)

/-- REFERENCE_MESSAGE (R428): A basic cycle starts, with the reference message sent by a master or received by a
follower. -/
def execReferenceMessage (dt : Nat) (n : Can) (cycle : Option (BitVec 8)) (s : State) :
    Host.Outcome State Fault Refusal :=
  s.after dt (·.refMessage n cycle)

/-- REFERENCE_LOST (R431): No reference message within 1.5 cycles stops a follower's schedule. -/
def execReferenceLost (dt : Nat) (n : Can) (s : State) : Host.Outcome State Fault Refusal :=
  s.after dt (·.refLost n)

/-- CAN_BUS_INTEGRATION (R410): After a mode change or a bit-timing swap, a controller sees 11 recessive bits and
joins the bus again. -/
def execCanBusIntegration (dt : Nat) (n : Can) (s : State) : Host.Outcome State Fault Refusal :=
  s.after dt (·.canJoins n)

/-- CAN_BUS_ERROR (R407): A stuff, form, CRC or other error is detected on a frame the controller receives, which
moves REC, lec and dlec and the error state. -/
def execCanBusError (dt : Nat) (n : Can) (e : BusErr) (dataPhase : Bool) (flagDom : Bool) (s : State) :
    Host.Outcome State Fault Refusal :=
  s.after dt (·.canRxError n e dataPhase flagDom)

end Sys2Proof.Machine
end

