-- ==== Sys2Proof/Machine/CmdCluster.lean ====
section
/-! DEFINITION. Meanings: the cluster commands and swaps (01_architecture R20 to R36). -/

namespace Sys2Proof.Machine

/-- ARM (R23): Cluster command ARM is checked in order and moves a STOPPED cluster to ARMED, with precharge and offset
measurement. -/
def execArm (dt : Nat) (c : Cl) (s : State) : Host.Outcome State Fault Refusal :=
  s.after dt (·.hostAct (·.clusterCmd c 1))

/-- DISARM (R20): Cluster command DISARM returns an ARMED cluster to STOPPED. -/
def execDisarm (dt : Nat) (c : Cl) (s : State) : Host.Outcome State Fault Refusal :=
  s.after dt (·.hostAct (·.clusterCmd c 2))

/-- START (R20): Cluster command START moves an ARMED cluster to STARTING; it is refused in STOPPING or under a cold
block. -/
def execStart (dt : Nat) (c : Cl) (s : State) : Host.Outcome State Fault Refusal :=
  s.after dt (·.hostAct (·.clusterCmd c 3))

/-- STOP (R20): Cluster command STOP moves a STARTING or RUNNING cluster to STOPPING and begins the stop ramps. -/
def execStop (dt : Nat) (c : Cl) (s : State) : Host.Outcome State Fault Refusal :=
  s.after dt (·.hostAct (·.clusterCmd c 4))

/-- SAFE (R20): Cluster command SAFE moves an active cluster to SAFE and applies its safe state. -/
def execSafe (dt : Nat) (c : Cl) (s : State) : Host.Outcome State Fault Refusal :=
  s.after dt (·.hostAct (·.clusterCmd c 5))

/-- CLEAR (R22): Cluster command CLEAR returns a FAULTED cluster to STOPPED when no source of severity SAFE or above
is asserted. -/
def execClear (dt : Nat) (c : Cl) (s : State) : Host.Outcome State Fault Refusal :=
  s.after dt (·.hostAct (·.clusterCmd c 6))

/-- COPY_SHADOW (R30): Command that starts copying the active set into the shadow; it is refused while a swap is
pending. -/
def execCopyShadow (dt : Nat) (c : Cl) (s : State) : Host.Outcome State Fault Refusal :=
  s.after dt (·.hostAct (·.copyShadow c))

/-- COPY_SHADOW_DONE (R30): The shadow copy completes within 50 us and SW writes are accepted again. -/
def execCopyShadowDone (dt : Nat) (c : Cl) (s : State) : Host.Outcome State Fault Refusal :=
  s.after dt (·.onCl c (·.copyDone c))

/-- CLUSTER_BAD_CMD (R20): A write of an undefined cluster command code is refused with BAD_CMD. -/
def execClusterBadCmd (dt : Nat) (_c : Cl) (s : State) : Host.Outcome State Fault Refusal :=
  s.after dt (·.hostAct (·.answer .badCmd))

/-- ARM_TIMEOUT_EXPIRY (R20): Arm_timeout expires in ARMED and the cluster is disarmed to STOPPED. -/
def execArmTimeoutExpiry (dt : Nat) (c : Cl) (s : State) : Host.Outcome State Fault Refusal :=
  s.after dt (·.armTimeout c)

/-- REST_CONDITION_MET (R21): The rest condition holds for its time, and STOPPING goes to STOPPED or SAFE goes to
FAULTED. -/
def execRestConditionMet (dt : Nat) (c : Cl) (s : State) : Host.Outcome State Fault Refusal :=
  s.after dt (·.restMet c)

/-- CLUSTER_SWAP_REQUEST (R28): A write of MC_SWAP.go runs the agreement checks and locks the shadow, or rejects the
swap with a reason. -/
def execClusterSwapRequest (dt : Nat) (c : Cl) (ecc : Ecc) (s : State) : Host.Outcome State Fault Refusal :=
  s.after dt (·.hostAct (·.swapReq c ecc))

/-- CLUSTER_SWAP_TAKES_EFFECT (R28): A pending cluster swap exchanges the active and shadow sets and the banks at the
next sample boundary. -/
def execClusterSwapTakesEffect (dt : Nat) (c : Cl) (s : State) : Host.Outcome State Fault Refusal :=
  s.after dt (·.onCl c (·.swapNow c))

end Sys2Proof.Machine
end

