-- ==== Sys2Proof/Machine/CmdDevice.lean ====
section
/-! DEFINITION. Meanings: the device commands, the device-wide swap, buses, links, supplies and reset (01_architecture, 13 R362, 17). -/

namespace Sys2Proof.Machine

/-- RUN (R25): Device command RUN moves the device from READY to RUN. -/
def execRun (dt : Nat) (s : State) : Host.Outcome State Fault Refusal :=
  s.after dt (·.hostAct (·.runCmd))

/-- HALT (R26): Device command HALT moves the device to BIVOUAC, with every cluster in SAFE. -/
def execHalt (dt : Nat) (s : State) : Host.Outcome State Fault Refusal :=
  s.after dt (·.hostAct (·.haltCmd))

/-- RESUME (R26): Device command RESUME returns the device from BIVOUAC to RUN when no HALT source is asserted. -/
def execResume (dt : Nat) (s : State) : Host.Outcome State Fault Refusal :=
  s.after dt (·.hostAct (·.resumeCmd))

/-- RECOVER (R362): Device command RECOVER writes a logbook record, resets the blocks and starts a new image load. -/
def execRecover (dt : Nat) (s : State) : Host.Outcome State Fault Refusal :=
  s.after dt (·.hostAct (·.recoverCmd))

/-- DEVICE_BAD_CMD (R25): A write of an undefined DEV_CMD code is refused with BAD_CMD. -/
def execDeviceBadCmd (dt : Nat) (s : State) : Host.Outcome State Fault Refusal :=
  s.after dt (·.hostAct (·.answer .badCmd))

/-- DEVICE_SWAP_REQUEST (R32): A write of DEV_SWAP.go checks every selected set, then pends the swap or refuses it. -/
def execDeviceSwapRequest (dt : Nat) (ecc : Ecc) (s : State) : Host.Outcome State Fault Refusal :=
  s.after dt (·.hostAct (·.devSwapReq ecc))

/-- DEVICE_SWAP_AT_FRAME (R32): A pending device swap changes every selected set at its SYNC frame boundary. -/
def execDeviceSwapAtFrame (dt : Nat) (s : State) : Host.Outcome State Fault Refusal :=
  s.after dt (·.onKilid (·.devSwapNow))

/-- BUS_ABSENT (R15): VS of a region falls below the presence threshold; active clusters of the region enter SAFE. -/
def execBusAbsent (dt : Nat) (r : Rg) (s : State) : Host.Outcome State Fault Refusal :=
  s.after dt (·.onKilid (·.busAbsent r))

/-- BUS_PRESENT (R15): VS has stayed above the rising presence threshold for its filter time and the bus counts as
present. -/
def execBusPresent (dt : Nat) (r : Rg) (s : State) : Host.Outcome State Fault Refusal :=
  s.after dt (·.onKilid (·.busPresent r))

/-- LINK_FRAME (R16): A link frame carrying results, compare values, commands or status is received. -/
def execLinkFrame (dt : Nat) (d : Rg) (toKilid : Bool) (bad : List (Fin 5)) (s : State) :
    Host.Outcome State Fault Refusal :=
  s.after dt (·.linkFrame d toKilid bad)

/-- LINK_LOSS (R17): No valid link frame has arrived for 6 us; the Polrex die applies the safe state by itself. -/
def execLinkLoss (dt : Nat) (d : Rg) (s : State) : Host.Outcome State Fault Refusal :=
  s.after dt (·.linkLoss d)

/-- LINK_RETRAIN_ATTEMPT (R16): Kilid tries to retrain a lost link every 1 ms. -/
def execLinkRetrainAttempt (dt : Nat) (_d : Rg) (s : State) : Host.Outcome State Fault Refusal :=
  s.after dt id

/-- LINK_RESTORED (R19): The link is restored; the die reports its known-short record and its buffered raisings. -/
def execLinkRestored (dt : Nat) (d : Rg) (s : State) : Host.Outcome State Fault Refusal :=
  s.after dt (·.linkRestored d)

/-- LINK_LANE_RETRAINING (R332): A link lane at its limit, or out of symbol lock, is replaced by the spare within 2
us. -/
def execLinkLaneRetraining (dt : Nat) (d : Rg) (toKilid : Bool) (lane : Fin 5) (s : State) :
    Host.Outcome State Fault Refusal :=
  s.after dt (·.laneRetrain d toKilid lane)

/-- DRIVE_SUPPLY_LOSS (R18): A Polrex logic supply or VCC falls below its threshold, with the effect of link loss. -/
def execDriveSupplyLoss (dt : Nat) (d : Rg) (s : State) : Host.Outcome State Fault Refusal :=
  s.after dt (·.supplyLoss d)

/-- SUPPLY_MONITOR_CROSSING (R442): A supply monitor crosses its threshold after its filter and raises supply-warn or
its other effect. -/
def execSupplyMonitorCrossing (dt : Nat) (m : Fin 8) (low : Bool) (s : State) : Host.Outcome State Fault Refusal :=
  s.after dt (·.onKilid (·.supplyMark m.val low))

/-- VDDC_RESET (R25): VDDC below its reset threshold sends the device to OFF. -/
def execVddcReset (dt : Nat) (s : State) : Host.Outcome State Fault Refusal :=
  s.after dt (·.toOff)

/-- RESET_N_ASSERT (R444): RESET_N asserted sends the device to OFF; the Polrex dies hold their safe state. -/
def execResetNAssert (dt : Nat) (s : State) : Host.Outcome State Fault Refusal :=
  s.after dt (·.toOff)

/-- RESET_N_RELEASE (R345): RESET_N released with all supplies good enters BASECAMP and brings up the memory port. -/
def execResetNRelease (dt : Nat) (sess : BitVec 64) (s : State) : Host.Outcome State Fault Refusal :=
  s.after dt (·.release_n sess)

end Sys2Proof.Machine
end

