-- ==== Sys2Proof/Machine/CmdEst.lean ====
section
/-! DEFINITION. Meanings: rotor estimation, start-up, stall and recovery (05_rotor_estimation_and_startup), with the sensor ports of 14. -/

namespace Sys2Proof.Machine

/-- HALL_EDGE (R140): A filtered Hall code change gives a datum update or a hall-sequence fault. -/
def execHallEdge (dt : Nat) (n : Mcn) (code : BitVec 3) (s : State) : Host.Outcome State Fault Refusal :=
  s.after dt (·.onMc n (·.hallEdge n code.toNat))

/-- HALL_STOP_TIMEOUT (R140): No Hall or count edge for stop_ms sets the speed to 0. -/
def execHallStopTimeout (dt : Nat) (n : Mcn) (s : State) : Host.Outcome State Fault Refusal :=
  s.after dt (·.onMc n (·.posStop n))

/-- ENCODER_COUNT_EDGE (R142): A quadrature edge changes the encoder count, or an illegal transition is counted. -/
def execEncoderCountEdge (dt : Nat) (n : Mcn) (q : Quad) (s : State) : Host.Outcome State Fault Refusal :=
  s.after dt (·.onMc n (·.encEdge n q))

/-- ENCODER_INDEX (R143): A rising index edge sets the encoder reference. -/
def execEncoderIndex (dt : Nat) (n : Mcn) (s : State) : Host.Outcome State Fault Refusal :=
  s.after dt (·.onMc n (·.encIndex n))

/-- SENSOR_TRANSFER (R144): An absolute-sensor transfer completes and gives a datum update or is discarded. -/
def execSensorTransfer (dt : Nat) (n : Mcn) (ago : Nat) (w : Word) (s : State) : Host.Outcome State Fault Refusal :=
  s.after dt (·.onMc n (·.sensTransfer n ago w))

/-- SENSOR_SLAVE_WORD (R400): A slave sensor port takes a received word at select release. -/
def execSensorSlaveWord (dt : Nat) (p : Fin 2) (bits : Nat) (ago : Nat) (w : Word) (s : State) :
    Host.Outcome State Fault Refusal :=
  s.after dt (·.onKilid (·.slaveWord p bits ago w))

/-- ZC_WINDOW_EXPIRY (R151): A sector reaches zc_hi without an accepted crossing and zc_miss advances. -/
def execZcWindowExpiry (dt : Nat) (n : Mcn) (s : State) : Host.Outcome State Fault Refusal :=
  s.after dt (·.onMc n (·.zcExpire n))

/-- TRACKER_CONVERSION (R152): The terminal-voltage tracker converts the phase voltages every fs_period. -/
def execTrackerConversion (dt : Nat) (n : Mcn) (s : State) : Host.Outcome State Fault Refusal :=
  s.after dt (·.onMc n (·.trackerConv n))

/-- PROBE_END (R154): The fly probe time ends and the start goes to find, flying start or the short path. -/
def execProbeEnd (dt : Nat) (n : Mcn) (s : State) : Host.Outcome State Fault Refusal :=
  s.after dt (·.onMc n (·.probeEnd n))

/-- ALIGN_DONE (R155): The alignment ramp and hold end and the datum is set to 0 degrees electrical. -/
def execAlignDone (dt : Nat) (n : Mcn) (s : State) : Host.Outcome State Fault Refusal :=
  s.after dt (·.onMc n (·.alignDone n))

/-- POLARITY_PULSE (R156): A polarity pulse pair is applied and the d-axis polarity is settled or the pair repeated.
-/
def execPolarityPulse (dt : Nat) (n : Mcn) (peakPlus peakMinus : Nat) (s : State) :
    Host.Outcome State Fault Refusal :=
  s.after dt (·.onMc n (·.polarity n peakPlus peakMinus))

/-- START_TIMEOUT (R159): A start not in RUNNING within start_timeout fails and raises start-fail. -/
def execStartTimeout (dt : Nat) (n : Mcn) (s : State) : Host.Outcome State Fault Refusal :=
  s.after dt (·.onMc n (·.startTimeout n))

/-- START_RETRY (R159): A cluster still STARTING 100 ms after a start failure begins the start again. -/
def execStartRetry (dt : Nat) (n : Mcn) (s : State) : Host.Outcome State Fault Refusal :=
  s.after dt (·.onMc n (·.startAgain n))

/-- STALL (R160): The speed disagreement at the current limit persists for stall_t and raises the stall event. -/
def execStall (dt : Nat) (n : Mcn) (s : State) : Host.Outcome State Fault Refusal :=
  s.after dt (·.onMc n (·.stallDeclared n))

/-- CONTROL_RESUME (R166): At the next current sample after a lock, control resumes with seeded loops. -/
def execControlResume (dt : Nat) (n : Mcn) (s : State) : Host.Outcome State Fault Refusal :=
  s.after dt (·.onMc n (·.resumeControl n))

/-- REACQ_WINDOW_EXPIRY (R167): The re-acquire window expires, raising reacq-fail, and a new recovery may begin. -/
def execReacqWindowExpiry (dt : Nat) (n : Mcn) (s : State) : Host.Outcome State Fault Refusal :=
  s.after dt (·.onMc n (·.reacqExpire n))

end Sys2Proof.Machine
end

