-- ==== Sys2Proof/Machine/CmdFaults.lean ====
section
/-! DEFINITION. Meanings: the thermal pass (11), the collector, guy lines, the clock check, LANTERN, FAULT_N and the logbook (12). -/

namespace Sys2Proof.Machine

/-- THERMAL_PASS (R296): The 1 ms thermal pass converts the hot-spot and TH channels and updates the readings and
limits. -/
def execThermalPass (dt : Nat) (t : ThermIn) (s : State) : Host.Outcome State Fault Refusal :=
  s.after dt (·.onKilid fun s => (s.thermalPass t).noteTemps)

/-- COLD_BLOCK_END (R308): Cold_block stops being in force and a held autostart START is issued. -/
def execColdBlockEnd (dt : Nat) (c : Cl) (s : State) : Host.Outcome State Fault Refusal :=
  s.after dt (·.onCl c (·.coldEnd c))

/-- PULSE_HOLD_EXPIRY (R317): One second after a pulse source's raising, its DERATE factor or FAULT_N hold ends. -/
def execPulseHoldExpiry (dt : Nat) (e : BitVec 8) (s : State) : Host.Outcome State Fault Refusal :=
  s.after dt (·.onKilid (·.pulseExpire e.toNat))

/-- STICKY_CLEAR (R315): A written 1 clears a sticky bit, unless its source is asserted. -/
def execStickyClear (dt : Nat) (k : Fin 8) (w : Word) (s : State) : Host.Outcome State Fault Refusal :=
  s.after dt (·.hostAct (·.stickyClear k.val w))

/-- GUY_LINE_WIRE_FAULT (R324): Equal rail levels on three samples give a wire fault that asserts the source. -/
def execGuyLineWireFault (dt : Nat) (e : BitVec 8) (s : State) : Host.Outcome State Fault Refusal :=
  s.after dt (·.onKilid (·.guyBegin e.toNat))

/-- GUY_LINE_FAULT_END (R323): 1,024 samples of opposite levels end the wire fault. -/
def execGuyLineFaultEnd (dt : Nat) (e : BitVec 8) (s : State) : Host.Outcome State Fault Refusal :=
  s.after dt (·.onKilid (·.guyEnd e.toNat))

/-- CLOCK_CHECK (R328): Every 10 us the system clock is checked against the oscillators; roles change or clock-fail is
raised. -/
def execClockCheck (dt : Nat) (v : ClockVerdict) (s : State) : Host.Outcome State Fault Refusal :=
  s.after dt (·.onKilid (·.clockCheck v))

/-- LANTERN_TOGGLE (R326): LANTERN toggles at lantern_f while lit. -/
def execLanternToggle (dt : Nat) (s : State) : Host.Outcome State Fault Refusal :=
  s.after dt (·.onKilid (·.lanternToggle))

/-- FAULT_N_INPUT_LOW (R45): FAULT_N low after its filter, not driven by this device, raises system-fault. -/
def execFaultNInputLow (dt : Nat) (s : State) : Host.Outcome State Fault Refusal :=
  s.after dt (·.onKilid (·.faultNLow))

/-- FAULT_N_INPUT_HIGH (R45): FAULT_N returns high after its filter, and the level source system-fault stops being
asserted. -/
def execFaultNInputHigh (dt : Nat) (s : State) : Host.Outcome State Fault Refusal :=
  s.after dt (·.onKilid (·.faultNHigh))

/-- LOGBOOK_HOURLY (R336): Every 3,600 s of operation a logbook record is requested. -/
def execLogbookHourly (dt : Nat) (s : State) : Host.Outcome State Fault Refusal :=
  s.after dt (·.onKilid (·.logHourly))

/-- LOG_NOW (R336): A write of LOG_CMD.now requests a record with cause 0x04. -/
def execLogNow (dt : Nat) (s : State) : Host.Outcome State Fault Refusal :=
  s.after dt (·.hostAct (·.logNow))

/-- LOGBOOK_WRITE_START (R337): A pending logbook write begins once the memory port is free, erasing a sector if
needed. -/
def execLogbookWriteStart (dt : Nat) (s : State) : Host.Outcome State Fault Refusal :=
  s.after dt (·.onKilid (·.logStart))

/-- LOGBOOK_WRITE_COMPLETE (R342): A logbook write is verified, or fails and marks its sector bad. -/
def execLogbookWriteComplete (dt : Nat) (ok : Bool) (s : State) : Host.Outcome State Fault Refusal :=
  s.after dt (·.onKilid (·.logCompleteStep ok))

/-- LOGBOOK_WRITE_TIMEOUT (R337): A logbook write not verified within 400 ms fails. -/
def execLogbookWriteTimeout (dt : Nat) (s : State) : Host.Outcome State Fault Refusal :=
  s.after dt (·.onKilid (·.logTimeoutStep))

end Sys2Proof.Machine
end

