-- ==== Sys2Proof/Machine/CmdFrames.lean ====
section
/-! DEFINITION. Meanings: SYNC and frames, the graticule, the carrier and the compare values (02, 03). -/

namespace Sys2Proof.Machine

/-- SYNC_EDGE (R76): A rising SYNC edge within the window is taken as a frame start, frame 0 if it is long. -/
def execSyncEdge (dt : Nat) (long : Bool) (s : State) : Host.Outcome State Fault Refusal :=
  s.after dt (·.onKilid (·.syncEdge long))

/-- SYNC_WINDOW_CLOSE (R76): The SYNC window closes without an edge; the slave places the boundary itself and counts a
missing frame. -/
def execSyncWindowClose (dt : Nat) (s : State) : Host.Outcome State Fault Refusal :=
  s.after dt (·.onKilid (·.syncWindowClose))

/-- FRAME_BOUNDARY (R80): At each internal frame boundary the datum snapshots are latched and aligned carriers are
corrected in phase. -/
def execFrameBoundary (dt : Nat) (wrongLevel : Bool) (s : State) : Host.Outcome State Fault Refusal :=
  s.after dt (·.onKilid (·.frameBoundary wrongLevel))

/-- EDGE_TIME_COMMIT (R56): An entry's edge time becomes committed 2 us before it falls due. -/
def execEdgeTimeCommit (dt : Nat) (n : Mcn) (k : Fin 64) (s : State) : Host.Outcome State Fault Refusal :=
  s.after dt (·.onMc n (·.edgeCommit n k))

/-- GRATICULE_FIRING (R58): A graticule entry falls due and acts by its type. -/
def execGraticuleFiring (dt : Nat) (n : Mcn) (k : Fin 64) (s : State) : Host.Outcome State Fault Refusal :=
  s.after dt (·.onMc n (·.gFire n k))

/-- RATIO_CROSSING (R68): The datum passes 0 degrees electrical and the synchronous-carrier entry is selected afresh.
-/
def execRatioCrossing (dt : Nat) (n : Mcn) (s : State) : Host.Outcome State Fault Refusal :=
  s.after dt (·.onMc n (·.ratioCrossing n))

/-- COUNTER_ZERO (R83): The carrier reaches counter zero: the currents are held, periods are counted and refresh
pulses end. -/
def execCounterZero (dt : Nat) (n : Mcn) (p : Fin 3) (s : State) : Host.Outcome State Fault Refusal :=
  s.after dt (·.onMc n fun s => if s.conv n then s.convZero n p else if p = 0 then (s.commuteDue n).counterZero n else s)

/-- PERIOD_EVENT (R83): The carrier reaches its period event and the falling half begins. -/
def execPeriodEvent (dt : Nat) (n : Mcn) (p : Fin 3) (s : State) : Host.Outcome State Fault Refusal :=
  s.after dt (·.onMc n fun s => if s.conv n then s.convPeriod n p else if p = 0 then (s.commuteDue n).periodEvent n else s)

/-- COMPARE_APPLY (R107): New compare values arrive at the PWM unit and act in the present or the next half-period. -/
def execCompareApply (dt : Nat) (n : Mcn) (s : State) : Host.Outcome State Fault Refusal :=
  s.after dt (·.onMc n fun s => if s.conv n then s.convApply n else (s.commuteDue n).compareApply n)

/-- SECTOR_BOUNDARY (R95): A predicted block-commutation sector boundary is reached and the sector advances. -/
def execSectorBoundary (dt : Nat) (n : Mcn) (s : State) : Host.Outcome State Fault Refusal :=
  s.after dt (·.onMc n (·.sectorBoundary n))

/-- LAT_CLR (R110): A write of MC_PWM_CLR.lat_clr restarts both latency registers. -/
def execLatClr (dt : Nat) (n : Mcn) (s : State) : Host.Outcome State Fault Refusal :=
  s.after dt (·.hostCmd (mcB n + R.MC_PWM_CLR.reg) (·.latClear n))

/-- PWM_CNT_CLR (R110): A write of MC_PWM_CLR.cnt_clr sets the PWM counters to 0. -/
def execPwmCntClr (dt : Nat) (n : Mcn) (s : State) : Host.Outcome State Fault Refusal :=
  s.after dt (·.hostCmd (mcB n + R.MC_PWM_CLR.reg) (·.pwmClear n))

/-- CARRIER_FREQUENCY_CHANGE (R307): A new k_f sets the asynchronous carrier at the next counter zero. -/
def execCarrierFrequencyChange (dt : Nat) (n : Mcn) (s : State) : Host.Outcome State Fault Refusal :=
  s.after dt (·.onMc n (·.carrierChange n))

end Sys2Proof.Machine
end

