-- ==== Sys2Proof/Machine/CmdHost.lean ====
section
/-! DEFINITION. Meanings: the host port's chain words and packets, and the memory port (14_serial_ports_and_lyjan). -/

namespace Sys2Proof.Machine

/-- CHAIN_FRAME (R385): At HP_CS_N release the device takes its chain word, or rejects the frame with FRAME_ERR. -/
def execChainFrame (dt : Nat) (edges : Nat) (w : List Word) (s : State) : Host.Outcome State Fault Refusal :=
  s.after dt (·.chainFrame edges w)

/-- NOP (R387): Chain command NOP does nothing. -/
def execNop (dt : Nat) (s : State) : Host.Outcome State Fault Refusal :=
  s.after dt (·.chainRow 0 0)

/-- SETPOINT (R388): Chain command SETPOINT issues a set-point command to an axis. -/
def execSetpoint (dt : Nat) (arg : BitVec 24) (s : State) : Host.Outcome State Fault Refusal :=
  s.after dt (·.chainRow 1 arg)

/-- ADDR (R387): Chain command ADDR sets the chain pointer. -/
def execAddr (dt : Nat) (arg : BitVec 24) (s : State) : Host.Outcome State Fault Refusal :=
  s.after dt (·.chainRow 2 arg)

/-- WR_LO (R387): Chain command WR_LO stages the low half of a word. -/
def execWrLo (dt : Nat) (arg : BitVec 24) (s : State) : Host.Outcome State Fault Refusal :=
  s.after dt (·.chainRow 3 arg)

/-- WR_HI (R387): Chain command WR_HI writes the staged word at the pointer and advances it. -/
def execWrHi (dt : Nat) (arg : BitVec 24) (s : State) : Host.Outcome State Fault Refusal :=
  s.after dt (·.chainRow 4 arg)

/-- RD_LO (R387): Chain command RD_LO snapshots the pointer's register and returns its low half. -/
def execRdLo (dt : Nat) (s : State) : Host.Outcome State Fault Refusal :=
  s.after dt (·.chainRow 5 0)

/-- RD_HI (R387): Chain command RD_HI returns the snapshot's high half and advances the pointer. -/
def execRdHi (dt : Nat) (s : State) : Host.Outcome State Fault Refusal :=
  s.after dt (·.chainRow 6 0)

/-- PACKET_FRAME (R393): At HP_PCS_N release a packet frame is checked in order and its packet executed or refused. -/
def execPacketFrame (dt : Nat) (edges : Nat) (w : List Word) (s : State) : Host.Outcome State Fault Refusal :=
  s.after dt (·.packetFrame edges w)

/-- POLL_FRAME (R390): A poll frame carries out the pending response and has none of its own. -/
def execPollFrame (dt : Nat) (edges : Nat) (s : State) : Host.Outcome State Fault Refusal :=
  s.after dt (·.packetFrame edges [])

/-- READ (R394): Packet READ returns one register word. -/
def execRead (dt : Nat) (addr : BitVec 24) (s : State) : Host.Outcome State Fault Refusal :=
  s.after dt (·.hostOp (retiredRun addr.toNat 1) (·.opRead addr.toNat 1))

/-- WRITE (R394): Packet WRITE writes one register word. -/
def execWrite (dt : Nat) (addr : BitVec 24) (w : Word) (s : State) : Host.Outcome State Fault Refusal :=
  s.after dt (·.hostOp false (·.opWrite addr.toNat [w]))

/-- READ_BURST (R396): Packet READ_BURST reads consecutive words, with RANGE past a block. -/
def execReadBurst (dt : Nat) (addr : BitVec 24) (n : Nat) (s : State) : Host.Outcome State Fault Refusal :=
  s.after dt fun s => s.hostOp (retiredRun addr.toNat n) fun s =>
    if 1 ≤ n ∧ n ≤ 256 then s.opRead addr.toNat n else (s.badPkt, 0, false)

/-- WRITE_BURST (R394): Packet WRITE_BURST writes consecutive words and stops at a refused word. -/
def execWriteBurst (dt : Nat) (addr : BitVec 24) (w : List Word) (s : State) : Host.Outcome State Fault Refusal :=
  s.after dt fun s => s.hostOp false fun s =>
    if 1 ≤ w.length ∧ w.length ≤ 256 then s.opWrite addr.toNat w else (s.badPkt, 0, false)

/-- BULK_READ (R397): Packet BULK_READ reads from a named target: space, sheet, trace, DMA, logbook or NVM. -/
def execBulkRead (dt : Nat) (target : Word) (addr : Word) (n : Nat) (s : State) : Host.Outcome State Fault Refusal :=
  s.after dt fun s =>
    s.hostOp (target == 0 && retiredRun (addr.toNat % 2 ^ 24) n) (·.opBulkRead target.toNat (addr.toNat % 2 ^ 24) n)

/-- BULK_WRITE (R397): Packet BULK_WRITE writes to a named target, NVM programming included. -/
def execBulkWrite (dt : Nat) (target : Word) (addr : Word) (w : List Word) (s : State) :
    Host.Outcome State Fault Refusal :=
  s.after dt (·.hostOp false (·.opBulkWrite target.toNat (addr.toNat % 2 ^ 24) w))

/-- NVM_ERASE_4K (R398): COMMAND NVM_ERASE_4K erases a 4 KiB flash sector. -/
def execNvmErase4k (dt : Nat) (addr : Word) (s : State) : Host.Outcome State Fault Refusal :=
  s.after dt (·.hostOp false (·.opErase (addr.toNat % 2 ^ 24) 4096))

/-- NVM_ERASE_64K (R398): COMMAND NVM_ERASE_64K erases a 64 KiB flash block. -/
def execNvmErase64k (dt : Nat) (addr : Word) (s : State) : Host.Outcome State Fault Refusal :=
  s.after dt (·.hostOp false (·.opErase (addr.toNat % 2 ^ 24) 65536))

/-- HOLD_CLR (R398): COMMAND HOLD_CLR invalidates the host port's holding register. -/
def execHoldClr (dt : Nat) (s : State) : Host.Outcome State Fault Refusal :=
  s.after dt (·.hostOp false (·.opHoldClr))

/-- PACKET_COMPLETE (R392): An executing packet or chain word completes and its response becomes pending. -/
def execPacketComplete (dt : Nat) (s : State) : Host.Outcome State Fault Refusal :=
  s.after dt (·.onKilid (·.packetComplete))

/-- MEMORY_PORT_GRANT (R404): The free memory port takes the next pending user by priority. -/
def execMemoryPortGrant (dt : Nat) (s : State) : Host.Outcome State Fault Refusal :=
  s.after dt (·.mpGrant)

/-- FLASH_STATUS_POLL (R403): The flash status is read every 10 us while a program or erase runs. -/
def execFlashStatusPoll (dt : Nat) (busy : Bool) (failed : Bool) (s : State) : Host.Outcome State Fault Refusal :=
  s.after dt (·.mpPoll busy failed)

/-- NVM_TIMEOUT (R406): A flash still busy after 3 s ends the operation with NVM_FAIL. -/
def execNvmTimeout (dt : Nat) (s : State) : Host.Outcome State Fault Refusal :=
  s.after dt (·.mpTimeout)

/-- REGISTER_WRITE (R8): A write to a register without a row of its own acts by the classes of its fields. -/
def execRegisterWrite (dt : Nat) (p : Port) (addr : BitVec 24) (w : Word) (s : State) :
    Host.Outcome State Fault Refusal :=
  s.after dt (·.portWrite p addr.toNat w)

end Sys2Proof.Machine
end

