-- ==== Sys2Proof/Machine/CmdLanes.lean ====
section
/-! DEFINITION. Meanings: lane jobs and the pool (06_control_lanes), and the trace units' commands. -/

namespace Sys2Proof.Machine

/-- JOB_RELEASE (R171): A lane job is released into the ready list, dropping an older unstarted instance. -/
def execJobRelease (dt : Nat) (j : JobId) (s : State) : Host.Outcome State Fault Refusal :=
  s.after dt (·.onKilid (·.jobRelease j))

/-- CUR_JOB (R177): The current loop completes and publishes the voltage vector or duty. -/
def execCurJob (dt : Nat) (n : Mcn) (s : State) : Host.Outcome State Fault Refusal :=
  s.after dt (·.onKilid (·.curJob n))

/-- OBS_JOB (R145): The flux observer completes its update and judges lock by its residual. -/
def execObsJob (dt : Nat) (n : Mcn) (s : State) : Host.Outcome State Fault Refusal :=
  s.after dt (·.onKilid (·.obsJob n))

/-- SPD_JOB (R177): The speed loop completes and publishes the i_q reference. -/
def execSpdJob (dt : Nat) (n : Mcn) (s : State) : Host.Outcome State Fault Refusal :=
  s.after dt (·.onKilid (·.spdJob n))

/-- POS_JOB (R177): The position loop completes and publishes the speed reference. -/
def execPosJob (dt : Nat) (n : Mcn) (s : State) : Host.Outcome State Fault Refusal :=
  s.after dt (·.onKilid (·.posJob n))

/-- PROF_JOB (R226): A profile step completes, acting on accepted commands and advancing the set-point. -/
def execProfJob (dt : Nat) (a : Axis) (s : State) : Host.Outcome State Fault Refusal :=
  s.after dt (·.onKilid (·.profJob a))

/-- CCUR_JOB (R284): The converter current loop completes for every active phase and updates the energy meters. -/
def execCcurJob (dt : Nat) (n : Mcn) (s : State) : Host.Outcome State Fault Refusal :=
  s.after dt (·.onKilid (·.ccurJob n))

/-- CVOLT_JOB (R285): The converter voltage loop completes, sets the mean current reference and sheds or adds phases.
-/
def execCvoltJob (dt : Nat) (n : Mcn) (s : State) : Host.Outcome State Fault Refusal :=
  s.after dt (·.onKilid (·.cvoltJob n))

/-- THERM_JOB (R299): A thermal model update completes and applies the limits and derating. -/
def execThermJob (dt : Nat) (o : Mcn ⊕ Rg) (s : State) : Host.Outcome State Fault Refusal :=
  s.after dt (·.onKilid fun s => (s.thermJob o).noteTemps)

/-- ATLAS_JOB (R213): An atlas index evaluation completes and may start a fill. -/
def execAtlasJob (dt : Nat) (n : Mcn) (s : State) : Host.Outcome State Fault Refusal :=
  s.after dt (·.onKilid (·.atlasJob n))

/-- TRACE_JOB (R196): A trace record is built from the latched nodes of a traced run. -/
def execTraceJob (dt : Nat) (u : Fin 4) (s : State) : Host.Outcome State Fault Refusal :=
  s.after dt (·.onKilid (·.traceJob u))

/-- LTEST_JOB (R194): A lane self-test completes and compares its signature. -/
def execLtestJob (dt : Nat) (l : Fin 8) (good : Bool) (s : State) : Host.Outcome State Fault Refusal :=
  s.after dt (·.onKilid (·.ltestDone l good))

/-- LANE_FAIL (R193): A job overruns its limit; its lane is retired and the job is re-run or missed. -/
def execLaneFail (dt : Nat) (l : Fin 8) (s : State) : Host.Outcome State Fault Refusal :=
  s.after dt (·.onKilid (·.laneOverrun l))

/-- LANE_RATE_WINDOW (R190): A 64 us window ends and the lane's rate is updated. -/
def execLaneRateWindow (dt : Nat) (l : Fin 8) (count : Nat) (s : State) : Host.Outcome State Fault Refusal :=
  s.after dt (·.onKilid (·.laneWindow l count))

/-- STEWARD_POOL_TEST (R191): Every 1,024 us the steward tests pool utilisation and slack and may substitute a spare
lane. -/
def execStewardPoolTest (dt : Nat) (s : State) : Host.Outcome State Fault Refusal :=
  s.after dt (·.onKilid (·.poolTest))

/-- TRACE_ARM (R198): A write of TR_TRIG.arm arms a trace unit. -/
def execTraceArm (dt : Nat) (u : Fin 4) (s : State) : Host.Outcome State Fault Refusal :=
  s.after dt (·.hostAct (·.traceArm u))

/-- TRACE_SOFT (R198): A write of TR_TRIG.soft gives a software trigger. -/
def execTraceSoft (dt : Nat) (u : Fin 4) (s : State) : Host.Outcome State Fault Refusal :=
  s.after dt (·.hostAct (·.traceSoft u))

/-- TRACE_STOP (R198): A write of TR_TRIG.stop returns the unit to IDLE. -/
def execTraceStop (dt : Nat) (u : Fin 4) (s : State) : Host.Outcome State Fault Refusal :=
  s.after dt (·.hostAct (·.traceStop u))

end Sys2Proof.Machine
end

