-- ==== Sys2Proof/Machine/CmdMotion.lean ====
section
/-! DEFINITION. Meanings: motion commands and steppers (08_motion_and_steppers). -/

namespace Sys2Proof.Machine

/-- MOVE (R226): Axis command MOVE to the staged target is accepted or refused. -/
def execMove (dt : Nat) (a : Axis) (s : State) : Host.Outcome State Fault Refusal :=
  s.after dt (·.hostAct fun s => s.moMove a (s.staged 0 a))

/-- AXIS_STOP (R229): Axis command STOP begins a stop ramp. -/
def execAxisStop (dt : Nat) (a : Axis) (s : State) : Host.Outcome State Fault Refusal :=
  s.after dt (·.hostAct (·.moStop a))

/-- SET_V (R227): Axis command SET_V changes the speed limit of the motion in progress. -/
def execSetV (dt : Nat) (a : Axis) (s : State) : Host.Outcome State Fault Refusal :=
  s.after dt (·.hostAct fun s => s.moSetV a (s.staged 0 a))

/-- SET_A (R227): Axis command SET_A changes the acceleration of the motion in progress. -/
def execSetA (dt : Nat) (a : Axis) (s : State) : Host.Outcome State Fault Refusal :=
  s.after dt (·.hostAct fun s => s.moSetA a (s.staged 0 a))

/-- SPEED (R228): Axis command SPEED sets a signed speed target with its acceleration. -/
def execSpeed (dt : Nat) (a : Axis) (s : State) : Host.Outcome State Fault Refusal :=
  s.after dt (·.hostAct fun s => s.moSpeed a (s.staged 0 a))

/-- APPEND (R231): Axis command APPEND adds a waypoint to the route queue. -/
def execAppend (dt : Nat) (a : Axis) (s : State) : Host.Outcome State Fault Refusal :=
  s.after dt (·.hostAct fun s => s.moAppend a (s.staged 0 a))

/-- ROUTE_START (R232): Axis command ROUTE_START begins running the route queue, closed or open. -/
def execRouteStart (dt : Nat) (a : Axis) (openRoute : Bool) (s : State) : Host.Outcome State Fault Refusal :=
  s.after dt (·.hostAct (·.moRouteStart a openRoute))

/-- ROUTE_LOAD (R231): Axis command ROUTE_LOAD replaces the queue with a route of the image. -/
def execRouteLoad (dt : Nat) (a : Axis) (route : BitVec 8) (s : State) : Host.Outcome State Fault Refusal :=
  s.after dt (·.hostAct fun s => s.moRouteLoad a (s.imageRoute route.toNat))

/-- ROUTE_CLEAR (R224): Axis command ROUTE_CLEAR empties the route queue. -/
def execRouteClear (dt : Nat) (a : Axis) (s : State) : Host.Outcome State Fault Refusal :=
  s.after dt (·.hostAct (·.moRouteClear a))

/-- HOME (R245): Axis command HOME starts a blind or stall homing run. -/
def execHome (dt : Nat) (a : Axis) (s : State) : Host.Outcome State Fault Refusal :=
  s.after dt (·.hostAct (·.moHome a))

/-- SET_POS (R224): Axis command SET_POS sets the profile and measured positions and clears pos_lost. -/
def execSetPos (dt : Nat) (a : Axis) (s : State) : Host.Outcome State Fault Refusal :=
  s.after dt (·.hostAct fun s => s.moSetPos a (s.staged 0 a))

/-- MOTION_BAD_CMD (R224): An unknown motion command code is refused with BAD_CMD. -/
def execMotionBadCmd (dt : Nat) (a : Axis) (s : State) : Host.Outcome State Fault Refusal :=
  s.after dt (·.hostAct (·.moRefuse a .badCmd))

/-- DWELL_END (R234): A waypoint's dwell ends and the next segment begins, the route completes, or it waits. -/
def execDwellEnd (dt : Nat) (a : Axis) (s : State) : Host.Outcome State Fault Refusal :=
  s.after dt (·.onCl (axCl a) (·.dwellOver a))

/-- INDEXER_EMISSION (R235): The indexer emits the next grid point and updates the coil references. -/
def execIndexerEmission (dt : Nat) (k : Chan) (s : State) : Host.Outcome State Fault Refusal :=
  s.after dt (·.onSt k (·.emit k))

/-- CHOPPER_ON_PHASE_END (R239): After blanking, a coil's current reaches its reference and the off phase begins. -/
def execChopperOnPhaseEnd (dt : Nat) (k : Chan) (coil : Fin 2) (s : State) : Host.Outcome State Fault Refusal :=
  s.after dt (·.onSt k (·.onEnd k coil))

/-- CHOPPER_OFF_TIME_END (R239): A coil's off time ends and a new on phase begins. -/
def execChopperOffTimeEnd (dt : Nat) (k : Chan) (coil : Fin 2) (s : State) : Host.Outcome State Fault Refusal :=
  s.after dt (·.onSt k (·.onBegin k coil))

/-- COIL_ZERO_CURRENT_LEVEL (R240): A decaying coil current falls below 30 mA, all four switches turn off, and the
zero-current window of R243 begins. -/
def execCoilZeroCurrentLevel (dt : Nat) (k : Chan) (coil : Fin 2) (s : State) : Host.Outcome State Fault Refusal :=
  s.after dt (·.onSt k (·.coilZero k coil))

/-- ZERO_CURRENT_WINDOW_END (R243): A zero-current window ends with a back-EMF conversion and a verdict. -/
def execZeroCurrentWindowEnd (dt : Nat) (k : Chan) (coil : Fin 2) (code : Code) (s : State) :
    Host.Outcome State Fault Refusal :=
  s.after dt (·.onSt k (·.windowEnd k coil code.toNat))

/-- STANDBY_TIMEOUT (R241): Zero velocity for t_standby lowers the coil current to i_standby. -/
def execStandbyTimeout (dt : Nat) (k : Chan) (s : State) : Host.Outcome State Fault Refusal :=
  s.after dt (·.onSt k (·.standbyDue k))

/-- BRIDGE_OVERCURRENT (R246): A stepper switch above 2.5 A for 0.5 us turns the channel's bridges off. -/
def execBridgeOvercurrent (dt : Nat) (h : Fin 16) (s : State) : Host.Outcome State Fault Refusal :=
  s.after dt (·.onSt (bridgeChan h) (·.bridgeOc (bridgeChan h) (bridgeCoil h)))

/-- BRIDGE_SEGMENT_FAULT (R246): A bridge segment outside its current share is switched off. -/
def execBridgeSegmentFault (dt : Nat) (h : Fin 16) (seg : Fin 18) (s : State) : Host.Outcome State Fault Refusal :=
  s.after dt (·.onKilid (·.bridgeSeg h seg.val))

/-- STEPPER_SPARE_SEGMENT_IN (R247): At standstill the steward switches a spare bridge segment in at an on phase. -/
def execStepperSpareSegmentIn (dt : Nat) (h : Fin 16) (s : State) : Host.Outcome State Fault Refusal :=
  s.after dt (·.onKilid (·.bridgeSpare h))

end Sys2Proof.Machine
end

