-- ==== Sys2Proof/Machine/CmdPower.lean ====
section
/-! DEFINITION. Meanings: gate drive, the ladder and the reverse-battery switch (09), the converter's protections (10). -/

namespace Sys2Proof.Machine

/-- GATE_PHASE_END (R251): A gate output's turn-on, turn-off or soft-off phase ends on its timer. -/
def execGatePhaseEnd (dt : Nat) (o : Fin 40) (s : State) : Host.Outcome State Fault Refusal :=
  s.after dt (·.gatePhaseEnd o)

/-- GATE_SEGMENT_SHARE_FAULT (R252): A gate segment outside +-20 % of the mean share is switched off. -/
def execGateSegmentShareFault (dt : Nat) (o : Fin 40) (sink : Bool) (seg : Fin 36) (s : State) :
    Host.Outcome State Fault Refusal :=
  s.after dt (·.onKilid (·.segFault o (if sink then 1 else 0) seg.val))

/-- GATE_SEGMENT_SUBSTITUTION (R252): A spare gate segment is substituted within a hold phase. -/
def execGateSegmentSubstitution (dt : Nat) (o : Fin 40) (sink : Bool) (s : State) :
    Host.Outcome State Fault Refusal :=
  s.after dt (·.onKilid (·.segSub o (if sink then 1 else 0)))

/-- GATE_FAULT (R253): A gate voltage has not passed its level t_tr + 1 us after the command. -/
def execGateFault (dt : Nat) (o : Fin 40) (s : State) : Host.Outcome State Fault Refusal :=
  s.after dt (·.gateLate o)

/-- PRECHARGE_END (R255): The bootstrap precharge at ARM ends and undervolted phases raise bootstrap-uv. -/
def execPrechargeEnd (dt : Nat) (n : Mcn) (s : State) : Host.Outcome State Fault Refusal :=
  s.after dt (·.onMc n (·.prechargeEnd n))

/-- BOOTSTRAP_COMPARATOR (R256): A filtered bootstrap undervoltage suppresses a turn-on or forces a refresh and is
counted. -/
def execBootstrapComparator (dt : Nat) (n : Mcn) (p : Fin 3) (low : Bool) (s : State) :
    Host.Outcome State Fault Refusal :=
  s.after dt (·.onMc n (·.bstSet n p low))

/-- DESAT_TRIP (R261): Vds above vds_thr after blanking trips the switch into soft-off. -/
def execDesatTrip (dt : Nat) (o : Fin 40) (s : State) : Host.Outcome State Fault Refusal :=
  s.after dt (·.desatTrip o)

/-- HARD_SHORT_TRIP (R262): Vds above VS/2 at t_blank/2 trips the switch and marks the known short. -/
def execHardShortTrip (dt : Nat) (o : Fin 40) (s : State) : Host.Outcome State Fault Refusal :=
  s.after dt (·.hardTrip o)

/-- SOFT_OFF_END (R261): A tripped switch's soft-off ends and the die applies the cluster's safe state. -/
def execSoftOffEnd (dt : Nat) (o : Fin 40) (s : State) : Host.Outcome State Fault Refusal :=
  s.after dt (·.softOffEnd o)

/-- KNOWN_SHORT_CLR (R263): A write of MC_GATE_SHORT.clr clears the known-short record in STOPPED or FAULTED. -/
def execKnownShortClr (dt : Nat) (n : Mcn) (s : State) : Host.Outcome State Fault Refusal :=
  s.after dt (·.hostCmd (mcB n + R.MC_GATE_SHORT.reg) (·.knownClear n))

/-- ACTIVE_SHORT_TURN_ON (R265): Dead time after the other side turns off, the short's side turns on. -/
def execActiveShortTurnOn (dt : Nat) (n : Mcn) (s : State) : Host.Outcome State Fault Refusal :=
  s.after dt (·.shortOn n)

/-- HOLD_PUMP_TIMEOUT (R266): A bootstrap comparator asserted for 1 ms in a high-side short turns every switch off. -/
def execHoldPumpTimeout (dt : Nat) (n : Mcn) (s : State) : Host.Outcome State Fault Refusal :=
  s.after dt (·.holdPumpOut n)

/-- VCC_HOLD_LOSS (R268): VCC below the hold level pulls every gate of the region off. -/
def execVccHoldLoss (dt : Nat) (r : Rg) (s : State) : Host.Outcome State Fault Refusal :=
  s.after dt (·.holdLoss r)

/-- BUS_OV1 (R270): VS reaches ov1 and the brake chopper turns on. -/
def execBusOv1 (dt : Nat) (r : Rg) (s : State) : Host.Outcome State Fault Refusal :=
  s.after dt (·.ovReach r 1)

/-- BUS_BELOW_OV1_HYST (R270): VS falls below ov1 - ov1_hyst and the chopper turns off. -/
def execBusBelowOv1Hyst (dt : Nat) (r : Rg) (s : State) : Host.Outcome State Fault Refusal :=
  s.after dt (·.ovFall r)

/-- BUS_OV2 (R271): VS reaches ov2 and the OV2 action shorts or switches off the region's clusters. -/
def execBusOv2 (dt : Nat) (r : Rg) (s : State) : Host.Outcome State Fault Refusal :=
  s.after dt (·.ovReach r 2)

/-- OV2_HOLD_EXPIRY (R272): VS below ov1 - ov1_hyst for ov2_hold ends the OV2 action. -/
def execOv2HoldExpiry (dt : Nat) (r : Rg) (s : State) : Host.Outcome State Fault Refusal :=
  s.after dt (·.ov2End r)

/-- BUS_OV3 (R273): VS reaches ov3 and the OV3 latch turns every gate of the region off. -/
def execBusOv3 (dt : Nat) (r : Rg) (s : State) : Host.Outcome State Fault Refusal :=
  s.after dt (·.ovReach r 3)

/-- OV3_CLR (R273): A write of RG_PS_CMD.ov3_clr clears the OV3 latch when VS is below ov2. -/
def execOv3Clr (dt : Nat) (r : Rg) (s : State) : Host.Outcome State Fault Refusal :=
  s.after dt (·.hostCmd (rgB r + R.RG_PS_CMD.reg) (·.ov3Clear r))

/-- CHOP_CLR (R274): A write of RG_PS_CMD.chop_clr clears both chopper flags when VS is low enough. -/
def execChopClr (dt : Nat) (r : Rg) (s : State) : Host.Outcome State Fault Refusal :=
  s.after dt (·.hostCmd (rgB r + R.RG_PS_CMD.reg) (·.chopClear r))

/-- CHOPPER_EFFECT_CHECK (R274): 50 us after a chopper turn-on the bus rise is compared with rise_tol. -/
def execChopperEffectCheck (dt : Nat) (r : Rg) (before after : Code) (s : State) : Host.Outcome State Fault Refusal :=
  s.after dt (·.chopCheck r before.toNat after.toNat)

/-- CHOPPER_MINIMUM_TIME_END (R270): The 2 us minimum on-time or off-time of the brake chopper ends, and the chopper
switches if VS has already crossed its threshold. -/
def execChopperMinimumTimeEnd (dt : Nat) (r : Rg) (s : State) : Host.Outcome State Fault Refusal :=
  s.after dt (·.chopMinEnd r)

/-- RBS_RISE (R275): RBS reaches 6.0 V and the reverse-battery gate turns on. -/
def execRbsRise (dt : Nat) (r : Rg) (s : State) : Host.Outcome State Fault Refusal :=
  s.after dt (·.rbsRise r)

/-- RBS_FALL (R275): RBS falls below 5.5 V and the reverse-battery gate turns off. -/
def execRbsFall (dt : Nat) (r : Rg) (s : State) : Host.Outcome State Fault Refusal :=
  s.after dt (·.rbsFall r)

/-- RBS_REVERSE (R276): RBS below -0.5 V for 0.5 us pulls the gate off and raises rbg-reverse. -/
def execRbsReverse (dt : Nat) (r : Rg) (s : State) : Host.Outcome State Fault Refusal :=
  s.after dt (·.rbsReverse r)

/-- RBS_REVERSE_RECOVERY (R276): RBS held at 6.0 V for 10 ms ends the reverse lockout. -/
def execRbsReverseRecovery (dt : Nat) (r : Rg) (s : State) : Host.Outcome State Fault Refusal :=
  s.after dt (·.rbsRecover r)

/-- VLO_OVERVOLTAGE (R293): VLO above vlo_ov turns every converter switch off. -/
def execVloOvervoltage (dt : Nat) (n : Mcn) (s : State) : Host.Outcome State Fault Refusal :=
  s.after dt (·.onMc n (·.vloOv n))

/-- VLO_OV_RECOVERY (R289): VLO below vlo_ov for 1 ms restarts the converter by its seeds. -/
def execVloOvRecovery (dt : Nat) (n : Mcn) (s : State) : Host.Outcome State Fault Refusal :=
  s.after dt (·.onMc n (·.vloOk n))

/-- E_CLR (R292): A write of MC_CONV_CMD.e_clr sets both energy meters to 0. -/
def execEClr (dt : Nat) (n : Mcn) (s : State) : Host.Outcome State Fault Refusal :=
  s.after dt (·.hostCmd (mcB n + R.MC_CONV_CMD.reg) (·.meterClear n))

end Sys2Proof.Machine
end

