-- ==== Sys2Proof/Machine/CmdSensing.lean ====
section
/-! DEFINITION. Meanings: conversions, sequences, calibration, DMA and accumulators (04_current_and_voltage_sensing). -/

namespace Sys2Proof.Machine

/-- CONVERSION_RESULT_READY (R112): A slice result is ready 160 ns after its hold and goes to its registers, lanes,
accumulators and DMA. -/
def execConversionResultReady (dt : Nat) (g : Grp) (r : Result) (s : State) : Host.Outcome State Fault Refusal :=
  s.after dt (·.onGrp g (·.resultReady g r))

/-- SEQUENCE_TRIGGER (R121): A trigger starts a pass of a regular or injected sequence, or counts as an overrun. -/
def execSequenceTrigger (dt : Nat) (g : Grp) (inj : Bool) (s : State) : Host.Outcome State Fault Refusal :=
  s.after dt (·.onGrp g (·.seqTrigger g inj))

/-- SEQUENCE_ENTRY_ISSUE (R122): A sequence entry holds on the lowest free sequence slice once it is due. -/
def execSequenceEntryIssue (dt : Nat) (g : Grp) (s : State) : Host.Outcome State Fault Refusal :=
  s.after dt (·.onGrp g (·.issueRegular g))

/-- URGENT_REQUEST (R123): An urgent request takes the next free sequence slice ahead of regular entries. -/
def execUrgentRequest (dt : Nat) (g : Grp) (s : State) : Host.Outcome State Fault Refusal :=
  s.after dt (·.onGrp g (·.issueUrgent g))

/-- SW_REG (R121): A write of xx_SEN_CLR.sw_reg triggers the regular sequence. -/
def execSwReg (dt : Nat) (g : Grp) (s : State) : Host.Outcome State Fault Refusal :=
  s.after dt (·.hostCmd (grpB g + R.SEN_CLR.reg) (·.swTrigger g false))

/-- SW_INJ (R121): A write of xx_SEN_CLR.sw_inj triggers the injected sequence. -/
def execSwInj (dt : Nat) (g : Grp) (s : State) : Host.Outcome State Fault Refusal :=
  s.after dt (·.hostCmd (grpB g + R.SEN_CLR.reg) (·.swTrigger g true))

/-- SEN_CNT_CLR (R121): A write of xx_SEN_CLR.cnt_clr sets the sequence and DMA counters to 0. -/
def execSenCntClr (dt : Nat) (g : Grp) (s : State) : Host.Outcome State Fault Refusal :=
  s.after dt (·.hostCmd (grpB g + R.SEN_CLR.reg) (·.senClear g))

/-- CALIBRATION_STEP (R127): A background-calibration step begins with a reference check of the spare slice. -/
def execCalibrationStep (dt : Nat) (g : Grp) (refOk : Bool) (s : State) : Host.Outcome State Fault Refusal :=
  s.after dt (·.onGrp g (·.calStep g refOk))

/-- CALIBRATION_HANDOVER (R128): The shadowing ends, the results are compared with cal_tol and the spare takes the
role. -/
def execCalibrationHandover (dt : Nat) (g : Grp) (diff : Option Nat) (s : State) : Host.Outcome State Fault Refusal :=
  s.after dt (·.onGrp g (·.calHandover g diff))

/-- AMP_CHECK (R117): The periodic spare-amplifier check tests the spare and compares it with an in-service amplifier.
-/
def execAmpCheck (dt : Nat) (n : Mcn) (spareOk : Bool) (diff : Option Nat) (s : State) :
    Host.Outcome State Fault Refusal :=
  s.after dt (·.onMc n (·.ampCheck n spareOk diff))

/-- AMP_CHECK_TIMEOUT (R117): An amplifier-check step without an open window for 100 ms ends without a verdict. -/
def execAmpCheckTimeout (dt : Nat) (n : Mcn) (s : State) : Host.Outcome State Fault Refusal :=
  s.after dt (·.onMc n (·.ampTimeout n))

/-- AMP_SUBSTITUTION (R118): The spare amplifier replaces a faulty amplifier between two counter-zero samples. -/
def execAmpSubstitution (dt : Nat) (n : Mcn) (s : State) : Host.Outcome State Fault Refusal :=
  s.after dt (·.onMc n (·.ampSwapNow n))

/-- DMA_WRITE (R135): A granted DMA burst writes result words into the sample-memory buffer, with watermark and
overrun handling. -/
def execDmaWrite (dt : Nat) (g : Grp) (s : State) : Host.Outcome State Fault Refusal :=
  s.after dt (·.onGrp g (·.dmaBurst g))

/-- DMA_RPTR_WRITE (R135): A write of rptr moves the read pointer between two DMA writes. -/
def execDmaRptrWrite (dt : Nat) (g : Grp) (v : BitVec 16) (s : State) : Host.Outcome State Fault Refusal :=
  s.after dt (·.hostCmd (grpB g + R.SEN_DMA_PTR.reg) (·.dmaRptr g v.toNat))

/-- ACC_CLR (R133): A write of acc_clr sets an accumulator's sum and count to 0. -/
def execAccClr (dt : Nat) (g : Grp) (a : Fin 4) (s : State) : Host.Outcome State Fault Refusal :=
  s.after dt (·.hostCmd (grpB g + R.SEN_ACC_CTL.reg + a.val) (·.accRestart g a))

/-- SPLIT_LO_READ (R9): A read of the LO word of a split value copies its HI word into the port's holding register
and, with acc_restart, restarts the accumulator. -/
def execSplitLoRead (dt : Nat) (p : Port) (addr : BitVec 24) (s : State) : Host.Outcome State Fault Refusal :=
  s.after dt (·.portRead p addr.toNat)

/-- SPLIT_HI_READ (R9): A read of the HI word returns the held copy, or the live value with TEAR_RISK. -/
def execSplitHiRead (dt : Nat) (p : Port) (addr : BitVec 24) (s : State) : Host.Outcome State Fault Refusal :=
  s.after dt (·.portRead p addr.toNat)

end Sys2Proof.Machine
end

