-- ==== Sys2Proof/Machine/Dispatch.lean ====
section
/-! DEFINITION. The meaning of each command: one arm a row of spec/opcode_table.json. -/

namespace Sys2Proof.Machine

/-- The effect of a command on everything but the queue. -/
def exec (i : Instr) (s : State) : Host.Outcome State Fault Refusal :=
  match i with
  | .arm dt c => Sys2Proof.Machine.execArm dt c s
  | .disarm dt c => Sys2Proof.Machine.execDisarm dt c s
  | .start dt c => Sys2Proof.Machine.execStart dt c s
  | .stop dt c => Sys2Proof.Machine.execStop dt c s
  | .safe dt c => Sys2Proof.Machine.execSafe dt c s
  | .clear dt c => Sys2Proof.Machine.execClear dt c s
  | .copyShadow dt c => Sys2Proof.Machine.execCopyShadow dt c s
  | .copyShadowDone dt c => Sys2Proof.Machine.execCopyShadowDone dt c s
  | .clusterBadCmd dt c => Sys2Proof.Machine.execClusterBadCmd dt c s
  | .armTimeoutExpiry dt c => Sys2Proof.Machine.execArmTimeoutExpiry dt c s
  | .restConditionMet dt c => Sys2Proof.Machine.execRestConditionMet dt c s
  | .run dt => Sys2Proof.Machine.execRun dt s
  | .halt dt => Sys2Proof.Machine.execHalt dt s
  | .resume dt => Sys2Proof.Machine.execResume dt s
  | .recover dt => Sys2Proof.Machine.execRecover dt s
  | .clusterSwapRequest dt c ecc => Sys2Proof.Machine.execClusterSwapRequest dt c ecc s
  | .clusterSwapTakesEffect dt c => Sys2Proof.Machine.execClusterSwapTakesEffect dt c s
  | .deviceSwapRequest dt ecc => Sys2Proof.Machine.execDeviceSwapRequest dt ecc s
  | .deviceSwapAtFrame dt => Sys2Proof.Machine.execDeviceSwapAtFrame dt s
  | .busAbsent dt r => Sys2Proof.Machine.execBusAbsent dt r s
  | .busPresent dt r => Sys2Proof.Machine.execBusPresent dt r s
  | .linkFrame dt d toKilid bad => Sys2Proof.Machine.execLinkFrame dt d toKilid bad s
  | .linkLoss dt d => Sys2Proof.Machine.execLinkLoss dt d s
  | .linkRetrainAttempt dt d => Sys2Proof.Machine.execLinkRetrainAttempt dt d s
  | .linkRestored dt d => Sys2Proof.Machine.execLinkRestored dt d s
  | .linkLaneRetraining dt d toKilid lane => Sys2Proof.Machine.execLinkLaneRetraining dt d toKilid lane s
  | .driveSupplyLoss dt d => Sys2Proof.Machine.execDriveSupplyLoss dt d s
  | .supplyMonitorCrossing dt m low => Sys2Proof.Machine.execSupplyMonitorCrossing dt m low s
  | .vddcReset dt => Sys2Proof.Machine.execVddcReset dt s
  | .resetNAssert dt => Sys2Proof.Machine.execResetNAssert dt s
  | .resetNRelease dt sess => Sys2Proof.Machine.execResetNRelease dt sess s
  | .syncEdge dt long => Sys2Proof.Machine.execSyncEdge dt long s
  | .syncWindowClose dt => Sys2Proof.Machine.execSyncWindowClose dt s
  | .frameBoundary dt wrongLevel => Sys2Proof.Machine.execFrameBoundary dt wrongLevel s
  | .edgeTimeCommit dt n k => Sys2Proof.Machine.execEdgeTimeCommit dt n k s
  | .graticuleFiring dt n k => Sys2Proof.Machine.execGraticuleFiring dt n k s
  | .ratioCrossing dt n => Sys2Proof.Machine.execRatioCrossing dt n s
  | .counterZero dt n p => Sys2Proof.Machine.execCounterZero dt n p s
  | .periodEvent dt n p => Sys2Proof.Machine.execPeriodEvent dt n p s
  | .compareApply dt n => Sys2Proof.Machine.execCompareApply dt n s
  | .sectorBoundary dt n => Sys2Proof.Machine.execSectorBoundary dt n s
  | .latClr dt n => Sys2Proof.Machine.execLatClr dt n s
  | .pwmCntClr dt n => Sys2Proof.Machine.execPwmCntClr dt n s
  | .conversionResultReady dt g r => Sys2Proof.Machine.execConversionResultReady dt g r s
  | .sequenceTrigger dt g inj => Sys2Proof.Machine.execSequenceTrigger dt g inj s
  | .sequenceEntryIssue dt g => Sys2Proof.Machine.execSequenceEntryIssue dt g s
  | .urgentRequest dt g => Sys2Proof.Machine.execUrgentRequest dt g s
  | .swReg dt g => Sys2Proof.Machine.execSwReg dt g s
  | .swInj dt g => Sys2Proof.Machine.execSwInj dt g s
  | .senCntClr dt g => Sys2Proof.Machine.execSenCntClr dt g s
  | .calibrationStep dt g refOk => Sys2Proof.Machine.execCalibrationStep dt g refOk s
  | .calibrationHandover dt g diff => Sys2Proof.Machine.execCalibrationHandover dt g diff s
  | .ampCheck dt n spareOk diff => Sys2Proof.Machine.execAmpCheck dt n spareOk diff s
  | .ampCheckTimeout dt n => Sys2Proof.Machine.execAmpCheckTimeout dt n s
  | .ampSubstitution dt n => Sys2Proof.Machine.execAmpSubstitution dt n s
  | .dmaWrite dt g => Sys2Proof.Machine.execDmaWrite dt g s
  | .dmaRptrWrite dt g v => Sys2Proof.Machine.execDmaRptrWrite dt g v s
  | .accClr dt g a => Sys2Proof.Machine.execAccClr dt g a s
  | .splitLoRead dt p addr => Sys2Proof.Machine.execSplitLoRead dt p addr s
  | .splitHiRead dt p addr => Sys2Proof.Machine.execSplitHiRead dt p addr s
  | .hallEdge dt n code => Sys2Proof.Machine.execHallEdge dt n code s
  | .hallStopTimeout dt n => Sys2Proof.Machine.execHallStopTimeout dt n s
  | .encoderCountEdge dt n q => Sys2Proof.Machine.execEncoderCountEdge dt n q s
  | .encoderIndex dt n => Sys2Proof.Machine.execEncoderIndex dt n s
  | .sensorTransfer dt n ago w => Sys2Proof.Machine.execSensorTransfer dt n ago w s
  | .sensorSlaveWord dt p bits ago w => Sys2Proof.Machine.execSensorSlaveWord dt p bits ago w s
  | .zcWindowExpiry dt n => Sys2Proof.Machine.execZcWindowExpiry dt n s
  | .trackerConversion dt n => Sys2Proof.Machine.execTrackerConversion dt n s
  | .probeEnd dt n => Sys2Proof.Machine.execProbeEnd dt n s
  | .alignDone dt n => Sys2Proof.Machine.execAlignDone dt n s
  | .polarityPulse dt n peakPlus peakMinus => Sys2Proof.Machine.execPolarityPulse dt n peakPlus peakMinus s
  | .startTimeout dt n => Sys2Proof.Machine.execStartTimeout dt n s
  | .startRetry dt n => Sys2Proof.Machine.execStartRetry dt n s
  | .stall dt n => Sys2Proof.Machine.execStall dt n s
  | .controlResume dt n => Sys2Proof.Machine.execControlResume dt n s
  | .reacqWindowExpiry dt n => Sys2Proof.Machine.execReacqWindowExpiry dt n s
  | .jobRelease dt j => Sys2Proof.Machine.execJobRelease dt j s
  | .curJob dt n => Sys2Proof.Machine.execCurJob dt n s
  | .obsJob dt n => Sys2Proof.Machine.execObsJob dt n s
  | .spdJob dt n => Sys2Proof.Machine.execSpdJob dt n s
  | .posJob dt n => Sys2Proof.Machine.execPosJob dt n s
  | .profJob dt a => Sys2Proof.Machine.execProfJob dt a s
  | .ccurJob dt n => Sys2Proof.Machine.execCcurJob dt n s
  | .cvoltJob dt n => Sys2Proof.Machine.execCvoltJob dt n s
  | .thermJob dt o => Sys2Proof.Machine.execThermJob dt o s
  | .atlasJob dt n => Sys2Proof.Machine.execAtlasJob dt n s
  | .traceJob dt u => Sys2Proof.Machine.execTraceJob dt u s
  | .ltestJob dt l good => Sys2Proof.Machine.execLtestJob dt l good s
  | .laneFail dt l => Sys2Proof.Machine.execLaneFail dt l s
  | .laneRateWindow dt l count => Sys2Proof.Machine.execLaneRateWindow dt l count s
  | .stewardPoolTest dt => Sys2Proof.Machine.execStewardPoolTest dt s
  | .sheetWindowWrite dt off w => Sys2Proof.Machine.execSheetWindowWrite dt off w s
  | .sheetCheck dt sheet => Sys2Proof.Machine.execSheetCheck dt sheet s
  | .sheetCheckDone dt ecc => Sys2Proof.Machine.execSheetCheckDone dt ecc s
  | .atlasFillComplete dt n ecc => Sys2Proof.Machine.execAtlasFillComplete dt n ecc s
  | .sheetMiss dt n => Sys2Proof.Machine.execSheetMiss dt n s
  | .bankSwap dt n g => Sys2Proof.Machine.execBankSwap dt n g s
  | .rowGroupSubstitution dt pos ecc => Sys2Proof.Machine.execRowGroupSubstitution dt pos ecc s
  | .move dt a => Sys2Proof.Machine.execMove dt a s
  | .axisStop dt a => Sys2Proof.Machine.execAxisStop dt a s
  | .setV dt a => Sys2Proof.Machine.execSetV dt a s
  | .setA dt a => Sys2Proof.Machine.execSetA dt a s
  | .speed dt a => Sys2Proof.Machine.execSpeed dt a s
  | .append dt a => Sys2Proof.Machine.execAppend dt a s
  | .routeStart dt a openRoute => Sys2Proof.Machine.execRouteStart dt a openRoute s
  | .routeLoad dt a route => Sys2Proof.Machine.execRouteLoad dt a route s
  | .routeClear dt a => Sys2Proof.Machine.execRouteClear dt a s
  | .home dt a => Sys2Proof.Machine.execHome dt a s
  | .setPos dt a => Sys2Proof.Machine.execSetPos dt a s
  | .motionBadCmd dt a => Sys2Proof.Machine.execMotionBadCmd dt a s
  | .dwellEnd dt a => Sys2Proof.Machine.execDwellEnd dt a s
  | .indexerEmission dt k => Sys2Proof.Machine.execIndexerEmission dt k s
  | .chopperOnPhaseEnd dt k coil => Sys2Proof.Machine.execChopperOnPhaseEnd dt k coil s
  | .chopperOffTimeEnd dt k coil => Sys2Proof.Machine.execChopperOffTimeEnd dt k coil s
  | .zeroCurrentWindowEnd dt k coil code => Sys2Proof.Machine.execZeroCurrentWindowEnd dt k coil code s
  | .standbyTimeout dt k => Sys2Proof.Machine.execStandbyTimeout dt k s
  | .bridgeOvercurrent dt h => Sys2Proof.Machine.execBridgeOvercurrent dt h s
  | .bridgeSegmentFault dt h seg => Sys2Proof.Machine.execBridgeSegmentFault dt h seg s
  | .stepperSpareSegmentIn dt h => Sys2Proof.Machine.execStepperSpareSegmentIn dt h s
  | .gatePhaseEnd dt o => Sys2Proof.Machine.execGatePhaseEnd dt o s
  | .gateSegmentShareFault dt o sink seg => Sys2Proof.Machine.execGateSegmentShareFault dt o sink seg s
  | .gateSegmentSubstitution dt o sink => Sys2Proof.Machine.execGateSegmentSubstitution dt o sink s
  | .gateFault dt o => Sys2Proof.Machine.execGateFault dt o s
  | .prechargeEnd dt n => Sys2Proof.Machine.execPrechargeEnd dt n s
  | .bootstrapComparator dt n p low => Sys2Proof.Machine.execBootstrapComparator dt n p low s
  | .desatTrip dt o => Sys2Proof.Machine.execDesatTrip dt o s
  | .hardShortTrip dt o => Sys2Proof.Machine.execHardShortTrip dt o s
  | .softOffEnd dt o => Sys2Proof.Machine.execSoftOffEnd dt o s
  | .knownShortClr dt n => Sys2Proof.Machine.execKnownShortClr dt n s
  | .activeShortTurnOn dt n => Sys2Proof.Machine.execActiveShortTurnOn dt n s
  | .holdPumpTimeout dt n => Sys2Proof.Machine.execHoldPumpTimeout dt n s
  | .vccHoldLoss dt r => Sys2Proof.Machine.execVccHoldLoss dt r s
  | .busOv1 dt r => Sys2Proof.Machine.execBusOv1 dt r s
  | .busBelowOv1Hyst dt r => Sys2Proof.Machine.execBusBelowOv1Hyst dt r s
  | .busOv2 dt r => Sys2Proof.Machine.execBusOv2 dt r s
  | .ov2HoldExpiry dt r => Sys2Proof.Machine.execOv2HoldExpiry dt r s
  | .busOv3 dt r => Sys2Proof.Machine.execBusOv3 dt r s
  | .ov3Clr dt r => Sys2Proof.Machine.execOv3Clr dt r s
  | .chopClr dt r => Sys2Proof.Machine.execChopClr dt r s
  | .chopperEffectCheck dt r before after => Sys2Proof.Machine.execChopperEffectCheck dt r before after s
  | .rbsRise dt r => Sys2Proof.Machine.execRbsRise dt r s
  | .rbsFall dt r => Sys2Proof.Machine.execRbsFall dt r s
  | .rbsReverse dt r => Sys2Proof.Machine.execRbsReverse dt r s
  | .rbsReverseRecovery dt r => Sys2Proof.Machine.execRbsReverseRecovery dt r s
  | .vloOvervoltage dt n => Sys2Proof.Machine.execVloOvervoltage dt n s
  | .vloOvRecovery dt n => Sys2Proof.Machine.execVloOvRecovery dt n s
  | .eClr dt n => Sys2Proof.Machine.execEClr dt n s
  | .thermalPass dt t => Sys2Proof.Machine.execThermalPass dt t s
  | .carrierFrequencyChange dt n => Sys2Proof.Machine.execCarrierFrequencyChange dt n s
  | .coldBlockEnd dt c => Sys2Proof.Machine.execColdBlockEnd dt c s
  | .pulseHoldExpiry dt e => Sys2Proof.Machine.execPulseHoldExpiry dt e s
  | .stickyClear dt k w => Sys2Proof.Machine.execStickyClear dt k w s
  | .guyLineWireFault dt e => Sys2Proof.Machine.execGuyLineWireFault dt e s
  | .guyLineFaultEnd dt e => Sys2Proof.Machine.execGuyLineFaultEnd dt e s
  | .clockCheck dt v => Sys2Proof.Machine.execClockCheck dt v s
  | .lanternToggle dt => Sys2Proof.Machine.execLanternToggle dt s
  | .faultNInputLow dt => Sys2Proof.Machine.execFaultNInputLow dt s
  | .logbookHourly dt => Sys2Proof.Machine.execLogbookHourly dt s
  | .logNow dt => Sys2Proof.Machine.execLogNow dt s
  | .logbookWriteStart dt => Sys2Proof.Machine.execLogbookWriteStart dt s
  | .logbookWriteComplete dt ok => Sys2Proof.Machine.execLogbookWriteComplete dt ok s
  | .logbookWriteTimeout dt => Sys2Proof.Machine.execLogbookWriteTimeout dt s
  | .parameterTableRead dt valid => Sys2Proof.Machine.execParameterTableRead dt valid s
  | .flashNoAnswer dt => Sys2Proof.Machine.execFlashNoAnswer dt s
  | .octalSwitch dt ok => Sys2Proof.Machine.execOctalSwitch dt ok s
  | .headerCheck dt => Sys2Proof.Machine.execHeaderCheck dt s
  | .imageStreamComplete dt => Sys2Proof.Machine.execImageStreamComplete dt s
  | .imagePostChecks dt => Sys2Proof.Machine.execImagePostChecks dt s
  | .logbookRestore dt => Sys2Proof.Machine.execLogbookRestore dt s
  | .monitorSamplingEnd dt => Sys2Proof.Machine.execMonitorSamplingEnd dt s
  | .bootLoad dt => Sys2Proof.Machine.execBootLoad dt s
  | .autoHold dt hold => Sys2Proof.Machine.execAutoHold dt hold s
  | .autostartArm dt c => Sys2Proof.Machine.execAutostartArm dt c s
  | .autostartArmRetry dt c => Sys2Proof.Machine.execAutostartArmRetry dt c s
  | .autostartRestart dt c => Sys2Proof.Machine.execAutostartRestart dt c s
  | .program dt arg otpOk => Sys2Proof.Machine.execProgram dt arg otpOk s
  | .seal dt arg otpOk => Sys2Proof.Machine.execSeal dt arg otpOk s
  | .retire dt arg otpOk => Sys2Proof.Machine.execRetire dt arg otpOk s
  | .revoke dt arg otpOk => Sys2Proof.Machine.execRevoke dt arg otpOk s
  | .advance dt arg otpOk => Sys2Proof.Machine.execAdvance dt arg otpOk s
  | .trngRead dt p => Sys2Proof.Machine.execTrngRead dt p s
  | .trngHealthFail dt => Sys2Proof.Machine.execTrngHealthFail dt s
  | .authLockoutEnd dt => Sys2Proof.Machine.execAuthLockoutEnd dt s
  | .canAnnouncement dt => Sys2Proof.Machine.execCanAnnouncement dt s
  | .chainFrame dt edges w => Sys2Proof.Machine.execChainFrame dt edges w s
  | .nop dt => Sys2Proof.Machine.execNop dt s
  | .setpoint dt arg => Sys2Proof.Machine.execSetpoint dt arg s
  | .addr dt arg => Sys2Proof.Machine.execAddr dt arg s
  | .wrLo dt arg => Sys2Proof.Machine.execWrLo dt arg s
  | .wrHi dt arg => Sys2Proof.Machine.execWrHi dt arg s
  | .rdLo dt => Sys2Proof.Machine.execRdLo dt s
  | .rdHi dt => Sys2Proof.Machine.execRdHi dt s
  | .packetFrame dt edges w => Sys2Proof.Machine.execPacketFrame dt edges w s
  | .pollFrame dt edges => Sys2Proof.Machine.execPollFrame dt edges s
  | .read dt addr => Sys2Proof.Machine.execRead dt addr s
  | .write dt addr w => Sys2Proof.Machine.execWrite dt addr w s
  | .readBurst dt addr n => Sys2Proof.Machine.execReadBurst dt addr n s
  | .writeBurst dt addr w => Sys2Proof.Machine.execWriteBurst dt addr w s
  | .bulkRead dt target addr n => Sys2Proof.Machine.execBulkRead dt target addr n s
  | .bulkWrite dt target addr w => Sys2Proof.Machine.execBulkWrite dt target addr w s
  | .nvmErase4k dt addr => Sys2Proof.Machine.execNvmErase4k dt addr s
  | .nvmErase64k dt addr => Sys2Proof.Machine.execNvmErase64k dt addr s
  | .holdClr dt => Sys2Proof.Machine.execHoldClr dt s
  | .packetComplete dt => Sys2Proof.Machine.execPacketComplete dt s
  | .memoryPortGrant dt => Sys2Proof.Machine.execMemoryPortGrant dt s
  | .flashStatusPoll dt busy failed => Sys2Proof.Machine.execFlashStatusPoll dt busy failed s
  | .nvmTimeout dt => Sys2Proof.Machine.execNvmTimeout dt s
  | .canFrameReceived dt n ago f => Sys2Proof.Machine.execCanFrameReceived dt n ago f s
  | .routeTimeout dt n k => Sys2Proof.Machine.execRouteTimeout dt n k s
  | .canElementRead dt p off => Sys2Proof.Machine.execCanElementRead dt p off s
  | .fifoGetWrite dt n f v => Sys2Proof.Machine.execFifoGetWrite dt n f v s
  | .txReq dt n mask => Sys2Proof.Machine.execTxReq dt n mask s
  | .txCancel dt n mask => Sys2Proof.Machine.execTxCancel dt n mask s
  | .txPeriodExpiry dt n b => Sys2Proof.Machine.execTxPeriodExpiry dt n b s
  | .txAttemptEnd dt n b r => Sys2Proof.Machine.execTxAttemptEnd dt n b r s
  | .canRecover dt n => Sys2Proof.Machine.execCanRecover dt n s
  | .busOffRecoveryDone dt n => Sys2Proof.Machine.execBusOffRecoveryDone dt n s
  | .canModeWrite dt n mode => Sys2Proof.Machine.execCanModeWrite dt n mode s
  | .canModeChange dt n => Sys2Proof.Machine.execCanModeChange dt n s
  | .scheduleMark dt n col => Sys2Proof.Machine.execScheduleMark dt n col s
  | .schedMiss dt n => Sys2Proof.Machine.execSchedMiss dt n s
  | .referenceMessage dt n cycle => Sys2Proof.Machine.execReferenceMessage dt n cycle s
  | .referenceLost dt n => Sys2Proof.Machine.execReferenceLost dt n s
  | .traceArm dt u => Sys2Proof.Machine.execTraceArm dt u s
  | .traceSoft dt u => Sys2Proof.Machine.execTraceSoft dt u s
  | .traceStop dt u => Sys2Proof.Machine.execTraceStop dt u s
  | .registerWrite dt p addr w => Sys2Proof.Machine.execRegisterWrite dt p addr w s
  | .faultNInputHigh dt => Sys2Proof.Machine.execFaultNInputHigh dt s
  | .canBusIntegration dt n => Sys2Proof.Machine.execCanBusIntegration dt n s
  | .canBusError dt n e dataPhase flagDom => Sys2Proof.Machine.execCanBusError dt n e dataPhase flagDom s
  | .coilZeroCurrentLevel dt k coil => Sys2Proof.Machine.execCoilZeroCurrentLevel dt k coil s
  | .chopperMinimumTimeEnd dt r => Sys2Proof.Machine.execChopperMinimumTimeEnd dt r s
  | .deviceBadCmd dt => Sys2Proof.Machine.execDeviceBadCmd dt s
  | .secBadCmd dt => Sys2Proof.Machine.execSecBadCmd dt s

end Sys2Proof.Machine
end

