-- ==== Sys2Proof/Safety.lean ====
section
/-! DEFINITION. What counts as a sound state and as a run that goes on, and the terms in which statements about commands are
made. -/

namespace Sys2Proof.Machine

/-- The invariant of the machine's memories: the store of register and memory words is in its canonical form, and so is the
flash. -/
def State.Sound (s : State) : Prop := Memory.wf s.store = true ∧ Flash.wf s.flash = true

/-- A step goes on: it answers a next state. -/
def goesOn (s : State) : Prop := ∃ t, step s = .next t

/-- Every command that waits is well-formed. -/
def State.queueOk (s : State) : Prop := ∀ c ∈ s.pending, c.wf = true

/-! ## Effects

A statement about a command speaks of the state `u = s.elapse dt` at its instant and of its effect `e`, from which `done`
makes the next state: the reactions to what the effect has raised follow, and nothing else (R321). -/

/-- The command answers a next state, and `P` holds of its effect. -/
def State.Gives (s : State) (c : Instr) (dt : Nat) (P : State → Prop) : Prop := ∃ e, exec c s = .next (s.done dt e) ∧ P e

/-- The host's commands are judged: the device is in READY, RUN, BIVOUAC or RECOVERY, nothing executes on the host port
(R392), and the device is not RETIRED (R381). -/
abbrev State.hostOpen (u : State) : Prop :=
  (u.dev.st = .ready ∨ u.dev.st = .run ∨ u.dev.st = .bivouac ∨ u.dev.st = .recovery) ∧ u.hp.exec = none ∧ u.sec.life ≠ 2

/-- The state in which an accepted command of the host acts: its answer is OK, without flags and data. -/
def State.asked (u : State) : State :=
  { u with data := [], tear := false, range := false, authed := false, status := .ok }

/-- The effect `e` differs from `u` in words only: those that `f` names, which have the values that it gives. -/
def State.wrote (u e : State) (f : Nat → Option Word) : Prop :=
  e = { u with store := e.store } ∧ ∀ k, e.word k = (f k).getD (u.word k)

/-- Of the clusters, those of `cs` whose state is one of `ok` have moved to `goal` with the cause, and no other. -/
def State.moved (u e : State) (cs : List Cl) (ok : CState → Bool) (goal : CState) (cause : Nat) : Prop :=
  ∀ y : Cl, if y ∈ cs ∧ ok (u.cl[y]).st = true then (e.cl[y]).st = goal ∧ (e.cl[y]).cause = cause
    else e.cl[y] = u.cl[y]

/-- What the machine holds outside its drive clusters and lanes: flash, security module, CAN controllers, sensor ports,
memory port, host port, boot loader, sheets and their rows. -/
def State.outer (s : State) :=
  (s.flash, s.sec, s.can, s.sp, s.mp, s.hp, s.boot, s.imgSheets, s.rowMap, s.rowDead, s.atlChk)

/-- The gate outputs of every cluster but one are as before. -/
def State.gatesBut (u : State) (n : Mcn) (e : State) : Prop :=
  ∀ o : Fin 40, (∀ sw : Fin 6, o ≠ swOut n sw) → e.gates[o] = u.gates[o]

/-- Nothing is left to react to: no event raised, no start that has completed, no recovery to begin again. -/
def State.quiet (e : State) : Prop :=
  e.raised = [] ∧ (∀ c : Cl, (e.cl[c]).st ≠ .starting) ∧ ∀ n : Mcn, (e.mc[n]).est.again = false

end Sys2Proof.Machine
end

