-- ==== Sys2Proof/Certificates/Slice0/Obligations.lean ====
section
/-! DEFINITION. The statements about the model. Each speaks of every state: `s` is the state that a command finds, `dt` the
time since the previous one in ticks of 2 ns, `u` the state at the command's instant, `e` its effect before the reactions.
The claims of one subject are the parts of one obligation. -/

open Sys2Proof Sys2Proof.Machine

/-! ## The machine as a whole -/

/-- The row's interface: a step runs the front command with the rest of the queue left to wait, and idles on an empty
queue. -/
def Obligations.FrontCommandRuns : Prop :=
  (∀ (c : Instr) (rest : List Instr) (s : State),
      step { s with pending := c :: rest } = exec c { s with pending := rest })
    ∧ ∀ s : State, s.pending = [] → step s = .next s

/-- Every well-formed command answers a next state: the queue is left alone, time does not go back, and the memories are in
their canonical form. -/
def Sys2Proof.Claims.WellFormedCommandsComplete : Prop :=
  ∀ (c : Instr) (s : State), c.wf = true →
    ∃ t, exec c s = .next t ∧ t.pending = s.pending ∧ s.now ≤ t.now ∧ t.authed = false ∧ t.Sound

/-- A frame that no bus can carry ends in a fault (a convention of the model, log 16). -/
def Sys2Proof.Claims.ImpossibleFrameFaults : Prop :=
  ∀ (dt : Nat) (n : Can) (ago : Nat) (f : Frame) (s : State), f.ok = false →
    exec (.canFrameReceived dt n ago f) s = .fault .illFormed

/-- Every well-formed command answers a next state; a frame that no bus can carry faults. -/
def Obligations.CommandsComplete : Prop :=
  Claims.WellFormedCommandsComplete ∧ Claims.ImpossibleFrameFaults

/-- Every step keeps the canonical form of the two memories. -/
def Obligations.StepKeepsSound : Prop := ∀ s t : State, s.Sound → step s = .next t → t.Sound

/-- The lifecycle state and the rollback counter are held in OTP and only ever advance (R368): whatever a step does. -/
def Obligations.LifecycleOnlyAdvances : Prop :=
  ∀ s t : State, step s = .next t → s.sec.life ≤ t.sec.life ∧ s.sec.rb ≤ t.sec.rb

/-- The machine after reset: OFF with every cluster UNUSED and every gate off, no link, empty queue, memories canonical. -/
def Sys2Proof.Claims.ResetState : Prop :=
  State.reset.Sound ∧ State.reset.dev.st = .off ∧ State.reset.pending = []
    ∧ (∀ c : Cl, (State.reset.cl[c]).st = .unused) ∧ (∀ o : Fin 40, ((State.reset.gates[o]).phase).isOn = false)
    ∧ (∀ k, State.reset.word k = regReset k) ∧ ∀ k, flashByte State.reset.flash k = 255

/-- Reset (R25, R345, R444): to OFF with the flash and the OTP as they are, and from OFF to BASECAMP. -/
def Sys2Proof.Claims.ResetAndRelease : Prop :=
  ∀ (s : State) (dt : Nat), let u := s.elapse dt
    let off (e : State) : Prop :=
      e.dev.st = .off ∧ (∀ c : Cl, (e.cl[c]).st = .unused) ∧ e.flash = u.flash ∧ e.sec.life = u.sec.life
        ∧ e.sec.rb = u.sec.rb ∧ e.sec.slots = u.sec.slots ∧ e.hp.exec = none ∧ e.boot.phase = .idle
    (u.dev.st ≠ .off → s.Gives (.vddcReset dt) dt off ∧ s.Gives (.resetNAssert dt) dt off)
      ∧ (u.dev.st = .off → ∀ sess : BitVec 64, s.Gives (.resetNRelease dt sess) dt fun e =>
          e.dev.st = .basecamp ∧ e.dev.cause = 0 ∧ e.boot.phase = .params ∧ e.boot.relAt = u.now ∧ e.sec.sess = sess
            ∧ e.sec.fresh = 0 ∧ e.sec.life = u.sec.life ∧ e.sec.slots = u.sec.slots ∧ e.flash = u.flash ∧ e.cl = u.cl)

/-- Reset: the machine after reset, the assertions of reset and the release of RESET_N. -/
def Obligations.ResetAndRelease : Prop :=
  Claims.ResetState ∧ Claims.ResetAndRelease

/-- A word reads as it was written and a field as it was set; every other word, and every field of the same word that shares
no bit with it, reads as before; and a byte of the flash likewise. -/
def Obligations.ReadAfterWrite : Prop :=
  (∀ (s : State) (a k : Nat) (w : Word), (s.setWord a w).word k = if k = a then w else s.word k)
    ∧ (∀ (s : State) (b : Nat) (f g : Fld) (v : Nat), f.lo + f.w ≤ 32 →
        (s.setF b f v).f b f = v % 2 ^ f.w
          ∧ (g.off ≠ f.off ∨ g.lo + g.w ≤ f.lo ∨ f.lo + f.w ≤ g.lo → (s.setF b f v).f b g = s.f b g))
    ∧ ∀ (m : List Host.Cell) (a k : Nat) (v : BitVec 8),
        flashByte (putByte m a v) k = if k = a then v.toNat else flashByte m k

/-- Where nothing is left to react to, the next state is the effect: only LANTERN may light (R327), and every word and byte
reads as the effect left it. -/
def Sys2Proof.Claims.QuietEffectStands : Prop :=
  ∀ (s e : State) (dt : Nat), e.quiet →
    (∃ l : Bool, s.done dt e = { e with
        store := canonWords e.store, flash := canonCells e.flash, pending := s.pending, now := s.now + dt, authed := false
        dev := { e.dev with lantern := l } })
      ∧ (∀ k, (s.done dt e).word k = e.word k)
      ∧ ∀ k, flashByte (s.done dt e).flash k = flashByte e.flash k

/-- Time that passes changes nothing but the timebase and the time of operation (R336), where no edge of a leg (R84), no end of
a test pulse (R58) and no fast decay (R239) comes in it. -/
def Sys2Proof.Claims.TimePasses : Prop :=
  ∀ (s : State) (dt : Nat), 
    (∀ n : Mcn, (∀ e ∈ (s.mc[n]).pwm.edges, ((s.now + dt : Nat) : Int) * 16 < e.1) ∧ ∀ x ∈ (s.mc[n]).pulse, s.now + dt < x.2) →
    (∀ (k : Chan) (x : Fin 2), ((s.stp[k]).coils[x]).chop ≠ .fast) →
    s.elapse dt = { s with
      now := s.now + dt
      log := { s.log with opTicks := s.log.opTicks + (if s.dev.st.operates then dt else 0) } }

/-- With nothing to react to, the effect stands; time alone changes only the clocks. -/
def Obligations.ReactionsAndTime : Prop :=
  Claims.QuietEffectStands ∧ Claims.TimePasses

/-! ## Clusters (01_architecture) -/

/-- ARM, where every check of R23 holds: the cluster, with its converter partner, moves to ARMED. -/
def Sys2Proof.Claims.ArmMovesToArmed : Prop :=
  ∀ (s : State) (dt : Nat) (c : Cl) (cs : List Cl), let u := s.elapse dt; let a := u.asked
    u.hostOpen → a.armGroup c = some cs → (∀ x ∈ cs, (u.cl[x]).st = .stopped) → u.dev.st ≠ .bivouac →
    a.fb (rgB (clRg c)) R.RG_PS_STAT.bus_absent = false →
    (∀ x ∈ cs, ∀ n, clMc x = some n → a.known n = 0 ∧ a.fb (mcB n) R.MC_GATE_SHORT.same_window = false) →
    (∀ x ∈ cs, a.faultIn x 3 false = false) → (∀ x ∈ cs, a.armPort x = true) → (∀ x ∈ cs, a.armReason x = 0) →
    s.Gives (.arm dt c) dt fun e =>
      e.status = .ok ∧ u.moved e cs (· == .stopped) .armed 1 ∧ (∀ x ∈ cs, (e.cl[x]).enteredAt = u.now)
        ∧ e.outer = u.outer

/-- The checks of an ARM in their order (R23): the first that fails gives the status, and nothing else changes, but for the
reason that the sixth records. -/
def Sys2Proof.Claims.ArmChecksInOrder : Prop :=
  ∀ (s : State) (dt : Nat) (c : Cl) (cs : List Cl), let u := s.elapse dt; let a := u.asked
    let stopped := (∀ x ∈ cs, (u.cl[x]).st = .stopped) ∧ u.dev.st ≠ .bivouac
    let bus := a.fb (rgB (clRg c)) R.RG_PS_STAT.bus_absent = false
    let known := ∀ x ∈ cs, ∀ n, clMc x = some n → a.known n = 0 ∧ a.fb (mcB n) R.MC_GATE_SHORT.same_window = false
    let faults := ∀ x ∈ cs, a.faultIn x 3 false = false
    let ports := ∀ x ∈ cs, a.armPort x = true
    u.hostOpen → a.armGroup c = some cs →
    (¬ stopped → s.Gives (.arm dt c) dt (· = a.answer .badState))
      ∧ (stopped → ¬ bus → s.Gives (.arm dt c) dt (· = a.answer .noBus))
      ∧ (stopped → bus → ¬ known → s.Gives (.arm dt c) dt (· = a.answer .knownShort))
      ∧ (stopped → bus → known → ¬ faults → s.Gives (.arm dt c) dt (· = a.answer .activeFault))
      ∧ (stopped → bus → known → faults → ¬ ports → s.Gives (.arm dt c) dt (· = a.answer .struct))
      ∧ (stopped → bus → known → faults → ports → ∀ x, cs.find? (fun x => a.armReason x != 0) = some x →
          s.Gives (.arm dt c) dt fun e =>
            e = { a with store := e.store, status := .swapReject }
              ∧ ∀ y ∈ cs, e.f (clB y) R.MC_SWAP.reject = 1 ∧ e.f (clB y) R.MC_SWAP.reason = a.armReason x % 16)

/-- ARM moves to ARMED when every check holds, and else answers the first check that fails. -/
def Obligations.ArmCommand : Prop :=
  Claims.ArmMovesToArmed ∧ Claims.ArmChecksInOrder

/-- R22, and R291 for the follower of a pair, which takes no command of its own. -/
def Obligations.RefusedStartsAndClears : Prop :=
  ∀ (s : State) (dt : Nat) (c : Cl) (cs : List Cl), let u := s.elapse dt; let a := u.asked
    u.hostOpen → a.cmdGroup c = some cs →
    ((u.cl[c]).st = .stopping → s.Gives (.start dt c) dt (· = a.answer .busyStop))
      ∧ ((u.cl[c]).st = .faulted →
          (∃ x ∈ cs, ∃ i < 256, a.asserted i = true ∧ 4 ≤ a.sev i ∧ x ∈ a.inScope i) →
          s.Gives (.clear dt c) dt fun e => e = a.answer .activeFault ∧ (e.cl[c]).st = .faulted)
      ∧ ((u.cl[c]).st = .safe → s.Gives (.clear dt c) dt (· = a.answer .badState))

/-- The state commands that name a transition (R20): DISARM, START, STOP, SAFE and CLEAR. -/
def Sys2Proof.Claims.StateCommandsMove : Prop :=
  ∀ (s : State) (dt : Nat) (c : Cl) (cs : List Cl), let u := s.elapse dt; let a := u.asked
    u.hostOpen → a.cmdGroup c = some cs →
    ((u.cl[c]).st = .armed → s.Gives (.disarm dt c) dt fun e =>
        e.status = .ok ∧ u.moved e cs (· == .armed) .stopped 1 ∧ e.outer = u.outer)
      ∧ ((u.cl[c]).st = .armed → (∀ x ∈ cs, a.coldBlocked x = false) → s.Gives (.start dt c) dt fun e =>
        e.status = .ok ∧ u.moved e cs (· == .armed) .starting 1 ∧ e.outer = u.outer)
      ∧ ((u.cl[c]).st = .starting ∨ (u.cl[c]).st = .running → s.Gives (.stop dt c) dt fun e =>
        e.status = .ok ∧ u.moved e cs (fun x => x == .starting || x == .running) .stopping 1
          ∧ (e.cl[c]).causeEvent = 0 ∧ e.outer = u.outer)
      ∧ ((u.cl[c]).st.active = true → s.Gives (.safe dt c) dt fun e =>
        e.status = .ok ∧ u.moved e cs CState.active .safe 1 ∧ (e.cl[c]).causeEvent = 0 ∧ e.outer = u.outer)
      ∧ ((u.cl[c]).st = .faulted → (∀ x ∈ cs, a.faultIn x 4 true = false) → s.Gives (.clear dt c) dt fun e =>
        e.status = .ok ∧ u.moved e cs (· == .faulted) .stopped 1 ∧ e.outer = u.outer)

/-- A state command that names no transition out of the present state is refused with BAD_STATE, and the cluster state does
not change (R20). -/
def Sys2Proof.Claims.StateCommandsRefused : Prop :=
  ∀ (s : State) (dt : Nat) (c : Cl), let u := s.elapse dt; let a := u.asked; let st := (u.cl[c]).st
    u.hostOpen →
    (st ≠ .armed → s.Gives (.disarm dt c) dt (· = a.answer .badState))
      ∧ (st ≠ .armed → st ≠ .stopping → s.Gives (.start dt c) dt (· = a.answer .badState))
      ∧ (st ≠ .starting → st ≠ .running → s.Gives (.stop dt c) dt (· = a.answer .badState))
      ∧ (st.active = false → s.Gives (.safe dt c) dt (· = a.answer .badState))
      ∧ (st ≠ .faulted → s.Gives (.clear dt c) dt (· = a.answer .badState))

/-- Two transitions by themselves: arm_timeout in ARMED, and the rest condition in STOPPING and SAFE (R20, R21), once what
the state holds of every cluster of the group admits it; before that nothing changes. (The model's choice, log 12: currents
under a stopped carrier are the event's own.) -/
def Sys2Proof.Claims.TimeoutAndRestMove : Prop :=
  ∀ (s : State) (dt : Nat) (c : Cl), let u := s.elapse dt; let cs := u.group c
    ((u.cl[c]).st = .armed → u.f (clB c) R.MC_CTRL.arm_timeout ≠ 0 →
        (u.cl[c]).enteredAt + 50000000 * u.f (clB c) R.MC_CTRL.arm_timeout ≤ u.now → s.Gives (.armTimeoutExpiry dt c) dt fun e =>
        u.moved e cs (· == .armed) .stopped 5 ∧ e.status = u.status ∧ e.outer = u.outer)
      ∧ (cs.all u.atRest = true → (u.cl[c]).st = .stopping → s.Gives (.restConditionMet dt c) dt fun e =>
        u.moved e cs (· == .stopping) .stopped 4 ∧ e.status = u.status ∧ e.outer = u.outer)
      ∧ (cs.all u.atRest = true → (u.cl[c]).st = .safe → s.Gives (.restConditionMet dt c) dt fun e =>
        u.moved e cs (· == .safe) .faulted 4 ∧ e.status = u.status ∧ e.outer = u.outer)
      ∧ (cs.all u.atRest = false → s.Gives (.restConditionMet dt c) dt (· = u))

/-- The state commands, arm_timeout and the rest condition move a cluster; out of their states the commands are refused. -/
def Obligations.StateCommands : Prop :=
  Claims.StateCommandsMove ∧ Claims.StateCommandsRefused ∧ Claims.TimeoutAndRestMove

/-- COPY_SHADOW (R20, R30): accepted in every state but UNUSED while no swap waits, it never changes the cluster state; when
it completes, each word of the shadow reads as that of the active set, and every other word as before. -/
def Sys2Proof.Claims.CopyShadowCopies : Prop :=
  ∀ (s : State) (dt : Nat) (c : Cl) (cs : List Cl), let u := s.elapse dt; let a := u.asked
    (u.hostOpen → a.cmdGroup c = some cs → (u.cl[c]).st ≠ .unused → (∀ x ∈ cs, a.setLocked x = false) →
        s.Gives (.copyShadow dt c) dt fun e =>
          e = { a with cl := e.cl }
            ∧ ∀ y : Cl, e.cl[y] = if y ∈ cs then { u.cl[y] with copying := true } else u.cl[y])
      ∧ (Memory.wf u.store = true → (u.cl[c]).st ≠ .unused → (u.cl[c]).copying = true →
        s.Gives (.copyShadowDone dt c) dt fun e =>
          e = { u with cl := e.cl, store := e.store }
            ∧ (∀ y : Cl, e.cl[y] = if y = c then { u.cl[y] with copying := false } else u.cl[y])
            ∧ (∀ n, clMc c = some n →
                (∀ o < 0x4000, e.word (u.shadow n + o) = u.word (u.act n + o))
                  ∧ ∀ k, ¬ (u.shadow n ≤ k ∧ k < u.shadow n + 0x4000) → e.word k = u.word k)
            ∧ (clMc c = none → ∀ k ∈ rgChans (clRg c), ∀ o < 0x400, e.word (u.shadowSt k + o) = u.word (u.actSt k + o)))

/-- A cluster swap (R28, R29, R31): a request whose checks pass waits, with no set changed; one that fails records its reason;
one while a set is locked is refused with SWAP_PEND; and at the sample boundary the sets that wait change roles. -/
def Sys2Proof.Claims.ClusterSwap : Prop :=
  ∀ (s : State) (dt : Nat) (c : Cl) (cs : List Cl) (ecc : Ecc), let u := s.elapse dt; let a := u.asked
    let v := (a.discardAll cs).answer .ok
    (u.hostOpen → a.cmdGroup c = some cs →
      ((∃ x ∈ cs, a.setLocked x = true) → s.Gives (.clusterSwapRequest dt c ecc) dt (· = a.answer .swapPend))
        ∧ ((∀ x ∈ cs, a.setLocked x = false) → (∀ x ∈ cs, v.swapReason cs.contains x = 0) → (fillAll ecc cs v).2 = none →
            s.Gives (.clusterSwapRequest dt c ecc) dt fun e =>
              e.status = .ok ∧ (∀ y ∈ cs, (e.cl[y]).swapPending = true ∧ e.f (clB y) R.MC_SWAP.reject = 0)
                ∧ (∀ y : Cl, (e.cl[y]).setB = (u.cl[y]).setB ∧ (e.cl[y]).st = (u.cl[y]).st) ∧ e.outer = u.outer)
        ∧ ((∀ x ∈ cs, a.setLocked x = false) → ∀ x, cs.find? (fun x => v.swapReason cs.contains x != 0) = some x →
            s.Gives (.clusterSwapRequest dt c ecc) dt fun e =>
              e.status = .ok ∧ e.cl = u.cl
                ∧ ∀ y ∈ cs, e.f (clB y) R.MC_SWAP.reject = 1
                  ∧ e.f (clB y) R.MC_SWAP.reason = v.swapReason cs.contains x % 16))
      ∧ ((u.cl[c]).st ≠ .unused → s.Gives (.clusterSwapTakesEffect dt c) dt fun e =>
          (∀ y : Cl, if y ∈ u.group c ∧ (u.cl[y]).swapPending = true
            then (e.cl[y]).setB = !(u.cl[y]).setB ∧ (e.cl[y]).swapPending = false ∧ (e.cl[y]).st = (u.cl[y]).st
            else e.cl[y] = u.cl[y]) ∧ e.status = u.status ∧ e.outer = u.outer)

/-- COPY_SHADOW and the cluster swap. -/
def Obligations.SetsOfACluster : Prop :=
  Claims.CopyShadowCopies ∧ Claims.ClusterSwap

/-- An undefined command code is refused with BAD_CMD and changes nothing but, on an axis of a cluster in use, the record of
the refusal (R20, R25, R224, R368). -/
def Obligations.UndefinedCommandsRefused : Prop :=
  ∀ (s : State) (dt : Nat), let u := s.elapse dt; let a := u.asked
    u.hostOpen →
    (∀ c, s.Gives (.clusterBadCmd dt c) dt (· = a.answer .badCmd))
      ∧ s.Gives (.deviceBadCmd dt) dt (· = a.answer .badCmd) ∧ s.Gives (.secBadCmd dt) dt (· = a.answer .badCmd)
      ∧ ∀ x : Axis, s.Gives (.motionBadCmd dt x) dt fun e =>
          e = { a with status := .badCmd, store := e.store }
            ∧ ∀ k, k ≠ moB x + R.MO_STAT.reg → k ≠ moB x + R.MO_STAT.refuse_count.off → e.word k = u.word k

/-! ## The device (01_architecture, 13) -/

/-- RUN, RESUME and HALT (R25): where clusters stand when a HALT has acted, active ones in SAFE and stopped ones in FAULTED (R20,
R26); a command that names no transition out of the present state is refused with BAD_STATE. -/
def Sys2Proof.Claims.DeviceCommands : Prop :=
  ∀ (s : State) (dt : Nat), let u := s.elapse dt; let a := u.asked
    let running (e : State) : Prop := e = { a with
      dev := { u.dev with st := .run, cause := 1 }, sync := { u.sync with cfgDue := true }
      auto := u.auto.map fun x => { x with armed := false, rearm := false, dueAt := u.now + 500000 * x.delay } }
    u.hostOpen →
    (u.dev.st = .ready → s.Gives (.run dt) dt running)
      ∧ (u.dev.st = .bivouac → a.haltAsserted = false → s.Gives (.resume dt) dt running)
      ∧ (u.dev.st = .ready ∨ u.dev.st = .run → s.Gives (.halt dt) dt fun e =>
          e.status = .ok ∧ e.dev = { u.dev with st := .bivouac, cause := 1, lantern := false }
            ∧ (∀ y : Cl,
                if (u.cl[y]).st.active = true then (e.cl[y]).st = .safe ∧ (e.cl[y]).cause = 1
                else if (u.cl[y]).st = .stopped then (e.cl[y]).st = .faulted ∧ (e.cl[y]).cause = 1
                else e.cl[y] = u.cl[y])
            ∧ e.log.pend.isSome = true ∧ e.outer = u.outer)
      ∧ (u.dev.st ≠ .ready → s.Gives (.run dt) dt (· = a.answer .badState))
      ∧ (u.dev.st ≠ .ready → u.dev.st ≠ .run → s.Gives (.halt dt) dt (· = a.answer .badState))
      ∧ (u.dev.st ≠ .bivouac → s.Gives (.resume dt) dt (· = a.answer .badState))

/-- RECOVER, a load by command, and the hold of the autostart rules (R25, R360, R362, R363). -/
def Sys2Proof.Claims.RecoverLoadAndHold : Prop :=
  ∀ (s : State) (dt : Nat), let u := s.elapse dt; let a := u.asked
    u.hostOpen →
    (u.dev.st ≠ .recovery → (∀ c : Cl, (u.cl[c]).st.active = false ∧ (u.cl[c]).st ≠ .safe) →
        s.Gives (.recover dt) dt fun e =>
          e.status = .ok ∧ e.dev.st = .recovery ∧ e.dev.cause = 1 ∧ e.flash = u.flash ∧ e.sec.life = u.sec.life
            ∧ e.sec.slots = u.sec.slots)
      ∧ (u.dev.st = .recovery → u.boot.phase = .idle → s.Gives (.bootLoad dt) dt fun e =>
          e.status = .ok ∧ e.boot.phase = .headers ∧ e.dev = u.dev ∧ e.cl = u.cl ∧ e.flash = u.flash ∧ e.sec = u.sec)
      ∧ (u.dev.st = .recovery → u.boot.phase ≠ .idle → s.Gives (.bootLoad dt) dt (· = a.answer .badState))
      ∧ (∀ hold : Bool, (hold = true ∨ ∀ c : Cl, (u.cl[c]).autoStart = false) → s.Gives (.autoHold dt hold) dt fun e =>
          e = { a with store := e.store } ∧ e.f pk R.DEV_BOOT_CTRL.auto_hold = b2n hold
            ∧ ∀ k, k ≠ R.DEV_BOOT_CTRL.reg → e.word k = u.word k)

/-- RUN, RESUME, HALT, RECOVER, the load by command and the hold of autostart. -/
def Obligations.DeviceCommands : Prop :=
  Claims.DeviceCommands ∧ Claims.RecoverLoadAndHold

/-- R27: RECOVER with a cluster in ARMED, STARTING, RUNNING, STOPPING or SAFE, and RESUME with a HALT source asserted. -/
def Obligations.RecoverAndResumeRefused : Prop :=
  ∀ (s : State) (dt : Nat), let u := s.elapse dt; let a := u.asked
    u.hostOpen →
    ((∃ c : Cl, (u.cl[c]).st.active = true ∨ (u.cl[c]).st = .safe) →
        s.Gives (.recover dt) dt (· = a.answer .busyRun))
      ∧ (u.dev.st = .bivouac → (∃ i < 256, a.asserted i = true ∧ a.sev i = 5) →
        s.Gives (.resume dt) dt (· = a.answer .activeFault))

/-- A pending swap excludes another that meets it (R33). -/
def Obligations.SwapsExcludeEachOther : Prop :=
  ∀ (s : State) (dt : Nat) (c : Cl) (ecc : Ecc), let u := s.elapse dt; let a := u.asked
    u.hostOpen →
    (∀ m f, u.dev.swap = some (m, f) → bitAt m c.val = true → a.cmdGroup c ≠ none →
        s.Gives (.clusterSwapRequest dt c ecc) dt (· = a.answer .swapPend))
      ∧ (bitAt (u.f pk R.DEV_SWAP.cluster_mask) c.val = true → (u.cl[c]).swapPending = true →
        s.Gives (.deviceSwapRequest dt ecc) dt (· = a.answer .swapPend))

/-- The device-wide swap (R32, R34, R35): its request waits for its frame, is refused, or is rejected with the first failing
unit, and no set has changed; at the frame every selected set changes. -/
def Obligations.DeviceSwap : Prop :=
  ∀ (s : State) (dt : Nat) (ecc : Ecc), let u := s.elapse dt; let a := u.asked
    let mask := u.f pk R.DEV_SWAP.cluster_mask; let cs := maskCls mask; let pkg := u.fb pk R.DEV_SWAP.package_set
    let frame := u.fb pk R.DEV_SWAP.use_frame
    let v := (a.discardAll cs).answer .ok
    let reason (c : Cl) : Nat :=
      if v.swapReason cs.contains c = 0 ∧ v.splitPair cs.contains c = true then 0xF else v.swapReason cs.contains c
    (u.hostOpen → u.dev.swap = none → (∀ x ∈ cs, a.setLocked x = false) →
      (frame = true → u.sync.lost = true → s.Gives (.deviceSwapRequest dt ecc) dt (· = a.answer .syncLost))
        ∧ (frame = true → u.sync.lost = false → a.framePast = true →
            s.Gives (.deviceSwapRequest dt ecc) dt (· = a.answer .framePast))
        ∧ ((frame = true → u.sync.lost = false ∧ a.framePast = false) →
            (∀ c, cs.find? (fun c => reason c != 0) = some c → s.Gives (.deviceSwapRequest dt ecc) dt fun e =>
              e.status = .ok ∧ e.cl = u.cl ∧ e.dev = u.dev ∧ e.f pk R.DEV_SWAP.reject = 1
                ∧ e.f pk R.DEV_SWAP.reject_unit = c.val ∧ e.f pk R.DEV_SWAP_STAT.reason = reason c % 16)
              ∧ ((∀ c ∈ cs, reason c = 0) → (pkg = true → pkgReason v (pkgB (!u.dev.pkgB)) = 0) → (fillAll ecc cs v).2 = none →
                s.Gives (.deviceSwapRequest dt ecc) dt fun e =>
                  e.status = .ok ∧ e.cl = u.cl ∧ e.dev.pkgB = u.dev.pkgB ∧ e.dev.st = u.dev.st
                    ∧ e.dev.swap.map Prod.fst = some (mask + 256 * b2n pkg) ∧ e.outer = u.outer)))
      ∧ (∀ m f, u.dev.st ≠ .off → u.dev.swap = some (m, f) → (∀ k, f = some k → k = u.sync.frame % 256) →
          s.Gives (.deviceSwapAtFrame dt) dt fun e =>
            (∀ y : Cl, if bitAt m y.val = true
              then (e.cl[y]).setB = !(u.cl[y]).setB ∧ (e.cl[y]).swapPending = false ∧ (e.cl[y]).st = (u.cl[y]).st
              else e.cl[y] = u.cl[y])
              ∧ e.dev = { u.dev with swap := none, pkgB := u.dev.pkgB != bitAt m 8 } ∧ e.outer = u.outer)

/-- The buses and the supplies (R15, R442). -/
def Obligations.BusesAndSupplies : Prop :=
  ∀ (s : State) (dt : Nat) (r : Rg), let u := s.elapse dt
    u.dev.st ≠ .off →
    s.Gives (.busAbsent dt r) dt (fun e =>
        u.moved e (rgCls r) CState.active .safe 8 ∧ 8 + r.val ∈ e.dev.supplyWarn ∧ e.status = u.status ∧ e.outer = u.outer)
      ∧ s.Gives (.busPresent dt r) dt (fun e =>
        e.f (rgB r) R.RG_PS_STAT.bus_absent = 0 ∧ 8 + r.val ∉ e.dev.supplyWarn ∧ e.cl = u.cl ∧ e.gates = u.gates
          ∧ e.outer = u.outer)
      ∧ ∀ (m : Fin 8) (low : Bool), s.Gives (.supplyMonitorCrossing dt m low) dt fun e =>
        (∀ i, i ∈ e.dev.supplyWarn ↔ if i = m.val then low = true else i ∈ u.dev.supplyWarn)
          ∧ e.dev.st = u.dev.st ∧ e.cl = u.cl ∧ e.gates = u.gates ∧ e.outer = u.outer

/-- The inter-die links (R16 to R19, R332). -/
def Obligations.Links : Prop :=
  ∀ (s : State) (dt : Nat) (d : Rg), let u := s.elapse dt
    (u.dev.st ≠ .off → (u.link[d]).lost = false →
      (∀ up, s.Gives (.linkFrame dt d up []) dt (· = u))
        ∧ (∀ (up : Bool) (l : Fin 5), u.laneServes d (if up then 1 else 0) l.val = true →
            s.Gives (.linkFrame dt d up [l]) dt (· = u.wear (linkUnit d (if up then 1 else 0) l.val)))
        ∧ s.Gives (.linkLoss dt d) dt (fun e =>
            (e.link[d]).lost = true ∧ (∀ n ∈ u.dieMotors d, (e.mc[n]).dieSafe = true) ∧ e.cl = u.cl ∧ e.outer = u.outer)
        ∧ s.Gives (.driveSupplyLoss dt d) dt (fun e =>
            (e.link[d]).lost = true ∧ (e.link[d]).supplyLost = true ∧ (∀ n ∈ u.dieMotors d, (e.mc[n]).dieSafe = true)
              ∧ e.cl = u.cl ∧ e.outer = u.outer)
        ∧ ∀ (up : Bool) (l : Fin 5), let dir : Fin 2 := if up then 1 else 0
            u.laneServes d dir l.val = true → s.Gives (.linkLaneRetraining dt d up l) dt fun e =>
              l.val ∈ (e.link[d]).excluded[dir] ∧ (e.link[d]).spareUsed[dir] = true
                ∧ ((e.link[d]).lost = true ↔ 2 ≤ ((u.link[d]).excluded[dir]).length) ∧ e.cl = u.cl ∧ e.outer = u.outer)
      ∧ s.Gives (.linkRetrainAttempt dt d) dt (· = u)
      ∧ (u.dev.st ≠ .off → (u.link[d]).lost = true → s.Gives (.linkRestored dt d) dt fun e =>
          (e.link[d]).lost = false ∧ (e.link[d]).supplyLost = false ∧ (e.link[d]).buffer = [] ∧ 2 + d.val ∉ e.rails
            ∧ (∀ n : Mcn, (e.mc[n]).dieSafe = (u.mc[n]).dieSafe)
            ∧ e.cl = u.cl ∧ e.outer = u.outer)

/-! ## SYNC, graticule, carrier and compare values (02, 03) -/

/-- A SYNC slave's edges and windows, and the frame boundary, which comes sync_comp after the edge of its frame, or after the close
of its window, and no earlier (R43, R75 to R77). -/
def Obligations.SyncFrames : Prop :=
  ∀ (s : State) (dt : Nat), let u := s.elapse dt; let y := u.sync
    (u.syncRole = 2 → ∀ long : Bool,
      ((∀ t, y.expected = some t → t ≤ u.now + y.period * 5 ∧ u.now ≤ t + y.period * 5) →
        s.Gives (.syncEdge dt long) dt fun e =>
          e.sync.frame = (if long then 0 else if y.placed then y.frame else (y.frame + 1) % 256)
            ∧ e.sync.expected = some (u.now + y.period * 500) ∧ e.sync.misses = 0
            ∧ (y.lost = false → e.sync.dueAt = some (u.now + y.comp)) ∧ e.cl = u.cl ∧ e.outer = u.outer)
      ∧ (∀ t, y.expected = some t → ¬ (t ≤ u.now + y.period * 5 ∧ u.now ≤ t + y.period * 5) → y.missNoted = false →
        s.Gives (.syncEdge dt long) dt fun e =>
          e.sync.frame = y.frame ∧ e.sync.expected = y.expected ∧ e.sync.misses = y.misses + 1
            ∧ e.sync.lost = (y.lost || decide (3 ≤ y.misses + 1)) ∧ e.cl = u.cl ∧ e.outer = u.outer))
      ∧ (u.syncRole = 2 → s.Gives (.syncWindowClose dt) dt fun e =>
          e.sync.expected = some (y.expected.getD u.now + y.period * 500) ∧ e.sync.frame = y.frame
            ∧ e.sync.misses = (if y.missNoted then y.misses else y.misses + 1)
            ∧ e.sync.dueAt = (if y.lost then y.dueAt else some (y.expected.getD u.now + y.period * 5 + y.comp))
            ∧ e.cl = u.cl ∧ e.outer = u.outer)
      ∧ (u.frameDue = false → ∀ wrong : Bool, s.Gives (.frameBoundary dt wrong) dt (· = u))
      ∧ (u.dev.st ≠ .off → u.frameDue = true → ∀ wrong : Bool, s.Gives (.frameBoundary dt wrong) dt fun e =>
          e.sync.frame = (if y.numbered then y.frame else (y.frame + 1) % 256) ∧ e.sync.numbered = false
            ∧ e.sync.lastAt = u.now ∧ (y.cfgDue = true → e.sync.period = u.f pk R.DEV_SYNC_CFG.frame_period)
            ∧ (y.cfgDue = false → e.sync.period = y.period)
            ∧ e.sync.startAt = some (y.dueAt.getD u.now - y.comp)
            ∧ (u.syncRole ≠ 2 →
                e.sync.dueAt = some (y.dueAt.getD u.now - y.comp + e.sync.period * 500 + e.sync.comp))
            ∧ (e.sync.released = true ↔ y.released = true ∨ (u.syncRole = 1 ∧ wrong = true ∧ 1 ≤ y.wrong))
            ∧ e.cl = u.cl ∧ e.outer = u.outer)

/-- Edge times become committed 2 us before they fall due (R56), and a firing is spent (R60, R61): an entry of type LATCH or
JOB, which drives no switch, that acts sets its bit of MC_GRAT_FIRED. No entry of a lower number falls due with it (R63). -/
def Obligations.GraticuleEntries : Prop :=
  ∀ (s : State) (dt : Nat) (n : Mcn) (k : Fin 64), let u := s.elapse dt; let x := (u.mc[n]).grat[k]
    (u.cl[mcCl n]).st ≠ .unused →
    (s.Gives (.edgeTimeCommit dt n k) dt fun e =>
        e = { u with mc := e.mc } ∧ (∀ m : Mcn, m ≠ n → e.mc[m] = u.mc[m])
          ∧ (e.mc[n]).grat[k] = (if x.live = true ∧ u.within2us x.edge = true then { x with committed := true } else x)
          ∧ ∀ j : Fin 64, j ≠ k → (e.mc[n]).grat[j] = (u.mc[n]).grat[j])
      ∧ (u.gf n k R.MC_GRAT_CTL.type = 5 → (u.gDue n k).isSome = true →
          (∀ j : Fin 64, j.val < k.val → u.gDue n j ≠ u.gDue n k) → u.gActs n k = true → s.Gives (.graticuleFiring dt n k) dt fun e =>
            ((e.mc[n]).pwm).heldAdv = ((u.mc[n]).pwm).advance ∧ ((e.mc[n]).grat[k]).lastFire = some u.now16
              ∧ ((e.mc[n]).grat[k]).live = false
              ∧ bitAt (e.word (mcB n + (if k.val < 32 then R.MC_GRAT_FIRED_LO.reg else R.MC_GRAT_FIRED_HI.reg))).toNat
                  (k.val % 32) = true
              ∧ e.cl = u.cl ∧ e.gates = u.gates ∧ e.outer = u.outer)

/-- R173: a JOB entry releases a job only for code 0x03 with spd_src 1, and for code 0x09; with any other code, or 0x03 while
spd_src is 0, it fires and releases nothing. -/
def Obligations.JobEntriesRelease : Prop :=
  ∀ (s : State) (dt : Nat) (n : Mcn) (k : Fin 64), let u := s.elapse dt; let x := (u.mc[n]).grat[k]
    let a := u.gf n k R.MC_GRAT_CTL.param_a
    (u.cl[mcCl n]).st ≠ .unused → u.gf n k R.MC_GRAT_CTL.type = 7 → (u.gDue n k).isSome = true →
    (∀ j : Fin 64, j.val < k.val → u.gDue n j ≠ u.gDue n k) → u.gActs n k = true →
    (∀ t, u.gf n k R.MC_GRAT_CTL.step_or_b ≠ 0 → x.lastFire = some t → 8000 ≤ u.now16 - t) →
    ((a ≠ 9 → (a ≠ 3 ∨ u.setFld n R.MC_LOOP_CFG.spd_src ≠ 1) → s.Gives (.graticuleFiring dt n k) dt fun e =>
        e.ready = u.ready ∧ e.lanes = u.lanes ∧ ((e.mc[n]).grat[k]).lastFire = some u.now16
          ∧ bitAt (e.word (mcB n + (if k.val < 32 then R.MC_GRAT_FIRED_LO.reg else R.MC_GRAT_FIRED_HI.reg))).toNat
              (k.val % 32) = true)
      ∧ (a = 9 → u.jobAllowed (.atlas n) = true → s.Gives (.graticuleFiring dt n k) dt
          (·.runs = countRun (.atlas n) u.now u.runs))
      ∧ (a = 3 → u.setFld n R.MC_LOOP_CFG.spd_src = 1 → u.jobAllowed (.spd n) = true →
          s.Gives (.graticuleFiring dt n k) dt (·.runs = countRun (.spd n) u.now u.runs)))

/-- The carrier's counter zeros and period events (R83, R107), the arrival of compare values and of a new carrier frequency
(R107, R307). -/
def Sys2Proof.Claims.CarrierEvents : Prop :=
  ∀ (s : State) (dt : Nat) (n : Mcn), let u := s.elapse dt; let w := (u.mc[n]).pwm
    (u.cl[mcCl n]).st ≠ .unused →
    (u.conv n = false → w.running = true → w.zeroAt + w.period ≤ u.now → s.Gives (.counterZero dt n 0) dt fun e =>
        ((e.mc[n]).pwm).rising = true ∧ ((e.mc[n]).pwm).zeroAt = u.now ∧ ((e.mc[n]).pwm).wait = none
          ∧ e.cl = u.cl ∧ u.gatesBut n e ∧ e.outer = u.outer)
      ∧ (u.conv n = false → w.running = true → w.rising = true → w.zeroAt + w.period / 2 ≤ u.now →
        s.Gives (.periodEvent dt n 0) dt fun e =>
          ((e.mc[n]).pwm).rising = false ∧ ((e.mc[n]).pwm).peakAt = u.now ∧ e.cl = u.cl ∧ u.gatesBut n e
            ∧ e.outer = u.outer)
      ∧ (u.conv n = true → w.running = true → ∀ p : Fin 3, let c := (u.mc[n]).conv
        (u.zeroDue n p = true → s.Gives (.counterZero dt n p) dt fun e =>
            ((e.mc[n]).pwm).rising = true ∧ ((e.mc[n]).pwm).sampleAt = u.now ∧ (((e.mc[n]).conv.ocNext)[p]) = none
              ∧ (((e.mc[n]).conv).zAt[p]) = u.now ∧ (((e.mc[n]).conv).rise[p]) = true ∧ e.cl = u.cl ∧ u.gatesBut n e
              ∧ e.outer = u.outer)
          ∧ (c.rise[p] = true → (c.zAt[p] : Int) * 16 + c.len[p] / 2 ≤ u.now16 → s.Gives (.periodEvent dt n p) dt fun e =>
            ((e.mc[n]).pwm).rising = false ∧ ((e.mc[n]).pwm).peakAt = u.now ∧ (((e.mc[n]).conv).rise[p]) = false
              ∧ e.cl = u.cl ∧ u.gatesBut n e ∧ e.outer = u.outer))
      ∧ (∀ c, w.pend = some c → s.Gives (.compareApply dt n) dt fun e =>
        ((e.mc[n]).pwm).pend = none ∧ e.cl = u.cl ∧ u.gatesBut n e ∧ e.outer = u.outer
          ∧ (u.conv n = true → ((e.mc[n]).pwm).wait = some c ∧ ((e.mc[n]).pwm).applyAt = u.now)
          ∧ (u.conv n = false → w.rising = true →
              if canRise w c u.now16 = true then ((e.mc[n]).pwm).inForce = c ∧ ((e.mc[n]).pwm).wait = none
              else ((e.mc[n]).pwm).inForce = w.inForce ∧ ((e.mc[n]).pwm).wait = some c)
          ∧ (u.conv n = false → w.rising = false → ((e.mc[n]).pwm).wait = some c))
      ∧ (∀ k, w.kfNext = some k → s.Gives (.carrierFrequencyChange dt n) dt fun e =>
        e = u.modPwm n fun w => { w with kf := k, kfNext := none })

/-- Ratio crossings and sector boundaries (R68, R95): the carrier entry is the one selected by the datum's speed, and the
sector advances along the rotation. -/
def Sys2Proof.Claims.CrossingsAndSectors : Prop :=
  ∀ (s : State) (dt : Nat) (n : Mcn), let u := s.elapse dt; let m := u.mc[n]
    (u.cl[mcCl n]).st ≠ .unused → m.dat.valid = true →
    (u.conv n = false → m.pwm.running = true → (u.cl[mcCl n]).st.moving = true →
        let sel := u.scSelect n (m.dat.speedAt u.now16)
        s.Gives (.ratioCrossing dt n) dt fun e =>
          ((e.mc[n]).scar).entry = (if sel = 0 then none else some (sel - 1)) ∧ e.cl = u.cl ∧ u.gatesBut n e
            ∧ e.outer = u.outer)
      ∧ (u.sectorsByDatum n = true → u.sectorDue n = true →
        s.Gives (.sectorBoundary dt n) dt fun e =>
          e.f (mcB n) R.MC_PWM_STAT.sector
              = (let k := u.f (mcB n) R.MC_PWM_STAT.sector; if m.dat.rev then (k + 5) % 6 else (k + 1) % 6)
            ∧ ((e.mc[n]).est).zcDone = false ∧ ((e.mc[n]).est).zcStart = m.dat.at u.now16 ∧ e.cl = u.cl
            ∧ u.gatesBut n e ∧ e.outer = u.outer)

/-- Carrier events, compare values, ratio crossings and sector boundaries. -/
def Obligations.CarrierAndSectors : Prop :=
  Claims.CarrierEvents ∧ Claims.CrossingsAndSectors

/-- The writes that clear: the words or records named are cleared, and nothing else changes (R110, R121, R133, R263, R274,
R292, R315). -/
def Obligations.ClearingWrites : Prop :=
  ∀ (s : State) (dt : Nat), let u := s.elapse dt; let a := u.asked
    u.hostOpen →
    (∀ n : Mcn, (u.cl[mcCl n]).st ≠ .unused →
      s.Gives (.latClr dt n) dt (· = a.modPwm n fun w => { w with latRestart := true })
        ∧ s.Gives (.pwmCntClr dt n) dt (fun e => a.wrote e fun k =>
            if k = mcB n + R.MC_PWM_WIN_CNT.reg ∨ k = mcB n + R.MC_PWM_REF_CNT.reg ∨ k = mcB n + R.MC_PWM_APPLY_CNT.reg
            then some 0 else none)
        ∧ (u.conv n = true → s.Gives (.eClr dt n) dt
            (· = a.modConv n fun c => { c with eFwd := 0, eRev := 0, remF := 0, remR := 0 }))
        ∧ ((u.cl[mcCl n]).st = .stopped ∨ (u.cl[mcCl n]).st = .faulted → s.Gives (.knownShortClr dt n) dt fun e =>
            e = { a with store := e.store } ∧ e.known n = 0 ∧ e.f (mcB n) R.MC_GATE_SHORT.same_window = 0
              ∧ ∀ k, k ≠ mcB n + R.MC_GATE_SHORT.reg → e.word k = u.word k)
        ∧ ((u.cl[mcCl n]).st ≠ .stopped → (u.cl[mcCl n]).st ≠ .faulted →
            s.Gives (.knownShortClr dt n) dt (· = a.answer .badState)))
      ∧ (∀ g : Grp, (∀ n, grpMc g = some n → (u.cl[mcCl n]).st ≠ .unused) →
        s.Gives (.senCntClr dt g) dt (fun e => a.wrote e fun k =>
            if k = grpB g + R.SEN_CNT.reg ∨ k = grpB g + R.SEN_CNT2.reg then some 0 else none)
          ∧ ∀ x : Fin 4, s.Gives (.accClr dt g x) dt fun e =>
            e = { a with store := e.store, grp := e.grp } ∧ ((e.grp[g]).sum)[x] = 0 ∧ ((e.grp[g]).count)[x] = 0
              ∧ e.f (grpB g + x.val) R.SEN_ACC_CTL.full = 0
              ∧ ∀ k, k ≠ grpB g + x.val + R.SEN_ACC_CTL.reg → e.word k = u.word k)
      ∧ (∀ r : Rg, (u.rg[r]).vsTop = 0 → s.Gives (.chopClr dt r) dt fun e =>
          e.f (rgB r) R.RG_PS_STAT.chop_desat = 0 ∧ e.f (rgB r) R.RG_PS_STAT.chop_noeffect = 0
            ∧ (e.gates[brkOut r]).tripped = false ∧ evRg r 2 ∉ e.rails ∧ e.cl = u.cl ∧ e.outer = u.outer)
      ∧ (∀ r : Rg, u.ov3 r = true → (u.rg[r]).vsTop < 2 → s.Gives (.ov3Clr dt r) dt fun e =>
          e.f (rgB r) R.RG_PS_STAT.ov3_latch = 0 ∧ evRg r 1 ∉ e.rails ∧ e.cl = u.cl ∧ e.outer = u.outer)
      ∧ ∀ (k : Fin 8) (w : Word), s.Gives (.stickyClear dt k w) dt fun e =>
          a.wrote e fun i => if i = 0x1010 + k.val
            then some (u.word i &&& (~~~w ||| u.word (0x1018 + k.val))) else none

/-! ## Sensing (04) -/

/-- Sequences (R121 to R123): a trigger starts a pass, or counts as an overrun while one runs; entries and urgent requests
hold on the lowest free sequence slice, which can hold again 200 ns later (R112). -/
def Sys2Proof.Claims.SequencesRun : Prop :=
  ∀ (s : State) (dt : Nat) (g : Grp) (inj : Bool), let u := s.elapse dt; let a := u.asked
    let live := match grpMc g with | some n => (u.cl[mcCl n]).st ≠ .unused | none => u.dev.st ≠ .off
    let len := u.f (u.seqB g) (if inj then R.SEQ_CFG.inj_len else R.SEQ_CFG.reg_len)
    let trig := u.f (u.seqB g) (if inj then R.SEQ_CFG.inj_trig else R.SEQ_CFG.reg_trig)
    let dly := u.f (u.seqB g) (if inj then R.SEQ_DLY.inj_delay else R.SEQ_DLY.reg_delay)
    let q := if inj then (u.grp[g]).inj else (u.grp[g]).reg
    let started (b e : State) : Prop := e = { b with grp := e.grp }
      ∧ (if inj then (e.grp[g]).inj else (e.grp[g]).reg)
          = { plan := u.seqPlan g inj, pass := (q.pass + 1) % 128, last := some u.now
              due := u.now + (if trig = 7 ∨ trig = 8 then 0 else 2 * dly) }
      ∧ ∀ j : Grp, j ≠ g → e.grp[j] = u.grp[j]
    let counts := u.senRuns g = true ∧ len ≠ 0 ∧ u.trigLive g trig = true ∧ q.last ≠ some u.now
    (counts → q.plan = [] →
        s.Gives (.sequenceTrigger dt g inj) dt (started u)
          ∧ (u.hostOpen → trig = 7 → s.Gives (if inj then .swInj dt g else .swReg dt g) dt (started a)))
      ∧ (counts → q.plan ≠ [] → s.Gives (.sequenceTrigger dt g inj) dt fun e =>
          e = (((u.seqMark g inj).inc (grpB g) (if inj then R.SEN_CNT.inj_overrun else R.SEN_CNT.reg_overrun)).raise 33))
      ∧ (∀ k x rest i, (u.grp[g]).reg.plan = (k, x) :: rest → u.freeSlice g = some i → (u.grp[g]).reg.due ≤ u.now →
          u.urgentDue g = false → live → rest ≠ [] → s.Gives (.sequenceEntryIssue dt g) dt fun e =>
            e = { u with grp := e.grp } ∧ ((e.grp[g]).slot[i]) = some (.reg k x (u.grp[g]).reg.pass, u.slice g (slotRole g i))
              ∧ ((e.grp[g]).freeAt[i]) = u.now + 100 ∧ (e.grp[g]).reg.plan = rest
              ∧ (∀ j : Fin 3, j ≠ i → ((e.grp[g]).slot[j]) = ((u.grp[g]).slot[j]))
              ∧ ∀ j : Grp, j ≠ g → e.grp[j] = u.grp[j])
      ∧ (∀ t c rest i, (u.grp[g]).urgent = (t, c) :: rest → u.freeSlice g = some i → live →
          (u.grp[g]).inj.plan = [] ∨ t ≤ (u.grp[g]).inj.due →
          s.Gives (.urgentRequest dt g) dt fun e =>
            e = { u with grp := e.grp } ∧ ((e.grp[g]).slot[i]) = some (c, u.slice g (slotRole g i)) ∧ (e.grp[g]).urgent = rest
              ∧ ((e.grp[g]).freeAt[i]) = u.now + 100 ∧ ∀ j : Grp, j ≠ g → e.grp[j] = u.grp[j])

/-- A result of a regular entry is written to its register with the slice that held it, and the slice is free of it (R112, R124,
R129, R130). -/
def Sys2Proof.Claims.ResultsDelivered : Prop :=
  ∀ (s : State) (dt : Nat) (g : Grp) (k : Fin 16) (code : Code), let u := s.elapse dt
    (match grpMc g with | some n => (u.cl[mcCl n]).st ≠ .unused | none => u.dev.st ≠ .off) →
    ∀ (i : Fin 3) (x pass by_ : Nat), (u.grp[g]).slot[i] = some (.reg k.val x pass, by_) →
      (∀ j : Fin 3, j ≠ i → ∀ y p b, (u.grp[g]).slot[j] ≠ some (.reg k.val y p, b)) → i ∈ seqSlices g →
      x % 64 = 0x13 ∨ grpMc g = none → bitAt x 6 = false → bitAt x 7 = false →
      s.Gives (.conversionResultReady dt g (.regular k code)) dt fun e =>
        ((e.grp[g]).slot[i]) = none
          ∧ (grpMc g = none → e.word (grpB g + R.SEN_RES_REG.reg + k.val)
              = resultWord code.toNat by_ (k.val * 128 + pass))
          ∧ e.cl = u.cl ∧ e.outer = u.outer

/-- Sequences, slices and results. -/
def Obligations.Conversions : Prop :=
  Claims.SequencesRun ∧ Claims.ResultsDelivered

/-- Background calibration and the spare amplifier (R117, R118, R127, R128). -/
def Sys2Proof.Claims.CalibrationAndAmplifiers : Prop :=
  ∀ (s : State) (dt : Nat) (g : Grp), let u := s.elapse dt; let b := grpB g
    (match grpMc g with | some n => (u.cl[mcCl n]).st ≠ .unused | none => u.dev.st ≠ .off) →
    (u.fb b R.SEN_CAL.cal_en = true → u.fb b R.SEN_ROLE.no_spare = false → (u.grp[g]).shadow = false →
      (u.worn (sliceUnit g (u.slice g (spareRole g))) = false → s.Gives (.calibrationStep dt g true) dt fun e =>
          e = { u with grp := e.grp, store := e.store } ∧ (e.grp[g]).shadow = true ∧ e.f b R.SEN_ROLE.cal_active = 1)
        ∧ s.Gives (.calibrationStep dt g false) dt fun e =>
          e.f b R.SEN_ROLE.no_spare = 1 ∧ (e.grp[g]).shadow = false ∧ e.cl = u.cl ∧ e.outer = u.outer)
      ∧ ((u.grp[g]).shadow = true → u.roleBusy g (u.grp[g]).calNext = false → ∀ diff, s.Gives (.calibrationHandover dt g diff) dt fun e =>
          (e.grp[g]).shadow = false ∧ (e.grp[g]).calNext = ((u.grp[g]).calNext + 1) % spareRole g
            ∧ e.f b R.SEN_ROLE.cal_active = 0 ∧ e.cl = u.cl ∧ e.outer = u.outer)
      ∧ ∀ n, grpMc g = some n →
          (u.ampSpare n = true → (u.mc[n]).pwm.running = true → u.f (ampB n) R.SEN_AMPCHK.amp_period ≠ 0 →
            s.Gives (.ampCheck dt n true none) dt (fun e =>
                (e.grp[g]).ampBusy = true ∧ e.f (ampB n) R.SEN_AMPMAP.spare_conn = ((u.grp[g]).ampTurn + 1) % 4
                  ∧ e.cl = u.cl ∧ e.outer = u.outer)
              ∧ (∀ d, s.Gives (.ampCheck dt n true (some d)) dt fun e =>
                (e.grp[g]).ampBusy = false ∧ (e.grp[g]).ampTurn = ((u.grp[g]).ampTurn + 1) % 3
                  ∧ e.f (ampB n) R.SEN_AMPMAP.spare_conn = 0 ∧ e.cl = u.cl ∧ e.outer = u.outer)
              ∧ s.Gives (.ampCheck dt n false none) dt fun e =>
                e.f (ampB n) R.SEN_AMPMAP.no_spare = 1 ∧ (e.grp[g]).ampBusy = false ∧ e.cl = u.cl ∧ e.outer = u.outer)
            ∧ ((u.grp[g]).ampBusy = true → s.Gives (.ampCheckTimeout dt n) dt fun e =>
              (e.grp[g]).ampBusy = false ∧ (e.grp[g]).ampTurn = ((u.grp[g]).ampTurn + 1) % 3
                ∧ e = { u with grp := e.grp, store := e.store })
            ∧ ∀ p, (u.grp[g]).ampSwap = some p → u.ampSpare n = true → s.Gives (.ampSubstitution dt n) dt fun e =>
              (e.grp[g]).ampSwap = none ∧ e = { u with grp := e.grp, store := e.store }
                ∧ e.f (ampB n) R.SEN_AMPMAP.amp_spare = u.amp n p

/-- The DMA buffer (R135, R136): a burst writes its first word at the write pointer and moves it on, and a write of rptr moves
the read pointer, which may bring the fill up to the watermark. -/
def Sys2Proof.Claims.DmaBuffer : Prop :=
  ∀ (s : State) (dt : Nat) (g : Grp), let u := s.elapse dt; let b := grpB g; let len := Nat.max 1 (u.dmaLen g)
    (match grpMc g with | some n => (u.cl[mcCl n]).st ≠ .unused | none => u.dev.st ≠ .off) → g ≠ 8 →
    (∀ w, (u.grp[g]).fifo = [w] → u.dmaFill g + 1 < len → s.Gives (.dmaWrite dt g) dt fun e =>
        (e.grp[g]).fifo = [] ∧ e.word (0x580000 + u.gst g R.SEN_DMA_BUF.base + u.f b R.SEN_DMA_PTR.wptr) = w
          ∧ e.f b R.SEN_DMA_PTR.wptr = ((u.f b R.SEN_DMA_PTR.wptr + 1) % len) % 2 ^ R.SEN_DMA_PTR.wptr.w
          ∧ e.f b R.SEN_DMA_PTR.rptr = u.f b R.SEN_DMA_PTR.rptr ∧ e.cl = u.cl ∧ e.outer = u.outer)
      ∧ (u.hostOpen → ∀ v : BitVec 16, s.Gives (.dmaRptrWrite dt g v) dt fun e =>
        e.f b R.SEN_DMA_PTR.rptr = (if u.dmaLen g ≤ v.toNat then 0 else v.toNat) ∧ e.status = .ok
          ∧ e.f b R.SEN_DMA_PTR.wptr = u.f b R.SEN_DMA_PTR.wptr ∧ e.cl = u.cl ∧ e.outer = u.outer
          ∧ (e.grp[g]).wmUp = decide (u.gst g R.SEN_DMA_CTL.watermark ≤ e.dmaFill g)
          ∧ (e.raised = u.raised → ∀ k, k ≠ b + R.SEN_DMA_PTR.reg → e.word k = u.word k))

/-- Calibration, the spare amplifier and the DMA buffer. -/
def Obligations.CalibrationAndDma : Prop :=
  Claims.CalibrationAndAmplifiers ∧ Claims.DmaBuffer

/-- Split values (R9, R134): a read of the LO word answers it and copies the HI word into the port's holding register, with
acc_restart it restarts the accumulator; a read of the HI word answers the copy, or the live value with TEAR_RISK. -/
def Obligations.SplitValueReads : Prop :=
  ∀ (s : State) (dt : Nat) (a : BitVec 24), let u := s.elapse dt; let lo := a.toNat; let live := u.fresh0.view .host
    u.dev.st ≠ .off → u.hp.exec = none → u.sec.life ≠ 2 → implemented lo = true →
    (splitLo lo = true → s.Gives (.splitLoRead dt .host a) dt fun e =>
        e.status = .ok ∧ e.data = [live lo] ∧ e.tear = false
          ∧ (e.ports[portIdx .host]).hold = some (lo + 1, live (lo + 1))
          ∧ (∀ g x, accOf lo = some (g, x) → u.fb (grpB g + x.val) R.SEN_ACC_CTL.acc_restart = true →
              ((e.grp[g]).sum)[x] = 0 ∧ ((e.grp[g]).count)[x] = 0)
          ∧ (accOf lo = none → e = { u.asked with ports := e.ports, data := e.data }))
      ∧ (splitLo lo = false → splitHi lo = true → s.Gives (.splitHiRead dt .host a) dt fun e =>
        e = { u.asked with data := e.data, tear := e.tear }
          ∧ if (u.ports[portIdx .host]).hold.map Prod.fst = some lo
            then e.data = ((u.ports[portIdx .host]).hold.map Prod.snd).toList ∧ e.tear = false
            else e.data = [live lo] ∧ e.tear = true)

/-! ## Rotor estimation and start-up (05) -/

/-- Hall and incremental sensors (R140 to R143). -/
def Sys2Proof.Claims.HallAndEncoder : Prop :=
  ∀ (s : State) (dt : Nat) (n : Mcn), let u := s.elapse dt; let x := (u.mc[n]).est
    (u.cl[mcCl n]).st ≠ .unused →
    (u.source n = 1 → ∀ code : BitVec 3, let v := bitsAt (u.st n R.MC_POS_MAP.hall_map) (3 * code.toNat) 3
      s.Gives (.hallEdge dt n code) dt fun e =>
        (if v < 6 then ((e.mc[n]).est).hall = some v ∧ ((e.mc[n]).est).badRun = 0
          else ((e.mc[n]).est).badRun = x.badRun + 1
            ∧ ((e.mc[n]).est).hall = (if u.st n R.MC_POS_CFG.bad_n ≤ x.badRun + 1 then none else x.hall))
          ∧ e.cl = u.cl ∧ u.gatesBut n e ∧ e.outer = u.outer)
      ∧ (u.source n = 1 → x.hall.isSome = true → ((u.mc[n]).dat).valid = true → s.Gives (.hallStopTimeout dt n) dt fun e =>
        ((e.mc[n]).est).edges = [] ∧ e.cl = u.cl ∧ u.gatesBut n e ∧ e.outer = u.outer)
      ∧ (u.source n = 2 → u.f (mcB n) R.MC_EST_STAT.enc_ref = 1 → u.sensorDrives n = true →
        s.Gives (.hallStopTimeout dt n) dt fun e =>
          ((e.mc[n]).dat).speed = 0 ∧ ((e.mc[n]).dat).ts = u.now16 ∧ ((e.mc[n]).est).encEdges = []
            ∧ e.cl = u.cl ∧ u.gatesBut n e ∧ e.outer = u.outer)
      ∧ (u.source n = 2 →
        s.Gives (.encoderCountEdge dt n .up) dt (fun e =>
            e.encCount n = sgn 32 (uns 32 (u.encCount n + 1)) ∧ e = { u with store := e.store, mc := e.mc }
              ∧ ((e.mc[n]).est).encEdges = (0, u.filtered n, u.encCount n + 1) :: x.encEdges)
          ∧ s.Gives (.encoderCountEdge dt n .down) dt (fun e =>
            e.encCount n = sgn 32 (uns 32 (u.encCount n - 1)) ∧ e = { u with store := e.store, mc := e.mc }
              ∧ ((e.mc[n]).est).encEdges = (0, u.filtered n, u.encCount n - 1) :: x.encEdges)
          ∧ s.Gives (.encoderCountEdge dt n .illegal) dt fun e =>
            e = (u.inc (mcB n) R.MC_EST_CNT.enc_err).raise (evMc n 8))
      ∧ (u.source n = 2 → u.st n R.MC_POS_ENC.z_en = 1 → s.Gives (.encoderIndex dt n) dt fun e =>
        e.f (mcB n) R.MC_EST_STAT.enc_ref = 1 ∧ e.cl = u.cl ∧ u.gatesBut n e ∧ e.outer = u.outer)

/-- Absolute sensors (R144, R400): a slave port takes a word of the right length, a master transfer with a good word gives
the datum its angle, and a slave's word is used once. -/
def Sys2Proof.Claims.AbsoluteSensors : Prop :=
  ∀ (s : State) (dt : Nat) (p : Fin 2) (n : Mcn) (ago : Nat) (w : Word), let u := s.elapse dt
    u.dev.st ≠ .off →
    (u.portMode p = 2 → ∀ bits : Nat, s.Gives (.sensorSlaveWord dt p bits ago w) dt fun e =>
        (e.sp[p]).new = true ∧ (e.sp[p]).start = u.now16 - 16 * (ago : Int)
          ∧ (bits = u.f (spB p) R.SP_CFG.wlen → (e.sp[p]).word = BitVec.ofNat 32 (u.spWord p w)
              ∧ (e.sp[p]).good = (u.spCrcOk p (u.spWord p w) && !u.spStuck p (u.spWord p w)))
          ∧ (bits ≠ u.f (spB p) R.SP_CFG.wlen → (e.sp[p]).good = false)
          ∧ (∀ q : Fin 2, q ≠ p → e.sp[q] = u.sp[q]) ∧ e = { u with store := e.store, sp := e.sp })
      ∧ ((u.cl[mcCl n]).st ≠ .unused → u.conv n = false → sourcePort (u.source n) = some p →
        (u.portMode p = 2 → (u.sp[p]).new = true → s.Gives (.sensorTransfer dt n ago w) dt fun e =>
            (e.sp[p]).new = false ∧ e.cl = u.cl ∧ u.gatesBut n e ∧ e.flash = u.flash ∧ e.can = u.can)
          ∧ (u.portMode p = 1 → u.spCrcOk p (u.spWord p w) = true → u.spStuck p (u.spWord p w) = false →
              bitAt (u.spWord p w) (u.st n R.MC_POS_SENS.ok_bit) = (u.st n R.MC_POS_SENS.ok_pol == 1) →
              s.Gives (.sensorTransfer dt n ago w) dt fun e =>
                ((e.mc[n]).est).sensBad = 0 ∧ ((e.mc[n]).est).sensLast.isSome = true ∧ e.sp = u.sp ∧ e.cl = u.cl
                  ∧ u.gatesBut n e ∧ e.flash = u.flash ∧ e.can = u.can))

/-- Hall, incremental and absolute position sensors. -/
def Obligations.PositionSensors : Prop :=
  Claims.HallAndEncoder ∧ Claims.AbsoluteSensors

/-- Sensorless starts (R151 to R156): a sector without a crossing, the tracker, the probe, the alignment and the polarity
pulses. -/
def Sys2Proof.Claims.SensorlessStart : Prop :=
  ∀ (s : State) (dt : Nat) (n : Mcn), let u := s.elapse dt; let x := (u.mc[n]).est; let st := (u.cl[mcCl n]).st
    st ≠ .unused →
    (u.foc n = false → u.conv n = false → x.zcDone = false → x.zcOver = false → st.moving = true →
        s.Gives (.zcWindowExpiry dt n) dt fun e =>
          ((e.mc[n]).est).zcNone = x.zcNone + 1 ∧ ((e.mc[n]).est).zcOver = true ∧ ((e.mc[n]).est).zcSeq = 0
            ∧ e.cl = u.cl ∧ e.gates = u.gates ∧ e.outer = u.outer)
      ∧ (u.fsRuns n = true → s.Gives (.trackerConversion dt n) dt fun e =>
        ((e.mc[n]).est).fsLast = x.fsRaw ∧ ((e.mc[n]).est).fsRaw = #v[none, none, none]
          ∧ (e.grp[mcG n]).urgent = (u.grp[mcG n]).urgent ++ allP.map (fun p => (u.now, Conv.track p))
          ∧ e = { u with mc := e.mc, grp := e.grp } ∧ (∀ m : Mcn, m ≠ n → e.mc[m] = u.mc[m])
          ∧ ∀ g : Grp, g ≠ mcG n → e.grp[g] = u.grp[g])
      ∧ (u.estF n R.MC_EST_STAT.phase = 1 → x.fsSeen = false → ((u.mc[n]).dat).valid = false →
          u.setFld n R.MC_START_CFG.find = 1 → s.Gives (.probeEnd dt n) dt fun e =>
            ((e.mc[n]).est).fsOn = false ∧ ((e.mc[n]).est).rampI = 0 ∧ ((e.mc[n]).est).rampAt = u.now16
              ∧ e.estF n R.MC_EST_STAT.phase = 2 ∧ e.cl = u.cl ∧ u.gatesBut n e ∧ e.outer = u.outer)
      ∧ (u.estF n R.MC_EST_STAT.phase = 2 → u.setFld n R.MC_START_CFG.find = 1 → st = .starting →
          s.Gives (.alignDone dt n) dt fun e => ((e.mc[n]).dat).valid = true ∧ ((e.mc[n]).dat).angle = 0
            ∧ ((e.mc[n]).dat).speed = 0 ∧ (∀ c : Cl, (e.cl[c]).st = (u.cl[c]).st) ∧ u.gatesBut n e ∧ e.outer = u.outer)
      ∧ (u.estF n R.MC_EST_STAT.phase = 3 → st = .starting → 6 < x.polStep → ∀ plus minus : Nat,
          (40 * ((plus : Int) - minus).natAbs < plus + minus → s.Gives (.polarityPulse dt n plus minus) dt fun e =>
              ((e.mc[n]).est).polTries = x.polTries + 1 ∧ ((e.mc[n]).est).polStep = 0
                ∧ ((e.mc[n]).est).failed = (x.failed || decide (x.polTries = 2)) ∧ e.cl = u.cl ∧ e.outer = u.outer)
            ∧ (plus + minus ≤ 40 * ((plus : Int) - minus).natAbs → s.Gives (.polarityPulse dt n plus minus) dt fun e =>
              ((e.mc[n]).dat).valid = true ∧ ((e.mc[n]).est).polStep = 0 ∧ (∀ c : Cl, (e.cl[c]).st = (u.cl[c]).st)
                ∧ u.gatesBut n e ∧ e.outer = u.outer))

/-- Start failures and their repetition, stalls, the resumption of control and the end of the re-acquire window (R159, R160,
R166, R167). -/
def Sys2Proof.Claims.FailuresAndRecovery : Prop :=
  ∀ (s : State) (dt : Nat) (n : Mcn), let u := s.elapse dt; let x := (u.mc[n]).est; let st := (u.cl[mcCl n]).st
    st ≠ .unused →
    (st = .starting → u.conv n = false →
      (x.failed = false → s.Gives (.startTimeout dt n) dt fun e =>
          ((e.mc[n]).est).failed = true ∧ ((e.mc[n]).est).fsOn = false ∧ ((e.mc[n]).est).recPath = none
            ∧ e.cl = u.cl ∧ e.outer = u.outer)
        ∧ (x.failed = true → u.setFld n R.MC_START_CFG.fly = 1 → s.Gives (.startRetry dt n) dt fun e =>
          ((e.mc[n]).est).failed = false ∧ ((e.mc[n]).est).fsOn = true ∧ e.estF n R.MC_EST_STAT.phase = 1
            ∧ e = { u with store := e.store, mc := e.mc }))
      ∧ (∀ t, x.stallSince = some t → u.foc n = true → u.conv n = false → st.moving = true →
          t + max 1 (u.setFld n R.MC_STALL_CFG.stall_t) * 500000 ≤ u.now →
          s.Gives (.stall dt n) dt (· = (u.modEst n fun y => { y with stallSince := none }).raise (evMc n 10)))
      ∧ (∀ path, x.resume = some path → x.recOver = false → st = .starting ∨ st = .running → s.Gives (.controlResume dt n) dt fun e =>
          ((e.mc[n]).est).resume = none ∧ ((e.mc[n]).est).recPath = none ∧ ((e.mc[n]).est).fsOn = false
            ∧ ((e.mc[n]).dat).valid = true ∧ e.estF n R.MC_EST_STAT.phase = 0
            ∧ (∀ c : Cl, (e.cl[c]).st = (u.cl[c]).st) ∧ e.outer = u.outer)
      ∧ (x.recPath ≠ none → x.again = false → x.recOver = false → s.Gives (.reacqWindowExpiry dt n) dt fun e =>
          ((e.mc[n]).est).again = true ∧ ((u.link[clRg (mcCl n)]).lost = false → evMc n 12 ∈ e.raised)
            ∧ e.cl = u.cl ∧ e.gates = u.gates ∧ e.outer = u.outer)

/-- Sensorless starts, their failures, and recovery. -/
def Obligations.StartsAndRecovery : Prop :=
  Claims.SensorlessStart ∧ Claims.FailuresAndRecovery

/-! ## Control lanes and trace units (06) -/

/-- A job that is due and that its cluster's state allows is released: its runs since reset, as the trace header counts
them, are one more (R171, R196). -/
def Sys2Proof.Claims.JobsRelease : Prop :=
  ∀ (s : State) (dt : Nat) (j : JobId), let u := s.elapse dt
    let count (t : State) : Nat := ((t.runs.find? fun p => p.1 == j).map (·.2.1)).getD 0
    u.dev.st ≠ .off → u.jobAllowed j = true → u.jobDue j = true → s.Gives (.jobRelease dt j) dt fun e =>
      count e = (if (u.runs.find? fun p => p.1 == j).isSome then (count u + 1) % 65536 else 1)
        ∧ (∀ c : Cl, (e.cl[c]).st = (u.cl[c]).st) ∧ e.gates = u.gates ∧ e.axM = u.axM ∧ e.axS = u.axS ∧ e.outer = u.outer

/-- A lane that fails a self-test, or whose job overruns, is retired, idle, and never in the pool again (R193, R194). -/
def Sys2Proof.Claims.FailedLanesRetire : Prop :=
  ∀ (s : State) (dt : Nat) (i : Fin 8) (r : Running), let u := s.elapse dt
    let gone (e : State) : Prop :=
      (e.lanes[i]).st = .retired ∧ (e.lanes[i]).busy = none ∧ e.cl = u.cl ∧ e.gates = u.gates ∧ e.outer = u.outer
    u.dev.st ≠ .off → (u.lanes[i]).busy = some r → (u.lanes[i]).st ≠ .retired →
    (u.overrun r = true → s.Gives (.laneFail dt i) dt gone)
      ∧ (r.what.job = .ltest i → s.Gives (.ltestJob dt i false) dt gone)

/-- The rate windows and the steward's test of the pool (R190, R191). -/
def Sys2Proof.Claims.PoolMeasures : Prop :=
  ∀ (s : State) (dt : Nat), let u := s.elapse dt; let ls := u.lanesIn
    u.dev.st ≠ .off →
    (∀ (l : Fin 8) (count : Nat), s.Gives (.laneRateWindow dt l count) dt fun e =>
        let rate := (clampI 0 4096 (qdiv (count * 4096 : Nat) 16000)).toNat
        (e.lanes[l]).rate = rate ∧ (e.lanes[l]).rates = (rate :: (u.lanes[l]).rates).take 16
          ∧ (e.lanes[l]).st = (u.lanes[l]).st ∧ (e.lanes[l]).busy = (u.lanes[l]).busy
          ∧ (∀ k : Fin 8, k ≠ l → e.lanes[k] = u.lanes[k])
          ∧ e = { u with lanes := e.lanes, log := e.log, health := e.health }
          ∧ (36864 ≤ rate * 10 → e.health = u.health))
      ∧ (ls = [] → s.Gives (.stewardPoolTest dt) dt (· = { u with poolCyc := 0 }))
      ∧ (ls ≠ [] → s.Gives (.stewardPoolTest dt) dt fun e =>
        let sum := Nat.max 1 (ls.foldl (fun t i => t + (u.lanes[i]).rate) 0)
        e.f pk R.LN_LOAD.util = (clampI 0 255 (qdiv (u.poolCyc * 409600 : Nat) (sum * 256000 : Nat))).toNat
          ∧ e.cl = u.cl ∧ e.gates = u.gates ∧ e.outer = u.outer)

/-- Job releases, failed lanes, rate windows and the pool test. -/
def Obligations.LanesAndPool : Prop :=
  Claims.JobsRelease ∧ Claims.FailedLanesRetire ∧ Claims.PoolMeasures

/-- A job that completes on its lane publishes what it has computed from the inputs it read at its start (R171, R177): the
result is that of the job's own function on the set and the banks of its start (`p`), whatever the dispatch that follows it
starts. -/
def Sys2Proof.Claims.LoopJobsPublish : Prop :=
  ∀ (s : State) (dt : Nat) (n : Mcn) (i : Fin 8) (r : Running), let u := s.elapse dt
    let p := u.useSet r.what.job (r.setB, r.banks)
    u.dev.st ≠ .off → (u.lanes[i]).busy = some r → u.laneOf r.what.job = some i → u.overrun r = false →
    (r.what.job = .cur n → s.Gives (.curJob dt n) dt fun e => let v := (p.curDone n r.inp r.fin).1
        (e.mc[n]).pwm = (v.mc[n]).pwm ∧ (e.mc[n]).vD = (v.mc[n]).vD ∧ (e.mc[n]).vQ = (v.mc[n]).vQ
          ∧ e.gates = u.gates ∧ e.outer = u.outer)
      ∧ (r.what.job = .obs n → s.Gives (.obsJob dt n) dt fun e => let v := (p.obsDone n r.inp).1
        (e.mc[n]).est = (v.mc[n]).est ∧ e.outer = u.outer)
      ∧ (r.what.job = .spd n → s.Gives (.spdJob dt n) dt fun e => let v := (p.spdDone n r.inp r.what.release).1
        (e.mc[n]).iqRef = (v.mc[n]).iqRef ∧ (e.mc[n]).spdRef = nth r.inp 1 0 ∧ e.gates = u.gates ∧ e.outer = u.outer)
      ∧ (r.what.job = .pos n → s.Gives (.posJob dt n) dt fun e => let v := (p.posDone n r.inp r.what.release).1
        (e.mc[n]).posOut = (v.mc[n]).posOut ∧ e.gates = u.gates ∧ e.outer = u.outer)
      ∧ (r.what.job = .ccur n → s.Gives (.ccurJob dt n) dt fun e => let v := ((p.isetTarget n).ccurDone n r.inp r.fin).1
        (e.mc[n]).pwm = (v.mc[n]).pwm ∧ ((e.mc[n]).conv).eFwd = ((v.mc[n]).conv).eFwd
          ∧ ((e.mc[n]).conv).eRev = ((v.mc[n]).conv).eRev ∧ e.outer = u.outer)
      ∧ (r.what.job = .cvolt n → s.Gives (.cvoltJob dt n) dt fun e => let v := (p.cvoltDone n r.inp r.what.release).1
        ((e.mc[n]).conv).iref = ((v.mc[n]).conv).iref ∧ ((e.mc[n]).conv).target = ((v.mc[n]).conv).target
          ∧ e.outer = u.outer)

/-- The other jobs: profile steps (R222, R226), thermal models (R299), the index evaluation (R208), trace records (R196) and
the lane's self-test (R194). -/
def Sys2Proof.Claims.OtherJobsPublish : Prop :=
  ∀ (s : State) (dt : Nat) (i : Fin 8) (r : Running), let u := s.elapse dt
    let p := u.useSet r.what.job (r.setB, r.banks)
    u.dev.st ≠ .off → (u.lanes[i]).busy = some r → u.laneOf r.what.job = some i → u.overrun r = false →
    (∀ a : Axis, r.what.job = .prof a → s.Gives (.profJob dt a) dt fun e =>
        (e.ax a).lastAt = (nth r.inp 0 0).toNat ∧ e.outer = u.outer)
      ∧ (∀ n : Mcn, r.what.job = .thermM n → s.Gives (.thermJob dt (.inl n)) dt fun e =>
        (∀ w : Fin 6, ((e.mc[n]).models[w]).tj = (((p.thermMotor n r.inp).1.mc[n]).models[w]).tj) ∧ e.outer = u.outer)
      ∧ (∀ g : Rg, r.what.job = .thermR g → s.Gives (.thermJob dt (.inr g)) dt fun e =>
        (e.brake[g]).tj = ((p.thermRegion g r.inp).1.brake[g]).tj ∧ e.outer = u.outer)
      ∧ (∀ n : Mcn, r.what.job = .atlas n → s.Gives (.atlasJob dt n) dt fun e =>
        (e.mc[n]).atl = ((p.atlasDone n r.inp).1.mc[n]).atl ∧ e.cl = u.cl ∧ e.gates = u.gates ∧ e.outer = u.outer)
      ∧ (∀ x : Fin 4, r.what.job = .trace x → s.Gives (.traceJob dt x) dt fun e =>
        (e.trace[x]).written = ((p.traceRecord x r.inp).trace[x]).written ∧ e.cl = u.cl ∧ e.gates = u.gates ∧ e.outer = u.outer)
      ∧ (r.what.job = .ltest i → s.Gives (.ltestJob dt i true) dt fun e =>
        (e.lanes[i]).st = (if (u.lanes[i]).st = .draining then .retired else (u.lanes[i]).st)
          ∧ e.cl = u.cl ∧ e.gates = u.gates ∧ e.outer = u.outer)

/-- Jobs publish what they computed from the inputs read at their start. -/
def Obligations.JobsPublish : Prop :=
  Claims.LoopJobsPublish ∧ Claims.OtherJobsPublish

/-- The trace units' commands (R198). -/
def Obligations.TraceCommands : Prop :=
  ∀ (s : State) (dt : Nat) (x : Fin 4), let u := s.elapse dt; let a := u.asked; let st := u.f (trB x) R.TR_STAT.state
    u.hostOpen →
    (st = 0 ∨ st = 3 → s.Gives (.traceArm dt x) dt fun e =>
        e = { a with store := e.store, trace := e.trace } ∧ e.f (trB x) R.TR_STAT.state = 1
          ∧ e.f (trB x) R.TR_STAT.wptr = 0 ∧ (e.trace[x]).written = 0 ∧ (e.trace[x]).trig = false
          ∧ (e.trace[x]).postLeft = u.tracePost x ∧ ∀ k, k ≠ trB x + R.TR_STAT.reg → e.word k = u.word k)
      ∧ (u.f (trB x) R.TR_TRIG.trig_src ≠ 0 → st = 1 → s.Gives (.traceSoft dt x) dt fun e =>
        e = { a with store := e.store, trace := e.trace } ∧ e.f (trB x) R.TR_STAT.state = 2 ∧ (e.trace[x]).trig = true
          ∧ ∀ k, k ≠ trB x + R.TR_STAT.reg → e.word k = u.word k)
      ∧ s.Gives (.traceStop dt x) dt fun e =>
        e = { a with store := e.store } ∧ e.f (trB x) R.TR_STAT.state = 0
          ∧ ∀ k, k ≠ trB x + R.TR_STAT.reg → e.word k = u.word k

/-! ## The atlas (07) -/

/-- The store of sheets (R202 to R204): a window write makes its sheet FREE or is refused, and a check ends with the result of
its four tests. -/
def Obligations.SheetStore : Prop :=
  ∀ (s : State) (dt : Nat), let u := s.elapse dt; let a := u.asked
    (u.hostOpen → ∀ (off : Fin 0x100000) (w : Word), let n := off.val / 256
      (u.sheetSt n = 3 ∨ u.sheetInUse n = true → s.Gives (.sheetWindowWrite dt off w) dt (· = a.answer .sheetBusy))
        ∧ (u.sheetSt n ≠ 3 → u.sheetInUse n = false → s.Gives (.sheetWindowWrite dt off w) dt fun e =>
            e = { a with store := e.store, imgSheets := a.imgSheets.filter fun p => p.1 != n }
              ∧ e.word (0x400000 + off.val) = w ∧ e.sheetSt n = 0
              ∧ ∀ k, k ≠ 0x400000 + off.val → k ≠ 0x9100 + n / 16 → k ≠ R.ATL_STAT.n_loaded.off → e.word k = u.word k))
      ∧ (u.hostOpen → ∀ x : BitVec 12, let n := x.toNat
        (u.fb pk R.ATL_CMD.busy = true ∨ u.sheetInUse n = true → s.Gives (.sheetCheck dt x) dt fun e =>
            e = { a with store := e.store } ∧ e.f pk R.ATL_CMD.result = 6
              ∧ ∀ k, k ≠ R.ATL_CMD.reg → e.word k = u.word k)
          ∧ (u.fb pk R.ATL_CMD.busy = false → u.sheetInUse n = false → s.Gives (.sheetCheck dt x) dt fun e =>
            e = { a with store := e.store, atlChk := some n } ∧ e.f pk R.ATL_CMD.busy = 1 ∧ e.f pk R.ATL_CMD.result = 0
              ∧ e.f pk R.ATL_CMD.sheet = n ∧ e.sheetSt n = 3))
      ∧ (u.dev.st ≠ .off → ∀ n < 4096, u.atlChk = some n →
        ∀ ecc : Ecc, ((∀ x ∈ ecc, x.1.val = n → x.2 = false) → s.Gives (.sheetCheckDone dt ecc) dt fun e =>
            e.atlChk = none ∧ e.f pk R.ATL_CMD.busy = 0 ∧ e.f pk R.ATL_CMD.result = u.sheetTest n
              ∧ e.sheetSt n = (if u.sheetTest n = 1 then 1 else 0) ∧ e.cl = u.cl ∧ e.mc = u.mc ∧ e.gates = u.gates
              ∧ ((∀ x ∈ ecc, x.1.val ≠ n) → e = { u with store := e.store, atlChk := none }
                ∧ ∀ k, k ≠ R.ATL_CMD.reg → k ≠ 0x9100 + n / 16 → k ≠ R.ATL_STAT.n_loaded.off → e.word k = u.word k))
          ∧ ((∃ x ∈ ecc, x.1.val = n ∧ x.2 = true) → s.Gives (.sheetCheckDone dt ecc) dt fun e =>
            e.atlChk = none ∧ n / 8 ∈ e.rowFlags ∧ e.f pk R.ATL_CMD.busy = 0 ∧ e.f pk R.ATL_CMD.result = 2
              ∧ e.sheetSt n = 2 ∧ e.cl = u.cl ∧ e.mc = u.mc ∧ e.gates = u.gates))

/-- The pager (R184, R206, R213 to R217): a fill that completes puts its blended words into the idle banks, one whose sheet
fails changes no bank, one that misses its boundary turns critical, and a held bank becomes active once it is due; a flagged
row group gets the lowest spare. -/
def Obligations.PagerAndRows : Prop :=
  ∀ (s : State) (dt : Nat) (n : Mcn) (ecc : Ecc), let u := s.elapse dt; let m := u.mc[n]; let p := m.atl
    let good (k : Nat) : Prop := (∀ x ∈ ecc, x.1.val = k → x.2 = false) ∧ u.sheetCrcOk k = true
    ((u.cl[mcCl n]).st ≠ .unused →
      (∀ f, p.fill = some f → (∀ k ∈ f.cells.sheets, good k) → s.Gives (.atlasFillComplete dt n ecc) dt fun e =>
          let idle (g : Fin 4) : Fin 2 := u.idle n g
          let live (g : Fin 4) : Fin 2 := if idle g = 0 then 1 else 0
          let new (g : Fin 4) : Bank := u.bankOf (u.act n) f.cells g
          ((e.mc[n]).atl).fill = none ∧ e.f (mcB n) R.MC_ATL_STAT.fill_busy = 0 ∧ e.cl = u.cl ∧ e.gates = u.gates
            ∧ e.outer = u.outer ∧ (∀ g : Fin 4, ((e.mc[n]).banks[g])[live g] = (m.banks[g])[live g])
            ∧ (if ∀ g : Fin 4, new g = (m.banks[g])[live g]
              then ((e.mc[n]).atl).act = f.cells ∧ (e.mc[n]).banks = m.banks
              else ((e.mc[n]).atl).held.map Fill.cells = some f.cells ∧ e.f (mcB n) R.MC_ATL_STAT.held = 1
                ∧ ∀ g : Fin 4, new g ≠ (m.banks[g])[live g] →
                    ((e.mc[n]).banks[g])[idle g] = new g ∧ bitAt (e.f (mcB n) R.MC_LOOP_BANK.pending) g.val = true))
        ∧ (∀ f, p.fill = some f → ∀ i : Nat, ∀ k, f.cells.sheets[i]? = some k →
          (∀ x ∈ f.cells.sheets.take i, good x) → ¬ good k →
          s.Gives (.atlasFillComplete dt n ecc) dt fun e =>
            ((e.mc[n]).atl).fill = none ∧ (e.mc[n]).banks = m.banks ∧ ((e.mc[n]).atl).held = p.held ∧ k / 8 ∈ e.rowFlags
              ∧ ((u.link[clRg (mcCl n)]).lost = false → evMc n 16 ∈ e.raised) ∧ e.cl = u.cl ∧ e.gates = u.gates)
        ∧ (p.fill ≠ none → p.dueAt.isSome = true → u.fb (mcB n) R.MC_ATL_STAT.critical = false → s.Gives (.sheetMiss dt n) dt fun e =>
          e.f (mcB n) R.MC_ATL_STAT.critical = 1
            ∧ e.f (mcB n) R.MC_ATL_CNT.miss_count = Nat.min (u.f (mcB n) R.MC_ATL_CNT.miss_count + 1) (2 ^ R.MC_ATL_CNT.miss_count.w - 1)
            ∧ ((u.link[clRg (mcCl n)]).lost = false → evMc n 15 ∈ e.raised) ∧ e.mc = u.mc ∧ e.cl = u.cl ∧ e.outer = u.outer)
        ∧ (∀ (g : Fin 4) (f : Fill), bitAt (u.f (mcB n) R.MC_LOOP_BANK.pending) g.val = true → p.swap = none →
          p.held = some f → p.dueAt.isSome = true → g.val < 2 ∨ u.f (mcB n) R.MC_LOOP_BANK.pending % 4 = 0 →
          s.Gives (.bankSwap dt n g) dt fun e =>
            e.idle n g = (if u.idle n g = 0 then 1 else 0) ∧ bitAt (e.f (mcB n) R.MC_LOOP_BANK.pending) g.val = false
              ∧ (e.mc[n]).banks = m.banks ∧ (g = 0 → ((e.mc[n]).atl).act = f.cells)
              ∧ (∀ h : Fin 4, h ≠ g → e.idle n h = u.idle n h) ∧ e.cl = u.cl ∧ e.gates = u.gates ∧ e.outer = u.outer))
      ∧ (u.dev.st ≠ .off → ∀ pos : Fin 512, pos.val ∈ u.rowFlags →
        (u.rowSpares = [] → s.Gives (.rowGroupSubstitution dt pos ecc) dt
            (· = { u with rowFlags := u.rowFlags.filter (· != pos.val) }))
          ∧ (∀ x rest, u.rowSpares = x :: rest → s.Gives (.rowGroupSubstitution dt pos ecc) dt fun e =>
            (pos.val, x) ∈ e.rowMap ∧ ((∀ y ∈ ecc, y.1.val / 8 ≠ pos.val) → pos.val ∉ e.rowFlags) ∧ (∀ y z, y ≠ pos.val → ((y, z) ∈ e.rowMap ↔ (y, z) ∈ u.rowMap))
              ∧ e.cl = u.cl ∧ e.mc = u.mc ∧ e.gates = u.gates ∧ e.flash = u.flash ∧ e.can = u.can ∧ e.sec = u.sec))

/-! ## Motion and steppers (08) -/

/-- A motion command that R224 accepts: it waits for the next run of PROF, with its arguments clamped to the ceilings of the
operating set; the axis, its queue and its cluster stay as they are. -/
def Sys2Proof.Claims.MotionCommandsAccepted : Prop :=
  ∀ (s : State) (dt : Nat) (x : Axis), let u := s.elapse dt; let a := u.asked
    let g := a.staged 0 x; let v := Nat.min g.vel.natAbs (u.vMax x); let acc := Nat.min g.acc (u.aMax x)
    let k := (a.virt x).1; let len := (a.virt x).2; let run := u.axRunning x = true
    let taken (c : Instr) (m : MoCmd) : Prop := s.Gives c dt fun e =>
      e.status = .ok ∧ e.ax x = { u.ax x with cmds := (u.ax x).cmds ++ [m] } ∧ (∀ y : Axis, y ≠ x → e.ax y = u.ax y)
        ∧ e = { a with store := e.store, axM := e.axM, axS := e.axS }
        ∧ ∀ i, i ≠ moB x + R.MO_STAT.reg → e.word i = u.word i
    u.hostOpen →
    (a.moCheck x true true true = none →
      taken (.axisStop dt x) .stop
        ∧ (g.vel ≠ 0 → k = .move ∨ k = .route ∨ k = .speed → taken (.setV dt x) (.setV v))
        ∧ (g.acc ≠ 0 → k = .move ∨ k = .route ∨ k = .homing ∨ k = .speed → taken (.setA dt x) (.setA acc))
        ∧ (k = .idle → taken (.setPos dt x) (.setPos g.tgt)))
      ∧ (a.moCheck x true false true = none →
        (g.vel ≠ 0 → g.acc ≠ 0 → k = .idle → run → taken (.move dt x) (.move g.tgt v acc))
          ∧ (g.vel ≠ 0 → g.acc ≠ 0 → k ≠ .stopping → len < 16 →
              taken (.append dt x) (.append { tgt := g.tgt, v := v, a := acc, dwell := g.dwell, stop := g.stop }))
          ∧ (k = .idle → run → len ≠ 0 → ∀ o, taken (.routeStart dt x o) (.routeStart o))
          ∧ (k = .idle → ∀ (r : BitVec 8) ws, u.imageRoute r.toNat = some ws → taken (.routeLoad dt x r)
              (.routeLoad (ws.map fun w => { w with v := Nat.min w.v (u.vMax x), a := Nat.min w.a (u.aMax x) })))
          ∧ (k = .idle → taken (.routeClear dt x) .routeClear))
      ∧ (a.moCheck x false true false = none → g.acc ≠ 0 → k ≠ .stopping →
          taken (.speed dt x) (.speed (clampI (-(u.vMax x : Int)) (u.vMax x) g.vel) acc))
      ∧ (a.moCheck x false false true = none → k = .idle → run → taken (.home dt x) .home)

/-- The steps of R224 in order: a cluster that is UNUSED, a mode that the command does not serve, an argument of zero, and
the axis state; each refusal answers its status and leaves every axis as it is. -/
def Sys2Proof.Claims.MotionCommandsRefused : Prop :=
  ∀ (s : State) (dt : Nat) (x : Axis), let u := s.elapse dt; let a := u.asked
    let g := a.staged 0 x; let k := (a.virt x).1
    let refused (c : Instr) (st : Status) : Prop := s.Gives c dt fun e =>
      e = { a with status := st, store := e.store }
        ∧ ∀ i, i ≠ moB x + R.MO_STAT.reg → i ≠ moB x + R.MO_STAT.refuse_count.off → e.word i = u.word i
    u.hostOpen →
    (∀ st, a.moCheck x true true true = some st → refused (.axisStop dt x) st ∧ refused (.setV dt x) st
        ∧ refused (.setA dt x) st ∧ refused (.setPos dt x) st)
      ∧ (∀ st, a.moCheck x true false true = some st → refused (.move dt x) st ∧ refused (.append dt x) st
        ∧ (∀ o, refused (.routeStart dt x o) st) ∧ (∀ r, refused (.routeLoad dt x r) st) ∧ refused (.routeClear dt x) st)
      ∧ (∀ st, a.moCheck x false true false = some st → refused (.speed dt x) st)
      ∧ (∀ st, a.moCheck x false false true = some st → refused (.home dt x) st)
      ∧ (a.moCheck x true false true = none → g.vel = 0 ∨ g.acc = 0 → refused (.move dt x) .badArg)
      ∧ (a.moCheck x true false true = none → g.vel ≠ 0 → g.acc ≠ 0 → k = .stopping → refused (.move dt x) .busyTarget)
      ∧ (a.moCheck x true false true = none → k ≠ .stopping → g.vel ≠ 0 → g.acc ≠ 0 → 16 ≤ (a.virt x).2 →
          refused (.append dt x) .queueFull)

/-- Motion commands accepted and refused. -/
def Obligations.MotionCommands : Prop :=
  Claims.MotionCommandsAccepted ∧ Claims.MotionCommandsRefused

/-- A dwell's end, the indexer, the coil references and the chopper (R234 to R241, R243). -/
def Sys2Proof.Claims.AxesAndCoils : Prop :=
  ∀ (s : State) (dt : Nat), let u := s.elapse dt
    (∀ x : Axis, (u.cl[axCl x]).st ≠ .unused → (u.ax x).st = .route → (u.ax x).dwelling = true → (u.ax x).dwellEnd ≤ u.now →
        s.Gives (.dwellEnd dt x) dt fun e =>
          (match (u.ax x).queue with
            | [] => (e.ax x).st = (if (u.ax x).openRt then .routeWait else .idle)
            | w :: _ => (e.ax x).st = .route ∧ (e.ax x).tgt = w.tgt ∧ (e.ax x).mvV = w.v ∧ (e.ax x).mvA = w.a)
            ∧ (e.ax x).dwelling = false ∧ (e.ax x).queue = (u.ax x).queue ∧ (∀ y : Axis, y ≠ x → e.ax y = u.ax y)
            ∧ e = { u with store := e.store, axM := e.axM, axS := e.axS })
      ∧ ∀ k : Chan, (u.cl[stCl k]).st ≠ .unused →
        let p := u.stp[k]
        (let t : Int := Nat.min 12500 (u.now - p.lineAt)
          -- the place on the line of one servo period, in 1/256 full steps times 2^32 and 12500 ticks
          let v := (p.lineFrom * (12500 - t) + (u.axS[k]).p * t - p.origin * 12500) * 256 * u.stepsRev k
          let at_ (i : Int) : Int := i * turn * 12500
          let nxt := nextPoint (gridOf p.level p.half) p.idx (decide (at_ p.idx < v))
          (u.cl[stCl k]).st.moving = true → p.emitAt + 250 ≤ u.now → (at_ nxt - v).natAbs < (at_ p.idx - v).natAbs →
          s.Gives (.indexerEmission dt k) dt fun e =>
            (e.stp[k]).idx = nxt ∧ (e.stp[k]).emitAt = u.now ∧ (∀ j : Chan, j ≠ k → e.stp[j] = u.stp[j]) ∧ e = { u with stp := e.stp })
          ∧ (∀ x : Fin 2, let c := p.coils[x]
            let becomes (e : State) (c' : Coil) : Prop := e = u.modCoil k x fun _ => c'
            (c.chop = .on → c.phaseAt + u.chopBlank k ≤ u.now → s.Gives (.chopperOnPhaseEnd dt k x) dt
                (becomes · { c with chop := .fast, phaseAt := u.now, openRun := 0 }))
              ∧ (c.chop = .fast ∨ c.chop = .slow → c.phaseAt + u.chopOffTime k ≤ u.now →
                s.Gives (.chopperOffTimeEnd dt k x) dt
                  (becomes · { c with chop := .on, neg := decide (c.ref < 0), phaseAt := u.now }))
              ∧ (c.chop = .zero → s.Gives (.coilZeroCurrentLevel dt k x) dt fun e =>
                becomes e { c with
                  chop := .off
                  win := match c.win with
                    | .waiting t => .running u.now (decide (u.now - t ≤ 5000))
                    | w => w })
              ∧ (∀ t code, c.win = .running t false → t + 5000 * u.f (u.actSt k) R.ST_STALL.t_zcw ≤ u.now → s.Gives (.zeroCurrentWindowEnd dt k x code) dt fun e =>
                (((e.stp[k]).coils[x]).win = .none) ∧ e = { u with stp := e.stp }))
          ∧ (∀ t, (u.axS[k]).zeroAt = some t → (u.axS[k]).v = 0 →
              t + u.f (u.actSt k) R.ST_STBY.t_standby * 500000 ≤ u.now → s.Gives (.standbyTimeout dt k) dt fun e =>
                (e.stp[k]).standby = true ∧ (e.stp[k]).idx = p.idx ∧ e = { u with stp := e.stp })

/-- Stepper bridges (R246, R247): an overcurrent trips the channel, a segment outside its share leaves service and is wanted
again, and the lowest spare takes its place at standstill. -/
def Sys2Proof.Claims.StepperBridges : Prop :=
  ∀ (s : State) (dt : Nat) (h : Fin 16), let u := s.elapse dt
    let k := bridgeChan h; let x := bridgeCoil h; let c := (u.stp[k]).coils[x]
    u.dev.st ≠ .off → (u.cl[stCl k]).st ≠ .unused →
    s.Gives (.bridgeOvercurrent dt h) dt (fun e =>
        (e.stp[k]).tripped = true ∧ (e.axS[k]).v = 0 ∧ (e.axS[k]).acc = 0 ∧ e.f (stB k) R.MO_STAT.homed = 0
          ∧ (∀ y : Fin 2, (((e.stp[k]).coils[y]).chop = .off)) ∧ ((u.link[stRg k]).lost = false → evSc (stRg k) 2 ∈ e.raised)
          ∧ e.cl = u.cl ∧ e.axM = u.axM ∧ e.outer = u.outer)
      ∧ (∀ seg : Fin 18, bitAt c.inServ seg.val = true → s.Gives (.bridgeSegmentFault dt h seg) dt fun e =>
        (((e.stp[k]).coils[x]).inServ = c.inServ - 2 ^ seg.val) ∧ (((e.stp[k]).coils[x]).want = c.want + 1)
          ∧ e.cl = u.cl ∧ e.axS = u.axS ∧ e.axM = u.axM ∧ e.outer = u.outer)
      ∧ (0 < c.want → u.bridgesOff k = true → ∀ j, (List.range 18).find? (bitAt c.spare) = some j →
        s.Gives (.stepperSpareSegmentIn dt h) dt fun e =>
          (((e.stp[k]).coils[x]).inServ = c.inServ + 2 ^ j) ∧ (((e.stp[k]).coils[x]).spare = c.spare - 2 ^ j)
            ∧ (((e.stp[k]).coils[x]).want = c.want - 1) ∧ e.cl = u.cl ∧ e.axS = u.axS ∧ e.axM = u.axM ∧ e.outer = u.outer)

/-- Dwells, the indexer, the coil choppers and the stepper bridges. -/
def Obligations.AxesAndBridges : Prop :=
  Claims.AxesAndCoils ∧ Claims.StepperBridges

/-! ## Gate drive and the power stage (09, 10) -/

/-- The phases of a gate output (R251), its segments (R252) and its faults (R253). -/
def Obligations.GateOutputs : Prop :=
  ∀ (s : State) (dt : Nat) (o : Fin 40), let u := s.elapse dt; let g := u.gates[o]
    let past := g.cmdAt + u.phaseTicks o ≤ u.now
    (∀ (n : Mcn) (sw : Fin 6), outMc o = some (n, sw) → let b := u.act n
        u.phaseTicks o = match g.phase with
          | .on1 => 2 * u.f b R.MC_GD_ON.t_on1
          | .on2 | .off => 10 * u.f b R.MC_GD_TIME.t_tr
          | .soft => 10 * u.f b R.MC_GD_TIME.t_soft
          | .onHold | .offHold => 0)
      ∧ (¬ past → s.Gives (.gatePhaseEnd dt o) dt (· = u))
      ∧ (past → g.phase ≠ .soft ∨ outMc o = none → s.Gives (.gatePhaseEnd dt o) dt fun e =>
        e = u.modGate o fun g => match g.phase with
          | .on1 => { g with phase := .on2 }
          | .on2 => { g with phase := .onHold, endAt := u.now }
          | .off | .soft => { g with phase := .offHold, endAt := u.now }
          | .onHold | .offHold => g)
      ∧ (past → g.phase = .soft →
        s.Gives (.softOffEnd dt o) dt (fun e => (e.gates[o]).phase = .offHold ∧ e.cl = u.cl ∧ e.outer = u.outer)
          ∧ s.Gives (.gatePhaseEnd dt o) dt fun e => (e.gates[o]).phase = .offHold ∧ e.cl = u.cl ∧ e.outer = u.outer)
      ∧ (u.dev.st ≠ .off → ∀ sink : Bool, let d : Fin 2 := if sink then 1 else 0
        (∀ k : Fin 36, (g.phase = .on1 ∨ g.phase = .on2) ∧ sink = false ∨ g.phase = .off ∧ sink = true →
            bitAt g.inServ[d] k.val = true → s.Gives (.gateSegmentShareFault dt o sink k) dt fun e =>
            e = ((u.modGate o fun g => { g with
              inServ := upd g.inServ d (g.inServ[d] - 2 ^ k.val), want := upd g.want d (g.want[d] + 1) }).wear
                (segUnit o d k.val)).raise 36)
          ∧ (0 < g.want[d] → g.phase = .onHold ∨ g.phase = .offHold → g.endAt + 50 ≤ u.now → ∀ k, lowBit g.spare[d] = some k →
            s.Gives (.gateSegmentSubstitution dt o sink) dt fun e =>
              ((e.gates[o]).inServ)[d] = g.inServ[d] + 2 ^ k ∧ ((e.gates[o]).spare)[d] = g.spare[d] - 2 ^ k
                ∧ ((e.gates[o]).want)[d] = g.want[d] - 1 ∧ (e.gates[o]).phase = g.phase
                ∧ (∀ q : Fin 40, q ≠ o → e.gates[q] = u.gates[q]) ∧ e.cl = u.cl ∧ e.outer = u.outer))
      ∧ (∀ (n : Mcn) (sw : Fin 6), outMc o = some (n, sw) → g.cmdAt + 10 * u.f (u.act n) R.MC_GD_TIME.t_tr + 500 ≤ u.now →
        s.Gives (.gateFault dt o) dt fun e =>
          e.f (mcB n) R.MC_GATE_CNT.gate_fault_count
              = Nat.min (u.f (mcB n) R.MC_GATE_CNT.gate_fault_count + 1) (2 ^ R.MC_GATE_CNT.gate_fault_count.w - 1)
            ∧ (g.phase.isOn = true → e.known n = u.known n) ∧ (g.phase.isOn = false → bitAt (e.known n) sw.val = true)
            ∧ e.cl = u.cl ∧ e.outer = u.outer)
      ∧ (outMc o = none → g.cmdAt + 10 * u.ovF (outRg o) R.RG_BRK_DESAT.t_tr + 500 ≤ u.now →
        s.Gives (.gateFault dt o) dt (· = (u.wear (0x4000 + o.val)).raise (evRg (outRg o) 7)))

/-- Trips (R258 to R263, R274): a switch that desaturates or hard-shorts goes into soft-off and stays tripped; a hard short
marks the other switch of its leg, when that is not commanded on; a brake switch's trip is the chopper's fault. -/
def Obligations.SwitchTrips : Prop :=
  ∀ (s : State) (dt : Nat), let u := s.elapse dt
    (∀ (n : Mcn) (sw : Fin 6), let o := swOut n sw; let g := u.gates[o]
      let tripped (e : State) : Prop :=
        (e.gates[o]).phase = .soft ∧ (e.gates[o]).tripped = true
          ∧ e.f (mcB n) R.MC_GATE_CNT.desat_count
              = Nat.min (u.f (mcB n) R.MC_GATE_CNT.desat_count + 1) (2 ^ R.MC_GATE_CNT.desat_count.w - 1)
          ∧ bitAt (e.f (mcB n) R.MC_GATE_SHORT.trip_sticky) sw.val = true
          ∧ ((u.link[clRg (mcCl n)]).lost = false → evMc n 19 ∈ e.raised) ∧ e.cl = u.cl ∧ e.outer = u.outer
      g.phase.isOn = true →
      (g.cmdAt + u.blank n ≤ u.now → s.Gives (.desatTrip dt o) dt fun e => tripped e ∧ e.known n = u.known n)
        ∧ (g.cmdAt + u.blank n / 2 ≤ u.now → u.now ≤ g.cmdAt + u.blank n → s.Gives (.hardShortTrip dt o) dt fun e =>
          tripped e ∧ bitAt (e.f (mcB n) R.MC_GATE_SHORT.hard_sticky) sw.val = true
            ∧ (u.swOn n (otherSw sw) = false → bitAt (e.known n) (otherSw sw).val = true)
            ∧ (u.swOn n (otherSw sw) = true → e.known n = u.known n)))
      ∧ ∀ r : Rg, let g := u.gates[brkOut r]
        g.phase.isOn = true → g.cmdAt + u.outBlank (brkOut r) ≤ u.now → s.Gives (.desatTrip dt (brkOut r)) dt fun e =>
          (e.gates[brkOut r]).phase = .soft ∧ (e.gates[brkOut r]).tripped = true ∧ e.f (rgB r) R.RG_PS_STAT.chop_desat = 1
            ∧ e.f (rgB r) R.RG_PS_STAT.chop_on = 0 ∧ evRg r 2 ∈ e.rails ∧ e.cl = u.cl ∧ e.outer = u.outer

/-- Precharge, bootstrap, active short and hold supply (R255, R256, R265 to R268). -/
def Obligations.GateSupplies : Prop :=
  ∀ (s : State) (dt : Nat), let u := s.elapse dt
    (∀ n : Mcn, (u.cl[mcCl n]).st = .armed → (u.mc[n]).precharge = true →
        (u.cl[mcCl n]).enteredAt + 5000 * u.f (u.act n) R.MC_GD_BST.pre_t ≤ u.now → s.Gives (.prechargeEnd dt n) dt fun e =>
        (e.mc[n]).precharge = false ∧ (e.grp[mcG n]).offLeft = (if u.offSkip n = true then #v[0, 0, 0] else #v[64, 64, 64]) ∧ e.cl = u.cl ∧ e.outer = u.outer)
      ∧ (∀ (n : Mcn) (p : Fin 3) (low : Bool), (u.cl[mcCl n]).st ≠ .unused → s.Gives (.bootstrapComparator dt n p low) dt fun e =>
        (∀ q : Fin 3, bitAt (e.f (mcB n) R.MC_GATE_STAT.bst_uv) q.val
            = if q = p then low else bitAt (u.f (mcB n) R.MC_GATE_STAT.bst_uv) q.val)
          ∧ ((e.mc[n]).bstNow)[p] = (((u.mc[n]).bstNow)[p] || low && ((u.mc[n]).pwm).running)
          ∧ ((e.mc[n]).bstAt)[p]
              = (if low = true ∧ bitAt (u.f (mcB n) R.MC_GATE_STAT.bst_uv) p.val = false then u.now else ((u.mc[n]).bstAt)[p])
          ∧ e = { u with store := e.store, mc := e.mc })
      ∧ (∀ (n : Mcn) (h : Bool), (u.mc[n]).short = .entering h →
        (∀ sw ∈ sideSw (!h), (u.gates[swOut n sw]).phase ≠ .soft
          ∧ (u.gates[swOut n sw]).cmdAt + u.f (u.act n) R.MC_PWM_DT.dead_time ≤ u.now) →
        s.Gives (.activeShortTurnOn dt n) dt fun e =>
        (e.mc[n]).short = .held h
          ∧ (∀ sw ∈ sideSw h, (u.gates[swOut n sw]).tripped = false → (u.gates[swOut n sw]).phase ≠ .soft → e.swOn n sw = true)
          ∧ (∀ sw ∈ sideSw (!h), e.swOn n sw = u.swOn n sw) ∧ (h = true → ((e.mc[n]).pwm).running = false)
          ∧ e = { u with mc := e.mc, gates := e.gates })
      ∧ (∀ n : Mcn, (u.mc[n]).short = .held true →
        (∃ p : Fin 3, bitAt (u.f (mcB n) R.MC_GATE_STAT.bst_uv) p.val = true ∧ ((u.mc[n]).bstAt)[p] + 500000 ≤ u.now) →
        s.Gives (.holdPumpTimeout dt n) dt fun e =>
        (e.mc[n]).short = .allOff ∧ (∀ sw : Fin 6, e.swOn n sw = false)
          ∧ ((u.link[clRg (mcCl n)]).lost = false → evMc n 20 ∈ e.raised) ∧ e.cl = u.cl ∧ e.outer = u.outer)
      ∧ ∀ r : Rg, s.Gives (.vccHoldLoss dt r) dt fun e =>
        (e.link[r]).holdLost = true ∧ (∀ n ∈ rgMcs r, ∀ sw : Fin 6, e.swOn n sw = false)
          ∧ ((e.gates[brkOut r]).phase).isOn = false ∧ ((e.gates[rbgOut r]).phase).isOn = false ∧ e.cl = u.cl
          ∧ e.outer = u.outer

/-- The overvoltage ladder (R269 to R274). -/
def Obligations.OvervoltageLadder : Prop :=
  ∀ (s : State) (dt : Nat) (r : Rg), let u := s.elapse dt; let b := rgB r; let top := (u.rg[r]).vsTop
    let stat (e : State) (f : Fld) : Nat := e.f b f
    let kept (e : State) : Prop := e.cl = u.cl ∧ e.outer = u.outer
    u.chopLives r = true →
    (u.chopFaulty r = false → s.Gives (.busOv1 dt r) dt fun e =>
        (e.rg[r]).vsTop = Nat.max top 1 ∧ stat e R.RG_PS_STAT.level = Nat.max (stat u R.RG_PS_STAT.level) 1
          ∧ (e.rg[r]).chopWant = true ∧ stat e R.RG_PS_STAT.ov2_act = stat u R.RG_PS_STAT.ov2_act ∧ e.mc = u.mc ∧ kept e
          ∧ ((u.rg[r]).chopMin = false → u.ov3 r = false → (u.link[r]).holdLost = false → stat e R.RG_PS_STAT.chop_on = 1))
      ∧ s.Gives (.busOv2 dt r) dt (fun e =>
        (e.rg[r]).vsTop = Nat.max top 2 ∧ stat e R.RG_PS_STAT.level = Nat.max (stat u R.RG_PS_STAT.level) 2
          ∧ stat e R.RG_PS_STAT.ov2_act = 1 ∧ kept e
          ∧ ∀ n ∈ rgMcs r, ∀ h, u.ov2 r = false → u.ov3 r = false → (u.link[r]).holdLost = false → u.conv n = false →
              (u.cl[mcCl n]).st.moving = true → (u.mc[n]).short = .none → u.softRuns n = false → u.safeSide n = some h →
              (e.mc[n]).short = .entering h)
      ∧ (u.ov3 r = false → s.Gives (.busOv3 dt r) dt fun e =>
        stat e R.RG_PS_STAT.ov3_latch = 1 ∧ stat e R.RG_PS_STAT.chop_on = 0 ∧ evRg r 1 ∈ e.rails
          ∧ (∀ n ∈ rgMcs r, ∀ sw : Fin 6, e.swOn n sw = false) ∧ kept e)
      ∧ s.Gives (.busBelowOv1Hyst dt r) dt (fun e =>
        (e.rg[r]).vsTop = 0 ∧ (e.rg[r]).lowAt = (if top = 0 then (u.rg[r]).lowAt else u.now) ∧ (e.rg[r]).chopWant = false ∧ e.mc = u.mc ∧ kept e
          ∧ ((u.rg[r]).chopMin = false → stat e R.RG_PS_STAT.chop_on = 0)
          ∧ stat e R.RG_PS_STAT.level = (if u.ov3 r = true ∨ u.ov2 r = true then stat u R.RG_PS_STAT.level else 0))
      ∧ (u.ov2 r = true → top = 0 → (u.rg[r]).lowAt + 50000 * u.ovF r R.RG_OV_CFG.ov2_hold ≤ u.now →
        s.Gives (.ov2HoldExpiry dt r) dt fun e =>
        stat e R.RG_PS_STAT.ov2_act = 0 ∧ evRg r 0 ∉ e.rails ∧ (u.ov3 r = false → stat e R.RG_PS_STAT.level = 0) ∧ kept e)
      ∧ (∀ before after : Code, u.f b R.RG_PS_STAT.chop_noeffect = 0 →
        ∀ t ts, (u.rg[r]).checks = t :: ts → t + 25000 ≤ u.now →
        let rose := (u.ovF r R.RG_OV_CFG.rise_tol : Int) * 10 < codeMv after.toNat - codeMv before.toNat
        (rose → s.Gives (.chopperEffectCheck dt r before after) dt fun e =>
            stat e R.RG_PS_STAT.chop_noeffect = 1 ∧ evRg r 2 ∈ e.rails ∧ kept e)
          ∧ (¬ rose → s.Gives (.chopperEffectCheck dt r before after) dt
              (· = ((u.modRg r fun x => { x with checks := ts }).busCode (rgG r) 0 before.toNat).busCode (rgG r) 0 after.toNat)))
      ∧ ((u.rg[r]).chopMin = true → (u.rg[r]).chopAt + 1000 ≤ u.now → s.Gives (.chopperMinimumTimeEnd dt r) dt fun e =>
        e.mc = u.mc ∧ kept e
          ∧ (u.fb b R.RG_PS_STAT.chop_on = (u.rg[r]).chopWant →
              (e.rg[r]).chopMin = false ∧ stat e R.RG_PS_STAT.chop_on = stat u R.RG_PS_STAT.chop_on)
          ∧ (u.fb b R.RG_PS_STAT.chop_on = true → (u.rg[r]).chopWant = false →
              (e.rg[r]).chopMin = true ∧ stat e R.RG_PS_STAT.chop_on = 0)
          ∧ (u.fb b R.RG_PS_STAT.chop_on = false → (u.rg[r]).chopWant = true → u.fb b R.RG_PS_STAT.chop_desat = false →
              u.ov3 r = false → (u.link[r]).holdLost = false →
              (e.rg[r]).chopMin = true ∧ stat e R.RG_PS_STAT.chop_on = 1))

/-- The reverse-battery switch (R275, R276) and a converter's output overvoltage (R289, R293). -/
def Obligations.ReverseBatteryAndVlo : Prop :=
  ∀ (s : State) (dt : Nat), let u := s.elapse dt
    (∀ r : Rg, let b := rgB r; let on (e : State) : Bool := ((e.gates[rbgOut r]).phase).isOn
      let kept (e : State) : Prop := e.cl = u.cl ∧ e.mc = u.mc ∧ e.outer = u.outer
      (u.rbgMay r = true → s.Gives (.rbsRise dt r) dt fun e =>
          e.f b R.RG_PS_STAT.rbg_on = 1 ∧ (e.rg[r]).rbsHigh = true ∧ kept e
            ∧ ((u.gates[rbgOut r]).tripped = false → (u.gates[rbgOut r]).phase ≠ .soft → on e = true))
        ∧ s.Gives (.rbsFall dt r) dt (fun e => e.f b R.RG_PS_STAT.rbg_on = 0 ∧ (e.rg[r]).rbsHigh = false ∧ on e = false ∧ kept e)
        ∧ s.Gives (.rbsReverse dt r) dt (fun e =>
          e.f b R.RG_PS_STAT.rbg_on = 0 ∧ e.f b R.RG_PS_STAT.rbg_rev = 1 ∧ on e = false ∧ evRg r 3 ∈ e.rails ∧ kept e)
        ∧ (u.fb b R.RG_PS_STAT.rbg_rev = true → s.Gives (.rbsReverseRecovery dt r) dt fun e =>
          e.f b R.RG_PS_STAT.rbg_rev = 0 ∧ evRg r 3 ∉ e.rails ∧ kept e
            ∧ (u.fb b R.RG_RBG_CFG.rbg_en = true → (u.link[r]).holdLost = false → e.f b R.RG_PS_STAT.rbg_on = 1)))
      ∧ ∀ n : Mcn, (u.cl[mcCl n]).st ≠ .unused → u.conv n = true →
        ((u.mc[n]).precharge = false → (u.setFld n R.MC_CV_VLIM.vlo_ov : Int) * 10 < u.vlo n → s.Gives (.vloOvervoltage dt n) dt fun e =>
            e.f (mcB n) R.MC_CONV_STAT.vlo_off = 1 ∧ evMc n 9 ∈ e.rails ∧ (∀ sw : Fin 6, e.swOn n sw = false)
              ∧ e.cl = u.cl ∧ e.outer = u.outer)
          ∧ (u.fb (mcB n) R.MC_CONV_STAT.vlo_off = true → ∀ t, (u.mc[n]).conv.ovLow = some t → t + 500000 ≤ u.now →
            s.Gives (.vloOvRecovery dt n) dt fun e =>
            e.f (mcB n) R.MC_CONV_STAT.vlo_off = 0 ∧ evMc n 9 ∉ e.rails ∧ ((e.mc[n]).conv).cycles = 0 ∧ e.cl = u.cl
              ∧ e.outer = u.outer)

/-! ## Temperatures, faults and the steward's records (11, 12) -/

/-- The thermal pass (R296 to R298, R308, R309): the hot-spot readings of Kilid come from the sensors in service, an input TH
reads its code or full scale while it is broken, and the cold-block marks follow. -/
def Sys2Proof.Claims.ThermalPass : Prop :=
  ∀ (s : State) (dt : Nat) (t : ThermIn), let u := s.elapse dt
    u.dev.st ≠ .off → s.Gives (.thermalPass dt t) dt fun e =>
      (e.die[(0 : Fin 3)]).temps = (List.range 6).map (e.roleT 0 fun p => ((t.kilid.toList[p]?).map BitVec.toNat).getD 0)
        ∧ (∀ x ∈ (e.die[(0 : Fin 3)]).temps, x ≤ e.dieT 0)
        ∧ (∀ k : Fin 4, (u.link[(if k.val < 2 then 0 else 1 : Rg)]).supplyLost = false →
            let code := (t.th[k]).toNat
            let bad := decide (code ≤ 150) || decide (16200 ≤ code)
            (e.ntc[k]).broken = (bad || (u.ntc[k]).broken && decide ((u.ntc[k]).inRange + 1 < 1000))
              ∧ (e.ntc[k]).t = (if (e.ntc[k]).broken then tBroken
                  else ntcT code (u.f k.val R.TH_NTC_CFG.r25) (u.f k.val R.TH_NTC_CFG.beta)))
        ∧ (∀ n : Mcn, e.fb (mcB n) R.MC_TH_STAT.cold_block = e.coldBlocked (mcCl n))
        ∧ e.cl = u.cl ∧ e.gates = u.gates ∧ e.mc = u.mc ∧ e.outer = u.outer

/-- The end of a cold block (R308): a START of a rule that it held is issued, and the port's answer stays. -/
def Sys2Proof.Claims.ColdBlockEnds : Prop :=
  ∀ (s : State) (dt : Nat) (c : Cl), let u := s.elapse dt; let cs := (u.cmdGroup c).getD [c]
    (u.cl[c]).heldStart = true → (u.cl[c]).st = .armed → u.f pk R.DEV_BOOT_CTRL.auto_hold = 0 →
    (∀ x ∈ cs, u.coldBlocked x = false) → s.Gives (.coldBlockEnd dt c) dt fun e =>
      u.moved e cs (· == .armed) .starting 2 ∧ e.status = u.status ∧ e.outer = u.outer

/-- The thermal pass and the end of a cold block. -/
def Obligations.Temperatures : Prop :=
  Claims.ThermalPass ∧ Claims.ColdBlockEnds

/-- Sources (R317, R323, R324): a pulse's hold, which ends 1 s after its latest raising, and a guy line's wire fault that asserts its source until it ends. -/
def Sys2Proof.Claims.FaultSources : Prop :=
  ∀ (s : State) (dt : Nat) (x : BitVec 8), let u := s.elapse dt; let i := x.toNat
    u.dev.st ≠ .off →
    s.Gives (.pulseHoldExpiry dt x) dt (fun e =>
        e = { u with dev := { u.dev with pulseHold := u.dev.pulseHold.filter fun x => x.1 != i || u.now < x.2 + 500000000 } })
      ∧ (i ∉ u.guyFault → s.Gives (.guyLineWireFault dt x) dt fun e =>
        e.guyFault = i :: u.guyFault ∧ bitAt (e.word (0x1020 + i / 32)).toNat (i % 32) = true ∧ e.asserted i = true
          ∧ 1 ∈ e.rails ∧ e.cl = u.cl ∧ e.gates = u.gates ∧ e.outer = u.outer)
      ∧ (i ∈ u.guyFault → s.Gives (.guyLineFaultEnd dt x) dt fun e =>
        e.guyFault = u.guyFault.filter (· != i) ∧ (i ≠ 1 → e.asserted i = u.rails.contains i)
          ∧ (e.guyFault = [] → 1 ∉ e.rails)
          ∧ (∀ k, k ≠ i → k ≠ 1 → e.asserted k = u.asserted k)
          ∧ e = { u with store := e.store, guyFault := e.guyFault, rails := e.rails })

/-- The clock check, LANTERN and the pin FAULT_N (R45, R326, R328). -/
def Sys2Proof.Claims.ClockLanternAndFaultN : Prop :=
  ∀ (s : State) (dt : Nat), let u := s.elapse dt
    u.dev.st ≠ .off →
    s.Gives (.clockCheck dt .good) dt (· = u)
      ∧ s.Gives (.clockCheck dt .spareAgreesSystem) dt (· = { u with dev := { u.dev with oscSpare := !u.dev.oscSpare } })
      ∧ (u.dev.rcClock = false → s.Gives (.clockCheck dt .spareAgreesOscillator) dt fun e =>
        e.dev = { u.dev with rcClock := true, lantern := false } ∧ 5 ∈ e.rails
          ∧ (∀ d : Rg, ∀ n ∈ u.dieMotors d, (e.mc[n]).dieSafe = true) ∧ e.cl = u.cl ∧ e.outer = u.outer)
      ∧ (u.dev.lantern = true → s.Gives (.lanternToggle dt) dt
          (· = { u with dev := { u.dev with lanternLvl := !u.dev.lanternLvl } }))
      ∧ (u.faultNOut = false → s.Gives (.faultNInputLow dt) dt fun e =>
        e.dev = { u.dev with faultNIn := true } ∧ 44 ∈ e.rails ∧ e.cl = u.cl ∧ e.gates = u.gates ∧ e.outer = u.outer)
      ∧ s.Gives (.faultNInputHigh dt) dt fun e =>
        e.dev = { u.dev with faultNIn := false } ∧ 44 ∉ e.rails ∧ e.cl = u.cl ∧ e.gates = u.gates ∧ e.outer = u.outer

/-- Pulse holds, guy lines, the clock check, LANTERN and FAULT_N. -/
def Obligations.SourcesClockAndPins : Prop :=
  Claims.FaultSources ∧ Claims.ClockLanternAndFaultN

/-- The logbook's requests and its writes (R336, R337, R342): a record goes into the next good slot, over an erased sector
where the slot begins one; a write that fails marks its sector bad and asks for another. -/
def Obligations.LogbookWrites : Prop :=
  ∀ (s : State) (dt : Nat), let u := s.elapse dt; let a := u.asked
    (u.dev.st.operates = true → (u.log.hours + 1) * 1800000000000 ≤ u.log.opTicks → s.Gives (.logbookHourly dt) dt fun e =>
        e = { u with log := { u.log with pend := some (u.log.pend.getD 1), hours := u.log.hours + 1 } })
      ∧ (u.hostOpen → s.Gives (.logNow dt) dt fun e => e = { a with log := { u.log with pend := some (u.log.pend.getD 4) } })
      ∧ (∀ cause slot, u.dev.st ≠ .off → u.log.pend = some cause → u.log.busy = none → u.nextSlot = some slot → u.logMay = true →
          u.logStopped = false → u.mp.user = 0 ∨ u.mp.user = 3 → s.Gives (.logbookWriteStart dt) dt fun e =>
            let b := u.logBase + 2048 * slot
            let rec_ := (u.logRecord cause).flatMap wordBytes
            e.log.pend = none ∧ e.log.busy = some (cause, slot, u.now) ∧ e.mp.user = 3
              ∧ (slot % 2 = 0 ∨ (∀ i < 2048, flashByte u.flash (b + i) = 255) →
                  ∀ i, i < rec_.length → flashByte e.flash (b + i) = nth rec_ i 0)
              ∧ (∀ k, k < b ∨ b + 4096 ≤ k → flashByte e.flash k = flashByte u.flash k)
              ∧ (slot % 2 = 1 → ∀ k, b + rec_.length ≤ k → flashByte e.flash k = flashByte u.flash k)
              ∧ e = { u with flash := e.flash, log := e.log, mp := e.mp, fresh := e.fresh })
      ∧ ∀ cause slot t, u.dev.st ≠ .off → u.log.busy = some (cause, slot, t) → u.boot.phase ≠ .logging →
          let failed (e : State) : Prop :=
            e.log.busy = none ∧ e.log.failed = true ∧ slot / 2 ∈ e.log.bad ∧ e.log.pend.isSome = true ∧ 48 ∈ e.rails
              ∧ e.mp.user = 0 ∧ (∀ k, k < u.logBase + 2048 * slot ∨ u.logBase + 2048 * slot + 4096 ≤ k →
                  flashByte e.flash k = flashByte u.flash k) ∧ e.cl = u.cl ∧ e.gates = u.gates ∧ e.sec = u.sec ∧ e.can = u.can
          (u.now ≤ t + 200000000 → s.Gives (.logbookWriteComplete dt true) dt fun e =>
              e.log.busy = none ∧ e.log.failed = false ∧ e.log.slot = some slot ∧ e.log.pend = u.log.pend
                ∧ e.f pk R.LOG_SEQ.seq = (u.f pk R.LOG_SEQ.seq + 1) % 2 ^ 32 ∧ (u.logStopped = false → 48 ∉ e.rails)
                ∧ e.mp.user = 0 ∧ e.flash = u.flash ∧ e.cl = u.cl ∧ e.gates = u.gates ∧ e.sec = u.sec ∧ e.can = u.can)
            ∧ (t + 200000000 < u.now → s.Gives (.logbookWriteComplete dt true) dt failed)
            ∧ s.Gives (.logbookWriteComplete dt false) dt failed
            ∧ (t + 200000000 ≤ u.now → s.Gives (.logbookWriteTimeout dt) dt failed)

/-! ## Image, autostart, security (13) -/

/-- The flash is brought up and the slots are examined (R345 to R347). -/
def Obligations.BootOpens : Prop :=
  ∀ (s : State) (dt : Nat), let u := s.elapse dt; let ph := u.boot.phase
    let goes (e : State) (p : BPhase) : Prop := e.boot = { u.boot with phase := p }
    let kept (e : State) : Prop := e.flash = u.flash ∧ e.sec = u.sec ∧ e.cl = u.cl ∧ e.gates = u.gates ∧ e.can = u.can
    (ph = .params → s.Gives (.parameterTableRead dt true) dt fun e => goes e .octal ∧ e = { u with boot := e.boot })
      ∧ s.Gives (.parameterTableRead dt false) dt (· = u)
      ∧ (ph = .params → s.Gives (.flashNoAnswer dt) dt fun e =>
        e.dev.st = .recovery ∧ e.dev.cause = 4 ∧ e.boot.phase = .idle ∧ e.boot.cands = []
          ∧ e.f pk R.DEV_BOOT_STAT.reason0 = Reason.read.code ∧ e.f pk R.DEV_BOOT_STAT.reason1 = Reason.read.code ∧ kept e)
      ∧ (ph = .octal →
        s.Gives (.octalSwitch dt true) dt (fun e =>
            goes e .headers ∧ e.f pk R.DEV_BOOT_STAT.octal = 1 ∧ e.f pk R.MP_STAT.mode = 2 ∧ 1 ≤ e.f pk R.MP_STAT.clk_mhz
              ∧ e.f pk R.MP_STAT.clk_mhz ≤ 200 ∧ e.dev = u.dev ∧ kept e)
          ∧ s.Gives (.octalSwitch dt false) dt fun e =>
            goes e .headers ∧ e.f pk R.DEV_BOOT_STAT.fallback = 1 ∧ e.f pk R.MP_STAT.mode = 1 ∧ e.f pk R.MP_STAT.clk_mhz = 50
              ∧ e.f pk R.MP_STAT.dqs_dly = 0 ∧ e.dev = u.dev ∧ kept e)
      ∧ (ph = .headers → u.mp.user = 0 ∨ u.mp.user = 1 →
        let r (k : Fin 2) : Reason := u.headerReason (u.slotHeader k)
        let order : List (Fin 2) :=
          if hdrSequence (u.slotHeader 0) < hdrSequence (u.slotHeader 1) then [1, 0] else [0, 1]
        s.Gives (.headerCheck dt) dt fun e =>
          e.f pk R.DEV_BOOT_STAT.reason0 = (r 0).code ∧ e.f pk R.DEV_BOOT_STAT.reason1 = (r 1).code ∧ kept e
            ∧ e.boot.cands = order.filter (fun k => r k == .notTried)
            ∧ (e.boot.cands = [] → e.dev.st = .recovery ∧ e.boot.phase = .idle ∧ e.mp.user = 0)
            ∧ (e.boot.cands ≠ [] → e.dev.st = .verify ∧ e.boot.phase = .stream ∧ e.mp.user = 1))

/-- A candidate image streams and is judged (R347, R356, R357), and the boot ends in READY or RUN (R341, R358). -/
def Obligations.BootCompletes : Prop :=
  ∀ (s : State) (dt : Nat), let u := s.elapse dt; let ph := u.boot.phase
    (∀ k ks, u.boot.cands = k :: ks →
      let failed (r : Reason) (e : State) : Prop :=
        e.f pk (if k.val = 0 then R.DEV_BOOT_STAT.reason0 else R.DEV_BOOT_STAT.reason1) = r.code ∧ e.boot.cands = ks
          ∧ e.imgSheets = [] ∧ e.f pk R.ATL_STAT.n_loaded = 0 ∧ 46 ∈ e.raised
          ∧ (ks = [] → e.dev.st = .recovery ∧ e.boot.phase = .idle) ∧ (ks ≠ [] → e.dev.st = u.dev.st ∧ e.boot.phase = .stream)
          ∧ e.flash = u.flash ∧ e.sec = u.sec ∧ e.cl = u.cl ∧ e.can = u.can
      (ph = .stream → ∀ v, u.loadImage k = (v, none) → s.Gives (.imageStreamComplete dt) dt fun e =>
          e.boot.phase = .post ∧ e.boot.cands = u.boot.cands ∧ e.store = v.store ∧ e.imgSheets = v.imgSheets
            ∧ e.flash = u.flash ∧ e.sec = u.sec ∧ e.dev = u.dev ∧ e.cl = u.cl ∧ e.can = u.can)
        ∧ (ph = .stream → ∀ v r i, u.loadImage k = (v, some (r, i)) → s.Gives (.imageStreamComplete dt) dt (failed r))
        ∧ (ph = .post → ∀ r i x y, u.postReason (u.imageWords k) = some (r, i, x, y) →
            s.Gives (.imagePostChecks dt) dt (failed r))
        ∧ (ph = .post → u.postReason (u.imageWords k) = none → s.Gives (.imagePostChecks dt) dt fun e =>
          let img := u.imageWords k
          e.boot.phase = (if u.boot.fromOff then .restore else .monitor) ∧ e.boot.cands = [] ∧ e.boot.written = []
            ∧ e.boot.configured = configuredOf img ∧ e.f pk R.DEV_IMG_SEQ.seq = hdrSequence img % 2 ^ R.DEV_IMG_SEQ.seq.w
            ∧ e.dev = { u.dev with slot := k.val == 1, autorun := hdrAutorun img }
            ∧ e.flash = u.flash ∧ e.sec = u.sec ∧ e.cl = u.cl ∧ e.can = u.can))
      ∧ (ph = .restore → s.Gives (.logbookRestore dt) dt fun e =>
        e.boot.phase = .monitor ∧ e.boot.monAt = u.now ∧ e.mp.user = 0 ∧ e.dev.st = u.dev.st ∧ e.flash = u.flash ∧ e.sec = u.sec ∧ e.cl = u.cl)
      ∧ (ph = .monitor → u.boot.monAt + 4000000 ≤ u.now → s.Gives (.monitorSamplingEnd dt) dt fun e =>
        e.boot.phase = .idle ∧ (∀ c ∈ u.boot.configured, (e.cl[c]).st = .stopped)
          ∧ (∀ c : Cl, c ∉ u.boot.configured → e.cl[c] = u.cl[c])
          ∧ (u.dev.autorun = false → e.dev.st = .ready ∧ e.dev.cause = 5) ∧ (u.dev.autorun = true → e.dev.st = .run ∧ e.dev.cause = 2)
          ∧ e.flash = u.flash ∧ e.sec.life = u.sec.life ∧ e.sec.slots = u.sec.slots)

/-- Autostart (R360): in RUN a rule issues its ARM with cause 2, and its START unless it waits for a set-point; a refused ARM
is issued again 100 ms later. -/
def Obligations.Autostart : Prop :=
  ∀ (s : State) (dt : Nat) (c : Cl) (cs : List Cl), let u := s.elapse dt; let x := u.auto[c]
    let waits := x.waitSp = true ∧ x.src ≠ 0 ∧ x.gotSp = false
    let acts (i : Instr) : Prop :=
      (u.now < x.dueAt → s.Gives i dt (· = u))
        ∧ (x.dueAt ≤ u.now → (u.cl[c]).st ≠ .stopped →
          s.Gives i dt (· = { u with auto := upd u.auto c { x with dueAt := u.now + 50000000 } }))
        ∧ (x.dueAt ≤ u.now → (∀ y ∈ cs, (u.cl[y]).st = .stopped) → u.fb (rgB (clRg c)) R.RG_PS_STAT.bus_absent = false →
            (∀ y ∈ cs, ∀ n, clMc y = some n → u.known n = 0 ∧ u.fb (mcB n) R.MC_GATE_SHORT.same_window = false) →
            (∀ y ∈ cs, u.faultIn y 3 false = false) → (∀ y ∈ cs, u.armPort y = true) → (∀ y ∈ cs, u.armReason y = 0) →
            (waits → s.Gives i dt fun e =>
                u.moved e cs (· == .stopped) .armed 2 ∧ (e.cl[c]).autoStart = true ∧ (e.auto[c]).armed = true
                  ∧ e.status = u.status ∧ e.outer = u.outer)
              ∧ (¬ waits → (∀ y, u.coldBlocked y = false) → s.Gives i dt fun e =>
                (e.cl[c]).st = .starting ∧ (e.cl[c]).cause = 2 ∧ (e.auto[c]).armed = true ∧ e.status = u.status
                  ∧ e.outer = u.outer))
    u.dev.st = .run → u.f pk R.DEV_BOOT_CTRL.auto_hold = 0 → x.rule = true → (u.cl[c]).st ≠ .unused → u.armGroup c = some cs →
    (x.armed = false → acts (.autostartArm dt c) ∧ acts (.autostartArmRetry dt c))
      ∧ (x.rearm = true → acts (.autostartRestart dt c))

/-- The commands of the lifecycle (R368): each writes its result, and what it programs is in the OTP only where that took
it. -/
def Sys2Proof.Claims.SecurityCommands : Prop :=
  ∀ (s : State) (dt : Nat), let u := s.elapse dt; let a := u.asked; let life := u.sec.life
    let buf (k : Nat) : Prop := 0x4020 ≤ k ∧ k < 0x4030
    let gives (c : Instr) (r : Nat) (sec : Sec → Prop) (clears : Bool) : Prop := s.Gives c dt fun e =>
      e = { a with store := e.store, sec := e.sec, fresh := e.fresh } ∧ e.f pk R.SEC_CMD.result = r ∧ sec e.sec
        ∧ ∀ k, k ≠ R.SEC_CMD.reg → e.word k = if clears = true ∧ buf k then 0 else u.word k
    let refused (c : Instr) (r : Nat) : Prop := gives c r (· = u.sec) false
    let has (usage : Nat) : Prop := ∃ i : Fin 16, (u.sec.slots[i]).holds usage = true
    u.hostOpen →
    (∀ (w : Word) (ok : Bool), let i := argSlot w; let t := R.SEC_CMD.type.get w; let us := R.SEC_CMD.usage.get w
      (life ≠ 0 → refused (.program dt w ok) 2 ∧ refused (.seal dt w ok) 2)
        ∧ (life = 0 → (u.sec.slots[i]).type ≠ 0 → refused (.program dt w ok) 3)
        ∧ (life = 0 → (u.sec.slots[i]).type = 0 → keyFits t us = true →
          let k : KeySlot :=
            { type := t, usage := us, revoked := false, key := (List.range (keyWords t)).map fun j => u.word (0x4020 + j) }
          gives (.program dt w true) 1 (· = { u.sec with slots := upd u.sec.slots i k }) true)
        ∧ (life = 0 → u.dev.st = .ready → has 0 → has 1 → u.imageSigned = true →
          gives (.seal dt w true) 1 (· = { u.sec with life := 1 }) true ∧ refused (.seal dt w false) 6)
        ∧ (life = 0 → u.dev.st = .ready → (¬ has 0 ∨ ¬ has 1 ∨ u.imageSigned = false) → refused (.seal dt w ok) 4)
        ∧ (life ≠ 1 → refused (.retire dt w ok) 2 ∧ refused (.revoke dt w ok) 2 ∧ refused (.advance dt w ok) 2)
        ∧ (life = 1 → gives (.retire dt w true) 1 (fun x =>
              x.life = 2 ∧ x.rb = u.sec.rb ∧ ∀ j : Fin 16, (x.slots[j]).revoked = true) true
            ∧ refused (.retire dt w false) 6)
        ∧ (life = 1 → ¬ (u.imageSigned = true ∧ u.boot.keySlot = i.val) →
            ((u.sec.slots[i]).holds 1 = true → ∃ j : Fin 16, j ≠ i ∧ (u.sec.slots[j]).holds 1 = true) →
            let k : KeySlot := { u.sec.slots[i] with revoked := true }
            gives (.revoke dt w true) 1 (· = { u.sec with slots := upd u.sec.slots i k }) false)
        ∧ (life = 1 → u.imageSigned = true → u.boot.keySlot = i.val → refused (.revoke dt w ok) 5)
        ∧ (life = 1 → u.sec.rb < u.boot.rbLevel →
            gives (.advance dt w true) 1 (· = { u.sec with rb := u.boot.rbLevel }) false ∧ refused (.advance dt w false) 6)
        ∧ (life = 1 → u.boot.rbLevel ≤ u.sec.rb → refused (.advance dt w ok) 5))

/-- Random words (R366) and the end of a lockout (R372). A read of SEC_TRNG answers fresh bits, which no later read answers as
fresh, or the last ones again without their mark. -/
def Sys2Proof.Claims.RandomWordsAndLockout : Prop :=
  ∀ (s : State) (dt : Nat), let u := s.elapse dt
    (u.dev.st ≠ .off → u.hp.exec = none → u.sec.life ≠ 2 → s.Gives (.trngRead dt .host) dt fun e =>
        e = { u.asked with data := e.data, sec := e.sec, fresh := u.fresh + 1 }
          ∧ ((∃ x < 2 ^ 24, e.data = [BitVec.ofNat 32 (2 ^ 31 + x)] ∧ e.sec = { u.sec with trngLast := x })
            ∨ (e.data = [BitVec.ofNat 32 u.sec.trngLast] ∧ e.sec = u.sec)))
      ∧ (u.dev.st ≠ .off → s.Gives (.trngHealthFail dt) dt (· = { u with sec := { u.sec with trngFail := true } }))
      ∧ (u.dev.st ≠ .off → u.sec.locked = true → u.sec.lockEnd ≤ u.now → s.Gives (.authLockoutEnd dt) dt
          (· = { u with sec := { u.sec with locked := false } }))

/-- Lifecycle commands, random words and the end of a lockout. -/
def Obligations.SecurityModule : Prop :=
  Claims.SecurityCommands ∧ Claims.RandomWordsAndLockout

/-! ## The host port, the memory port and register access (00, 14, 16) -/

/-- The chain commands of a device that executes nothing (R387, R388): each advances rx_count and leaves its status. -/
def Sys2Proof.Claims.ChainCommands : Prop :=
  ∀ (s : State) (dt : Nat), let u := s.elapse dt; let h := u.hp
    let x := u.fresh0.setF pk R.HP_CHAIN.rx_count ((u.f pk R.HP_CHAIN.rx_count + 1) % 256)
    let gives (c : Instr) (st : Status) (stat : Nat × Option Nat) (P : State → Prop) : Prop := s.Gives c dt fun e =>
      e.status = st ∧ e.hp.chainStat = stat ∧ e.hp.exec = none ∧ e.hp.resp = h.resp ∧ P e
    let kept (e : State) (hp : HostPort) : Prop := e = { x with status := e.status, hp := hp }
    u.hostOpen →
    gives (.nop dt) .ok (0, none) (fun e => kept e { h with chainStat := (0, none) })
      ∧ (∀ v : BitVec 24,
        gives (.addr dt v) .ok (0, none) (fun e => kept e { h with ptr := v.toNat, chainStat := (0, none) })
          ∧ (v.toNat < 65536 → gives (.wrLo dt v) .ok (0, none) (fun e => kept e { h with half := v.toNat, chainStat := (0, none) }))
          ∧ (65536 ≤ v.toNat →
            gives (.wrLo dt v) .badArg (3, some Status.badArg.code) (fun e => e.hp.half = h.half ∧ e.store = x.store)
              ∧ gives (.wrHi dt v) .badArg (3, some Status.badArg.code) (fun e => e.hp.ptr = h.ptr ∧ e.store = x.store))
          ∧ (v.toNat < 65536 →
            let y := x.writeWord .host h.ptr (BitVec.ofNat 32 (v.toNat * 65536 + h.half))
            s.Gives (.wrHi dt v) dt fun e =>
              e.status = y.status ∧ e.cl = y.cl ∧ e.mc = y.mc ∧ e.gates = y.gates ∧ e.dev = y.dev
                ∧ (y.status = .ok → e.hp = { y.hp with ptr := (y.hp.ptr + 1) % 2 ^ 24, chainStat := (0, none) })
                ∧ (y.status ≠ .ok → e.hp = { y.hp with chainStat := (3, some y.status.code) })))
      ∧ (let w := (x.readWord .host h.ptr).2
        s.Gives (.rdLo dt) dt fun e =>
          e.status = .ok ∧ e.data = [w] ∧ e.hp = { h with snap := w, chainStat := (0, some (w.toNat % 65536)) } ∧ e.cl = u.cl)
      ∧ gives (.rdHi dt) .ok (0, some (h.snap.toNat / 65536)) (fun e =>
        e.data = [h.snap] ∧ e.hp.ptr = (h.ptr + 1) % 2 ^ 24 ∧ e.hp.snap = h.snap ∧ e.store = x.store ∧ e.cl = u.cl)

/-- SETPOINT (R388): a motor axis in SPEED mode gets a SPEED command and a stepper axis a MOVE, where R224 accepts them and no
autostart rule waits for the set-point; an axis number that names none is refused. -/
def Sys2Proof.Claims.ChainSetpoints : Prop :=
  ∀ (s : State) (dt : Nat) (v : BitVec 24), let u := s.elapse dt; let a := u.asked
    let k := v.toNat / 2 ^ 20; let val := sgn 20 (v.toNat % 2 ^ 20)
    let taken (x : Axis) (m : MoCmd) : Prop := s.Gives (.setpoint dt v) dt fun e =>
      e.status = .ok ∧ e.hp.chainStat = (0, none) ∧ e.ax x = { u.ax x with cmds := (u.ax x).cmds ++ [m] }
        ∧ (∀ y : Axis, y ≠ x → e.ax y = u.ax y) ∧ e.cl = u.cl ∧ e.gates = u.gates
    u.hostOpen →
    (∀ n : Mcn, k = n.val → u.conv n = false → u.st n R.MC_MO_MODE.mode = 0 → (u.auto[mcCl n]).rule = false →
        a.moCheck (.mc n) false true false = none → u.aMax (.mc n) ≠ 0 → (a.virt (.mc n)).1 ≠ .stopping →
        taken (.mc n) (.speed (clampI (-(u.vMax (.mc n) : Int)) (u.vMax (.mc n)) (val * 256)) (u.aMax (.mc n))))
      ∧ (∀ c : Chan, k = 8 + c.val → (u.auto[stCl c]).rule = false → a.moCheck (.st c) true false true = none →
        u.vMax (.st c) ≠ 0 → u.aMax (.st c) ≠ 0 → u.axRunning (.st c) = true → (a.virt (.st c)).1 = .idle →
        taken (.st c) (.move (rdiv (val * turn) (u.stepsRev c)) (u.vMax (.st c)) (u.aMax (.st c))))
      ∧ (k = 6 ∨ k = 7 → s.Gives (.setpoint dt v) dt fun e =>
        e.status = .badArg ∧ e.hp.chainStat = (3, some Status.badArg.code) ∧ e.axM = u.axM ∧ e.axS = u.axS ∧ e.cl = u.cl
          ∧ e.gates = u.gates)

/-- Chain commands and set-points. -/
def Obligations.ChainCommands : Prop :=
  Claims.ChainCommands ∧ Claims.ChainSetpoints

/-- Frames (R385, R389 to R393): a chain frame takes its last word, a packet frame carries out the response that waits and is
judged by its edges, its CRC and its header, and what executes completes by leaving its status or its response. -/
def Sys2Proof.Claims.Frames : Prop :=
  ∀ (s : State) (dt : Nat), let u := s.elapse dt; let h := u.hp
    u.dev.st ≠ .off →
    (h.exec = none → ∀ (edges : Nat) (ws : List Word),
      (edges % 32 ≠ 0 → s.Gives (.chainFrame dt edges ws) dt fun e =>
          e.status = .frameErr ∧ e.data = [u.chainStatus] ∧ e.hp = { h with chainStat := (2, none) } ∧ e.cl = u.cl
            ∧ e.flash = u.flash ∧ e.sec = u.sec)
        ∧ (∀ w, edges = 32 * ws.length → ws.getLast? = some w → crc4 w.toNat ≠ w.toNat % 16 →
          s.Gives (.chainFrame dt edges ws) dt fun e =>
            e.status = .crc ∧ e.data = [u.chainStatus] ∧ e.hp = { h with chainStat := (1, none) } ∧ e.cl = u.cl
              ∧ e.flash = u.flash ∧ e.sec = u.sec)
        ∧ (∀ w, edges = 32 * ws.length → ws.getLast? = some w → crc4 w.toNat = w.toNat % 16 → w.toNat / 2 ^ 28 = 2 →
          u.sec.life ≠ 2 → s.Gives (.chainFrame dt edges ws) dt fun e =>
            e.status = .ok ∧ e.data = [u.chainStatus] ∧ e.hp.ptr = w.toNat / 16 % 2 ^ 24
              ∧ e.hp.exec.map (fun x => (x.chain, x.st, x.wait)) = some (true, .ok, false) ∧ e.cl = u.cl
              ∧ e.f pk R.HP_CHAIN.rx_count = (u.f pk R.HP_CHAIN.rx_count + 1) % 256)
        ∧ (0 < edges → edges % 32 = 0 → s.Gives (.pollFrame dt edges) dt fun e =>
          e.data = (h.resp.getD []).take (edges / 32) ∧ e.hp = { h with resp := none } ∧ e.status = .idle ∧ e.cl = u.cl)
        ∧ (edges % 32 ≠ 0 → s.Gives (.packetFrame dt edges ws) dt fun e =>
          e.status = .frameErr ∧ e.data = (h.resp.getD []).take (edges / 32) ∧ e.hp.exec = none ∧ e.hp.resp.isSome = true
            ∧ e.cl = u.cl ∧ e.flash = u.flash ∧ e.sec = u.sec)
        ∧ (∀ hdr len crc : Word, ws = [hdr, len, crc] → edges = 96 → hdr.toNat / 2 ^ 28 = 1 →
          pktValid 1 hdr.toNat len.toNat = true → u.sec.life ≠ 2 →
          (crc.toNat ≠ crc32Words [hdr.toNat, len.toNat] → s.Gives (.packetFrame dt edges ws) dt fun e =>
              e.status = .crc ∧ e.hp.exec = none
                ∧ e.hp.resp = some (respWords .crc false false false (bitsAt hdr.toNat 24 2) 0 []) ∧ e.cl = u.cl)
            ∧ (crc.toNat = crc32Words [hdr.toNat, len.toNat] → implemented (hdr.toNat % 2 ^ 24) = true →
              s.Gives (.packetFrame dt edges ws) dt fun e =>
                e.data = (h.resp.getD []).take 3 ∧ e.hp.resp = none ∧ e.cl = u.cl ∧ e.flash = u.flash
                  ∧ ∃ w tear, e.hp.exec = some
                      { tag := bitsAt hdr.toNat 24 2, chain := false, auth := false, st := .ok, tear := tear, range := false
                        count := 1, data := [w], wait := false })))
      ∧ (∀ x, h.exec = some x → x.wait = false → s.Gives (.packetComplete dt) dt fun e =>
        e.hp.exec = none ∧ e.status = x.st ∧ e.cl = u.cl ∧ e.flash = u.flash ∧ e.sec = u.sec
          ∧ (if x.chain = true
            then e.hp.chainStat = chainOutcome x.st (if x.count < 65536 then some x.count else none) ∧ e.hp.resp = h.resp
            else e.hp.resp = some (respWords x.st x.tear x.range x.auth x.tag x.count x.data)))

/-- While an operation executes, every row of the host port is answered BUSY, and nothing else changes but the counter of such
answers (R392). -/
def Sys2Proof.Claims.BusyWhileExecuting : Prop :=
  ∀ (s : State) (dt : Nat) (c : Cl) (x : Axis) (v : BitVec 24) (w : Word), let u := s.elapse dt
    let busy (i : Instr) : Prop := s.Gives i dt fun e => e = (u.asked.inc pk R.HP_CNT.busy_count).answer .busy
    u.dev.st ≠ .off → u.hp.exec ≠ none →
    busy (.arm dt c) ∧ busy (.run dt) ∧ busy (.move dt x) ∧ busy (.read dt v) ∧ busy (.write dt v w) ∧ busy (.nop dt)
      ∧ busy (.registerWrite dt .host v w) ∧ busy (.seal dt w true) ∧ busy (.holdClr dt)

/-- Chain and packet frames, completion, and BUSY while an operation executes. -/
def Obligations.Frames : Prop :=
  Claims.Frames ∧ Claims.BusyWhileExecuting

/-- The packets' operations (R394 to R397). -/
def Obligations.PacketOperations : Prop :=
  ∀ (s : State) (dt : Nat) (v : BitVec 24), let u := s.elapse dt; let a := u.asked; let i := v.toNat
    let bad (c : Instr) : Prop := s.Gives c dt fun e =>
      e = { a with status := .badPkt, store := e.store }
        ∧ e.f pk R.HP_CNT2.bad_pkt = Nat.min (u.f pk R.HP_CNT2.bad_pkt + 1) (2 ^ R.HP_CNT2.bad_pkt.w - 1)
    u.hostOpen →
    (implemented i = true → s.Gives (.read dt v) dt fun e =>
        e.status = .ok ∧ e.data = [(u.fresh0.readWord .host i).2] ∧ e.range = false ∧ e.cl = u.cl ∧ e.flash = u.flash)
      ∧ (implemented i = false → s.Gives (.read dt v) dt fun e =>
        e = { a with data := [0], range := true, store := e.store }
          ∧ e.f pk R.HP_CNT2.range_count = Nat.min (u.f pk R.HP_CNT2.range_count + 1) (2 ^ R.HP_CNT2.range_count.w - 1))
      ∧ (∀ w, s.Gives (.write dt v w) dt (· = (a.writeWord .host i w).countRange))
      ∧ (∀ n, 1 ≤ n → n ≤ 256 → s.Gives (.readBurst dt v n) dt fun e =>
        e.status = .ok ∧ e.data = (readRun .host n i u.fresh0).2 ∧ e.data.length = Nat.min n (2 ^ 24 - i)
          ∧ (2 ^ 24 < i + n → e.range = true) ∧ e.cl = u.cl ∧ e.flash = u.flash)
      ∧ (∀ n, n = 0 ∨ 256 < n → bad (.readBurst dt v n))
      ∧ (∀ ws : List Word, 1 ≤ ws.length → ws.length ≤ 256 → s.Gives (.writeBurst dt v ws) dt fun e =>
        e.status = (writeRun .host i ws u.fresh0).1.status ∧ e.cl = (writeRun .host i ws u.fresh0).1.cl
          ∧ ∀ w rest, ws = w :: rest → (a.writeWord .host i w).status ≠ .ok → e = (a.writeWord .host i w).countRange)
      ∧ (∀ ws : List Word, ws.length = 0 ∨ 256 < ws.length → bad (.writeBurst dt v ws))
      ∧ (∀ k : Word, s.Gives (.bulkRead dt 1 k 256) dt fun e =>
        e = { a with data := (List.range 256).map fun j => u.word (sheetAddr (k.toNat % 4096) + j) })
      ∧ (∀ (t k : Word) (n : Nat), 5 < t.toNat ∨ n = 0 ∨ 256 < n → bad (.bulkRead dt t k n))
      ∧ (∀ (k : Word) (ws : List Word), 1 ≤ ws.length → ws.length ≤ 256 →
        s.Gives (.bulkWrite dt 4 k ws) dt (· = a.answer .logArea))
      ∧ s.Gives (.holdClr dt) dt (fun e => e = { a with ports := e.ports } ∧ (e.ports[portIdx .host]).hold = none
        ∧ ∀ p : Port, p ≠ .host → e.ports[portIdx p] = u.ports[portIdx p])

/-- The NVM operations and the memory port (R398, R403 to R406): an operation that is admitted waits for the memory port and
executes; a grant, the polls of the flash's status and the 3 s limit end it. -/
def Obligations.FlashOperations : Prop :=
  ∀ (s : State) (dt : Nat), let u := s.elapse dt; let a := u.asked
    let waits (c : Instr) (op : NvmOp) : Prop := s.Gives c dt fun e =>
      e.status = .busy ∧ e.mp = { u.mp with op := some op, opAt := u.now, busy := false }
        ∧ e.hp.exec.map (fun x => (x.chain, x.wait)) = some (false, true) ∧ e.flash = u.flash ∧ e.store = u.store ∧ e.cl = u.cl
    let ended (c : Instr) (st : Status) (data : List Word) (P : State → Prop) : Prop := s.Gives c dt fun e =>
      e.mp.op = none ∧ e.hp.exec = u.hp.exec.map (fun x =>
          if x.wait then { x with st := st, data := data, count := data.length, wait := false } else x)
        ∧ e.cl = u.cl ∧ e.gates = u.gates ∧ e.sec = u.sec ∧ P e
    (u.hostOpen → ∀ (v : Word) (ws : List Word), let i := 4 * (v.toNat % 2 ^ 24)
        (i % 4096 = 0 → a.nvmRefusal i 4096 false = none → waits (.nvmErase4k dt v) (.erase i 4096))
          ∧ (i % 65536 = 0 → a.nvmRefusal i 65536 false = none →
            waits (.nvmErase64k dt v) (.erase i 65536))
          ∧ (i % 4096 ≠ 0 → s.Gives (.nvmErase4k dt v) dt fun e => e.status = .badPkt ∧ e.mp = u.mp ∧ e.flash = u.flash)
          ∧ (bulkValid true 5 (v.toNat % 2 ^ 24) ws.length = true → a.nvmRefusal i (4 * ws.length) false = none →
            waits (.bulkWrite dt 5 v ws) (.program i (ws.flatMap fun w => wordBytes w.toNat))))
      ∧ (u.dev.st ≠ .off → u.mp.user = 0 → u.boot.phase ≠ .headers → u.log.pend = none →
        (∀ x n nvm, u.mp.op = some (.read x n nvm) → ended (.memoryPortGrant dt) .ok
            ((flashWords u.flash x n).map fun w => BitVec.ofNat 32 w) (·.flash = u.flash))
          ∧ (∀ x bs, u.mp.op = some (.program x bs) → s.Gives (.memoryPortGrant dt) dt
              (· = { u with mp := { u.mp with busy := true, user := 4 } }))
          ∧ (∀ x n, u.mp.op = some (.erase x n) → s.Gives (.memoryPortGrant dt) dt
              (· = { u with mp := { u.mp with busy := true, user := 4 } })))
      ∧ (u.mp.busy = true → u.mp.user = 4 →
        (∀ x bs, u.mp.op = some (.program x bs) →
            ended (.flashStatusPoll dt false false) .ok [] (fun e =>
                (∀ j, j < bs.length → flashByte u.flash (x + j) = 255 → flashByte e.flash (x + j) = nth bs j 0 % 256)
                  ∧ ∀ k, k < x ∨ x + bs.length ≤ k → flashByte e.flash k = flashByte u.flash k)
              ∧ s.Gives (.flashStatusPoll dt true false) dt (· = u)
              ∧ ended (.flashStatusPoll dt false true) .nvmFail [] (·.flash = u.flash)
              ∧ (u.mp.opAt + 1500000000 ≤ u.now → ended (.nvmTimeout dt) .nvmFail [] fun e =>
                  ∀ k, k < x ∨ x + bs.length ≤ k → flashByte e.flash k = flashByte u.flash k))
          ∧ (∀ x n, u.mp.op = some (.erase x n) →
            ended (.flashStatusPoll dt false false) .ok [] (fun e =>
                (∀ k, x ≤ k → k < x + n → flashByte e.flash k = 255)
                  ∧ ∀ k, k < x ∨ x + n ≤ k → flashByte e.flash k = flashByte u.flash k)
              ∧ (u.mp.opAt + 1500000000 ≤ u.now → ended (.nvmTimeout dt) .nvmFail [] fun e =>
                  ∀ k, k < x ∨ x + n ≤ k → flashByte e.flash k = flashByte u.flash k)))

/-- A write of a register without a row of its own (R7, R8, R30, R382, R457): an address that names no word answers RANGE, a
word of a cluster that is UNUSED ignores it, a refused write changes nothing, and a staging register keeps what is written,
in the copy of the port that wrote it. -/
def Obligations.RegisterWrites : Prop :=
  ∀ (s : State) (dt : Nat) (v : BitVec 24) (w : Word), let u := s.elapse dt; let a := u.asked; let i := v.toNat
    (u.hostOpen →
      (implemented i = false → s.Gives (.registerWrite dt .host v w) dt fun e =>
          e = { a with range := true, store := e.store }
            ∧ e.f pk R.HP_CNT2.range_count = Nat.min (u.f pk R.HP_CNT2.range_count + 1) (2 ^ R.HP_CNT2.range_count.w - 1))
        ∧ (∀ b o d k, implemented i = true → locate i = (b, o) → b ≠ .atlRam → b ≠ .trRam → b ≠ .smpRam → b ≠ .canRam →
          regAt i = some (d, k) →
          (u.blind i = true → judged b o = false → s.Gives (.registerWrite dt .host v w) dt (· = a))
            ∧ (u.blind i = false → ∀ st, a.writeRefusal b o d i (a.writeKey .host i) w = some st →
              s.Gives (.registerWrite dt .host v w) dt (· = a.answer st)))
        ∧ (∀ k : Chan, (u.cl[stCl k]).st ≠ .unused → i = stB k + R.MO_TGT_LO.reg ∨ i = stB k + R.MO_TGT_HI.reg →
          s.Gives (.registerWrite dt .host v w) dt fun e => a.wrote e fun j => if j = i then some w else none))
      ∧ ∀ (n : Can) (k : Chan), (u.dev.st = .ready ∨ u.dev.st = .run ∨ u.dev.st = .bivouac ∨ u.dev.st = .recovery) →
        u.sec.life ≠ 2 → (u.cl[stCl k]).st ≠ .unused → i = stB k + R.MO_TGT_LO.reg →
        s.Gives (.registerWrite dt (.diag n) v w) dt fun e =>
          a.wrote e fun j => if j = i + portSpace (.diag n) * 0x1000000 then some w else none

/-! ## CAN (15, 13) -/

/-- What becomes of a frame that a controller receives (R407, R413 to R416, R419, R435): it is counted, a remote frame is
dropped, an FD frame with fd_en 0 is a form error, and the first filter that matches sends it to a buffer, a FIFO or a route;
a diagnostic request is executed and answered. -/
def Sys2Proof.Claims.CanReception : Prop :=
  ∀ (s : State) (dt : Nat) (n : Can) (ago : Nat) (f : Frame), let u := s.elapse dt; let b := canB n
    let good (e : State) : Prop :=
      e.cf n R.CAN_CNT.rx_ok = Nat.min (u.cf n R.CAN_CNT.rx_ok + 1) (2 ^ R.CAN_CNT.rx_ok.w - 1)
    let kept (e : State) : Prop := e.cl = u.cl ∧ e.axM = u.axM ∧ e.axS = u.axS ∧ e.gates = u.gates ∧ e.flash = u.flash
    let head : Nat := f.id.toNat + b2n f.ext * 2 ^ 29 + b2n f.esi * 2 ^ 30
    f.ok = true → u.canOn n = true → (u.can[n]).mode ≠ 3 →
    (f.fd = true → u.cf n R.CAN_CTRL.fd_en = 0 → s.Gives (.canFrameReceived dt n ago f) dt fun e =>
        e.cf n R.CAN_STAT.lec = errCode .form ∧ e.cf n R.CAN_CNT.rx_ok = u.cf n R.CAN_CNT.rx_ok ∧ e.can = u.can
          ∧ (∀ i < 0x4000, e.ram i = u.ram i) ∧ kept e)
      ∧ (f.rtr = true → s.Gives (.canFrameReceived dt n ago f) dt fun e =>
        good e ∧ e.cf n R.CAN_CNT2.rtr_drop = Nat.min (u.cf n R.CAN_CNT2.rtr_drop + 1) (2 ^ R.CAN_CNT2.rtr_drop.w - 1)
          ∧ e.can = u.can ∧ (∀ i < 0x4000, e.ram i = u.ram i) ∧ kept e)
      ∧ (f.rtr = false → (f.fd = true → u.cf n R.CAN_CTRL.fd_en = 1) → (u.can[n]).mode ≠ 1 ∨ u.isDiag n f = false →
        (u.filterFind n f = none → u.cf n R.CAN_FLT.nm_dest ≠ 1 → u.cf n R.CAN_FLT.nm_dest ≠ 2 →
            s.Gives (.canFrameReceived dt n ago f) dt fun e =>
              good e ∧ e.can = u.can ∧ (∀ i < 0x4000, e.ram i = u.ram i) ∧ kept e)
          ∧ (∀ k, u.filterFind n f = some k →
            let w := u.ram (u.filterAt n k); let idx := bitsAt w 12 5
            (bitsAt w 8 4 = 3 → idx < u.cf n R.CAN_RXB.count → u.locked n 0 idx = false →
                s.Gives (.canFrameReceived dt n ago f) dt fun e =>
                  good e ∧ bitAt (e.cf n R.CAN_RXB_ND.nd) idx = true ∧ e.ram (u.rxAt n idx) = head ∧ e.can = u.can ∧ kept e)
              ∧ (∀ c : Fin 2, bitsAt w 8 4 = 1 + c.val → u.f (b + c.val) R.CAN_FS.fill < u.f (b + c.val) R.CAN_FIFO.count →
                s.Gives (.canFrameReceived dt n ago f) dt fun e =>
                  let put := u.f (b + c.val) R.CAN_FS.put
                  good e ∧ e.f (b + c.val) R.CAN_FS.fill = u.f (b + c.val) R.CAN_FS.fill + 1
                    ∧ e.f (b + c.val) R.CAN_FS.put = (put + 1) % u.f (b + c.val) R.CAN_FIFO.count % 64
                    ∧ e.ram (u.fifoAt n c.val put) = head ∧ e.can = u.can ∧ kept e)))
      ∧ ((u.can[n]).mode = 1 → f.rtr = false → (f.fd = true → u.cf n R.CAN_CTRL.fd_en = 1) → u.isDiag n f = true →
        (u.can[n]).diag = none → 8 ≤ f.data.length → 2 ^ 4 * 3 ≤ ((f.data.head?).getD 0).toNat →
        s.Gives (.canFrameReceived dt n ago f) dt fun e =>
          let tag := ((f.data.head?).getD 0).toNat % 16
          good e ∧ ((e.can[n]).diag) = some { bytes := [Status.badPkt.code, tag, 0, 0, 0, 0, 0, 0], attempts := 0 }
            ∧ e.status = u.status ∧ e.data = u.data ∧ kept e)

/-- The acknowledgement of FIFO elements (R419). -/
def Sys2Proof.Claims.FifoGet : Prop :=
  ∀ (s : State) (dt : Nat) (n : Can) (c : Fin 2) (v : Nat), let u := s.elapse dt; let a := u.asked
    let b := canB n + c.val
    let count := u.f b R.CAN_FIFO.count; let fill := u.f b R.CAN_FS.fill
    let steps := (v + count - u.f b R.CAN_FS.get) % Nat.max 1 count
    u.hostOpen → v < 64 → s.Gives (.fifoGetWrite dt n c v) dt fun e =>
      e = { a with store := e.store } ∧ (∀ k, k ≠ b + R.CAN_FS.reg → e.word k = u.word k)
        ∧ e.f b R.CAN_FS.put = u.f b R.CAN_FS.put
        ∧ (if v < count ∧ steps ≤ fill then e.f b R.CAN_FS.get = v ∧ e.f b R.CAN_FS.fill = fill - steps
          else e.f b R.CAN_FS.get = u.f b R.CAN_FS.put ∧ e.f b R.CAN_FS.fill = 0)

/-- Received frames and the acknowledgement of FIFO elements. -/
def Obligations.CanReception : Prop :=
  Claims.CanReception ∧ Claims.FifoGet

/-- R417: the lock of a reading port. A read of word 0 of a receive element places it, whatever the port held before; a read of
the element's last word releases it; any other read of message RAM leaves it; and an element is locked while any port's lock
is on it. -/
def Obligations.CanLocks : Prop :=
  (∀ (s : State) (n : Can) (kind : Fin 3) (k : Nat), s.locked n kind k = true ↔ ∃ p : Fin 4, (s.ports[p]).lock = some (n, kind, k))
    ∧ ∀ (s : State) (dt : Nat) (p : Port) (off : Fin 0x4000), let u := s.elapse dt; let i := off.val
      let lock (t : State) (q : Fin 4) : Option (Fin 3 × Fin 3 × Nat) := (t.ports[q]).lock
      let ok := u.dev.st ≠ .off ∧ u.sec.life ≠ 2 ∧ (p = .host → u.hp.exec = none)
      let locks (l : Option (Fin 3 × Fin 3 × Nat)) : Prop := s.Gives (.canElementRead dt p off) dt fun e =>
        e.status = .ok ∧ e.data = [u.word (0x600000 + i)] ∧ lock e (portIdx p) = l
          ∧ (∀ q : Fin 4, q ≠ portIdx p → e.ports[q] = u.ports[q]) ∧ e.cl = u.cl ∧ e.flash = u.flash ∧ e.sec = u.sec
      ok →
      ((∀ n : Can, u.elemIn n i = none) → locks (lock u (portIdx p)))
        ∧ ∀ n kind k w, ([0, 1, 2] : List Can).find? (fun n => (u.elemIn n i).isSome) = some n →
            u.elemIn n i = some (kind, k, w) →
            let w1 := u.ram (i - w + 1)
            let stored := Nat.min (dlcLen (bitAt w1 5) (w1 % 16)) (u.elemSize n kind)
            (w = 0 → locks (some (n, kind, k)))
              ∧ (w = 1 + (stored + 3) / 4 → locks (if lock u (portIdx p) = some (n, kind, k) then none else lock u (portIdx p)))
              ∧ (w ≠ 0 → w ≠ 1 + (stored + 3) / 4 → locks (lock u (portIdx p)))

/-- Receive routes (R420 to R425, R374): a field that the payload does not reach and a secure frame that fails its check issue
no command, a SPEED route commands its motor axis, and a timeout takes its action once. -/
def Obligations.CanRoutes : Prop :=
  ∀ (s : State) (dt : Nat) (n : Can), let u := s.elapse dt
    (∀ (ago : Nat) (f : Frame) (x k : Nat), f.ok = true → f.rtr = false → (f.fd = true → u.cf n R.CAN_CTRL.fd_en = 1) →
      u.canOn n = true → (u.can[n]).mode ≠ 3 → (u.can[n]).mode ≠ 1 ∨ u.isDiag n f = false → u.filterFind n f = some x →
      bitsAt (u.ram (u.filterAt n x)) 8 4 = 4 → bitsAt (u.ram (u.filterAt n x)) 12 5 = k → k < u.cf n R.CAN_RT.count →
      (∀ j < 5, u.routeAt n k + j < 0x4000) →
      let at_ := u.routeAt n k; let w0 := u.ram at_; let bs := f.data.map fun b => b.toNat
      let idle (e : State) : Prop := e.cl = u.cl ∧ e.axM = u.axM ∧ e.axS = u.axS ∧ e.can = u.can ∧ e.status = u.status
      bitAt w0 0 = false →
      (bitAt w0 19 = false → routeRaw w0 bs = none → s.Gives (.canFrameReceived dt n ago f) dt fun e =>
          idle e ∧ e.cf n R.CAN_CNT2.route_len = Nat.min (u.cf n R.CAN_CNT2.route_len + 1) (2 ^ R.CAN_CNT2.route_len.w - 1))
        ∧ (bitAt w0 19 = true → bs.length < 12 → s.Gives (.canFrameReceived dt n ago f) dt fun e =>
          idle e ∧ e.cf n R.CAN_CNT2.route_len = Nat.min (u.cf n R.CAN_CNT2.route_len + 1) (2 ^ R.CAN_CNT2.route_len.w - 1))
        ∧ (bitAt w0 19 = true → 12 ≤ bs.length → u.routeKey (bitsAt w0 20 4) = none →
          s.Gives (.canFrameReceived dt n ago f) dt fun e =>
            idle e ∧ e.f pk R.SEC_CNT.can_mac_fail = Nat.min (u.f pk R.SEC_CNT.can_mac_fail + 1) (2 ^ R.SEC_CNT.can_mac_fail.w - 1)
              ∧ 47 ∈ e.raised)
        ∧ (∀ (m : Mcn) (raw : Int), bitAt w0 19 = false → bitsAt w0 5 4 = 1 → bitsAt w0 1 4 = m.val → routeRaw w0 bs = some raw →
          u.moCheck (.mc m) false true false = none → u.aMax (.mc m) ≠ 0 → (u.virt (.mc m)).1 ≠ .stopping →
          (u.auto[mcCl m]).rule = false → s.Gives (.canFrameReceived dt n ago f) dt fun e =>
            let v := routeValue raw (u.ram (at_ + 2)) (u.ram (at_ + 3)); let top : Int := u.vMax (.mc m)
            e.axM[m] = { u.axM[m] with cmds := (u.axM[m]).cmds ++ [.speed (clampI (-top) top v) (u.aMax (.mc m))] }
              ∧ (∀ j : Mcn, j ≠ m → e.axM[j] = u.axM[j]) ∧ e.axS = u.axS ∧ e.cl = u.cl ∧ e.status = u.status))
      ∧ ∀ k : Fin 32, let w0 := u.ram (u.routeAt n k.val); let w4 := u.routeW4 n k.val
        u.routeAt n k.val + 4 < 0x4000 → k.val < u.cf n R.CAN_RT.count → bitAt w0 0 = false →
        u.ram (u.routeAt n k.val + 1) / 65536 ≠ 0 → ((u.can[n]).routes[k]).seen = true → bitAt w4 9 = false →
        ((u.can[n]).routes[k]).seenAt + 500000 * (u.ram (u.routeAt n k.val + 1) / 65536) ≤ u.now →
        (bitsAt w0 24 2 = 0 → s.Gives (.routeTimeout dt n k) dt fun e =>
            e = { u with store := e.store } ∧ bitAt (e.routeW4 n k.val) 9 = true
              ∧ bitsAt (e.routeW4 n k.val) 24 8 = Nat.min 255 (bitsAt w4 24 8 + 1))
          ∧ (∀ cs, bitsAt w0 24 2 = 3 → u.cmdGroup (routeCl (bitsAt w0 1 4)) = some cs →
            (u.cl[routeCl (bitsAt w0 1 4)]).st.active = true → s.Gives (.routeTimeout dt n k) dt fun e =>
              u.moved e cs CState.active .safe 1 ∧ e.status = u.status ∧ e.can = u.can ∧ e.flash = u.flash)

/-- Requests, cancels and the ends of attempts (R426, R427, R431, R432). -/
def Obligations.CanTransmission : Prop :=
  ∀ (s : State) (dt : Nat) (n : Can), let u := s.elapse dt; let a := u.asked
    let tx (t : State) (b : Fin 32) : TxBuf := (t.can[n]).tx[b]
    let plain (b : Fin 32) : Prop := b.val < u.cf n R.CAN_TXB.count ∧ (tx u b).pend = false ∧ bitAt (u.txW1 n b.val) 11 = false
    let requested (e : State) (b : Fin 32) : Prop :=
      tx e b = { tx u b with pend := true, reqAt := u.now, attempts := 0, cancel := false, single := false }
    let frame (e : State) : Prop := e.cl = u.cl ∧ e.axM = u.axM ∧ e.axS = u.axS ∧ e.gates = u.gates ∧ e.flash = u.flash
    let ended (e : State) (b : Fin 32) (out : Nat) : Prop := (tx e b).pend = false ∧ e.ram (u.txAt n b.val + 1) / 2 ^ 29 = out
    (u.hostOpen → (u.can[n]).mode ≠ 0 → ∀ w : Word,
        (∀ b : Fin 32, bitAt w.toNat b.val = true → plain b ∧ u.scheduled n b.val = false) →
        s.Gives (.txReq dt n w) dt fun e => e = { a with can := e.can } ∧ (∀ m : Can, m ≠ n → e.can[m] = u.can[m])
          ∧ ∀ b : Fin 32, if bitAt w.toNat b.val = true then requested e b else tx e b = tx u b)
      ∧ ((u.can[n]).mode ≠ 0 → u.cf n R.CAN_STAT.state ≠ 3 → ∀ b : Fin 32, plain b → u.scheduled n b.val = false →
        let per := 500000 * bitsAt (u.txW1 n b.val) 17 12
        per ≠ 0 → (tx u b).perAt + per ≤ u.now → s.Gives (.txPeriodExpiry dt n b) dt fun e =>
          e = { u with can := e.can }
            ∧ tx e b = { tx u b with
                pend := true, reqAt := u.now, attempts := 0, cancel := false, single := false
                perAt := u.now - (u.now - (tx u b).perAt) % per } ∧ ∀ c : Fin 32, c ≠ b → tx e c = tx u c)
      ∧ (∀ b : Fin 32, u.txAt n b.val + 1 < 0x4000 →
        (u.hostOpen → (tx u b).pend = true → s.Gives (.txCancel dt n (BitVec.ofNat 32 (2 ^ b.val))) dt fun e =>
            e.status = .ok ∧ ((tx e b).cancel = true ∨ ended e b 5) ∧ (∀ c : Fin 32, c ≠ b → tx e c = tx u c) ∧ frame e)
          ∧ (u.txMay n b = true → (u.can[n]).mode = 1 →
            s.Gives (.txAttemptEnd dt n (.buf b) .ok) dt (fun e =>
                ended e b 1 ∧ bitAt (e.cf n R.CAN_TX_DONE.done) b.val = true
                  ∧ e.cf n R.CAN_STAT.tec = u.cf n R.CAN_STAT.tec - 1 ∧ e.cf n R.CAN_STAT.no_ack = 0
                  ∧ (e.can[n]).ackRun = 0 ∧ (∀ c : Fin 32, c ≠ b → tx e c = tx u c) ∧ frame e)
              ∧ (∀ x d dom, x ≠ .ack → u.cf n R.CAN_STAT.tec ≤ 247 → (tx u b).single = false → (tx u b).cancel = false →
                (tx u b).attempts < bitsAt (u.txW1 n b.val) 6 5 → s.Gives (.txAttemptEnd dt n (.buf b) (.error x d dom)) dt fun e =>
                  (tx e b).pend = true ∧ (tx e b).attempts = (tx u b).attempts + 1
                    ∧ e.cf n R.CAN_STAT.tec = u.cf n R.CAN_STAT.tec + 8 ∧ (∀ c : Fin 32, c ≠ b → tx e c = tx u c) ∧ frame e)
              ∧ (∀ d, 2 ≤ (tx u b).clash → u.cf n R.CAN_STAT.tec ≤ 247 → (tx u b).cancel = false →
                s.Gives (.txAttemptEnd dt n (.buf b) (.clash d)) dt fun e => ended e b 3 ∧ (tx e b).clash = 0
                  ∧ evClash n ∈ e.raised ∧ frame e)
              ∧ ((tx u b).cancel = false → s.Gives (.txAttemptEnd dt n (.buf b) .arbLost) dt fun e =>
                e = u.modCan n fun c => { c with lastEnd := u.now })))
      ∧ (u.canOn n = true → (u.can[n]).mode = 1 → ∀ o,
        ((u.can[n]).diag = some o → s.Gives (.txAttemptEnd dt n .diag .ok) dt fun e =>
            (e.can[n]).diag = none ∧ (e.can[n]).ann = (u.can[n]).ann ∧ frame e)
          ∧ ((u.can[n]).ann = some o → s.Gives (.txAttemptEnd dt n .ann .ok) dt fun e =>
            (e.can[n]).ann = none ∧ (e.can[n]).diag = (u.can[n]).diag ∧ frame e))

/-- Modes, bus-off recovery, integration and errors of received frames (R407, R408, R410, R412, R434). -/
def Sys2Proof.Claims.CanModes : Prop :=
  ∀ (s : State) (dt : Nat) (n : Can), let u := s.elapse dt; let a := u.asked; let mode := (u.can[n]).mode
    let only (c e : State) : Prop := e = { c with store := e.store, can := e.can } ∧ ∀ m : Can, m ≠ n → e.can[m] = u.can[m]
    (u.hostOpen →
      (u.cf n R.CAN_STAT.state = 3 → s.Gives (.canRecover dt n) dt fun e =>
          e = { a with store := e.store } ∧ e.cf n R.CAN_STAT.recovering = 1)
        ∧ (u.cf n R.CAN_STAT.state ≠ 3 → s.Gives (.canRecover dt n) dt (· = a.answer .badState))
        ∧ ∀ x : BitVec 2, let m := x.toNat
          (u.cf n R.CAN_CTRL.mode = 0 → m ≠ 0 → u.layoutOk n = false → s.Gives (.canModeWrite dt n x) dt (· = a.answer .badArg))
            ∧ (u.cf n R.CAN_CTRL.mode = 0 → m ≠ 0 → u.layoutOk n = true → mode = 0 → s.Gives (.canModeWrite dt n x) dt fun e =>
              only a e ∧ e.cf n R.CAN_CTRL.mode = m ∧ (e.can[n]).mode = m ∧ (e.can[n]).modeNext = none
                ∧ e.cf n R.CAN_STAT.integrating = 1)
            ∧ (u.cf n R.CAN_CTRL.mode ≠ 0 → mode ≠ 0 → mode ≠ m → s.Gives (.canModeWrite dt n x) dt fun e =>
              only a e ∧ e.cf n R.CAN_CTRL.mode = m ∧ e.can[n] = { u.can[n] with modeNext := some m }))
      ∧ (∀ m, (u.can[n]).modeNext = some m → s.Gives (.canModeChange dt n) dt fun e =>
        (e.can[n]).mode = m ∧ (e.can[n]).modeNext = none ∧ (m ≠ 0 → e.cf n R.CAN_STAT.integrating = 1)
          ∧ (m = 0 → ∀ b : Fin 32, (((e.can[n]).tx[b]).pend = false)) ∧ e.cl = u.cl ∧ e.flash = u.flash ∧ e.sec = u.sec)
      ∧ (u.cf n R.CAN_STAT.recovering = 1 → mode ≠ 0 → s.Gives (.busOffRecoveryDone dt n) dt fun e =>
        e = { u with store := e.store, rails := e.rails } ∧ e.cf n R.CAN_STAT.state = 1 ∧ e.cf n R.CAN_STAT.tec = 0
          ∧ e.cf n R.CAN_STAT.rec = 0 ∧ e.cf n R.CAN_STAT.recovering = 0 ∧ evBusOff n ∉ e.rails)
      ∧ (mode ≠ 0 → u.cf n R.CAN_STAT.integrating = 1 → u.cf n R.CAN_STAT.state ≠ 3 → s.Gives (.canBusIntegration dt n) dt fun e =>
        only u e ∧ e.cf n R.CAN_STAT.integrating = 0 ∧ e.can[n] = { u.can[n] with lastEnd := u.now })
      ∧ (u.canOn n = true → mode ≠ 3 → ∀ x d dom, s.Gives (.canBusError dt n x d dom) dt fun e =>
        e = { u with store := e.store } ∧ e.cf n (if d then R.CAN_STAT.dlec else R.CAN_STAT.lec) = errCode x
          ∧ e.cf n R.CAN_STAT.rec = Nat.min 255 (u.cf n R.CAN_STAT.rec + if dom = true ∧ mode ≠ 2 then 9 else 1)
          ∧ e.cf n R.CAN_STAT.tec = u.cf n R.CAN_STAT.tec)

/-- Basic cycles, columns and misses of the schedule (R428 to R431), and the announcement of the session value (R373). -/
def Sys2Proof.Claims.CanSchedule : Prop :=
  ∀ (s : State) (dt : Nat) (n : Can), let u := s.elapse dt
    let tx (t : State) (b : Fin 32) : TxBuf := (t.can[n]).tx[b]
    let on := (u.can[n]).mode ≠ 0 ∧ u.cf n R.CAN_STAT.state ≠ 3
    let free (b : Fin 32) : Prop := b.val < u.cf n R.CAN_TXB.count ∧ (tx u b).pend = false ∧ bitAt (u.txW1 n b.val) 11 = false
    let begun (e : State) (c : Nat) : Prop :=
      e.cf n R.CAN_TT_STAT.cycle = c ∧ e.cf n R.CAN_TT_STAT.column = 0 ∧ e.cf n R.CAN_TT_STAT.running = 1
        ∧ e.cf n R.CAN_TT_STAT.ref_lost = 0 ∧ (e.can[n]).cell = none ∧ (e.can[n]).cycAt = u.now ∧ e = { u with store := e.store, can := e.can }
    (on → u.cf n R.CAN_TT.role = 2 → ∀ v : BitVec 8, s.Gives (.referenceMessage dt n (some v)) dt fun e =>
        begun e (v.toNat % 64) ∧ ∀ b : Fin 32, tx e b = tx u b)
      ∧ (on → u.cf n R.CAN_TT.role = 1 → ∀ b : Fin 32, b.val = u.cf n R.CAN_TT.ref_buf → free b → u.txAt n b.val + 2 < 0x4000 →
        u.cf n R.CAN_TT_STAT.running = 0 ∨ (u.can[n]).cycAt + 500 * u.cf n R.CAN_TT.cycle_len ≤ u.now →
        s.Gives (.referenceMessage dt n none) dt fun e =>
          begun e (if u.cf n R.CAN_TT_STAT.running = 1 then (u.cf n R.CAN_TT_STAT.cycle + 1) % (u.cf n R.CAN_TT.n_cycles + 1) % 64
              else 0)
            ∧ (tx e b).pend = true ∧ (tx e b).reqAt = u.now ∧ e.ram (u.txAt n b.val + 2) % 64 = e.cf n R.CAN_TT_STAT.cycle)
      ∧ (u.cf n R.CAN_TT.role = 2 → u.cf n R.CAN_TT_STAT.running = 1 →
        (u.can[n]).cycAt + 750 * u.cf n R.CAN_TT.cycle_len ≤ u.now → s.Gives (.referenceLost dt n) dt fun e =>
        e = { u with store := e.store } ∧ e.cf n R.CAN_TT_STAT.running = 0 ∧ e.cf n R.CAN_TT_STAT.ref_lost = 1
          ∧ e.cf n R.CAN_TT_STAT.ref_lost_count = Nat.min (u.cf n R.CAN_TT_STAT.ref_lost_count + 1) 255)
      ∧ (on → u.cf n R.CAN_TT_STAT.running = 1 → ∀ col : Fin 32, let x := u.cellByte n (u.cf n R.CAN_TT_STAT.cycle) col.val
        (u.can[n]).cycAt + 500 * u.colMark n col.val ≤ u.now →
        (cellValid x = false → s.Gives (.scheduleMark dt n col) dt fun e =>
            e = { u with store := e.store } ∧ e.cf n R.CAN_TT_STAT.column = col.val)
          ∧ (∀ b : Fin 32, cellValid x = true → b.val = x % 32 → free b → s.Gives (.scheduleMark dt n col) dt fun e =>
            e = { u with store := e.store, can := e.can } ∧ e.cf n R.CAN_TT_STAT.column = col.val ∧ (e.can[n]).cell = some b ∧ (e.can[n]).markAt = u.now
              ∧ tx e b = { tx u b with pend := true, reqAt := u.now, attempts := 0, cancel := false, single := true }))
      ∧ (∀ b, (u.can[n]).cell = some b → (tx u b).pend = true → (tx u b).single = true → u.txAt n b.val + 1 < 0x4000 →
        u.winOver n = true → s.Gives (.schedMiss dt n) dt fun e =>
          (e.can[n]).cell = none ∧ (tx e b).pend = false ∧ e.ram (u.txAt n b.val + 1) / 2 ^ 29 = 6
            ∧ e.cf n R.CAN_TT_STAT.sched_miss = Nat.min (u.cf n R.CAN_TT_STAT.sched_miss + 1) 255
            ∧ e = { u with store := e.store, can := e.can })
      ∧ (u.f pk R.SEC_CAN_CFG.ann_ctl = n.val → u.dev.st.operates = true → u.sec.trngFail = false → on →
        u.sec.annAt ≤ u.now → s.Gives (.canAnnouncement dt) dt fun e =>
          e = { u with
              can := e.can
              sec := { u.sec with annAt := u.sec.annAt + 50000000 * u.f pk R.SEC_CAN_CFG2.ann_period } } ∧ (∀ m : Can, m ≠ n → e.can[m] = u.can[m])
            ∧ e.can[n] = { u.can[n] with ann := some { bytes := beBytes 4 u.sec.sv.toNat ++ [0, 0, 0, 0], attempts := 0 } })

/-- Controller modes, recovery, bus errors and the schedule. -/
def Obligations.CanModesAndSchedule : Prop :=
  Claims.CanModes ∧ Claims.CanSchedule

/-! ## Two rules in full -/

/-- R35: a device-wide swap with use_frame. With d the distance of at_frame from the frame in progress, d from 1 to 128 waits
for the boundary that begins at_frame and acts there alone; d of 0 or from 129 on, and d of 1 with less than 20 us left, is
refused with FRAME_PAST, and no set is locked. -/
def Obligations.FramePast : Prop :=
  ∀ (s : State) (dt : Nat) (ecc : Ecc), let u := s.elapse dt; let a := u.asked
    let mask := u.f pk R.DEV_SWAP.cluster_mask; let cs := maskCls mask; let pkg := u.fb pk R.DEV_SWAP.package_set
    let frame := u.f pk R.DEV_SWAP.at_frame; let d := (frame + 256 - u.sync.frame % 256) % 256
    let near := u.sync.lastAt + 500 * u.sync.period < u.now + 10000
    let v := (a.discardAll cs).answer .ok
    (u.hostOpen → u.dev.swap = none → (∀ x ∈ cs, a.setLocked x = false) → u.fb pk R.DEV_SWAP.use_frame = true →
        u.sync.lost = false →
      (d = 0 ∨ 129 ≤ d ∨ (d = 1 ∧ near) → s.Gives (.deviceSwapRequest dt ecc) dt fun e =>
          e = a.answer .framePast ∧ ∀ x ∈ cs, e.setLocked x = false)
        ∧ (1 ≤ d → d ≤ 128 → ¬ (d = 1 ∧ near) → (∀ c ∈ cs, v.swapReason cs.contains c = 0 ∧ v.splitPair cs.contains c = false) →
          (pkg = true → pkgReason v (pkgB (!u.dev.pkgB)) = 0) → (fillAll ecc cs v).2 = none →
          s.Gives (.deviceSwapRequest dt ecc) dt fun e =>
            e.status = .ok ∧ e.dev.swap = some (mask + 256 * b2n pkg, some frame)))
      ∧ ∀ m k, u.dev.st ≠ .off → u.dev.swap = some (m, some k) →
        (k ≠ u.sync.frame % 256 → s.Gives (.deviceSwapAtFrame dt) dt (· = u))
          ∧ (k = u.sync.frame % 256 → s.Gives (.deviceSwapAtFrame dt) dt fun e =>
            ∀ y : Cl, bitAt m y.val = true → (e.cl[y]).setB = !(u.cl[y]).setB)

/-- R384: the CRC of chain words and sensor-port words, bit by bit, most significant first; that of a chain word over bits [31:4]; a status word, whose CRC is inverted, never passes as a
command; and the words of zeros and of ones fail. -/
def Obligations.ChainCrc : Prop :=
  (∀ (n poly c : Nat) (b : Bool) (bs : List Bool), crcBits n poly [] c = c
      ∧ crcBits n poly (b :: bs) c = crcBits n poly bs
          (if xor (bitAt c (n - 1)) b then Nat.xor (2 * c % 2 ^ n) poly else 2 * c % 2 ^ n))
    ∧ (∀ w : Nat, crc4 w = crcBits 4 3 ((List.range 28).map fun i => bitAt w (31 - i)) 0xF)
    ∧ (∀ (s : State) (p : Fin 2) (w : Nat), let b := spB p; let n := s.f b R.SP_CRC.crc_len; let len := s.f b R.SP_CFG.wlen
      n ≠ 0 → n ≤ len → (s.spCrcOk p w = true ↔
        Nat.xor (crcBits n (s.f b R.SP_CRC.poly % 2 ^ n) ((List.range (len - n)).map fun i => bitAt w (len - 1 - i))
            (s.f b R.SP_CRC.init % 2 ^ n)) (s.f b R.SP_CRC.xorout % 2 ^ n) = w % 2 ^ n))
    ∧ (∀ s : State, (s.chainStatus).toNat % 16 = Nat.xor (crc4 (s.chainStatus).toNat) 0xF)
    ∧ (∀ (s : State) (dt edges : Nat), let u := s.elapse dt
      u.dev.st ≠ .off → u.hp.exec = none → edges % 32 = 0 →
      s.Gives (.chainFrame dt edges [u.chainStatus]) dt fun e =>
        e.status = .crc ∧ e.cl = u.cl ∧ e.hp = { u.hp with chainStat := (1, none) })
    ∧ crc4 0 = 7 ∧ crc4 0xFFFFFFFF = 11

/-! ## Completion -/

/-- Where the commands of the clusters' sets and of the frames, the graticule and the carrier have their own effect. -/
def Sys2Proof.Claims.ClustersAndCarrierComplete : Prop :=
  ∀ (s : State) (dt : Nat) (n : Mcn), let u := s.elapse dt; let a := u.asked; let c := mcCl n; let m := u.mc[n]; let y := u.sync
    (u.hostOpen → a.armGroup c = some [c] → (u.cl[c]).st = .stopped → u.dev.st ≠ .bivouac →
        a.fb (rgB (clRg c)) R.RG_PS_STAT.bus_absent = false → a.known n = 0 → a.fb (mcB n) R.MC_GATE_SHORT.same_window = false →
        a.faultIn c 3 false = false → a.armPort c = true → a.armReason c = 0 →
        s.Gives (.arm dt c) dt fun e => e.status = .ok ∧ (e.cl[c]).st = .armed)
      ∧ (u.hostOpen → a.cmdGroup c = some [c] → (u.cl[c]).st ≠ .unused → a.setLocked c = false →
        s.Gives (.copyShadow dt c) dt (fun e => e.status = .ok ∧ (e.cl[c]).copying = true)
          ∧ ∀ ecc, let v := (a.discardAll [c]).answer .ok
            v.swapReason [c].contains c = 0 → (fillAll ecc [c] v).2 = none →
            s.Gives (.clusterSwapRequest dt c ecc) dt fun e => e.status = .ok ∧ (e.cl[c]).swapPending = true)
      ∧ ((u.cl[c]).st ≠ .unused →
        ((u.cl[c]).copying = true → s.Gives (.copyShadowDone dt c) dt fun e => (e.cl[c]).copying = false)
          ∧ ((u.cl[c]).swapPending = true → c ∈ u.group c → s.Gives (.clusterSwapTakesEffect dt c) dt fun e =>
            (e.cl[c]).setB = !(u.cl[c]).setB ∧ (e.cl[c]).swapPending = false)
          ∧ (∀ k : Fin 64, (m.grat[k]).live = true → u.within2us (m.grat[k]).edge = true →
            s.Gives (.edgeTimeCommit dt n k) dt fun e => ((e.mc[n]).grat[k]).committed = true)
          ∧ (∀ k : Fin 64, u.gf n k R.MC_GRAT_CTL.type = 8 → (u.gDue n k).isSome = true → u.gActs n k = true →
            (∀ j : Fin 64, j.val < k.val → u.gDue n j ≠ u.gDue n k) → s.Gives (.graticuleFiring dt n k) dt fun e =>
              ((u.link[clRg c]).lost = false → evMc n 2 ∈ e.raised) ∧ ((e.mc[n]).grat[k]).lastFire = some u.now16)
          ∧ (u.conv n = false → m.pwm.running = true →
            (m.pwm.zeroAt + m.pwm.period ≤ u.now → s.Gives (.counterZero dt n 0) dt fun e => ((e.mc[n]).pwm).zeroAt = u.now)
              ∧ (m.pwm.rising = true → m.pwm.zeroAt + m.pwm.period / 2 ≤ u.now → s.Gives (.periodEvent dt n 0) dt fun e =>
                ((e.mc[n]).pwm).rising = false)
              ∧ (m.dat.valid = true → (u.cl[c]).st.moving = true → s.Gives (.ratioCrossing dt n) dt fun e =>
                ((e.mc[n]).scar).entry.isSome = decide (u.scSelect n (m.dat.speedAt u.now16) ≠ 0)))
          ∧ (∀ x, m.pwm.pend = some x → s.Gives (.compareApply dt n) dt fun e => ((e.mc[n]).pwm).pend = none)
          ∧ (∀ k, m.pwm.kfNext = some k → s.Gives (.carrierFrequencyChange dt n) dt fun e => ((e.mc[n]).pwm).kf = k)
          ∧ (m.dat.valid = true → u.sectorsByDatum n = true → u.sectorDue n = true →
            s.Gives (.sectorBoundary dt n) dt fun e =>
              e.f (mcB n) R.MC_PWM_STAT.sector
                = (u.f (mcB n) R.MC_PWM_STAT.sector + if m.dat.rev = true then 5 else 1) % 6))
      ∧ (u.syncRole = 2 → y.expected = none →
        s.Gives (.syncEdge dt true) dt (fun e => e.sync.frame = 0 ∧ e.sync.expected = some (u.now + u.frameTicks))
          ∧ s.Gives (.syncWindowClose dt) dt fun e => e.sync.expected = some (u.now + u.frameTicks))
      ∧ (u.dev.st ≠ .off → u.frameDue = true → y.numbered = false → ∀ w, s.Gives (.frameBoundary dt w) dt fun e =>
        e.sync.frame = (y.frame + 1) % 256)

/-- Where the commands of sensing have their own effect. -/
def Sys2Proof.Claims.SensingCompletes : Prop :=
  ∀ (s : State) (dt : Nat) (g : Grp), let u := s.elapse dt; let x := u.grp[g]; let b := grpB g
    (match grpMc g with | some n => (u.cl[mcCl n]).st ≠ .unused | none => u.dev.st ≠ .off) →
    (∀ inj : Bool, let q := if inj then x.inj else x.reg
        let trig := u.f (u.seqB g) (if inj then R.SEQ_CFG.inj_trig else R.SEQ_CFG.reg_trig)
        u.senRuns g = true → u.f (u.seqB g) (if inj then R.SEQ_CFG.inj_len else R.SEQ_CFG.reg_len) ≠ 0 → q.plan = [] →
        q.last ≠ some u.now → u.trigLive g trig = true →
        s.Gives (.sequenceTrigger dt g inj) dt (fun e =>
            (if inj then (e.grp[g]).inj else (e.grp[g]).reg).plan = u.seqPlan g inj)
          ∧ (u.hostOpen → trig = 7 →
            (inj = false → s.Gives (.swReg dt g) dt fun e => e.status = .ok ∧ (e.grp[g]).reg.plan = u.seqPlan g false)
              ∧ (inj = true → s.Gives (.swInj dt g) dt fun e => e.status = .ok ∧ (e.grp[g]).inj.plan = u.seqPlan g true)))
      ∧ (∀ i, u.freeSlice g = some i →
        (∀ k w r, x.reg.plan = (k, w) :: r → r ≠ [] → x.reg.due ≤ u.now → u.urgentDue g = false →
            s.Gives (.sequenceEntryIssue dt g) dt fun e => (e.grp[g]).reg.plan = r ∧ ((e.grp[g]).slot[i]).isSome = true)
          ∧ (∀ t v r, x.urgent = (t, v) :: r → x.inj.plan = [] → s.Gives (.urgentRequest dt g) dt fun e =>
            (e.grp[g]).urgent = r ∧ ((e.grp[g]).slot[i]).isSome = true))
      ∧ (∀ (i : Fin 3) (k : Fin 16) (v : Code) (w pass by_ : Nat), x.slot[i] = some (.reg k.val w pass, by_) →
        (∀ j : Fin 3, j ≠ i → ∀ y p z, x.slot[j] ≠ some (.reg k.val y p, z)) → i ∈ seqSlices g → w % 64 = 0x13 →
        bitAt w 6 = false → bitAt w 7 = false →
        s.Gives (.conversionResultReady dt g (.regular k v)) dt fun e => ((e.grp[g]).slot[i]) = none)
      ∧ (u.fb b R.SEN_CAL.cal_en = true → u.fb b R.SEN_ROLE.no_spare = false → x.shadow = false →
        u.worn (sliceUnit g (u.slice g (spareRole g))) = false →
        s.Gives (.calibrationStep dt g true) dt fun e => (e.grp[g]).shadow = true)
      ∧ (x.shadow = true → u.roleBusy g x.calNext = false →
        s.Gives (.calibrationHandover dt g none) dt fun e => (e.grp[g]).calNext = (x.calNext + 1) % spareRole g)
      ∧ (∀ n, grpMc g = some n → u.ampSpare n = true →
        (u.mc[n]).pwm.running = true → u.f (ampB n) R.SEN_AMPCHK.amp_period ≠ 0 →
          s.Gives (.ampCheck dt n true none) dt fun e => (e.grp[g]).ampBusy = true)
      ∧ (∀ n, grpMc g = some n →
        (x.ampBusy = true → s.Gives (.ampCheckTimeout dt n) dt fun e => (e.grp[g]).ampBusy = false)
          ∧ ∀ p, x.ampSwap = some p → u.ampSpare n = true →
            s.Gives (.ampSubstitution dt n) dt fun e => e.f (ampB n) R.SEN_AMPMAP.amp_spare = u.amp n p)
      ∧ (g ≠ 8 → (∀ w, x.fifo = [w] → u.dmaFill g + 1 < Nat.max 1 (u.dmaLen g) → s.Gives (.dmaWrite dt g) dt fun e =>
          e.word (0x580000 + u.gst g R.SEN_DMA_BUF.base + u.f b R.SEN_DMA_PTR.wptr) = w)
        ∧ ∀ v : BitVec 16, u.hostOpen → v.toNat < u.dmaLen g → s.Gives (.dmaRptrWrite dt g v) dt fun e =>
          e.status = .ok ∧ e.f b R.SEN_DMA_PTR.rptr = v.toNat)

/-- Where the commands of the position sensors and of the estimator have their own effect. -/
def Sys2Proof.Claims.EstimationCompletes : Prop :=
  ∀ (s : State) (dt : Nat) (n : Mcn), let u := s.elapse dt; let x := (u.mc[n]).est; let st := (u.cl[mcCl n]).st
    st ≠ .unused → u.conv n = false →
    (u.source n = 1 →
      (∀ code : BitVec 3, let v := bitsAt (u.st n R.MC_POS_MAP.hall_map) (3 * code.toNat) 3
        v < 6 → s.Gives (.hallEdge dt n code) dt fun e => ((e.mc[n]).est).hall = some v)
        ∧ (x.hall.isSome = true → ((u.mc[n]).dat).valid = true → s.Gives (.hallStopTimeout dt n) dt fun e =>
          ((e.mc[n]).est).edges = []))
      ∧ (u.source n = 2 →
        s.Gives (.encoderCountEdge dt n .up) dt (fun e => e.encCount n = sgn 32 (uns 32 (u.encCount n + 1)))
          ∧ (u.st n R.MC_POS_ENC.z_en = 1 → s.Gives (.encoderIndex dt n) dt fun e => e.f (mcB n) R.MC_EST_STAT.enc_ref = 1))
      ∧ (u.dev.st ≠ .off → ∀ p : Fin 2, u.portMode p = 2 → ∀ bits ago w,
        s.Gives (.sensorSlaveWord dt p bits ago w) dt (fun e => (e.sp[p]).new = true)
          ∧ (sourcePort (u.source n) = some p → (u.sp[p]).new = true →
            s.Gives (.sensorTransfer dt n ago w) dt fun e => (e.sp[p]).new = false))
      ∧ (u.foc n = false → x.zcDone = false → x.zcOver = false → st.moving = true →
        s.Gives (.zcWindowExpiry dt n) dt fun e => ((e.mc[n]).est).zcNone = x.zcNone + 1)
      ∧ (u.fsRuns n = true → s.Gives (.trackerConversion dt n) dt fun e =>
        (e.grp[mcG n]).urgent = (u.grp[mcG n]).urgent ++ allP.map fun p => (u.now, Conv.track p))
      ∧ (u.estF n R.MC_EST_STAT.phase = 1 → x.fsSeen = false → ((u.mc[n]).dat).valid = false →
        u.setFld n R.MC_START_CFG.find = 1 → s.Gives (.probeEnd dt n) dt fun e => e.estF n R.MC_EST_STAT.phase = 2)
      ∧ (st = .starting →
        (u.estF n R.MC_EST_STAT.phase = 2 → u.setFld n R.MC_START_CFG.find = 1 → s.Gives (.alignDone dt n) dt fun e =>
            ((e.mc[n]).dat).valid = true)
          ∧ (u.estF n R.MC_EST_STAT.phase = 3 → 6 < x.polStep → ∀ k : Nat, 0 < k → s.Gives (.polarityPulse dt n k 0) dt fun e =>
            ((e.mc[n]).dat).valid = true)
          ∧ (x.failed = false → s.Gives (.startTimeout dt n) dt fun e => ((e.mc[n]).est).failed = true)
          ∧ (x.failed = true → u.setFld n R.MC_START_CFG.fly = 1 → s.Gives (.startRetry dt n) dt fun e =>
            ((e.mc[n]).est).failed = false ∧ e.estF n R.MC_EST_STAT.phase = 1))
      ∧ (∀ t, x.stallSince = some t → u.foc n = true → st.moving = true →
        t + max 1 (u.setFld n R.MC_STALL_CFG.stall_t) * 500000 ≤ u.now → (u.link[clRg (mcCl n)]).lost = false →
        s.Gives (.stall dt n) dt fun e => evMc n 10 ∈ e.raised)
      ∧ (∀ p, x.resume = some p → x.recOver = false → st = .running → s.Gives (.controlResume dt n) dt fun e =>
        ((e.mc[n]).dat).valid = true ∧ ((e.mc[n]).est).recPath = none)
      ∧ (x.recPath ≠ none → x.again = false → x.recOver = false → (u.link[clRg (mcCl n)]).lost = false →
        s.Gives (.reacqWindowExpiry dt n) dt fun e => evMc n 12 ∈ e.raised)

/-- Where the commands of the lanes, their jobs, the sheets and the pager have their own effect: a job that completes in time
leaves its lane in service. -/
def Sys2Proof.Claims.LanesAndSheetsComplete : Prop :=
  ∀ (s : State) (dt : Nat), let u := s.elapse dt; let a := u.asked
    u.dev.st ≠ .off →
    (∀ j, u.jobAllowed j = true → u.jobDue j = true → s.Gives (.jobRelease dt j) dt fun e =>
        e.lastRelease j = some u.now)
      ∧ (∀ (i : Fin 8) (r : Running), (u.lanes[i]).busy = some r → u.laneOf r.what.job = some i →
        (u.lanes[i]).st = .inService →
        (u.overrun r = false →
          let done (c : Instr) (j : JobId) : Prop := r.what.job = j → s.Gives c dt fun e => (e.lanes[i]).st = .inService
          (∀ n : Mcn, done (.curJob dt n) (.cur n) ∧ done (.obsJob dt n) (.obs n) ∧ done (.spdJob dt n) (.spd n)
              ∧ done (.posJob dt n) (.pos n) ∧ done (.ccurJob dt n) (.ccur n) ∧ done (.cvoltJob dt n) (.cvolt n)
              ∧ done (.thermJob dt (.inl n)) (.thermM n) ∧ done (.atlasJob dt n) (.atlas n))
            ∧ (∀ x : Axis, done (.profJob dt x) (.prof x)) ∧ (∀ g : Rg, done (.thermJob dt (.inr g)) (.thermR g))
            ∧ (∀ k : Fin 4, done (.traceJob dt k) (.trace k)) ∧ done (.ltestJob dt i true) (.ltest i))
          ∧ (u.overrun r = true → s.Gives (.laneFail dt i) dt fun e => (e.lanes[i]).st = .retired))
      ∧ (∀ i count, s.Gives (.laneRateWindow dt i count) dt fun e =>
        (e.lanes[i]).rate = (clampI 0 4096 (qdiv (count * 4096 : Nat) 16000)).toNat)
      ∧ (u.lanesIn ≠ [] → s.Gives (.stewardPoolTest dt) dt fun e => e.f pk R.LN_LOAD.util = (clampI 0 255
          (qdiv (u.poolCyc * 409600 : Nat) (Nat.max 1 (u.lanesIn.foldl (fun t i => t + (u.lanes[i]).rate) 0) * 256000 : Nat))).toNat)
      ∧ (u.hostOpen → ∀ (off : Fin 0x100000) (w : Word), u.sheetSt (off.val / 256) ≠ 3 → u.sheetInUse (off.val / 256) = false →
        s.Gives (.sheetWindowWrite dt off w) dt fun e => e.status = .ok ∧ e.word (0x400000 + off.val) = w)
      ∧ (u.hostOpen → ∀ x : BitVec 12, u.fb pk R.ATL_CMD.busy = false → u.sheetInUse x.toNat = false →
        s.Gives (.sheetCheck dt x) dt fun e => e.atlChk = some x.toNat)
      ∧ (∀ k, u.atlChk = some k → s.Gives (.sheetCheckDone dt []) dt fun e =>
        e.atlChk = none ∧ e.f pk R.ATL_CMD.result = u.sheetTest k)
      ∧ (∀ n : Mcn, (u.cl[mcCl n]).st ≠ .unused → let p := (u.mc[n]).atl
        (∀ f, p.fill = some f → (∀ k ∈ f.cells.sheets, u.sheetCrcOk k = true) → s.Gives (.atlasFillComplete dt n []) dt fun e =>
            ((e.mc[n]).atl).fill = none)
          ∧ (p.fill ≠ none → p.dueAt.isSome = true → u.fb (mcB n) R.MC_ATL_STAT.critical = false →
            s.Gives (.sheetMiss dt n) dt fun e => e.f (mcB n) R.MC_ATL_STAT.critical = 1)
          ∧ ∀ (g : Fin 4) (f : Fill), bitAt (u.f (mcB n) R.MC_LOOP_BANK.pending) g.val = true → p.swap = none →
            p.held = some f → p.dueAt.isSome = true → g.val < 2 → s.Gives (.bankSwap dt n g) dt fun e =>
              e.idle n g = (if u.idle n g = 0 then 1 else 0))
      ∧ (∀ pos : Fin 512, pos.val ∈ u.rowFlags → ∀ x r, u.rowSpares = x :: r →
        s.Gives (.rowGroupSubstitution dt pos []) dt fun e => (pos.val, x) ∈ e.rowMap)

/-- Where the commands of clusters, frames, carrier, sensing, estimation, lanes and sheets have their own effect. -/
def Obligations.DriveCommandsComplete : Prop :=
  Claims.ClustersAndCarrierComplete ∧ Claims.SensingCompletes ∧ Claims.EstimationCompletes ∧ Claims.LanesAndSheetsComplete
end

