-- ==== Sys2Proof/Laws/Memory.lean ====
section
/-! SUPPORT. The laws of the two memories: a read after a write, and the canonical form that every memory operation keeps
(Memory.wf of the store of words, Flash.wf of the flash). -/

namespace Sys2Proof.Machine

/-! ## The store of words -/

theorem wordAt_insertKey (m : List (Nat × Word)) (key : Nat) (w : Word) (k : Nat) :
    wordAt (insertKey m key w) k = if k = key then some w else wordAt m k := by
  induction m with
  | nil => simp [insertKey, wordAt, eq_comm]
  | cons e m ih =>
    obtain ⟨a, b⟩ := e
    simp only [insertKey]
    split
    · simp only [wordAt, eq_comm]
    · split
      · subst_vars; simp only [wordAt, eq_comm]; split <;> simp_all
      · simp only [wordAt, ih]; split <;> simp_all

theorem wordAt_eraseKey (m : List (Nat × Word)) (key k : Nat) :
    wordAt (eraseKey m key) k = if k = key then none else wordAt m k := by
  induction m with
  | nil => simp [eraseKey, wordAt]
  | cons e m ih =>
    obtain ⟨a, b⟩ := e
    simp only [eraseKey]
    split
    · subst_vars; rw [ih]; simp only [wordAt]; split <;> simp_all [eq_comm]
    · simp only [wordAt, ih]; split <;> simp_all

/-- A word reads as it was written, and every other word as before. -/
theorem State.word_setWord (s : State) (key : Nat) (w : Word) (k : Nat) :
    (s.setWord key w).word k = if k = key then w else s.word k := by
  unfold State.word State.setWord
  simp only
  split
  · rw [wordAt_eraseKey]; split <;> simp_all
  · rw [wordAt_insertKey]; split <;> simp_all

@[simp] theorem State.word_setWord_self (s : State) (key : Nat) (w : Word) : (s.setWord key w).word key = w := by
  simp [State.word_setWord]

theorem State.word_setWord_ne (s : State) {key k : Nat} (w : Word) (h : k ≠ key) :
    (s.setWord key w).word k = s.word k := by
  simp [State.word_setWord, h]

/-! ## The canonical form -/

theorem rising_cons (a : Nat) (w : Word) (m : List (Nat × Word)) :
    rising ((a, w) :: m) = true ↔ (∀ e ∈ m, a < e.1) ∧ rising m = true := by
  induction m generalizing a w with
  | nil => simp [rising]
  | cons e m ih =>
    obtain ⟨b, v⟩ := e
    have := ih b v
    simp only [rising, Bool.and_eq_true, decide_eq_true_eq, List.mem_cons, forall_eq_or_imp] at this ⊢
    constructor
    · rintro ⟨h, k⟩
      exact ⟨⟨h, fun e he => Nat.lt_trans h ((this.1 k).1 e he)⟩, k⟩
    · rintro ⟨⟨h, _⟩, k⟩
      exact ⟨h, k⟩

theorem mem_insertKey {m : List (Nat × Word)} {key : Nat} {w : Word} {e : Nat × Word} (h : e ∈ insertKey m key w) :
    e = (key, w) ∨ e ∈ m := by
  induction m with
  | nil => simpa [insertKey] using h
  | cons a m ih =>
    obtain ⟨k, v⟩ := a
    simp only [insertKey] at h
    split at h
    · simpa using h
    · split at h
      · simp only [List.mem_cons] at h ⊢; exact h.imp_right Or.inr
      · simp only [List.mem_cons] at h ⊢
        rcases h with h | h
        · exact .inr (.inl h)
        · exact (ih h).imp_right Or.inr

theorem mem_eraseKey {m : List (Nat × Word)} {key : Nat} {e : Nat × Word} (h : e ∈ eraseKey m key) : e ∈ m := by
  induction m with
  | nil => simp [eraseKey] at h
  | cons a m ih =>
    obtain ⟨k, v⟩ := a
    simp only [eraseKey] at h
    split at h
    · exact List.mem_cons_of_mem _ (ih h)
    · simp only [List.mem_cons] at h ⊢; exact h.imp_right ih

theorem rising_insertKey {m : List (Nat × Word)} (key : Nat) (w : Word) (h : rising m = true) :
    rising (insertKey m key w) = true := by
  induction m with
  | nil => simp [insertKey, rising]
  | cons a m ih =>
    obtain ⟨k, v⟩ := a
    have hk := (rising_cons k v m).1 h
    simp only [insertKey]
    split
    · refine (rising_cons ..).2 ⟨fun e he => ?_, h⟩
      rcases List.mem_cons.1 he with rfl | he
      · assumption
      · exact Nat.lt_trans (by assumption) (hk.1 e he)
    · split
      · subst_vars; exact (rising_cons ..).2 hk
      · refine (rising_cons ..).2 ⟨fun e he => ?_, ih hk.2⟩
        rcases mem_insertKey he with rfl | he
        · simp only; omega
        · exact hk.1 e he

theorem rising_eraseKey {m : List (Nat × Word)} (key : Nat) (h : rising m = true) : rising (eraseKey m key) = true := by
  induction m with
  | nil => simp [eraseKey, rising]
  | cons a m ih =>
    obtain ⟨k, v⟩ := a
    have hk := (rising_cons k v m).1 h
    simp only [eraseKey]
    split
    · exact ih hk.2
    · exact (rising_cons ..).2 ⟨fun e he => hk.1 e (mem_eraseKey he), ih hk.2⟩

theorem Memory.wf_insertKey {m : List (Nat × Word)} {key : Nat} {w : Word} (h : Memory.wf m = true)
    (hw : w ≠ regReset key) : Memory.wf (insertKey m key w) = true := by
  simp only [Memory.wf, Bool.and_eq_true, List.all_eq_true, bne_iff_ne] at h ⊢
  refine ⟨rising_insertKey key w h.1, fun e he => ?_⟩
  rcases mem_insertKey he with rfl | he
  · exact hw
  · exact h.2 e he

theorem Memory.wf_eraseKey {m : List (Nat × Word)} (key : Nat) (h : Memory.wf m = true) :
    Memory.wf (eraseKey m key) = true := by
  simp only [Memory.wf, Bool.and_eq_true, List.all_eq_true, bne_iff_ne] at h ⊢
  exact ⟨rising_eraseKey key h.1, fun e he => h.2 e (mem_eraseKey he)⟩

/-- A write keeps the canonical form. -/
theorem State.setWord_wf (s : State) (key : Nat) (w : Word) (h : Memory.wf s.store = true) :
    Memory.wf (s.setWord key w).store = true := by
  unfold State.setWord
  simp only
  split
  · exact Memory.wf_eraseKey key h
  · exact Memory.wf_insertKey h (by assumption)

/-- Any list of words has a canonical form. -/
theorem canonWords_wf (m : List (Nat × Word)) : Memory.wf (canonWords m) = true := by
  induction m with
  | nil => rfl
  | cons e m ih =>
    simp only [canonWords, List.foldr_cons] at ih ⊢
    split
    · exact Memory.wf_eraseKey _ ih
    · exact Memory.wf_insertKey ih (by assumption)

/-- The canonical form reads as the list it was made from. -/
theorem wordAt_canonWords (m : List (Nat × Word)) (k : Nat) :
    (wordAt (canonWords m) k).getD (regReset k) = (wordAt m k).getD (regReset k) := by
  induction m with
  | nil => rfl
  | cons e m ih =>
    obtain ⟨a, b⟩ := e
    show (wordAt (if b = regReset a then eraseKey (canonWords m) a else insertKey (canonWords m) a b) k).getD _ = _
    by_cases h : k = a
    · subst h
      split
      · rw [wordAt_eraseKey, if_pos rfl, wordAt, if_pos rfl, Option.getD_none, Option.getD_some]; exact Eq.symm (by assumption)
      · rw [wordAt_insertKey, if_pos rfl, wordAt, if_pos rfl]
    · have h' : ¬ a = k := fun e => h e.symm
      split
      · rw [wordAt_eraseKey, if_neg h, wordAt, if_neg h']; exact ih
      · rw [wordAt_insertKey, if_neg h, wordAt, if_neg h']; exact ih

/-! ## The flash -/

theorem Flash.wf_cons (a : Nat) (b : BitVec 8) (m : List Host.Cell) :
    Flash.wf ((a, b) :: m) = true ↔ (∀ e ∈ m, a < e.1) ∧ b ≠ 255 ∧ Flash.wf m = true := by
  induction m generalizing a b with
  | nil => simp [Flash.wf]
  | cons e m ih =>
    obtain ⟨c, v⟩ := e
    have := ih c v
    simp only [Flash.wf, Bool.and_eq_true, decide_eq_true_eq, List.mem_cons, forall_eq_or_imp, bne_iff_ne] at this ⊢
    constructor
    · rintro ⟨⟨h, hb⟩, k⟩
      exact ⟨⟨h, fun e he => Nat.lt_trans h ((this.1 k).1 e he)⟩, hb, k⟩
    · rintro ⟨⟨h, _⟩, hb, k⟩
      exact ⟨⟨h, hb⟩, k⟩

theorem mem_insertCell {m : List Host.Cell} {a : Nat} {v : BitVec 8} {e : Host.Cell} (h : e ∈ insertCell m a v) :
    e = (a, v) ∨ e ∈ m := by
  induction m with
  | nil => simpa [insertCell] using h
  | cons c m ih =>
    obtain ⟨x, b⟩ := c
    simp only [insertCell] at h
    split at h
    · simpa using h
    · split at h
      · simp only [List.mem_cons] at h ⊢; exact h.imp_right Or.inr
      · simp only [List.mem_cons] at h ⊢
        rcases h with h | h
        · exact .inr (.inl h)
        · exact (ih h).imp_right Or.inr

theorem mem_eraseCell {m : List Host.Cell} {a : Nat} {e : Host.Cell} (h : e ∈ eraseCell m a) : e ∈ m := by
  induction m with
  | nil => simp [eraseCell] at h
  | cons c m ih =>
    obtain ⟨x, b⟩ := c
    simp only [eraseCell] at h
    split at h
    · exact List.mem_cons_of_mem _ (ih h)
    · simp only [List.mem_cons] at h ⊢; exact h.imp_right ih

theorem Flash.wf_insertCell {m : List Host.Cell} {a : Nat} {v : BitVec 8} (h : Flash.wf m = true) (hv : v ≠ 255) :
    Flash.wf (insertCell m a v) = true := by
  induction m with
  | nil => simpa [insertCell, Flash.wf] using hv
  | cons c m ih =>
    obtain ⟨x, b⟩ := c
    have hk := (Flash.wf_cons x b m).1 h
    simp only [insertCell]
    split
    · refine (Flash.wf_cons ..).2 ⟨fun e he => ?_, hv, h⟩
      rcases List.mem_cons.1 he with rfl | he
      · assumption
      · exact Nat.lt_trans (by assumption) (hk.1 e he)
    · split
      · subst_vars; exact (Flash.wf_cons ..).2 ⟨hk.1, hv, hk.2.2⟩
      · refine (Flash.wf_cons ..).2 ⟨fun e he => ?_, hk.2.1, ih hk.2.2⟩
        rcases mem_insertCell he with rfl | he
        · simp only; omega
        · exact hk.1 e he

theorem Flash.wf_eraseCell {m : List Host.Cell} (a : Nat) (h : Flash.wf m = true) : Flash.wf (eraseCell m a) = true := by
  induction m with
  | nil => rfl
  | cons c m ih =>
    obtain ⟨x, b⟩ := c
    have hk := (Flash.wf_cons x b m).1 h
    simp only [eraseCell]
    split
    · exact ih hk.2.2
    · exact (Flash.wf_cons ..).2 ⟨fun e he => hk.1 e (mem_eraseCell he), hk.2.1, ih hk.2.2⟩

/-- Programming a byte keeps the flash's canonical form. -/
theorem putByte_wf (m : List Host.Cell) (a : Nat) (v : BitVec 8) (h : Flash.wf m = true) : Flash.wf (putByte m a v) = true := by
  unfold putByte
  split
  · exact Flash.wf_eraseCell a h
  · exact Flash.wf_insertCell h (by assumption)

/-- Any list of bytes has a canonical form. -/
theorem canonCells_wf (m : List Host.Cell) : Flash.wf (canonCells m) = true := by
  induction m with
  | nil => rfl
  | cons e m ih => exact putByte_wf _ _ _ ih

theorem flashByte_cons (x : Nat) (b : BitVec 8) (m : List Host.Cell) (k : Nat) :
    flashByte ((x, b) :: m) k = if k = x then b.toNat else flashByte m k := by
  by_cases h : x = k
  · simp [flashByte, h]
  · have : ¬ k = x := fun e => h e.symm
    simp [flashByte, h, this]

theorem flashByte_eraseCell (m : List Host.Cell) (a k : Nat) :
    flashByte (eraseCell m a) k = if k = a then 255 else flashByte m k := by
  induction m with
  | nil => simp [eraseCell, flashByte]
  | cons c m ih =>
    obtain ⟨x, b⟩ := c
    simp only [eraseCell]
    split
    · subst_vars; rw [ih, flashByte_cons]; split <;> simp_all
    · rw [flashByte_cons, flashByte_cons, ih]; split <;> split <;> simp_all

theorem flashByte_insertCell (m : List Host.Cell) (a : Nat) (v : BitVec 8) (k : Nat) :
    flashByte (insertCell m a v) k = if k = a then v.toNat else flashByte m k := by
  induction m with
  | nil => simp [insertCell, flashByte_cons]
  | cons c m ih =>
    obtain ⟨x, b⟩ := c
    simp only [insertCell]
    split
    · rw [flashByte_cons]
    · split
      · subst_vars; rw [flashByte_cons, flashByte_cons]; split <;> simp_all
      · rw [flashByte_cons, flashByte_cons, ih]; split <;> split <;> simp_all

/-- A byte of the flash reads as it was put, and every other byte as before. -/
theorem flashByte_putByte (m : List Host.Cell) (a : Nat) (v : BitVec 8) (k : Nat) :
    flashByte (putByte m a v) k = if k = a then v.toNat else flashByte m k := by
  unfold putByte
  split
  · subst_vars; rw [flashByte_eraseCell]; rfl
  · exact flashByte_insertCell ..

/-- The canonical form reads as the list it was made from. -/
theorem flashByte_canonCells (m : List Host.Cell) (k : Nat) : flashByte (canonCells m) k = flashByte m k := by
  induction m with
  | nil => rfl
  | cons e m ih =>
    show flashByte (putByte (canonCells m) e.1 e.2) k = _
    rw [flashByte_putByte, ih, flashByte_cons]

end Sys2Proof.Machine
end

