-- ==== Sys2Proof/Laws/Commands.lean ====
section
/-! SUPPORT. What every command shares: the effect of a host's command where the host is judged, and what the end of a
command carries over from its effect. -/

namespace Sys2Proof.Machine

/-! ## The host's commands -/

/-- Where the host's commands are judged, its command has its own effect. -/
theorem State.hostDo_open {u : State} (h : u.hostOpen) (act : State → State) :
    u.hostDo act = act { u with data := [], tear := false, range := false, authed := false } := by
  obtain ⟨hd, he, hl⟩ := h
  have h0 : u.dev.st ≠ .off := by rcases hd with e | e | e | e <;> simp [e]
  have h1 : ¬ (u.dev.st = .basecamp ∨ u.dev.st = .verify) := by rcases hd with e | e | e | e <;> simp [e]
  simp [State.hostDo, h0, h1, he, hl]

theorem State.hostAct_open {u : State} (h : u.hostOpen) (act : State → State) : u.hostAct act = act u.asked := by
  unfold State.hostAct
  rw [State.hostDo_open h]
  rfl

theorem State.hostCmd_open {u : State} (h : u.hostOpen) (a : Nat) (act : State → State) (hb : u.asked.blind a = false) :
    u.hostCmd a act = act u.asked := by
  unfold State.hostCmd
  rw [State.hostDo_open h]
  exact if_neg (by rw [show ({ u with data := [], tear := false, range := false, authed := false } : State).answer .ok = u.asked
    from rfl, hb]; decide)

/-- While an operation executes, the host is answered BUSY (R392). -/
theorem State.hostDo_busy {u : State} (h0 : u.dev.st ≠ .off) (he : u.hp.exec ≠ none) (act : State → State) :
    u.hostDo act = (({ u with data := [], tear := false, range := false, authed := false } : State).inc pk
      R.HP_CNT.busy_count).answer .busy := by
  have : u.hp.exec.isSome = true := Option.isSome_iff_ne_none.mpr he
  simp [State.hostDo, h0, this]

/-! ## Where an event acts -/

theorem State.onKilid_live {u : State} (h : u.dev.st ≠ .off) (act : State → State) : u.onKilid act = act u := if_neg h

theorem State.onCl_live {u : State} {c : Cl} (h : (u.cl[c]).st ≠ .unused) (act : State → State) : u.onCl c act = act u :=
  if_neg h

theorem State.onMc_live {u : State} {n : Mcn} (h : (u.cl[mcCl n]).st ≠ .unused) (act : State → State) :
    u.onMc n act = act u := if_neg h

theorem State.onSt_live {u : State} {k : Chan} (h : (u.cl[stCl k]).st ≠ .unused) (act : State → State) :
    u.onSt k act = act u := if_neg h

/-! ## The end of a command -/

@[simp] theorem State.done_now (s : State) (dt : Nat) (e : State) : (s.done dt e).now = s.now + dt := rfl
@[simp] theorem State.done_pending (s : State) (dt : Nat) (e : State) : (s.done dt e).pending = s.pending := rfl
@[simp] theorem State.done_authed (s : State) (dt : Nat) (e : State) : (s.done dt e).authed = false := rfl
@[simp] theorem State.done_status (s : State) (dt : Nat) (e : State) : (s.done dt e).status = e.status := rfl
@[simp] theorem State.done_data (s : State) (dt : Nat) (e : State) : (s.done dt e).data = e.data := rfl
@[simp] theorem State.done_sec (s : State) (dt : Nat) (e : State) : (s.done dt e).sec = e.sec := rfl
@[simp] theorem State.done_hp (s : State) (dt : Nat) (e : State) : (s.done dt e).hp = e.hp := rfl
@[simp] theorem State.done_can (s : State) (dt : Nat) (e : State) : (s.done dt e).can = e.can := rfl
@[simp] theorem State.done_boot (s : State) (dt : Nat) (e : State) : (s.done dt e).boot = e.boot := rfl

theorem State.done_sound (s : State) (dt : Nat) (e : State) : (s.done dt e).Sound := by
  have h1 : (s.done dt e).store = canonWords e.settle.store := by simp only [State.done]
  have h2 : (s.done dt e).flash = canonCells e.flash := by simp only [State.done]
  exact ⟨h1 ▸ canonWords_wf _, h2 ▸ canonCells_wf _⟩

theorem State.done_flashByte (s : State) (dt : Nat) (e : State) (k : Nat) :
    flashByte (s.done dt e).flash k = flashByte e.flash k := flashByte_canonCells _ k

/-! ## Changes for each element of a list -/

@[simp] theorem State.each_nil {α : Type} (s : State) (g : α → State → State) : s.each [] g = s := rfl
@[simp] theorem State.each_cons {α : Type} (s : State) (a : α) (l : List α) (g : α → State → State) :
    s.each (a :: l) g = (g a s).each l g := rfl

/-- What every step keeps, the whole of it keeps. -/
theorem State.each_keeps {α : Type} {P : State → Prop} {l : List α} {g : α → State → State}
    (h : ∀ a t, P t → P (g a t)) (s : State) (hs : P s) : P (s.each l g) := by
  induction l generalizing s with
  | nil => exact hs
  | cons a l ih => exact ih (g a s) (h a s hs)

end Sys2Proof.Machine
end

