-- ==== Sys2Proof/Laws/Fields.lean ====
section
/-! SUPPORT. The laws of register fields: a field reads as it was put, and a field that shares no bit with it reads as
before. -/

namespace Sys2Proof.Machine

/-- The bits below, in and above a field. -/
theorem bits_split (n lo w : Nat) :
    n = n / 2 ^ (lo + w) * 2 ^ (lo + w) + bitsAt n lo w * 2 ^ lo + n % 2 ^ lo := by
  have h1 : n = 2 ^ lo * (n / 2 ^ lo) + n % 2 ^ lo := (Nat.div_add_mod n (2 ^ lo)).symm
  have h2 : n / 2 ^ lo = 2 ^ w * (n / 2 ^ lo / 2 ^ w) + n / 2 ^ lo % 2 ^ w := (Nat.div_add_mod _ _).symm
  have h3 : n / 2 ^ (lo + w) = n / 2 ^ lo / 2 ^ w := by rw [Nat.pow_add, Nat.div_div_eq_div_mul]
  unfold bitsAt
  rw [h3, Nat.pow_add]
  calc n = 2 ^ lo * (n / 2 ^ lo) + n % 2 ^ lo := h1
    _ = 2 ^ lo * (2 ^ w * (n / 2 ^ lo / 2 ^ w) + n / 2 ^ lo % 2 ^ w) + n % 2 ^ lo := by rw [← h2]
    _ = _ := by
      rw [Nat.mul_add, Nat.mul_comm (2 ^ lo) (n / 2 ^ lo % 2 ^ w), ← Nat.mul_assoc,
        Nat.mul_comm (2 ^ lo * 2 ^ w) (n / 2 ^ lo / 2 ^ w)]

/-- The word after a field has been put, as a number. -/
theorem Fld.put_toNat (f : Fld) (w : Word) (v : Nat) (h : f.lo + f.w ≤ 32) :
    (f.put w v).toNat
      = w.toNat / 2 ^ (f.lo + f.w) * 2 ^ (f.lo + f.w) + v % 2 ^ f.w * 2 ^ f.lo + w.toNat % 2 ^ f.lo := by
  have hs := bits_split w.toNat f.lo f.w
  have hv : v % 2 ^ f.w + 1 ≤ 2 ^ f.w := Nat.mod_lt _ (Nat.two_pow_pos _)
  have hr : w.toNat % 2 ^ f.lo < 2 ^ f.lo := Nat.mod_lt _ (Nat.two_pow_pos _)
  have hq : (w.toNat / 2 ^ (f.lo + f.w) + 1) * 2 ^ (f.lo + f.w) ≤ 2 ^ 32 := by
    have hw := w.isLt
    have e : 2 ^ 32 = 2 ^ (32 - (f.lo + f.w)) * 2 ^ (f.lo + f.w) := by rw [← Nat.pow_add]; congr 1; omega
    have : w.toNat / 2 ^ (f.lo + f.w) < 2 ^ (32 - (f.lo + f.w)) := by
      rw [Nat.div_lt_iff_lt_mul (Nat.two_pow_pos _), ← e]; exact hw
    rw [e]; exact Nat.mul_le_mul_right _ this
  have hm : (v % 2 ^ f.w + 1) * 2 ^ f.lo ≤ 2 ^ (f.lo + f.w) := by
    rw [Nat.pow_add, Nat.mul_comm (2 ^ f.lo)]; exact Nat.mul_le_mul_right _ hv
  rw [Nat.add_mul, Nat.one_mul] at hq hm
  unfold Fld.put
  rw [BitVec.toNat_ofNat, Nat.mod_eq_of_lt]
  · omega
  · omega

/-- A field reads as it was put. -/
theorem Fld.get_put (f : Fld) (w : Word) (v : Nat) (h : f.lo + f.w ≤ 32) : f.get (f.put w v) = v % 2 ^ f.w := by
  have hv : v % 2 ^ f.w < 2 ^ f.w := Nat.mod_lt _ (Nat.two_pow_pos _)
  have hr : w.toNat % 2 ^ f.lo < 2 ^ f.lo := Nat.mod_lt _ (Nat.two_pow_pos _)
  have e : w.toNat / 2 ^ (f.lo + f.w) * 2 ^ (f.lo + f.w) + v % 2 ^ f.w * 2 ^ f.lo + w.toNat % 2 ^ f.lo
      = w.toNat % 2 ^ f.lo + (v % 2 ^ f.w + w.toNat / 2 ^ (f.lo + f.w) * 2 ^ f.w) * 2 ^ f.lo := by
    rw [Nat.pow_add, Nat.add_mul, Nat.mul_comm (2 ^ f.lo) (2 ^ f.w), Nat.mul_assoc]; omega
  unfold Fld.get bitsAt
  rw [Fld.put_toNat f w v h, e, Nat.add_mul_div_right _ _ (Nat.two_pow_pos _), Nat.div_eq_of_lt hr, Nat.zero_add,
    Nat.add_mul_mod_self_right, Nat.mod_eq_of_lt hv]

/-- A field below the one put reads as before. -/
theorem Fld.get_put_low (f g : Fld) (w : Word) (v : Nat) (hf : f.lo + f.w ≤ 32) (h : g.lo + g.w ≤ f.lo) :
    g.get (f.put w v) = g.get w := by
  have key : ∀ n : Nat, n / 2 ^ g.lo % 2 ^ g.w = n % 2 ^ f.lo / 2 ^ g.lo % 2 ^ g.w := fun n => by
    have e : 2 ^ f.lo = 2 ^ g.lo * (2 ^ g.w * 2 ^ (f.lo - (g.lo + g.w))) := by
      rw [← Nat.pow_add, ← Nat.pow_add]; congr 1; omega
    rw [e, Nat.mod_mul_right_div_self, Nat.mod_mul_right_mod]
  unfold Fld.get bitsAt
  rw [key, key w.toNat, Fld.put_toNat f w v hf]
  congr 2
  rw [Nat.pow_add, Nat.mul_comm (2 ^ f.lo), ← Nat.mul_assoc, ← Nat.add_mul, Nat.add_comm, Nat.add_mul_mod_self_right,
    Nat.mod_mod]

/-- A field above the one put reads as before. -/
theorem Fld.get_put_high (f g : Fld) (w : Word) (v : Nat) (hf : f.lo + f.w ≤ 32) (h : f.lo + f.w ≤ g.lo) :
    g.get (f.put w v) = g.get w := by
  have key : (f.put w v).toNat / 2 ^ g.lo = w.toNat / 2 ^ g.lo := by
    have e : 2 ^ g.lo = 2 ^ (f.lo + f.w) * 2 ^ (g.lo - (f.lo + f.w)) := by rw [← Nat.pow_add]; congr 1; omega
    have hv : v % 2 ^ f.w + 1 ≤ 2 ^ f.w := Nat.mod_lt _ (Nat.two_pow_pos _)
    have hr : w.toNat % 2 ^ f.lo < 2 ^ f.lo := Nat.mod_lt _ (Nat.two_pow_pos _)
    have hm : (v % 2 ^ f.w + 1) * 2 ^ f.lo ≤ 2 ^ (f.lo + f.w) := by
      rw [Nat.pow_add, Nat.mul_comm (2 ^ f.lo)]; exact Nat.mul_le_mul_right _ hv
    rw [Nat.add_mul, Nat.one_mul] at hm
    have hl : v % 2 ^ f.w * 2 ^ f.lo + w.toNat % 2 ^ f.lo < 2 ^ (f.lo + f.w) := by omega
    rw [e, ← Nat.div_div_eq_div_mul, ← Nat.div_div_eq_div_mul, Fld.put_toNat f w v hf, Nat.add_assoc,
      Nat.add_comm (_ * 2 ^ (f.lo + f.w)), Nat.add_mul_div_right _ _ (Nat.two_pow_pos _), Nat.div_eq_of_lt hl,
      Nat.zero_add]
  unfold Fld.get bitsAt
  rw [key]

/-! ## Fields of registers -/

theorem State.word_setF (s : State) (b : Nat) (f : Fld) (v k : Nat) :
    (s.setF b f v).word k = if k = b + f.off then f.put (s.word (b + f.off)) v else s.word k :=
  s.word_setWord _ _ k

/-- A register field reads as it was set. -/
theorem State.f_setF_self (s : State) (b : Nat) (f : Fld) (v : Nat) (h : f.lo + f.w ≤ 32) :
    (s.setF b f v).f b f = v % 2 ^ f.w := by
  unfold State.f; rw [State.word_setF, if_pos rfl, Fld.get_put f _ v h]

/-- A field of another register reads as before. -/
theorem State.f_setF_other (s : State) (b : Nat) (f : Fld) (v c : Nat) (g : Fld) (h : c + g.off ≠ b + f.off) :
    (s.setF b f v).f c g = s.f c g := by
  unfold State.f; rw [State.word_setF, if_neg h]

/-- A field of the same register that shares no bit with the one set reads as before. -/
theorem State.f_setF_apart (s : State) (b : Nat) (f : Fld) (v c : Nat) (g : Fld) (hf : f.lo + f.w ≤ 32)
    (h : g.lo + g.w ≤ f.lo ∨ f.lo + f.w ≤ g.lo) : (s.setF b f v).f c g = s.f c g := by
  unfold State.f
  rw [State.word_setF]
  split
  · rename_i e
    rw [← e]
    rcases h with h | h
    · exact Fld.get_put_low f g _ v hf h
    · exact Fld.get_put_high f g _ v hf h
  · rfl

end Sys2Proof.Machine
end

