-- ==== Sys2Proof/Laws/Outer.lean ====
section
/-! SUPPORT. The operations that leave the units outside the drive as they are: flash, the security block, the CAN
controller, the ports, the boot code, the sheets' images and the rows' maps (State.outer). One lemma for each operation. -/

namespace Sys2Proof.Machine

/-- Rewriting stops at these units: an effect inside them is not looked into. -/
@[congr] theorem State.outer_stop (s : State) : s.outer = s.outer := rfl

/-- Where the state is built field by field. -/
@[simp] theorem State.outer_mk (s : State) x_now x_store x_pending x_status x_tear x_range x_raised x_guyFault x_rails x_fresh
    x_dev x_cl x_bases x_link x_mc x_sync x_grp x_gates x_axM x_axS x_stp x_brake x_die x_ntc x_rg x_lanes x_ready x_runs
    x_poolCyc x_trace x_rowFlags x_auto x_log x_ports x_data x_authed x_health :
    (State.mk x_now x_store s.flash x_pending x_status x_tear x_range x_raised x_guyFault x_rails x_fresh x_dev x_cl x_bases
    x_link x_mc x_sync x_grp x_gates x_axM x_axS x_stp x_brake x_die x_ntc x_rg x_lanes x_ready x_runs x_poolCyc x_trace
    s.atlChk x_rowFlags s.rowMap s.rowDead s.imgSheets x_auto s.boot s.sec x_log s.hp x_ports s.mp s.sp s.can x_data x_authed
    x_health).outer = s.outer := rfl

@[simp] theorem State.outer_each {α : Type} (s : State) (l : List α) (g : α → State → State) (h : ∀ a t, (g a t).outer =
    t.outer) :
    (s.each l g).outer = s.outer := by
  unfold State.each
  induction l generalizing s with
  | nil => rfl
  | cons a l ih => exact (ih (g a s)).trans (h a s)

@[simp] theorem State.outer_onlyIf (s : State) (b : Bool) (g : State → State) (h : ∀ t, (g t).outer = t.outer) :
    (s.onlyIf b g).outer = s.outer := by
  unfold State.onlyIf; split
  · exact h s
  · rfl

theorem State.outer_ite {c : Prop} [Decidable c] {a b : State} {v : _} (h : a.outer = v) (k : b.outer = v) :
    (if c then a else b).outer = v := by split <;> assumption

/-! ## Ops -/

@[simp] theorem State.setWord_outer (s : State) (key : Nat) (w : Word) : (State.setWord s key w).outer = s.outer :=
  by simp [State.setWord]

@[simp] theorem State.setF_outer (s : State) (base : Nat) (f : Fld) (v : Nat) : (State.setF s base f v).outer = s.outer :=
  by simp [State.setF]

@[simp] theorem State.inc_outer (s : State) (base : Nat) (f : Fld) (k : Nat) : (State.inc s base f k).outer = s.outer :=
  by simp [State.inc]

@[simp] theorem State.modMc_outer (s : State) (n : Mcn) (g : Mc → Mc) : (State.modMc s n g).outer = s.outer :=
  by simp [State.modMc]

@[simp] theorem State.modCl_outer (s : State) (c : Cl) (g : Cluster → Cluster) : (State.modCl s c g).outer = s.outer :=
  by simp [State.modCl]

@[simp] theorem State.modDev_outer (s : State) (g : Dev → Dev) : (State.modDev s g).outer = s.outer := by simp [State.modDev]

@[simp] theorem State.modLink_outer (s : State) (d : Rg) (g : Link → Link) : (State.modLink s d g).outer = s.outer :=
  by simp [State.modLink]

@[simp] theorem State.modGrp_outer (s : State) (i : Grp) (g : SGroup → SGroup) : (State.modGrp s i g).outer = s.outer :=
  by simp [State.modGrp]

@[simp] theorem State.modEst_outer (s : State) (n : Mcn) (g : Est → Est) : (State.modEst s n g).outer = s.outer :=
  by simp [State.modEst]

@[simp] theorem State.modPwm_outer (s : State) (n : Mcn) (g : Pwm → Pwm) : (State.modPwm s n g).outer = s.outer :=
  by simp [State.modPwm]

@[simp] theorem State.modDat_outer (s : State) (n : Mcn) (g : Datum → Datum) : (State.modDat s n g).outer = s.outer :=
  by simp [State.modDat]

@[simp] theorem State.modLoop_outer (s : State) (n : Mcn) (x : Fin 4) (g : LoopSt → LoopSt) : (State.modLoop s n x g).outer =
    s.outer :=
  by simp [State.modLoop]

@[simp] theorem State.modEntry_outer (s : State) (n : Mcn) (k : Fin 64) (g : GEntry → GEntry) : (State.modEntry s n k g).outer
    = s.outer :=
  by simp [State.modEntry]

@[simp] theorem State.modTrace_outer (s : State) (u : Fin 4) (g : TraceU → TraceU) : (State.modTrace s u g).outer = s.outer :=
  by simp [State.modTrace]

@[simp] theorem State.modAx_outer (s : State) (a : Axis) (g : AxisSt → AxisSt) : (State.modAx s a g).outer = s.outer :=
  by unfold State.modAx; split <;> simp

@[simp] theorem State.modStp_outer (s : State) (k : Chan) (g : Stepper → Stepper) : (State.modStp s k g).outer = s.outer :=
  by simp [State.modStp]

@[simp] theorem State.modCoil_outer (s : State) (k : Chan) (x : Fin 2) (g : Coil → Coil) : (State.modCoil s k x g).outer =
    s.outer :=
  by simp [State.modCoil]

@[simp] theorem State.modModel_outer (s : State) (n : Mcn) (sw : Fin 6) (g : Model → Model) : (State.modModel s n sw g).outer
    = s.outer :=
  by simp [State.modModel]

@[simp] theorem State.tick_outer (s : State) (dt : Nat) : (State.tick s dt).outer = s.outer := by simp [State.tick]

@[simp] theorem State.drawn_outer (s : State) : (State.drawn s).outer = s.outer := by simp [State.drawn]

@[simp] theorem State.answer_outer (s : State) (st : Status) : (State.answer s st).outer = s.outer := by simp [State.answer]

@[simp] theorem State.traceTrigger_outer (u : Fin 4) (s : State) : (traceTrigger u s).outer = s.outer := by
  unfold traceTrigger
  repeat' (first
    | with_reducible rfl
    | with_reducible refine (State.outer_each _ _ _ (fun _ _ => ?_)).trans ?_
    | with_reducible refine (State.outer_onlyIf _ _ _ (fun _ => ?_)).trans ?_
    | with_reducible refine State.outer_ite ?_ ?_
    | split | simp only [State.outer_mk] | dsimp only | simp)

@[simp] theorem State.traceEvent_outer (e : Nat) (s : State) : (traceEvent e s).outer = s.outer := by
  unfold traceEvent
  repeat' (first
    | with_reducible rfl
    | with_reducible refine (State.outer_each _ _ _ (fun _ _ => ?_)).trans ?_
    | with_reducible refine (State.outer_onlyIf _ _ _ (fun _ => ?_)).trans ?_
    | with_reducible refine State.outer_ite ?_ ?_
    | split | simp only [State.outer_mk] | dsimp only | simp)

@[simp] theorem State.collect_outer (e : Nat) (s : State) : (collect e s).outer = s.outer := by simp [collect]

@[simp] theorem State.raise_outer (s : State) (e : Nat) : (State.raise s e).outer = s.outer := by
  unfold State.raise
  repeat' (first
    | with_reducible rfl
    | with_reducible refine (State.outer_each _ _ _ (fun _ _ => ?_)).trans ?_
    | with_reducible refine (State.outer_onlyIf _ _ _ (fun _ => ?_)).trans ?_
    | with_reducible refine State.outer_ite ?_ ?_
    | split | simp only [State.outer_mk] | dsimp only | simp)

@[simp] theorem State.assertOn_outer (s : State) (e : Nat) : (State.assertOn s e).outer = s.outer :=
  by unfold State.assertOn; repeat' split <;> simp

@[simp] theorem State.assertOff_outer (s : State) (e : Nat) : (State.assertOff s e).outer = s.outer :=
  by unfold State.assertOff; repeat' split <;> simp

@[simp] theorem State.level_outer (s : State) (e : Nat) (b : Bool) : (State.level s e b).outer = s.outer :=
  by unfold State.level; split <;> simp

/-! ## Steward -/

@[simp] theorem State.wear_outer (s : State) (u : Nat) : (State.wear s u).outer = s.outer := by simp [State.wear]

@[simp] theorem State.substituted_outer (s : State) : (State.substituted s).outer = s.outer := by simp [State.substituted]

@[simp] theorem State.poolEmpty_outer (s : State) (cls : Nat) : (State.poolEmpty s cls).outer = s.outer :=
  by simp [State.poolEmpty]

/-! ## Sensing -/

@[simp] theorem State.seqMark_outer (s : State) (g : Grp) (inj : Bool) : (State.seqMark s g inj).outer = s.outer :=
  by simp [State.seqMark]

@[simp] theorem State.seqPass_outer (s : State) (g : Grp) (inj : Bool) : (State.seqPass s g inj).outer = s.outer :=
  by unfold State.seqPass; repeat' split <;> simp

@[simp] theorem State.seqTrigger_outer (s : State) (g : Grp) (inj : Bool) : (State.seqTrigger s g inj).outer = s.outer :=
  by unfold State.seqTrigger; repeat' split <;> simp

@[simp] theorem State.trigCode_outer (s : State) (g : Grp) (code : Nat) : (State.trigCode s g code).outer = s.outer := by
  unfold State.trigCode
  repeat' (first
    | with_reducible rfl
    | with_reducible refine (State.outer_each _ _ _ (fun _ _ => ?_)).trans ?_
    | with_reducible refine (State.outer_onlyIf _ _ _ (fun _ => ?_)).trans ?_
    | with_reducible refine State.outer_ite ?_ ?_
    | split | simp only [State.outer_mk] | dsimp only | simp)

@[simp] theorem State.pwmTrigger_outer (s : State) (n : Mcn) (code : Nat) : (State.pwmTrigger s n code).outer = s.outer := by
  unfold State.pwmTrigger
  repeat' (first
    | with_reducible rfl
    | with_reducible refine (State.outer_each _ _ _ (fun _ _ => ?_)).trans ?_
    | with_reducible refine (State.outer_onlyIf _ _ _ (fun _ => ?_)).trans ?_
    | with_reducible refine State.outer_ite ?_ ?_
    | split | simp only [State.outer_mk] | dsimp only | simp)

@[simp] theorem State.hold_outer (s : State) (g : Grp) (i : Fin 3) (c : Conv) : (State.hold s g i c).outer = s.outer :=
  by simp [State.hold]

@[simp] theorem State.issueRegular_outer (s : State) (g : Grp) : (State.issueRegular s g).outer = s.outer := by
  unfold State.issueRegular
  repeat' (first
    | with_reducible rfl
    | with_reducible refine (State.outer_each _ _ _ (fun _ _ => ?_)).trans ?_
    | with_reducible refine (State.outer_onlyIf _ _ _ (fun _ => ?_)).trans ?_
    | with_reducible refine State.outer_ite ?_ ?_
    | split | simp only [State.outer_mk] | dsimp only | simp)

@[simp] theorem State.issueInjected_outer (s : State) (g : Grp) (i : Fin 3) : (State.issueInjected s g i).outer = s.outer := by
  unfold State.issueInjected
  repeat' (first
    | with_reducible rfl
    | with_reducible refine (State.outer_each _ _ _ (fun _ _ => ?_)).trans ?_
    | with_reducible refine (State.outer_onlyIf _ _ _ (fun _ => ?_)).trans ?_
    | with_reducible refine State.outer_ite ?_ ?_
    | split | simp only [State.outer_mk] | dsimp only | simp)

@[simp] theorem State.issueUrgent_outer (s : State) (g : Grp) : (State.issueUrgent s g).outer = s.outer := by
  unfold State.issueUrgent
  repeat' (first
    | with_reducible rfl
    | with_reducible refine (State.outer_each _ _ _ (fun _ _ => ?_)).trans ?_
    | with_reducible refine (State.outer_onlyIf _ _ _ (fun _ => ?_)).trans ?_
    | with_reducible refine State.outer_ite ?_ ?_
    | split | simp only [State.outer_mk] | dsimp only | simp)

@[simp] theorem State.accumulate_outer (s : State) (g : Grp) (a : Fin 4) (w : Word) : (State.accumulate s g a w).outer =
    s.outer := by
  unfold State.accumulate
  repeat' (first
    | with_reducible rfl
    | with_reducible refine (State.outer_each _ _ _ (fun _ _ => ?_)).trans ?_
    | with_reducible refine (State.outer_onlyIf _ _ _ (fun _ => ?_)).trans ?_
    | with_reducible refine State.outer_ite ?_ ?_
    | split | simp only [State.outer_mk] | dsimp only | simp)

@[simp] theorem State.accRestart_outer (s : State) (g : Grp) (a : Fin 4) : (State.accRestart s g a).outer = s.outer :=
  by simp [State.accRestart]

@[simp] theorem State.dmaPush_outer (s : State) (g : Grp) (w : Word) : (State.dmaPush s g w).outer = s.outer :=
  by unfold State.dmaPush; repeat' split <;> simp

@[simp] theorem State.dmaMark_outer (s : State) (g : Grp) : (State.dmaMark s g).outer = s.outer :=
  by unfold State.dmaMark; repeat' split <;> simp

@[simp] theorem State.dmaWord_outer (s : State) (g : Grp) (w : Word) : (State.dmaWord s g w).outer = s.outer := by
  unfold State.dmaWord
  repeat' (first
    | with_reducible rfl
    | with_reducible refine (State.outer_each _ _ _ (fun _ _ => ?_)).trans ?_
    | with_reducible refine (State.outer_onlyIf _ _ _ (fun _ => ?_)).trans ?_
    | with_reducible refine State.outer_ite ?_ ?_
    | split | simp only [State.outer_mk] | dsimp only | simp)

@[simp] theorem State.dmaBurst_outer (s : State) (g : Grp) : (State.dmaBurst s g).outer = s.outer := by simp [State.dmaBurst]

@[simp] theorem State.dmaRptr_outer (s : State) (g : Grp) (v : Nat) : (State.dmaRptr s g v).outer = s.outer :=
  by unfold State.dmaRptr; split <;> simp

@[simp] theorem State.busCode_outer (s : State) (g : Grp) (ch code : Nat) : (State.busCode s g ch code).outer = s.outer := by
  unfold State.busCode
  repeat' (first
    | with_reducible rfl
    | with_reducible refine (State.outer_each _ _ _ (fun _ _ => ?_)).trans ?_
    | with_reducible refine (State.outer_onlyIf _ _ _ (fun _ => ?_)).trans ?_
    | with_reducible refine State.outer_ite ?_ ?_
    | split | simp only [State.outer_mk] | dsimp only | simp)

@[simp] theorem State.seqResult_outer (s : State) (g : Grp) (off k entry tag code : Nat) (slice : Nat) : (State.seqResult s g
    off k entry tag code slice).outer = s.outer :=
  by unfold State.seqResult; repeat' split <;> simp

@[simp] theorem State.clearSlot_outer (s : State) (g : Grp) (i : Fin 3) : (State.clearSlot s g i).outer = s.outer :=
  by simp [State.clearSlot]

@[simp] theorem State.holdRoles_outer (s : State) (n : Mcn) (ps : List (Fin 3)) : (State.holdRoles s n ps).outer = s.outer :=
  by simp [State.holdRoles]

@[simp] theorem State.currentResult_outer (s : State) (n : Mcn) (p : Fin 3) (code : Nat) : (State.currentResult s n p
    code).outer = s.outer := by
  unfold State.currentResult
  repeat' (first
    | with_reducible rfl
    | with_reducible refine (State.outer_each _ _ _ (fun _ _ => ?_)).trans ?_
    | with_reducible refine (State.outer_onlyIf _ _ _ (fun _ => ?_)).trans ?_
    | with_reducible refine State.outer_ite ?_ ?_
    | split | simp only [State.outer_mk] | dsimp only | simp)

@[simp] theorem State.ampRetireSpare_outer (s : State) (n : Mcn) : (State.ampRetireSpare s n).outer = s.outer :=
  by simp [State.ampRetireSpare]

@[simp] theorem State.ampWant_outer (s : State) (n : Mcn) (p : Nat) : (State.ampWant s n p).outer = s.outer :=
  by unfold State.ampWant; split <;> simp

@[simp] theorem State.ampSwapNow_outer (s : State) (n : Mcn) : (State.ampSwapNow s n).outer = s.outer :=
  by unfold State.ampSwapNow; repeat' split <;> simp

@[simp] theorem State.ampWear_outer (s : State) (n : Mcn) (p : Nat) : (State.ampWear s n p).outer = s.outer := by
  unfold State.ampWear
  repeat' (first
    | with_reducible rfl
    | with_reducible refine (State.outer_each _ _ _ (fun _ _ => ?_)).trans ?_
    | with_reducible refine (State.outer_onlyIf _ _ _ (fun _ => ?_)).trans ?_
    | with_reducible refine State.outer_ite ?_ ?_
    | split | simp only [State.outer_mk] | dsimp only | simp)

@[simp] theorem State.ampCheck_outer (s : State) (n : Mcn) (spareOk : Bool) (diff : Option Nat) : (State.ampCheck s n spareOk
    diff).outer = s.outer := by
  unfold State.ampCheck
  repeat' (first
    | with_reducible rfl
    | with_reducible refine (State.outer_each _ _ _ (fun _ _ => ?_)).trans ?_
    | with_reducible refine (State.outer_onlyIf _ _ _ (fun _ => ?_)).trans ?_
    | with_reducible refine State.outer_ite ?_ ?_
    | split | simp only [State.outer_mk] | dsimp only | simp)

@[simp] theorem State.ampTimeout_outer (s : State) (n : Mcn) : (State.ampTimeout s n).outer = s.outer :=
  by unfold State.ampTimeout; split <;> simp

@[simp] theorem State.offsetEnd_outer (s : State) (n : Mcn) : (State.offsetEnd s n).outer = s.outer := by
  unfold State.offsetEnd
  repeat' (first
    | with_reducible rfl
    | with_reducible refine (State.outer_each _ _ _ (fun _ _ => ?_)).trans ?_
    | with_reducible refine (State.outer_onlyIf _ _ _ (fun _ => ?_)).trans ?_
    | with_reducible refine State.outer_ite ?_ ?_
    | split | simp only [State.outer_mk] | dsimp only | simp)

@[simp] theorem State.offsetPhase_outer (s : State) (n : Mcn) (p : Fin 3) (code : Nat) : (State.offsetPhase s n p code).outer
    = s.outer :=
  by simp [State.offsetPhase]

@[simp] theorem State.offsetSample_outer (s : State) (n : Mcn) (ps : List (Fin 3 × Nat)) (spare : Option Nat) :
    (State.offsetSample s n ps spare).outer = s.outer := by
  unfold State.offsetSample
  repeat' (first
    | with_reducible rfl
    | with_reducible refine (State.outer_each _ _ _ (fun _ _ => ?_)).trans ?_
    | with_reducible refine (State.outer_onlyIf _ _ _ (fun _ => ?_)).trans ?_
    | with_reducible refine State.outer_ite ?_ ?_
    | split | simp only [State.outer_mk] | dsimp only | simp)

@[simp] theorem State.sliceRetire_outer (s : State) (g : Grp) : (State.sliceRetire s g).outer = s.outer :=
  by simp [State.sliceRetire]

@[simp] theorem State.calStep_outer (s : State) (g : Grp) (refOk : Bool) : (State.calStep s g refOk).outer = s.outer := by
  unfold State.calStep
  repeat' (first
    | with_reducible rfl
    | with_reducible refine (State.outer_each _ _ _ (fun _ _ => ?_)).trans ?_
    | with_reducible refine (State.outer_onlyIf _ _ _ (fun _ => ?_)).trans ?_
    | with_reducible refine State.outer_ite ?_ ?_
    | split | simp only [State.outer_mk] | dsimp only | simp)

@[simp] theorem State.calHandover_outer (s : State) (g : Grp) (diff : Option Nat) : (State.calHandover s g diff).outer =
    s.outer := by
  unfold State.calHandover
  repeat' (first
    | with_reducible rfl
    | with_reducible refine (State.outer_each _ _ _ (fun _ _ => ?_)).trans ?_
    | with_reducible refine (State.outer_onlyIf _ _ _ (fun _ => ?_)).trans ?_
    | with_reducible refine State.outer_ite ?_ ?_
    | split | simp only [State.outer_mk] | dsimp only | simp)

/-! ## Gate -/

@[simp] theorem State.modGate_outer (s : State) (o : Fin 40) (g : GateOut → GateOut) : (State.modGate s o g).outer = s.outer :=
  by simp [State.modGate]

@[simp] theorem State.switched_outer (s : State) (o : Fin 40) (on : Bool) : (State.switched s o on).outer = s.outer := by
  unfold State.switched
  repeat' (first
    | with_reducible rfl
    | with_reducible refine (State.outer_each _ _ _ (fun _ _ => ?_)).trans ?_
    | with_reducible refine (State.outer_onlyIf _ _ _ (fun _ => ?_)).trans ?_
    | with_reducible refine State.outer_ite ?_ ?_
    | split | simp only [State.outer_mk] | dsimp only | simp)

@[simp] theorem State.turnOn_outer (s : State) (o : Fin 40) : (State.turnOn s o).outer = s.outer :=
  by unfold State.turnOn; repeat' split <;> simp

@[simp] theorem State.turnOff_outer (s : State) (o : Fin 40) : (State.turnOff s o).outer = s.outer :=
  by unfold State.turnOff; split <;> simp

@[simp] theorem State.softOff_outer (s : State) (o : Fin 40) : (State.softOff s o).outer = s.outer := by simp [State.softOff]

@[simp] theorem State.phaseEnd_outer (s : State) (o : Fin 40) : (State.phaseEnd s o).outer = s.outer := by simp [State.phaseEnd]

@[simp] theorem State.swAllOff_outer (s : State) (n : Mcn) : (State.swAllOff s n).outer = s.outer := by simp [State.swAllOff]

@[simp] theorem State.shortEnter_outer (s : State) (n : Mcn) (high : Bool) : (State.shortEnter s n high).outer = s.outer :=
  by simp [State.shortEnter]

@[simp] theorem State.holdAllOff_outer (s : State) (n : Mcn) : (State.holdAllOff s n).outer = s.outer :=
  by simp [State.holdAllOff]

@[simp] theorem State.gateApply_outer (s : State) (n : Mcn) : (State.gateApply s n).outer = s.outer := by
  unfold State.gateApply
  repeat' (first
    | with_reducible rfl
    | with_reducible refine (State.outer_each _ _ _ (fun _ _ => ?_)).trans ?_
    | with_reducible refine (State.outer_onlyIf _ _ _ (fun _ => ?_)).trans ?_
    | with_reducible refine State.outer_ite ?_ ?_
    | split | simp only [State.outer_mk] | dsimp only | simp)

@[simp] theorem State.shortOn_outer (s : State) (n : Mcn) : (State.shortOn s n).outer = s.outer :=
  by unfold State.shortOn; split <;> simp

@[simp] theorem State.markShort_outer (s : State) (n : Mcn) (sw : Fin 6) : (State.markShort s n sw).outer = s.outer := by
  unfold State.markShort
  repeat' (first
    | with_reducible rfl
    | with_reducible refine (State.outer_each _ _ _ (fun _ _ => ?_)).trans ?_
    | with_reducible refine (State.outer_onlyIf _ _ _ (fun _ => ?_)).trans ?_
    | with_reducible refine State.outer_ite ?_ ?_
    | split | simp only [State.outer_mk] | dsimp only | simp)

@[simp] theorem State.hardShort_outer (s : State) (n : Mcn) (sw : Fin 6) : (State.hardShort s n sw).outer = s.outer := by
  unfold State.hardShort
  repeat' (first
    | with_reducible rfl
    | with_reducible refine (State.outer_each _ _ _ (fun _ _ => ?_)).trans ?_
    | with_reducible refine (State.outer_onlyIf _ _ _ (fun _ => ?_)).trans ?_
    | with_reducible refine State.outer_ite ?_ ?_
    | split | simp only [State.outer_mk] | dsimp only | simp)

@[simp] theorem State.trip_outer (s : State) (n : Mcn) (sw : Fin 6) (hard : Bool) : (State.trip s n sw hard).outer = s.outer :=
  by unfold State.trip; repeat' split <;> simp

@[simp] theorem State.segFault_outer (s : State) (o : Fin 40) (d : Fin 2) (k : Nat) : (State.segFault s o d k).outer = s.outer :=
  by unfold State.segFault; split <;> simp

@[simp] theorem State.segSub_outer (s : State) (o : Fin 40) (d : Fin 2) : (State.segSub s o d).outer = s.outer := by
  unfold State.segSub
  repeat' (first
    | with_reducible rfl
    | with_reducible refine (State.outer_each _ _ _ (fun _ _ => ?_)).trans ?_
    | with_reducible refine (State.outer_onlyIf _ _ _ (fun _ => ?_)).trans ?_
    | with_reducible refine State.outer_ite ?_ ?_
    | split | simp only [State.outer_mk] | dsimp only | simp)

@[simp] theorem State.gateFault_outer (s : State) (o : Fin 40) : (State.gateFault s o).outer = s.outer :=
  by unfold State.gateFault; repeat' split <;> simp

@[simp] theorem State.bstPeriod_outer (s : State) (n : Mcn) : (State.bstPeriod s n).outer = s.outer := by
  unfold State.bstPeriod
  repeat' (first
    | with_reducible rfl
    | with_reducible refine (State.outer_each _ _ _ (fun _ _ => ?_)).trans ?_
    | with_reducible refine (State.outer_onlyIf _ _ _ (fun _ => ?_)).trans ?_
    | with_reducible refine State.outer_ite ?_ ?_
    | split | simp only [State.outer_mk] | dsimp only | simp)

@[simp] theorem State.modRg_outer (s : State) (r : Rg) (g : Region → Region) : (State.modRg s r g).outer = s.outer :=
  by simp [State.modRg]

@[simp] theorem State.chopOff_outer (s : State) (r : Rg) : (State.chopOff s r).outer = s.outer := by simp [State.chopOff]

@[simp] theorem State.chopSet_outer (s : State) (r : Rg) (on : Bool) : (State.chopSet s r on).outer = s.outer := by
  unfold State.chopSet
  repeat' (first
    | with_reducible rfl
    | with_reducible refine (State.outer_each _ _ _ (fun _ _ => ?_)).trans ?_
    | with_reducible refine (State.outer_onlyIf _ _ _ (fun _ => ?_)).trans ?_
    | with_reducible refine State.outer_ite ?_ ?_
    | split | simp only [State.outer_mk] | dsimp only | simp)

@[simp] theorem State.gateApplyRg_outer (s : State) (r : Rg) : (State.gateApplyRg s r).outer = s.outer :=
  by simp [State.gateApplyRg]

@[simp] theorem State.ov2Begin_outer (s : State) (r : Rg) : (State.ov2Begin s r).outer = s.outer := by
  unfold State.ov2Begin
  repeat' (first
    | with_reducible rfl
    | with_reducible refine (State.outer_each _ _ _ (fun _ _ => ?_)).trans ?_
    | with_reducible refine (State.outer_onlyIf _ _ _ (fun _ => ?_)).trans ?_
    | with_reducible refine State.outer_ite ?_ ?_
    | split | simp only [State.outer_mk] | dsimp only | simp)

@[simp] theorem State.busLevel_outer (s : State) (r : Rg) (l : Nat) : (State.busLevel s r l).outer = s.outer :=
  by simp [State.busLevel]

@[simp] theorem State.ovReach_outer (s : State) (r : Rg) (k : Nat) : (State.ovReach s r k).outer = s.outer := by
  unfold State.ovReach
  repeat' (first
    | with_reducible rfl
    | with_reducible refine (State.outer_each _ _ _ (fun _ _ => ?_)).trans ?_
    | with_reducible refine (State.outer_onlyIf _ _ _ (fun _ => ?_)).trans ?_
    | with_reducible refine State.outer_ite ?_ ?_
    | split | simp only [State.outer_mk] | dsimp only | simp)

@[simp] theorem State.ovFall_outer (s : State) (r : Rg) : (State.ovFall s r).outer = s.outer := by
  unfold State.ovFall
  repeat' (first
    | with_reducible rfl
    | with_reducible refine (State.outer_each _ _ _ (fun _ _ => ?_)).trans ?_
    | with_reducible refine (State.outer_onlyIf _ _ _ (fun _ => ?_)).trans ?_
    | with_reducible refine State.outer_ite ?_ ?_
    | split | simp only [State.outer_mk] | dsimp only | simp)

@[simp] theorem State.chopFault_outer (s : State) (r : Rg) (desat : Bool) : (State.chopFault s r desat).outer = s.outer :=
  by unfold State.chopFault; repeat' split <;> simp

@[simp] theorem State.rbgSet_outer (s : State) (r : Rg) (on : Bool) : (State.rbgSet s r on).outer = s.outer :=
  by unfold State.rbgSet; split <;> simp

@[simp] theorem State.rbgHeld_outer (s : State) (r : Rg) : (State.rbgHeld s r).outer = s.outer := by
  unfold State.rbgHeld
  repeat' (first
    | with_reducible rfl
    | with_reducible refine (State.outer_each _ _ _ (fun _ _ => ?_)).trans ?_
    | with_reducible refine (State.outer_onlyIf _ _ _ (fun _ => ?_)).trans ?_
    | with_reducible refine State.outer_ite ?_ ?_
    | split | simp only [State.outer_mk] | dsimp only | simp)

/-! ## Datum -/

@[simp] theorem State.gPredict_outer (s : State) (n : Mcn) (k : Fin 64) : (State.gPredict s n k).outer = s.outer := by
  unfold State.gPredict
  repeat' (first
    | with_reducible rfl
    | with_reducible refine (State.outer_each _ _ _ (fun _ _ => ?_)).trans ?_
    | with_reducible refine (State.outer_onlyIf _ _ _ (fun _ => ?_)).trans ?_
    | with_reducible refine State.outer_ite ?_ ?_
    | split | simp only [State.outer_mk] | dsimp only | simp)

@[simp] theorem State.gLive_outer (s : State) (n : Mcn) (k : Fin 64) : (State.gLive s n k).outer = s.outer := by
  unfold State.gLive
  repeat' (first
    | with_reducible rfl
    | with_reducible refine (State.outer_each _ _ _ (fun _ _ => ?_)).trans ?_
    | with_reducible refine (State.outer_onlyIf _ _ _ (fun _ => ?_)).trans ?_
    | with_reducible refine State.outer_ite ?_ ?_
    | split | simp only [State.outer_mk] | dsimp only | simp)

@[simp] theorem State.gUpdate_outer (s : State) (n : Mcn) (turned : Bool) (k : Fin 64) : (State.gUpdate s n turned k).outer =
    s.outer := by
  unfold State.gUpdate
  repeat' (first
    | with_reducible rfl
    | with_reducible refine (State.outer_each _ _ _ (fun _ _ => ?_)).trans ?_
    | with_reducible refine (State.outer_onlyIf _ _ _ (fun _ => ?_)).trans ?_
    | with_reducible refine State.outer_ite ?_ ?_
    | split | simp only [State.outer_mk] | dsimp only | simp)

@[simp] theorem State.gReeval_outer (s : State) (n : Mcn) (keep : Fin 64 → Bool) : (State.gReeval s n keep).outer = s.outer := by
  unfold State.gReeval
  repeat' (first
    | with_reducible rfl
    | with_reducible refine (State.outer_each _ _ _ (fun _ _ => ?_)).trans ?_
    | with_reducible refine (State.outer_onlyIf _ _ _ (fun _ => ?_)).trans ?_
    | with_reducible refine State.outer_ite ?_ ?_
    | split | simp only [State.outer_mk] | dsimp only | simp)

@[simp] theorem State.refMoved_outer (s : State) (n : Mcn) (ref : Nat) (but : Option (Fin 64)) : (State.refMoved s n ref
    but).outer = s.outer := by
  unfold State.refMoved
  repeat' (first
    | with_reducible rfl
    | with_reducible refine (State.outer_each _ _ _ (fun _ _ => ?_)).trans ?_
    | with_reducible refine (State.outer_onlyIf _ _ _ (fun _ => ?_)).trans ?_
    | with_reducible refine State.outer_ite ?_ ?_
    | split | simp only [State.outer_mk] | dsimp only | simp)

@[simp] theorem State.scLeave_outer (s : State) (n : Mcn) : (State.scLeave s n).outer = s.outer := by
  unfold State.scLeave
  repeat' (first
    | with_reducible rfl
    | with_reducible refine (State.outer_each _ _ _ (fun _ _ => ?_)).trans ?_
    | with_reducible refine (State.outer_onlyIf _ _ _ (fun _ => ?_)).trans ?_
    | with_reducible refine State.outer_ite ?_ ?_
    | split | simp only [State.outer_mk] | dsimp only | simp)

@[simp] theorem State.contours_outer (s : State) (n : Mcn) : (State.contours s n).outer = s.outer := by simp [State.contours]

@[simp] theorem State.periodTo_outer (s : State) (n : Mcn) (e : Int) : (State.periodTo s n e).outer = s.outer :=
  by simp [State.periodTo]

@[simp] theorem State.syncEnd_outer (s : State) (n : Mcn) : (State.syncEnd s n).outer = s.outer :=
  by unfold State.syncEnd; repeat' split <;> simp

@[simp] theorem State.sectorPredict_outer (s : State) (n : Mcn) : (State.sectorPredict s n).outer = s.outer :=
  by simp [State.sectorPredict]

@[simp] theorem State.boundsUpdate_outer (s : State) (n : Mcn) (turned : Bool) : (State.boundsUpdate s n turned).outer =
    s.outer := by
  unfold State.boundsUpdate
  repeat' (first
    | with_reducible rfl
    | with_reducible refine (State.outer_each _ _ _ (fun _ _ => ?_)).trans ?_
    | with_reducible refine (State.outer_onlyIf _ _ _ (fun _ => ?_)).trans ?_
    | with_reducible refine State.outer_ite ?_ ?_
    | split | simp only [State.outer_mk] | dsimp only | simp)

@[simp] theorem State.datumUpdate_outer (s : State) (n : Mcn) (angle : Nat) (speed : Int) (ts : Int) : (State.datumUpdate s n
    angle speed ts).outer = s.outer :=
  by unfold State.datumUpdate; repeat' split <;> simp

@[simp] theorem State.sourceUpdate_outer (s : State) (n : Mcn) (angle : Nat) (speed : Int) (ts : Int) : (State.sourceUpdate s
    n angle speed ts).outer = s.outer :=
  by simp [State.sourceUpdate]

@[simp] theorem State.datumInvalid_outer (s : State) (n : Mcn) : (State.datumInvalid s n).outer = s.outer := by
  unfold State.datumInvalid
  repeat' (first
    | with_reducible rfl
    | with_reducible refine (State.outer_each _ _ _ (fun _ _ => ?_)).trans ?_
    | with_reducible refine (State.outer_onlyIf _ _ _ (fun _ => ?_)).trans ?_
    | with_reducible refine State.outer_ite ?_ ?_
    | split | simp only [State.outer_mk] | dsimp only | simp)

/-! ## Lanes -/

@[simp] theorem State.markMissed_outer (j : JobId) (s : State) : (markMissed j s).outer = s.outer :=
  by unfold markMissed; split <;> simp

@[simp] theorem State.traceMissed_outer (j : JobId) (s : State) : (traceMissed j s).outer = s.outer :=
  by unfold traceMissed; split <;> simp

@[simp] theorem State.ltestMissed_outer (j : JobId) (s : State) : (ltestMissed j s).outer = s.outer :=
  by unfold ltestMissed; split <;> simp

@[simp] theorem State.miss_outer (s : State) (j : JobId) : (State.miss s j).outer = s.outer := by
  unfold State.miss
  repeat' (first
    | with_reducible rfl
    | with_reducible refine (State.outer_each _ _ _ (fun _ _ => ?_)).trans ?_
    | with_reducible refine (State.outer_onlyIf _ _ _ (fun _ => ?_)).trans ?_
    | with_reducible refine State.outer_ite ?_ ?_
    | split | simp only [State.outer_mk] | dsimp only | simp)

@[simp] theorem State.saturated_outer (s : State) (j : JobId) (sat : Bool) : (State.saturated s j sat).outer = s.outer := by
  unfold State.saturated
  repeat' (first
    | with_reducible rfl
    | with_reducible refine (State.outer_each _ _ _ (fun _ _ => ?_)).trans ?_
    | with_reducible refine (State.outer_onlyIf _ _ _ (fun _ => ?_)).trans ?_
    | with_reducible refine State.outer_ite ?_ ?_
    | split | simp only [State.outer_mk] | dsimp only | simp)

@[simp] theorem State.dropJob_outer (s : State) (r : Ready) : (State.dropJob s r).outer = s.outer := by simp [State.dropJob]

@[simp] theorem State.useSet_outer (s : State) (j : JobId) (x : Bool × Nat) : (State.useSet s j x).outer = s.outer :=
  by unfold State.useSet; repeat' split <;> simp

@[simp] theorem State.dispatch_outer (inputs : JobId → State → List Int) (k : Nat) (s : State) :
    (dispatch inputs k s).outer = s.outer := by
  induction k generalizing s with
  | zero => rfl
  | succ k ih =>
    unfold dispatch
    split
    · rfl
    · split
      · refine (ih _).trans ?_; simp
      · refine State.outer_ite ((ih _).trans (State.dropJob_outer _ _)) (State.outer_ite rfl ((ih _).trans ?_))
        split <;> simp

@[simp] theorem State.dispatchAll_outer (inputs : JobId → State → List Int) (s : State) : (State.dispatchAll inputs s).outer =
    s.outer :=
  by simp [State.dispatchAll]

@[simp] theorem State.release_outer (inputs : JobId → State → List Int) (s : State) (j : JobId) : (State.release inputs s
    j).outer = s.outer :=
  by unfold State.release; split <;> simp

@[simp] theorem State.freeLane_outer (s : State) (i : Fin 8) : (State.freeLane s i).outer = s.outer := by simp [State.freeLane]

@[simp] theorem State.traceRun_outer (inputs : JobId → State → List Int) (j : JobId) (what : Ready) (sat : Bool) (node : Fin 4
    → Nat → Word) (s : State) : (traceRun inputs j what sat node s).outer = s.outer := by
  unfold traceRun
  repeat' (first
    | with_reducible rfl
    | with_reducible refine (State.outer_each _ _ _ (fun _ _ => ?_)).trans ?_
    | with_reducible refine (State.outer_onlyIf _ _ _ (fun _ => ?_)).trans ?_
    | with_reducible refine State.outer_ite ?_ ?_
    | split | simp only [State.outer_mk] | dsimp only | simp)

@[simp] theorem State.laneState_outer (s : State) (i : Fin 8) (st : LaneSt) : (State.laneState s i st).outer = s.outer :=
  by simp [State.laneState]

@[simp] theorem State.laneIn_outer (s : State) (i : Fin 8) : (State.laneIn s i).outer = s.outer :=
  by unfold State.laneIn; split <;> simp

/-! ## Motion -/

@[simp] theorem State.setMeasured_outer (s : State) (a : Axis) (p : Int) : (State.setMeasured s a p).outer = s.outer :=
  by unfold State.setMeasured; split <;> simp

@[simp] theorem State.moRefuse_outer (s : State) (a : Axis) (st : Status) : (State.moRefuse s a st).outer = s.outer := by
  unfold State.moRefuse
  repeat' (first
    | with_reducible rfl
    | with_reducible refine (State.outer_each _ _ _ (fun _ _ => ?_)).trans ?_
    | with_reducible refine (State.outer_onlyIf _ _ _ (fun _ => ?_)).trans ?_
    | with_reducible refine State.outer_ite ?_ ?_
    | split | simp only [State.outer_mk] | dsimp only | simp)

@[simp] theorem State.noteClamp_outer (s : State) (a : Axis) (v acc : Nat) : (State.noteClamp s a v acc).outer = s.outer :=
  by unfold State.noteClamp; repeat' split <;> simp

@[simp] theorem State.moAccept_outer (s : State) (a : Axis) (c : MoCmd) : (State.moAccept s a c).outer = s.outer :=
  by simp [State.moAccept]

@[simp] theorem State.moDo_outer (s : State) (a : Axis) (j : Option Status) (v acc : Nat) (c : MoCmd) : (State.moDo s a j v
    acc c).outer = s.outer :=
  by unfold State.moDo; split <;> simp

@[simp] theorem State.moMove_outer (s : State) (a : Axis) (g : Staged) : (State.moMove s a g).outer = s.outer :=
  by simp [State.moMove]

@[simp] theorem State.moStop_outer (s : State) (a : Axis) : (State.moStop s a).outer = s.outer :=
  by unfold State.moStop; split <;> simp

@[simp] theorem State.moSetV_outer (s : State) (a : Axis) (g : Staged) : (State.moSetV s a g).outer = s.outer :=
  by simp [State.moSetV]

@[simp] theorem State.moSetA_outer (s : State) (a : Axis) (g : Staged) : (State.moSetA s a g).outer = s.outer :=
  by simp [State.moSetA]

@[simp] theorem State.moSpeed_outer (s : State) (a : Axis) (g : Staged) : (State.moSpeed s a g).outer = s.outer :=
  by simp [State.moSpeed]

@[simp] theorem State.moAppend_outer (s : State) (a : Axis) (g : Staged) : (State.moAppend s a g).outer = s.outer :=
  by simp [State.moAppend]

@[simp] theorem State.moRouteStart_outer (s : State) (a : Axis) (openRt : Bool) : (State.moRouteStart s a openRt).outer =
    s.outer :=
  by simp [State.moRouteStart]

@[simp] theorem State.moRouteLoad_outer (s : State) (a : Axis) (route : Option (List Waypoint)) : (State.moRouteLoad s a
    route).outer = s.outer :=
  by simp [State.moRouteLoad]

@[simp] theorem State.moRouteClear_outer (s : State) (a : Axis) : (State.moRouteClear s a).outer = s.outer :=
  by simp [State.moRouteClear]

@[simp] theorem State.moHome_outer (s : State) (a : Axis) : (State.moHome s a).outer = s.outer := by simp [State.moHome]

@[simp] theorem State.moSetPos_outer (s : State) (a : Axis) (g : Staged) : (State.moSetPos s a g).outer = s.outer :=
  by simp [State.moSetPos]

@[simp] theorem State.freeAxes_outer (s : State) (c : Cl) : (State.freeAxes s c).outer = s.outer := by simp [State.freeAxes]

@[simp] theorem State.stopAxes_outer (s : State) (c : Cl) : (State.stopAxes s c).outer = s.outer := by simp [State.stopAxes]

@[simp] theorem State.nextSeg_outer (s : State) (a : Axis) : (State.nextSeg s a).outer = s.outer := by
  unfold State.nextSeg
  repeat' (first
    | with_reducible rfl
    | with_reducible refine (State.outer_each _ _ _ (fun _ _ => ?_)).trans ?_
    | with_reducible refine (State.outer_onlyIf _ _ _ (fun _ => ?_)).trans ?_
    | with_reducible refine State.outer_ite ?_ ?_
    | split | simp only [State.outer_mk] | dsimp only | simp)

@[simp] theorem State.jointPassed_outer (s : State) (a : Axis) : (State.jointPassed s a).outer = s.outer :=
  by simp [State.jointPassed]

@[simp] theorem State.runStop_outer (s : State) (a : Axis) (dt : Int) : (State.runStop s a dt).outer = s.outer := by
  unfold State.runStop
  repeat' (first
    | with_reducible rfl
    | with_reducible refine (State.outer_each _ _ _ (fun _ _ => ?_)).trans ?_
    | with_reducible refine (State.outer_onlyIf _ _ _ (fun _ => ?_)).trans ?_
    | with_reducible refine State.outer_ite ?_ ?_
    | split | simp only [State.outer_mk] | dsimp only | simp)

@[simp] theorem State.runSpeed_outer (s : State) (a : Axis) (dt : Int) : (State.runSpeed s a dt).outer = s.outer := by
  unfold State.runSpeed
  repeat' (first
    | with_reducible rfl
    | with_reducible refine (State.outer_each _ _ _ (fun _ _ => ?_)).trans ?_
    | with_reducible refine (State.outer_onlyIf _ _ _ (fun _ => ?_)).trans ?_
    | with_reducible refine State.outer_ite ?_ ?_
    | split | simp only [State.outer_mk] | dsimp only | simp)

@[simp] theorem State.homeBegin_outer (s : State) (k : Chan) : (State.homeBegin s k).outer = s.outer :=
  by simp [State.homeBegin]

@[simp] theorem State.act1_outer (a : Axis) (c : MoCmd) (s : State) : (State.act1 a c s).outer = s.outer := by
  unfold State.act1
  repeat' (first
    | with_reducible rfl
    | with_reducible refine (State.outer_each _ _ _ (fun _ _ => ?_)).trans ?_
    | with_reducible refine (State.outer_onlyIf _ _ _ (fun _ => ?_)).trans ?_
    | with_reducible refine State.outer_ite ?_ ?_
    | split | simp only [State.outer_mk] | dsimp only | simp)

@[simp] theorem State.follow_outer (s : State) (n : Mcn) : (State.follow s n).outer = s.outer := by simp [State.follow]

@[simp] theorem State.coilRefsBy_outer (s : State) (k : Chan) (e : Bool) : (State.coilRefsBy s k e).outer = s.outer :=
  by simp [State.coilRefsBy]

@[simp] theorem State.coilRefs_outer (s : State) (k : Chan) : (State.coilRefs s k).outer = s.outer := by simp [State.coilRefs]

@[simp] theorem State.coilRefsRg_outer (s : State) (r : Rg) : (State.coilRefsRg s r).outer = s.outer :=
  by simp [State.coilRefsRg]

@[simp] theorem State.levelDue_outer (s : State) (k : Chan) : (State.levelDue s k).outer = s.outer := by simp [State.levelDue]

@[simp] theorem State.coincide_outer (s : State) (k : Chan) : (State.coincide s k).outer = s.outer := by
  unfold State.coincide
  repeat' (first
    | with_reducible rfl
    | with_reducible refine (State.outer_each _ _ _ (fun _ _ => ?_)).trans ?_
    | with_reducible refine (State.outer_onlyIf _ _ _ (fun _ => ?_)).trans ?_
    | with_reducible refine State.outer_ite ?_ ?_
    | split | simp only [State.outer_mk] | dsimp only | simp)

@[simp] theorem State.emit_outer (s : State) (k : Chan) : (State.emit s k).outer = s.outer := by
  unfold State.emit
  repeat' (first
    | with_reducible rfl
    | with_reducible refine (State.outer_each _ _ _ (fun _ _ => ?_)).trans ?_
    | with_reducible refine (State.outer_onlyIf _ _ _ (fun _ => ?_)).trans ?_
    | with_reducible refine State.outer_ite ?_ ?_
    | split | simp only [State.outer_mk] | dsimp only | simp)

@[simp] theorem State.homeDone_outer (s : State) (k : Chan) : (State.homeDone s k).outer = s.outer := by simp [State.homeDone]

@[simp] theorem State.homeTravel_outer (a : Axis) (s : State) : (State.homeTravel a s).outer = s.outer :=
  by unfold State.homeTravel; repeat' split <;> simp

@[simp] theorem State.stall_outer (s : State) (k : Chan) : (State.stall s k).outer = s.outer := by
  unfold State.stall
  repeat' (first
    | with_reducible rfl
    | with_reducible refine (State.outer_each _ _ _ (fun _ _ => ?_)).trans ?_
    | with_reducible refine (State.outer_onlyIf _ _ _ (fun _ => ?_)).trans ?_
    | with_reducible refine State.outer_ite ?_ ?_
    | split | simp only [State.outer_mk] | dsimp only | simp)

@[simp] theorem State.windowEnd_outer (s : State) (k : Chan) (x : Fin 2) (code : Nat) : (State.windowEnd s k x code).outer =
    s.outer := by
  unfold State.windowEnd
  repeat' (first
    | with_reducible rfl
    | with_reducible refine (State.outer_each _ _ _ (fun _ _ => ?_)).trans ?_
    | with_reducible refine (State.outer_onlyIf _ _ _ (fun _ => ?_)).trans ?_
    | with_reducible refine State.outer_ite ?_ ?_
    | split | simp only [State.outer_mk] | dsimp only | simp)

@[simp] theorem State.coilZero_outer (s : State) (k : Chan) (x : Fin 2) : (State.coilZero s k x).outer = s.outer :=
  by simp [State.coilZero]

@[simp] theorem State.onEnd_outer (s : State) (k : Chan) (x : Fin 2) : (State.onEnd s k x).outer = s.outer :=
  by simp [State.onEnd]

@[simp] theorem State.decayEnds_outer (s : State) : (State.decayEnds s).outer = s.outer := by simp [State.decayEnds]

@[simp] theorem State.onBegin_outer (s : State) (k : Chan) (x : Fin 2) : (State.onBegin s k x).outer = s.outer := by
  unfold State.onBegin
  repeat' (first
    | with_reducible rfl
    | with_reducible refine (State.outer_each _ _ _ (fun _ _ => ?_)).trans ?_
    | with_reducible refine (State.outer_onlyIf _ _ _ (fun _ => ?_)).trans ?_
    | with_reducible refine State.outer_ite ?_ ?_
    | split | simp only [State.outer_mk] | dsimp only | simp)

@[simp] theorem State.bridgeOc_outer (s : State) (k : Chan) (x : Fin 2) : (State.bridgeOc s k x).outer = s.outer :=
  by simp [State.bridgeOc]

@[simp] theorem State.bridgeSeg_outer (s : State) (h : Fin 16) (seg : Nat) : (State.bridgeSeg s h seg).outer = s.outer := by
  unfold State.bridgeSeg
  repeat' (first
    | with_reducible rfl
    | with_reducible refine (State.outer_each _ _ _ (fun _ _ => ?_)).trans ?_
    | with_reducible refine (State.outer_onlyIf _ _ _ (fun _ => ?_)).trans ?_
    | with_reducible refine State.outer_ite ?_ ?_
    | split | simp only [State.outer_mk] | dsimp only | simp)

@[simp] theorem State.bridgeSpare_outer (s : State) (h : Fin 16) : (State.bridgeSpare s h).outer = s.outer := by
  unfold State.bridgeSpare
  repeat' (first
    | with_reducible rfl
    | with_reducible refine (State.outer_each _ _ _ (fun _ _ => ?_)).trans ?_
    | with_reducible refine (State.outer_onlyIf _ _ _ (fun _ => ?_)).trans ?_
    | with_reducible refine State.outer_ite ?_ ?_
    | split | simp only [State.outer_mk] | dsimp only | simp)

@[simp] theorem State.measureAxis_outer (s : State) (n : Mcn) : (State.measureAxis s n).outer = s.outer := by
  unfold State.measureAxis
  repeat' (first
    | with_reducible rfl
    | with_reducible refine (State.outer_each _ _ _ (fun _ _ => ?_)).trans ?_
    | with_reducible refine (State.outer_onlyIf _ _ _ (fun _ => ?_)).trans ?_
    | with_reducible refine State.outer_ite ?_ ?_
    | split | simp only [State.outer_mk] | dsimp only | simp)

@[simp] theorem State.dwellOver_outer (s : State) (a : Axis) : (State.dwellOver s a).outer = s.outer :=
  by unfold State.dwellOver; split <;> simp

@[simp] theorem State.standbyDue_outer (s : State) (k : Chan) : (State.standbyDue s k).outer = s.outer :=
  by unfold State.standbyDue; repeat' split <;> simp

/-! ## Thermal -/

@[simp] theorem State.modDie_outer (s : State) (d : Fin 3) (g : DieTh → DieTh) : (State.modDie s d g).outer = s.outer :=
  by simp [State.modDie]

@[simp] theorem State.modNtc_outer (s : State) (k : Fin 4) (g : Ntc → Ntc) : (State.modNtc s k g).outer = s.outer :=
  by simp [State.modNtc]

@[simp] theorem State.reach_outer (s : State) (e : Nat) (new any : Bool) : (State.reach s e new any).outer = s.outer := by
  unfold State.reach
  repeat' (first
    | with_reducible rfl
    | with_reducible refine (State.outer_each _ _ _ (fun _ _ => ?_)).trans ?_
    | with_reducible refine (State.outer_onlyIf _ _ _ (fun _ => ?_)).trans ?_
    | with_reducible refine State.outer_ite ?_ ?_
    | split | simp only [State.outer_mk] | dsimp only | simp)

@[simp] theorem State.rateEvent_outer (s : State) (e : Nat) (was is : Bool) : (State.rateEvent s e was is).outer = s.outer :=
  by unfold State.rateEvent; split <;> simp

@[simp] theorem State.sensBreak_outer (s : State) (d : Fin 3) (p : Nat) : (State.sensBreak s d p).outer = s.outer := by
  unfold State.sensBreak
  repeat' (first
    | with_reducible rfl
    | with_reducible refine (State.outer_each _ _ _ (fun _ _ => ?_)).trans ?_
    | with_reducible refine (State.outer_onlyIf _ _ _ (fun _ => ?_)).trans ?_
    | with_reducible refine State.outer_ite ?_ ?_
    | split | simp only [State.outer_mk] | dsimp only | simp)

@[simp] theorem State.outlier_outer (s : State) (d : Fin 3) (temps : List Int) (r : Nat) : (State.outlier s d temps r).outer =
    s.outer := by
  unfold State.outlier
  repeat' (first
    | with_reducible rfl
    | with_reducible refine (State.outer_each _ _ _ (fun _ _ => ?_)).trans ?_
    | with_reducible refine (State.outer_onlyIf _ _ _ (fun _ => ?_)).trans ?_
    | with_reducible refine State.outer_ite ?_ ?_
    | split | simp only [State.outer_mk] | dsimp only | simp)

@[simp] theorem State.dieLimits_outer (s : State) (d : Fin 3) (t : Int) : (State.dieLimits s d t).outer = s.outer :=
  by unfold State.dieLimits; split <;> simp

@[simp] theorem State.dieRate_outer (s : State) (d : Fin 3) (temps : List Int) (r : Nat) : (State.dieRate s d temps r).outer =
    s.outer :=
  by simp [State.dieRate]

@[simp] theorem State.diePass_outer (s : State) (d : Fin 3) (code : Nat → Nat) : (State.diePass s d code).outer = s.outer := by
  unfold State.diePass
  repeat' (first
    | with_reducible rfl
    | with_reducible refine (State.outer_each _ _ _ (fun _ _ => ?_)).trans ?_
    | with_reducible refine (State.outer_onlyIf _ _ _ (fun _ => ?_)).trans ?_
    | with_reducible refine State.outer_ite ?_ ?_
    | split | simp only [State.outer_mk] | dsimp only | simp)

@[simp] theorem State.coldMarks_outer (s : State) : (State.coldMarks s).outer = s.outer := by simp [State.coldMarks]

@[simp] theorem State.modelSample_outer (s : State) (n : Mcn) : (State.modelSample s n).outer = s.outer :=
  by simp [State.modelSample]

@[simp] theorem State.vdsResult_outer (s : State) (n : Mcn) (sw : Fin 6) (code : Nat) : (State.vdsResult s n sw code).outer =
    s.outer := by
  unfold State.vdsResult
  repeat' (first
    | with_reducible rfl
    | with_reducible refine (State.outer_each _ _ _ (fun _ _ => ?_)).trans ?_
    | with_reducible refine (State.outer_onlyIf _ _ _ (fun _ => ?_)).trans ?_
    | with_reducible refine State.outer_ite ?_ ?_
    | split | simp only [State.outer_mk] | dsimp only | simp)

@[simp] theorem State.brakeRun_outer (s : State) (r : Rg) (inp : List Int) : (State.brakeRun s r inp).1.outer = s.outer := by
  unfold State.brakeRun
  repeat' (first
    | with_reducible rfl
    | with_reducible refine (State.outer_each _ _ _ (fun _ _ => ?_)).trans ?_
    | with_reducible refine (State.outer_onlyIf _ _ _ (fun _ => ?_)).trans ?_
    | with_reducible refine State.outer_ite ?_ ?_
    | split | simp only [State.outer_mk] | dsimp only | simp)

@[simp] theorem State.derateSt_outer (s : State) (r : Rg) : (State.derateSt s r).outer = s.outer := by simp [State.derateSt]

@[simp] theorem State.thermRegion_outer (s : State) (r : Rg) (inp : List Int) : (State.thermRegion s r inp).1.outer = s.outer :=
  by simp [State.thermRegion]

@[simp] theorem State.carrierChange_outer (s : State) (n : Mcn) : (State.carrierChange s n).outer = s.outer :=
  by unfold State.carrierChange; split <;> simp

/-! ## Pwm -/

@[simp] theorem State.rampBit_outer (s : State) (n : Mcn) (x : Nat) (ramping : Bool) : (State.rampBit s n x ramping).outer =
    s.outer :=
  by simp [State.rampBit]

@[simp] theorem State.showApplied_outer (s : State) (n : Mcn) (c : Compare) : (State.showApplied s n c).outer = s.outer :=
  by simp [State.showApplied]

@[simp] theorem State.latency_outer (s : State) (n : Mcn) (apply out : Nat) : (State.latency s n apply out).outer = s.outer :=
  by simp [State.latency]

@[simp] theorem State.legEdge_outer (s : State) (n : Mcn) (t : Int) (p : Fin 3) (c : LegCmd) : (State.legEdge s n t p c).outer
    = s.outer := by
  unfold State.legEdge
  repeat' (first
    | with_reducible rfl
    | with_reducible refine (State.outer_each _ _ _ (fun _ _ => ?_)).trans ?_
    | with_reducible refine (State.outer_onlyIf _ _ _ (fun _ => ?_)).trans ?_
    | with_reducible refine State.outer_ite ?_ ?_
    | split | simp only [State.outer_mk] | dsimp only | simp)

@[simp] theorem State.edgesGo_outer (n : Mcn) (k : Nat) (s : State) : (State.edgesGo n k s).outer = s.outer := by
  induction k generalizing s with
  | zero => rfl
  | succ k ih =>
    unfold State.edgesGo
    split
    · rfl
    · split
      · exact (ih _).trans (by simp)
      · rfl

@[simp] theorem State.runEdges_outer (s : State) (n : Mcn) : (State.runEdges s n).outer = s.outer := by simp [State.runEdges]

@[simp] theorem State.schedule_outer (s : State) (n : Mcn) (ps : List (Fin 3)) (es : List (Int × Fin 3 × LegCmd)) :
    (State.schedule s n ps es).outer = s.outer := by
  unfold State.schedule
  repeat' (first
    | with_reducible rfl
    | with_reducible refine (State.outer_each _ _ _ (fun _ _ => ?_)).trans ?_
    | with_reducible refine (State.outer_onlyIf _ _ _ (fun _ => ?_)).trans ?_
    | with_reducible refine State.outer_ite ?_ ?_
    | split | simp only [State.outer_mk] | dsimp only | simp)

@[simp] theorem State.driveHalf_outer (s : State) (n : Mcn) : (State.driveHalf s n).outer = s.outer :=
  by unfold State.driveHalf; split <;> simp

@[simp] theorem State.compareApply_outer (s : State) (n : Mcn) : (State.compareApply s n).outer = s.outer := by
  unfold State.compareApply
  repeat' (first
    | with_reducible rfl
    | with_reducible refine (State.outer_each _ _ _ (fun _ _ => ?_)).trans ?_
    | with_reducible refine (State.outer_onlyIf _ _ _ (fun _ => ?_)).trans ?_
    | with_reducible refine State.outer_ite ?_ ?_
    | split | simp only [State.outer_mk] | dsimp only | simp)

@[simp] theorem State.scalePeriod_outer (s : State) (n : Mcn) (from_ into : Nat) : (State.scalePeriod s n from_ into).outer =
    s.outer :=
  by simp [State.scalePeriod]

@[simp] theorem State.newPeriod_outer (s : State) (n : Mcn) : (State.newPeriod s n).outer = s.outer := by
  unfold State.newPeriod
  repeat' (first
    | with_reducible rfl
    | with_reducible refine (State.outer_each _ _ _ (fun _ _ => ?_)).trans ?_
    | with_reducible refine (State.outer_onlyIf _ _ _ (fun _ => ?_)).trans ?_
    | with_reducible refine State.outer_ite ?_ ?_
    | split | simp only [State.outer_mk] | dsimp only | simp)

@[simp] theorem State.carrierStart_outer (s : State) (n : Mcn) : (State.carrierStart s n).outer = s.outer := by
  unfold State.carrierStart
  repeat' (first
    | with_reducible rfl
    | with_reducible refine (State.outer_each _ _ _ (fun _ _ => ?_)).trans ?_
    | with_reducible refine (State.outer_onlyIf _ _ _ (fun _ => ?_)).trans ?_
    | with_reducible refine State.outer_ite ?_ ?_
    | split | simp only [State.outer_mk] | dsimp only | simp)

@[simp] theorem State.carrierBack_outer (s : State) (n : Mcn) : (State.carrierBack s n).outer = s.outer :=
  by simp [State.carrierBack]

@[simp] theorem State.gateBack_outer (s : State) (n : Mcn) : (State.gateBack s n).outer = s.outer := by simp [State.gateBack]

@[simp] theorem State.carrierStop_outer (s : State) (n : Mcn) : (State.carrierStop s n).outer = s.outer :=
  by simp [State.carrierStop]

@[simp] theorem State.dropResiduals_outer (s : State) (n : Mcn) : (State.dropResiduals s n).outer = s.outer :=
  by simp [State.dropResiduals]

@[simp] theorem State.sectorSet_outer (s : State) (n : Mcn) (k : Nat) : (State.sectorSet s n k).outer = s.outer := by
  unfold State.sectorSet
  repeat' (first
    | with_reducible rfl
    | with_reducible refine (State.outer_each _ _ _ (fun _ _ => ?_)).trans ?_
    | with_reducible refine (State.outer_onlyIf _ _ _ (fun _ => ?_)).trans ?_
    | with_reducible refine State.outer_ite ?_ ?_
    | split | simp only [State.outer_mk] | dsimp only | simp)

@[simp] theorem State.sectorSync_outer (s : State) (n : Mcn) : (State.sectorSync s n).outer = s.outer := by
  unfold State.sectorSync
  repeat' (first
    | with_reducible rfl
    | with_reducible refine (State.outer_each _ _ _ (fun _ _ => ?_)).trans ?_
    | with_reducible refine (State.outer_onlyIf _ _ _ (fun _ => ?_)).trans ?_
    | with_reducible refine State.outer_ite ?_ ?_
    | split | simp only [State.outer_mk] | dsimp only | simp)

@[simp] theorem State.sectorBoundary_outer (s : State) (n : Mcn) : (State.sectorBoundary s n).outer = s.outer := by
  unfold State.sectorBoundary
  repeat' (first
    | with_reducible rfl
    | with_reducible refine (State.outer_each _ _ _ (fun _ _ => ?_)).trans ?_
    | with_reducible refine (State.outer_onlyIf _ _ _ (fun _ => ?_)).trans ?_
    | with_reducible refine State.outer_ite ?_ ?_
    | split | simp only [State.outer_mk] | dsimp only | simp)

@[simp] theorem State.refreshDone_outer (s : State) (n : Mcn) (p : Fin 3) : (State.refreshDone s n p).outer = s.outer :=
  by simp [State.refreshDone]

@[simp] theorem State.refreshPlan_outer (s : State) (n : Mcn) : (State.refreshPlan s n).outer = s.outer :=
  by simp [State.refreshPlan]

@[simp] theorem State.forceRefresh_outer (s : State) (n : Mcn) (p : Fin 3) : (State.forceRefresh s n p).outer = s.outer := by
  unfold State.forceRefresh
  repeat' (first
    | with_reducible rfl
    | with_reducible refine (State.outer_each _ _ _ (fun _ _ => ?_)).trans ?_
    | with_reducible refine (State.outer_onlyIf _ _ _ (fun _ => ?_)).trans ?_
    | with_reducible refine State.outer_ite ?_ ?_
    | split | simp only [State.outer_mk] | dsimp only | simp)

@[simp] theorem State.bstSet_outer (s : State) (n : Mcn) (p : Fin 3) (low : Bool) : (State.bstSet s n p low).outer = s.outer := by
  unfold State.bstSet
  repeat' (first
    | with_reducible rfl
    | with_reducible refine (State.outer_each _ _ _ (fun _ _ => ?_)).trans ?_
    | with_reducible refine (State.outer_onlyIf _ _ _ (fun _ => ?_)).trans ?_
    | with_reducible refine State.outer_ite ?_ ?_
    | split | simp only [State.outer_mk] | dsimp only | simp)

@[simp] theorem State.refreshPhase_outer (s : State) (n : Mcn) (p : Fin 3) : (State.refreshPhase s n p).outer = s.outer := by
  unfold State.refreshPhase
  repeat' (first
    | with_reducible rfl
    | with_reducible refine (State.outer_each _ _ _ (fun _ _ => ?_)).trans ?_
    | with_reducible refine (State.outer_onlyIf _ _ _ (fun _ => ?_)).trans ?_
    | with_reducible refine State.outer_ite ?_ ?_
    | split | simp only [State.outer_mk] | dsimp only | simp)

@[simp] theorem State.sampleBoundary_outer (s : State) (n : Mcn) : (State.sampleBoundary s n).outer = s.outer :=
  by simp [State.sampleBoundary]

@[simp] theorem State.holdCurrents_outer (s : State) (n : Mcn) : (State.holdCurrents s n).outer = s.outer :=
  by simp [State.holdCurrents]

@[simp] theorem State.injPlan_outer (s : State) (n : Mcn) : (State.injPlan s n).outer = s.outer := by
  unfold State.injPlan
  repeat' (first
    | with_reducible rfl
    | with_reducible refine (State.outer_each _ _ _ (fun _ _ => ?_)).trans ?_
    | with_reducible refine (State.outer_onlyIf _ _ _ (fun _ => ?_)).trans ?_
    | with_reducible refine State.outer_ite ?_ ?_
    | split | simp only [State.outer_mk] | dsimp only | simp)

@[simp] theorem State.zeroNow_outer (s : State) (n : Mcn) : (State.zeroNow s n).outer = s.outer := by
  unfold State.zeroNow
  repeat' (first
    | with_reducible rfl
    | with_reducible refine (State.outer_each _ _ _ (fun _ _ => ?_)).trans ?_
    | with_reducible refine (State.outer_onlyIf _ _ _ (fun _ => ?_)).trans ?_
    | with_reducible refine State.outer_ite ?_ ?_
    | split | simp only [State.outer_mk] | dsimp only | simp)

@[simp] theorem State.counterZero_outer (s : State) (n : Mcn) : (State.counterZero s n).outer = s.outer :=
  by unfold State.counterZero; repeat' split <;> simp

@[simp] theorem State.periodEvent_outer (s : State) (n : Mcn) : (State.periodEvent s n).outer = s.outer := by
  unfold State.periodEvent
  repeat' (first
    | with_reducible rfl
    | with_reducible refine (State.outer_each _ _ _ (fun _ _ => ?_)).trans ?_
    | with_reducible refine (State.outer_onlyIf _ _ _ (fun _ => ?_)).trans ?_
    | with_reducible refine State.outer_ite ?_ ?_
    | split | simp only [State.outer_mk] | dsimp only | simp)

/-! ## Est -/

@[simp] theorem State.estSet_outer (s : State) (n : Mcn) (f : Fld) (v : Nat) : (State.estSet s n f v).outer = s.outer :=
  by simp [State.estSet]

@[simp] theorem State.sensorUpdate_outer (s : State) (n : Mcn) (angle : Nat) (speed ts : Int) : (State.sensorUpdate s n angle
    speed ts).outer = s.outer :=
  by unfold State.sensorUpdate; repeat' split <;> simp

@[simp] theorem State.hallHold_outer (s : State) (n : Mcn) : (State.hallHold s n).outer = s.outer := by simp [State.hallHold]

@[simp] theorem State.hallEdge_outer (s : State) (n : Mcn) (code : Nat) : (State.hallEdge s n code).outer = s.outer := by
  unfold State.hallEdge
  repeat' (first
    | with_reducible rfl
    | with_reducible refine (State.outer_each _ _ _ (fun _ _ => ?_)).trans ?_
    | with_reducible refine (State.outer_onlyIf _ _ _ (fun _ => ?_)).trans ?_
    | with_reducible refine State.outer_ite ?_ ?_
    | split | simp only [State.outer_mk] | dsimp only | simp)

@[simp] theorem State.setEncCount_outer (s : State) (n : Mcn) (c : Int) : (State.setEncCount s n c).outer = s.outer :=
  by simp [State.setEncCount]

@[simp] theorem State.encUpdate_outer (s : State) (n : Mcn) : (State.encUpdate s n).outer = s.outer :=
  by unfold State.encUpdate; split <;> simp

@[simp] theorem State.posStop_outer (s : State) (n : Mcn) : (State.posStop s n).outer = s.outer :=
  by unfold State.posStop; repeat' split <;> simp

@[simp] theorem State.hallSample_outer (s : State) (n : Mcn) : (State.hallSample s n).outer = s.outer := by
  unfold State.hallSample
  repeat' (first
    | with_reducible rfl
    | with_reducible refine (State.outer_each _ _ _ (fun _ _ => ?_)).trans ?_
    | with_reducible refine (State.outer_onlyIf _ _ _ (fun _ => ?_)).trans ?_
    | with_reducible refine State.outer_ite ?_ ?_
    | split | simp only [State.outer_mk] | dsimp only | simp)

@[simp] theorem State.encEdge_outer (s : State) (n : Mcn) (q : Quad) : (State.encEdge s n q).outer = s.outer :=
  by unfold State.encEdge; repeat' split <;> simp

@[simp] theorem State.encIndex_outer (s : State) (n : Mcn) : (State.encIndex s n).outer = s.outer :=
  by unfold State.encIndex; repeat' split <;> simp

@[simp] theorem State.encRef_outer (s : State) (n : Mcn) (angle : Nat) : (State.encRef s n angle).outer = s.outer :=
  by unfold State.encRef; split <;> simp

@[simp] theorem State.absUpdate_outer (s : State) (n : Mcn) (start : Int) (w : Nat) (portOk : Bool) : (State.absUpdate s n
    start w portOk).outer = s.outer := by
  unfold State.absUpdate
  repeat' (first
    | with_reducible rfl
    | with_reducible refine (State.outer_each _ _ _ (fun _ _ => ?_)).trans ?_
    | with_reducible refine (State.outer_onlyIf _ _ _ (fun _ => ?_)).trans ?_
    | with_reducible refine State.outer_ite ?_ ?_
    | split | simp only [State.outer_mk] | dsimp only | simp)

@[simp] theorem State.injBand_outer (s : State) (n : Mcn) : (State.injBand s n).outer = s.outer := by
  unfold State.injBand
  repeat' (first
    | with_reducible rfl
    | with_reducible refine (State.outer_each _ _ _ (fun _ _ => ?_)).trans ?_
    | with_reducible refine (State.outer_onlyIf _ _ _ (fun _ => ?_)).trans ?_
    | with_reducible refine State.outer_ite ?_ ?_
    | split | simp only [State.outer_mk] | dsimp only | simp)

@[simp] theorem State.blendDatum_outer (s : State) (n : Mcn) (ts : Int) : (State.blendDatum s n ts).outer = s.outer := by
  unfold State.blendDatum
  repeat' (first
    | with_reducible rfl
    | with_reducible refine (State.outer_each _ _ _ (fun _ _ => ?_)).trans ?_
    | with_reducible refine (State.outer_onlyIf _ _ _ (fun _ => ?_)).trans ?_
    | with_reducible refine State.outer_ite ?_ ?_
    | split | simp only [State.outer_mk] | dsimp only | simp)

@[simp] theorem State.reacqRecord_outer (s : State) (n : Mcn) (ok : Bool) : (State.reacqRecord s n ok).outer = s.outer :=
  by simp [State.reacqRecord]

@[simp] theorem State.takePath_outer (s : State) (n : Mcn) (p : Path) : (State.takePath s n p).outer = s.outer := by
  unfold State.takePath
  repeat' (first
    | with_reducible rfl
    | with_reducible refine (State.outer_each _ _ _ (fun _ _ => ?_)).trans ?_
    | with_reducible refine (State.outer_onlyIf _ _ _ (fun _ => ?_)).trans ?_
    | with_reducible refine State.outer_ite ?_ ?_
    | split | simp only [State.outer_mk] | dsimp only | simp)

@[simp] theorem State.choosePath_outer (s : State) (n : Mcn) : (State.choosePath s n).outer = s.outer :=
  by simp [State.choosePath]

@[simp] theorem State.recover_outer (s : State) (n : Mcn) : (State.recover s n).outer = s.outer := by simp [State.recover]

@[simp] theorem State.lockLost_outer (s : State) (n : Mcn) : (State.lockLost s n).outer = s.outer := by simp [State.lockLost]

@[simp] theorem State.lossOfLock_outer (s : State) (n : Mcn) : (State.lossOfLock s n).outer = s.outer := by
  unfold State.lossOfLock
  repeat' (first
    | with_reducible rfl
    | with_reducible refine (State.outer_each _ _ _ (fun _ _ => ?_)).trans ?_
    | with_reducible refine (State.outer_onlyIf _ _ _ (fun _ => ?_)).trans ?_
    | with_reducible refine State.outer_ite ?_ ?_
    | split | simp only [State.outer_mk] | dsimp only | simp)

@[simp] theorem State.reacqExpire_outer (s : State) (n : Mcn) : (State.reacqExpire s n).outer = s.outer :=
  by unfold State.reacqExpire; split <;> simp

@[simp] theorem State.startReady_outer (s : State) (n : Mcn) : (State.startReady s n).outer = s.outer :=
  by simp [State.startReady]

@[simp] theorem State.startSpeed_outer (s : State) (n : Mcn) : (State.startSpeed s n).outer = s.outer :=
  by simp [State.startSpeed]

@[simp] theorem State.startAccel_outer (s : State) (n : Mcn) : (State.startAccel s n).outer = s.outer :=
  by unfold State.startAccel; repeat' split <;> simp

@[simp] theorem State.startFind_outer (s : State) (n : Mcn) : (State.startFind s n).outer = s.outer := by
  unfold State.startFind
  repeat' (first
    | with_reducible rfl
    | with_reducible refine (State.outer_each _ _ _ (fun _ _ => ?_)).trans ?_
    | with_reducible refine (State.outer_onlyIf _ _ _ (fun _ => ?_)).trans ?_
    | with_reducible refine State.outer_ite ?_ ?_
    | split | simp only [State.outer_mk] | dsimp only | simp)

@[simp] theorem State.startFix_outer (s : State) (n : Mcn) : (State.startFix s n).outer = s.outer := by simp [State.startFix]

@[simp] theorem State.startBegin_outer (s : State) (n : Mcn) : (State.startBegin s n).outer = s.outer := by
  unfold State.startBegin
  repeat' (first
    | with_reducible rfl
    | with_reducible refine (State.outer_each _ _ _ (fun _ _ => ?_)).trans ?_
    | with_reducible refine (State.outer_onlyIf _ _ _ (fun _ => ?_)).trans ?_
    | with_reducible refine State.outer_ite ?_ ?_
    | split | simp only [State.outer_mk] | dsimp only | simp)

@[simp] theorem State.startFail_outer (s : State) (n : Mcn) : (State.startFail s n).outer = s.outer := by
  unfold State.startFail
  repeat' (first
    | with_reducible rfl
    | with_reducible refine (State.outer_each _ _ _ (fun _ _ => ?_)).trans ?_
    | with_reducible refine (State.outer_onlyIf _ _ _ (fun _ => ?_)).trans ?_
    | with_reducible refine State.outer_ite ?_ ?_
    | split | simp only [State.outer_mk] | dsimp only | simp)

@[simp] theorem State.probeEnd_outer (s : State) (n : Mcn) : (State.probeEnd s n).outer = s.outer :=
  by unfold State.probeEnd; split <;> simp

@[simp] theorem State.alignDone_outer (s : State) (n : Mcn) : (State.alignDone s n).outer = s.outer :=
  by unfold State.alignDone; split <;> simp

@[simp] theorem State.polarity_outer (s : State) (n : Mcn) (plus minus : Nat) : (State.polarity s n plus minus).outer =
    s.outer := by
  unfold State.polarity
  repeat' (first
    | with_reducible rfl
    | with_reducible refine (State.outer_each _ _ _ (fun _ _ => ?_)).trans ?_
    | with_reducible refine (State.outer_onlyIf _ _ _ (fun _ => ?_)).trans ?_
    | with_reducible refine State.outer_ite ?_ ?_
    | split | simp only [State.outer_mk] | dsimp only | simp)

@[simp] theorem State.rampSample_outer (s : State) (n : Mcn) : (State.rampSample s n).outer = s.outer := by
  unfold State.rampSample
  repeat' (first
    | with_reducible rfl
    | with_reducible refine (State.outer_each _ _ _ (fun _ _ => ?_)).trans ?_
    | with_reducible refine (State.outer_onlyIf _ _ _ (fun _ => ?_)).trans ?_
    | with_reducible refine State.outer_ite ?_ ?_
    | split | simp only [State.outer_mk] | dsimp only | simp)

@[simp] theorem State.handover_outer (s : State) (n : Mcn) : (State.handover s n).outer = s.outer := by
  unfold State.handover
  repeat' (first
    | with_reducible rfl
    | with_reducible refine (State.outer_each _ _ _ (fun _ _ => ?_)).trans ?_
    | with_reducible refine (State.outer_onlyIf _ _ _ (fun _ => ?_)).trans ?_
    | with_reducible refine State.outer_ite ?_ ?_
    | split | simp only [State.outer_mk] | dsimp only | simp)

@[simp] theorem State.injCycleEnd_outer (s : State) (n : Mcn) (rs : List Int) : (State.injCycleEnd s n rs).outer = s.outer := by
  unfold State.injCycleEnd
  repeat' (first
    | with_reducible rfl
    | with_reducible refine (State.outer_each _ _ _ (fun _ _ => ?_)).trans ?_
    | with_reducible refine (State.outer_onlyIf _ _ _ (fun _ => ?_)).trans ?_
    | with_reducible refine State.outer_ite ?_ ?_
    | split | simp only [State.outer_mk] | dsimp only | simp)

@[simp] theorem State.injSample_outer (s : State) (n : Mcn) : (State.injSample s n).outer = s.outer := by
  unfold State.injSample
  repeat' (first
    | with_reducible rfl
    | with_reducible refine (State.outer_each _ _ _ (fun _ _ => ?_)).trans ?_
    | with_reducible refine (State.outer_onlyIf _ _ _ (fun _ => ?_)).trans ?_
    | with_reducible refine State.outer_ite ?_ ?_
    | split | simp only [State.outer_mk] | dsimp only | simp)

@[simp] theorem State.zcAccept_outer (s : State) (n : Mcn) (k angle : Nat) (t : Int) : (State.zcAccept s n k angle t).outer =
    s.outer := by
  unfold State.zcAccept
  repeat' (first
    | with_reducible rfl
    | with_reducible refine (State.outer_each _ _ _ (fun _ _ => ?_)).trans ?_
    | with_reducible refine (State.outer_onlyIf _ _ _ (fun _ => ?_)).trans ?_
    | with_reducible refine State.outer_ite ?_ ?_
    | split | simp only [State.outer_mk] | dsimp only | simp)

@[simp] theorem State.bemf_outer (s : State) (n : Mcn) (p : Nat) (code : Nat) (hold : Nat) : (State.bemf s n p code
    hold).outer = s.outer := by
  unfold State.bemf
  repeat' (first
    | with_reducible rfl
    | with_reducible refine (State.outer_each _ _ _ (fun _ _ => ?_)).trans ?_
    | with_reducible refine (State.outer_onlyIf _ _ _ (fun _ => ?_)).trans ?_
    | with_reducible refine State.outer_ite ?_ ?_
    | split | simp only [State.outer_mk] | dsimp only | simp)

@[simp] theorem State.zcExpire_outer (s : State) (n : Mcn) : (State.zcExpire s n).outer = s.outer := by
  unfold State.zcExpire
  repeat' (first
    | with_reducible rfl
    | with_reducible refine (State.outer_each _ _ _ (fun _ _ => ?_)).trans ?_
    | with_reducible refine (State.outer_onlyIf _ _ _ (fun _ => ?_)).trans ?_
    | with_reducible refine State.outer_ite ?_ ?_
    | split | simp only [State.outer_mk] | dsimp only | simp)

@[simp] theorem State.trackerConv_outer (s : State) (n : Mcn) : (State.trackerConv s n).outer = s.outer :=
  by unfold State.trackerConv; split <;> simp

@[simp] theorem State.resumeControl_outer (s : State) (n : Mcn) : (State.resumeControl s n).outer = s.outer := by
  unfold State.resumeControl
  repeat' (first
    | with_reducible rfl
    | with_reducible refine (State.outer_each _ _ _ (fun _ _ => ?_)).trans ?_
    | with_reducible refine (State.outer_onlyIf _ _ _ (fun _ => ?_)).trans ?_
    | with_reducible refine State.outer_ite ?_ ?_
    | split | simp only [State.outer_mk] | dsimp only | simp)

@[simp] theorem State.scStep_outer (s : State) (n : Mcn) : (State.scStep s n).outer = s.outer :=
  by unfold State.scStep; split <;> simp

@[simp] theorem State.scSample_outer (s : State) (n : Mcn) : (State.scSample s n).outer = s.outer := by
  unfold State.scSample
  repeat' (first
    | with_reducible rfl
    | with_reducible refine (State.outer_each _ _ _ (fun _ _ => ?_)).trans ?_
    | with_reducible refine (State.outer_onlyIf _ _ _ (fun _ => ?_)).trans ?_
    | with_reducible refine State.outer_ite ?_ ?_
    | split | simp only [State.outer_mk] | dsimp only | simp)

@[simp] theorem State.startCheck_outer (s : State) (n : Mcn) : (State.startCheck s n).outer = s.outer :=
  by unfold State.startCheck; split <;> simp

@[simp] theorem State.startTimeout_outer (s : State) (n : Mcn) : (State.startTimeout s n).outer = s.outer :=
  by unfold State.startTimeout; split <;> simp

@[simp] theorem State.startAgain_outer (s : State) (n : Mcn) : (State.startAgain s n).outer = s.outer :=
  by unfold State.startAgain; split <;> simp

@[simp] theorem State.stallWatch_outer (s : State) (n : Mcn) (ref meas : Int) (limited : Bool) : (State.stallWatch s n ref
    meas limited).outer = s.outer :=
  by simp [State.stallWatch]

@[simp] theorem State.stallDeclared_outer (s : State) (n : Mcn) : (State.stallDeclared s n).outer = s.outer :=
  by unfold State.stallDeclared; repeat' split <;> simp

/-! ## Conv -/

@[simp] theorem State.modConv_outer (s : State) (n : Mcn) (g : ConvSt → ConvSt) : (State.modConv s n g).outer = s.outer :=
  by simp [State.modConv]

@[simp] theorem State.setActive_outer (s : State) (n : Mcn) (p : Fin 3) (on : Bool) : (State.setActive s n p on).outer =
    s.outer :=
  by simp [State.setActive]

@[simp] theorem State.convSeed_outer (s : State) (n : Mcn) : (State.convSeed s n).outer = s.outer := by simp [State.convSeed]

@[simp] theorem State.convRamps_outer (s : State) (n : Mcn) : (State.convRamps s n).outer = s.outer := by simp [State.convRamps]

@[simp] theorem State.convArm_outer (s : State) (n : Mcn) : (State.convArm s n).outer = s.outer := by simp [State.convArm]

@[simp] theorem State.phaseTake_outer (s : State) (n : Mcn) (p : Fin 3) : (State.phaseTake s n p).outer = s.outer := by
  unfold State.phaseTake
  repeat' (first
    | with_reducible rfl
    | with_reducible refine (State.outer_each _ _ _ (fun _ _ => ?_)).trans ?_
    | with_reducible refine (State.outer_onlyIf _ _ _ (fun _ => ?_)).trans ?_
    | with_reducible refine State.outer_ite ?_ ?_
    | split | simp only [State.outer_mk] | dsimp only | simp)

@[simp] theorem State.phaseDuty_outer (s : State) (n : Mcn) (p : Fin 3) (d : Int) : (State.phaseDuty s n p d).outer = s.outer :=
  by simp [State.phaseDuty]

@[simp] theorem State.cycleBegin_outer (s : State) (n : Mcn) : (State.cycleBegin s n).outer = s.outer :=
  by simp [State.cycleBegin]

@[simp] theorem State.phaseDrive_outer (s : State) (n : Mcn) (p : Fin 3) (rising : Bool) : (State.phaseDrive s n p
    rising).outer = s.outer := by
  unfold State.phaseDrive
  repeat' (first
    | with_reducible rfl
    | with_reducible refine (State.outer_each _ _ _ (fun _ _ => ?_)).trans ?_
    | with_reducible refine (State.outer_onlyIf _ _ _ (fun _ => ?_)).trans ?_
    | with_reducible refine State.outer_ite ?_ ?_
    | split | simp only [State.outer_mk] | dsimp only | simp)

@[simp] theorem State.phasePeriod_outer (s : State) (n : Mcn) (p : Fin 3) : (State.phasePeriod s n p).outer = s.outer := by
  unfold State.phasePeriod
  repeat' (first
    | with_reducible rfl
    | with_reducible refine (State.outer_each _ _ _ (fun _ _ => ?_)).trans ?_
    | with_reducible refine (State.outer_onlyIf _ _ _ (fun _ => ?_)).trans ?_
    | with_reducible refine State.outer_ite ?_ ?_
    | split | simp only [State.outer_mk] | dsimp only | simp)

@[simp] theorem State.convZero_outer (s : State) (n : Mcn) (p : Fin 3) : (State.convZero s n p).outer = s.outer := by
  unfold State.convZero
  repeat' (first
    | with_reducible rfl
    | with_reducible refine (State.outer_each _ _ _ (fun _ _ => ?_)).trans ?_
    | with_reducible refine (State.outer_onlyIf _ _ _ (fun _ => ?_)).trans ?_
    | with_reducible refine State.outer_ite ?_ ?_
    | split | simp only [State.outer_mk] | dsimp only | simp)

@[simp] theorem State.convPeriod_outer (s : State) (n : Mcn) (p : Fin 3) : (State.convPeriod s n p).outer = s.outer := by
  unfold State.convPeriod
  repeat' (first
    | with_reducible rfl
    | with_reducible refine (State.outer_each _ _ _ (fun _ _ => ?_)).trans ?_
    | with_reducible refine (State.outer_onlyIf _ _ _ (fun _ => ?_)).trans ?_
    | with_reducible refine State.outer_ite ?_ ?_
    | split | simp only [State.outer_mk] | dsimp only | simp)

@[simp] theorem State.convApply_outer (s : State) (n : Mcn) : (State.convApply s n).outer = s.outer := by
  unfold State.convApply
  repeat' (first
    | with_reducible rfl
    | with_reducible refine (State.outer_each _ _ _ (fun _ _ => ?_)).trans ?_
    | with_reducible refine (State.outer_onlyIf _ _ _ (fun _ => ?_)).trans ?_
    | with_reducible refine State.outer_ite ?_ ?_
    | split | simp only [State.outer_mk] | dsimp only | simp)

@[simp] theorem State.convSample_outer (s : State) (n : Mcn) (p : Fin 3) : (State.convSample s n p).outer = s.outer := by
  unfold State.convSample
  repeat' (first
    | with_reducible rfl
    | with_reducible refine (State.outer_each _ _ _ (fun _ _ => ?_)).trans ?_
    | with_reducible refine (State.outer_onlyIf _ _ _ (fun _ => ?_)).trans ?_
    | with_reducible refine State.outer_ite ?_ ?_
    | split | simp only [State.outer_mk] | dsimp only | simp)

@[simp] theorem State.vloOv_outer (s : State) (n : Mcn) : (State.vloOv s n).outer = s.outer :=
  by unfold State.vloOv; split <;> simp

@[simp] theorem State.vloResult_outer (s : State) (n : Mcn) (code : Nat) : (State.vloResult s n code).outer = s.outer := by
  unfold State.vloResult
  repeat' (first
    | with_reducible rfl
    | with_reducible refine (State.outer_each _ _ _ (fun _ _ => ?_)).trans ?_
    | with_reducible refine (State.outer_onlyIf _ _ _ (fun _ => ?_)).trans ?_
    | with_reducible refine State.outer_ite ?_ ?_
    | split | simp only [State.outer_mk] | dsimp only | simp)

@[simp] theorem State.vloOk_outer (s : State) (n : Mcn) : (State.vloOk s n).outer = s.outer :=
  by unfold State.vloOk; split <;> simp

@[simp] theorem State.ccurPhase_outer (s : State) (n : Mcn) (inp : List Int) (p : Fin 3) : (State.ccurPhase s n inp p).1.outer
    = s.outer :=
  by simp [State.ccurPhase]

@[simp] theorem State.meter_outer (s : State) (n : Mcn) (inp : List Int) : (State.meter s n inp).outer = s.outer :=
  by simp [State.meter]

@[simp] theorem State.setIref_outer (s : State) (l : Mcn) (iref target : Int) : (State.setIref s l iref target).outer = s.outer :=
  by simp [State.setIref]

@[simp] theorem State.isetTarget_outer (s : State) (n : Mcn) : (State.isetTarget s n).outer = s.outer :=
  by unfold State.isetTarget; split <;> simp

@[simp] theorem State.shed_outer (s : State) (l : Mcn) : (State.shed s l).outer = s.outer := by
  unfold State.shed
  repeat' (first
    | with_reducible rfl
    | with_reducible refine (State.outer_each _ _ _ (fun _ _ => ?_)).trans ?_
    | with_reducible refine (State.outer_onlyIf _ _ _ (fun _ => ?_)).trans ?_
    | with_reducible refine State.outer_ite ?_ ?_
    | split | simp only [State.outer_mk] | dsimp only | simp)

@[simp] theorem State.cvoltDone_outer (s : State) (n : Mcn) (inp : List Int) (rel : Nat) : (State.cvoltDone s n inp
    rel).1.outer = s.outer := by
  unfold State.cvoltDone
  repeat' (first
    | with_reducible rfl
    | with_reducible refine (State.outer_each _ _ _ (fun _ _ => ?_)).trans ?_
    | with_reducible refine (State.outer_onlyIf _ _ _ (fun _ => ?_)).trans ?_
    | with_reducible refine State.outer_ite ?_ ?_
    | split | simp only [State.outer_mk] | dsimp only | simp)

@[simp] theorem State.meterClear_outer (s : State) (n : Mcn) : (State.meterClear s n).outer = s.outer :=
  by unfold State.meterClear; split <;> simp

/-! ## Banks -/

@[simp] theorem State.setBank_outer (s : State) (n : Mcn) (g : Fin 4) (i : Fin 2) (b : Bank) : (State.setBank s n g i b).outer
    = s.outer :=
  by simp [State.setBank]

@[simp] theorem State.bankBit_outer (s : State) (n : Mcn) (f : Fld) (g : Fin 4) (v : Bool) : (State.bankBit s n f g v).outer =
    s.outer :=
  by simp [State.bankBit]

@[simp] theorem State.modAtl_outer (s : State) (n : Mcn) (g : Pager → Pager) : (State.modAtl s n g).outer = s.outer :=
  by simp [State.modAtl]

@[simp] theorem State.bankFlip_outer (s : State) (n : Mcn) (g : Fin 4) : (State.bankFlip s n g).outer = s.outer :=
  by simp [State.bankFlip]

@[simp] theorem State.showAct_outer (s : State) (n : Mcn) (f : Fill) : (State.showAct s n f).outer = s.outer :=
  by simp [State.showAct]

@[simp] theorem State.bankSwap_outer (s : State) (n : Mcn) (g : Fin 4) : (State.bankSwap s n g).outer = s.outer := by
  unfold State.bankSwap
  repeat' (first
    | with_reducible rfl
    | with_reducible refine (State.outer_each _ _ _ (fun _ _ => ?_)).trans ?_
    | with_reducible refine (State.outer_onlyIf _ _ _ (fun _ => ?_)).trans ?_
    | with_reducible refine State.outer_ite ?_ ?_
    | split | simp only [State.outer_mk] | dsimp only | simp)

@[simp] theorem State.jobBoundary_outer (s : State) (j : JobId) : (State.jobBoundary s j).outer = s.outer :=
  by unfold State.jobBoundary; split <;> simp

/-! ## Jobs -/

@[simp] theorem State.rel_outer (s : State) (j : JobId) : (State.rel s j).outer = s.outer := by simp [State.rel]

@[simp] theorem State.dispatchNow_outer (s : State) : (State.dispatchNow s).outer = s.outer := by simp [State.dispatchNow]

@[simp] theorem State.relIf_outer (s : State) (j : JobId) : (State.relIf s j).outer = s.outer :=
  by unfold State.relIf; split <;> simp

@[simp] theorem State.spdCount_outer (s : State) (n : Mcn) : (State.spdCount s n).outer = s.outer :=
  by unfold State.spdCount; repeat' split <;> simp

@[simp] theorem State.servCount_outer (s : State) (n : Mcn) : (State.servCount s n).outer = s.outer :=
  by unfold State.servCount; repeat' split <;> simp

@[simp] theorem State.servoEnd_outer (s : State) (c : Cl) : (State.servoEnd s c).outer = s.outer := by simp [State.servoEnd]

@[simp] theorem State.sampleRelease_outer (s : State) (n : Mcn) : (State.sampleRelease s n).outer = s.outer := by
  unfold State.sampleRelease
  repeat' (first
    | with_reducible rfl
    | with_reducible refine (State.outer_each _ _ _ (fun _ _ => ?_)).trans ?_
    | with_reducible refine (State.outer_onlyIf _ _ _ (fun _ => ?_)).trans ?_
    | with_reducible refine State.outer_ite ?_ ?_
    | split | simp only [State.outer_mk] | dsimp only | simp)

@[simp] theorem State.jobRelease_outer (s : State) (j : JobId) : (State.jobRelease s j).outer = s.outer := by
  unfold State.jobRelease
  repeat' (first
    | with_reducible rfl
    | with_reducible refine (State.outer_each _ _ _ (fun _ _ => ?_)).trans ?_
    | with_reducible refine (State.outer_onlyIf _ _ _ (fun _ => ?_)).trans ?_
    | with_reducible refine State.outer_ite ?_ ?_
    | split | simp only [State.outer_mk] | dsimp only | simp)

@[simp] theorem State.deliver_outer (s : State) (n : Mcn) : (State.deliver s n).outer = s.outer := by
  unfold State.deliver
  repeat' (first
    | with_reducible rfl
    | with_reducible refine (State.outer_each _ _ _ (fun _ _ => ?_)).trans ?_
    | with_reducible refine (State.outer_onlyIf _ _ _ (fun _ => ?_)).trans ?_
    | with_reducible refine State.outer_ite ?_ ?_
    | split | simp only [State.outer_mk] | dsimp only | simp)

@[simp] theorem State.windowCount_outer (s : State) (n : Mcn) (recon : Int) : (State.windowCount s n recon).outer = s.outer := by
  unfold State.windowCount
  repeat' (first
    | with_reducible rfl
    | with_reducible refine (State.outer_each _ _ _ (fun _ _ => ?_)).trans ?_
    | with_reducible refine (State.outer_onlyIf _ _ _ (fun _ => ?_)).trans ?_
    | with_reducible refine State.outer_ite ?_ ?_
    | split | simp only [State.outer_mk] | dsimp only | simp)

@[simp] theorem State.curBlock_outer (s : State) (n : Mcn) (inp : List Int) (fin : Nat) : (State.curBlock s n inp fin).1.outer
    = s.outer := by
  unfold State.curBlock
  repeat' (first
    | with_reducible rfl
    | with_reducible refine (State.outer_each _ _ _ (fun _ _ => ?_)).trans ?_
    | with_reducible refine (State.outer_onlyIf _ _ _ (fun _ => ?_)).trans ?_
    | with_reducible refine State.outer_ite ?_ ?_
    | split | simp only [State.outer_mk] | dsimp only | simp)

@[simp] theorem State.spdDone_outer (s : State) (n : Mcn) (inp : List Int) (rel : Nat) : (State.spdDone s n inp rel).1.outer =
    s.outer :=
  by simp [State.spdDone]

@[simp] theorem State.posDone_outer (s : State) (n : Mcn) (inp : List Int) (rel : Nat) : (State.posDone s n inp rel).1.outer =
    s.outer :=
  by simp [State.posDone]

@[simp] theorem State.laneSubst_outer (s : State) : (State.laneSubst s).outer = s.outer :=
  by unfold State.laneSubst; repeat' split <;> simp

@[simp] theorem State.laneFail_outer (s : State) (i : Fin 8) : (State.laneFail s i).outer = s.outer := by
  unfold State.laneFail
  repeat' (first
    | with_reducible rfl
    | with_reducible refine (State.outer_each _ _ _ (fun _ _ => ?_)).trans ?_
    | with_reducible refine (State.outer_onlyIf _ _ _ (fun _ => ?_)).trans ?_
    | with_reducible refine State.outer_ite ?_ ?_
    | split | simp only [State.outer_mk] | dsimp only | simp)

@[simp] theorem State.laneFree_outer (s : State) (i : Fin 8) : (State.laneFree s i).outer = s.outer := by
  unfold State.laneFree
  repeat' (first
    | with_reducible rfl
    | with_reducible refine (State.outer_each _ _ _ (fun _ _ => ?_)).trans ?_
    | with_reducible refine (State.outer_onlyIf _ _ _ (fun _ => ?_)).trans ?_
    | with_reducible refine State.outer_ite ?_ ?_
    | split | simp only [State.outer_mk] | dsimp only | simp)

@[simp] theorem State.currentReady_outer (s : State) (n : Mcn) (p : Fin 3) (code : Nat) (spare : Option Nat) :
    (State.currentReady s n p code spare).outer = s.outer :=
  by unfold State.currentReady; repeat' split <;> simp

/-! ## Pool -/

@[simp] theorem State.laneWindow_outer (s : State) (i : Fin 8) (count : Nat) : (State.laneWindow s i count).outer = s.outer := by
  unfold State.laneWindow
  repeat' (first
    | with_reducible rfl
    | with_reducible refine (State.outer_each _ _ _ (fun _ _ => ?_)).trans ?_
    | with_reducible refine (State.outer_onlyIf _ _ _ (fun _ => ?_)).trans ?_
    | with_reducible refine State.outer_ite ?_ ?_
    | split | simp only [State.outer_mk] | dsimp only | simp)

@[simp] theorem State.laneDrain_outer (s : State) (i : Fin 8) : (State.laneDrain s i).outer = s.outer :=
  by simp [State.laneDrain]

@[simp] theorem State.poolTest_outer (s : State) : (State.poolTest s).outer = s.outer := by
  unfold State.poolTest
  repeat' (first
    | with_reducible rfl
    | with_reducible refine (State.outer_each _ _ _ (fun _ _ => ?_)).trans ?_
    | with_reducible refine (State.outer_onlyIf _ _ _ (fun _ => ?_)).trans ?_
    | with_reducible refine State.outer_ite ?_ ?_
    | split | simp only [State.outer_mk] | dsimp only | simp)

@[simp] theorem State.laneOverrun_outer (s : State) (i : Fin 8) : (State.laneOverrun s i).outer = s.outer := by
  unfold State.laneOverrun
  repeat' (first
    | with_reducible rfl
    | with_reducible refine (State.outer_each _ _ _ (fun _ _ => ?_)).trans ?_
    | with_reducible refine (State.outer_onlyIf _ _ _ (fun _ => ?_)).trans ?_
    | with_reducible refine State.outer_ite ?_ ?_
    | split | simp only [State.outer_mk] | dsimp only | simp)

@[simp] theorem State.ltestDone_outer (s : State) (i : Fin 8) (good : Bool) : (State.ltestDone s i good).outer = s.outer := by
  unfold State.ltestDone
  repeat' (first
    | with_reducible rfl
    | with_reducible refine (State.outer_each _ _ _ (fun _ _ => ?_)).trans ?_
    | with_reducible refine (State.outer_onlyIf _ _ _ (fun _ => ?_)).trans ?_
    | with_reducible refine State.outer_ite ?_ ?_
    | split | simp only [State.outer_mk] | dsimp only | simp)

@[simp] theorem State.traceArm_outer (s : State) (u : Fin 4) : (State.traceArm s u).outer = s.outer := by
  unfold State.traceArm
  repeat' (first
    | with_reducible rfl
    | with_reducible refine (State.outer_each _ _ _ (fun _ _ => ?_)).trans ?_
    | with_reducible refine (State.outer_onlyIf _ _ _ (fun _ => ?_)).trans ?_
    | with_reducible refine State.outer_ite ?_ ?_
    | split | simp only [State.outer_mk] | dsimp only | simp)

@[simp] theorem State.traceSoft_outer (s : State) (u : Fin 4) : (State.traceSoft s u).outer = s.outer :=
  by unfold State.traceSoft; split <;> simp

@[simp] theorem State.traceStop_outer (s : State) (u : Fin 4) : (State.traceStop s u).outer = s.outer :=
  by simp [State.traceStop]

@[simp] theorem State.putWords_outer (s : State) (a : Nat) (ws : List Word) : (State.putWords s a ws).outer = s.outer :=
  by simp [State.putWords]

@[simp] theorem State.traceRecord_outer (s : State) (u : Fin 4) (inp : List Int) : (State.traceRecord s u inp).outer = s.outer
    := by
  unfold State.traceRecord
  repeat' (first
    | with_reducible rfl
    | with_reducible refine (State.outer_each _ _ _ (fun _ _ => ?_)).trans ?_
    | with_reducible refine (State.outer_onlyIf _ _ _ (fun _ => ?_)).trans ?_
    | with_reducible refine State.outer_ite ?_ ?_
    | split | simp only [State.outer_mk] | dsimp only | simp)

@[simp] theorem State.traceTake_outer (s : State) (u : Fin 4) (n : Nat) : (State.traceTake s u n).1.outer = s.outer :=
  by simp [State.traceTake]

/-! ## Graticule -/

@[simp] theorem State.edgeCommit_outer (s : State) (n : Mcn) (k : Fin 64) : (State.edgeCommit s n k).outer = s.outer :=
  by simp [State.edgeCommit]

@[simp] theorem State.testPulse_outer (s : State) (n : Mcn) (sw : Fin 6) (width : Nat) : (State.testPulse s n sw width).outer
    = s.outer :=
  by unfold State.testPulse; split <;> simp

@[simp] theorem State.pulseEnds_outer (s : State) : (State.pulseEnds s).outer = s.outer := by simp [State.pulseEnds]

@[simp] theorem State.gAction_outer (s : State) (n : Mcn) (k : Fin 64) : (State.gAction s n k).outer = s.outer := by
  unfold State.gAction
  repeat' (first
    | with_reducible rfl
    | with_reducible refine (State.outer_each _ _ _ (fun _ _ => ?_)).trans ?_
    | with_reducible refine (State.outer_onlyIf _ _ _ (fun _ => ?_)).trans ?_
    | with_reducible refine State.outer_ite ?_ ?_
    | split | simp only [State.outer_mk] | dsimp only | simp)

@[simp] theorem State.gAdvance_outer (s : State) (n : Mcn) (k : Fin 64) (step : Nat) : (State.gAdvance s n k step).outer =
    s.outer := by
  unfold State.gAdvance
  repeat' (first
    | with_reducible rfl
    | with_reducible refine (State.outer_each _ _ _ (fun _ _ => ?_)).trans ?_
    | with_reducible refine (State.outer_onlyIf _ _ _ (fun _ => ?_)).trans ?_
    | with_reducible refine State.outer_ite ?_ ?_
    | split | simp only [State.outer_mk] | dsimp only | simp)

@[simp] theorem State.gFired_outer (s : State) (n : Mcn) (k : Fin 64) : (State.gFired s n k).outer = s.outer :=
  by simp [State.gFired]

@[simp] theorem State.gFire1_outer (s : State) (n : Mcn) (k : Fin 64) : (State.gFire1 s n k).outer = s.outer := by
  unfold State.gFire1
  repeat' (first
    | with_reducible rfl
    | with_reducible refine (State.outer_each _ _ _ (fun _ _ => ?_)).trans ?_
    | with_reducible refine (State.outer_onlyIf _ _ _ (fun _ => ?_)).trans ?_
    | with_reducible refine State.outer_ite ?_ ?_
    | split | simp only [State.outer_mk] | dsimp only | simp)

@[simp] theorem State.gFire_outer (s : State) (n : Mcn) (k : Fin 64) : (State.gFire s n k).outer = s.outer := by
  unfold State.gFire
  repeat' (first
    | with_reducible rfl
    | with_reducible refine (State.outer_each _ _ _ (fun _ _ => ?_)).trans ?_
    | with_reducible refine (State.outer_onlyIf _ _ _ (fun _ => ?_)).trans ?_
    | with_reducible refine State.outer_ite ?_ ?_
    | split | simp only [State.outer_mk] | dsimp only | simp)

@[simp] theorem State.commuteDue_outer (s : State) (n : Mcn) : (State.commuteDue s n).outer = s.outer :=
  by simp [State.commuteDue]

@[simp] theorem State.channelUse_outer (s : State) (g : Grp) (entry code : Nat) : (State.channelUse s g entry code).outer =
    s.outer := by
  unfold State.channelUse
  repeat' (first
    | with_reducible rfl
    | with_reducible refine (State.outer_each _ _ _ (fun _ _ => ?_)).trans ?_
    | with_reducible refine (State.outer_onlyIf _ _ _ (fun _ => ?_)).trans ?_
    | with_reducible refine State.outer_ite ?_ ?_
    | split | simp only [State.outer_mk] | dsimp only | simp)

@[simp] theorem State.regularReady_outer (s : State) (g : Grp) (k code : Nat) : (State.regularReady s g k code).outer = s.outer :=
  by unfold State.regularReady; repeat' split <;> simp

@[simp] theorem State.injectedReady_outer (s : State) (g : Grp) (k code : Nat) : (State.injectedReady s g k code).outer =
    s.outer :=
  by unfold State.injectedReady; repeat' split <;> simp

@[simp] theorem State.graticuleReady_outer (s : State) (g : Grp) (code : Nat) : (State.graticuleReady s g code).outer =
    s.outer := by
  unfold State.graticuleReady
  repeat' (first
    | with_reducible rfl
    | with_reducible refine (State.outer_each _ _ _ (fun _ _ => ?_)).trans ?_
    | with_reducible refine (State.outer_onlyIf _ _ _ (fun _ => ?_)).trans ?_
    | with_reducible refine State.outer_ite ?_ ?_
    | split | simp only [State.outer_mk] | dsimp only | simp)

/-! ## Atlas -/

@[simp] theorem State.setSheet_outer (s : State) (n st : Nat) : (State.setSheet s n st).outer = s.outer :=
  by simp [State.setSheet]

@[simp] theorem State.flagRow_outer (s : State) (n : Nat) : (State.flagRow s n).outer = s.outer :=
  by unfold State.flagRow; split <;> simp

@[simp] theorem State.eccCorrected_outer (s : State) (k : Nat) : (State.eccCorrected s k).outer = s.outer := by
  unfold State.eccCorrected
  repeat' (first
    | with_reducible rfl
    | with_reducible refine (State.outer_each _ _ _ (fun _ _ => ?_)).trans ?_
    | with_reducible refine (State.outer_onlyIf _ _ _ (fun _ => ?_)).trans ?_
    | with_reducible refine State.outer_ite ?_ ?_
    | split | simp only [State.outer_mk] | dsimp only | simp)

@[simp] theorem State.atlasDone_outer (s : State) (n : Mcn) (inp : List Int) : (State.atlasDone s n inp).1.outer = s.outer := by
  unfold State.atlasDone
  repeat' (first
    | with_reducible rfl
    | with_reducible refine (State.outer_each _ _ _ (fun _ _ => ?_)).trans ?_
    | with_reducible refine (State.outer_onlyIf _ _ _ (fun _ => ?_)).trans ?_
    | with_reducible refine State.outer_ite ?_ ?_
    | split | simp only [State.outer_mk] | dsimp only | simp)

@[simp] theorem State.sheetFail_outer (s : State) (n : Mcn) (k : Nat) : (State.sheetFail s n k).outer = s.outer :=
  by simp [State.sheetFail]

@[simp] theorem State.fillEnd_outer (s : State) (n : Mcn) : (State.fillEnd s n).outer = s.outer := by simp [State.fillEnd]

@[simp] theorem State.readSheet_outer (s : State) (ecc : Ecc) (k : Nat) : (State.readSheet s ecc k).1.outer = s.outer :=
  by simp [State.readSheet]

@[simp] theorem State.sheetMiss_outer (s : State) (n : Mcn) : (State.sheetMiss s n).outer = s.outer := by
  unfold State.sheetMiss
  repeat' (first
    | with_reducible rfl
    | with_reducible refine (State.outer_each _ _ _ (fun _ _ => ?_)).trans ?_
    | with_reducible refine (State.outer_onlyIf _ _ _ (fun _ => ?_)).trans ?_
    | with_reducible refine State.outer_ite ?_ ?_
    | split | simp only [State.outer_mk] | dsimp only | simp)

@[simp] theorem State.atlDiscard_outer (s : State) (n : Mcn) : (State.atlDiscard s n).outer = s.outer := by
  unfold State.atlDiscard
  repeat' (first
    | with_reducible rfl
    | with_reducible refine (State.outer_each _ _ _ (fun _ _ => ?_)).trans ?_
    | with_reducible refine (State.outer_onlyIf _ _ _ (fun _ => ?_)).trans ?_
    | with_reducible refine State.outer_ite ?_ ?_
    | split | simp only [State.outer_mk] | dsimp only | simp)

@[simp] theorem State.swapRelease_outer (s : State) (n : Mcn) : (State.swapRelease s n).outer = s.outer :=
  by unfold State.swapRelease; split <;> simp

@[simp] theorem State.swapBanks_outer (s : State) (n : Mcn) : (State.swapBanks s n).outer = s.outer :=
  by unfold State.swapBanks; split <;> simp

@[simp] theorem State.atlArm_outer (s : State) (n : Mcn) : (State.atlArm s n).outer = s.outer := by simp [State.atlArm]

@[simp] theorem State.rowSheet_outer (s : State) (ecc : Ecc) (k : Nat) : (State.rowSheet s ecc k).outer = s.outer := by
  unfold State.rowSheet
  repeat' (first
    | with_reducible rfl
    | with_reducible refine (State.outer_each _ _ _ (fun _ _ => ?_)).trans ?_
    | with_reducible refine (State.outer_onlyIf _ _ _ (fun _ => ?_)).trans ?_
    | with_reducible refine State.outer_ite ?_ ?_
    | split | simp only [State.outer_mk] | dsimp only | simp)

/-! ## Units -/

@[simp] theorem State.restoreLanes_outer (s : State) (dead : Nat) : (State.restoreLanes s dead).outer = s.outer :=
  by unfold State.restoreLanes; repeat' split <;> simp

@[simp] theorem State.restoreSlices_outer (s : State) (dead : Nat) : (State.restoreSlices s dead).outer = s.outer := by
  unfold State.restoreSlices
  repeat' (first
    | with_reducible rfl
    | with_reducible refine (State.outer_each _ _ _ (fun _ _ => ?_)).trans ?_
    | with_reducible refine (State.outer_onlyIf _ _ _ (fun _ => ?_)).trans ?_
    | with_reducible refine State.outer_ite ?_ ?_
    | split | simp only [State.outer_mk] | dsimp only | simp)

@[simp] theorem State.restoreAmps_outer (s : State) (dead : Nat) : (State.restoreAmps s dead).outer = s.outer := by
  unfold State.restoreAmps
  repeat' (first
    | with_reducible rfl
    | with_reducible refine (State.outer_each _ _ _ (fun _ _ => ?_)).trans ?_
    | with_reducible refine (State.outer_onlyIf _ _ _ (fun _ => ?_)).trans ?_
    | with_reducible refine State.outer_ite ?_ ?_
    | split | simp only [State.outer_mk] | dsimp only | simp)

@[simp] theorem State.restoreGates_outer (s : State) (dead : Nat) : (State.restoreGates s dead).outer = s.outer := by
  unfold State.restoreGates
  repeat' (first
    | with_reducible rfl
    | with_reducible refine (State.outer_each _ _ _ (fun _ _ => ?_)).trans ?_
    | with_reducible refine (State.outer_onlyIf _ _ _ (fun _ => ?_)).trans ?_
    | with_reducible refine State.outer_ite ?_ ?_
    | split | simp only [State.outer_mk] | dsimp only | simp)

@[simp] theorem State.restoreSteps_outer (s : State) (dead : Nat) : (State.restoreSteps s dead).outer = s.outer := by
  unfold State.restoreSteps
  repeat' (first
    | with_reducible rfl
    | with_reducible refine (State.outer_each _ _ _ (fun _ _ => ?_)).trans ?_
    | with_reducible refine (State.outer_onlyIf _ _ _ (fun _ => ?_)).trans ?_
    | with_reducible refine State.outer_ite ?_ ?_
    | split | simp only [State.outer_mk] | dsimp only | simp)

@[simp] theorem State.restoreSensors_outer (s : State) (dead : Nat) : (State.restoreSensors s dead).outer = s.outer := by
  unfold State.restoreSensors
  repeat' (first
    | with_reducible rfl
    | with_reducible refine (State.outer_each _ _ _ (fun _ _ => ?_)).trans ?_
    | with_reducible refine (State.outer_onlyIf _ _ _ (fun _ => ?_)).trans ?_
    | with_reducible refine State.outer_ite ?_ ?_
    | split | simp only [State.outer_mk] | dsimp only | simp)

@[simp] theorem State.restoreLinks_outer (s : State) (dead : Nat) : (State.restoreLinks s dead).outer = s.outer := by
  unfold State.restoreLinks
  repeat' (first
    | with_reducible rfl
    | with_reducible refine (State.outer_each _ _ _ (fun _ _ => ?_)).trans ?_
    | with_reducible refine (State.outer_onlyIf _ _ _ (fun _ => ?_)).trans ?_
    | with_reducible refine State.outer_ite ?_ ?_
    | split | simp only [State.outer_mk] | dsimp only | simp)

/-! ## Cluster -/

@[simp] theorem State.effCopy_outer (s : State) (b : Blk) (base : Nat) : (State.effCopy s b base).outer = s.outer :=
  by simp [State.effCopy]

@[simp] theorem State.effCluster_outer (s : State) (c : Cl) : (State.effCluster s c).outer = s.outer :=
  by unfold State.effCluster; split <;> simp

@[simp] theorem State.endEst_outer (s : State) (n : Mcn) : (State.endEst s n).outer = s.outer := by
  unfold State.endEst
  repeat' (first
    | with_reducible rfl
    | with_reducible refine (State.outer_each _ _ _ (fun _ _ => ?_)).trans ?_
    | with_reducible refine (State.outer_onlyIf _ _ _ (fun _ => ?_)).trans ?_
    | with_reducible refine State.outer_ite ?_ ?_
    | split | simp only [State.outer_mk] | dsimp only | simp)

@[simp] theorem State.endSensor_outer (s : State) (n : Mcn) : (State.endSensor s n).outer = s.outer := by simp [State.endSensor]

@[simp] theorem State.startAbort_outer (s : State) (n : Mcn) : (State.startAbort s n).outer = s.outer := by
  unfold State.startAbort
  repeat' (first
    | with_reducible rfl
    | with_reducible refine (State.outer_each _ _ _ (fun _ _ => ?_)).trans ?_
    | with_reducible refine (State.outer_onlyIf _ _ _ (fun _ => ?_)).trans ?_
    | with_reducible refine State.outer_ite ?_ ?_
    | split | simp only [State.outer_mk] | dsimp only | simp)

@[simp] theorem State.armZero_outer (s : State) (n : Mcn) : (State.armZero s n).outer = s.outer := by
  unfold State.armZero
  repeat' (first
    | with_reducible rfl
    | with_reducible refine (State.outer_each _ _ _ (fun _ _ => ?_)).trans ?_
    | with_reducible refine (State.outer_onlyIf _ _ _ (fun _ => ?_)).trans ?_
    | with_reducible refine State.outer_ite ?_ ?_
    | split | simp only [State.outer_mk] | dsimp only | simp)

@[simp] theorem State.armMc_outer (s : State) (n : Mcn) : (State.armMc s n).outer = s.outer := by
  unfold State.armMc
  repeat' (first
    | with_reducible rfl
    | with_reducible refine (State.outer_each _ _ _ (fun _ _ => ?_)).trans ?_
    | with_reducible refine (State.outer_onlyIf _ _ _ (fun _ => ?_)).trans ?_
    | with_reducible refine State.outer_ite ?_ ?_
    | split | simp only [State.outer_mk] | dsimp only | simp)

@[simp] theorem State.armSt_outer (s : State) (r : Rg) : (State.armSt s r).outer = s.outer := by simp [State.armSt]

@[simp] theorem State.defaultSp_outer (s : State) (c : Cl) : (State.defaultSp s c).outer = s.outer := by
  unfold State.defaultSp
  repeat' (first
    | with_reducible rfl
    | with_reducible refine (State.outer_each _ _ _ (fun _ _ => ?_)).trans ?_
    | with_reducible refine (State.outer_onlyIf _ _ _ (fun _ => ?_)).trans ?_
    | with_reducible refine State.outer_ite ?_ ?_
    | split | simp only [State.outer_mk] | dsimp only | simp)

@[simp] theorem State.startUnits_outer (s : State) (c : Cl) : (State.startUnits s c).outer = s.outer :=
  by unfold State.startUnits; repeat' split <;> simp

@[simp] theorem State.runUnits_outer (s : State) (c : Cl) : (State.runUnits s c).outer = s.outer :=
  by unfold State.runUnits; repeat' split <;> simp

@[simp] theorem State.stopUnits_outer (s : State) (c : Cl) (starting : Bool) : (State.stopUnits s c starting).outer = s.outer
    := by
  unfold State.stopUnits
  repeat' (first
    | with_reducible rfl
    | with_reducible refine (State.outer_each _ _ _ (fun _ _ => ?_)).trans ?_
    | with_reducible refine (State.outer_onlyIf _ _ _ (fun _ => ?_)).trans ?_
    | with_reducible refine State.outer_ite ?_ ?_
    | split | simp only [State.outer_mk] | dsimp only | simp)

@[simp] theorem State.restUnits_outer (s : State) (c : Cl) : (State.restUnits s c).outer = s.outer :=
  by unfold State.restUnits; repeat' split <;> simp

@[simp] theorem State.enter_outer (s : State) (c : Cl) (goal : CState) (cause : Nat) (ev : Option Nat) : (State.enter s c goal
    cause ev).outer = s.outer :=
  by unfold State.enter; repeat' split <;> simp

@[simp] theorem State.rejectSwap_outer (s : State) (c : Cl) (reason : Nat) : (State.rejectSwap s c reason).outer = s.outer :=
  by simp [State.rejectSwap]

@[simp] theorem State.armCmd_outer (s : State) (c : Cl) (cause : Nat) : (State.armCmd s c cause).outer = s.outer := by
  unfold State.armCmd
  repeat' (first
    | with_reducible rfl
    | with_reducible refine (State.outer_each _ _ _ (fun _ _ => ?_)).trans ?_
    | with_reducible refine (State.outer_onlyIf _ _ _ (fun _ => ?_)).trans ?_
    | with_reducible refine State.outer_ite ?_ ?_
    | split | simp only [State.outer_mk] | dsimp only | simp)

@[simp] theorem State.enterAll_outer (s : State) (cs : List Cl) (ok : CState → Bool) (goal : CState) (cause : Nat) (ev :
    Option Nat) : (State.enterAll s cs ok goal cause ev).outer = s.outer := by
  unfold State.enterAll
  repeat' (first
    | with_reducible rfl
    | with_reducible refine (State.outer_each _ _ _ (fun _ _ => ?_)).trans ?_
    | with_reducible refine (State.outer_onlyIf _ _ _ (fun _ => ?_)).trans ?_
    | with_reducible refine State.outer_ite ?_ ?_
    | split | simp only [State.outer_mk] | dsimp only | simp)

@[simp] theorem State.disarmCmd_outer (s : State) (c : Cl) : (State.disarmCmd s c).outer = s.outer :=
  by unfold State.disarmCmd; repeat' split <;> simp

@[simp] theorem State.startGo_outer (s : State) (c : Cl) (cs : List Cl) (auto : Bool) : (State.startGo s c cs auto).outer =
    s.outer :=
  by unfold State.startGo; repeat' split <;> simp

@[simp] theorem State.startCmd_outer (s : State) (c : Cl) : (State.startCmd s c).outer = s.outer :=
  by unfold State.startCmd; repeat' split <;> simp

@[simp] theorem State.stopCmd_outer (s : State) (c : Cl) : (State.stopCmd s c).outer = s.outer :=
  by unfold State.stopCmd; repeat' split <;> simp

@[simp] theorem State.safeCmd_outer (s : State) (c : Cl) : (State.safeCmd s c).outer = s.outer :=
  by unfold State.safeCmd; repeat' split <;> simp

@[simp] theorem State.clearCmd_outer (s : State) (c : Cl) : (State.clearCmd s c).outer = s.outer := by
  unfold State.clearCmd
  repeat' (first
    | with_reducible rfl
    | with_reducible refine (State.outer_each _ _ _ (fun _ _ => ?_)).trans ?_
    | with_reducible refine (State.outer_onlyIf _ _ _ (fun _ => ?_)).trans ?_
    | with_reducible refine State.outer_ite ?_ ?_
    | split | simp only [State.outer_mk] | dsimp only | simp)

@[simp] theorem State.restMet_outer (s : State) (c : Cl) : (State.restMet s c).outer = s.outer :=
  by unfold State.restMet; repeat' split <;> simp

@[simp] theorem State.armTimeout_outer (s : State) (c : Cl) : (State.armTimeout s c).outer = s.outer := by
  unfold State.armTimeout
  repeat' (first
    | with_reducible rfl
    | with_reducible refine (State.outer_each _ _ _ (fun _ _ => ?_)).trans ?_
    | with_reducible refine (State.outer_onlyIf _ _ _ (fun _ => ?_)).trans ?_
    | with_reducible refine State.outer_ite ?_ ?_
    | split | simp only [State.outer_mk] | dsimp only | simp)

@[simp] theorem State.autoStartNow_outer (s : State) (c : Cl) : (State.autoStartNow s c).outer = s.outer := by
  unfold State.autoStartNow
  repeat' (first
    | with_reducible rfl
    | with_reducible refine (State.outer_each _ _ _ (fun _ _ => ?_)).trans ?_
    | with_reducible refine (State.outer_onlyIf _ _ _ (fun _ => ?_)).trans ?_
    | with_reducible refine State.outer_ite ?_ ?_
    | split | simp only [State.outer_mk] | dsimp only | simp)

@[simp] theorem State.autoArm_outer (s : State) (c : Cl) : (State.autoArm s c).outer = s.outer :=
  by unfold State.autoArm; repeat' split <;> simp

@[simp] theorem State.firstSp_outer (s : State) (c : Cl) (src : Nat) : (State.firstSp s c src).outer = s.outer := by
  unfold State.firstSp
  repeat' (first
    | with_reducible rfl
    | with_reducible refine (State.outer_each _ _ _ (fun _ _ => ?_)).trans ?_
    | with_reducible refine (State.outer_onlyIf _ _ _ (fun _ => ?_)).trans ?_
    | with_reducible refine State.outer_ite ?_ ?_
    | split | simp only [State.outer_mk] | dsimp only | simp)

@[simp] theorem State.logRequest_outer (s : State) (cause : Nat) : (State.logRequest s cause).outer = s.outer :=
  by unfold State.logRequest; split <;> simp

@[simp] theorem State.dark_outer (s : State) : (State.dark s).outer = s.outer := by simp [State.dark]

@[simp] theorem State.faultSafe_outer (s : State) (c : Cl) (cause : Nat) (ev : Option Nat) : (State.faultSafe s c cause
    ev).outer = s.outer :=
  by unfold State.faultSafe; split <;> simp

@[simp] theorem State.bivouac_outer (s : State) (cause : Nat) (ev : Option Nat) : (State.bivouac s cause ev).outer = s.outer :=
  by simp [State.bivouac]

@[simp] theorem State.reactAt_outer (s : State) (k : Nat) (e : Nat) : (State.reactAt s k e).outer = s.outer := by
  unfold State.reactAt
  repeat' (first
    | with_reducible rfl
    | with_reducible refine (State.outer_each _ _ _ (fun _ _ => ?_)).trans ?_
    | with_reducible refine (State.outer_onlyIf _ _ _ (fun _ => ?_)).trans ?_
    | with_reducible refine State.outer_ite ?_ ?_
    | split | simp only [State.outer_mk] | dsimp only | simp)

@[simp] theorem State.advance_outer (s : State) : (State.advance s).outer = s.outer := by
  unfold State.advance
  repeat' (first
    | with_reducible rfl
    | with_reducible refine (State.outer_each _ _ _ (fun _ _ => ?_)).trans ?_
    | with_reducible refine (State.outer_onlyIf _ _ _ (fun _ => ?_)).trans ?_
    | with_reducible refine State.outer_ite ?_ ?_
    | split | simp only [State.outer_mk] | dsimp only | simp)

/-! ## Swap -/

@[simp] theorem State.discardAll_outer (s : State) (cs : List Cl) : (State.discardAll s cs).outer = s.outer := by
  unfold State.discardAll
  repeat' (first
    | with_reducible rfl
    | with_reducible refine (State.outer_each _ _ _ (fun _ _ => ?_)).trans ?_
    | with_reducible refine (State.outer_onlyIf _ _ _ (fun _ => ?_)).trans ?_
    | with_reducible refine State.outer_ite ?_ ?_
    | split | simp only [State.outer_mk] | dsimp only | simp)

@[simp] theorem State.releaseAll_outer (s : State) (cs : List Cl) : (State.releaseAll s cs).outer = s.outer := by
  unfold State.releaseAll
  repeat' (first
    | with_reducible rfl
    | with_reducible refine (State.outer_each _ _ _ (fun _ _ => ?_)).trans ?_
    | with_reducible refine (State.outer_onlyIf _ _ _ (fun _ => ?_)).trans ?_
    | with_reducible refine State.outer_ite ?_ ?_
    | split | simp only [State.outer_mk] | dsimp only | simp)

@[simp] theorem State.gLoad_outer (s : State) (n : Mcn) (keep : Fin 64 → Bool) : (State.gLoad s n keep).outer = s.outer := by
  unfold State.gLoad
  repeat' (first
    | with_reducible rfl
    | with_reducible refine (State.outer_each _ _ _ (fun _ _ => ?_)).trans ?_
    | with_reducible refine (State.outer_onlyIf _ _ _ (fun _ => ?_)).trans ?_
    | with_reducible refine State.outer_ite ?_ ?_
    | split | simp only [State.outer_mk] | dsimp only | simp)

@[simp] theorem State.swapSets_outer (s : State) (c : Cl) : (State.swapSets s c).outer = s.outer :=
  by unfold State.swapSets; split <;> simp

@[simp] theorem State.swapNow_outer (s : State) (c : Cl) : (State.swapNow s c).outer = s.outer := by simp [State.swapNow]

@[simp] theorem State.copyShadow_outer (s : State) (c : Cl) : (State.copyShadow s c).outer = s.outer := by
  unfold State.copyShadow
  repeat' (first
    | with_reducible rfl
    | with_reducible refine (State.outer_each _ _ _ (fun _ _ => ?_)).trans ?_
    | with_reducible refine (State.outer_onlyIf _ _ _ (fun _ => ?_)).trans ?_
    | with_reducible refine State.outer_ite ?_ ?_
    | split | simp only [State.outer_mk] | dsimp only | simp)

@[simp] theorem State.copyDone_outer (s : State) (c : Cl) : (State.copyDone s c).outer = s.outer := by
  unfold State.copyDone
  repeat' (first
    | with_reducible rfl
    | with_reducible refine (State.outer_each _ _ _ (fun _ _ => ?_)).trans ?_
    | with_reducible refine (State.outer_onlyIf _ _ _ (fun _ => ?_)).trans ?_
    | with_reducible refine State.outer_ite ?_ ?_
    | split | simp only [State.outer_mk] | dsimp only | simp)

@[simp] theorem State.devReject_outer (s : State) (unit reason : Nat) : (State.devReject s unit reason).outer = s.outer :=
  by simp [State.devReject]

@[simp] theorem State.swapPackage_outer (s : State) : (State.swapPackage s).outer = s.outer := by
  unfold State.swapPackage
  repeat' (first
    | with_reducible rfl
    | with_reducible refine (State.outer_each _ _ _ (fun _ _ => ?_)).trans ?_
    | with_reducible refine (State.outer_onlyIf _ _ _ (fun _ => ?_)).trans ?_
    | with_reducible refine State.outer_ite ?_ ?_
    | split | simp only [State.outer_mk] | dsimp only | simp)

@[simp] theorem State.devSwapNow_outer (s : State) : (State.devSwapNow s).outer = s.outer :=
  by unfold State.devSwapNow; repeat' split <;> simp

/-! ## Frames -/

@[simp] theorem State.modSync_outer (s : State) (g : Sync → Sync) : (State.modSync s g).outer = s.outer :=
  by simp [State.modSync]

@[simp] theorem State.syncMiss_outer (s : State) : (State.syncMiss s).outer = s.outer := by
  unfold State.syncMiss
  repeat' (first
    | with_reducible rfl
    | with_reducible refine (State.outer_each _ _ _ (fun _ _ => ?_)).trans ?_
    | with_reducible refine (State.outer_onlyIf _ _ _ (fun _ => ?_)).trans ?_
    | with_reducible refine State.outer_ite ?_ ?_
    | split | simp only [State.outer_mk] | dsimp only | simp)

@[simp] theorem State.syncEdge_outer (s : State) (long : Bool) : (State.syncEdge s long).outer = s.outer := by
  unfold State.syncEdge
  repeat' (first
    | with_reducible rfl
    | with_reducible refine (State.outer_each _ _ _ (fun _ _ => ?_)).trans ?_
    | with_reducible refine (State.outer_onlyIf _ _ _ (fun _ => ?_)).trans ?_
    | with_reducible refine State.outer_ite ?_ ?_
    | split | simp only [State.outer_mk] | dsimp only | simp)

@[simp] theorem State.syncWindowClose_outer (s : State) : (State.syncWindowClose s).outer = s.outer :=
  by unfold State.syncWindowClose; repeat' split <;> simp

@[simp] theorem State.snapshot_outer (s : State) (n : Mcn) : (State.snapshot s n).outer = s.outer :=
  by unfold State.snapshot; split <;> simp

@[simp] theorem State.alignMeasure_outer (s : State) (n : Mcn) : (State.alignMeasure s n).outer = s.outer := by
  unfold State.alignMeasure
  repeat' (first
    | with_reducible rfl
    | with_reducible refine (State.outer_each _ _ _ (fun _ _ => ?_)).trans ?_
    | with_reducible refine (State.outer_onlyIf _ _ _ (fun _ => ?_)).trans ?_
    | with_reducible refine State.outer_ite ?_ ?_
    | split | simp only [State.outer_mk] | dsimp only | simp)

@[simp] theorem State.newFramePeriod_outer (s : State) : (State.newFramePeriod s).outer = s.outer := by
  unfold State.newFramePeriod
  repeat' (first
    | with_reducible rfl
    | with_reducible refine (State.outer_each _ _ _ (fun _ _ => ?_)).trans ?_
    | with_reducible refine (State.outer_onlyIf _ _ _ (fun _ => ?_)).trans ?_
    | with_reducible refine State.outer_ite ?_ ?_
    | split | simp only [State.outer_mk] | dsimp only | simp)

@[simp] theorem State.contention_outer (s : State) (wrong : Bool) : (State.contention s wrong).outer = s.outer := by
  unfold State.contention
  repeat' (first
    | with_reducible rfl
    | with_reducible refine (State.outer_each _ _ _ (fun _ _ => ?_)).trans ?_
    | with_reducible refine (State.outer_onlyIf _ _ _ (fun _ => ?_)).trans ?_
    | with_reducible refine State.outer_ite ?_ ?_
    | split | simp only [State.outer_mk] | dsimp only | simp)

@[simp] theorem State.nextFrame_outer (s : State) (start : Nat) : (State.nextFrame s start).outer = s.outer :=
  by simp [State.nextFrame]

@[simp] theorem State.frameBoundary_outer (s : State) (wrong : Bool) : (State.frameBoundary s wrong).outer = s.outer :=
  by unfold State.frameBoundary; split <;> simp

/-! ## Device -/

@[simp] theorem State.runEnter_outer (s : State) (cause : Nat) : (State.runEnter s cause).outer = s.outer :=
  by simp [State.runEnter]

@[simp] theorem State.runCmd_outer (s : State) : (State.runCmd s).outer = s.outer := by unfold State.runCmd; split <;> simp

@[simp] theorem State.haltCmd_outer (s : State) : (State.haltCmd s).outer = s.outer := by unfold State.haltCmd; split <;> simp

@[simp] theorem State.resumeCmd_outer (s : State) : (State.resumeCmd s).outer = s.outer := by
  unfold State.resumeCmd
  repeat' (first
    | with_reducible rfl
    | with_reducible refine (State.outer_each _ _ _ (fun _ _ => ?_)).trans ?_
    | with_reducible refine (State.outer_onlyIf _ _ _ (fun _ => ?_)).trans ?_
    | with_reducible refine State.outer_ite ?_ ?_
    | split | simp only [State.outer_mk] | dsimp only | simp)

@[simp] theorem State.faultNLow_outer (s : State) : (State.faultNLow s).outer = s.outer :=
  by unfold State.faultNLow; repeat' split <;> simp

@[simp] theorem State.faultNHigh_outer (s : State) : (State.faultNHigh s).outer = s.outer :=
  by unfold State.faultNHigh; split <;> simp

@[simp] theorem State.lanternToggle_outer (s : State) : (State.lanternToggle s).outer = s.outer :=
  by unfold State.lanternToggle; split <;> simp

@[simp] theorem State.pulseExpire_outer (s : State) (e : Nat) : (State.pulseExpire s e).outer = s.outer :=
  by simp [State.pulseExpire]

@[simp] theorem State.stickyClear_outer (s : State) (k : Nat) (w : Word) : (State.stickyClear s k w).outer = s.outer :=
  by simp [State.stickyClear]

@[simp] theorem State.guyClear_outer (s : State) (k : Nat) (w : Word) : (State.guyClear s k w).outer = s.outer :=
  by simp [State.guyClear]

@[simp] theorem State.guyBegin_outer (s : State) (e : Nat) : (State.guyBegin s e).outer = s.outer :=
  by unfold State.guyBegin; split <;> simp

@[simp] theorem State.guyEnd_outer (s : State) (e : Nat) : (State.guyEnd s e).outer = s.outer :=
  by unfold State.guyEnd; repeat' split <;> simp

@[simp] theorem State.dieApply_outer (s : State) (d : Rg) : (State.dieApply s d).outer = s.outer := by simp [State.dieApply]

@[simp] theorem State.linkLoss_outer (s : State) (d : Rg) : (State.linkLoss s d).outer = s.outer :=
  by unfold State.linkLoss; split <;> simp

@[simp] theorem State.supplyLoss_outer (s : State) (d : Rg) : (State.supplyLoss s d).outer = s.outer :=
  by simp [State.supplyLoss]

@[simp] theorem State.holdLoss_outer (s : State) (r : Rg) : (State.holdLoss s r).outer = s.outer := by simp [State.holdLoss]

@[simp] theorem State.deliverRaisings_outer (s : State) (d : Rg) : (State.deliverRaisings s d).outer = s.outer :=
  by simp [State.deliverRaisings]

@[simp] theorem State.linkRestored_outer (s : State) (d : Rg) : (State.linkRestored s d).outer = s.outer :=
  by unfold State.linkRestored; repeat' split <;> simp

@[simp] theorem State.linkFrame_outer (s : State) (d : Rg) (toKilid : Bool) (bad : List (Fin 5)) : (State.linkFrame s d
    toKilid bad).outer = s.outer := by
  unfold State.linkFrame
  repeat' (first
    | with_reducible rfl
    | with_reducible refine (State.outer_each _ _ _ (fun _ _ => ?_)).trans ?_
    | with_reducible refine (State.outer_onlyIf _ _ _ (fun _ => ?_)).trans ?_
    | with_reducible refine State.outer_ite ?_ ?_
    | split | simp only [State.outer_mk] | dsimp only | simp)

@[simp] theorem State.laneRetrain_outer (s : State) (d : Rg) (toKilid : Bool) (lane : Fin 5) : (State.laneRetrain s d toKilid
    lane).outer = s.outer := by
  unfold State.laneRetrain
  repeat' (first
    | with_reducible rfl
    | with_reducible refine (State.outer_each _ _ _ (fun _ _ => ?_)).trans ?_
    | with_reducible refine (State.outer_onlyIf _ _ _ (fun _ => ?_)).trans ?_
    | with_reducible refine State.outer_ite ?_ ?_
    | split | simp only [State.outer_mk] | dsimp only | simp)

@[simp] theorem State.supplyEvent_outer (s : State) : (State.supplyEvent s).outer = s.outer :=
  by unfold State.supplyEvent; split <;> simp

@[simp] theorem State.supplyMark_outer (s : State) (m : Nat) (on : Bool) : (State.supplyMark s m on).outer = s.outer :=
  by simp [State.supplyMark]

@[simp] theorem State.busAbsent_outer (s : State) (r : Rg) : (State.busAbsent s r).outer = s.outer := by
  unfold State.busAbsent
  repeat' (first
    | with_reducible rfl
    | with_reducible refine (State.outer_each _ _ _ (fun _ _ => ?_)).trans ?_
    | with_reducible refine (State.outer_onlyIf _ _ _ (fun _ => ?_)).trans ?_
    | with_reducible refine State.outer_ite ?_ ?_
    | split | simp only [State.outer_mk] | dsimp only | simp)

@[simp] theorem State.busPresent_outer (s : State) (r : Rg) : (State.busPresent s r).outer = s.outer :=
  by simp [State.busPresent]

@[simp] theorem State.clockCheck_outer (s : State) (v : ClockVerdict) : (State.clockCheck s v).outer = s.outer := by
  unfold State.clockCheck
  repeat' (first
    | with_reducible rfl
    | with_reducible refine (State.outer_each _ _ _ (fun _ _ => ?_)).trans ?_
    | with_reducible refine (State.outer_onlyIf _ _ _ (fun _ => ?_)).trans ?_
    | with_reducible refine State.outer_ite ?_ ?_
    | split | simp only [State.outer_mk] | dsimp only | simp)

/-! ## Flash -/

@[simp] theorem State.memMode_outer (s : State) (mode clk dly : Nat) : (State.memMode s mode clk dly).outer = s.outer :=
  by simp [State.memMode]

/-! ## Logbook -/

@[simp] theorem State.logHourly_outer (s : State) : (State.logHourly s).outer = s.outer :=
  by unfold State.logHourly; split <;> simp

@[simp] theorem State.logNow_outer (s : State) : (State.logNow s).outer = s.outer := by unfold State.logNow; split <;> simp

@[simp] theorem State.noteTemps_outer (s : State) : (State.noteTemps s).outer = s.outer := by simp [State.noteTemps]

/-! ## CanMap -/

@[simp] theorem State.setRam_outer (s : State) (i : Nat) (w : Nat) : (State.setRam s i w).outer = s.outer :=
  by simp [State.setRam]

/-! ## Boot -/

@[simp] theorem State.takeWords_outer (t s : State) (keys : List Nat) : (State.takeWords t s keys).outer = t.outer :=
  by simp [State.takeWords]

@[simp] theorem State.gatesNow_outer (s : State) : (State.gatesNow s).outer = s.outer := by simp [State.gatesNow]

@[simp] theorem State.setReason_outer (s : State) (k : Fin 2) (r : Reason) : (State.setReason s k r).outer = s.outer :=
  by simp [State.setReason]

@[simp] theorem State.setAlt_outer (s : State) (k : Fin 2) : (State.setAlt s k).outer = s.outer := by simp [State.setAlt]

@[simp] theorem State.clusterReady_outer (s : State) (c : Cl) : (State.clusterReady s c).outer = s.outer :=
  by unfold State.clusterReady; split <;> simp

@[simp] theorem State.autoFirst_outer (s : State) (c : Cl) : (State.autoFirst s c).outer = s.outer :=
  by unfold State.autoFirst; split <;> simp

@[simp] theorem State.autoAgain_outer (s : State) (c : Cl) : (State.autoAgain s c).outer = s.outer :=
  by unfold State.autoAgain; split <;> simp

@[simp] theorem State.autoHold_outer (s : State) (hold : Bool) : (State.autoHold s hold).outer = s.outer := by
  unfold State.autoHold
  repeat' (first
    | with_reducible rfl
    | with_reducible refine (State.outer_each _ _ _ (fun _ _ => ?_)).trans ?_
    | with_reducible refine (State.outer_onlyIf _ _ _ (fun _ => ?_)).trans ?_
    | with_reducible refine State.outer_ite ?_ ?_
    | split | simp only [State.outer_mk] | dsimp only | simp)

@[simp] theorem State.coldEnd_outer (s : State) (c : Cl) : (State.coldEnd s c).outer = s.outer := by
  unfold State.coldEnd
  repeat' (first
    | with_reducible rfl
    | with_reducible refine (State.outer_each _ _ _ (fun _ _ => ?_)).trans ?_
    | with_reducible refine (State.outer_onlyIf _ _ _ (fun _ => ?_)).trans ?_
    | with_reducible refine State.outer_ite ?_ ?_
    | split | simp only [State.outer_mk] | dsimp only | simp)

/-! ## Security -/

@[simp] theorem State.secResult_outer (s : State) (r : Nat) : (State.secResult s r).outer = s.outer := by simp [State.secResult]

@[simp] theorem State.keyBufClear_outer (s : State) : (State.keyBufClear s).outer = s.outer := by simp [State.keyBufClear]

/-! ## Power -/

@[simp] theorem State.gatePhaseEnd_outer (s : State) (o : Fin 40) : (State.gatePhaseEnd s o).outer = s.outer := by
  unfold State.gatePhaseEnd
  repeat' (first
    | with_reducible rfl
    | with_reducible refine (State.outer_each _ _ _ (fun _ _ => ?_)).trans ?_
    | with_reducible refine (State.outer_onlyIf _ _ _ (fun _ => ?_)).trans ?_
    | with_reducible refine State.outer_ite ?_ ?_
    | split | simp only [State.outer_mk] | dsimp only | simp)

@[simp] theorem State.softOffEnd_outer (s : State) (o : Fin 40) : (State.softOffEnd s o).outer = s.outer :=
  by unfold State.softOffEnd; split <;> simp

@[simp] theorem State.outTrip_outer (s : State) (o : Fin 40) (hard : Bool) (after : Nat) : (State.outTrip s o hard
    after).outer = s.outer := by
  unfold State.outTrip
  repeat' (first
    | with_reducible rfl
    | with_reducible refine (State.outer_each _ _ _ (fun _ _ => ?_)).trans ?_
    | with_reducible refine (State.outer_onlyIf _ _ _ (fun _ => ?_)).trans ?_
    | with_reducible refine State.outer_ite ?_ ?_
    | split | simp only [State.outer_mk] | dsimp only | simp)

@[simp] theorem State.desatTrip_outer (s : State) (o : Fin 40) : (State.desatTrip s o).outer = s.outer :=
  by simp [State.desatTrip]

@[simp] theorem State.hardTrip_outer (s : State) (o : Fin 40) : (State.hardTrip s o).outer = s.outer := by simp [State.hardTrip]

@[simp] theorem State.gateLate_outer (s : State) (o : Fin 40) : (State.gateLate s o).outer = s.outer := by
  unfold State.gateLate
  repeat' (first
    | with_reducible rfl
    | with_reducible refine (State.outer_each _ _ _ (fun _ _ => ?_)).trans ?_
    | with_reducible refine (State.outer_onlyIf _ _ _ (fun _ => ?_)).trans ?_
    | with_reducible refine State.outer_ite ?_ ?_
    | split | simp only [State.outer_mk] | dsimp only | simp)

@[simp] theorem State.prechargeEnd_outer (s : State) (n : Mcn) : (State.prechargeEnd s n).outer = s.outer :=
  by unfold State.prechargeEnd; split <;> simp

@[simp] theorem State.knownClear_outer (s : State) (n : Mcn) : (State.knownClear s n).outer = s.outer := by
  unfold State.knownClear
  repeat' (first
    | with_reducible rfl
    | with_reducible refine (State.outer_each _ _ _ (fun _ _ => ?_)).trans ?_
    | with_reducible refine (State.outer_onlyIf _ _ _ (fun _ => ?_)).trans ?_
    | with_reducible refine State.outer_ite ?_ ?_
    | split | simp only [State.outer_mk] | dsimp only | simp)

@[simp] theorem State.holdPumpOut_outer (s : State) (n : Mcn) : (State.holdPumpOut s n).outer = s.outer :=
  by unfold State.holdPumpOut; split <;> simp

@[simp] theorem State.chopMinEnd_outer (s : State) (r : Rg) : (State.chopMinEnd s r).outer = s.outer :=
  by unfold State.chopMinEnd; repeat' split <;> simp

@[simp] theorem State.ov2End_outer (s : State) (r : Rg) : (State.ov2End s r).outer = s.outer := by
  unfold State.ov2End
  repeat' (first
    | with_reducible rfl
    | with_reducible refine (State.outer_each _ _ _ (fun _ _ => ?_)).trans ?_
    | with_reducible refine (State.outer_onlyIf _ _ _ (fun _ => ?_)).trans ?_
    | with_reducible refine State.outer_ite ?_ ?_
    | split | simp only [State.outer_mk] | dsimp only | simp)

@[simp] theorem State.ov3Clear_outer (s : State) (r : Rg) : (State.ov3Clear s r).outer = s.outer := by
  unfold State.ov3Clear
  repeat' (first
    | with_reducible rfl
    | with_reducible refine (State.outer_each _ _ _ (fun _ _ => ?_)).trans ?_
    | with_reducible refine (State.outer_onlyIf _ _ _ (fun _ => ?_)).trans ?_
    | with_reducible refine State.outer_ite ?_ ?_
    | split | simp only [State.outer_mk] | dsimp only | simp)

@[simp] theorem State.chopClear_outer (s : State) (r : Rg) : (State.chopClear s r).outer = s.outer := by
  unfold State.chopClear
  repeat' (first
    | with_reducible rfl
    | with_reducible refine (State.outer_each _ _ _ (fun _ _ => ?_)).trans ?_
    | with_reducible refine (State.outer_onlyIf _ _ _ (fun _ => ?_)).trans ?_
    | with_reducible refine State.outer_ite ?_ ?_
    | split | simp only [State.outer_mk] | dsimp only | simp)

@[simp] theorem State.chopCheck_outer (s : State) (r : Rg) (before after : Nat) : (State.chopCheck s r before after).outer =
    s.outer :=
  by unfold State.chopCheck; repeat' split <;> simp

@[simp] theorem State.rbsRise_outer (s : State) (r : Rg) : (State.rbsRise s r).outer = s.outer := by
  unfold State.rbsRise
  repeat' (first
    | with_reducible rfl
    | with_reducible refine (State.outer_each _ _ _ (fun _ _ => ?_)).trans ?_
    | with_reducible refine (State.outer_onlyIf _ _ _ (fun _ => ?_)).trans ?_
    | with_reducible refine State.outer_ite ?_ ?_
    | split | simp only [State.outer_mk] | dsimp only | simp)

@[simp] theorem State.rbsFall_outer (s : State) (r : Rg) : (State.rbsFall s r).outer = s.outer := by simp [State.rbsFall]

@[simp] theorem State.rbsReverse_outer (s : State) (r : Rg) : (State.rbsReverse s r).outer = s.outer :=
  by simp [State.rbsReverse]

@[simp] theorem State.rbsRecover_outer (s : State) (r : Rg) : (State.rbsRecover s r).outer = s.outer :=
  by unfold State.rbsRecover; split <;> simp

/-! ## CanErr -/

@[simp] theorem State.cset_outer (s : State) (n : Can) (f : Fld) (v : Nat) : (State.cset s n f v).outer = s.outer :=
  by simp [State.cset]

@[simp] theorem State.cinc_outer (s : State) (n : Can) (f : Fld) : (State.cinc s n f).outer = s.outer := by simp [State.cinc]

@[simp] theorem State.canState_outer (s : State) (n : Can) : (State.canState s n).outer = s.outer :=
  by unfold State.canState; split <;> simp

@[simp] theorem State.noteErr_outer (s : State) (n : Can) (e : BusErr) (dataPhase : Bool) : (State.noteErr s n e
    dataPhase).outer = s.outer :=
  by simp [State.noteErr]

@[simp] theorem State.rxError_outer (s : State) (n : Can) (e : BusErr) (dataPhase flagDom : Bool) : (State.rxError s n e
    dataPhase flagDom).outer = s.outer :=
  by simp [State.rxError]

@[simp] theorem State.rxGood_outer (s : State) (n : Can) : (State.rxGood s n).outer = s.outer := by
  unfold State.rxGood
  repeat' (first
    | with_reducible rfl
    | with_reducible refine (State.outer_each _ _ _ (fun _ _ => ?_)).trans ?_
    | with_reducible refine (State.outer_onlyIf _ _ _ (fun _ => ?_)).trans ?_
    | with_reducible refine State.outer_ite ?_ ?_
    | split | simp only [State.outer_mk] | dsimp only | simp)

@[simp] theorem State.canRecoverCmd_outer (s : State) (n : Can) : (State.canRecoverCmd s n).outer = s.outer :=
  by unfold State.canRecoverCmd; split <;> simp

@[simp] theorem State.canRecovered_outer (s : State) (n : Can) : (State.canRecovered s n).outer = s.outer :=
  by unfold State.canRecovered; split <;> simp

@[simp] theorem State.canRxError_outer (s : State) (n : Can) (e : BusErr) (dataPhase flagDom : Bool) : (State.canRxError s n e
    dataPhase flagDom).outer = s.outer :=
  by unfold State.canRxError; split <;> simp

/-! ## CanRx -/

@[simp] theorem State.putElem_outer (s : State) (a size : Nat) (f : Frame) (idx stamp : Nat) : (State.putElem s a size f idx
    stamp).outer = s.outer :=
  by simp [State.putElem]

@[simp] theorem State.rxLoss_outer (s : State) (n : Can) (b : Nat) : (State.rxLoss s n b).outer = s.outer :=
  by simp [State.rxLoss]

@[simp] theorem State.rxStore_outer (s : State) (n : Can) (b : Nat) (f : Frame) (idx stamp : Nat) : (State.rxStore s n b f idx
    stamp).outer = s.outer :=
  by unfold State.rxStore; split <;> simp

@[simp] theorem State.rxFifo_outer (s : State) (n : Can) (k : Fin 2) (f : Frame) (idx stamp : Nat) : (State.rxFifo s n k f idx
    stamp).outer = s.outer := by
  unfold State.rxFifo
  repeat' (first
    | with_reducible rfl
    | with_reducible refine (State.outer_each _ _ _ (fun _ _ => ?_)).trans ?_
    | with_reducible refine (State.outer_onlyIf _ _ _ (fun _ => ?_)).trans ?_
    | with_reducible refine State.outer_ite ?_ ?_
    | split | simp only [State.outer_mk] | dsimp only | simp)

@[simp] theorem State.fifoGet_outer (s : State) (n : Can) (k : Fin 2) (v : Nat) : (State.fifoGet s n k v).outer = s.outer := by
  unfold State.fifoGet
  repeat' (first
    | with_reducible rfl
    | with_reducible refine (State.outer_each _ _ _ (fun _ _ => ?_)).trans ?_
    | with_reducible refine (State.outer_onlyIf _ _ _ (fun _ => ?_)).trans ?_
    | with_reducible refine State.outer_ite ?_ ?_
    | split | simp only [State.outer_mk] | dsimp only | simp)

/-! ## CanRoute -/

@[simp] theorem State.stageRoute_outer (s : State) (n : Can) (a : Axis) (tgt : Option Int) (vel : Int) : (State.stageRoute s n
    a tgt vel).outer = s.outer :=
  by unfold State.stageRoute; split <;> simp

@[simp] theorem State.convWrite_outer (s : State) (m : Mcn) (f : Fld) (v : Nat) : (State.convWrite s m f v).outer = s.outer := by
  unfold State.convWrite
  repeat' (first
    | with_reducible rfl
    | with_reducible refine (State.outer_each _ _ _ (fun _ _ => ?_)).trans ?_
    | with_reducible refine (State.outer_onlyIf _ _ _ (fun _ => ?_)).trans ?_
    | with_reducible refine State.outer_ite ?_ ?_
    | split | simp only [State.outer_mk] | dsimp only | simp)

@[simp] theorem State.clusterCmd_outer (s : State) (c : Cl) (k : Nat) : (State.clusterCmd s c k).outer = s.outer :=
  by unfold State.clusterCmd; split <;> simp

@[simp] theorem State.setRouteW4_outer (s : State) (n : Can) (i : Nat) (w : Nat) : (State.setRouteW4 s n i w).outer = s.outer :=
  by simp [State.setRouteW4]

@[simp] theorem State.routeRefused_outer (s : State) (n : Can) (i : Nat) (st : Status) : (State.routeRefused s n i st).outer =
    s.outer :=
  by simp [State.routeRefused]

@[simp] theorem State.timeoutAct_outer (s : State) (w0 : Nat) : (State.timeoutAct s w0).outer = s.outer := by
  unfold State.timeoutAct
  repeat' (first
    | with_reducible rfl
    | with_reducible refine (State.outer_each _ _ _ (fun _ _ => ?_)).trans ?_
    | with_reducible refine (State.outer_onlyIf _ _ _ (fun _ => ?_)).trans ?_
    | with_reducible refine State.outer_ite ?_ ?_
    | split | simp only [State.outer_mk] | dsimp only | simp)

@[simp] theorem State.routeTimeout_outer (s : State) (n : Can) (i : Fin 32) : (State.routeTimeout s n i).outer = s.outer := by
  unfold State.routeTimeout
  repeat' (first
    | with_reducible rfl
    | with_reducible refine (State.outer_each _ _ _ (fun _ _ => ?_)).trans ?_
    | with_reducible refine (State.outer_onlyIf _ _ _ (fun _ => ?_)).trans ?_
    | with_reducible refine State.outer_ite ?_ ?_
    | split | simp only [State.outer_mk] | dsimp only | simp)

/-! ## CanTx -/

@[simp] theorem State.putTxBytes_outer (s : State) (n : Can) (b : Nat) (bs : List Nat) : (State.putTxBytes s n b bs).outer =
    s.outer :=
  by simp [State.putTxBytes]

@[simp] theorem State.refLost_outer (s : State) (n : Can) : (State.refLost s n).outer = s.outer :=
  by unfold State.refLost; split <;> simp

/-! ## Bus -/

@[simp] theorem State.latClear_outer (s : State) (n : Mcn) : (State.latClear s n).outer = s.outer := by simp [State.latClear]

@[simp] theorem State.pwmClear_outer (s : State) (n : Mcn) : (State.pwmClear s n).outer = s.outer := by simp [State.pwmClear]

@[simp] theorem State.senClear_outer (s : State) (g : Grp) : (State.senClear s g).outer = s.outer := by simp [State.senClear]

@[simp] theorem State.swTrigger_outer (s : State) (g : Grp) (inj : Bool) : (State.swTrigger s g inj).outer = s.outer :=
  by unfold State.swTrigger; repeat' split <;> simp

@[simp] theorem State.senCmd_outer (s : State) (g : Grp) (w : Word) : (State.senCmd s g w).outer = s.outer :=
  by simp [State.senCmd]

@[simp] theorem State.setHold_outer (s : State) (p : Port) (h : Option (Nat × Word)) : (State.setHold s p h).outer = s.outer :=
  by simp [State.setHold]

theorem State.each_can {α : Type} (l : List α) (g : α → State → State)
    (h : ∀ a t, ∃ c, g a t = { t with can := c }) (s : State) : ∃ c, s.each l g = { s with can := c } := by
  unfold State.each
  induction l generalizing s with
  | nil => exact ⟨s.can, rfl⟩
  | cons a l ih =>
    obtain ⟨c, e⟩ := h a s
    obtain ⟨d, e'⟩ := ih (g a s)
    exact ⟨d, by rw [List.foldl_cons, e', e]⟩

/-- A write of message RAM changes words, its status and the CAN controllers. -/
theorem State.ramWrite_rest (s : State) (i : Nat) (w : Word) :
    ∃ st ws c, State.ramWrite s i w = { s with store := ws, status := st, can := c } := by
  unfold State.ramWrite
  split
  · exact ⟨.badState, s.store, s.can, rfl⟩
  · obtain ⟨c, e⟩ := State.each_can allCan (fun n s => s.each (List.finRange 32) fun b s =>
      if s.txAt n b.val + 1 = i then s.modTx n b fun t => { t with perAt := s.now } else s)
      (fun n t => State.each_can _ _ (fun b t => by
        split
        · exact ⟨_, rfl⟩
        · exact ⟨t.can, rfl⟩) t) s
    simp only [e]
    exact ⟨_, _, c, rfl⟩

@[simp] theorem State.clCmd_outer (s : State) (c : Cl) (w : Word) : (State.clCmd s c w).outer = s.outer := by
  unfold State.clCmd
  repeat' (first
    | with_reducible rfl
    | with_reducible refine (State.outer_each _ _ _ (fun _ _ => ?_)).trans ?_
    | with_reducible refine (State.outer_onlyIf _ _ _ (fun _ => ?_)).trans ?_
    | with_reducible refine State.outer_ite ?_ ?_
    | split | simp only [State.outer_mk] | dsimp only | simp)

@[simp] theorem State.moCmd_outer (s : State) (p : Port) (a : Axis) (w : Word) : (State.moCmd s p a w).outer = s.outer :=
  by unfold State.moCmd; split <;> simp

@[simp] theorem State.traceCmd_outer (s : State) (u : Fin 4) (w : Word) : (State.traceCmd s u w).outer = s.outer :=
  by simp [State.traceCmd]

@[simp] theorem State.plainWrite_outer (s : State) (b : Blk) (o : Nat) (d : RDesc) (a key : Nat) (w : Word) :
    (State.plainWrite s b o d a key w).outer = s.outer :=
  by unfold State.plainWrite; split <;> simp

@[simp] theorem State.countRange_outer (s : State) : (State.countRange s).outer = s.outer :=
  by unfold State.countRange; split <;> simp

/-! ## SensPort -/

@[simp] theorem State.spJudge_outer (s : State) (p : Fin 2) (w : Nat) : (State.spJudge s p w).1.outer = s.outer :=
  by simp [State.spJudge]

/-! ## HostPort -/

@[simp] theorem State.fresh0_outer (s : State) : (State.fresh0 s).outer = s.outer := by simp [State.fresh0]

@[simp] theorem State.badPkt_outer (s : State) : (State.badPkt s).outer = s.outer := by simp [State.badPkt]

@[simp] theorem State.opDma_outer (s : State) (g : Grp) (n : Nat) : (State.opDma s g n).1.outer = s.outer :=
  by simp [State.opDma]

@[simp] theorem State.opHoldClr_outer (s : State) : (State.opHoldClr s).1.outer = s.outer :=
  by unfold State.opHoldClr; split <;> simp

@[simp] theorem State.chainSetpoint_outer (s : State) (arg : Nat) : (State.chainSetpoint s arg).outer = s.outer := by
  unfold State.chainSetpoint
  repeat' (first
    | with_reducible rfl
    | with_reducible refine (State.outer_each _ _ _ (fun _ _ => ?_)).trans ?_
    | with_reducible refine (State.outer_onlyIf _ _ _ (fun _ => ?_)).trans ?_
    | with_reducible refine State.outer_ite ?_ ?_
    | split | simp only [State.outer_mk] | dsimp only | simp)

end Sys2Proof.Machine
end

