-- ==== Sys2Proof/Laws/State.lean ====
section
/-! SUPPORT. One lemma for each field of the state under each record operation: a field that the operation does not name is
as before, the one that it names is as written. -/

namespace Sys2Proof.Machine

/-! ## Vectors -/

@[simp] theorem upd_self {α : Type} {n : Nat} (v : Vector α n) (i : Fin n) (x : α) : (upd v i x)[i] = x := by
  simp [upd]

theorem upd_ne {α : Type} {n : Nat} (v : Vector α n) {i j : Fin n} (x : α) (h : j ≠ i) : (upd v i x)[j] = v[j] := by
  have : i.val ≠ j.val := fun e => h (Fin.ext e.symm)
  simp [upd, this]

theorem upd_get {α : Type} {n : Nat} (v : Vector α n) (i j : Fin n) (x : α) :
    (upd v i x)[j] = if j = i then x else v[j] := by
  split
  · subst_vars; exact upd_self v _ x
  · exact upd_ne v x (by assumption)

/-! ## setWord -/

@[simp] theorem State.setWord_now (s : State) (k : Nat) (w : Word) : (s.setWord k w).now = s.now := rfl
@[simp] theorem State.setWord_flash (s : State) (k : Nat) (w : Word) : (s.setWord k w).flash = s.flash := rfl
@[simp] theorem State.setWord_pending (s : State) (k : Nat) (w : Word) : (s.setWord k w).pending = s.pending := rfl
@[simp] theorem State.setWord_status (s : State) (k : Nat) (w : Word) : (s.setWord k w).status = s.status := rfl
@[simp] theorem State.setWord_tear (s : State) (k : Nat) (w : Word) : (s.setWord k w).tear = s.tear := rfl
@[simp] theorem State.setWord_range (s : State) (k : Nat) (w : Word) : (s.setWord k w).range = s.range := rfl
@[simp] theorem State.setWord_raised (s : State) (k : Nat) (w : Word) : (s.setWord k w).raised = s.raised := rfl
@[simp] theorem State.setWord_guyFault (s : State) (k : Nat) (w : Word) : (s.setWord k w).guyFault = s.guyFault := rfl
@[simp] theorem State.setWord_rails (s : State) (k : Nat) (w : Word) : (s.setWord k w).rails = s.rails := rfl
@[simp] theorem State.setWord_fresh (s : State) (k : Nat) (w : Word) : (s.setWord k w).fresh = s.fresh := rfl
@[simp] theorem State.setWord_dev (s : State) (k : Nat) (w : Word) : (s.setWord k w).dev = s.dev := rfl
@[simp] theorem State.setWord_cl (s : State) (k : Nat) (w : Word) : (s.setWord k w).cl = s.cl := rfl
@[simp] theorem State.setWord_bases (s : State) (k : Nat) (w : Word) : (s.setWord k w).bases = s.bases := rfl
@[simp] theorem State.setWord_link (s : State) (k : Nat) (w : Word) : (s.setWord k w).link = s.link := rfl
@[simp] theorem State.setWord_mc (s : State) (k : Nat) (w : Word) : (s.setWord k w).mc = s.mc := rfl
@[simp] theorem State.setWord_sync (s : State) (k : Nat) (w : Word) : (s.setWord k w).sync = s.sync := rfl
@[simp] theorem State.setWord_grp (s : State) (k : Nat) (w : Word) : (s.setWord k w).grp = s.grp := rfl
@[simp] theorem State.setWord_gates (s : State) (k : Nat) (w : Word) : (s.setWord k w).gates = s.gates := rfl
@[simp] theorem State.setWord_axM (s : State) (k : Nat) (w : Word) : (s.setWord k w).axM = s.axM := rfl
@[simp] theorem State.setWord_axS (s : State) (k : Nat) (w : Word) : (s.setWord k w).axS = s.axS := rfl
@[simp] theorem State.setWord_stp (s : State) (k : Nat) (w : Word) : (s.setWord k w).stp = s.stp := rfl
@[simp] theorem State.setWord_brake (s : State) (k : Nat) (w : Word) : (s.setWord k w).brake = s.brake := rfl
@[simp] theorem State.setWord_die (s : State) (k : Nat) (w : Word) : (s.setWord k w).die = s.die := rfl
@[simp] theorem State.setWord_ntc (s : State) (k : Nat) (w : Word) : (s.setWord k w).ntc = s.ntc := rfl
@[simp] theorem State.setWord_rg (s : State) (k : Nat) (w : Word) : (s.setWord k w).rg = s.rg := rfl
@[simp] theorem State.setWord_lanes (s : State) (k : Nat) (w : Word) : (s.setWord k w).lanes = s.lanes := rfl
@[simp] theorem State.setWord_ready (s : State) (k : Nat) (w : Word) : (s.setWord k w).ready = s.ready := rfl
@[simp] theorem State.setWord_runs (s : State) (k : Nat) (w : Word) : (s.setWord k w).runs = s.runs := rfl
@[simp] theorem State.setWord_poolCyc (s : State) (k : Nat) (w : Word) : (s.setWord k w).poolCyc = s.poolCyc := rfl
@[simp] theorem State.setWord_trace (s : State) (k : Nat) (w : Word) : (s.setWord k w).trace = s.trace := rfl
@[simp] theorem State.setWord_atlChk (s : State) (k : Nat) (w : Word) : (s.setWord k w).atlChk = s.atlChk := rfl
@[simp] theorem State.setWord_rowFlags (s : State) (k : Nat) (w : Word) : (s.setWord k w).rowFlags = s.rowFlags := rfl
@[simp] theorem State.setWord_rowMap (s : State) (k : Nat) (w : Word) : (s.setWord k w).rowMap = s.rowMap := rfl
@[simp] theorem State.setWord_rowDead (s : State) (k : Nat) (w : Word) : (s.setWord k w).rowDead = s.rowDead := rfl
@[simp] theorem State.setWord_imgSheets (s : State) (k : Nat) (w : Word) : (s.setWord k w).imgSheets = s.imgSheets := rfl
@[simp] theorem State.setWord_auto (s : State) (k : Nat) (w : Word) : (s.setWord k w).auto = s.auto := rfl
@[simp] theorem State.setWord_boot (s : State) (k : Nat) (w : Word) : (s.setWord k w).boot = s.boot := rfl
@[simp] theorem State.setWord_sec (s : State) (k : Nat) (w : Word) : (s.setWord k w).sec = s.sec := rfl
@[simp] theorem State.setWord_log (s : State) (k : Nat) (w : Word) : (s.setWord k w).log = s.log := rfl
@[simp] theorem State.setWord_hp (s : State) (k : Nat) (w : Word) : (s.setWord k w).hp = s.hp := rfl
@[simp] theorem State.setWord_ports (s : State) (k : Nat) (w : Word) : (s.setWord k w).ports = s.ports := rfl
@[simp] theorem State.setWord_mp (s : State) (k : Nat) (w : Word) : (s.setWord k w).mp = s.mp := rfl
@[simp] theorem State.setWord_sp (s : State) (k : Nat) (w : Word) : (s.setWord k w).sp = s.sp := rfl
@[simp] theorem State.setWord_can (s : State) (k : Nat) (w : Word) : (s.setWord k w).can = s.can := rfl
@[simp] theorem State.setWord_data (s : State) (k : Nat) (w : Word) : (s.setWord k w).data = s.data := rfl
@[simp] theorem State.setWord_authed (s : State) (k : Nat) (w : Word) : (s.setWord k w).authed = s.authed := rfl
@[simp] theorem State.setWord_health (s : State) (k : Nat) (w : Word) : (s.setWord k w).health = s.health := rfl

/-! ## setF -/

@[simp] theorem State.setF_now (s : State) (b : Nat) (f : Fld) (v : Nat) : (s.setF b f v).now = s.now := rfl
@[simp] theorem State.setF_flash (s : State) (b : Nat) (f : Fld) (v : Nat) : (s.setF b f v).flash = s.flash := rfl
@[simp] theorem State.setF_pending (s : State) (b : Nat) (f : Fld) (v : Nat) : (s.setF b f v).pending = s.pending := rfl
@[simp] theorem State.setF_status (s : State) (b : Nat) (f : Fld) (v : Nat) : (s.setF b f v).status = s.status := rfl
@[simp] theorem State.setF_tear (s : State) (b : Nat) (f : Fld) (v : Nat) : (s.setF b f v).tear = s.tear := rfl
@[simp] theorem State.setF_range (s : State) (b : Nat) (f : Fld) (v : Nat) : (s.setF b f v).range = s.range := rfl
@[simp] theorem State.setF_raised (s : State) (b : Nat) (f : Fld) (v : Nat) : (s.setF b f v).raised = s.raised := rfl
@[simp] theorem State.setF_guyFault (s : State) (b : Nat) (f : Fld) (v : Nat) : (s.setF b f v).guyFault = s.guyFault := rfl
@[simp] theorem State.setF_rails (s : State) (b : Nat) (f : Fld) (v : Nat) : (s.setF b f v).rails = s.rails := rfl
@[simp] theorem State.setF_fresh (s : State) (b : Nat) (f : Fld) (v : Nat) : (s.setF b f v).fresh = s.fresh := rfl
@[simp] theorem State.setF_dev (s : State) (b : Nat) (f : Fld) (v : Nat) : (s.setF b f v).dev = s.dev := rfl
@[simp] theorem State.setF_cl (s : State) (b : Nat) (f : Fld) (v : Nat) : (s.setF b f v).cl = s.cl := rfl
@[simp] theorem State.setF_bases (s : State) (b : Nat) (f : Fld) (v : Nat) : (s.setF b f v).bases = s.bases := rfl
@[simp] theorem State.setF_link (s : State) (b : Nat) (f : Fld) (v : Nat) : (s.setF b f v).link = s.link := rfl
@[simp] theorem State.setF_mc (s : State) (b : Nat) (f : Fld) (v : Nat) : (s.setF b f v).mc = s.mc := rfl
@[simp] theorem State.setF_sync (s : State) (b : Nat) (f : Fld) (v : Nat) : (s.setF b f v).sync = s.sync := rfl
@[simp] theorem State.setF_grp (s : State) (b : Nat) (f : Fld) (v : Nat) : (s.setF b f v).grp = s.grp := rfl
@[simp] theorem State.setF_gates (s : State) (b : Nat) (f : Fld) (v : Nat) : (s.setF b f v).gates = s.gates := rfl
@[simp] theorem State.setF_axM (s : State) (b : Nat) (f : Fld) (v : Nat) : (s.setF b f v).axM = s.axM := rfl
@[simp] theorem State.setF_axS (s : State) (b : Nat) (f : Fld) (v : Nat) : (s.setF b f v).axS = s.axS := rfl
@[simp] theorem State.setF_stp (s : State) (b : Nat) (f : Fld) (v : Nat) : (s.setF b f v).stp = s.stp := rfl
@[simp] theorem State.setF_brake (s : State) (b : Nat) (f : Fld) (v : Nat) : (s.setF b f v).brake = s.brake := rfl
@[simp] theorem State.setF_die (s : State) (b : Nat) (f : Fld) (v : Nat) : (s.setF b f v).die = s.die := rfl
@[simp] theorem State.setF_ntc (s : State) (b : Nat) (f : Fld) (v : Nat) : (s.setF b f v).ntc = s.ntc := rfl
@[simp] theorem State.setF_rg (s : State) (b : Nat) (f : Fld) (v : Nat) : (s.setF b f v).rg = s.rg := rfl
@[simp] theorem State.setF_lanes (s : State) (b : Nat) (f : Fld) (v : Nat) : (s.setF b f v).lanes = s.lanes := rfl
@[simp] theorem State.setF_ready (s : State) (b : Nat) (f : Fld) (v : Nat) : (s.setF b f v).ready = s.ready := rfl
@[simp] theorem State.setF_runs (s : State) (b : Nat) (f : Fld) (v : Nat) : (s.setF b f v).runs = s.runs := rfl
@[simp] theorem State.setF_poolCyc (s : State) (b : Nat) (f : Fld) (v : Nat) : (s.setF b f v).poolCyc = s.poolCyc := rfl
@[simp] theorem State.setF_trace (s : State) (b : Nat) (f : Fld) (v : Nat) : (s.setF b f v).trace = s.trace := rfl
@[simp] theorem State.setF_atlChk (s : State) (b : Nat) (f : Fld) (v : Nat) : (s.setF b f v).atlChk = s.atlChk := rfl
@[simp] theorem State.setF_rowFlags (s : State) (b : Nat) (f : Fld) (v : Nat) : (s.setF b f v).rowFlags = s.rowFlags := rfl
@[simp] theorem State.setF_rowMap (s : State) (b : Nat) (f : Fld) (v : Nat) : (s.setF b f v).rowMap = s.rowMap := rfl
@[simp] theorem State.setF_rowDead (s : State) (b : Nat) (f : Fld) (v : Nat) : (s.setF b f v).rowDead = s.rowDead := rfl
@[simp] theorem State.setF_imgSheets (s : State) (b : Nat) (f : Fld) (v : Nat) : (s.setF b f v).imgSheets = s.imgSheets := rfl
@[simp] theorem State.setF_auto (s : State) (b : Nat) (f : Fld) (v : Nat) : (s.setF b f v).auto = s.auto := rfl
@[simp] theorem State.setF_boot (s : State) (b : Nat) (f : Fld) (v : Nat) : (s.setF b f v).boot = s.boot := rfl
@[simp] theorem State.setF_sec (s : State) (b : Nat) (f : Fld) (v : Nat) : (s.setF b f v).sec = s.sec := rfl
@[simp] theorem State.setF_log (s : State) (b : Nat) (f : Fld) (v : Nat) : (s.setF b f v).log = s.log := rfl
@[simp] theorem State.setF_hp (s : State) (b : Nat) (f : Fld) (v : Nat) : (s.setF b f v).hp = s.hp := rfl
@[simp] theorem State.setF_ports (s : State) (b : Nat) (f : Fld) (v : Nat) : (s.setF b f v).ports = s.ports := rfl
@[simp] theorem State.setF_mp (s : State) (b : Nat) (f : Fld) (v : Nat) : (s.setF b f v).mp = s.mp := rfl
@[simp] theorem State.setF_sp (s : State) (b : Nat) (f : Fld) (v : Nat) : (s.setF b f v).sp = s.sp := rfl
@[simp] theorem State.setF_can (s : State) (b : Nat) (f : Fld) (v : Nat) : (s.setF b f v).can = s.can := rfl
@[simp] theorem State.setF_data (s : State) (b : Nat) (f : Fld) (v : Nat) : (s.setF b f v).data = s.data := rfl
@[simp] theorem State.setF_authed (s : State) (b : Nat) (f : Fld) (v : Nat) : (s.setF b f v).authed = s.authed := rfl
@[simp] theorem State.setF_health (s : State) (b : Nat) (f : Fld) (v : Nat) : (s.setF b f v).health = s.health := rfl

/-! ## inc -/

@[simp] theorem State.inc_now (s : State) (b : Nat) (f : Fld) (k : Nat) : (s.inc b f k).now = s.now := rfl
@[simp] theorem State.inc_flash (s : State) (b : Nat) (f : Fld) (k : Nat) : (s.inc b f k).flash = s.flash := rfl
@[simp] theorem State.inc_pending (s : State) (b : Nat) (f : Fld) (k : Nat) : (s.inc b f k).pending = s.pending := rfl
@[simp] theorem State.inc_status (s : State) (b : Nat) (f : Fld) (k : Nat) : (s.inc b f k).status = s.status := rfl
@[simp] theorem State.inc_tear (s : State) (b : Nat) (f : Fld) (k : Nat) : (s.inc b f k).tear = s.tear := rfl
@[simp] theorem State.inc_range (s : State) (b : Nat) (f : Fld) (k : Nat) : (s.inc b f k).range = s.range := rfl
@[simp] theorem State.inc_raised (s : State) (b : Nat) (f : Fld) (k : Nat) : (s.inc b f k).raised = s.raised := rfl
@[simp] theorem State.inc_guyFault (s : State) (b : Nat) (f : Fld) (k : Nat) : (s.inc b f k).guyFault = s.guyFault := rfl
@[simp] theorem State.inc_rails (s : State) (b : Nat) (f : Fld) (k : Nat) : (s.inc b f k).rails = s.rails := rfl
@[simp] theorem State.inc_fresh (s : State) (b : Nat) (f : Fld) (k : Nat) : (s.inc b f k).fresh = s.fresh := rfl
@[simp] theorem State.inc_dev (s : State) (b : Nat) (f : Fld) (k : Nat) : (s.inc b f k).dev = s.dev := rfl
@[simp] theorem State.inc_cl (s : State) (b : Nat) (f : Fld) (k : Nat) : (s.inc b f k).cl = s.cl := rfl
@[simp] theorem State.inc_bases (s : State) (b : Nat) (f : Fld) (k : Nat) : (s.inc b f k).bases = s.bases := rfl
@[simp] theorem State.inc_link (s : State) (b : Nat) (f : Fld) (k : Nat) : (s.inc b f k).link = s.link := rfl
@[simp] theorem State.inc_mc (s : State) (b : Nat) (f : Fld) (k : Nat) : (s.inc b f k).mc = s.mc := rfl
@[simp] theorem State.inc_sync (s : State) (b : Nat) (f : Fld) (k : Nat) : (s.inc b f k).sync = s.sync := rfl
@[simp] theorem State.inc_grp (s : State) (b : Nat) (f : Fld) (k : Nat) : (s.inc b f k).grp = s.grp := rfl
@[simp] theorem State.inc_gates (s : State) (b : Nat) (f : Fld) (k : Nat) : (s.inc b f k).gates = s.gates := rfl
@[simp] theorem State.inc_axM (s : State) (b : Nat) (f : Fld) (k : Nat) : (s.inc b f k).axM = s.axM := rfl
@[simp] theorem State.inc_axS (s : State) (b : Nat) (f : Fld) (k : Nat) : (s.inc b f k).axS = s.axS := rfl
@[simp] theorem State.inc_stp (s : State) (b : Nat) (f : Fld) (k : Nat) : (s.inc b f k).stp = s.stp := rfl
@[simp] theorem State.inc_brake (s : State) (b : Nat) (f : Fld) (k : Nat) : (s.inc b f k).brake = s.brake := rfl
@[simp] theorem State.inc_die (s : State) (b : Nat) (f : Fld) (k : Nat) : (s.inc b f k).die = s.die := rfl
@[simp] theorem State.inc_ntc (s : State) (b : Nat) (f : Fld) (k : Nat) : (s.inc b f k).ntc = s.ntc := rfl
@[simp] theorem State.inc_rg (s : State) (b : Nat) (f : Fld) (k : Nat) : (s.inc b f k).rg = s.rg := rfl
@[simp] theorem State.inc_lanes (s : State) (b : Nat) (f : Fld) (k : Nat) : (s.inc b f k).lanes = s.lanes := rfl
@[simp] theorem State.inc_ready (s : State) (b : Nat) (f : Fld) (k : Nat) : (s.inc b f k).ready = s.ready := rfl
@[simp] theorem State.inc_runs (s : State) (b : Nat) (f : Fld) (k : Nat) : (s.inc b f k).runs = s.runs := rfl
@[simp] theorem State.inc_poolCyc (s : State) (b : Nat) (f : Fld) (k : Nat) : (s.inc b f k).poolCyc = s.poolCyc := rfl
@[simp] theorem State.inc_trace (s : State) (b : Nat) (f : Fld) (k : Nat) : (s.inc b f k).trace = s.trace := rfl
@[simp] theorem State.inc_atlChk (s : State) (b : Nat) (f : Fld) (k : Nat) : (s.inc b f k).atlChk = s.atlChk := rfl
@[simp] theorem State.inc_rowFlags (s : State) (b : Nat) (f : Fld) (k : Nat) : (s.inc b f k).rowFlags = s.rowFlags := rfl
@[simp] theorem State.inc_rowMap (s : State) (b : Nat) (f : Fld) (k : Nat) : (s.inc b f k).rowMap = s.rowMap := rfl
@[simp] theorem State.inc_rowDead (s : State) (b : Nat) (f : Fld) (k : Nat) : (s.inc b f k).rowDead = s.rowDead := rfl
@[simp] theorem State.inc_imgSheets (s : State) (b : Nat) (f : Fld) (k : Nat) : (s.inc b f k).imgSheets = s.imgSheets := rfl
@[simp] theorem State.inc_auto (s : State) (b : Nat) (f : Fld) (k : Nat) : (s.inc b f k).auto = s.auto := rfl
@[simp] theorem State.inc_boot (s : State) (b : Nat) (f : Fld) (k : Nat) : (s.inc b f k).boot = s.boot := rfl
@[simp] theorem State.inc_sec (s : State) (b : Nat) (f : Fld) (k : Nat) : (s.inc b f k).sec = s.sec := rfl
@[simp] theorem State.inc_log (s : State) (b : Nat) (f : Fld) (k : Nat) : (s.inc b f k).log = s.log := rfl
@[simp] theorem State.inc_hp (s : State) (b : Nat) (f : Fld) (k : Nat) : (s.inc b f k).hp = s.hp := rfl
@[simp] theorem State.inc_ports (s : State) (b : Nat) (f : Fld) (k : Nat) : (s.inc b f k).ports = s.ports := rfl
@[simp] theorem State.inc_mp (s : State) (b : Nat) (f : Fld) (k : Nat) : (s.inc b f k).mp = s.mp := rfl
@[simp] theorem State.inc_sp (s : State) (b : Nat) (f : Fld) (k : Nat) : (s.inc b f k).sp = s.sp := rfl
@[simp] theorem State.inc_can (s : State) (b : Nat) (f : Fld) (k : Nat) : (s.inc b f k).can = s.can := rfl
@[simp] theorem State.inc_data (s : State) (b : Nat) (f : Fld) (k : Nat) : (s.inc b f k).data = s.data := rfl
@[simp] theorem State.inc_authed (s : State) (b : Nat) (f : Fld) (k : Nat) : (s.inc b f k).authed = s.authed := rfl
@[simp] theorem State.inc_health (s : State) (b : Nat) (f : Fld) (k : Nat) : (s.inc b f k).health = s.health := rfl

/-! ## answer -/

@[simp] theorem State.answer_now (s : State) (st : Status) : (s.answer st).now = s.now := rfl
@[simp] theorem State.answer_store (s : State) (st : Status) : (s.answer st).store = s.store := rfl
@[simp] theorem State.answer_flash (s : State) (st : Status) : (s.answer st).flash = s.flash := rfl
@[simp] theorem State.answer_pending (s : State) (st : Status) : (s.answer st).pending = s.pending := rfl
@[simp] theorem State.answer_status (s : State) (st : Status) : (s.answer st).status = st := rfl
@[simp] theorem State.answer_tear (s : State) (st : Status) : (s.answer st).tear = s.tear := rfl
@[simp] theorem State.answer_range (s : State) (st : Status) : (s.answer st).range = s.range := rfl
@[simp] theorem State.answer_raised (s : State) (st : Status) : (s.answer st).raised = s.raised := rfl
@[simp] theorem State.answer_guyFault (s : State) (st : Status) : (s.answer st).guyFault = s.guyFault := rfl
@[simp] theorem State.answer_rails (s : State) (st : Status) : (s.answer st).rails = s.rails := rfl
@[simp] theorem State.answer_fresh (s : State) (st : Status) : (s.answer st).fresh = s.fresh := rfl
@[simp] theorem State.answer_dev (s : State) (st : Status) : (s.answer st).dev = s.dev := rfl
@[simp] theorem State.answer_cl (s : State) (st : Status) : (s.answer st).cl = s.cl := rfl
@[simp] theorem State.answer_bases (s : State) (st : Status) : (s.answer st).bases = s.bases := rfl
@[simp] theorem State.answer_link (s : State) (st : Status) : (s.answer st).link = s.link := rfl
@[simp] theorem State.answer_mc (s : State) (st : Status) : (s.answer st).mc = s.mc := rfl
@[simp] theorem State.answer_sync (s : State) (st : Status) : (s.answer st).sync = s.sync := rfl
@[simp] theorem State.answer_grp (s : State) (st : Status) : (s.answer st).grp = s.grp := rfl
@[simp] theorem State.answer_gates (s : State) (st : Status) : (s.answer st).gates = s.gates := rfl
@[simp] theorem State.answer_axM (s : State) (st : Status) : (s.answer st).axM = s.axM := rfl
@[simp] theorem State.answer_axS (s : State) (st : Status) : (s.answer st).axS = s.axS := rfl
@[simp] theorem State.answer_stp (s : State) (st : Status) : (s.answer st).stp = s.stp := rfl
@[simp] theorem State.answer_brake (s : State) (st : Status) : (s.answer st).brake = s.brake := rfl
@[simp] theorem State.answer_die (s : State) (st : Status) : (s.answer st).die = s.die := rfl
@[simp] theorem State.answer_ntc (s : State) (st : Status) : (s.answer st).ntc = s.ntc := rfl
@[simp] theorem State.answer_rg (s : State) (st : Status) : (s.answer st).rg = s.rg := rfl
@[simp] theorem State.answer_lanes (s : State) (st : Status) : (s.answer st).lanes = s.lanes := rfl
@[simp] theorem State.answer_ready (s : State) (st : Status) : (s.answer st).ready = s.ready := rfl
@[simp] theorem State.answer_runs (s : State) (st : Status) : (s.answer st).runs = s.runs := rfl
@[simp] theorem State.answer_poolCyc (s : State) (st : Status) : (s.answer st).poolCyc = s.poolCyc := rfl
@[simp] theorem State.answer_trace (s : State) (st : Status) : (s.answer st).trace = s.trace := rfl
@[simp] theorem State.answer_atlChk (s : State) (st : Status) : (s.answer st).atlChk = s.atlChk := rfl
@[simp] theorem State.answer_rowFlags (s : State) (st : Status) : (s.answer st).rowFlags = s.rowFlags := rfl
@[simp] theorem State.answer_rowMap (s : State) (st : Status) : (s.answer st).rowMap = s.rowMap := rfl
@[simp] theorem State.answer_rowDead (s : State) (st : Status) : (s.answer st).rowDead = s.rowDead := rfl
@[simp] theorem State.answer_imgSheets (s : State) (st : Status) : (s.answer st).imgSheets = s.imgSheets := rfl
@[simp] theorem State.answer_auto (s : State) (st : Status) : (s.answer st).auto = s.auto := rfl
@[simp] theorem State.answer_boot (s : State) (st : Status) : (s.answer st).boot = s.boot := rfl
@[simp] theorem State.answer_sec (s : State) (st : Status) : (s.answer st).sec = s.sec := rfl
@[simp] theorem State.answer_log (s : State) (st : Status) : (s.answer st).log = s.log := rfl
@[simp] theorem State.answer_hp (s : State) (st : Status) : (s.answer st).hp = s.hp := rfl
@[simp] theorem State.answer_ports (s : State) (st : Status) : (s.answer st).ports = s.ports := rfl
@[simp] theorem State.answer_mp (s : State) (st : Status) : (s.answer st).mp = s.mp := rfl
@[simp] theorem State.answer_sp (s : State) (st : Status) : (s.answer st).sp = s.sp := rfl
@[simp] theorem State.answer_can (s : State) (st : Status) : (s.answer st).can = s.can := rfl
@[simp] theorem State.answer_data (s : State) (st : Status) : (s.answer st).data = s.data := rfl
@[simp] theorem State.answer_authed (s : State) (st : Status) : (s.answer st).authed = s.authed := rfl
@[simp] theorem State.answer_health (s : State) (st : Status) : (s.answer st).health = s.health := rfl
@[simp] theorem State.answer_word (s : State) (st : Status) (key : Nat) : (s.answer st).word key = s.word key := rfl
@[simp] theorem State.answer_f (s : State) (st : Status) (key : Nat) (x : Fld) : (s.answer st).f key x = s.f key x := rfl

/-! ## modMc -/

@[simp] theorem State.modMc_now (s : State) (n : Mcn) (g : Mc → Mc) : (s.modMc n g).now = s.now := rfl
@[simp] theorem State.modMc_store (s : State) (n : Mcn) (g : Mc → Mc) : (s.modMc n g).store = s.store := rfl
@[simp] theorem State.modMc_flash (s : State) (n : Mcn) (g : Mc → Mc) : (s.modMc n g).flash = s.flash := rfl
@[simp] theorem State.modMc_pending (s : State) (n : Mcn) (g : Mc → Mc) : (s.modMc n g).pending = s.pending := rfl
@[simp] theorem State.modMc_status (s : State) (n : Mcn) (g : Mc → Mc) : (s.modMc n g).status = s.status := rfl
@[simp] theorem State.modMc_tear (s : State) (n : Mcn) (g : Mc → Mc) : (s.modMc n g).tear = s.tear := rfl
@[simp] theorem State.modMc_range (s : State) (n : Mcn) (g : Mc → Mc) : (s.modMc n g).range = s.range := rfl
@[simp] theorem State.modMc_raised (s : State) (n : Mcn) (g : Mc → Mc) : (s.modMc n g).raised = s.raised := rfl
@[simp] theorem State.modMc_guyFault (s : State) (n : Mcn) (g : Mc → Mc) : (s.modMc n g).guyFault = s.guyFault := rfl
@[simp] theorem State.modMc_rails (s : State) (n : Mcn) (g : Mc → Mc) : (s.modMc n g).rails = s.rails := rfl
@[simp] theorem State.modMc_fresh (s : State) (n : Mcn) (g : Mc → Mc) : (s.modMc n g).fresh = s.fresh := rfl
@[simp] theorem State.modMc_dev (s : State) (n : Mcn) (g : Mc → Mc) : (s.modMc n g).dev = s.dev := rfl
@[simp] theorem State.modMc_cl (s : State) (n : Mcn) (g : Mc → Mc) : (s.modMc n g).cl = s.cl := rfl
@[simp] theorem State.modMc_bases (s : State) (n : Mcn) (g : Mc → Mc) : (s.modMc n g).bases = s.bases := rfl
@[simp] theorem State.modMc_link (s : State) (n : Mcn) (g : Mc → Mc) : (s.modMc n g).link = s.link := rfl
@[simp] theorem State.modMc_mc (s : State) (n : Mcn) (g : Mc → Mc) : (s.modMc n g).mc = upd s.mc n (g s.mc[n]) := rfl
@[simp] theorem State.modMc_sync (s : State) (n : Mcn) (g : Mc → Mc) : (s.modMc n g).sync = s.sync := rfl
@[simp] theorem State.modMc_grp (s : State) (n : Mcn) (g : Mc → Mc) : (s.modMc n g).grp = s.grp := rfl
@[simp] theorem State.modMc_gates (s : State) (n : Mcn) (g : Mc → Mc) : (s.modMc n g).gates = s.gates := rfl
@[simp] theorem State.modMc_axM (s : State) (n : Mcn) (g : Mc → Mc) : (s.modMc n g).axM = s.axM := rfl
@[simp] theorem State.modMc_axS (s : State) (n : Mcn) (g : Mc → Mc) : (s.modMc n g).axS = s.axS := rfl
@[simp] theorem State.modMc_stp (s : State) (n : Mcn) (g : Mc → Mc) : (s.modMc n g).stp = s.stp := rfl
@[simp] theorem State.modMc_brake (s : State) (n : Mcn) (g : Mc → Mc) : (s.modMc n g).brake = s.brake := rfl
@[simp] theorem State.modMc_die (s : State) (n : Mcn) (g : Mc → Mc) : (s.modMc n g).die = s.die := rfl
@[simp] theorem State.modMc_ntc (s : State) (n : Mcn) (g : Mc → Mc) : (s.modMc n g).ntc = s.ntc := rfl
@[simp] theorem State.modMc_rg (s : State) (n : Mcn) (g : Mc → Mc) : (s.modMc n g).rg = s.rg := rfl
@[simp] theorem State.modMc_lanes (s : State) (n : Mcn) (g : Mc → Mc) : (s.modMc n g).lanes = s.lanes := rfl
@[simp] theorem State.modMc_ready (s : State) (n : Mcn) (g : Mc → Mc) : (s.modMc n g).ready = s.ready := rfl
@[simp] theorem State.modMc_runs (s : State) (n : Mcn) (g : Mc → Mc) : (s.modMc n g).runs = s.runs := rfl
@[simp] theorem State.modMc_poolCyc (s : State) (n : Mcn) (g : Mc → Mc) : (s.modMc n g).poolCyc = s.poolCyc := rfl
@[simp] theorem State.modMc_trace (s : State) (n : Mcn) (g : Mc → Mc) : (s.modMc n g).trace = s.trace := rfl
@[simp] theorem State.modMc_atlChk (s : State) (n : Mcn) (g : Mc → Mc) : (s.modMc n g).atlChk = s.atlChk := rfl
@[simp] theorem State.modMc_rowFlags (s : State) (n : Mcn) (g : Mc → Mc) : (s.modMc n g).rowFlags = s.rowFlags := rfl
@[simp] theorem State.modMc_rowMap (s : State) (n : Mcn) (g : Mc → Mc) : (s.modMc n g).rowMap = s.rowMap := rfl
@[simp] theorem State.modMc_rowDead (s : State) (n : Mcn) (g : Mc → Mc) : (s.modMc n g).rowDead = s.rowDead := rfl
@[simp] theorem State.modMc_imgSheets (s : State) (n : Mcn) (g : Mc → Mc) : (s.modMc n g).imgSheets = s.imgSheets := rfl
@[simp] theorem State.modMc_auto (s : State) (n : Mcn) (g : Mc → Mc) : (s.modMc n g).auto = s.auto := rfl
@[simp] theorem State.modMc_boot (s : State) (n : Mcn) (g : Mc → Mc) : (s.modMc n g).boot = s.boot := rfl
@[simp] theorem State.modMc_sec (s : State) (n : Mcn) (g : Mc → Mc) : (s.modMc n g).sec = s.sec := rfl
@[simp] theorem State.modMc_log (s : State) (n : Mcn) (g : Mc → Mc) : (s.modMc n g).log = s.log := rfl
@[simp] theorem State.modMc_hp (s : State) (n : Mcn) (g : Mc → Mc) : (s.modMc n g).hp = s.hp := rfl
@[simp] theorem State.modMc_ports (s : State) (n : Mcn) (g : Mc → Mc) : (s.modMc n g).ports = s.ports := rfl
@[simp] theorem State.modMc_mp (s : State) (n : Mcn) (g : Mc → Mc) : (s.modMc n g).mp = s.mp := rfl
@[simp] theorem State.modMc_sp (s : State) (n : Mcn) (g : Mc → Mc) : (s.modMc n g).sp = s.sp := rfl
@[simp] theorem State.modMc_can (s : State) (n : Mcn) (g : Mc → Mc) : (s.modMc n g).can = s.can := rfl
@[simp] theorem State.modMc_data (s : State) (n : Mcn) (g : Mc → Mc) : (s.modMc n g).data = s.data := rfl
@[simp] theorem State.modMc_authed (s : State) (n : Mcn) (g : Mc → Mc) : (s.modMc n g).authed = s.authed := rfl
@[simp] theorem State.modMc_health (s : State) (n : Mcn) (g : Mc → Mc) : (s.modMc n g).health = s.health := rfl
@[simp] theorem State.modMc_word (s : State) (n : Mcn) (g : Mc → Mc) (key : Nat) : (s.modMc n g).word key = s.word key := rfl
@[simp] theorem State.modMc_f (s : State) (n : Mcn) (g : Mc → Mc) (key : Nat) (x : Fld) : (s.modMc n g).f key x = s.f key x := rfl

/-! ## modCl -/

@[simp] theorem State.modCl_now (s : State) (c : Cl) (g : Cluster → Cluster) : (s.modCl c g).now = s.now := rfl
@[simp] theorem State.modCl_store (s : State) (c : Cl) (g : Cluster → Cluster) : (s.modCl c g).store = s.store := rfl
@[simp] theorem State.modCl_flash (s : State) (c : Cl) (g : Cluster → Cluster) : (s.modCl c g).flash = s.flash := rfl
@[simp] theorem State.modCl_pending (s : State) (c : Cl) (g : Cluster → Cluster) : (s.modCl c g).pending = s.pending := rfl
@[simp] theorem State.modCl_status (s : State) (c : Cl) (g : Cluster → Cluster) : (s.modCl c g).status = s.status := rfl
@[simp] theorem State.modCl_tear (s : State) (c : Cl) (g : Cluster → Cluster) : (s.modCl c g).tear = s.tear := rfl
@[simp] theorem State.modCl_range (s : State) (c : Cl) (g : Cluster → Cluster) : (s.modCl c g).range = s.range := rfl
@[simp] theorem State.modCl_raised (s : State) (c : Cl) (g : Cluster → Cluster) : (s.modCl c g).raised = s.raised := rfl
@[simp] theorem State.modCl_guyFault (s : State) (c : Cl) (g : Cluster → Cluster) : (s.modCl c g).guyFault = s.guyFault := rfl
@[simp] theorem State.modCl_rails (s : State) (c : Cl) (g : Cluster → Cluster) : (s.modCl c g).rails = s.rails := rfl
@[simp] theorem State.modCl_fresh (s : State) (c : Cl) (g : Cluster → Cluster) : (s.modCl c g).fresh = s.fresh := rfl
@[simp] theorem State.modCl_dev (s : State) (c : Cl) (g : Cluster → Cluster) : (s.modCl c g).dev = s.dev := rfl
@[simp] theorem State.modCl_cl (s : State) (c : Cl) (g : Cluster → Cluster) : (s.modCl c g).cl = upd s.cl c (g s.cl[c]) := rfl
@[simp] theorem State.modCl_bases (s : State) (c : Cl) (g : Cluster → Cluster) : (s.modCl c g).bases = s.bases := rfl
@[simp] theorem State.modCl_link (s : State) (c : Cl) (g : Cluster → Cluster) : (s.modCl c g).link = s.link := rfl
@[simp] theorem State.modCl_mc (s : State) (c : Cl) (g : Cluster → Cluster) : (s.modCl c g).mc = s.mc := rfl
@[simp] theorem State.modCl_sync (s : State) (c : Cl) (g : Cluster → Cluster) : (s.modCl c g).sync = s.sync := rfl
@[simp] theorem State.modCl_grp (s : State) (c : Cl) (g : Cluster → Cluster) : (s.modCl c g).grp = s.grp := rfl
@[simp] theorem State.modCl_gates (s : State) (c : Cl) (g : Cluster → Cluster) : (s.modCl c g).gates = s.gates := rfl
@[simp] theorem State.modCl_axM (s : State) (c : Cl) (g : Cluster → Cluster) : (s.modCl c g).axM = s.axM := rfl
@[simp] theorem State.modCl_axS (s : State) (c : Cl) (g : Cluster → Cluster) : (s.modCl c g).axS = s.axS := rfl
@[simp] theorem State.modCl_stp (s : State) (c : Cl) (g : Cluster → Cluster) : (s.modCl c g).stp = s.stp := rfl
@[simp] theorem State.modCl_brake (s : State) (c : Cl) (g : Cluster → Cluster) : (s.modCl c g).brake = s.brake := rfl
@[simp] theorem State.modCl_die (s : State) (c : Cl) (g : Cluster → Cluster) : (s.modCl c g).die = s.die := rfl
@[simp] theorem State.modCl_ntc (s : State) (c : Cl) (g : Cluster → Cluster) : (s.modCl c g).ntc = s.ntc := rfl
@[simp] theorem State.modCl_rg (s : State) (c : Cl) (g : Cluster → Cluster) : (s.modCl c g).rg = s.rg := rfl
@[simp] theorem State.modCl_lanes (s : State) (c : Cl) (g : Cluster → Cluster) : (s.modCl c g).lanes = s.lanes := rfl
@[simp] theorem State.modCl_ready (s : State) (c : Cl) (g : Cluster → Cluster) : (s.modCl c g).ready = s.ready := rfl
@[simp] theorem State.modCl_runs (s : State) (c : Cl) (g : Cluster → Cluster) : (s.modCl c g).runs = s.runs := rfl
@[simp] theorem State.modCl_poolCyc (s : State) (c : Cl) (g : Cluster → Cluster) : (s.modCl c g).poolCyc = s.poolCyc := rfl
@[simp] theorem State.modCl_trace (s : State) (c : Cl) (g : Cluster → Cluster) : (s.modCl c g).trace = s.trace := rfl
@[simp] theorem State.modCl_atlChk (s : State) (c : Cl) (g : Cluster → Cluster) : (s.modCl c g).atlChk = s.atlChk := rfl
@[simp] theorem State.modCl_rowFlags (s : State) (c : Cl) (g : Cluster → Cluster) : (s.modCl c g).rowFlags = s.rowFlags := rfl
@[simp] theorem State.modCl_rowMap (s : State) (c : Cl) (g : Cluster → Cluster) : (s.modCl c g).rowMap = s.rowMap := rfl
@[simp] theorem State.modCl_rowDead (s : State) (c : Cl) (g : Cluster → Cluster) : (s.modCl c g).rowDead = s.rowDead := rfl
@[simp] theorem State.modCl_imgSheets (s : State) (c : Cl) (g : Cluster → Cluster) : (s.modCl c g).imgSheets = s.imgSheets := rfl
@[simp] theorem State.modCl_auto (s : State) (c : Cl) (g : Cluster → Cluster) : (s.modCl c g).auto = s.auto := rfl
@[simp] theorem State.modCl_boot (s : State) (c : Cl) (g : Cluster → Cluster) : (s.modCl c g).boot = s.boot := rfl
@[simp] theorem State.modCl_sec (s : State) (c : Cl) (g : Cluster → Cluster) : (s.modCl c g).sec = s.sec := rfl
@[simp] theorem State.modCl_log (s : State) (c : Cl) (g : Cluster → Cluster) : (s.modCl c g).log = s.log := rfl
@[simp] theorem State.modCl_hp (s : State) (c : Cl) (g : Cluster → Cluster) : (s.modCl c g).hp = s.hp := rfl
@[simp] theorem State.modCl_ports (s : State) (c : Cl) (g : Cluster → Cluster) : (s.modCl c g).ports = s.ports := rfl
@[simp] theorem State.modCl_mp (s : State) (c : Cl) (g : Cluster → Cluster) : (s.modCl c g).mp = s.mp := rfl
@[simp] theorem State.modCl_sp (s : State) (c : Cl) (g : Cluster → Cluster) : (s.modCl c g).sp = s.sp := rfl
@[simp] theorem State.modCl_can (s : State) (c : Cl) (g : Cluster → Cluster) : (s.modCl c g).can = s.can := rfl
@[simp] theorem State.modCl_data (s : State) (c : Cl) (g : Cluster → Cluster) : (s.modCl c g).data = s.data := rfl
@[simp] theorem State.modCl_authed (s : State) (c : Cl) (g : Cluster → Cluster) : (s.modCl c g).authed = s.authed := rfl
@[simp] theorem State.modCl_health (s : State) (c : Cl) (g : Cluster → Cluster) : (s.modCl c g).health = s.health := rfl
@[simp] theorem State.modCl_word (s : State) (c : Cl) (g : Cluster → Cluster) (key : Nat) : (s.modCl c g).word key = s.word key := rfl
@[simp] theorem State.modCl_f (s : State) (c : Cl) (g : Cluster → Cluster) (key : Nat) (x : Fld) : (s.modCl c g).f key x = s.f key x := rfl

/-! ## modDev -/

@[simp] theorem State.modDev_now (s : State) (g : Dev → Dev) : (s.modDev g).now = s.now := rfl
@[simp] theorem State.modDev_store (s : State) (g : Dev → Dev) : (s.modDev g).store = s.store := rfl
@[simp] theorem State.modDev_flash (s : State) (g : Dev → Dev) : (s.modDev g).flash = s.flash := rfl
@[simp] theorem State.modDev_pending (s : State) (g : Dev → Dev) : (s.modDev g).pending = s.pending := rfl
@[simp] theorem State.modDev_status (s : State) (g : Dev → Dev) : (s.modDev g).status = s.status := rfl
@[simp] theorem State.modDev_tear (s : State) (g : Dev → Dev) : (s.modDev g).tear = s.tear := rfl
@[simp] theorem State.modDev_range (s : State) (g : Dev → Dev) : (s.modDev g).range = s.range := rfl
@[simp] theorem State.modDev_raised (s : State) (g : Dev → Dev) : (s.modDev g).raised = s.raised := rfl
@[simp] theorem State.modDev_guyFault (s : State) (g : Dev → Dev) : (s.modDev g).guyFault = s.guyFault := rfl
@[simp] theorem State.modDev_rails (s : State) (g : Dev → Dev) : (s.modDev g).rails = s.rails := rfl
@[simp] theorem State.modDev_fresh (s : State) (g : Dev → Dev) : (s.modDev g).fresh = s.fresh := rfl
@[simp] theorem State.modDev_dev (s : State) (g : Dev → Dev) : (s.modDev g).dev = g s.dev := rfl
@[simp] theorem State.modDev_cl (s : State) (g : Dev → Dev) : (s.modDev g).cl = s.cl := rfl
@[simp] theorem State.modDev_bases (s : State) (g : Dev → Dev) : (s.modDev g).bases = s.bases := rfl
@[simp] theorem State.modDev_link (s : State) (g : Dev → Dev) : (s.modDev g).link = s.link := rfl
@[simp] theorem State.modDev_mc (s : State) (g : Dev → Dev) : (s.modDev g).mc = s.mc := rfl
@[simp] theorem State.modDev_sync (s : State) (g : Dev → Dev) : (s.modDev g).sync = s.sync := rfl
@[simp] theorem State.modDev_grp (s : State) (g : Dev → Dev) : (s.modDev g).grp = s.grp := rfl
@[simp] theorem State.modDev_gates (s : State) (g : Dev → Dev) : (s.modDev g).gates = s.gates := rfl
@[simp] theorem State.modDev_axM (s : State) (g : Dev → Dev) : (s.modDev g).axM = s.axM := rfl
@[simp] theorem State.modDev_axS (s : State) (g : Dev → Dev) : (s.modDev g).axS = s.axS := rfl
@[simp] theorem State.modDev_stp (s : State) (g : Dev → Dev) : (s.modDev g).stp = s.stp := rfl
@[simp] theorem State.modDev_brake (s : State) (g : Dev → Dev) : (s.modDev g).brake = s.brake := rfl
@[simp] theorem State.modDev_die (s : State) (g : Dev → Dev) : (s.modDev g).die = s.die := rfl
@[simp] theorem State.modDev_ntc (s : State) (g : Dev → Dev) : (s.modDev g).ntc = s.ntc := rfl
@[simp] theorem State.modDev_rg (s : State) (g : Dev → Dev) : (s.modDev g).rg = s.rg := rfl
@[simp] theorem State.modDev_lanes (s : State) (g : Dev → Dev) : (s.modDev g).lanes = s.lanes := rfl
@[simp] theorem State.modDev_ready (s : State) (g : Dev → Dev) : (s.modDev g).ready = s.ready := rfl
@[simp] theorem State.modDev_runs (s : State) (g : Dev → Dev) : (s.modDev g).runs = s.runs := rfl
@[simp] theorem State.modDev_poolCyc (s : State) (g : Dev → Dev) : (s.modDev g).poolCyc = s.poolCyc := rfl
@[simp] theorem State.modDev_trace (s : State) (g : Dev → Dev) : (s.modDev g).trace = s.trace := rfl
@[simp] theorem State.modDev_atlChk (s : State) (g : Dev → Dev) : (s.modDev g).atlChk = s.atlChk := rfl
@[simp] theorem State.modDev_rowFlags (s : State) (g : Dev → Dev) : (s.modDev g).rowFlags = s.rowFlags := rfl
@[simp] theorem State.modDev_rowMap (s : State) (g : Dev → Dev) : (s.modDev g).rowMap = s.rowMap := rfl
@[simp] theorem State.modDev_rowDead (s : State) (g : Dev → Dev) : (s.modDev g).rowDead = s.rowDead := rfl
@[simp] theorem State.modDev_imgSheets (s : State) (g : Dev → Dev) : (s.modDev g).imgSheets = s.imgSheets := rfl
@[simp] theorem State.modDev_auto (s : State) (g : Dev → Dev) : (s.modDev g).auto = s.auto := rfl
@[simp] theorem State.modDev_boot (s : State) (g : Dev → Dev) : (s.modDev g).boot = s.boot := rfl
@[simp] theorem State.modDev_sec (s : State) (g : Dev → Dev) : (s.modDev g).sec = s.sec := rfl
@[simp] theorem State.modDev_log (s : State) (g : Dev → Dev) : (s.modDev g).log = s.log := rfl
@[simp] theorem State.modDev_hp (s : State) (g : Dev → Dev) : (s.modDev g).hp = s.hp := rfl
@[simp] theorem State.modDev_ports (s : State) (g : Dev → Dev) : (s.modDev g).ports = s.ports := rfl
@[simp] theorem State.modDev_mp (s : State) (g : Dev → Dev) : (s.modDev g).mp = s.mp := rfl
@[simp] theorem State.modDev_sp (s : State) (g : Dev → Dev) : (s.modDev g).sp = s.sp := rfl
@[simp] theorem State.modDev_can (s : State) (g : Dev → Dev) : (s.modDev g).can = s.can := rfl
@[simp] theorem State.modDev_data (s : State) (g : Dev → Dev) : (s.modDev g).data = s.data := rfl
@[simp] theorem State.modDev_authed (s : State) (g : Dev → Dev) : (s.modDev g).authed = s.authed := rfl
@[simp] theorem State.modDev_health (s : State) (g : Dev → Dev) : (s.modDev g).health = s.health := rfl
@[simp] theorem State.modDev_word (s : State) (g : Dev → Dev) (key : Nat) : (s.modDev g).word key = s.word key := rfl
@[simp] theorem State.modDev_f (s : State) (g : Dev → Dev) (key : Nat) (x : Fld) : (s.modDev g).f key x = s.f key x := rfl

/-! ## modLink -/

@[simp] theorem State.modLink_now (s : State) (d : Rg) (g : Link → Link) : (s.modLink d g).now = s.now := rfl
@[simp] theorem State.modLink_store (s : State) (d : Rg) (g : Link → Link) : (s.modLink d g).store = s.store := rfl
@[simp] theorem State.modLink_flash (s : State) (d : Rg) (g : Link → Link) : (s.modLink d g).flash = s.flash := rfl
@[simp] theorem State.modLink_pending (s : State) (d : Rg) (g : Link → Link) : (s.modLink d g).pending = s.pending := rfl
@[simp] theorem State.modLink_status (s : State) (d : Rg) (g : Link → Link) : (s.modLink d g).status = s.status := rfl
@[simp] theorem State.modLink_tear (s : State) (d : Rg) (g : Link → Link) : (s.modLink d g).tear = s.tear := rfl
@[simp] theorem State.modLink_range (s : State) (d : Rg) (g : Link → Link) : (s.modLink d g).range = s.range := rfl
@[simp] theorem State.modLink_raised (s : State) (d : Rg) (g : Link → Link) : (s.modLink d g).raised = s.raised := rfl
@[simp] theorem State.modLink_guyFault (s : State) (d : Rg) (g : Link → Link) : (s.modLink d g).guyFault = s.guyFault := rfl
@[simp] theorem State.modLink_rails (s : State) (d : Rg) (g : Link → Link) : (s.modLink d g).rails = s.rails := rfl
@[simp] theorem State.modLink_fresh (s : State) (d : Rg) (g : Link → Link) : (s.modLink d g).fresh = s.fresh := rfl
@[simp] theorem State.modLink_dev (s : State) (d : Rg) (g : Link → Link) : (s.modLink d g).dev = s.dev := rfl
@[simp] theorem State.modLink_cl (s : State) (d : Rg) (g : Link → Link) : (s.modLink d g).cl = s.cl := rfl
@[simp] theorem State.modLink_bases (s : State) (d : Rg) (g : Link → Link) : (s.modLink d g).bases = s.bases := rfl
@[simp] theorem State.modLink_link (s : State) (d : Rg) (g : Link → Link) : (s.modLink d g).link = upd s.link d (g s.link[d]) := rfl
@[simp] theorem State.modLink_mc (s : State) (d : Rg) (g : Link → Link) : (s.modLink d g).mc = s.mc := rfl
@[simp] theorem State.modLink_sync (s : State) (d : Rg) (g : Link → Link) : (s.modLink d g).sync = s.sync := rfl
@[simp] theorem State.modLink_grp (s : State) (d : Rg) (g : Link → Link) : (s.modLink d g).grp = s.grp := rfl
@[simp] theorem State.modLink_gates (s : State) (d : Rg) (g : Link → Link) : (s.modLink d g).gates = s.gates := rfl
@[simp] theorem State.modLink_axM (s : State) (d : Rg) (g : Link → Link) : (s.modLink d g).axM = s.axM := rfl
@[simp] theorem State.modLink_axS (s : State) (d : Rg) (g : Link → Link) : (s.modLink d g).axS = s.axS := rfl
@[simp] theorem State.modLink_stp (s : State) (d : Rg) (g : Link → Link) : (s.modLink d g).stp = s.stp := rfl
@[simp] theorem State.modLink_brake (s : State) (d : Rg) (g : Link → Link) : (s.modLink d g).brake = s.brake := rfl
@[simp] theorem State.modLink_die (s : State) (d : Rg) (g : Link → Link) : (s.modLink d g).die = s.die := rfl
@[simp] theorem State.modLink_ntc (s : State) (d : Rg) (g : Link → Link) : (s.modLink d g).ntc = s.ntc := rfl
@[simp] theorem State.modLink_rg (s : State) (d : Rg) (g : Link → Link) : (s.modLink d g).rg = s.rg := rfl
@[simp] theorem State.modLink_lanes (s : State) (d : Rg) (g : Link → Link) : (s.modLink d g).lanes = s.lanes := rfl
@[simp] theorem State.modLink_ready (s : State) (d : Rg) (g : Link → Link) : (s.modLink d g).ready = s.ready := rfl
@[simp] theorem State.modLink_runs (s : State) (d : Rg) (g : Link → Link) : (s.modLink d g).runs = s.runs := rfl
@[simp] theorem State.modLink_poolCyc (s : State) (d : Rg) (g : Link → Link) : (s.modLink d g).poolCyc = s.poolCyc := rfl
@[simp] theorem State.modLink_trace (s : State) (d : Rg) (g : Link → Link) : (s.modLink d g).trace = s.trace := rfl
@[simp] theorem State.modLink_atlChk (s : State) (d : Rg) (g : Link → Link) : (s.modLink d g).atlChk = s.atlChk := rfl
@[simp] theorem State.modLink_rowFlags (s : State) (d : Rg) (g : Link → Link) : (s.modLink d g).rowFlags = s.rowFlags := rfl
@[simp] theorem State.modLink_rowMap (s : State) (d : Rg) (g : Link → Link) : (s.modLink d g).rowMap = s.rowMap := rfl
@[simp] theorem State.modLink_rowDead (s : State) (d : Rg) (g : Link → Link) : (s.modLink d g).rowDead = s.rowDead := rfl
@[simp] theorem State.modLink_imgSheets (s : State) (d : Rg) (g : Link → Link) : (s.modLink d g).imgSheets = s.imgSheets := rfl
@[simp] theorem State.modLink_auto (s : State) (d : Rg) (g : Link → Link) : (s.modLink d g).auto = s.auto := rfl
@[simp] theorem State.modLink_boot (s : State) (d : Rg) (g : Link → Link) : (s.modLink d g).boot = s.boot := rfl
@[simp] theorem State.modLink_sec (s : State) (d : Rg) (g : Link → Link) : (s.modLink d g).sec = s.sec := rfl
@[simp] theorem State.modLink_log (s : State) (d : Rg) (g : Link → Link) : (s.modLink d g).log = s.log := rfl
@[simp] theorem State.modLink_hp (s : State) (d : Rg) (g : Link → Link) : (s.modLink d g).hp = s.hp := rfl
@[simp] theorem State.modLink_ports (s : State) (d : Rg) (g : Link → Link) : (s.modLink d g).ports = s.ports := rfl
@[simp] theorem State.modLink_mp (s : State) (d : Rg) (g : Link → Link) : (s.modLink d g).mp = s.mp := rfl
@[simp] theorem State.modLink_sp (s : State) (d : Rg) (g : Link → Link) : (s.modLink d g).sp = s.sp := rfl
@[simp] theorem State.modLink_can (s : State) (d : Rg) (g : Link → Link) : (s.modLink d g).can = s.can := rfl
@[simp] theorem State.modLink_data (s : State) (d : Rg) (g : Link → Link) : (s.modLink d g).data = s.data := rfl
@[simp] theorem State.modLink_authed (s : State) (d : Rg) (g : Link → Link) : (s.modLink d g).authed = s.authed := rfl
@[simp] theorem State.modLink_health (s : State) (d : Rg) (g : Link → Link) : (s.modLink d g).health = s.health := rfl
@[simp] theorem State.modLink_word (s : State) (d : Rg) (g : Link → Link) (key : Nat) : (s.modLink d g).word key = s.word key := rfl
@[simp] theorem State.modLink_f (s : State) (d : Rg) (g : Link → Link) (key : Nat) (x : Fld) : (s.modLink d g).f key x = s.f key x := rfl

/-! ## modGrp -/

@[simp] theorem State.modGrp_now (s : State) (i : Grp) (g : SGroup → SGroup) : (s.modGrp i g).now = s.now := rfl
@[simp] theorem State.modGrp_store (s : State) (i : Grp) (g : SGroup → SGroup) : (s.modGrp i g).store = s.store := rfl
@[simp] theorem State.modGrp_flash (s : State) (i : Grp) (g : SGroup → SGroup) : (s.modGrp i g).flash = s.flash := rfl
@[simp] theorem State.modGrp_pending (s : State) (i : Grp) (g : SGroup → SGroup) : (s.modGrp i g).pending = s.pending := rfl
@[simp] theorem State.modGrp_status (s : State) (i : Grp) (g : SGroup → SGroup) : (s.modGrp i g).status = s.status := rfl
@[simp] theorem State.modGrp_tear (s : State) (i : Grp) (g : SGroup → SGroup) : (s.modGrp i g).tear = s.tear := rfl
@[simp] theorem State.modGrp_range (s : State) (i : Grp) (g : SGroup → SGroup) : (s.modGrp i g).range = s.range := rfl
@[simp] theorem State.modGrp_raised (s : State) (i : Grp) (g : SGroup → SGroup) : (s.modGrp i g).raised = s.raised := rfl
@[simp] theorem State.modGrp_guyFault (s : State) (i : Grp) (g : SGroup → SGroup) : (s.modGrp i g).guyFault = s.guyFault := rfl
@[simp] theorem State.modGrp_rails (s : State) (i : Grp) (g : SGroup → SGroup) : (s.modGrp i g).rails = s.rails := rfl
@[simp] theorem State.modGrp_fresh (s : State) (i : Grp) (g : SGroup → SGroup) : (s.modGrp i g).fresh = s.fresh := rfl
@[simp] theorem State.modGrp_dev (s : State) (i : Grp) (g : SGroup → SGroup) : (s.modGrp i g).dev = s.dev := rfl
@[simp] theorem State.modGrp_cl (s : State) (i : Grp) (g : SGroup → SGroup) : (s.modGrp i g).cl = s.cl := rfl
@[simp] theorem State.modGrp_bases (s : State) (i : Grp) (g : SGroup → SGroup) : (s.modGrp i g).bases = s.bases := rfl
@[simp] theorem State.modGrp_link (s : State) (i : Grp) (g : SGroup → SGroup) : (s.modGrp i g).link = s.link := rfl
@[simp] theorem State.modGrp_mc (s : State) (i : Grp) (g : SGroup → SGroup) : (s.modGrp i g).mc = s.mc := rfl
@[simp] theorem State.modGrp_sync (s : State) (i : Grp) (g : SGroup → SGroup) : (s.modGrp i g).sync = s.sync := rfl
@[simp] theorem State.modGrp_grp (s : State) (i : Grp) (g : SGroup → SGroup) : (s.modGrp i g).grp = upd s.grp i (g s.grp[i]) := rfl
@[simp] theorem State.modGrp_gates (s : State) (i : Grp) (g : SGroup → SGroup) : (s.modGrp i g).gates = s.gates := rfl
@[simp] theorem State.modGrp_axM (s : State) (i : Grp) (g : SGroup → SGroup) : (s.modGrp i g).axM = s.axM := rfl
@[simp] theorem State.modGrp_axS (s : State) (i : Grp) (g : SGroup → SGroup) : (s.modGrp i g).axS = s.axS := rfl
@[simp] theorem State.modGrp_stp (s : State) (i : Grp) (g : SGroup → SGroup) : (s.modGrp i g).stp = s.stp := rfl
@[simp] theorem State.modGrp_brake (s : State) (i : Grp) (g : SGroup → SGroup) : (s.modGrp i g).brake = s.brake := rfl
@[simp] theorem State.modGrp_die (s : State) (i : Grp) (g : SGroup → SGroup) : (s.modGrp i g).die = s.die := rfl
@[simp] theorem State.modGrp_ntc (s : State) (i : Grp) (g : SGroup → SGroup) : (s.modGrp i g).ntc = s.ntc := rfl
@[simp] theorem State.modGrp_rg (s : State) (i : Grp) (g : SGroup → SGroup) : (s.modGrp i g).rg = s.rg := rfl
@[simp] theorem State.modGrp_lanes (s : State) (i : Grp) (g : SGroup → SGroup) : (s.modGrp i g).lanes = s.lanes := rfl
@[simp] theorem State.modGrp_ready (s : State) (i : Grp) (g : SGroup → SGroup) : (s.modGrp i g).ready = s.ready := rfl
@[simp] theorem State.modGrp_runs (s : State) (i : Grp) (g : SGroup → SGroup) : (s.modGrp i g).runs = s.runs := rfl
@[simp] theorem State.modGrp_poolCyc (s : State) (i : Grp) (g : SGroup → SGroup) : (s.modGrp i g).poolCyc = s.poolCyc := rfl
@[simp] theorem State.modGrp_trace (s : State) (i : Grp) (g : SGroup → SGroup) : (s.modGrp i g).trace = s.trace := rfl
@[simp] theorem State.modGrp_atlChk (s : State) (i : Grp) (g : SGroup → SGroup) : (s.modGrp i g).atlChk = s.atlChk := rfl
@[simp] theorem State.modGrp_rowFlags (s : State) (i : Grp) (g : SGroup → SGroup) : (s.modGrp i g).rowFlags = s.rowFlags := rfl
@[simp] theorem State.modGrp_rowMap (s : State) (i : Grp) (g : SGroup → SGroup) : (s.modGrp i g).rowMap = s.rowMap := rfl
@[simp] theorem State.modGrp_rowDead (s : State) (i : Grp) (g : SGroup → SGroup) : (s.modGrp i g).rowDead = s.rowDead := rfl
@[simp] theorem State.modGrp_imgSheets (s : State) (i : Grp) (g : SGroup → SGroup) : (s.modGrp i g).imgSheets = s.imgSheets := rfl
@[simp] theorem State.modGrp_auto (s : State) (i : Grp) (g : SGroup → SGroup) : (s.modGrp i g).auto = s.auto := rfl
@[simp] theorem State.modGrp_boot (s : State) (i : Grp) (g : SGroup → SGroup) : (s.modGrp i g).boot = s.boot := rfl
@[simp] theorem State.modGrp_sec (s : State) (i : Grp) (g : SGroup → SGroup) : (s.modGrp i g).sec = s.sec := rfl
@[simp] theorem State.modGrp_log (s : State) (i : Grp) (g : SGroup → SGroup) : (s.modGrp i g).log = s.log := rfl
@[simp] theorem State.modGrp_hp (s : State) (i : Grp) (g : SGroup → SGroup) : (s.modGrp i g).hp = s.hp := rfl
@[simp] theorem State.modGrp_ports (s : State) (i : Grp) (g : SGroup → SGroup) : (s.modGrp i g).ports = s.ports := rfl
@[simp] theorem State.modGrp_mp (s : State) (i : Grp) (g : SGroup → SGroup) : (s.modGrp i g).mp = s.mp := rfl
@[simp] theorem State.modGrp_sp (s : State) (i : Grp) (g : SGroup → SGroup) : (s.modGrp i g).sp = s.sp := rfl
@[simp] theorem State.modGrp_can (s : State) (i : Grp) (g : SGroup → SGroup) : (s.modGrp i g).can = s.can := rfl
@[simp] theorem State.modGrp_data (s : State) (i : Grp) (g : SGroup → SGroup) : (s.modGrp i g).data = s.data := rfl
@[simp] theorem State.modGrp_authed (s : State) (i : Grp) (g : SGroup → SGroup) : (s.modGrp i g).authed = s.authed := rfl
@[simp] theorem State.modGrp_health (s : State) (i : Grp) (g : SGroup → SGroup) : (s.modGrp i g).health = s.health := rfl
@[simp] theorem State.modGrp_word (s : State) (i : Grp) (g : SGroup → SGroup) (key : Nat) : (s.modGrp i g).word key = s.word key := rfl
@[simp] theorem State.modGrp_f (s : State) (i : Grp) (g : SGroup → SGroup) (key : Nat) (x : Fld) : (s.modGrp i g).f key x = s.f key x := rfl

/-! ## modTrace -/

@[simp] theorem State.modTrace_now (s : State) (u : Fin 4) (g : TraceU → TraceU) : (s.modTrace u g).now = s.now := rfl
@[simp] theorem State.modTrace_store (s : State) (u : Fin 4) (g : TraceU → TraceU) : (s.modTrace u g).store = s.store := rfl
@[simp] theorem State.modTrace_flash (s : State) (u : Fin 4) (g : TraceU → TraceU) : (s.modTrace u g).flash = s.flash := rfl
@[simp] theorem State.modTrace_pending (s : State) (u : Fin 4) (g : TraceU → TraceU) : (s.modTrace u g).pending = s.pending := rfl
@[simp] theorem State.modTrace_status (s : State) (u : Fin 4) (g : TraceU → TraceU) : (s.modTrace u g).status = s.status := rfl
@[simp] theorem State.modTrace_tear (s : State) (u : Fin 4) (g : TraceU → TraceU) : (s.modTrace u g).tear = s.tear := rfl
@[simp] theorem State.modTrace_range (s : State) (u : Fin 4) (g : TraceU → TraceU) : (s.modTrace u g).range = s.range := rfl
@[simp] theorem State.modTrace_raised (s : State) (u : Fin 4) (g : TraceU → TraceU) : (s.modTrace u g).raised = s.raised := rfl
@[simp] theorem State.modTrace_guyFault (s : State) (u : Fin 4) (g : TraceU → TraceU) : (s.modTrace u g).guyFault = s.guyFault := rfl
@[simp] theorem State.modTrace_rails (s : State) (u : Fin 4) (g : TraceU → TraceU) : (s.modTrace u g).rails = s.rails := rfl
@[simp] theorem State.modTrace_fresh (s : State) (u : Fin 4) (g : TraceU → TraceU) : (s.modTrace u g).fresh = s.fresh := rfl
@[simp] theorem State.modTrace_dev (s : State) (u : Fin 4) (g : TraceU → TraceU) : (s.modTrace u g).dev = s.dev := rfl
@[simp] theorem State.modTrace_cl (s : State) (u : Fin 4) (g : TraceU → TraceU) : (s.modTrace u g).cl = s.cl := rfl
@[simp] theorem State.modTrace_bases (s : State) (u : Fin 4) (g : TraceU → TraceU) : (s.modTrace u g).bases = s.bases := rfl
@[simp] theorem State.modTrace_link (s : State) (u : Fin 4) (g : TraceU → TraceU) : (s.modTrace u g).link = s.link := rfl
@[simp] theorem State.modTrace_mc (s : State) (u : Fin 4) (g : TraceU → TraceU) : (s.modTrace u g).mc = s.mc := rfl
@[simp] theorem State.modTrace_sync (s : State) (u : Fin 4) (g : TraceU → TraceU) : (s.modTrace u g).sync = s.sync := rfl
@[simp] theorem State.modTrace_grp (s : State) (u : Fin 4) (g : TraceU → TraceU) : (s.modTrace u g).grp = s.grp := rfl
@[simp] theorem State.modTrace_gates (s : State) (u : Fin 4) (g : TraceU → TraceU) : (s.modTrace u g).gates = s.gates := rfl
@[simp] theorem State.modTrace_axM (s : State) (u : Fin 4) (g : TraceU → TraceU) : (s.modTrace u g).axM = s.axM := rfl
@[simp] theorem State.modTrace_axS (s : State) (u : Fin 4) (g : TraceU → TraceU) : (s.modTrace u g).axS = s.axS := rfl
@[simp] theorem State.modTrace_stp (s : State) (u : Fin 4) (g : TraceU → TraceU) : (s.modTrace u g).stp = s.stp := rfl
@[simp] theorem State.modTrace_brake (s : State) (u : Fin 4) (g : TraceU → TraceU) : (s.modTrace u g).brake = s.brake := rfl
@[simp] theorem State.modTrace_die (s : State) (u : Fin 4) (g : TraceU → TraceU) : (s.modTrace u g).die = s.die := rfl
@[simp] theorem State.modTrace_ntc (s : State) (u : Fin 4) (g : TraceU → TraceU) : (s.modTrace u g).ntc = s.ntc := rfl
@[simp] theorem State.modTrace_rg (s : State) (u : Fin 4) (g : TraceU → TraceU) : (s.modTrace u g).rg = s.rg := rfl
@[simp] theorem State.modTrace_lanes (s : State) (u : Fin 4) (g : TraceU → TraceU) : (s.modTrace u g).lanes = s.lanes := rfl
@[simp] theorem State.modTrace_ready (s : State) (u : Fin 4) (g : TraceU → TraceU) : (s.modTrace u g).ready = s.ready := rfl
@[simp] theorem State.modTrace_runs (s : State) (u : Fin 4) (g : TraceU → TraceU) : (s.modTrace u g).runs = s.runs := rfl
@[simp] theorem State.modTrace_poolCyc (s : State) (u : Fin 4) (g : TraceU → TraceU) : (s.modTrace u g).poolCyc = s.poolCyc := rfl
@[simp] theorem State.modTrace_trace (s : State) (u : Fin 4) (g : TraceU → TraceU) : (s.modTrace u g).trace = upd s.trace u (g s.trace[u]) := rfl
@[simp] theorem State.modTrace_atlChk (s : State) (u : Fin 4) (g : TraceU → TraceU) : (s.modTrace u g).atlChk = s.atlChk := rfl
@[simp] theorem State.modTrace_rowFlags (s : State) (u : Fin 4) (g : TraceU → TraceU) : (s.modTrace u g).rowFlags = s.rowFlags := rfl
@[simp] theorem State.modTrace_rowMap (s : State) (u : Fin 4) (g : TraceU → TraceU) : (s.modTrace u g).rowMap = s.rowMap := rfl
@[simp] theorem State.modTrace_rowDead (s : State) (u : Fin 4) (g : TraceU → TraceU) : (s.modTrace u g).rowDead = s.rowDead := rfl
@[simp] theorem State.modTrace_imgSheets (s : State) (u : Fin 4) (g : TraceU → TraceU) : (s.modTrace u g).imgSheets = s.imgSheets := rfl
@[simp] theorem State.modTrace_auto (s : State) (u : Fin 4) (g : TraceU → TraceU) : (s.modTrace u g).auto = s.auto := rfl
@[simp] theorem State.modTrace_boot (s : State) (u : Fin 4) (g : TraceU → TraceU) : (s.modTrace u g).boot = s.boot := rfl
@[simp] theorem State.modTrace_sec (s : State) (u : Fin 4) (g : TraceU → TraceU) : (s.modTrace u g).sec = s.sec := rfl
@[simp] theorem State.modTrace_log (s : State) (u : Fin 4) (g : TraceU → TraceU) : (s.modTrace u g).log = s.log := rfl
@[simp] theorem State.modTrace_hp (s : State) (u : Fin 4) (g : TraceU → TraceU) : (s.modTrace u g).hp = s.hp := rfl
@[simp] theorem State.modTrace_ports (s : State) (u : Fin 4) (g : TraceU → TraceU) : (s.modTrace u g).ports = s.ports := rfl
@[simp] theorem State.modTrace_mp (s : State) (u : Fin 4) (g : TraceU → TraceU) : (s.modTrace u g).mp = s.mp := rfl
@[simp] theorem State.modTrace_sp (s : State) (u : Fin 4) (g : TraceU → TraceU) : (s.modTrace u g).sp = s.sp := rfl
@[simp] theorem State.modTrace_can (s : State) (u : Fin 4) (g : TraceU → TraceU) : (s.modTrace u g).can = s.can := rfl
@[simp] theorem State.modTrace_data (s : State) (u : Fin 4) (g : TraceU → TraceU) : (s.modTrace u g).data = s.data := rfl
@[simp] theorem State.modTrace_authed (s : State) (u : Fin 4) (g : TraceU → TraceU) : (s.modTrace u g).authed = s.authed := rfl
@[simp] theorem State.modTrace_health (s : State) (u : Fin 4) (g : TraceU → TraceU) : (s.modTrace u g).health = s.health := rfl
@[simp] theorem State.modTrace_word (s : State) (u : Fin 4) (g : TraceU → TraceU) (key : Nat) : (s.modTrace u g).word key = s.word key := rfl
@[simp] theorem State.modTrace_f (s : State) (u : Fin 4) (g : TraceU → TraceU) (key : Nat) (x : Fld) : (s.modTrace u g).f key x = s.f key x := rfl

/-! ## modStp -/

@[simp] theorem State.modStp_now (s : State) (k : Chan) (g : Stepper → Stepper) : (s.modStp k g).now = s.now := rfl
@[simp] theorem State.modStp_store (s : State) (k : Chan) (g : Stepper → Stepper) : (s.modStp k g).store = s.store := rfl
@[simp] theorem State.modStp_flash (s : State) (k : Chan) (g : Stepper → Stepper) : (s.modStp k g).flash = s.flash := rfl
@[simp] theorem State.modStp_pending (s : State) (k : Chan) (g : Stepper → Stepper) : (s.modStp k g).pending = s.pending := rfl
@[simp] theorem State.modStp_status (s : State) (k : Chan) (g : Stepper → Stepper) : (s.modStp k g).status = s.status := rfl
@[simp] theorem State.modStp_tear (s : State) (k : Chan) (g : Stepper → Stepper) : (s.modStp k g).tear = s.tear := rfl
@[simp] theorem State.modStp_range (s : State) (k : Chan) (g : Stepper → Stepper) : (s.modStp k g).range = s.range := rfl
@[simp] theorem State.modStp_raised (s : State) (k : Chan) (g : Stepper → Stepper) : (s.modStp k g).raised = s.raised := rfl
@[simp] theorem State.modStp_guyFault (s : State) (k : Chan) (g : Stepper → Stepper) : (s.modStp k g).guyFault = s.guyFault := rfl
@[simp] theorem State.modStp_rails (s : State) (k : Chan) (g : Stepper → Stepper) : (s.modStp k g).rails = s.rails := rfl
@[simp] theorem State.modStp_fresh (s : State) (k : Chan) (g : Stepper → Stepper) : (s.modStp k g).fresh = s.fresh := rfl
@[simp] theorem State.modStp_dev (s : State) (k : Chan) (g : Stepper → Stepper) : (s.modStp k g).dev = s.dev := rfl
@[simp] theorem State.modStp_cl (s : State) (k : Chan) (g : Stepper → Stepper) : (s.modStp k g).cl = s.cl := rfl
@[simp] theorem State.modStp_bases (s : State) (k : Chan) (g : Stepper → Stepper) : (s.modStp k g).bases = s.bases := rfl
@[simp] theorem State.modStp_link (s : State) (k : Chan) (g : Stepper → Stepper) : (s.modStp k g).link = s.link := rfl
@[simp] theorem State.modStp_mc (s : State) (k : Chan) (g : Stepper → Stepper) : (s.modStp k g).mc = s.mc := rfl
@[simp] theorem State.modStp_sync (s : State) (k : Chan) (g : Stepper → Stepper) : (s.modStp k g).sync = s.sync := rfl
@[simp] theorem State.modStp_grp (s : State) (k : Chan) (g : Stepper → Stepper) : (s.modStp k g).grp = s.grp := rfl
@[simp] theorem State.modStp_gates (s : State) (k : Chan) (g : Stepper → Stepper) : (s.modStp k g).gates = s.gates := rfl
@[simp] theorem State.modStp_axM (s : State) (k : Chan) (g : Stepper → Stepper) : (s.modStp k g).axM = s.axM := rfl
@[simp] theorem State.modStp_axS (s : State) (k : Chan) (g : Stepper → Stepper) : (s.modStp k g).axS = s.axS := rfl
@[simp] theorem State.modStp_stp (s : State) (k : Chan) (g : Stepper → Stepper) : (s.modStp k g).stp = upd s.stp k (g s.stp[k]) := rfl
@[simp] theorem State.modStp_brake (s : State) (k : Chan) (g : Stepper → Stepper) : (s.modStp k g).brake = s.brake := rfl
@[simp] theorem State.modStp_die (s : State) (k : Chan) (g : Stepper → Stepper) : (s.modStp k g).die = s.die := rfl
@[simp] theorem State.modStp_ntc (s : State) (k : Chan) (g : Stepper → Stepper) : (s.modStp k g).ntc = s.ntc := rfl
@[simp] theorem State.modStp_rg (s : State) (k : Chan) (g : Stepper → Stepper) : (s.modStp k g).rg = s.rg := rfl
@[simp] theorem State.modStp_lanes (s : State) (k : Chan) (g : Stepper → Stepper) : (s.modStp k g).lanes = s.lanes := rfl
@[simp] theorem State.modStp_ready (s : State) (k : Chan) (g : Stepper → Stepper) : (s.modStp k g).ready = s.ready := rfl
@[simp] theorem State.modStp_runs (s : State) (k : Chan) (g : Stepper → Stepper) : (s.modStp k g).runs = s.runs := rfl
@[simp] theorem State.modStp_poolCyc (s : State) (k : Chan) (g : Stepper → Stepper) : (s.modStp k g).poolCyc = s.poolCyc := rfl
@[simp] theorem State.modStp_trace (s : State) (k : Chan) (g : Stepper → Stepper) : (s.modStp k g).trace = s.trace := rfl
@[simp] theorem State.modStp_atlChk (s : State) (k : Chan) (g : Stepper → Stepper) : (s.modStp k g).atlChk = s.atlChk := rfl
@[simp] theorem State.modStp_rowFlags (s : State) (k : Chan) (g : Stepper → Stepper) : (s.modStp k g).rowFlags = s.rowFlags := rfl
@[simp] theorem State.modStp_rowMap (s : State) (k : Chan) (g : Stepper → Stepper) : (s.modStp k g).rowMap = s.rowMap := rfl
@[simp] theorem State.modStp_rowDead (s : State) (k : Chan) (g : Stepper → Stepper) : (s.modStp k g).rowDead = s.rowDead := rfl
@[simp] theorem State.modStp_imgSheets (s : State) (k : Chan) (g : Stepper → Stepper) : (s.modStp k g).imgSheets = s.imgSheets := rfl
@[simp] theorem State.modStp_auto (s : State) (k : Chan) (g : Stepper → Stepper) : (s.modStp k g).auto = s.auto := rfl
@[simp] theorem State.modStp_boot (s : State) (k : Chan) (g : Stepper → Stepper) : (s.modStp k g).boot = s.boot := rfl
@[simp] theorem State.modStp_sec (s : State) (k : Chan) (g : Stepper → Stepper) : (s.modStp k g).sec = s.sec := rfl
@[simp] theorem State.modStp_log (s : State) (k : Chan) (g : Stepper → Stepper) : (s.modStp k g).log = s.log := rfl
@[simp] theorem State.modStp_hp (s : State) (k : Chan) (g : Stepper → Stepper) : (s.modStp k g).hp = s.hp := rfl
@[simp] theorem State.modStp_ports (s : State) (k : Chan) (g : Stepper → Stepper) : (s.modStp k g).ports = s.ports := rfl
@[simp] theorem State.modStp_mp (s : State) (k : Chan) (g : Stepper → Stepper) : (s.modStp k g).mp = s.mp := rfl
@[simp] theorem State.modStp_sp (s : State) (k : Chan) (g : Stepper → Stepper) : (s.modStp k g).sp = s.sp := rfl
@[simp] theorem State.modStp_can (s : State) (k : Chan) (g : Stepper → Stepper) : (s.modStp k g).can = s.can := rfl
@[simp] theorem State.modStp_data (s : State) (k : Chan) (g : Stepper → Stepper) : (s.modStp k g).data = s.data := rfl
@[simp] theorem State.modStp_authed (s : State) (k : Chan) (g : Stepper → Stepper) : (s.modStp k g).authed = s.authed := rfl
@[simp] theorem State.modStp_health (s : State) (k : Chan) (g : Stepper → Stepper) : (s.modStp k g).health = s.health := rfl
@[simp] theorem State.modStp_word (s : State) (k : Chan) (g : Stepper → Stepper) (key : Nat) : (s.modStp k g).word key = s.word key := rfl
@[simp] theorem State.modStp_f (s : State) (k : Chan) (g : Stepper → Stepper) (key : Nat) (x : Fld) : (s.modStp k g).f key x = s.f key x := rfl

/-! ## modGate -/

@[simp] theorem State.modGate_now (s : State) (o : Fin 40) (g : GateOut → GateOut) : (s.modGate o g).now = s.now := rfl
@[simp] theorem State.modGate_store (s : State) (o : Fin 40) (g : GateOut → GateOut) : (s.modGate o g).store = s.store := rfl
@[simp] theorem State.modGate_flash (s : State) (o : Fin 40) (g : GateOut → GateOut) : (s.modGate o g).flash = s.flash := rfl
@[simp] theorem State.modGate_pending (s : State) (o : Fin 40) (g : GateOut → GateOut) : (s.modGate o g).pending = s.pending := rfl
@[simp] theorem State.modGate_status (s : State) (o : Fin 40) (g : GateOut → GateOut) : (s.modGate o g).status = s.status := rfl
@[simp] theorem State.modGate_tear (s : State) (o : Fin 40) (g : GateOut → GateOut) : (s.modGate o g).tear = s.tear := rfl
@[simp] theorem State.modGate_range (s : State) (o : Fin 40) (g : GateOut → GateOut) : (s.modGate o g).range = s.range := rfl
@[simp] theorem State.modGate_raised (s : State) (o : Fin 40) (g : GateOut → GateOut) : (s.modGate o g).raised = s.raised := rfl
@[simp] theorem State.modGate_guyFault (s : State) (o : Fin 40) (g : GateOut → GateOut) : (s.modGate o g).guyFault = s.guyFault := rfl
@[simp] theorem State.modGate_rails (s : State) (o : Fin 40) (g : GateOut → GateOut) : (s.modGate o g).rails = s.rails := rfl
@[simp] theorem State.modGate_fresh (s : State) (o : Fin 40) (g : GateOut → GateOut) : (s.modGate o g).fresh = s.fresh := rfl
@[simp] theorem State.modGate_dev (s : State) (o : Fin 40) (g : GateOut → GateOut) : (s.modGate o g).dev = s.dev := rfl
@[simp] theorem State.modGate_cl (s : State) (o : Fin 40) (g : GateOut → GateOut) : (s.modGate o g).cl = s.cl := rfl
@[simp] theorem State.modGate_bases (s : State) (o : Fin 40) (g : GateOut → GateOut) : (s.modGate o g).bases = s.bases := rfl
@[simp] theorem State.modGate_link (s : State) (o : Fin 40) (g : GateOut → GateOut) : (s.modGate o g).link = s.link := rfl
@[simp] theorem State.modGate_mc (s : State) (o : Fin 40) (g : GateOut → GateOut) : (s.modGate o g).mc = s.mc := rfl
@[simp] theorem State.modGate_sync (s : State) (o : Fin 40) (g : GateOut → GateOut) : (s.modGate o g).sync = s.sync := rfl
@[simp] theorem State.modGate_grp (s : State) (o : Fin 40) (g : GateOut → GateOut) : (s.modGate o g).grp = s.grp := rfl
@[simp] theorem State.modGate_gates (s : State) (o : Fin 40) (g : GateOut → GateOut) : (s.modGate o g).gates = upd s.gates o (g s.gates[o]) := rfl
@[simp] theorem State.modGate_axM (s : State) (o : Fin 40) (g : GateOut → GateOut) : (s.modGate o g).axM = s.axM := rfl
@[simp] theorem State.modGate_axS (s : State) (o : Fin 40) (g : GateOut → GateOut) : (s.modGate o g).axS = s.axS := rfl
@[simp] theorem State.modGate_stp (s : State) (o : Fin 40) (g : GateOut → GateOut) : (s.modGate o g).stp = s.stp := rfl
@[simp] theorem State.modGate_brake (s : State) (o : Fin 40) (g : GateOut → GateOut) : (s.modGate o g).brake = s.brake := rfl
@[simp] theorem State.modGate_die (s : State) (o : Fin 40) (g : GateOut → GateOut) : (s.modGate o g).die = s.die := rfl
@[simp] theorem State.modGate_ntc (s : State) (o : Fin 40) (g : GateOut → GateOut) : (s.modGate o g).ntc = s.ntc := rfl
@[simp] theorem State.modGate_rg (s : State) (o : Fin 40) (g : GateOut → GateOut) : (s.modGate o g).rg = s.rg := rfl
@[simp] theorem State.modGate_lanes (s : State) (o : Fin 40) (g : GateOut → GateOut) : (s.modGate o g).lanes = s.lanes := rfl
@[simp] theorem State.modGate_ready (s : State) (o : Fin 40) (g : GateOut → GateOut) : (s.modGate o g).ready = s.ready := rfl
@[simp] theorem State.modGate_runs (s : State) (o : Fin 40) (g : GateOut → GateOut) : (s.modGate o g).runs = s.runs := rfl
@[simp] theorem State.modGate_poolCyc (s : State) (o : Fin 40) (g : GateOut → GateOut) : (s.modGate o g).poolCyc = s.poolCyc := rfl
@[simp] theorem State.modGate_trace (s : State) (o : Fin 40) (g : GateOut → GateOut) : (s.modGate o g).trace = s.trace := rfl
@[simp] theorem State.modGate_atlChk (s : State) (o : Fin 40) (g : GateOut → GateOut) : (s.modGate o g).atlChk = s.atlChk := rfl
@[simp] theorem State.modGate_rowFlags (s : State) (o : Fin 40) (g : GateOut → GateOut) : (s.modGate o g).rowFlags = s.rowFlags := rfl
@[simp] theorem State.modGate_rowMap (s : State) (o : Fin 40) (g : GateOut → GateOut) : (s.modGate o g).rowMap = s.rowMap := rfl
@[simp] theorem State.modGate_rowDead (s : State) (o : Fin 40) (g : GateOut → GateOut) : (s.modGate o g).rowDead = s.rowDead := rfl
@[simp] theorem State.modGate_imgSheets (s : State) (o : Fin 40) (g : GateOut → GateOut) : (s.modGate o g).imgSheets = s.imgSheets := rfl
@[simp] theorem State.modGate_auto (s : State) (o : Fin 40) (g : GateOut → GateOut) : (s.modGate o g).auto = s.auto := rfl
@[simp] theorem State.modGate_boot (s : State) (o : Fin 40) (g : GateOut → GateOut) : (s.modGate o g).boot = s.boot := rfl
@[simp] theorem State.modGate_sec (s : State) (o : Fin 40) (g : GateOut → GateOut) : (s.modGate o g).sec = s.sec := rfl
@[simp] theorem State.modGate_log (s : State) (o : Fin 40) (g : GateOut → GateOut) : (s.modGate o g).log = s.log := rfl
@[simp] theorem State.modGate_hp (s : State) (o : Fin 40) (g : GateOut → GateOut) : (s.modGate o g).hp = s.hp := rfl
@[simp] theorem State.modGate_ports (s : State) (o : Fin 40) (g : GateOut → GateOut) : (s.modGate o g).ports = s.ports := rfl
@[simp] theorem State.modGate_mp (s : State) (o : Fin 40) (g : GateOut → GateOut) : (s.modGate o g).mp = s.mp := rfl
@[simp] theorem State.modGate_sp (s : State) (o : Fin 40) (g : GateOut → GateOut) : (s.modGate o g).sp = s.sp := rfl
@[simp] theorem State.modGate_can (s : State) (o : Fin 40) (g : GateOut → GateOut) : (s.modGate o g).can = s.can := rfl
@[simp] theorem State.modGate_data (s : State) (o : Fin 40) (g : GateOut → GateOut) : (s.modGate o g).data = s.data := rfl
@[simp] theorem State.modGate_authed (s : State) (o : Fin 40) (g : GateOut → GateOut) : (s.modGate o g).authed = s.authed := rfl
@[simp] theorem State.modGate_health (s : State) (o : Fin 40) (g : GateOut → GateOut) : (s.modGate o g).health = s.health := rfl
@[simp] theorem State.modGate_word (s : State) (o : Fin 40) (g : GateOut → GateOut) (key : Nat) : (s.modGate o g).word key = s.word key := rfl
@[simp] theorem State.modGate_f (s : State) (o : Fin 40) (g : GateOut → GateOut) (key : Nat) (x : Fld) : (s.modGate o g).f key x = s.f key x := rfl

/-! ## modRg -/

@[simp] theorem State.modRg_now (s : State) (r : Rg) (g : Region → Region) : (s.modRg r g).now = s.now := rfl
@[simp] theorem State.modRg_store (s : State) (r : Rg) (g : Region → Region) : (s.modRg r g).store = s.store := rfl
@[simp] theorem State.modRg_flash (s : State) (r : Rg) (g : Region → Region) : (s.modRg r g).flash = s.flash := rfl
@[simp] theorem State.modRg_pending (s : State) (r : Rg) (g : Region → Region) : (s.modRg r g).pending = s.pending := rfl
@[simp] theorem State.modRg_status (s : State) (r : Rg) (g : Region → Region) : (s.modRg r g).status = s.status := rfl
@[simp] theorem State.modRg_tear (s : State) (r : Rg) (g : Region → Region) : (s.modRg r g).tear = s.tear := rfl
@[simp] theorem State.modRg_range (s : State) (r : Rg) (g : Region → Region) : (s.modRg r g).range = s.range := rfl
@[simp] theorem State.modRg_raised (s : State) (r : Rg) (g : Region → Region) : (s.modRg r g).raised = s.raised := rfl
@[simp] theorem State.modRg_guyFault (s : State) (r : Rg) (g : Region → Region) : (s.modRg r g).guyFault = s.guyFault := rfl
@[simp] theorem State.modRg_rails (s : State) (r : Rg) (g : Region → Region) : (s.modRg r g).rails = s.rails := rfl
@[simp] theorem State.modRg_fresh (s : State) (r : Rg) (g : Region → Region) : (s.modRg r g).fresh = s.fresh := rfl
@[simp] theorem State.modRg_dev (s : State) (r : Rg) (g : Region → Region) : (s.modRg r g).dev = s.dev := rfl
@[simp] theorem State.modRg_cl (s : State) (r : Rg) (g : Region → Region) : (s.modRg r g).cl = s.cl := rfl
@[simp] theorem State.modRg_bases (s : State) (r : Rg) (g : Region → Region) : (s.modRg r g).bases = s.bases := rfl
@[simp] theorem State.modRg_link (s : State) (r : Rg) (g : Region → Region) : (s.modRg r g).link = s.link := rfl
@[simp] theorem State.modRg_mc (s : State) (r : Rg) (g : Region → Region) : (s.modRg r g).mc = s.mc := rfl
@[simp] theorem State.modRg_sync (s : State) (r : Rg) (g : Region → Region) : (s.modRg r g).sync = s.sync := rfl
@[simp] theorem State.modRg_grp (s : State) (r : Rg) (g : Region → Region) : (s.modRg r g).grp = s.grp := rfl
@[simp] theorem State.modRg_gates (s : State) (r : Rg) (g : Region → Region) : (s.modRg r g).gates = s.gates := rfl
@[simp] theorem State.modRg_axM (s : State) (r : Rg) (g : Region → Region) : (s.modRg r g).axM = s.axM := rfl
@[simp] theorem State.modRg_axS (s : State) (r : Rg) (g : Region → Region) : (s.modRg r g).axS = s.axS := rfl
@[simp] theorem State.modRg_stp (s : State) (r : Rg) (g : Region → Region) : (s.modRg r g).stp = s.stp := rfl
@[simp] theorem State.modRg_brake (s : State) (r : Rg) (g : Region → Region) : (s.modRg r g).brake = s.brake := rfl
@[simp] theorem State.modRg_die (s : State) (r : Rg) (g : Region → Region) : (s.modRg r g).die = s.die := rfl
@[simp] theorem State.modRg_ntc (s : State) (r : Rg) (g : Region → Region) : (s.modRg r g).ntc = s.ntc := rfl
@[simp] theorem State.modRg_rg (s : State) (r : Rg) (g : Region → Region) : (s.modRg r g).rg = upd s.rg r (g s.rg[r]) := rfl
@[simp] theorem State.modRg_lanes (s : State) (r : Rg) (g : Region → Region) : (s.modRg r g).lanes = s.lanes := rfl
@[simp] theorem State.modRg_ready (s : State) (r : Rg) (g : Region → Region) : (s.modRg r g).ready = s.ready := rfl
@[simp] theorem State.modRg_runs (s : State) (r : Rg) (g : Region → Region) : (s.modRg r g).runs = s.runs := rfl
@[simp] theorem State.modRg_poolCyc (s : State) (r : Rg) (g : Region → Region) : (s.modRg r g).poolCyc = s.poolCyc := rfl
@[simp] theorem State.modRg_trace (s : State) (r : Rg) (g : Region → Region) : (s.modRg r g).trace = s.trace := rfl
@[simp] theorem State.modRg_atlChk (s : State) (r : Rg) (g : Region → Region) : (s.modRg r g).atlChk = s.atlChk := rfl
@[simp] theorem State.modRg_rowFlags (s : State) (r : Rg) (g : Region → Region) : (s.modRg r g).rowFlags = s.rowFlags := rfl
@[simp] theorem State.modRg_rowMap (s : State) (r : Rg) (g : Region → Region) : (s.modRg r g).rowMap = s.rowMap := rfl
@[simp] theorem State.modRg_rowDead (s : State) (r : Rg) (g : Region → Region) : (s.modRg r g).rowDead = s.rowDead := rfl
@[simp] theorem State.modRg_imgSheets (s : State) (r : Rg) (g : Region → Region) : (s.modRg r g).imgSheets = s.imgSheets := rfl
@[simp] theorem State.modRg_auto (s : State) (r : Rg) (g : Region → Region) : (s.modRg r g).auto = s.auto := rfl
@[simp] theorem State.modRg_boot (s : State) (r : Rg) (g : Region → Region) : (s.modRg r g).boot = s.boot := rfl
@[simp] theorem State.modRg_sec (s : State) (r : Rg) (g : Region → Region) : (s.modRg r g).sec = s.sec := rfl
@[simp] theorem State.modRg_log (s : State) (r : Rg) (g : Region → Region) : (s.modRg r g).log = s.log := rfl
@[simp] theorem State.modRg_hp (s : State) (r : Rg) (g : Region → Region) : (s.modRg r g).hp = s.hp := rfl
@[simp] theorem State.modRg_ports (s : State) (r : Rg) (g : Region → Region) : (s.modRg r g).ports = s.ports := rfl
@[simp] theorem State.modRg_mp (s : State) (r : Rg) (g : Region → Region) : (s.modRg r g).mp = s.mp := rfl
@[simp] theorem State.modRg_sp (s : State) (r : Rg) (g : Region → Region) : (s.modRg r g).sp = s.sp := rfl
@[simp] theorem State.modRg_can (s : State) (r : Rg) (g : Region → Region) : (s.modRg r g).can = s.can := rfl
@[simp] theorem State.modRg_data (s : State) (r : Rg) (g : Region → Region) : (s.modRg r g).data = s.data := rfl
@[simp] theorem State.modRg_authed (s : State) (r : Rg) (g : Region → Region) : (s.modRg r g).authed = s.authed := rfl
@[simp] theorem State.modRg_health (s : State) (r : Rg) (g : Region → Region) : (s.modRg r g).health = s.health := rfl
@[simp] theorem State.modRg_word (s : State) (r : Rg) (g : Region → Region) (key : Nat) : (s.modRg r g).word key = s.word key := rfl
@[simp] theorem State.modRg_f (s : State) (r : Rg) (g : Region → Region) (key : Nat) (x : Fld) : (s.modRg r g).f key x = s.f key x := rfl

/-! ## modSync -/

@[simp] theorem State.modSync_now (s : State) (g : Sync → Sync) : (s.modSync g).now = s.now := rfl
@[simp] theorem State.modSync_store (s : State) (g : Sync → Sync) : (s.modSync g).store = s.store := rfl
@[simp] theorem State.modSync_flash (s : State) (g : Sync → Sync) : (s.modSync g).flash = s.flash := rfl
@[simp] theorem State.modSync_pending (s : State) (g : Sync → Sync) : (s.modSync g).pending = s.pending := rfl
@[simp] theorem State.modSync_status (s : State) (g : Sync → Sync) : (s.modSync g).status = s.status := rfl
@[simp] theorem State.modSync_tear (s : State) (g : Sync → Sync) : (s.modSync g).tear = s.tear := rfl
@[simp] theorem State.modSync_range (s : State) (g : Sync → Sync) : (s.modSync g).range = s.range := rfl
@[simp] theorem State.modSync_raised (s : State) (g : Sync → Sync) : (s.modSync g).raised = s.raised := rfl
@[simp] theorem State.modSync_guyFault (s : State) (g : Sync → Sync) : (s.modSync g).guyFault = s.guyFault := rfl
@[simp] theorem State.modSync_rails (s : State) (g : Sync → Sync) : (s.modSync g).rails = s.rails := rfl
@[simp] theorem State.modSync_fresh (s : State) (g : Sync → Sync) : (s.modSync g).fresh = s.fresh := rfl
@[simp] theorem State.modSync_dev (s : State) (g : Sync → Sync) : (s.modSync g).dev = s.dev := rfl
@[simp] theorem State.modSync_cl (s : State) (g : Sync → Sync) : (s.modSync g).cl = s.cl := rfl
@[simp] theorem State.modSync_bases (s : State) (g : Sync → Sync) : (s.modSync g).bases = s.bases := rfl
@[simp] theorem State.modSync_link (s : State) (g : Sync → Sync) : (s.modSync g).link = s.link := rfl
@[simp] theorem State.modSync_mc (s : State) (g : Sync → Sync) : (s.modSync g).mc = s.mc := rfl
@[simp] theorem State.modSync_sync (s : State) (g : Sync → Sync) : (s.modSync g).sync = g s.sync := rfl
@[simp] theorem State.modSync_grp (s : State) (g : Sync → Sync) : (s.modSync g).grp = s.grp := rfl
@[simp] theorem State.modSync_gates (s : State) (g : Sync → Sync) : (s.modSync g).gates = s.gates := rfl
@[simp] theorem State.modSync_axM (s : State) (g : Sync → Sync) : (s.modSync g).axM = s.axM := rfl
@[simp] theorem State.modSync_axS (s : State) (g : Sync → Sync) : (s.modSync g).axS = s.axS := rfl
@[simp] theorem State.modSync_stp (s : State) (g : Sync → Sync) : (s.modSync g).stp = s.stp := rfl
@[simp] theorem State.modSync_brake (s : State) (g : Sync → Sync) : (s.modSync g).brake = s.brake := rfl
@[simp] theorem State.modSync_die (s : State) (g : Sync → Sync) : (s.modSync g).die = s.die := rfl
@[simp] theorem State.modSync_ntc (s : State) (g : Sync → Sync) : (s.modSync g).ntc = s.ntc := rfl
@[simp] theorem State.modSync_rg (s : State) (g : Sync → Sync) : (s.modSync g).rg = s.rg := rfl
@[simp] theorem State.modSync_lanes (s : State) (g : Sync → Sync) : (s.modSync g).lanes = s.lanes := rfl
@[simp] theorem State.modSync_ready (s : State) (g : Sync → Sync) : (s.modSync g).ready = s.ready := rfl
@[simp] theorem State.modSync_runs (s : State) (g : Sync → Sync) : (s.modSync g).runs = s.runs := rfl
@[simp] theorem State.modSync_poolCyc (s : State) (g : Sync → Sync) : (s.modSync g).poolCyc = s.poolCyc := rfl
@[simp] theorem State.modSync_trace (s : State) (g : Sync → Sync) : (s.modSync g).trace = s.trace := rfl
@[simp] theorem State.modSync_atlChk (s : State) (g : Sync → Sync) : (s.modSync g).atlChk = s.atlChk := rfl
@[simp] theorem State.modSync_rowFlags (s : State) (g : Sync → Sync) : (s.modSync g).rowFlags = s.rowFlags := rfl
@[simp] theorem State.modSync_rowMap (s : State) (g : Sync → Sync) : (s.modSync g).rowMap = s.rowMap := rfl
@[simp] theorem State.modSync_rowDead (s : State) (g : Sync → Sync) : (s.modSync g).rowDead = s.rowDead := rfl
@[simp] theorem State.modSync_imgSheets (s : State) (g : Sync → Sync) : (s.modSync g).imgSheets = s.imgSheets := rfl
@[simp] theorem State.modSync_auto (s : State) (g : Sync → Sync) : (s.modSync g).auto = s.auto := rfl
@[simp] theorem State.modSync_boot (s : State) (g : Sync → Sync) : (s.modSync g).boot = s.boot := rfl
@[simp] theorem State.modSync_sec (s : State) (g : Sync → Sync) : (s.modSync g).sec = s.sec := rfl
@[simp] theorem State.modSync_log (s : State) (g : Sync → Sync) : (s.modSync g).log = s.log := rfl
@[simp] theorem State.modSync_hp (s : State) (g : Sync → Sync) : (s.modSync g).hp = s.hp := rfl
@[simp] theorem State.modSync_ports (s : State) (g : Sync → Sync) : (s.modSync g).ports = s.ports := rfl
@[simp] theorem State.modSync_mp (s : State) (g : Sync → Sync) : (s.modSync g).mp = s.mp := rfl
@[simp] theorem State.modSync_sp (s : State) (g : Sync → Sync) : (s.modSync g).sp = s.sp := rfl
@[simp] theorem State.modSync_can (s : State) (g : Sync → Sync) : (s.modSync g).can = s.can := rfl
@[simp] theorem State.modSync_data (s : State) (g : Sync → Sync) : (s.modSync g).data = s.data := rfl
@[simp] theorem State.modSync_authed (s : State) (g : Sync → Sync) : (s.modSync g).authed = s.authed := rfl
@[simp] theorem State.modSync_health (s : State) (g : Sync → Sync) : (s.modSync g).health = s.health := rfl
@[simp] theorem State.modSync_word (s : State) (g : Sync → Sync) (key : Nat) : (s.modSync g).word key = s.word key := rfl
@[simp] theorem State.modSync_f (s : State) (g : Sync → Sync) (key : Nat) (x : Fld) : (s.modSync g).f key x = s.f key x := rfl

/-! ## modHp -/

@[simp] theorem State.modHp_now (s : State) (g : HostPort → HostPort) : (s.modHp g).now = s.now := rfl
@[simp] theorem State.modHp_store (s : State) (g : HostPort → HostPort) : (s.modHp g).store = s.store := rfl
@[simp] theorem State.modHp_flash (s : State) (g : HostPort → HostPort) : (s.modHp g).flash = s.flash := rfl
@[simp] theorem State.modHp_pending (s : State) (g : HostPort → HostPort) : (s.modHp g).pending = s.pending := rfl
@[simp] theorem State.modHp_status (s : State) (g : HostPort → HostPort) : (s.modHp g).status = s.status := rfl
@[simp] theorem State.modHp_tear (s : State) (g : HostPort → HostPort) : (s.modHp g).tear = s.tear := rfl
@[simp] theorem State.modHp_range (s : State) (g : HostPort → HostPort) : (s.modHp g).range = s.range := rfl
@[simp] theorem State.modHp_raised (s : State) (g : HostPort → HostPort) : (s.modHp g).raised = s.raised := rfl
@[simp] theorem State.modHp_guyFault (s : State) (g : HostPort → HostPort) : (s.modHp g).guyFault = s.guyFault := rfl
@[simp] theorem State.modHp_rails (s : State) (g : HostPort → HostPort) : (s.modHp g).rails = s.rails := rfl
@[simp] theorem State.modHp_fresh (s : State) (g : HostPort → HostPort) : (s.modHp g).fresh = s.fresh := rfl
@[simp] theorem State.modHp_dev (s : State) (g : HostPort → HostPort) : (s.modHp g).dev = s.dev := rfl
@[simp] theorem State.modHp_cl (s : State) (g : HostPort → HostPort) : (s.modHp g).cl = s.cl := rfl
@[simp] theorem State.modHp_bases (s : State) (g : HostPort → HostPort) : (s.modHp g).bases = s.bases := rfl
@[simp] theorem State.modHp_link (s : State) (g : HostPort → HostPort) : (s.modHp g).link = s.link := rfl
@[simp] theorem State.modHp_mc (s : State) (g : HostPort → HostPort) : (s.modHp g).mc = s.mc := rfl
@[simp] theorem State.modHp_sync (s : State) (g : HostPort → HostPort) : (s.modHp g).sync = s.sync := rfl
@[simp] theorem State.modHp_grp (s : State) (g : HostPort → HostPort) : (s.modHp g).grp = s.grp := rfl
@[simp] theorem State.modHp_gates (s : State) (g : HostPort → HostPort) : (s.modHp g).gates = s.gates := rfl
@[simp] theorem State.modHp_axM (s : State) (g : HostPort → HostPort) : (s.modHp g).axM = s.axM := rfl
@[simp] theorem State.modHp_axS (s : State) (g : HostPort → HostPort) : (s.modHp g).axS = s.axS := rfl
@[simp] theorem State.modHp_stp (s : State) (g : HostPort → HostPort) : (s.modHp g).stp = s.stp := rfl
@[simp] theorem State.modHp_brake (s : State) (g : HostPort → HostPort) : (s.modHp g).brake = s.brake := rfl
@[simp] theorem State.modHp_die (s : State) (g : HostPort → HostPort) : (s.modHp g).die = s.die := rfl
@[simp] theorem State.modHp_ntc (s : State) (g : HostPort → HostPort) : (s.modHp g).ntc = s.ntc := rfl
@[simp] theorem State.modHp_rg (s : State) (g : HostPort → HostPort) : (s.modHp g).rg = s.rg := rfl
@[simp] theorem State.modHp_lanes (s : State) (g : HostPort → HostPort) : (s.modHp g).lanes = s.lanes := rfl
@[simp] theorem State.modHp_ready (s : State) (g : HostPort → HostPort) : (s.modHp g).ready = s.ready := rfl
@[simp] theorem State.modHp_runs (s : State) (g : HostPort → HostPort) : (s.modHp g).runs = s.runs := rfl
@[simp] theorem State.modHp_poolCyc (s : State) (g : HostPort → HostPort) : (s.modHp g).poolCyc = s.poolCyc := rfl
@[simp] theorem State.modHp_trace (s : State) (g : HostPort → HostPort) : (s.modHp g).trace = s.trace := rfl
@[simp] theorem State.modHp_atlChk (s : State) (g : HostPort → HostPort) : (s.modHp g).atlChk = s.atlChk := rfl
@[simp] theorem State.modHp_rowFlags (s : State) (g : HostPort → HostPort) : (s.modHp g).rowFlags = s.rowFlags := rfl
@[simp] theorem State.modHp_rowMap (s : State) (g : HostPort → HostPort) : (s.modHp g).rowMap = s.rowMap := rfl
@[simp] theorem State.modHp_rowDead (s : State) (g : HostPort → HostPort) : (s.modHp g).rowDead = s.rowDead := rfl
@[simp] theorem State.modHp_imgSheets (s : State) (g : HostPort → HostPort) : (s.modHp g).imgSheets = s.imgSheets := rfl
@[simp] theorem State.modHp_auto (s : State) (g : HostPort → HostPort) : (s.modHp g).auto = s.auto := rfl
@[simp] theorem State.modHp_boot (s : State) (g : HostPort → HostPort) : (s.modHp g).boot = s.boot := rfl
@[simp] theorem State.modHp_sec (s : State) (g : HostPort → HostPort) : (s.modHp g).sec = s.sec := rfl
@[simp] theorem State.modHp_log (s : State) (g : HostPort → HostPort) : (s.modHp g).log = s.log := rfl
@[simp] theorem State.modHp_hp (s : State) (g : HostPort → HostPort) : (s.modHp g).hp = g s.hp := rfl
@[simp] theorem State.modHp_ports (s : State) (g : HostPort → HostPort) : (s.modHp g).ports = s.ports := rfl
@[simp] theorem State.modHp_mp (s : State) (g : HostPort → HostPort) : (s.modHp g).mp = s.mp := rfl
@[simp] theorem State.modHp_sp (s : State) (g : HostPort → HostPort) : (s.modHp g).sp = s.sp := rfl
@[simp] theorem State.modHp_can (s : State) (g : HostPort → HostPort) : (s.modHp g).can = s.can := rfl
@[simp] theorem State.modHp_data (s : State) (g : HostPort → HostPort) : (s.modHp g).data = s.data := rfl
@[simp] theorem State.modHp_authed (s : State) (g : HostPort → HostPort) : (s.modHp g).authed = s.authed := rfl
@[simp] theorem State.modHp_health (s : State) (g : HostPort → HostPort) : (s.modHp g).health = s.health := rfl
@[simp] theorem State.modHp_word (s : State) (g : HostPort → HostPort) (key : Nat) : (s.modHp g).word key = s.word key := rfl
@[simp] theorem State.modHp_f (s : State) (g : HostPort → HostPort) (key : Nat) (x : Fld) : (s.modHp g).f key x = s.f key x := rfl

/-! ## modSec -/

@[simp] theorem State.modSec_now (s : State) (g : Sec → Sec) : (s.modSec g).now = s.now := rfl
@[simp] theorem State.modSec_store (s : State) (g : Sec → Sec) : (s.modSec g).store = s.store := rfl
@[simp] theorem State.modSec_flash (s : State) (g : Sec → Sec) : (s.modSec g).flash = s.flash := rfl
@[simp] theorem State.modSec_pending (s : State) (g : Sec → Sec) : (s.modSec g).pending = s.pending := rfl
@[simp] theorem State.modSec_status (s : State) (g : Sec → Sec) : (s.modSec g).status = s.status := rfl
@[simp] theorem State.modSec_tear (s : State) (g : Sec → Sec) : (s.modSec g).tear = s.tear := rfl
@[simp] theorem State.modSec_range (s : State) (g : Sec → Sec) : (s.modSec g).range = s.range := rfl
@[simp] theorem State.modSec_raised (s : State) (g : Sec → Sec) : (s.modSec g).raised = s.raised := rfl
@[simp] theorem State.modSec_guyFault (s : State) (g : Sec → Sec) : (s.modSec g).guyFault = s.guyFault := rfl
@[simp] theorem State.modSec_rails (s : State) (g : Sec → Sec) : (s.modSec g).rails = s.rails := rfl
@[simp] theorem State.modSec_fresh (s : State) (g : Sec → Sec) : (s.modSec g).fresh = s.fresh := rfl
@[simp] theorem State.modSec_dev (s : State) (g : Sec → Sec) : (s.modSec g).dev = s.dev := rfl
@[simp] theorem State.modSec_cl (s : State) (g : Sec → Sec) : (s.modSec g).cl = s.cl := rfl
@[simp] theorem State.modSec_bases (s : State) (g : Sec → Sec) : (s.modSec g).bases = s.bases := rfl
@[simp] theorem State.modSec_link (s : State) (g : Sec → Sec) : (s.modSec g).link = s.link := rfl
@[simp] theorem State.modSec_mc (s : State) (g : Sec → Sec) : (s.modSec g).mc = s.mc := rfl
@[simp] theorem State.modSec_sync (s : State) (g : Sec → Sec) : (s.modSec g).sync = s.sync := rfl
@[simp] theorem State.modSec_grp (s : State) (g : Sec → Sec) : (s.modSec g).grp = s.grp := rfl
@[simp] theorem State.modSec_gates (s : State) (g : Sec → Sec) : (s.modSec g).gates = s.gates := rfl
@[simp] theorem State.modSec_axM (s : State) (g : Sec → Sec) : (s.modSec g).axM = s.axM := rfl
@[simp] theorem State.modSec_axS (s : State) (g : Sec → Sec) : (s.modSec g).axS = s.axS := rfl
@[simp] theorem State.modSec_stp (s : State) (g : Sec → Sec) : (s.modSec g).stp = s.stp := rfl
@[simp] theorem State.modSec_brake (s : State) (g : Sec → Sec) : (s.modSec g).brake = s.brake := rfl
@[simp] theorem State.modSec_die (s : State) (g : Sec → Sec) : (s.modSec g).die = s.die := rfl
@[simp] theorem State.modSec_ntc (s : State) (g : Sec → Sec) : (s.modSec g).ntc = s.ntc := rfl
@[simp] theorem State.modSec_rg (s : State) (g : Sec → Sec) : (s.modSec g).rg = s.rg := rfl
@[simp] theorem State.modSec_lanes (s : State) (g : Sec → Sec) : (s.modSec g).lanes = s.lanes := rfl
@[simp] theorem State.modSec_ready (s : State) (g : Sec → Sec) : (s.modSec g).ready = s.ready := rfl
@[simp] theorem State.modSec_runs (s : State) (g : Sec → Sec) : (s.modSec g).runs = s.runs := rfl
@[simp] theorem State.modSec_poolCyc (s : State) (g : Sec → Sec) : (s.modSec g).poolCyc = s.poolCyc := rfl
@[simp] theorem State.modSec_trace (s : State) (g : Sec → Sec) : (s.modSec g).trace = s.trace := rfl
@[simp] theorem State.modSec_atlChk (s : State) (g : Sec → Sec) : (s.modSec g).atlChk = s.atlChk := rfl
@[simp] theorem State.modSec_rowFlags (s : State) (g : Sec → Sec) : (s.modSec g).rowFlags = s.rowFlags := rfl
@[simp] theorem State.modSec_rowMap (s : State) (g : Sec → Sec) : (s.modSec g).rowMap = s.rowMap := rfl
@[simp] theorem State.modSec_rowDead (s : State) (g : Sec → Sec) : (s.modSec g).rowDead = s.rowDead := rfl
@[simp] theorem State.modSec_imgSheets (s : State) (g : Sec → Sec) : (s.modSec g).imgSheets = s.imgSheets := rfl
@[simp] theorem State.modSec_auto (s : State) (g : Sec → Sec) : (s.modSec g).auto = s.auto := rfl
@[simp] theorem State.modSec_boot (s : State) (g : Sec → Sec) : (s.modSec g).boot = s.boot := rfl
@[simp] theorem State.modSec_sec (s : State) (g : Sec → Sec) : (s.modSec g).sec = g s.sec := rfl
@[simp] theorem State.modSec_log (s : State) (g : Sec → Sec) : (s.modSec g).log = s.log := rfl
@[simp] theorem State.modSec_hp (s : State) (g : Sec → Sec) : (s.modSec g).hp = s.hp := rfl
@[simp] theorem State.modSec_ports (s : State) (g : Sec → Sec) : (s.modSec g).ports = s.ports := rfl
@[simp] theorem State.modSec_mp (s : State) (g : Sec → Sec) : (s.modSec g).mp = s.mp := rfl
@[simp] theorem State.modSec_sp (s : State) (g : Sec → Sec) : (s.modSec g).sp = s.sp := rfl
@[simp] theorem State.modSec_can (s : State) (g : Sec → Sec) : (s.modSec g).can = s.can := rfl
@[simp] theorem State.modSec_data (s : State) (g : Sec → Sec) : (s.modSec g).data = s.data := rfl
@[simp] theorem State.modSec_authed (s : State) (g : Sec → Sec) : (s.modSec g).authed = s.authed := rfl
@[simp] theorem State.modSec_health (s : State) (g : Sec → Sec) : (s.modSec g).health = s.health := rfl
@[simp] theorem State.modSec_word (s : State) (g : Sec → Sec) (key : Nat) : (s.modSec g).word key = s.word key := rfl
@[simp] theorem State.modSec_f (s : State) (g : Sec → Sec) (key : Nat) (x : Fld) : (s.modSec g).f key x = s.f key x := rfl

/-! ## drawn -/

@[simp] theorem State.drawn_now (s : State) : (s.drawn).now = s.now := rfl
@[simp] theorem State.drawn_store (s : State) : (s.drawn).store = s.store := rfl
@[simp] theorem State.drawn_flash (s : State) : (s.drawn).flash = s.flash := rfl
@[simp] theorem State.drawn_pending (s : State) : (s.drawn).pending = s.pending := rfl
@[simp] theorem State.drawn_status (s : State) : (s.drawn).status = s.status := rfl
@[simp] theorem State.drawn_tear (s : State) : (s.drawn).tear = s.tear := rfl
@[simp] theorem State.drawn_range (s : State) : (s.drawn).range = s.range := rfl
@[simp] theorem State.drawn_raised (s : State) : (s.drawn).raised = s.raised := rfl
@[simp] theorem State.drawn_guyFault (s : State) : (s.drawn).guyFault = s.guyFault := rfl
@[simp] theorem State.drawn_rails (s : State) : (s.drawn).rails = s.rails := rfl
@[simp] theorem State.drawn_fresh (s : State) : (s.drawn).fresh = s.fresh + 1 := rfl
@[simp] theorem State.drawn_dev (s : State) : (s.drawn).dev = s.dev := rfl
@[simp] theorem State.drawn_cl (s : State) : (s.drawn).cl = s.cl := rfl
@[simp] theorem State.drawn_bases (s : State) : (s.drawn).bases = s.bases := rfl
@[simp] theorem State.drawn_link (s : State) : (s.drawn).link = s.link := rfl
@[simp] theorem State.drawn_mc (s : State) : (s.drawn).mc = s.mc := rfl
@[simp] theorem State.drawn_sync (s : State) : (s.drawn).sync = s.sync := rfl
@[simp] theorem State.drawn_grp (s : State) : (s.drawn).grp = s.grp := rfl
@[simp] theorem State.drawn_gates (s : State) : (s.drawn).gates = s.gates := rfl
@[simp] theorem State.drawn_axM (s : State) : (s.drawn).axM = s.axM := rfl
@[simp] theorem State.drawn_axS (s : State) : (s.drawn).axS = s.axS := rfl
@[simp] theorem State.drawn_stp (s : State) : (s.drawn).stp = s.stp := rfl
@[simp] theorem State.drawn_brake (s : State) : (s.drawn).brake = s.brake := rfl
@[simp] theorem State.drawn_die (s : State) : (s.drawn).die = s.die := rfl
@[simp] theorem State.drawn_ntc (s : State) : (s.drawn).ntc = s.ntc := rfl
@[simp] theorem State.drawn_rg (s : State) : (s.drawn).rg = s.rg := rfl
@[simp] theorem State.drawn_lanes (s : State) : (s.drawn).lanes = s.lanes := rfl
@[simp] theorem State.drawn_ready (s : State) : (s.drawn).ready = s.ready := rfl
@[simp] theorem State.drawn_runs (s : State) : (s.drawn).runs = s.runs := rfl
@[simp] theorem State.drawn_poolCyc (s : State) : (s.drawn).poolCyc = s.poolCyc := rfl
@[simp] theorem State.drawn_trace (s : State) : (s.drawn).trace = s.trace := rfl
@[simp] theorem State.drawn_atlChk (s : State) : (s.drawn).atlChk = s.atlChk := rfl
@[simp] theorem State.drawn_rowFlags (s : State) : (s.drawn).rowFlags = s.rowFlags := rfl
@[simp] theorem State.drawn_rowMap (s : State) : (s.drawn).rowMap = s.rowMap := rfl
@[simp] theorem State.drawn_rowDead (s : State) : (s.drawn).rowDead = s.rowDead := rfl
@[simp] theorem State.drawn_imgSheets (s : State) : (s.drawn).imgSheets = s.imgSheets := rfl
@[simp] theorem State.drawn_auto (s : State) : (s.drawn).auto = s.auto := rfl
@[simp] theorem State.drawn_boot (s : State) : (s.drawn).boot = s.boot := rfl
@[simp] theorem State.drawn_sec (s : State) : (s.drawn).sec = s.sec := rfl
@[simp] theorem State.drawn_log (s : State) : (s.drawn).log = s.log := rfl
@[simp] theorem State.drawn_hp (s : State) : (s.drawn).hp = s.hp := rfl
@[simp] theorem State.drawn_ports (s : State) : (s.drawn).ports = s.ports := rfl
@[simp] theorem State.drawn_mp (s : State) : (s.drawn).mp = s.mp := rfl
@[simp] theorem State.drawn_sp (s : State) : (s.drawn).sp = s.sp := rfl
@[simp] theorem State.drawn_can (s : State) : (s.drawn).can = s.can := rfl
@[simp] theorem State.drawn_data (s : State) : (s.drawn).data = s.data := rfl
@[simp] theorem State.drawn_authed (s : State) : (s.drawn).authed = s.authed := rfl
@[simp] theorem State.drawn_health (s : State) : (s.drawn).health = s.health := rfl
@[simp] theorem State.drawn_word (s : State) (key : Nat) : (s.drawn).word key = s.word key := rfl
@[simp] theorem State.drawn_f (s : State) (key : Nat) (x : Fld) : (s.drawn).f key x = s.f key x := rfl

end Sys2Proof.Machine
end

