-- ==== Sys2Proof/Tests/Slice0.lean ====
section
/-! SUPPORT. The model's own tests: small checks whose expected values the spec's worked examples give, and for every
statement that has premises, clause by clause, a state and operands that meet them. -/

namespace Sys2Proof.Tests

open Sys2Proof Sys2Proof.Machine

set_option Elab.async false
set_option cleanup.letToHave false

/-! ## States to test on -/

/-- The machine after reset, in READY or another device state. -/
def rdy (d : DState := .ready) : State := { State.reset with dev := { Dev.reset with st := d } }

/-- A cluster in a state. -/
def clu (s : State) (c : Cl) (st : CState) : State := s.modCl c fun x => { x with st := st }

/-- A motor cluster in converter personality with a partner. -/
def convOn (s : State) (n : Mcn) (p : Nat) : State :=
  let s := s.setF (mcB n) R.MC_STATE.personality 1
  let on (s : State) (b : Nat) : State := (s.setF b R.MC_CONV_CFG.personality 1).setF b R.MC_CONV_CFG.partner p
  on (on s (mcB n)) (eff (mcB n))

/-- Motor clusters 0 and 1 paired as one converter. -/
def pair (s : State) : State := convOn (convOn s 0 1) 1 0

/-- Clusters 0, 1 and 6 in one state. -/
def clus (s : State) (st : CState) : State := clu (clu (clu s 0 st) 1 st) 6 st

/-- A time long after every earlier one. -/
def late (s : State) : State := { s with now := 1000000000000 }

/-- An event source asserts. -/
def asserts (s : State) (e : Nat) : State := s.setWord (0x1018 + e / 32) (setBit (s.word (0x1018 + e / 32)) (e % 32) true)

/-- a graticule entry k of motor cluster 0, live, with a valid datum -/
def grat (s : State) (k : Fin 64) (ty dir a b : Nat) : State :=
  let on (s : State) (f : Fld) (v : Nat) := s.setF (mcSetB 0 false + 2 * k.val) f v
  ((on (on (on (on s R.MC_GRAT_CTL.type ty) R.MC_GRAT_CTL.dir dir) R.MC_GRAT_CTL.param_a a) R.MC_GRAT_CTL.step_or_b b).modEntry 0 k
    fun x => { x with live := true, edge := some 0 }).modDat 0 fun d => { d with valid := true, speed := 3276800 }

/-- The PWM of motor cluster 0 runs. -/
def pwmOn (s : State) (f : Pwm → Pwm := id) : State := s.modPwm 0 fun w => f { w with running := true }

/-- A sequencer with two regular entries and one injected. -/
def seqAt (b : Nat) (s : State) : State :=
  (((((s.setF b R.SEQ_CFG.reg_len 2).setF b R.SEQ_CFG.inj_len 1).setF b R.SEQ_CFG.reg_trig 7).setF b R.SEQ_CFG.inj_trig 7).setF b R.SEQ_DLY.reg_delay 3)

/-- The sequencers of motor cluster 0 and of the package group are set up. -/
def seq (s : State) : State := seqAt (grpB 8 + 0x40) (seqAt (mcSetB 0 false + 0xC00) s)

/-- Background calibration is enabled. -/
def cal (s : State) : State :=
  [(0 : Grp), 6, 8].foldl (fun s g => (s.setF (grpB g) R.SEN_CAL.cal_en 1).setF (grpB g) R.SEN_AMPCHK.amp_period 1) s

/-- Result buffers of sample memory. -/
def dma (s : State) : State :=
  [(0 : Grp), 6, 7].foldl (fun s g => ((s.setF (grpB g) R.SEN_DMA_BUF.length 16).setF (grpB g) R.SEN_DMA_BUF.base 0xFFF8).setF (grpB g) R.SEN_DMA_PTR.wptr 3) s

/-- A position source of a motor cluster. -/
def src (s : State) (n : Mcn) (k : Nat) : State := (s.setF (eff (mcB n)) R.MC_DAT_CFG.source k).setF (mcB n) R.MC_DAT_CFG.source k

/-- Lane 2 runs a job with captured inputs. -/
def lane (s : State) (j : JobId) (inp : List Int) : State :=
  { s with lanes := upd s.lanes 2 { s.lanes[2] with busy := some { what := { job := j, release := 0, num := 1, deadline := none, rerun := false }, start := 0, fin := 9, inp := inp, setB := false, banks := 0 } } }

/-- The estimator of motor cluster 0. -/
def est (s : State) (g : Est → Est) : State := s.modEst 0 g

/-- The datum of motor cluster 0 is valid and turns. -/
def dat (s : State) : State := s.modDat 0 fun d => { d with valid := true, speed := 3276800, angle := 12345678 }

/-- A field of the active set of motor cluster 0. -/
def act (s : State) (f : Fld) (v : Nat) : State := s.setF (mcSetB 0 false) f v

/-- A structure field of motor cluster 0. -/
def ef (s : State) (f : Fld) (v : Nat) : State := s.setF (eff (mcB 0)) f v

/-- State of a sheet. -/
def shst (s : State) (n v : Nat) : State := s.setWord (0x9100 + n / 16) (BitVec.ofNat 32 (v * 2 ^ (2 * (n % 16))))

/-- Staging registers of an axis. -/
def mo (s : State) (x : Axis) (v a : Nat) : State := ((s.setF (moB x) R.MO_VEL.vel v).setF (moB x) R.MO_ACC.acc a).setF (moB x) R.MO_TGT_LO.tgt 77

/-- Kind, route queue and pending commands of an axis. -/
def axk (s : State) (x : Axis) (k : AxKind) (q : List Waypoint := []) (c : List MoCmd := []) : State := s.modAx x fun y => { y with st := k, queue := q, cmds := c }

/-- A waypoint. -/
def wp : Waypoint := { tgt := 4294967296, v := 65536, a := 131072, dwell := 3, stop := true }

/-- A coil of stepper channel 0. -/
def coil (s : State) (g : Coil → Coil) : State := s.modCoil 0 0 g

/-- A gate output. -/
def gate (s : State) (o : Fin 40) (g : GateOut → GateOut) : State := s.modGate o g

/-- Both internal links are up. -/
def links (s : State) : State := { s with link := Vector.replicate 2 { Link.reset with lost := false } }

/-- The stored CRC of a sheet made right. -/
def crcOf (s : State) (n : Nat) : State := s.setWord (sheetAddr n + 255) (BitVec.ofNat 32 (crc32Words ((List.range 255).map (s.sheetWord n))))

/-- A sheet with a right CRC. -/
def good (s : State) (n w0 : Nat) : State := crcOf ((s.setWord (sheetAddr n) (BitVec.ofNat 32 w0)).setWord (sheetAddr n + 0x90) 12345) n

/-- The pager of motor cluster 0. -/
def pager (s : State) (g : Pager → Pager) : State := s.modMc 0 fun m => { m with atl := g m.atl }

/-- A fill of the pager. -/
def fl (cs : Cells) : Fill := { cells := cs, due := 3, sBin := 1, lBin := 1, qs := 0, ql := 0, first := none }

/-- A region of the bus supervision. -/
def ovs (s : State) (g : Region → Region) : State := s.modRg 0 g

/-- A slot of the flash holds words. -/
def flashed (s : State) (k : Fin 2) (ws : List Nat) : State :=
  { s with flash := ((ws.flatMap wordBytes).zip (List.range 4096)).foldl (fun m (b, i) => putByte m (slotBase k + i) (BitVec.ofNat 8 b)) s.flash }

/-- The boot code is in a phase. -/
def boot (s : State) (ph : BPhase) (g : Boot → Boot := id) : State := { s with boot := g { s.boot with phase := ph } }

/-- The security block. -/
def secs (s : State) (g : Sec → Sec) : State := { s with sec := g s.sec }

/-- Every cluster has a start rule. -/
def aut (s : State) (g : Auto → Auto) : State := { s with auto := Vector.replicate 8 (g { Auto.reset with rule := true }) }

/-- A command executes on the host port. -/
def ex (s : State) (chain wait : Bool) (st : Status := .ok) : State := { s with hp := { s.hp with exec := some { tag := 2, chain := chain, auth := false, st := st, tear := false, range := false, count := 1, data := [7], wait := wait } } }

/-- CAN controller 0 is in a mode and has left integration. -/
def can (s : State) (mode : Nat) : State := (((s.setF (canB 0) R.CAN_CTRL.mode mode).setF (canB 0) R.CAN_STAT.state 1).setF (canB 0) R.CAN_STAT.integrating 0).modCan 0 fun c => { c with mode := mode }

/-- A field of CAN controller 0. -/
def cr (s : State) (f : Fld) (v : Nat) : State := s.setF (canB 0) f v

/-- layout: 1 filter at 0, rx buffers at 0x100, fifo0 at 0x200, fifo1 at 0x300, tx at 0x400, routes at 0x600 -/
def lay (s : State) : State :=
  cr (cr (cr (cr (cr (cr (cr (cr (cr (cr (cr (cr s R.CAN_FLT.count 1) R.CAN_RXB.base 0x100) R.CAN_RXB.count 4) R.CAN_FIFO.base 0x200) R.CAN_FIFO.count 4)
    ⟨0xB, 0, 14⟩ 0x300) ⟨0xB, 14, 7⟩ 5) R.CAN_TXB.base 0x400) R.CAN_TXB.count 4) R.CAN_RT.base 0x600) R.CAN_RT.count 2) R.CAN_FLT.nm_dest 0

/-- A chain word with its CRC. -/
def fw (w : Nat) : Word := BitVec.ofNat 32 (w + crc4 w)

/-- A packet of three words with its CRC. -/
def pk3 (h : Nat) : List Word := [BitVec.ofNat 32 h, 1, BitVec.ofNat 32 (crc32Words [h, 1])]

/-- Stepper channel 0 is enabled. -/
def stp1 (s : State) : State := (((s.setF (eff (stB 0)) R.ST_CFG.enable 1).setF (stSetB 0 false) ⟨0,0,32⟩ 5000000).setF (stSetB 0 false) ⟨1,0,32⟩ 70000)

/-- A memory operation of the host waits or runs. -/
def nvm (s : State) (op : NvmOp) (busy : Bool) : State := { ex s false true with mp := { user := if busy then 4 else 0, op := some op, opAt := 0, busy := busy } }

/-- A classical frame. -/
def frm (id : Nat) (data : List (BitVec 8)) : Frame := { id := BitVec.ofNat 29 id, ext := false, fd := false, brs := false, esi := false, rtr := false, data := data }

/-- filter 0 accepts every 11-bit id: kind range 1? -/
def acc (s : State) (action idx : Nat) : State := ((s.setRam 0 (2 + action * 256 + idx * 4096)).setRam 1 0).setRam 2 0x7FF

/-- A transmit buffer of CAN controller 0. -/
def txb (s : State) (b : Fin 32) (g : TxBuf → TxBuf) : State := s.modTx 0 b g

/-- Route 0. -/
def rt (s : State) (w0 w1 : Nat) : State := ((s.setRam 0x600 w0).setRam 0x601 w1).setRam 0x602 1

/-- Time-triggered operation of CAN controller 0. -/
def tt (s : State) (role : Nat) : State := cr (cr (cr (cr s R.CAN_TT.role role) R.CAN_TT.n_cycles 3) R.CAN_TT2.base 0x800) R.CAN_TT.ref_buf 3

/-- A device swap that waits for a frame number. -/
def fr (s : State) (now at_ : Nat) : State := { ((s.setF pk R.DEV_SWAP.cluster_mask 1).setF pk R.DEV_SWAP.use_frame 1).setF pk R.DEV_SWAP.at_frame at_ with sync := { Sync.reset with frame := now } }

/-- An image of 22 words whose digest is right. -/
def tiny : List Nat := [0, 0, 88, 0, 0, 255] ++ [2174657758, 1144370428, 2647873415, 3361579533, 37998216, 183692761, 1831832644, 3147218995] ++ List.replicate 8 0

/-- An image whose header and one section are right; the bytes after it are erased. -/
def small : List Nat :=
  [0x49514C53, 0x01000001, 0x400, 5, 0x0648, 0x100FF, 0x100] ++ List.replicate 56 0 ++ [932267457, 1, 0x110, 8, 3109378863, 0x1000015, 0x2000000]

/-- A slot converts entry k of the regular sequence. -/
def converts (k : Nat) (c : Option (Conv × Nat)) : Bool := match c with | some (.reg j _ _, _) => j == k | _ => false

/-! ## Well-formed commands -/

/-- An 11-bit identifier above 0x7FF cannot stand on the bus (R407). -/
theorem smoke_identifier : (Instr.canFrameReceived 0 0 0 (frm 0x800 [])).wf = false := by decide

/-- No Classical frame has 9 data bytes (R407). -/
theorem smoke_length : (Instr.canFrameReceived 0 0 0 (frm 5 (List.replicate 9 0))).wf = false := by decide

/-- No FD frame has 9 data bytes (R413). -/
theorem smoke_fd_length :
    (Instr.canFrameReceived 0 0 0 { frm 5 (List.replicate 9 0) with fd := true }).wf = false := by decide

/-- A chain frame of 64 edges carries two words. -/
theorem smoke_chain : (Instr.chainFrame 0 64 [0]).wf = false := by decide
theorem smoke_packet : (Instr.packetFrame 0 32 [0, 0]).wf = false := by decide
theorem smoke_fifo_get : (Instr.fifoGetWrite 0 0 0 64).wf = false := by decide

/-- A frame that no bus can carry stops the machine by name. -/
theorem test_impossible_frame : exec (.canFrameReceived 0 0 0 (frm 0x800 [])) State.reset = .fault .illFormed := rfl

/-! ## The interface -/

theorem test_no_word_spells_a_command : decodeTableWord 32 0x10078005 = none := rfl
theorem test_idle : step State.reset = .next State.reset := rfl

/-! ## Worked examples of the spec -/

/-- The next state of a command, where there is one. -/
def after (c : Instr) (s : State) : State := match exec c s with | .next t => t | _ => s

/-- 14_serial_ports_and_lyjan: the chain word 0x1007_8005 has CRC 5, and the NOP 0x0000_0007 has 7. -/
theorem test_chain_crc : crc4 0x10078005 = 5 ∧ crc4 0x00000007 = 7 := by decide +kernel

/-- The published check value of CRC-32C, over the digits 1 to 9. -/
theorem test_crc32 : crc32 [0x31, 0x32, 0x33, 0x34, 0x35, 0x36, 0x37, 0x38, 0x39] = 0xE3069283 := by decide +kernel

/-- The published digest of the bytes "abc" begins with ba 78 16 bf. -/
theorem test_sha256 : (sha256 [0x61, 0x62, 0x63]).take 4 = [0xBA, 0x78, 0x16, 0xBF] := by decide +kernel

/-- 14_serial_ports_and_lyjan: frame 1 is a SPEED of 120 turns/s for MC0. -/
theorem test_chain_setpoint :
    let s := clus (rdy .run) .running
    let t := after (.chainFrame 0 32 [0x10078005]) (s.setF (s.moSet (.mc 0)) R.MO_VMAX.v_max 0x1000000)
    (t.axM[(0 : Mcn)]).cmds = [.speed (120 * 65536) 65536] := by decide +kernel

/-- 14_serial_ports_and_lyjan: a frame of 33 edges latches nothing; the next frame's status is FRAME_ERR. -/
theorem test_chain_edges : (after (.chainFrame 0 33 [0x10078005]) (rdy .run)).status = .frameErr := by decide +kernel

/-- 14_serial_ports_and_lyjan: a burst of six words from 0x10_0408 ends past the block with zeros and RANGE, status OK. -/
theorem test_burst_past_block :
    let t := after (.readBurst 0 0x100408 6) (clus (rdy .run) .running)
    (t.status, t.range, t.data.length) = (.ok, true, 6) := by decide +kernel

/-- The same burst as a packet, whose response is 0x0102_0006: OK, RANGE, tag 0, 6 words. -/
theorem test_burst_packet :
    ((after (.packetFrame 0 96 [0x30100408, 6, BitVec.ofNat 32 (crc32Words [0x30100408, 6])]) (clus (rdy .run) .running)).hp.exec).map
      (fun x => (x.st, x.range, x.tag, x.count)) = some (.ok, true, 0, 6) := by decide +kernel

/-- 12_faults_and_stewardship: EV079, EV109, EV204 and EV239. -/
theorem test_event_numbers : (evMc 0 19, evMc 1 22, evMc 5 9, evRg 0 1) = (79, 109, 204, 239) := by decide

/-- 04_current_and_voltage_sensing: code 10,103 is the left-justified result 0x9DDC. -/
theorem test_result_word : (resultWord 10103 0 0).toNat / 65536 = 0x9DDC := by decide

/-- 04_current_and_voltage_sensing: with scale 49,152 and zero 0 the lanes receive 93,929,472. -/
theorem test_current :
    ({ rdy with grp := upd rdy.grp 0 { rdy.grp[(0 : Grp)] with scale := 49152 } } : State).ampsOf 0 0 10103 = 93929472 := by
  decide +kernel

/-- 03_field_control_and_pwm, window case 1, phase U: edges at 12.50 us on both sides, without shift. -/
theorem test_window :
    let p := placePhase 400000 1600 16000 12000 134217728 0 0
    (p.shift, p.cUp, p.cDn, p.opened) = (0, 100000, 100000, true) := by decide +kernel

/-- 11_thermal_management: the steppers' k_i = 1 - 1 * 0.5, and k_f = 0.9 rounds to 14/16. -/
theorem test_derating : kiOf 1 1 2048 = 2048 ∧ kfOf 1 5 8 = 14 := by decide +kernel

/-- 08_motion_and_steppers: the blend from 600 to -600 steps/s at 4,000 steps/s^2 lasts 0.6 s (200 steps a turn). -/
theorem test_blend :
    (blendOf rdy (.st 6) false { tgt := 8589934592, v := 196608, a := 1310720, dwell := 0, stop := false }
      { tgt := 2147483648, v := 196608, a := 1310720, dwell := 0, stop := false }).2.2 = 300000000 := by decide +kernel

/-- 07_atlas_paging: at 414 Hz, 0.64 per unit and 55 degrees the cells 292 and 293 weigh 3/8 and 5/8. -/
theorem test_prefetch :
    let b := mcSetB 0 false
    let s := (((((((rdy.setF b R.MC_ATL_CFG.blend 1).setF b R.MC_ATL_CFG.n_spd 7).setF b R.MC_ATL_CFG.n_load 3).setF b
      R.MC_ATL_CFG.n_temp 1).setF b R.MC_ATL_AXIS.spd_w 1280).setF b R.MC_ATL_AXIS.load_w 1024).setF b
      R.MC_ATL_TEDGE.t_edge0 40).setWord (b + 0x2092) 0x11251124
    (s.evaluate b (414 * 65536) 171798692 (55 * 64) none 0).1.cells = [(24, some 0x124), (40, some 0x125)] := by
  decide +kernel

/-- 13_image_boot_and_security: the head of the Trailhead image. -/
theorem test_image_head :
    let h := [0x49514C53, 0x01000001, 0x600000, 42, 0x01000648, 0x00210300, 0x100, 0x54480001]
    (hdrLength h, hdrSequence h, hdrAutorun h, hdrKeySlot h, hdrRollback h, hdrSections h) = (0x600000, 42, true, 0, 3, 33) := by
  decide +kernel

/-- 15_can_fd: the pump speed request of 3,000 rpm is stored by its route as 0x0031_FCE0. -/
theorem test_pump_route :
    let s := (((((can (lay (clus (rdy .run) .running)) 1).setRam 0 0x401).setRam 1 0x2A0).setRam 2 0x7FF).setRam 0x600
      0x01008022).setRam 0x601 0x01F40000 |>.setRam 0x602 0x444
    ((after (.canFrameReceived 0 0 0 (frm 0x2A0 [0x0B, 0xB8, 0, 0, 0, 0, 0, 0])) s).can[(0 : Can)].routes[(0 : Fin 32)]).last
      = some 0x31FCE0 := by decide +kernel

/-! ## The premises of the statements are met

For each statement whose clauses have premises, one state with operands for each clause. -/

theorem witness_FrontCommandRuns : State.reset.pending = [] := rfl

theorem witness_WellFormedCommandsComplete : (Instr.canFrameReceived 0 2 0 (frm 0x7FF [1, 2, 3, 4, 5, 6, 7, 8])).wf = true := by
  decide

theorem witness_ImpossibleFrameFaults : (frm 0x800 []).ok = false := by decide

theorem witness_StepKeepsSound : (rdy.setWord 5 7).Sound ∧ ∃ t, step { rdy.setWord 5 7 with pending := [.arm 0 0] } = .next t :=
  ⟨by unfold State.Sound; decide +kernel, _, rfl⟩

theorem witness_LifecycleOnlyAdvances : ∃ t, step { rdy with pending := [.registerWrite 0 .host 0x4000 0] } = .next t := ⟨_, rfl⟩

theorem witness_ReadAfterWrite :
    R.DEV_SWAP.cluster_mask.lo + R.DEV_SWAP.cluster_mask.w ≤ 32
      ∧ (R.DEV_SWAP.at_frame.lo + R.DEV_SWAP.at_frame.w ≤ R.DEV_SWAP.cluster_mask.lo
        ∨ R.DEV_SWAP.cluster_mask.lo + R.DEV_SWAP.cluster_mask.w ≤ R.DEV_SWAP.at_frame.lo) := by decide

theorem witness_QuietEffectStands : (clus (rdy .run) .running).quiet := by unfold State.quiet; decide +kernel

theorem witness_TimePasses :
    (let s : State := rdy; let dt : Nat := 0;
      decide (((allMc.all fun n => (((s.mc[n]).pwm.edges).all fun e => decide (((s.now + dt : Nat) : Int) * 16 < e.1)) &&
      ((s.mc[n]).pulse.all fun x => decide (s.now + dt < x.2))) = true) ∧
      (∀ (k : Chan) (x : Fin 2), ((s.stp[k]).coils[x]).chop ≠ .fast))) = true := by decide +kernel

theorem witness_ArmMovesToArmed :
    (let s : State := clus rdy .stopped; let dt : Nat := 0; let c : Cl := 0; let cs : List Cl := [0];
      let u := s.elapse dt; let a := u.asked; decide (u.hostOpen ∧ a.armGroup c = some cs ∧
      (∀ x ∈ cs, (u.cl[x]).st = .stopped) ∧ u.dev.st ≠ .bivouac ∧ a.fb (rgB (clRg c)) R.RG_PS_STAT.bus_absent = false ∧
      ((cs.all fun x => (clMc x).all fun n => decide (a.known n = 0 ∧
      a.fb (mcB n) R.MC_GATE_SHORT.same_window = false)) = true) ∧ (∀ x ∈ cs, a.faultIn x 3 false = false) ∧
      (∀ x ∈ cs, a.armPort x = true) ∧ (∀ x ∈ cs, a.armReason x = 0))) = true := by decide +kernel

theorem witness_ArmChecksInOrder :
    (let s : State := clus rdy .stopped; let dt : Nat := 0; let c : Cl := 2; let cs : List Cl := [2];
      let u := s.elapse dt; let a := u.asked; decide (u.hostOpen ∧ a.armGroup c = some cs ∧
      (¬ ((∀ x ∈ cs, (u.cl[x]).st = .stopped) ∧ u.dev.st ≠ .bivouac)))) = true ∧
    (let s : State := (clus rdy .stopped).setF (rgB 0) R.RG_PS_STAT.bus_absent 1; let dt : Nat := 0; let c : Cl := 0;
      let cs : List Cl := [0]; let u := s.elapse dt; let a := u.asked; decide (u.hostOpen ∧ a.armGroup c = some cs ∧
      ((∀ x ∈ cs, (u.cl[x]).st = .stopped) ∧ u.dev.st ≠ .bivouac) ∧
      (¬ (a.fb (rgB (clRg c)) R.RG_PS_STAT.bus_absent = false)))) = true ∧
    (let s : State := (clus rdy .stopped).setF (mcB 0) R.MC_GATE_SHORT.same_window 1; let dt : Nat := 0; let c : Cl := 0;
      let cs : List Cl := [0]; let u := s.elapse dt; let a := u.asked; decide (u.hostOpen ∧ a.armGroup c = some cs ∧
      ((∀ x ∈ cs, (u.cl[x]).st = .stopped) ∧ u.dev.st ≠ .bivouac) ∧ (a.fb (rgB (clRg c)) R.RG_PS_STAT.bus_absent = false) ∧
      (¬ ((cs.all fun x => (clMc x).all fun n => decide (a.known n = 0 ∧
      a.fb (mcB n) R.MC_GATE_SHORT.same_window = false)) = true)))) = true ∧
    (let s : State := asserts (clus rdy .stopped) 5; let dt : Nat := 0; let c : Cl := 0; let cs : List Cl := [0];
      let u := s.elapse dt; let a := u.asked; decide (u.hostOpen ∧ a.armGroup c = some cs ∧
      ((∀ x ∈ cs, (u.cl[x]).st = .stopped) ∧ u.dev.st ≠ .bivouac) ∧ (a.fb (rgB (clRg c)) R.RG_PS_STAT.bus_absent = false) ∧
      ((cs.all fun x => (clMc x).all fun n => decide (a.known n = 0 ∧
      a.fb (mcB n) R.MC_GATE_SHORT.same_window = false)) = true) ∧ (¬ (∀ x ∈ cs, a.faultIn x 3 false = false)))) = true ∧
    (let s : State := (clus rdy .stopped).setF (mcB 0) R.MC_DAT_CFG.source 4; let dt : Nat := 0; let c : Cl := 0;
      let cs : List Cl := [0]; let u := s.elapse dt; let a := u.asked; decide (u.hostOpen ∧ a.armGroup c = some cs ∧
      ((∀ x ∈ cs, (u.cl[x]).st = .stopped) ∧ u.dev.st ≠ .bivouac) ∧ (a.fb (rgB (clRg c)) R.RG_PS_STAT.bus_absent = false) ∧
      ((cs.all fun x => (clMc x).all fun n => decide (a.known n = 0 ∧
      a.fb (mcB n) R.MC_GATE_SHORT.same_window = false)) = true) ∧ (∀ x ∈ cs, a.faultIn x 3 false = false) ∧
      (¬ (∀ x ∈ cs, a.armPort x = true)))) = true ∧
    (let s : State := pair (clus rdy .stopped); let dt : Nat := 0; let c : Cl := 0; let cs : List Cl := [0, 1];
      let u := s.elapse dt; let a := u.asked; decide (u.hostOpen ∧ a.armGroup c = some cs ∧
      ((∀ x ∈ cs, (u.cl[x]).st = .stopped) ∧ u.dev.st ≠ .bivouac) ∧ (a.fb (rgB (clRg c)) R.RG_PS_STAT.bus_absent = false) ∧
      ((cs.all fun x => (clMc x).all fun n => decide (a.known n = 0 ∧
      a.fb (mcB n) R.MC_GATE_SHORT.same_window = false)) = true) ∧ (∀ x ∈ cs, a.faultIn x 3 false = false) ∧
      (∀ x ∈ cs, a.armPort x = true)) && ((cs.find? (fun x => a.armReason x != 0)).any fun _ => true)) = true := by decide +kernel

theorem witness_RefusedStartsAndClears :
    (let s : State := clus rdy .stopping; let dt : Nat := 0; let c : Cl := 0; let cs : List Cl := [0];
      let u := s.elapse dt; let a := u.asked; decide (u.hostOpen ∧ a.cmdGroup c = some cs ∧
      (u.cl[c]).st = .stopping)) = true ∧
    (let s : State := pair (asserts (clus rdy .faulted) 5); let dt : Nat := 0; let c : Cl := 0;
      let cs : List Cl := [0, 1]; let u := s.elapse dt; let a := u.asked; decide (u.hostOpen ∧ a.cmdGroup c = some cs ∧
      (u.cl[c]).st = .faulted ∧ (∃ x ∈ cs, ∃ i ∈ List.range 256, a.asserted i = true ∧ 4 ≤ a.sev i ∧
      x ∈ a.inScope i))) = true ∧
    (let s : State := clus rdy .safe; let dt : Nat := 0; let c : Cl := 0; let cs : List Cl := [0]; let u := s.elapse dt;
      let a := u.asked; decide (u.hostOpen ∧ a.cmdGroup c = some cs ∧ (u.cl[c]).st = .safe)) = true := by decide +kernel

theorem witness_StateCommandsMove :
    (let s : State := clus rdy .armed; let dt : Nat := 0; let c : Cl := 0; let cs : List Cl := [0]; let u := s.elapse dt;
      let a := u.asked; decide (u.hostOpen ∧ a.cmdGroup c = some cs ∧ (u.cl[c]).st = .armed)) = true ∧
    (let s : State := clus rdy .armed; let dt : Nat := 0; let c : Cl := 0; let cs : List Cl := [0]; let u := s.elapse dt;
      let a := u.asked; decide (u.hostOpen ∧ a.cmdGroup c = some cs ∧ (u.cl[c]).st = .armed ∧
      (∀ x ∈ cs, a.coldBlocked x = false))) = true ∧
    (let s : State := clus rdy .starting; let dt : Nat := 0; let c : Cl := 0; let cs : List Cl := [0];
      let u := s.elapse dt; let a := u.asked; decide (u.hostOpen ∧ a.cmdGroup c = some cs ∧
      ((u.cl[c]).st = .starting ∨ (u.cl[c]).st = .running))) = true ∧
    (let s : State := clus rdy .armed; let dt : Nat := 0; let c : Cl := 0; let cs : List Cl := [0]; let u := s.elapse dt;
      let a := u.asked; decide (u.hostOpen ∧ a.cmdGroup c = some cs ∧ (u.cl[c]).st.active = true)) = true ∧
    (let s : State := clus rdy .faulted; let dt : Nat := 0; let c : Cl := 0; let cs : List Cl := [0];
      let u := s.elapse dt; let a := u.asked; decide (u.hostOpen ∧ a.cmdGroup c = some cs ∧ (u.cl[c]).st = .faulted ∧
      (∀ x ∈ cs, a.faultIn x 4 true = false))) = true := by decide +kernel

theorem witness_StateCommandsRefused :
    (let s : State := clus rdy .stopped; let dt : Nat := 0; let c : Cl := 0; let u := s.elapse dt; let st := (u.cl[c]).st;
      decide (u.hostOpen ∧ st ≠ .armed)) = true ∧
    (let s : State := clus rdy .stopped; let dt : Nat := 0; let c : Cl := 0; let u := s.elapse dt; let st := (u.cl[c]).st;
      decide (u.hostOpen ∧ st ≠ .armed ∧ st ≠ .stopping)) = true ∧
    (let s : State := clus rdy .stopped; let dt : Nat := 0; let c : Cl := 0; let u := s.elapse dt; let st := (u.cl[c]).st;
      decide (u.hostOpen ∧ st ≠ .starting ∧ st ≠ .running)) = true ∧
    (let s : State := clus rdy .stopped; let dt : Nat := 0; let c : Cl := 0; let u := s.elapse dt; let st := (u.cl[c]).st;
      decide (u.hostOpen ∧ st.active = false)) = true ∧
    (let s : State := clus rdy .stopped; let dt : Nat := 0; let c : Cl := 0; let u := s.elapse dt; let st := (u.cl[c]).st;
      decide (u.hostOpen ∧ st ≠ .faulted)) = true := by decide +kernel

theorem witness_TimeoutAndRestMove :
    (let s : State := late ((clus rdy .armed).setF (clB 0) R.MC_CTRL.arm_timeout 1); let dt : Nat := 0; let c : Cl := 0;
      let u := s.elapse dt; decide ((u.cl[c]).st = .armed ∧ u.f (clB c) R.MC_CTRL.arm_timeout ≠ 0 ∧
      (u.cl[c]).enteredAt + 50000000 * u.f (clB c) R.MC_CTRL.arm_timeout ≤ u.now)) = true ∧
    (let s : State := clus rdy .stopping; let dt : Nat := 0; let c : Cl := 6; let u := s.elapse dt; let cs := u.group c;
      decide (cs.all u.atRest = true ∧ (u.cl[c]).st = .stopping)) = true ∧
    (let s : State := clus rdy .safe; let dt : Nat := 0; let c : Cl := 6; let u := s.elapse dt; let cs := u.group c;
      decide (cs.all u.atRest = true ∧ (u.cl[c]).st = .safe)) = true ∧
    (let s : State := (clus rdy .armed); let dt : Nat := 0; let c : Cl := 0; let u := s.elapse dt; let cs := u.group c;
      decide (cs.all u.atRest = false)) = true := by decide +kernel

theorem witness_CopyShadowCopies :
    (let s : State := (clus rdy .stopped).setWord (mcSetB 0 false + 5) 77; let dt : Nat := 0; let c : Cl := 0;
      let cs : List Cl := [0]; let u := s.elapse dt; let a := u.asked; decide (u.hostOpen ∧ a.cmdGroup c = some cs ∧
      (u.cl[c]).st ≠ .unused ∧ (∀ x ∈ cs, a.setLocked x = false))) = true ∧
    (let s : State := ((clus rdy .running).setWord (mcSetB 0 false + 5) 77).modCl 0 fun x => { x with copying := true };
      let dt : Nat := 0; let c : Cl := 0; let u := s.elapse dt; decide (Memory.wf u.store = true ∧ (u.cl[c]).st ≠ .unused ∧
      (u.cl[c]).copying = true)) = true := by decide +kernel

theorem witness_ClusterSwap :
    (let s : State := (clus rdy .stopped).modCl 0 fun x => { x with copying := true }; let dt : Nat := 0; let c : Cl := 0;
      let cs : List Cl := [0]; let u := s.elapse dt; let a := u.asked; decide (u.hostOpen ∧ a.cmdGroup c = some cs ∧
      (∃ x ∈ cs, a.setLocked x = true))) = true ∧
    (let s : State := clus rdy .stopped; let dt : Nat := 0; let c : Cl := 0; let cs : List Cl := [0]; let ecc : Ecc := [];
      let u := s.elapse dt; let a := u.asked; let v := (a.discardAll cs).answer .ok; decide (u.hostOpen ∧
      a.cmdGroup c = some cs ∧ (∀ x ∈ cs, a.setLocked x = false) ∧ (∀ x ∈ cs, v.swapReason cs.contains x = 0) ∧
      (fillAll ecc cs v).2 = none)) = true ∧
    (let s : State := clus rdy .stopped; let dt : Nat := 0; let c : Cl := 2; let cs : List Cl := [2];
      let u := s.elapse dt; let a := u.asked; let v := (a.discardAll cs).answer .ok; decide (u.hostOpen ∧
      a.cmdGroup c = some cs ∧ (∀ x ∈ cs, a.setLocked x = false)) &&
      ((cs.find? (fun x => v.swapReason cs.contains x != 0)).any fun _ => true)) = true ∧
    (let s : State := clus rdy .stopped; let dt : Nat := 0; let c : Cl := 0; let u := s.elapse dt;
      decide ((u.cl[c]).st ≠ .unused)) = true := by decide +kernel

theorem witness_UndefinedCommandsRefused :
    (let s : State := clus rdy .stopped; let dt : Nat := 0; let u := s.elapse dt; decide (u.hostOpen)) = true := by decide +kernel

theorem witness_DeviceCommands :
    (let s : State := rdy; let dt : Nat := 0; let u := s.elapse dt; decide (u.hostOpen ∧ u.dev.st = .ready)) = true ∧
    (let s : State := rdy .bivouac; let dt : Nat := 0; let u := s.elapse dt; let a := u.asked; decide (u.hostOpen ∧
      u.dev.st = .bivouac ∧ a.haltAsserted = false)) = true ∧
    (let s : State := rdy; let dt : Nat := 0; let u := s.elapse dt; decide (u.hostOpen ∧
      (u.dev.st = .ready ∨ u.dev.st = .run))) = true ∧
    (let s : State := rdy .run; let dt : Nat := 0; let u := s.elapse dt; decide (u.hostOpen ∧ u.dev.st ≠ .ready)) = true ∧
    (let s : State := rdy .bivouac; let dt : Nat := 0; let u := s.elapse dt; decide (u.hostOpen ∧ u.dev.st ≠ .ready ∧
      u.dev.st ≠ .run)) = true ∧
    (let s : State := rdy; let dt : Nat := 0; let u := s.elapse dt; decide (u.hostOpen ∧ u.dev.st ≠ .bivouac)) = true := by decide +kernel

theorem witness_RecoverAndResumeRefused :
    (let s : State := clus rdy .running; let dt : Nat := 0; let u := s.elapse dt; decide (u.hostOpen ∧
      (∃ c : Cl, (u.cl[c]).st.active = true ∨ (u.cl[c]).st = .safe))) = true ∧
    (let s : State := asserts (rdy .bivouac) 5; let dt : Nat := 0; let u := s.elapse dt; let a := u.asked;
      decide (u.hostOpen ∧ u.dev.st = .bivouac ∧ (∃ i ∈ List.range 256, a.asserted i = true ∧ a.sev i = 5))) = true := by decide +kernel

theorem witness_RecoverLoadAndHold :
    (let s : State := rdy; let dt : Nat := 0; let u := s.elapse dt; decide (u.hostOpen ∧ u.dev.st ≠ .recovery ∧
      (∀ c : Cl, (u.cl[c]).st.active = false ∧ (u.cl[c]).st ≠ .safe))) = true ∧
    (let s : State := rdy .recovery; let dt : Nat := 0; let u := s.elapse dt; decide (u.hostOpen ∧ u.dev.st = .recovery ∧
      u.boot.phase = .idle)) = true ∧
    (let s : State := { (rdy .recovery) with boot := { Boot.reset with phase := .headers } }; let dt : Nat := 0;
      let u := s.elapse dt; decide (u.hostOpen ∧ u.dev.st = .recovery ∧ u.boot.phase ≠ .idle)) = true ∧
    (let s : State := rdy; let dt : Nat := 0; let hold : Bool := false; let u := s.elapse dt; decide (u.hostOpen ∧
      (hold = true ∨ ∀ c : Cl, (u.cl[c]).autoStart = false))) = true := by decide +kernel

theorem witness_SwapsExcludeEachOther :
    (let s : State := clus { rdy with dev := { rdy.dev with swap := some (1, none) } } .stopped; let dt : Nat := 0;
      let c : Cl := 0; let u := s.elapse dt; let a := u.asked; decide (u.hostOpen) &&
      ((u.dev.swap).any fun (m, _) => decide (bitAt m c.val = true ∧ a.cmdGroup c ≠ none))) = true ∧
    (let s : State := ((clus rdy .stopped).setF pk R.DEV_SWAP.cluster_mask 1).modCl 0 fun x => { x with swapPending := true };
      let dt : Nat := 0; let c : Cl := 0; let u := s.elapse dt; decide (u.hostOpen ∧
      bitAt (u.f pk R.DEV_SWAP.cluster_mask) c.val = true ∧ (u.cl[c]).swapPending = true)) = true := by decide +kernel

theorem witness_DeviceSwap :
    (let s : State := { (((clus rdy .stopped).setF pk R.DEV_SWAP.cluster_mask 1).setF pk R.DEV_SWAP.use_frame 1) with sync := { Sync.reset with lost := true } };
      let dt : Nat := 0; let u := s.elapse dt; let a := u.asked; let mask := u.f pk R.DEV_SWAP.cluster_mask;
      let cs := maskCls mask; let frame := u.fb pk R.DEV_SWAP.use_frame; decide (u.hostOpen ∧ u.dev.swap = none ∧
      (∀ x ∈ cs, a.setLocked x = false) ∧ frame = true ∧ u.sync.lost = true)) = true ∧
    (let s : State := ((clus rdy .stopped).setF pk R.DEV_SWAP.cluster_mask 1).setF pk R.DEV_SWAP.use_frame 1;
      let dt : Nat := 0; let u := s.elapse dt; let a := u.asked; let mask := u.f pk R.DEV_SWAP.cluster_mask;
      let cs := maskCls mask; let frame := u.fb pk R.DEV_SWAP.use_frame; decide (u.hostOpen ∧ u.dev.swap = none ∧
      (∀ x ∈ cs, a.setLocked x = false) ∧ frame = true ∧ u.sync.lost = false ∧ a.framePast = true)) = true ∧
    (let s : State := (clus rdy .stopped).setF pk R.DEV_SWAP.cluster_mask 0x4; let dt : Nat := 0; let u := s.elapse dt;
      let a := u.asked; let mask := u.f pk R.DEV_SWAP.cluster_mask; let cs := maskCls mask;
      let frame := u.fb pk R.DEV_SWAP.use_frame; let v := (a.discardAll cs).answer .ok;
      let reason (c : Cl) : Nat := if v.swapReason cs.contains c = 0 ∧ v.splitPair cs.contains c = true then 0xF else v.swapReason cs.contains c;
      decide (u.hostOpen ∧ u.dev.swap = none ∧ (∀ x ∈ cs, a.setLocked x = false) ∧ (frame = true → u.sync.lost = false ∧
      a.framePast = false)) && ((cs.find? (fun c => reason c != 0)).any fun _ => true)) = true ∧
    (let s : State := (clus rdy .stopped).setF pk R.DEV_SWAP.cluster_mask 1; let dt : Nat := 0; let ecc : Ecc := [];
      let u := s.elapse dt; let a := u.asked; let mask := u.f pk R.DEV_SWAP.cluster_mask; let cs := maskCls mask;
      let pkg := u.fb pk R.DEV_SWAP.package_set; let frame := u.fb pk R.DEV_SWAP.use_frame;
      let v := (a.discardAll cs).answer .ok;
      let reason (c : Cl) : Nat := if v.swapReason cs.contains c = 0 ∧ v.splitPair cs.contains c = true then 0xF else v.swapReason cs.contains c;
      decide (u.hostOpen ∧ u.dev.swap = none ∧ (∀ x ∈ cs, a.setLocked x = false) ∧ (frame = true → u.sync.lost = false ∧
      a.framePast = false) ∧ (∀ c ∈ cs, reason c = 0) ∧ (pkg = true → pkgReason v (pkgB (!u.dev.pkgB)) = 0) ∧
      (fillAll ecc cs v).2 = none)) = true ∧
    (let s : State := clus { rdy with dev := { rdy.dev with swap := some (1, none) } } .stopped; let dt : Nat := 0;
      let u := s.elapse dt; decide (u.dev.st ≠ .off) &&
      ((u.dev.swap).any fun (_, f) => decide (∀ k, f = some k → k = u.sync.frame % 256))) = true := by decide +kernel

theorem witness_BusesAndSupplies :
    (let s : State := rdy; let dt : Nat := 0; let u := s.elapse dt; decide (u.dev.st ≠ .off)) = true := by decide +kernel

theorem witness_Links :
    (let s : State := { rdy with link := Vector.replicate 2 { Link.reset with lost := false } }; let dt : Nat := 0;
      let d : Rg := 0; let u := s.elapse dt; decide (u.dev.st ≠ .off ∧ (u.link[d]).lost = false)) = true ∧
    (let s : State := { rdy with link := Vector.replicate 2 { Link.reset with lost := false } }; let dt : Nat := 0;
      let d : Rg := 0; let up : Bool := false; let l : Fin 5 := 0; let u := s.elapse dt; decide (u.dev.st ≠ .off ∧
      (u.link[d]).lost = false ∧ u.laneServes d (if up then 1 else 0) l.val = true)) = true ∧
    (let s : State := { rdy with link := Vector.replicate 2 { Link.reset with lost := false } }; let dt : Nat := 0;
      let d : Rg := 0; let up : Bool := false; let l : Fin 5 := 0; let u := s.elapse dt;
      let dir : Fin 2 := if up then 1 else 0; decide (u.dev.st ≠ .off ∧ (u.link[d]).lost = false ∧
      u.laneServes d dir l.val = true)) = true ∧
    (let s : State := rdy; let dt : Nat := 0; let d : Rg := 0; let u := s.elapse dt; decide (u.dev.st ≠ .off ∧
      (u.link[d]).lost = true)) = true := by decide +kernel

theorem witness_ResetAndRelease :
    (let s : State := rdy; let dt : Nat := 0; let u := s.elapse dt; decide (u.dev.st ≠ .off)) = true ∧
    (let s : State := State.reset; let dt : Nat := 0; let u := s.elapse dt; decide (u.dev.st = .off)) = true := by decide +kernel

theorem witness_SyncFrames :
    (let s : State := (rdy).setF pk R.DEV_SYS.sync_role 2; let dt : Nat := 0; let u := s.elapse dt; let y := u.sync;
      decide (u.syncRole = 2 ∧ (∀ t, y.expected = some t → t ≤ u.now + y.period * 5 ∧ u.now ≤ t + y.period * 5))) = true ∧
    (let s : State := { (rdy).setF pk R.DEV_SYS.sync_role 2 with sync := { Sync.reset with expected := some 50000, misses := 2, cfgDue := true, dueAt := some 3, comp := 2 } };
      let dt : Nat := 0; let u := s.elapse dt; let y := u.sync; decide (u.syncRole = 2) &&
      ((y.expected).any fun t => decide ((¬ (t ≤ u.now + y.period * 5 ∧ u.now ≤ t + y.period * 5)) ∧
      y.missNoted = false))) = true ∧
    (let s : State := (rdy).setF pk R.DEV_SYS.sync_role 2; let dt : Nat := 0; let u := s.elapse dt;
      decide (u.syncRole = 2)) = true ∧
    (let s : State := (rdy).setF pk R.DEV_SYS.sync_role 2; let dt : Nat := 0; let u := s.elapse dt;
      decide (u.frameDue = false)) = true ∧
    (let s : State := rdy; let dt : Nat := 0; let u := s.elapse dt; decide (u.dev.st ≠ .off ∧ u.frameDue = true)) = true := by decide +kernel

theorem witness_GraticuleEntries :
    (let s : State := clus rdy .running; let dt : Nat := 0; let n : Mcn := 0; let u := s.elapse dt;
      decide ((u.cl[mcCl n]).st ≠ .unused)) = true ∧
    (let s : State := grat (clus rdy .running) 0 5 3 0 0; let dt : Nat := 0; let n : Mcn := 0; let k : Fin 64 := 0;
      let u := s.elapse dt; decide ((u.cl[mcCl n]).st ≠ .unused ∧ u.gf n k R.MC_GRAT_CTL.type = 5 ∧
      (u.gDue n k).isSome = true ∧ (∀ j : Fin 64, j.val < k.val → u.gDue n j ≠ u.gDue n k) ∧ u.gActs n k = true)) = true := by decide +kernel

theorem witness_JobEntriesRelease :
    (let s : State := grat (clus rdy .running) 33 7 3 3 0; let dt : Nat := 0; let n : Mcn := 0; let k : Fin 64 := 33;
      let u := s.elapse dt; let x := (u.mc[n]).grat[k]; let a := u.gf n k R.MC_GRAT_CTL.param_a;
      decide ((u.cl[mcCl n]).st ≠ .unused ∧ u.gf n k R.MC_GRAT_CTL.type = 7 ∧ (u.gDue n k).isSome = true ∧
      (∀ j : Fin 64, j.val < k.val → u.gDue n j ≠ u.gDue n k) ∧ u.gActs n k = true ∧
      (x.lastFire.all fun t => decide (u.gf n k R.MC_GRAT_CTL.step_or_b ≠ 0 → 8000 ≤ u.now16 - t)) ∧ a ≠ 9 ∧
      (a ≠ 3 ∨ u.setFld n R.MC_LOOP_CFG.spd_src ≠ 1))) = true ∧
    (let s : State := grat ((clus rdy .running).setF (mcSetB 0 false) R.MC_ATL_CFG.en 1) 0 7 3 9 0; let dt : Nat := 0;
      let n : Mcn := 0; let k : Fin 64 := 0; let u := s.elapse dt; let x := (u.mc[n]).grat[k];
      let a := u.gf n k R.MC_GRAT_CTL.param_a; decide ((u.cl[mcCl n]).st ≠ .unused ∧ u.gf n k R.MC_GRAT_CTL.type = 7 ∧
      (u.gDue n k).isSome = true ∧ (∀ j : Fin 64, j.val < k.val → u.gDue n j ≠ u.gDue n k) ∧ u.gActs n k = true ∧
      (x.lastFire.all fun t => decide (u.gf n k R.MC_GRAT_CTL.step_or_b ≠ 0 → 8000 ≤ u.now16 - t)) ∧ a = 9 ∧
      u.jobAllowed (.atlas n) = true)) = true ∧
    (let s : State := grat ((clus rdy .running).setF (mcSetB 0 false) R.MC_LOOP_CFG.spd_src 1) 5 7 3 3 100;
      let dt : Nat := 0; let n : Mcn := 0; let k : Fin 64 := 5; let u := s.elapse dt; let x := (u.mc[n]).grat[k];
      let a := u.gf n k R.MC_GRAT_CTL.param_a; decide ((u.cl[mcCl n]).st ≠ .unused ∧ u.gf n k R.MC_GRAT_CTL.type = 7 ∧
      (u.gDue n k).isSome = true ∧ (∀ j : Fin 64, j.val < k.val → u.gDue n j ≠ u.gDue n k) ∧ u.gActs n k = true ∧
      (x.lastFire.all fun t => decide (u.gf n k R.MC_GRAT_CTL.step_or_b ≠ 0 → 8000 ≤ u.now16 - t)) ∧ a = 3 ∧
      u.setFld n R.MC_LOOP_CFG.spd_src = 1 ∧ u.jobAllowed (.spd n) = true)) = true := by decide +kernel

theorem witness_CarrierEvents :
    (let s : State := pwmOn (clus rdy .running); let dt : Nat := 0; let n : Mcn := 0; let u := s.elapse dt;
      let w := (u.mc[n]).pwm; decide ((u.cl[mcCl n]).st ≠ .unused ∧ u.conv n = false ∧ w.running = true ∧
      w.zeroAt + w.period ≤ u.now)) = true ∧
    (let s : State := pwmOn (clus rdy .running) (fun w => { w with rising := true, pend := some Compare.reset });
      let dt : Nat := 0; let n : Mcn := 0; let u := s.elapse dt; let w := (u.mc[n]).pwm;
      decide ((u.cl[mcCl n]).st ≠ .unused ∧ u.conv n = false ∧ w.running = true ∧ w.rising = true ∧
      w.zeroAt + w.period / 2 ≤ u.now)) = true ∧
    (let s : State := late (pwmOn ((pair (clus rdy .running)).modConv 0 fun c => { c with own := Vector.replicate 3 (0, 1), rise := Vector.replicate 3 true }));
      let dt : Nat := 0; let n : Mcn := 0; let p : Fin 3 := 0; let u := s.elapse dt; let w := (u.mc[n]).pwm;
      decide ((u.cl[mcCl n]).st ≠ .unused ∧ u.conv n = true ∧ w.running = true ∧ u.zeroDue n p = true)) = true ∧
    (let s : State := late (pwmOn ((pair (clus rdy .running)).modConv 0 fun c => { c with own := Vector.replicate 3 (0, 1), rise := Vector.replicate 3 true }));
      let dt : Nat := 0; let n : Mcn := 0; let p : Fin 3 := 0; let u := s.elapse dt; let w := (u.mc[n]).pwm;
      let c := (u.mc[n]).conv; decide ((u.cl[mcCl n]).st ≠ .unused ∧ u.conv n = true ∧ w.running = true ∧ c.rise[p] = true ∧
      (c.zAt[p] : Int) * 16 + c.len[p] / 2 ≤ u.now16)) = true ∧
    (let s : State := pwmOn (clus rdy .running) (fun w => { w with pend := some Compare.reset, kfNext := some 5 });
      let dt : Nat := 0; let n : Mcn := 0; let u := s.elapse dt; let w := (u.mc[n]).pwm;
      decide ((u.cl[mcCl n]).st ≠ .unused) && ((w.pend).any fun _ => true)) = true ∧
    (let s : State := pwmOn (clus rdy .running) (fun w => { w with pend := some Compare.reset, kfNext := some 5 });
      let dt : Nat := 0; let n : Mcn := 0; let u := s.elapse dt; let w := (u.mc[n]).pwm;
      decide ((u.cl[mcCl n]).st ≠ .unused) && ((w.kfNext).any fun _ => true)) = true := by decide +kernel

theorem witness_CrossingsAndSectors :
    (let s : State := pwmOn (grat (clus rdy .running) 0 5 3 0 0); let dt : Nat := 0; let n : Mcn := 0;
      let u := s.elapse dt; let m := u.mc[n]; decide ((u.cl[mcCl n]).st ≠ .unused ∧ m.dat.valid = true ∧ u.conv n = false ∧
      m.pwm.running = true ∧ (u.cl[mcCl n]).st.moving = true)) = true ∧
    (let s : State := pwmOn ((grat (clus rdy .running) 0 5 3 0 0).setF (eff (mcB 0)) R.MC_PWM_CTRL.family 2) (fun w => { w with sectorEnd := some 0 });
      let dt : Nat := 0; let n : Mcn := 0; let u := s.elapse dt; let m := u.mc[n]; decide ((u.cl[mcCl n]).st ≠ .unused ∧
      m.dat.valid = true ∧ u.sectorsByDatum n = true ∧ u.sectorDue n = true)) = true := by decide +kernel

theorem witness_ClearingWrites :
    (let s : State := clus rdy .running; let dt : Nat := 0; let n : Mcn := 0; let u := s.elapse dt; decide (u.hostOpen ∧
      (u.cl[mcCl n]).st ≠ .unused)) = true ∧
    (let s : State := pair (clus rdy .running); let dt : Nat := 0; let n : Mcn := 0; let u := s.elapse dt;
      decide (u.hostOpen ∧ (u.cl[mcCl n]).st ≠ .unused ∧ u.conv n = true)) = true ∧
    (let s : State := clus rdy .stopped; let dt : Nat := 0; let n : Mcn := 0; let u := s.elapse dt; decide (u.hostOpen ∧
      (u.cl[mcCl n]).st ≠ .unused ∧ ((u.cl[mcCl n]).st = .stopped ∨ (u.cl[mcCl n]).st = .faulted))) = true ∧
    (let s : State := clus rdy .running; let dt : Nat := 0; let n : Mcn := 0; let u := s.elapse dt; decide (u.hostOpen ∧
      (u.cl[mcCl n]).st ≠ .unused ∧ (u.cl[mcCl n]).st ≠ .stopped ∧ (u.cl[mcCl n]).st ≠ .faulted)) = true ∧
    (let s : State := rdy; let dt : Nat := 0; let g : Grp := 6; let u := s.elapse dt; decide (u.hostOpen ∧
      (∀ n, grpMc g = some n → (u.cl[mcCl n]).st ≠ .unused))) = true ∧
    (let s : State := rdy; let dt : Nat := 0; let r : Rg := 0; let u := s.elapse dt; decide (u.hostOpen ∧
      (u.rg[r]).vsTop = 0)) = true ∧
    (let s : State := (clus rdy .running).setF (rgB 0) R.RG_PS_STAT.ov3_latch 1; let dt : Nat := 0; let r : Rg := 0;
      let u := s.elapse dt; decide (u.hostOpen ∧ u.ov3 r = true ∧ (u.rg[r]).vsTop < 2)) = true ∧
    (let s : State := rdy; let dt : Nat := 0; let u := s.elapse dt; decide (u.hostOpen)) = true := by decide +kernel

theorem witness_SequencesRun :
    (let s : State := seq (clus rdy .running); let dt : Nat := 0; let g : Grp := 0; let inj : Bool := false;
      let u := s.elapse dt; let len := u.f (u.seqB g) (if inj then R.SEQ_CFG.inj_len else R.SEQ_CFG.reg_len);
      let trig := u.f (u.seqB g) (if inj then R.SEQ_CFG.inj_trig else R.SEQ_CFG.reg_trig);
      let q := if inj then (u.grp[g]).inj else (u.grp[g]).reg; decide ((u.senRuns g = true ∧ len ≠ 0 ∧
      u.trigLive g trig = true ∧ q.last ≠ some u.now) ∧ q.plan = [])) = true ∧
    (let s : State := seq (clus rdy .running); let dt : Nat := 0; let g : Grp := 0; let inj : Bool := false;
      let u := s.elapse dt; let len := u.f (u.seqB g) (if inj then R.SEQ_CFG.inj_len else R.SEQ_CFG.reg_len);
      let trig := u.f (u.seqB g) (if inj then R.SEQ_CFG.inj_trig else R.SEQ_CFG.reg_trig);
      let q := if inj then (u.grp[g]).inj else (u.grp[g]).reg; decide ((u.senRuns g = true ∧ len ≠ 0 ∧
      u.trigLive g trig = true ∧ q.last ≠ some u.now) ∧ q.plan = [] ∧ u.hostOpen ∧ trig = 7)) = true ∧
    (let s : State := { seq (clus rdy .running) with grp := (clus rdy .running).grp.map fun g => { g with inj := { plan := [(0, 0x13), (1, 2)], due := 0, pass := 7, last := none } } };
      let dt : Nat := 0; let g : Grp := 0; let inj : Bool := true; let u := s.elapse dt;
      let len := u.f (u.seqB g) (if inj then R.SEQ_CFG.inj_len else R.SEQ_CFG.reg_len);
      let trig := u.f (u.seqB g) (if inj then R.SEQ_CFG.inj_trig else R.SEQ_CFG.reg_trig);
      let q := if inj then (u.grp[g]).inj else (u.grp[g]).reg; decide ((u.senRuns g = true ∧ len ≠ 0 ∧
      u.trigLive g trig = true ∧ q.last ≠ some u.now) ∧ q.plan ≠ [])) = true ∧
    (let s : State := { clus rdy .running with grp := (clus rdy .running).grp.map fun g => { g with reg := { plan := [(0, 0x13), (1, 2)], due := 0, pass := 7, last := none } } };
      let dt : Nat := 0; let g : Grp := 0; let u := s.elapse dt; (match (u.grp[g]).reg.plan with
      | (_, _) :: rest => ((u.freeSlice g).any fun _ => decide ((u.grp[g]).reg.due ≤ u.now ∧ u.urgentDue g = false ∧
      (match grpMc g with | some n => decide ((u.cl[mcCl n]).st ≠ .unused) | none => decide (u.dev.st ≠ .off)) = true ∧
      rest ≠ []))
      | _ => false)) = true ∧
    (let s : State := { clus rdy .running with grp := (clus rdy .running).grp.map fun g => { g with urgent := [(0, .grat 7)], reg := { plan := [(0, 0x13), (1, 2)], due := 0, pass := 7, last := none } } };
      let dt : Nat := 0; let g : Grp := 0; let u := s.elapse dt; (match (u.grp[g]).urgent with
      | (t, _) :: _ => ((u.freeSlice g).any fun _ => decide ((match grpMc g with | some n => decide ((u.cl[mcCl n]).st ≠ .unused) | none => decide (u.dev.st ≠ .off)) = true ∧
      ((u.grp[g]).inj.plan = [] ∨ t ≤ (u.grp[g]).inj.due)))
      | _ => false)) = true := by decide +kernel

theorem witness_ResultsDelivered :
    (let s : State := { clus rdy .running with grp := (clus rdy .running).grp.map fun g => { g with slot := #v[some (.reg 0 0x13 1, 0), some (.reg 1 0x113 0, 1), some (.reg 15 1 1, 2)] } };
      let dt : Nat := 0; let g : Grp := 0; let k : Fin 16 := 0; let i : Fin 3 := 0; let u := s.elapse dt;
      decide ((match grpMc g with | some n => decide ((u.cl[mcCl n]).st ≠ .unused) | none => decide (u.dev.st ≠ .off)) = true) &&
      (match (u.grp[g]).slot[i] with
      | some (.reg k' x _, _) => decide (k' = k.val ∧ (∀ j : Fin 3, j ≠ i → converts k.val (u.grp[g]).slot[j] = false) ∧
      i ∈ seqSlices g ∧ (x % 64 = 0x13 ∨ grpMc g = none) ∧ bitAt x 6 = false ∧ bitAt x 7 = false)
      | _ => false)) = true := by decide +kernel

theorem witness_CalibrationAndAmplifiers :
    (let s : State := rdy; let dt : Nat := 0; let g : Grp := 6; let u := s.elapse dt; let b := grpB g;
      decide ((match grpMc g with | some n => decide ((u.cl[mcCl n]).st ≠ .unused) | none => decide (u.dev.st ≠ .off)) = true ∧
      u.fb b R.SEN_CAL.cal_en = true ∧ u.fb b R.SEN_ROLE.no_spare = false ∧ (u.grp[g]).shadow = false ∧
      u.worn (sliceUnit g (u.slice g (spareRole g))) = false)) = true ∧
    (let s : State := rdy; let dt : Nat := 0; let g : Grp := 6; let u := s.elapse dt; let b := grpB g;
      decide ((match grpMc g with | some n => decide ((u.cl[mcCl n]).st ≠ .unused) | none => decide (u.dev.st ≠ .off)) = true ∧
      u.fb b R.SEN_CAL.cal_en = true ∧ u.fb b R.SEN_ROLE.no_spare = false ∧ (u.grp[g]).shadow = false)) = true ∧
    (let s : State := { clus rdy .running with grp := (clus rdy .running).grp.map fun g => { g with shadow := true, calNext := 2 } };
      let dt : Nat := 0; let g : Grp := 0; let u := s.elapse dt;
      decide ((match grpMc g with | some n => decide ((u.cl[mcCl n]).st ≠ .unused) | none => decide (u.dev.st ≠ .off)) = true ∧
      (u.grp[g]).shadow = true ∧ u.roleBusy g (u.grp[g]).calNext = false)) = true ∧
    (let s : State := pwmOn (cal (clus rdy .running)); let dt : Nat := 0; let g : Grp := 0; let u := s.elapse dt;
      decide ((match grpMc g with | some n => decide ((u.cl[mcCl n]).st ≠ .unused) | none => decide (u.dev.st ≠ .off)) = true) &&
      ((grpMc g).any fun n => decide (u.ampSpare n = true ∧ (u.mc[n]).pwm.running = true ∧
      u.f (ampB n) R.SEN_AMPCHK.amp_period ≠ 0))) = true ∧
    (let s : State := pwmOn { (cal (clus rdy .running)) with grp := (clus rdy .running).grp.map fun g => { g with ampBusy := true, ampTurn := 2 } };
      let dt : Nat := 0; let g : Grp := 0; let u := s.elapse dt;
      decide ((match grpMc g with | some n => decide ((u.cl[mcCl n]).st ≠ .unused) | none => decide (u.dev.st ≠ .off)) = true) &&
      ((grpMc g).any fun _ => decide ((u.grp[g]).ampBusy = true))) = true ∧
    (let s : State := { (cal (clus rdy .running)) with grp := (clus rdy .running).grp.map fun g => { g with ampSwap := some 1 } };
      let dt : Nat := 0; let g : Grp := 0; let u := s.elapse dt;
      decide ((match grpMc g with | some n => decide ((u.cl[mcCl n]).st ≠ .unused) | none => decide (u.dev.st ≠ .off)) = true) &&
      ((grpMc g).any fun n => (((u.grp[g]).ampSwap).any fun _ => decide (u.ampSpare n = true)))) = true := by decide +kernel

theorem witness_DmaBuffer :
    (let s : State := { clus rdy .running with grp := (clus rdy .running).grp.map fun g => { g with fifo := [5] } };
      let dt : Nat := 0; let g : Grp := 0; let u := s.elapse dt; let len := Nat.max 1 (u.dmaLen g);
      decide ((match grpMc g with | some n => decide ((u.cl[mcCl n]).st ≠ .unused) | none => decide (u.dev.st ≠ .off)) = true ∧
      g ≠ 8) && (match (u.grp[g]).fifo with
      | [_] => decide (u.dmaFill g + 1 < len)
      | _ => false)) = true ∧
    (let s : State := { clus rdy .running with grp := (clus rdy .running).grp.map fun g => { g with fifo := [5] } };
      let dt : Nat := 0; let g : Grp := 0; let u := s.elapse dt;
      decide ((match grpMc g with | some n => decide ((u.cl[mcCl n]).st ≠ .unused) | none => decide (u.dev.st ≠ .off)) = true ∧
      g ≠ 8 ∧ u.hostOpen)) = true := by decide +kernel

theorem witness_SplitValueReads :
    (let s : State := rdy; let dt : Nat := 0; let a : BitVec 24 := 0x100045; let u := s.elapse dt; let lo := a.toNat;
      decide (u.dev.st ≠ .off ∧ u.hp.exec = none ∧ u.sec.life ≠ 2 ∧ implemented lo = true ∧ splitLo lo = true)) = true ∧
    (let s : State := rdy; let dt : Nat := 0; let a : BitVec 24 := 0x100046; let u := s.elapse dt; let lo := a.toNat;
      decide (u.dev.st ≠ .off ∧ u.hp.exec = none ∧ u.sec.life ≠ 2 ∧ implemented lo = true ∧ splitLo lo = false ∧
      splitHi lo = true)) = true := by decide +kernel

theorem witness_HallAndEncoder :
    (let s : State := src (clus rdy .running) 0 1; let dt : Nat := 0; let n : Mcn := 0; let u := s.elapse dt;
      decide ((u.cl[mcCl n]).st ≠ .unused ∧ u.source n = 1)) = true ∧
    (let s : State := est (dat (src (clus rdy .running) 0 1)) fun x => { x with hall := some 2, edges := [5, 3] };
      let dt : Nat := 0; let n : Mcn := 0; let u := s.elapse dt; let x := (u.mc[n]).est;
      decide ((u.cl[mcCl n]).st ≠ .unused ∧ u.source n = 1 ∧ x.hall.isSome = true ∧ ((u.mc[n]).dat).valid = true)) = true ∧
    (let s : State := pwmOn ((ef (src (clus rdy .running) 0 2) R.MC_PWM_CTRL.family 2).setF (mcB 0) R.MC_EST_STAT.enc_ref 1);
      let dt : Nat := 0; let n : Mcn := 0; let u := s.elapse dt; decide ((u.cl[mcCl n]).st ≠ .unused ∧ u.source n = 2 ∧
      u.f (mcB n) R.MC_EST_STAT.enc_ref = 1 ∧ u.sensorDrives n = true)) = true ∧
    (let s : State := pwmOn ((ef (src (clus rdy .running) 0 2) R.MC_PWM_CTRL.family 2).setF (mcB 0) R.MC_EST_STAT.enc_ref 1);
      let dt : Nat := 0; let n : Mcn := 0; let u := s.elapse dt; decide ((u.cl[mcCl n]).st ≠ .unused ∧
      u.source n = 2)) = true ∧
    (let s : State := ef (src (clus rdy .running) 0 2) R.MC_POS_ENC.z_en 1; let dt : Nat := 0; let n : Mcn := 0;
      let u := s.elapse dt; decide ((u.cl[mcCl n]).st ≠ .unused ∧ u.source n = 2 ∧ u.st n R.MC_POS_ENC.z_en = 1)) = true := by decide +kernel

theorem witness_AbsoluteSensors :
    (let s : State := (src (clus rdy .running) 0 3).setF (spB 0) R.SP_CFG.mode 2; let dt : Nat := 0; let p : Fin 2 := 0;
      let u := s.elapse dt; decide (u.dev.st ≠ .off ∧ u.portMode p = 2)) = true ∧
    (let s : State := { ((src (clus rdy .running) 0 3).setF (spB 0) R.SP_CFG.mode 2).setF (spB 0) R.SP_CFG.wlen 24 with sp := Vector.replicate 2 { SensPort.reset with new := true, good := true, word := 0x1234 } };
      let dt : Nat := 0; let p : Fin 2 := 0; let n : Mcn := 0; let u := s.elapse dt; decide (u.dev.st ≠ .off ∧
      (u.cl[mcCl n]).st ≠ .unused ∧ u.conv n = false ∧ sourcePort (u.source n) = some p ∧ u.portMode p = 2 ∧
      (u.sp[p]).new = true)) = true ∧
    (let s : State := ((src (clus rdy .running) 0 3).setF (spB 0) R.SP_CFG.mode 1).setF (spB 0) R.SP_CFG.wlen 32;
      let dt : Nat := 0; let p : Fin 2 := 0; let n : Mcn := 0; let w : Word := 0x80000001; let u := s.elapse dt;
      decide (u.dev.st ≠ .off ∧ (u.cl[mcCl n]).st ≠ .unused ∧ u.conv n = false ∧ sourcePort (u.source n) = some p ∧
      u.portMode p = 1 ∧ u.spCrcOk p (u.spWord p w) = true ∧ u.spStuck p (u.spWord p w) = false ∧
      bitAt (u.spWord p w) (u.st n R.MC_POS_SENS.ok_bit) = (u.st n R.MC_POS_SENS.ok_pol == 1))) = true := by decide +kernel

theorem witness_SensorlessStart :
    (let s : State := ef (clus rdy .running) R.MC_PWM_CTRL.family 2; let dt : Nat := 0; let n : Mcn := 0;
      let u := s.elapse dt; let x := (u.mc[n]).est; let st := (u.cl[mcCl n]).st; decide (st ≠ .unused ∧ u.foc n = false ∧
      u.conv n = false ∧ x.zcDone = false ∧ x.zcOver = false ∧ st.moving = true)) = true ∧
    (let s : State := est (clus rdy .starting) fun x => { x with fsOn := true }; let dt : Nat := 0; let n : Mcn := 0;
      let u := s.elapse dt; let st := (u.cl[mcCl n]).st; decide (st ≠ .unused ∧ u.fsRuns n = true)) = true ∧
    (let s : State := act ((clus rdy .starting).setF (mcB 0) R.MC_EST_STAT.phase 1) R.MC_START_CFG.find 1;
      let dt : Nat := 0; let n : Mcn := 0; let u := s.elapse dt; let x := (u.mc[n]).est; let st := (u.cl[mcCl n]).st;
      decide (st ≠ .unused ∧ u.estF n R.MC_EST_STAT.phase = 1 ∧ x.fsSeen = false ∧ ((u.mc[n]).dat).valid = false ∧
      u.setFld n R.MC_START_CFG.find = 1)) = true ∧
    (let s : State := act ((clus rdy .starting).setF (mcB 0) R.MC_EST_STAT.phase 2) R.MC_START_CFG.find 1;
      let dt : Nat := 0; let n : Mcn := 0; let u := s.elapse dt; let st := (u.cl[mcCl n]).st; decide (st ≠ .unused ∧
      u.estF n R.MC_EST_STAT.phase = 2 ∧ u.setFld n R.MC_START_CFG.find = 1 ∧ st = .starting)) = true ∧
    (let s : State := act (est ((clus rdy .starting).setF (mcB 0) R.MC_EST_STAT.phase 3) fun x => { x with polStep := 7 }) R.MC_START_CFG.find 2;
      let dt : Nat := 0; let n : Mcn := 0; let plus : Nat := 5; let minus : Nat := 5; let u := s.elapse dt;
      let x := (u.mc[n]).est; let st := (u.cl[mcCl n]).st; decide (st ≠ .unused ∧ u.estF n R.MC_EST_STAT.phase = 3 ∧
      st = .starting ∧ 6 < x.polStep ∧ 40 * ((plus : Int) - minus).natAbs < plus + minus)) = true ∧
    (let s : State := act (est ((clus rdy .starting).setF (mcB 0) R.MC_EST_STAT.phase 3) fun x => { x with polStep := 7 }) R.MC_START_CFG.find 2;
      let dt : Nat := 0; let n : Mcn := 0; let plus : Nat := 0; let minus : Nat := 0; let u := s.elapse dt;
      let x := (u.mc[n]).est; let st := (u.cl[mcCl n]).st; decide (st ≠ .unused ∧ u.estF n R.MC_EST_STAT.phase = 3 ∧
      st = .starting ∧ 6 < x.polStep ∧ plus + minus ≤ 40 * ((plus : Int) - minus).natAbs)) = true := by decide +kernel

theorem witness_FailuresAndRecovery :
    (let s : State := clus rdy .starting; let dt : Nat := 0; let n : Mcn := 0; let u := s.elapse dt;
      let x := (u.mc[n]).est; let st := (u.cl[mcCl n]).st; decide (st ≠ .unused ∧ st = .starting ∧ u.conv n = false ∧
      x.failed = false)) = true ∧
    (let s : State := est (act (clus rdy .starting) R.MC_START_CFG.fly 1) fun x => { x with failed := true };
      let dt : Nat := 0; let n : Mcn := 0; let u := s.elapse dt; let x := (u.mc[n]).est; let st := (u.cl[mcCl n]).st;
      decide (st ≠ .unused ∧ st = .starting ∧ u.conv n = false ∧ x.failed = true ∧
      u.setFld n R.MC_START_CFG.fly = 1)) = true ∧
    (let s : State := (est (act (clus rdy .running) R.MC_STALL_CFG.stall_t 1) fun x => { x with stallSince := some 3 }).tick 600000;
      let dt : Nat := 0; let n : Mcn := 0; let u := s.elapse dt; let x := (u.mc[n]).est; let st := (u.cl[mcCl n]).st;
      decide (st ≠ .unused) && ((x.stallSince).any fun t => decide (u.foc n = true ∧ u.conv n = false ∧ st.moving = true ∧
      t + max 1 (u.setFld n R.MC_STALL_CFG.stall_t) * 500000 ≤ u.now))) = true ∧
    (let s : State := est (clus rdy .running) fun x => { x with resume := some .coast, recPath := some .coast };
      let dt : Nat := 0; let n : Mcn := 0; let u := s.elapse dt; let x := (u.mc[n]).est; let st := (u.cl[mcCl n]).st;
      decide (st ≠ .unused) && ((x.resume).any fun _ => decide (x.recOver = false ∧
      (st = .starting ∨ st = .running)))) = true ∧
    (let s : State := est (clus rdy .running) fun x => { x with resume := some .coast, recPath := some .coast };
      let dt : Nat := 0; let n : Mcn := 0; let u := s.elapse dt; let x := (u.mc[n]).est; let st := (u.cl[mcCl n]).st;
      decide (st ≠ .unused ∧ x.recPath ≠ none ∧ x.again = false ∧ x.recOver = false)) = true := by decide +kernel

theorem witness_JobsRelease :
    (let s : State := clus rdy .running; let dt : Nat := 0; let j : JobId := .thermM 0; let u := s.elapse dt;
      decide (u.dev.st ≠ .off ∧ u.jobAllowed j = true ∧ u.jobDue j = true)) = true := by decide +kernel

theorem witness_LoopJobsPublish :
    (let s : State := lane (clus rdy .running) (.cur 0) []; let dt : Nat := 0; let n : Mcn := 0; let i : Fin 8 := 2;
      let r : Running := { what := { job := .cur 0, release := 0, num := 1, deadline := none, rerun := false }, start := 0, fin := 9, inp := [], setB := false, banks := 0 };
      let u := s.elapse dt; decide (u.dev.st ≠ .off ∧ (u.lanes[i]).busy = some r ∧ u.laneOf r.what.job = some i ∧
      u.overrun r = false ∧ r.what.job = .cur n)) = true ∧
    (let s : State := lane (clus rdy .running) (.obs 0) []; let dt : Nat := 0; let n : Mcn := 0; let i : Fin 8 := 2;
      let r : Running := { what := { job := .obs 0, release := 0, num := 1, deadline := none, rerun := false }, start := 0, fin := 9, inp := [], setB := false, banks := 0 };
      let u := s.elapse dt; decide (u.dev.st ≠ .off ∧ (u.lanes[i]).busy = some r ∧ u.laneOf r.what.job = some i ∧
      u.overrun r = false ∧ r.what.job = .obs n)) = true ∧
    (let s : State := lane (clus rdy .running) (.spd 0) []; let dt : Nat := 0; let n : Mcn := 0; let i : Fin 8 := 2;
      let r : Running := { what := { job := .spd 0, release := 0, num := 1, deadline := none, rerun := false }, start := 0, fin := 9, inp := [], setB := false, banks := 0 };
      let u := s.elapse dt; decide (u.dev.st ≠ .off ∧ (u.lanes[i]).busy = some r ∧ u.laneOf r.what.job = some i ∧
      u.overrun r = false ∧ r.what.job = .spd n)) = true ∧
    (let s : State := lane (clus rdy .running) (.pos 0) []; let dt : Nat := 0; let n : Mcn := 0; let i : Fin 8 := 2;
      let r : Running := { what := { job := .pos 0, release := 0, num := 1, deadline := none, rerun := false }, start := 0, fin := 9, inp := [], setB := false, banks := 0 };
      let u := s.elapse dt; decide (u.dev.st ≠ .off ∧ (u.lanes[i]).busy = some r ∧ u.laneOf r.what.job = some i ∧
      u.overrun r = false ∧ r.what.job = .pos n)) = true ∧
    (let s : State := lane (pair (clus rdy .running)) (.ccur 0) []; let dt : Nat := 0; let n : Mcn := 0;
      let i : Fin 8 := 2;
      let r : Running := { what := { job := .ccur 0, release := 0, num := 1, deadline := none, rerun := false }, start := 0, fin := 9, inp := [], setB := false, banks := 0 };
      let u := s.elapse dt; decide (u.dev.st ≠ .off ∧ (u.lanes[i]).busy = some r ∧ u.laneOf r.what.job = some i ∧
      u.overrun r = false ∧ r.what.job = .ccur n)) = true ∧
    (let s : State := lane (pair (clus rdy .running)) (.cvolt 0) []; let dt : Nat := 0; let n : Mcn := 0;
      let i : Fin 8 := 2;
      let r : Running := { what := { job := .cvolt 0, release := 0, num := 1, deadline := none, rerun := false }, start := 0, fin := 9, inp := [], setB := false, banks := 0 };
      let u := s.elapse dt; decide (u.dev.st ≠ .off ∧ (u.lanes[i]).busy = some r ∧ u.laneOf r.what.job = some i ∧
      u.overrun r = false ∧ r.what.job = .cvolt n)) = true := by decide +kernel

theorem witness_OtherJobsPublish :
    (let s : State := lane (clus rdy .running) (.prof (.mc 0)) []; let dt : Nat := 0; let i : Fin 8 := 2;
      let r : Running := { what := { job := .prof (.mc 0), release := 0, num := 1, deadline := none, rerun := false }, start := 0, fin := 9, inp := [], setB := false, banks := 0 };
      let a : Axis := .mc 0; let u := s.elapse dt; decide (u.dev.st ≠ .off ∧ (u.lanes[i]).busy = some r ∧
      u.laneOf r.what.job = some i ∧ u.overrun r = false ∧ r.what.job = .prof a)) = true ∧
    (let s : State := lane (clus rdy .running) (.thermM 0) []; let dt : Nat := 0; let i : Fin 8 := 2;
      let r : Running := { what := { job := .thermM 0, release := 0, num := 1, deadline := none, rerun := false }, start := 0, fin := 9, inp := [], setB := false, banks := 0 };
      let n : Mcn := 0; let u := s.elapse dt; decide (u.dev.st ≠ .off ∧ (u.lanes[i]).busy = some r ∧
      u.laneOf r.what.job = some i ∧ u.overrun r = false ∧ r.what.job = .thermM n)) = true ∧
    (let s : State := lane (clus rdy .running) (.thermR 0) []; let dt : Nat := 0; let i : Fin 8 := 2;
      let r : Running := { what := { job := .thermR 0, release := 0, num := 1, deadline := none, rerun := false }, start := 0, fin := 9, inp := [], setB := false, banks := 0 };
      let g : Rg := 0; let u := s.elapse dt; decide (u.dev.st ≠ .off ∧ (u.lanes[i]).busy = some r ∧
      u.laneOf r.what.job = some i ∧ u.overrun r = false ∧ r.what.job = .thermR g)) = true ∧
    (let s : State := lane (clus rdy .running) (.atlas 0) []; let dt : Nat := 0; let i : Fin 8 := 2;
      let r : Running := { what := { job := .atlas 0, release := 0, num := 1, deadline := none, rerun := false }, start := 0, fin := 9, inp := [], setB := false, banks := 0 };
      let n : Mcn := 0; let u := s.elapse dt; decide (u.dev.st ≠ .off ∧ (u.lanes[i]).busy = some r ∧
      u.laneOf r.what.job = some i ∧ u.overrun r = false ∧ r.what.job = .atlas n)) = true ∧
    (let s : State := lane (clus rdy .running) (.trace 1) []; let dt : Nat := 0; let i : Fin 8 := 2;
      let r : Running := { what := { job := .trace 1, release := 0, num := 1, deadline := none, rerun := false }, start := 0, fin := 9, inp := [], setB := false, banks := 0 };
      let x : Fin 4 := 1; let u := s.elapse dt; decide (u.dev.st ≠ .off ∧ (u.lanes[i]).busy = some r ∧
      u.laneOf r.what.job = some i ∧ u.overrun r = false ∧ r.what.job = .trace x)) = true ∧
    (let s : State := lane (clus rdy .running) (.ltest 2) []; let dt : Nat := 0; let i : Fin 8 := 2;
      let r : Running := { what := { job := .ltest 2, release := 0, num := 1, deadline := none, rerun := false }, start := 0, fin := 9, inp := [], setB := false, banks := 0 };
      let u := s.elapse dt; decide (u.dev.st ≠ .off ∧ (u.lanes[i]).busy = some r ∧ u.laneOf r.what.job = some i ∧
      u.overrun r = false ∧ r.what.job = .ltest i)) = true := by decide +kernel

theorem witness_FailedLanesRetire :
    (let s : State := (lane (clus rdy .running) (.cur 0) []).tick 20; let dt : Nat := 0; let i : Fin 8 := 2;
      let r : Running := { what := { job := .cur 0, release := 0, num := 1, deadline := none, rerun := false }, start := 0, fin := 9, inp := [], setB := false, banks := 0 };
      let u := s.elapse dt; decide (u.dev.st ≠ .off ∧ (u.lanes[i]).busy = some r ∧ (u.lanes[i]).st ≠ .retired ∧
      u.overrun r = true)) = true ∧
    (let s : State := (lane (clus rdy .running) (.ltest 2) []).tick 20; let dt : Nat := 0; let i : Fin 8 := 2;
      let r : Running := { what := { job := .ltest 2, release := 0, num := 1, deadline := none, rerun := false }, start := 0, fin := 9, inp := [], setB := false, banks := 0 };
      let u := s.elapse dt; decide (u.dev.st ≠ .off ∧ (u.lanes[i]).busy = some r ∧ (u.lanes[i]).st ≠ .retired ∧
      r.what.job = .ltest i)) = true := by decide +kernel

theorem witness_PoolMeasures :
    (let s : State := rdy; let dt : Nat := 0; let u := s.elapse dt; decide (u.dev.st ≠ .off)) = true ∧
    (let s : State := { rdy with lanes := Vector.replicate 8 { rdy.lanes[6] with st := .retired }, poolCyc := 500 };
      let dt : Nat := 0; let u := s.elapse dt; let ls := u.lanesIn; decide (u.dev.st ≠ .off ∧ ls = [])) = true ∧
    (let s : State := rdy; let dt : Nat := 0; let u := s.elapse dt; let ls := u.lanesIn; decide (u.dev.st ≠ .off ∧
      ls ≠ [])) = true := by decide +kernel

theorem witness_TraceCommands :
    (let s : State := rdy; let dt : Nat := 0; let x : Fin 4 := 0; let u := s.elapse dt;
      let st := u.f (trB x) R.TR_STAT.state; decide (u.hostOpen ∧ (st = 0 ∨ st = 3))) = true ∧
    (let s : State := (rdy.setF (trB 1) R.TR_TRIG.trig_src 1).setF (trB 1) R.TR_STAT.state 1; let dt : Nat := 0;
      let x : Fin 4 := 1; let u := s.elapse dt; let st := u.f (trB x) R.TR_STAT.state; decide (u.hostOpen ∧
      u.f (trB x) R.TR_TRIG.trig_src ≠ 0 ∧ st = 1)) = true ∧
    (let s : State := rdy; let dt : Nat := 0; let u := s.elapse dt; decide (u.hostOpen)) = true := by decide +kernel

theorem witness_SheetStore :
    (let s : State := shst rdy 8 3; let dt : Nat := 0; let off : Fin 0x100000 := 256*8; let u := s.elapse dt;
      let n := off.val / 256; decide (u.hostOpen ∧ (u.sheetSt n = 3 ∨ u.sheetInUse n = true))) = true ∧
    (let s : State := rdy; let dt : Nat := 0; let off : Fin 0x100000 := 0; let u := s.elapse dt; let n := off.val / 256;
      decide (u.hostOpen ∧ u.sheetSt n ≠ 3 ∧ u.sheetInUse n = false)) = true ∧
    (let s : State := rdy.setF pk R.ATL_CMD.busy 1; let dt : Nat := 0; let x : BitVec 12 := 0; let u := s.elapse dt;
      let n := x.toNat; decide (u.hostOpen ∧ (u.fb pk R.ATL_CMD.busy = true ∨ u.sheetInUse n = true))) = true ∧
    (let s : State := rdy; let dt : Nat := 0; let x : BitVec 12 := 0; let u := s.elapse dt; let n := x.toNat;
      decide (u.hostOpen ∧ u.fb pk R.ATL_CMD.busy = false ∧ u.sheetInUse n = false)) = true ∧
    (let s : State := { shst rdy 8 3 with atlChk := some 8 }; let dt : Nat := 0; let n : Nat := 8; let ecc : Ecc := [];
      let u := s.elapse dt; decide (u.dev.st ≠ .off ∧ n < 4096 ∧ u.atlChk = some n ∧
      ((ecc.all fun x => decide (x.1.val = n → x.2 = false)) = true))) = true ∧
    (let s : State := { shst rdy 8 3 with atlChk := some 8 }; let dt : Nat := 0; let n : Nat := 8;
      let ecc : Ecc := [(8, true)]; let u := s.elapse dt; decide (u.dev.st ≠ .off ∧ n < 4096 ∧ u.atlChk = some n ∧
      ((ecc.any fun x => decide (x.1.val = n ∧ x.2 = true)) = true))) = true := by decide +kernel

theorem witness_PagerAndRows :
    (let s : State := pager (clus rdy .running) fun p => { p with fill := some (fl []), dueAt := some 1 };
      let dt : Nat := 0; let n : Mcn := 0; let ecc : Ecc := [(8, true)]; let u := s.elapse dt; let m := u.mc[n];
      let p := m.atl;
      let good (k : Nat) : Bool := decide (((ecc.all fun x => decide (x.1.val = k → x.2 = false)) = true) ∧ u.sheetCrcOk k = true);
      decide ((u.cl[mcCl n]).st ≠ .unused) && ((p.fill).any fun f => decide (∀ k ∈ f.cells.sheets, good k))) = true ∧
    (let s : State := pager (clus rdy .running) fun p => { p with fill := some (fl [(64, some 8)]) }; let dt : Nat := 0;
      let n : Mcn := 0; let ecc : Ecc := [(8, true)]; let i : Nat := 0; let u := s.elapse dt; let m := u.mc[n];
      let p := m.atl;
      let good (k : Nat) : Bool := decide (((ecc.all fun x => decide (x.1.val = k → x.2 = false)) = true) ∧ u.sheetCrcOk k = true);
      decide ((u.cl[mcCl n]).st ≠ .unused) &&
      ((p.fill).any fun f => ((f.cells.sheets[i]?).any fun k => decide ((∀ x ∈ f.cells.sheets.take i, good x) ∧
      (¬ good k))))) = true ∧
    (let s : State := pager (clus rdy .running) fun p => { p with fill := some (fl []), dueAt := some 1 };
      let dt : Nat := 0; let n : Mcn := 0; let u := s.elapse dt; let m := u.mc[n]; let p := m.atl;
      decide ((u.cl[mcCl n]).st ≠ .unused ∧ p.fill ≠ none ∧ p.dueAt.isSome = true ∧
      u.fb (mcB n) R.MC_ATL_STAT.critical = false)) = true ∧
    (let s : State := ((pager (clus rdy .running) fun p => { p with held := some (fl [(64, some 8)]), dueAt := some 3 }).setF (mcB 0) R.MC_LOOP_BANK.pending 11).tick 5;
      let dt : Nat := 0; let n : Mcn := 0; let g : Fin 4 := 0; let f : Fill := fl [(64, some 8)]; let u := s.elapse dt;
      let m := u.mc[n]; let p := m.atl; decide ((u.cl[mcCl n]).st ≠ .unused ∧
      bitAt (u.f (mcB n) R.MC_LOOP_BANK.pending) g.val = true ∧ p.swap = none ∧ p.held = some f ∧ p.dueAt.isSome = true ∧
      (g.val < 2 ∨ u.f (mcB n) R.MC_LOOP_BANK.pending % 4 = 0))) = true ∧
    (let s : State := { rdy with rowFlags := [1, 511, 7], rowDead := (List.range 16).map (512 + ·) }; let dt : Nat := 0;
      let pos : Fin 512 := 1; let u := s.elapse dt; decide (u.dev.st ≠ .off ∧ pos.val ∈ u.rowFlags ∧
      u.rowSpares = [])) = true ∧
    (let s : State := { rdy with rowFlags := [0, 511, 7] }; let dt : Nat := 0; let pos : Fin 512 := 0;
      let u := s.elapse dt; decide (u.dev.st ≠ .off ∧ pos.val ∈ u.rowFlags) && (match u.rowSpares with
      | _ :: _ => true
      | _ => false)) = true := by decide +kernel

theorem witness_MotionCommandsAccepted :
    (let s : State := mo (mo (clus rdy .running) (.mc 0) 65536 65536) (.st 0) 65536 65536; let dt : Nat := 0;
      let u := s.elapse dt; decide (u.hostOpen)) = true := by decide +kernel

theorem witness_MotionCommandsRefused :
    (let s : State := rdy; let dt : Nat := 0; let u := s.elapse dt; decide (u.hostOpen)) = true := by decide +kernel

theorem witness_AxesAndCoils :
    (let s : State := (axk (clus rdy .running) (.mc 0) .route [wp]).modAx (.mc 0) fun y => { y with dwelling := true };
      let dt : Nat := 0; let x : Axis := .mc 0; let u := s.elapse dt; decide ((u.cl[axCl x]).st ≠ .unused ∧
      (u.ax x).st = .route ∧ (u.ax x).dwelling = true ∧ (u.ax x).dwellEnd ≤ u.now)) = true ∧
    (let s : State := late ((axk (clus rdy .running) (.st 0) .move []).modAx (.st 0) fun y => { y with p := 4294967296 * 5 });
      let dt : Nat := 0; let k : Chan := 0; let u := s.elapse dt; let p := u.stp[k];
      let t : Int := Nat.min 12500 (u.now - p.lineAt);
      let v := (p.lineFrom * (12500 - t) + (u.axS[k]).p * t - p.origin * 12500) * 256 * u.stepsRev k;
      let at_ (i : Int) : Int := i * turn * 12500;
      let nxt := nextPoint (gridOf p.level p.half) p.idx (decide (at_ p.idx < v)); decide ((u.cl[stCl k]).st ≠ .unused ∧
      (u.cl[stCl k]).st.moving = true ∧ p.emitAt + 250 ≤ u.now ∧ (at_ nxt - v).natAbs < (at_ p.idx - v).natAbs)) = true ∧
    (let s : State := (coil (clus rdy .running) fun c => { c with chop := .on }).tick 100000; let dt : Nat := 0;
      let k : Chan := 0; let x : Fin 2 := 0; let u := s.elapse dt; let p := u.stp[k]; let c := p.coils[x];
      decide ((u.cl[stCl k]).st ≠ .unused ∧ c.chop = .on ∧ c.phaseAt + u.chopBlank k ≤ u.now)) = true ∧
    (let s : State := (coil (clus rdy .running) fun c => { c with chop := .fast, ref := -5 }).tick 100000;
      let dt : Nat := 0; let k : Chan := 0; let x : Fin 2 := 0; let u := s.elapse dt; let p := u.stp[k];
      let c := p.coils[x]; decide ((u.cl[stCl k]).st ≠ .unused ∧ (c.chop = .fast ∨ c.chop = .slow) ∧
      c.phaseAt + u.chopOffTime k ≤ u.now)) = true ∧
    (let s : State := (coil (clus rdy .running) fun c => { c with chop := .zero, win := .waiting 0 }); let dt : Nat := 0;
      let k : Chan := 0; let x : Fin 2 := 0; let u := s.elapse dt; let p := u.stp[k]; let c := p.coils[x];
      decide ((u.cl[stCl k]).st ≠ .unused ∧ c.chop = .zero)) = true ∧
    (let s : State := late (coil (clus rdy .running) fun c => { c with win := .running 0 false, ref := 7 });
      let dt : Nat := 0; let k : Chan := 0; let x : Fin 2 := 0; let u := s.elapse dt; let p := u.stp[k];
      let c := p.coils[x]; decide ((u.cl[stCl k]).st ≠ .unused) && (match c.win with
      | .running t false => decide (t + 5000 * u.f (u.actSt k) R.ST_STALL.t_zcw ≤ u.now)
      | _ => false)) = true ∧
    (let s : State := { ((clus rdy .running).modAx (.st 0) fun y => { y with zeroAt := some 0 }) with now := 500000000000 };
      let dt : Nat := 0; let k : Chan := 0; let u := s.elapse dt; decide ((u.cl[stCl k]).st ≠ .unused) &&
      (((u.axS[k]).zeroAt).any fun t => decide ((u.axS[k]).v = 0 ∧
      t + u.f (u.actSt k) R.ST_STBY.t_standby * 500000 ≤ u.now))) = true := by decide +kernel

theorem witness_StepperBridges :
    (let s : State := clus rdy .running; let dt : Nat := 0; let h : Fin 16 := 0; let u := s.elapse dt;
      let k := bridgeChan h; decide (u.dev.st ≠ .off ∧ (u.cl[stCl k]).st ≠ .unused)) = true ∧
    (let s : State := clus rdy .running; let dt : Nat := 0; let h : Fin 16 := 0; let seg : Fin 18 := 0;
      let u := s.elapse dt; let k := bridgeChan h; let x := bridgeCoil h; let c := (u.stp[k]).coils[x];
      decide (u.dev.st ≠ .off ∧ (u.cl[stCl k]).st ≠ .unused ∧ bitAt c.inServ seg.val = true)) = true ∧
    (let s : State := coil (links (clus rdy .running)) fun c => { c with want := 2, inServ := 0xFFFC }; let dt : Nat := 0;
      let h : Fin 16 := 0; let u := s.elapse dt; let k := bridgeChan h; let x := bridgeCoil h; let c := (u.stp[k]).coils[x];
      decide (u.dev.st ≠ .off ∧ (u.cl[stCl k]).st ≠ .unused ∧ 0 < c.want ∧ u.bridgesOff k = true) &&
      (((List.range 18).find? (bitAt c.spare)).any fun _ => true)) = true := by decide +kernel

theorem witness_GateOutputs :
    (let o : Fin 40 := 0; let n : Mcn := 0; let sw : Fin 6 := 0; decide (outMc o = some (n, sw))) = true ∧
    (let s : State := gate (clus rdy .running) 0 fun g => { g with phase := .soft }; let dt : Nat := 0;
      let o : Fin 40 := 0; let u := s.elapse dt; let g := u.gates[o]; let past := g.cmdAt + u.phaseTicks o ≤ u.now;
      decide (¬ past)) = true ∧
    (let s : State := rdy; let dt : Nat := 0; let o : Fin 40 := 0; let u := s.elapse dt; let g := u.gates[o];
      let past := g.cmdAt + u.phaseTicks o ≤ u.now; decide (past ∧ (g.phase ≠ .soft ∨ outMc o = none))) = true ∧
    (let s : State := late (gate (clus rdy .running) 0 fun g => { g with phase := .soft }); let dt : Nat := 0;
      let o : Fin 40 := 0; let u := s.elapse dt; let g := u.gates[o]; let past := g.cmdAt + u.phaseTicks o ≤ u.now;
      decide (past ∧ g.phase = .soft)) = true ∧
    (let s : State := gate (clus rdy .running) 0 fun g => { g with phase := .on1 }; let dt : Nat := 0;
      let o : Fin 40 := 0; let sink : Bool := false; let k : Fin 36 := 0; let u := s.elapse dt; let g := u.gates[o];
      let d : Fin 2 := if sink then 1 else 0; decide (u.dev.st ≠ .off ∧ ((g.phase = .on1 ∨ g.phase = .on2) ∧
      sink = false ∨ g.phase = .off ∧ sink = true) ∧ bitAt g.inServ[d] k.val = true)) = true ∧
    (let s : State := (gate (clus rdy .running) 0 fun g => { g with phase := .onHold, want := Vector.replicate 2 2, spare := Vector.replicate 2 0x800000000, inServ := Vector.replicate 2 0xF }).tick 5000;
      let dt : Nat := 0; let o : Fin 40 := 0; let sink : Bool := false; let u := s.elapse dt; let g := u.gates[o];
      let d : Fin 2 := if sink then 1 else 0; decide (u.dev.st ≠ .off ∧ 0 < g.want[d] ∧
      (g.phase = .onHold ∨ g.phase = .offHold) ∧ g.endAt + 50 ≤ u.now) && ((lowBit g.spare[d]).any fun _ => true)) = true ∧
    (let s : State := (clus rdy .running).tick 100000; let dt : Nat := 0; let o : Fin 40 := 0; let n : Mcn := 0;
      let sw : Fin 6 := 0; let u := s.elapse dt; let g := u.gates[o]; decide (outMc o = some (n, sw) ∧
      g.cmdAt + 10 * u.f (u.act n) R.MC_GD_TIME.t_tr + 500 ≤ u.now)) = true ∧
    (let s : State := (clus rdy .running).tick 100000; let dt : Nat := 0; let o : Fin 40 := 36; let u := s.elapse dt;
      let g := u.gates[o]; decide (outMc o = none ∧
      g.cmdAt + 10 * u.ovF (outRg o) R.RG_BRK_DESAT.t_tr + 500 ≤ u.now)) = true := by decide +kernel

theorem witness_SwitchTrips :
    (let s : State := (gate (links (clus rdy .running)) 0 fun g => { g with phase := .on1 }).tick 100000;
      let dt : Nat := 0; let n : Mcn := 0; let sw : Fin 6 := 0; let u := s.elapse dt; let o := swOut n sw;
      let g := u.gates[o]; decide (g.phase.isOn = true ∧ g.cmdAt + u.blank n ≤ u.now)) = true ∧
    (let s : State := (gate (gate (links (clus rdy .running)) 0 fun g => { g with phase := .on1, cmdAt := 99700 }) 1 fun g => { g with phase := .onHold }).tick 100000;
      let dt : Nat := 0; let n : Mcn := 0; let sw : Fin 6 := 0; let u := s.elapse dt; let o := swOut n sw;
      let g := u.gates[o]; decide (g.phase.isOn = true ∧ g.cmdAt + u.blank n / 2 ≤ u.now ∧
      u.now ≤ g.cmdAt + u.blank n)) = true ∧
    (let s : State := (gate (links (clus rdy .running)) 36 fun g => { g with phase := .on1 }).tick 100000;
      let dt : Nat := 0; let r : Rg := 0; let u := s.elapse dt; let g := u.gates[brkOut r]; decide (g.phase.isOn = true ∧
      g.cmdAt + u.outBlank (brkOut r) ≤ u.now)) = true := by decide +kernel

theorem witness_GateSupplies :
    (let s : State := late ((clus rdy .armed).modMc 0 fun m => { m with precharge := true }); let dt : Nat := 0;
      let n : Mcn := 0; let u := s.elapse dt; decide ((u.cl[mcCl n]).st = .armed ∧ (u.mc[n]).precharge = true ∧
      (u.cl[mcCl n]).enteredAt + 5000 * u.f (u.act n) R.MC_GD_BST.pre_t ≤ u.now)) = true ∧
    (let s : State := (clus rdy .armed).modMc 0 fun m => { m with precharge := true }; let dt : Nat := 0;
      let n : Mcn := 0; let u := s.elapse dt; decide ((u.cl[mcCl n]).st ≠ .unused)) = true ∧
    (let s : State := late ((pwmOn (clus rdy .running)).modMc 0 fun m => { m with short := .entering true });
      let dt : Nat := 0; let n : Mcn := 0; let h : Bool := true; let u := s.elapse dt;
      decide ((u.mc[n]).short = .entering h ∧ (∀ sw ∈ sideSw (!h), (u.gates[swOut n sw]).phase ≠ .soft ∧
      (u.gates[swOut n sw]).cmdAt + u.f (u.act n) R.MC_PWM_DT.dead_time ≤ u.now))) = true ∧
    (let s : State := late (((pwmOn (links (clus rdy .running))).setF (mcB 0) R.MC_GATE_STAT.bst_uv 5).modMc 0 fun m => { m with short := .held true });
      let dt : Nat := 0; let n : Mcn := 0; let u := s.elapse dt; decide ((u.mc[n]).short = .held true ∧
      (∃ p : Fin 3, bitAt (u.f (mcB n) R.MC_GATE_STAT.bst_uv) p.val = true ∧ ((u.mc[n]).bstAt)[p] + 500000 ≤ u.now))) = true := by decide +kernel

theorem witness_OvervoltageLadder :
    (let s : State := ovs rdy id; let dt : Nat := 0; let r : Rg := 0; let u := s.elapse dt; decide (u.chopLives r = true ∧
      u.chopFaulty r = false)) = true ∧
    (let s : State := ovs rdy id; let dt : Nat := 0; let r : Rg := 0; let u := s.elapse dt;
      decide (u.chopLives r = true)) = true ∧
    (let s : State := ovs rdy id; let dt : Nat := 0; let r : Rg := 0; let u := s.elapse dt; decide (u.chopLives r = true ∧
      u.ov3 r = false)) = true ∧
    (let s : State := late ((ovs (clus rdy .running) fun r => { r with checks := [0] }).setF (rgB 0) R.RG_PS_STAT.ov2_act 1);
      let dt : Nat := 0; let r : Rg := 0; let u := s.elapse dt; let top := (u.rg[r]).vsTop; decide (u.chopLives r = true ∧
      u.ov2 r = true ∧ top = 0 ∧ (u.rg[r]).lowAt + 50000 * u.ovF r R.RG_OV_CFG.ov2_hold ≤ u.now)) = true ∧
    (let s : State := late (ovs (links (clus rdy .running)) fun r => { r with checks := [0, 7] }); let dt : Nat := 0;
      let r : Rg := 0; let before : Code := 0; let after : Code := 8192; let u := s.elapse dt; let b := rgB r;
      decide (u.chopLives r = true ∧ u.f b R.RG_PS_STAT.chop_noeffect = 0) && (match (u.rg[r]).checks with
      | t :: _ => let rose := (u.ovF r R.RG_OV_CFG.rise_tol : Int) * 10 < codeMv after.toNat - codeMv before.toNat;
      decide (t + 25000 ≤ u.now ∧ rose)
      | _ => false)) = true ∧
    (let s : State := late (ovs (links (clus rdy .running)) fun r => { r with checks := [0, 7] }); let dt : Nat := 0;
      let r : Rg := 0; let before : Code := 0; let after : Code := 0; let u := s.elapse dt; let b := rgB r;
      decide (u.chopLives r = true ∧ u.f b R.RG_PS_STAT.chop_noeffect = 0) && (match (u.rg[r]).checks with
      | t :: _ => let rose := (u.ovF r R.RG_OV_CFG.rise_tol : Int) * 10 < codeMv after.toNat - codeMv before.toNat;
      decide (t + 25000 ≤ u.now ∧ (¬ rose))
      | _ => false)) = true ∧
    (let s : State := late (ovs (clus rdy .running) fun r => { r with chopMin := true, chopWant := true });
      let dt : Nat := 0; let r : Rg := 0; let u := s.elapse dt; decide (u.chopLives r = true ∧ (u.rg[r]).chopMin = true ∧
      (u.rg[r]).chopAt + 1000 ≤ u.now)) = true := by decide +kernel

theorem witness_ReverseBatteryAndVlo :
    (let s : State := rdy; let dt : Nat := 0; let r : Rg := 0; let u := s.elapse dt; decide (u.rbgMay r = true)) = true ∧
    (let s : State := (rdy.setF (rgB 0) R.RG_RBG_CFG.rbg_en 1).setF (rgB 0) R.RG_PS_STAT.rbg_rev 1; let dt : Nat := 0;
      let r : Rg := 0; let u := s.elapse dt; let b := rgB r; decide (u.fb b R.RG_PS_STAT.rbg_rev = true)) = true ∧
    (let s : State := (pair (clus rdy .running)).setF (mcB 0) R.MC_CONV_VLO.vlo 100000; let dt : Nat := 0;
      let n : Mcn := 0; let u := s.elapse dt; decide ((u.cl[mcCl n]).st ≠ .unused ∧ u.conv n = true ∧
      (u.mc[n]).precharge = false ∧ (u.setFld n R.MC_CV_VLIM.vlo_ov : Int) * 10 < u.vlo n)) = true ∧
    (let s : State := late (((pair (clus (links rdy) .running)).setF (mcB 0) R.MC_CONV_STAT.vlo_off 1).modConv 0 fun c => { c with ovLow := some 0 });
      let dt : Nat := 0; let n : Mcn := 0; let u := s.elapse dt; decide ((u.cl[mcCl n]).st ≠ .unused ∧ u.conv n = true ∧
      u.fb (mcB n) R.MC_CONV_STAT.vlo_off = true) &&
      (((u.mc[n]).conv.ovLow).any fun t => decide (t + 500000 ≤ u.now))) = true := by decide +kernel

theorem witness_ThermalPass :
    (let s : State := rdy; let dt : Nat := 0; let u := s.elapse dt; decide (u.dev.st ≠ .off)) = true := by decide +kernel

theorem witness_ColdBlockEnds :
    (let s : State := (clus (rdy .run) .armed).modCl 0 (fun x => { x with heldStart := true }); let dt : Nat := 0;
      let c : Cl := 0; let u := s.elapse dt; let cs := (u.cmdGroup c).getD [c]; decide ((u.cl[c]).heldStart = true ∧
      (u.cl[c]).st = .armed ∧ u.f pk R.DEV_BOOT_CTRL.auto_hold = 0 ∧ (∀ x ∈ cs, u.coldBlocked x = false))) = true := by decide +kernel

theorem witness_FaultSources :
    (let s : State := rdy; let dt : Nat := 0; let u := s.elapse dt; decide (u.dev.st ≠ .off)) = true ∧
    (let s : State := rdy; let dt : Nat := 0; let x : BitVec 8 := 0; let u := s.elapse dt; let i := x.toNat;
      decide (u.dev.st ≠ .off ∧ i ∉ u.guyFault)) = true ∧
    (let s : State := { links rdy with guyFault := [7, 1], rails := [1, 7] }; let dt : Nat := 0; let x : BitVec 8 := 1;
      let u := s.elapse dt; let i := x.toNat; decide (u.dev.st ≠ .off ∧ i ∈ u.guyFault)) = true := by decide +kernel

theorem witness_ClockLanternAndFaultN :
    (let s : State := rdy; let dt : Nat := 0; let u := s.elapse dt; decide (u.dev.st ≠ .off)) = true ∧
    (let s : State := rdy; let dt : Nat := 0; let u := s.elapse dt; decide (u.dev.st ≠ .off ∧
      u.dev.rcClock = false)) = true ∧
    (let s : State := { rdy with now := 500000000, dev := { rdy.dev with lantern := true } }; let dt : Nat := 0;
      let u := s.elapse dt; decide (u.dev.st ≠ .off ∧ u.dev.lantern = true)) = true ∧
    (let s : State := rdy; let dt : Nat := 0; let u := s.elapse dt; decide (u.dev.st ≠ .off ∧ u.faultNOut = false)) = true := by decide +kernel

theorem witness_LogbookWrites :
    (let s : State := { rdy with log := { rdy.log with opTicks := 1800000000000 } }; let dt : Nat := 0;
      let u := s.elapse dt; decide (u.dev.st.operates = true ∧ (u.log.hours + 1) * 1800000000000 ≤ u.log.opTicks)) = true ∧
    (let s : State := rdy; let dt : Nat := 0; let u := s.elapse dt; decide (u.hostOpen)) = true ∧
    (let s : State := { rdy with log := { rdy.log with pend := some 2 } }; let dt : Nat := 0; let u := s.elapse dt;
      decide (u.dev.st ≠ .off) && ((u.log.pend).any fun _ => decide (u.log.busy = none) &&
      ((u.nextSlot).any fun _ => decide (u.logMay = true ∧ u.logStopped = false ∧ (u.mp.user = 0 ∨ u.mp.user = 3))))) = true ∧
    (let s : State := { rdy with log := { rdy.log with busy := some (1, 1, 0) }, mp := { rdy.mp with user := 3 } };
      let dt : Nat := 0; let u := s.elapse dt; decide (u.dev.st ≠ .off) &&
      ((u.log.busy).any fun (_, _, t) => decide (u.boot.phase ≠ .logging ∧ u.now ≤ t + 200000000))) = true ∧
    (let s : State := late { rdy with log := { rdy.log with busy := some (1, 1, 0) }, mp := { rdy.mp with user := 3 } };
      let dt : Nat := 0; let u := s.elapse dt; decide (u.dev.st ≠ .off) &&
      ((u.log.busy).any fun (_, _, t) => decide (u.boot.phase ≠ .logging ∧ t + 200000000 < u.now))) = true ∧
    (let s : State := { rdy with log := { rdy.log with busy := some (1, 1, 0) }, mp := { rdy.mp with user := 3 } };
      let dt : Nat := 0; let u := s.elapse dt; decide (u.dev.st ≠ .off) &&
      ((u.log.busy).any fun (_, _, _) => decide (u.boot.phase ≠ .logging))) = true ∧
    (let s : State := late { rdy with log := { rdy.log with busy := some (1, 1, 0) }, mp := { rdy.mp with user := 3 } };
      let dt : Nat := 0; let u := s.elapse dt; decide (u.dev.st ≠ .off) &&
      ((u.log.busy).any fun (_, _, t) => decide (u.boot.phase ≠ .logging ∧ t + 200000000 ≤ u.now))) = true := by decide +kernel

theorem witness_BootOpens :
    (let s : State := boot (rdy .basecamp) .params; let dt : Nat := 0; let u := s.elapse dt; let ph := u.boot.phase;
      decide (ph = .params)) = true ∧
    (let s : State := boot (rdy .basecamp) .octal; let dt : Nat := 0; let u := s.elapse dt; let ph := u.boot.phase;
      decide (ph = .octal)) = true ∧
    (let s : State := boot (rdy .basecamp) .headers; let dt : Nat := 0; let u := s.elapse dt; let ph := u.boot.phase;
      decide (ph = .headers ∧ (u.mp.user = 0 ∨ u.mp.user = 1))) = true := by decide +kernel

theorem witness_BootCompletes :
    (let s : State := flashed (boot (rdy .verify) .stream fun b => { b with cands := [0] }) 0 small; let dt : Nat := 0;
      let u := s.elapse dt; let ph := u.boot.phase; (match u.boot.cands with
      | k :: _ => decide (ph = .stream) && (match u.loadImage k with
      | (_, none) => true
      | _ => false)
      | _ => false)) = true ∧
    (let s : State := flashed (boot (rdy .verify) .stream fun b => { b with cands := [1, 0] }) 1 [0, 0, 24, 0, 0, 65536];
      let dt : Nat := 0; let u := s.elapse dt; let ph := u.boot.phase; (match u.boot.cands with
      | k :: _ => decide (ph = .stream) && (match u.loadImage k with
      | (_, some (_, _)) => true
      | _ => false)
      | _ => false)) = true ∧
    (let s : State := flashed (boot (rdy .verify) .post fun b => { b with cands := [1], keySlot := 0xFF }) 1 [0, 0, 24, 0, 0, 255];
      let dt : Nat := 0; let u := s.elapse dt; let ph := u.boot.phase; (match u.boot.cands with
      | k :: _ => decide (ph = .post) && ((u.postReason (u.imageWords k)).any fun (_, _, _, _) => true)
      | _ => false)) = true ∧
    (let s : State := flashed (boot (rdy .verify) .post fun b => { b with cands := [0] }) 0 tiny; let dt : Nat := 0;
      let u := s.elapse dt; let ph := u.boot.phase; (match u.boot.cands with
      | k :: _ => decide (ph = .post ∧ u.postReason (u.imageWords k) = none)
      | _ => false)) = true ∧
    (let s : State := boot (rdy .verify) .restore; let dt : Nat := 0; let u := s.elapse dt; let ph := u.boot.phase;
      decide (ph = .restore)) = true ∧
    (let s : State := late (boot (rdy .verify) .monitor); let dt : Nat := 0; let u := s.elapse dt; let ph := u.boot.phase;
      decide (ph = .monitor ∧ u.boot.monAt + 4000000 ≤ u.now)) = true := by decide +kernel

theorem witness_Autostart :
    (let s : State := aut (clus (rdy .run) .stopped) id; let dt : Nat := 0; let c : Cl := 0; let cs : List Cl := [0];
      let u := s.elapse dt; let x := u.auto[c]; decide (u.dev.st = .run ∧ u.f pk R.DEV_BOOT_CTRL.auto_hold = 0 ∧
      x.rule = true ∧ (u.cl[c]).st ≠ .unused ∧ u.armGroup c = some cs)) = true := by decide +kernel

theorem witness_SecurityCommands :
    (let s : State := rdy; let dt : Nat := 0; let u := s.elapse dt; decide (u.hostOpen)) = true := by decide +kernel

theorem witness_RandomWordsAndLockout :
    (let s : State := secs rdy fun x => { x with trngFail := true, trngLast := 17 }; let dt : Nat := (List.range 40)[0]!;
      let u := s.elapse dt; decide (u.dev.st ≠ .off ∧ u.hp.exec = none ∧ u.sec.life ≠ 2)) = true ∧
    (let s : State := secs rdy fun x => { x with trngFail := true, trngLast := 17 }; let dt : Nat := (List.range 40)[0]!;
      let u := s.elapse dt; decide (u.dev.st ≠ .off)) = true ∧
    (let s : State := secs rdy fun x => { x with locked := true }; let dt : Nat := (List.range 40)[0]!;
      let u := s.elapse dt; decide (u.dev.st ≠ .off ∧ u.sec.locked = true ∧ u.sec.lockEnd ≤ u.now)) = true := by decide +kernel

theorem witness_ChainCommands :
    (let s : State := rdy; let dt : Nat := 0; let u := s.elapse dt; decide (u.hostOpen)) = true ∧
    (let s : State := rdy; let dt : Nat := 0; let v : BitVec 24 := 0; let u := s.elapse dt; decide (u.hostOpen ∧
      v.toNat < 65536)) = true ∧
    (let s : State := rdy; let dt : Nat := 0; let v : BitVec 24 := 0x10000; let u := s.elapse dt; decide (u.hostOpen ∧
      65536 ≤ v.toNat)) = true := by decide +kernel

theorem witness_ChainSetpoints :
    (let s : State := mo (clus rdy .running) (.mc 0) 0 0; let dt : Nat := 0; let v : BitVec 24 := 0; let n : Mcn := 0;
      let u := s.elapse dt; let a := u.asked; let k := v.toNat / 2 ^ 20; decide (u.hostOpen ∧ k = n.val ∧ u.conv n = false ∧
      u.st n R.MC_MO_MODE.mode = 0 ∧ (u.auto[mcCl n]).rule = false ∧ a.moCheck (.mc n) false true false = none ∧
      u.aMax (.mc n) ≠ 0 ∧ (a.virt (.mc n)).1 ≠ .stopping)) = true ∧
    (let s : State := stp1 (clus rdy .running); let dt : Nat := 0; let v : BitVec 24 := 0x880000; let c : Chan := 0;
      let u := s.elapse dt; let a := u.asked; let k := v.toNat / 2 ^ 20; decide (u.hostOpen ∧ k = 8 + c.val ∧
      (u.auto[stCl c]).rule = false ∧ a.moCheck (.st c) true false true = none ∧ u.vMax (.st c) ≠ 0 ∧ u.aMax (.st c) ≠ 0 ∧
      u.axRunning (.st c) = true ∧ (a.virt (.st c)).1 = .idle)) = true ∧
    (let s : State := mo (clus rdy .running) (.mc 0) 0 0; let dt : Nat := 0; let v : BitVec 24 := 0x600000;
      let u := s.elapse dt; let k := v.toNat / 2 ^ 20; decide (u.hostOpen ∧ (k = 6 ∨ k = 7))) = true := by decide +kernel

theorem witness_Frames :
    (let s : State := rdy; let dt : Nat := 0; let edges : Nat := 1; let u := s.elapse dt; let h := u.hp;
      decide (u.dev.st ≠ .off ∧ h.exec = none ∧ edges % 32 ≠ 0)) = true ∧
    (let s : State := rdy; let dt : Nat := 0; let edges : Nat := 96; let ws : List Word := pk3 0x10000005;
      let u := s.elapse dt; let h := u.hp; decide (u.dev.st ≠ .off ∧ h.exec = none ∧ edges = 32 * ws.length) &&
      ((ws.getLast?).any fun w => decide (crc4 w.toNat ≠ w.toNat % 16))) = true ∧
    (let s : State := rdy; let dt : Nat := 0; let edges : Nat := 32; let ws : List Word := [fw 0x20000000];
      let u := s.elapse dt; let h := u.hp; decide (u.dev.st ≠ .off ∧ h.exec = none ∧ edges = 32 * ws.length) &&
      ((ws.getLast?).any fun w => decide (crc4 w.toNat = w.toNat % 16 ∧ w.toNat / 2 ^ 28 = 2 ∧ u.sec.life ≠ 2))) = true ∧
    (let s : State := rdy; let dt : Nat := 0; let edges : Nat := 96; let u := s.elapse dt; let h := u.hp;
      decide (u.dev.st ≠ .off ∧ h.exec = none ∧ 0 < edges ∧ edges % 32 = 0)) = true ∧
    (let s : State := rdy; let dt : Nat := 0; let edges : Nat := 96; let ws : List Word := [0x10000005, 1, 77];
      let hdr : Word := (([1, 0x10000005, (pk3 0x10000005)[2]!, 77] : List Word) ++ [(rdy.fresh0.readWord .host 5).2])[1]!;
      let len : Word := (([1, 0x10000005, (pk3 0x10000005)[2]!, 77] : List Word) ++ [(rdy.fresh0.readWord .host 5).2])[0]!;
      let crc : Word := (([1, 0x10000005, (pk3 0x10000005)[2]!, 77] : List Word) ++ [(rdy.fresh0.readWord .host 5).2])[3]!;
      let u := s.elapse dt; let h := u.hp; decide (u.dev.st ≠ .off ∧ h.exec = none ∧ ws = [hdr, len, crc] ∧ edges = 96 ∧
      hdr.toNat / 2 ^ 28 = 1 ∧ pktValid 1 hdr.toNat len.toNat = true ∧ u.sec.life ≠ 2 ∧
      crc.toNat ≠ crc32Words [hdr.toNat, len.toNat])) = true ∧
    (let s : State := rdy; let dt : Nat := 0; let edges : Nat := 96; let ws : List Word := pk3 0x10000005;
      let hdr : Word := (([1, 0x10000005, (pk3 0x10000005)[2]!, 77] : List Word) ++ [(rdy.fresh0.readWord .host 5).2])[1]!;
      let len : Word := (([1, 0x10000005, (pk3 0x10000005)[2]!, 77] : List Word) ++ [(rdy.fresh0.readWord .host 5).2])[0]!;
      let crc : Word := (([1, 0x10000005, (pk3 0x10000005)[2]!, 77] : List Word) ++ [(rdy.fresh0.readWord .host 5).2])[2]!;
      let u := s.elapse dt; let h := u.hp; decide (u.dev.st ≠ .off ∧ h.exec = none ∧ ws = [hdr, len, crc] ∧ edges = 96 ∧
      hdr.toNat / 2 ^ 28 = 1 ∧ pktValid 1 hdr.toNat len.toNat = true ∧ u.sec.life ≠ 2 ∧
      crc.toNat = crc32Words [hdr.toNat, len.toNat] ∧ implemented (hdr.toNat % 2 ^ 24) = true)) = true ∧
    (let s : State := ex rdy true false; let dt : Nat := 0; let u := s.elapse dt; let h := u.hp;
      decide (u.dev.st ≠ .off) && ((h.exec).any fun x => decide (x.wait = false))) = true := by decide +kernel

theorem witness_BusyWhileExecuting :
    (let s : State := ex rdy true false; let dt : Nat := 0; let u := s.elapse dt; decide (u.dev.st ≠ .off ∧
      u.hp.exec ≠ none)) = true := by decide +kernel

theorem witness_PacketOperations :
    (let s : State := rdy; let dt : Nat := 0; let v : BitVec 24 := 0; let u := s.elapse dt; let i := v.toNat;
      decide (u.hostOpen ∧ implemented i = true)) = true ∧
    (let s : State := rdy; let dt : Nat := 0; let v : BitVec 24 := 0x1234; let u := s.elapse dt; let i := v.toNat;
      decide (u.hostOpen ∧ implemented i = false)) = true ∧
    (let s : State := rdy; let dt : Nat := 0; let u := s.elapse dt; decide (u.hostOpen)) = true ∧
    (let s : State := rdy; let dt : Nat := 0; let n : Nat := 1; let u := s.elapse dt; decide (u.hostOpen ∧ 1 ≤ n ∧
      n ≤ 256)) = true ∧
    (let s : State := rdy; let dt : Nat := 0; let n : Nat := 0; let u := s.elapse dt; decide (u.hostOpen ∧
      (n = 0 ∨ 256 < n))) = true ∧
    (let s : State := rdy; let dt : Nat := 0; let ws : List Word := [7]; let u := s.elapse dt; decide (u.hostOpen ∧
      1 ≤ ws.length ∧ ws.length ≤ 256)) = true ∧
    (let s : State := rdy; let dt : Nat := 0; let ws : List Word := []; let u := s.elapse dt; decide (u.hostOpen ∧
      (ws.length = 0 ∨ 256 < ws.length))) = true ∧
    (let s : State := rdy; let dt : Nat := 0; let t : Word := 0; let n : Nat := 0; let u := s.elapse dt;
      decide (u.hostOpen ∧ (5 < t.toNat ∨ n = 0 ∨ 256 < n))) = true := by decide +kernel

theorem witness_FlashOperations :
    (let s : State := rdy; let dt : Nat := 0; let v : Word := 0x20000; let u := s.elapse dt; let a := u.asked;
      let i := 4 * (v.toNat % 2 ^ 24); decide (u.hostOpen ∧ i % 4096 = 0 ∧ a.nvmRefusal i 4096 false = none)) = true ∧
    (let s : State := rdy; let dt : Nat := 0; let v : Word := 0x20000; let u := s.elapse dt; let a := u.asked;
      let i := 4 * (v.toNat % 2 ^ 24); decide (u.hostOpen ∧ i % 65536 = 0 ∧ a.nvmRefusal i 65536 false = none)) = true ∧
    (let s : State := rdy; let dt : Nat := 0; let v : Word := 0x20001; let u := s.elapse dt;
      let i := 4 * (v.toNat % 2 ^ 24); decide (u.hostOpen ∧ i % 4096 ≠ 0)) = true ∧
    (let s : State := rdy; let dt : Nat := 0; let v : Word := 0x20000; let ws : List Word := [7]; let u := s.elapse dt;
      let a := u.asked; let i := 4 * (v.toNat % 2 ^ 24); decide (u.hostOpen ∧
      bulkValid true 5 (v.toNat % 2 ^ 24) ws.length = true ∧ a.nvmRefusal i (4 * ws.length) false = none)) = true ∧
    (let s : State := nvm rdy (.read 4096 2 true) false; let dt : Nat := 0; let u := s.elapse dt;
      decide (u.dev.st ≠ .off ∧ u.mp.user = 0 ∧ u.boot.phase ≠ .headers ∧ u.log.pend = none) && (match u.mp.op with
      | some (.read _ _ _) => true
      | _ => false)) = true ∧
    (let s : State := nvm rdy (.program 4096 [1,2,3,255]) false; let dt : Nat := 0; let u := s.elapse dt;
      decide (u.dev.st ≠ .off ∧ u.mp.user = 0 ∧ u.boot.phase ≠ .headers ∧ u.log.pend = none) && (match u.mp.op with
      | some (.program _ _) => true
      | _ => false)) = true ∧
    (let s : State := nvm rdy (.erase 4096 4096) false; let dt : Nat := 0; let u := s.elapse dt; decide (u.dev.st ≠ .off ∧
      u.mp.user = 0 ∧ u.boot.phase ≠ .headers ∧ u.log.pend = none) && (match u.mp.op with
      | some (.erase _ _) => true
      | _ => false)) = true ∧
    (let s : State := nvm { rdy with flash := [⟨4097, 8⟩, ⟨8000, 8⟩] } (.program 4096 [1,2,3,255]) true;
      let dt : Nat := 0; let u := s.elapse dt; decide (u.mp.busy = true ∧ u.mp.user = 4) && (match u.mp.op with
      | some (.program _ _) => true
      | _ => false)) = true ∧
    (let s : State := (nvm { rdy with flash := [⟨4097, 8⟩, ⟨8000, 8⟩] } (.program 4096 [1,2,3,255]) true).tick 1500000000;
      let dt : Nat := 0; let u := s.elapse dt; decide (u.mp.busy = true ∧ u.mp.user = 4) && (match u.mp.op with
      | some (.program _ _) => decide (u.mp.opAt + 1500000000 ≤ u.now)
      | _ => false)) = true ∧
    (let s : State := nvm { rdy with flash := [⟨4095, 8⟩, ⟨4097, 8⟩, ⟨8000, 8⟩, ⟨8192, 8⟩] } (.erase 4096 4096) true;
      let dt : Nat := 0; let u := s.elapse dt; decide (u.mp.busy = true ∧ u.mp.user = 4) && (match u.mp.op with
      | some (.erase _ _) => true
      | _ => false)) = true := by decide +kernel

theorem witness_RegisterWrites :
    (let s : State := rdy; let dt : Nat := 0; let v : BitVec 24 := 0x3FFFFF; let u := s.elapse dt; let i := v.toNat;
      decide (u.hostOpen ∧ implemented i = false)) = true ∧
    (let s : State := rdy; let dt : Nat := 0; let v : BitVec 24 := 0x180001; let u := s.elapse dt; let i := v.toNat;
      decide (u.hostOpen ∧ implemented i = true) && (let (b, o) := locate i; decide (b ≠ .atlRam ∧ b ≠ .trRam ∧
      b ≠ .smpRam ∧ b ≠ .canRam) && ((regAt i).any fun (_, _) => decide (u.blind i = true ∧ judged b o = false)))) = true ∧
    (let s : State := rdy; let dt : Nat := 0; let v : BitVec 24 := 0x5; let w : Word := 7; let u := s.elapse dt;
      let a := u.asked; let i := v.toNat; decide (u.hostOpen ∧ implemented i = true) && (let (b, o) := locate i;
      decide (b ≠ .atlRam ∧ b ≠ .trRam ∧ b ≠ .smpRam ∧ b ≠ .canRam) &&
      ((regAt i).any fun (d, _) => decide (u.blind i = false) &&
      ((a.writeRefusal b o d i (a.writeKey .host i) w).any fun _ => true)))) = true ∧
    (let s : State := clus rdy .running; let dt : Nat := 0; let v : BitVec 24 := 0x180001; let k : Chan := 0;
      let u := s.elapse dt; let i := v.toNat; decide (u.hostOpen ∧ (u.cl[stCl k]).st ≠ .unused ∧
      (i = stB k + R.MO_TGT_LO.reg ∨ i = stB k + R.MO_TGT_HI.reg))) = true ∧
    (let s : State := clus rdy .running; let dt : Nat := 0; let v : BitVec 24 := 0x180001; let k : Chan := 0;
      let u := s.elapse dt; let i := v.toNat;
      decide ((u.dev.st = .ready ∨ u.dev.st = .run ∨ u.dev.st = .bivouac ∨ u.dev.st = .recovery) ∧ u.sec.life ≠ 2 ∧
      (u.cl[stCl k]).st ≠ .unused ∧ i = stB k + R.MO_TGT_LO.reg)) = true := by decide +kernel

theorem witness_CanReception :
    (let s : State := can (lay rdy) 1; let dt : Nat := 0; let n : Can := 0;
      let f : Frame := { frm 7 (List.replicate 64 9) with fd := true, brs := true }; let u := s.elapse dt;
      decide (f.ok = true ∧ u.canOn n = true ∧ (u.can[n]).mode ≠ 3 ∧ f.fd = true ∧ u.cf n R.CAN_CTRL.fd_en = 0)) = true ∧
    (let s : State := can (lay rdy) 1; let dt : Nat := 0; let n : Can := 0;
      let f : Frame := { frm 5 [] with rtr := true }; let u := s.elapse dt; decide (f.ok = true ∧ u.canOn n = true ∧
      (u.can[n]).mode ≠ 3 ∧ f.rtr = true)) = true ∧
    (let s : State := can (lay rdy) 1; let dt : Nat := 0; let n : Can := 0; let f : Frame := frm 5 [1,2,3,4,5,6,7,8];
      let u := s.elapse dt; decide (f.ok = true ∧ u.canOn n = true ∧ (u.can[n]).mode ≠ 3 ∧ f.rtr = false ∧
      (f.fd = true → u.cf n R.CAN_CTRL.fd_en = 1) ∧ ((u.can[n]).mode ≠ 1 ∨ u.isDiag n f = false) ∧ u.filterFind n f = none ∧
      u.cf n R.CAN_FLT.nm_dest ≠ 1 ∧ u.cf n R.CAN_FLT.nm_dest ≠ 2)) = true ∧
    (let s : State := acc (can (lay rdy) 1) 3 2; let dt : Nat := 0; let n : Can := 0;
      let f : Frame := frm 5 [1,2,3,4,5,6,7,8]; let u := s.elapse dt; decide (f.ok = true ∧ u.canOn n = true ∧
      (u.can[n]).mode ≠ 3 ∧ f.rtr = false ∧ (f.fd = true → u.cf n R.CAN_CTRL.fd_en = 1) ∧
      ((u.can[n]).mode ≠ 1 ∨ u.isDiag n f = false)) && ((u.filterFind n f).any fun k => let w := u.ram (u.filterAt n k);
      let idx := bitsAt w 12 5; decide (bitsAt w 8 4 = 3 ∧ idx < u.cf n R.CAN_RXB.count ∧ u.locked n 0 idx = false))) = true ∧
    (let s : State := acc (can (lay (clus rdy .running)) 1) 1 0; let dt : Nat := 0; let n : Can := 0;
      let f : Frame := frm 5 [1,2,3,4,5,6,7,8]; let c : Fin 2 := 0; let u := s.elapse dt; let b := canB n;
      decide (f.ok = true ∧ u.canOn n = true ∧ (u.can[n]).mode ≠ 3 ∧ f.rtr = false ∧
      (f.fd = true → u.cf n R.CAN_CTRL.fd_en = 1) ∧ ((u.can[n]).mode ≠ 1 ∨ u.isDiag n f = false)) &&
      ((u.filterFind n f).any fun k => let w := u.ram (u.filterAt n k); decide (bitsAt w 8 4 = 1 + c.val ∧
      u.f (b + c.val) R.CAN_FS.fill < u.f (b + c.val) R.CAN_FIFO.count))) = true ∧
    (let s : State := cr (cr (can (lay rdy) 1) R.CAN_DIAG_REQ.en 1) R.CAN_DIAG_REQ.id 5; let dt : Nat := 0;
      let n : Can := 0; let f : Frame := frm 5 [0xF1,0,0,0,0,0,0,0]; let u := s.elapse dt; decide (f.ok = true ∧
      u.canOn n = true ∧ (u.can[n]).mode ≠ 3 ∧ (u.can[n]).mode = 1 ∧ f.rtr = false ∧
      (f.fd = true → u.cf n R.CAN_CTRL.fd_en = 1) ∧ u.isDiag n f = true ∧ (u.can[n]).diag = none ∧ 8 ≤ f.data.length ∧
      2 ^ 4 * 3 ≤ ((f.data.head?).getD 0).toNat)) = true := by decide +kernel

theorem witness_CanLocks :
    (let s : State := rdy; let dt : Nat := 0; let p : Port := .host; let u := s.elapse dt; decide (u.dev.st ≠ .off ∧
      u.sec.life ≠ 2 ∧ (p = .host → u.hp.exec = none))) = true := by decide +kernel

theorem witness_FifoGet :
    (let s : State := can (lay rdy) 1; let dt : Nat := 0; let v : Nat := 0; let u := s.elapse dt; decide (u.hostOpen ∧
      v < 64)) = true := by decide +kernel

theorem witness_CanRoutes :
    (let s : State := acc (can (lay rdy) 1) 4 0; let dt : Nat := 0; let n : Can := 0; let f : Frame := frm 0x7FF [];
      let x : Nat := 0; let k : Nat := 0; let u := s.elapse dt; let at_ := u.routeAt n k; let w0 := u.ram at_;
      let bs := f.data.map fun b => b.toNat; decide (f.ok = true ∧ f.rtr = false ∧
      (f.fd = true → u.cf n R.CAN_CTRL.fd_en = 1) ∧ u.canOn n = true ∧ (u.can[n]).mode ≠ 3 ∧
      ((u.can[n]).mode ≠ 1 ∨ u.isDiag n f = false) ∧ u.filterFind n f = some x ∧ bitsAt (u.ram (u.filterAt n x)) 8 4 = 4 ∧
      bitsAt (u.ram (u.filterAt n x)) 12 5 = k ∧ k < u.cf n R.CAN_RT.count ∧
      (∀ j ∈ List.range 5, u.routeAt n k + j < 0x4000) ∧ bitAt w0 0 = false ∧ bitAt w0 19 = false ∧
      routeRaw w0 bs = none)) = true ∧
    (let s : State := rt (acc (cr (can (lay (clus rdy .running)) 1) R.CAN_CTRL.fd_en 1) 4 0) (0x20 + 2 ^ 19) 0;
      let dt : Nat := 0; let n : Can := 0; let f : Frame := frm 5 [1,2,3,4,5,6,7,8]; let x : Nat := 0; let k : Nat := 0;
      let u := s.elapse dt; let at_ := u.routeAt n k; let w0 := u.ram at_; let bs := f.data.map fun b => b.toNat;
      decide (f.ok = true ∧ f.rtr = false ∧ (f.fd = true → u.cf n R.CAN_CTRL.fd_en = 1) ∧ u.canOn n = true ∧
      (u.can[n]).mode ≠ 3 ∧ ((u.can[n]).mode ≠ 1 ∨ u.isDiag n f = false) ∧ u.filterFind n f = some x ∧
      bitsAt (u.ram (u.filterAt n x)) 8 4 = 4 ∧ bitsAt (u.ram (u.filterAt n x)) 12 5 = k ∧ k < u.cf n R.CAN_RT.count ∧
      (∀ j ∈ List.range 5, u.routeAt n k + j < 0x4000) ∧ bitAt w0 0 = false ∧ bitAt w0 19 = true ∧ bs.length < 12)) = true ∧
    (let s : State := rt (acc (cr (can (lay (clus rdy .running)) 1) R.CAN_CTRL.fd_en 1) 4 0) (0x20 + 2 ^ 19) 0;
      let dt : Nat := 0; let n : Can := 0; let f : Frame := { frm 7 (List.replicate 64 9) with fd := true, brs := true };
      let x : Nat := 0; let k : Nat := 0; let u := s.elapse dt; let at_ := u.routeAt n k; let w0 := u.ram at_;
      let bs := f.data.map fun b => b.toNat; decide (f.ok = true ∧ f.rtr = false ∧
      (f.fd = true → u.cf n R.CAN_CTRL.fd_en = 1) ∧ u.canOn n = true ∧ (u.can[n]).mode ≠ 3 ∧
      ((u.can[n]).mode ≠ 1 ∨ u.isDiag n f = false) ∧ u.filterFind n f = some x ∧ bitsAt (u.ram (u.filterAt n x)) 8 4 = 4 ∧
      bitsAt (u.ram (u.filterAt n x)) 12 5 = k ∧ k < u.cf n R.CAN_RT.count ∧
      (∀ j ∈ List.range 5, u.routeAt n k + j < 0x4000) ∧ bitAt w0 0 = false ∧ bitAt w0 19 = true ∧ 12 ≤ bs.length ∧
      u.routeKey (bitsAt w0 20 4) = none)) = true ∧
    (let s : State := rt (acc (can (lay (clus rdy .running)) 1) 4 0) 0x20 0; let dt : Nat := 0; let n : Can := 0;
      let f : Frame := frm 5 [1,2,3,4,5,6,7,8]; let x : Nat := 0; let k : Nat := 0; let m : Mcn := 0; let raw : Int := 1;
      let u := s.elapse dt; let at_ := u.routeAt n k; let w0 := u.ram at_; let bs := f.data.map fun b => b.toNat;
      decide (f.ok = true ∧ f.rtr = false ∧ (f.fd = true → u.cf n R.CAN_CTRL.fd_en = 1) ∧ u.canOn n = true ∧
      (u.can[n]).mode ≠ 3 ∧ ((u.can[n]).mode ≠ 1 ∨ u.isDiag n f = false) ∧ u.filterFind n f = some x ∧
      bitsAt (u.ram (u.filterAt n x)) 8 4 = 4 ∧ bitsAt (u.ram (u.filterAt n x)) 12 5 = k ∧ k < u.cf n R.CAN_RT.count ∧
      (∀ j ∈ List.range 5, u.routeAt n k + j < 0x4000) ∧ bitAt w0 0 = false ∧ bitAt w0 19 = false ∧ bitsAt w0 5 4 = 1 ∧
      bitsAt w0 1 4 = m.val ∧ routeRaw w0 bs = some raw ∧ u.moCheck (.mc m) false true false = none ∧ u.aMax (.mc m) ≠ 0 ∧
      (u.virt (.mc m)).1 ≠ .stopping ∧ (u.auto[mcCl m]).rule = false)) = true ∧
    (let s : State := late ((rt (acc (can (lay (clus rdy .running)) 1) 4 0) 0x20 (5 * 65536)).modRoute 0 0 fun x => { x with seen := true });
      let dt : Nat := 0; let n : Can := 0; let k : Fin 32 := 0; let u := s.elapse dt; let w0 := u.ram (u.routeAt n k.val);
      let w4 := u.routeW4 n k.val; decide (u.routeAt n k.val + 4 < 0x4000 ∧ k.val < u.cf n R.CAN_RT.count ∧
      bitAt w0 0 = false ∧ u.ram (u.routeAt n k.val + 1) / 65536 ≠ 0 ∧ ((u.can[n]).routes[k]).seen = true ∧
      bitAt w4 9 = false ∧ ((u.can[n]).routes[k]).seenAt + 500000 * (u.ram (u.routeAt n k.val + 1) / 65536) ≤ u.now ∧
      bitsAt w0 24 2 = 0)) = true ∧
    (let s : State := late ((rt (acc (can (lay (clus rdy .running)) 1) 4 0) (0x20 + 3 * 2 ^ 24) (5 * 65536)).modRoute 0 0 fun x => { x with seen := true });
      let dt : Nat := 0; let n : Can := 0; let k : Fin 32 := 0; let u := s.elapse dt; let w0 := u.ram (u.routeAt n k.val);
      let w4 := u.routeW4 n k.val; decide (u.routeAt n k.val + 4 < 0x4000 ∧ k.val < u.cf n R.CAN_RT.count ∧
      bitAt w0 0 = false ∧ u.ram (u.routeAt n k.val + 1) / 65536 ≠ 0 ∧ ((u.can[n]).routes[k]).seen = true ∧
      bitAt w4 9 = false ∧ ((u.can[n]).routes[k]).seenAt + 500000 * (u.ram (u.routeAt n k.val + 1) / 65536) ≤ u.now ∧
      bitsAt w0 24 2 = 3) &&
      ((u.cmdGroup (routeCl (bitsAt w0 1 4))).any fun _ => decide ((u.cl[routeCl (bitsAt w0 1 4)]).st.active = true))) = true := by decide +kernel

theorem witness_CanTransmission :
    (let s : State := can (lay rdy) 1; let dt : Nat := 0; let n : Can := 0; let w : Word := 0; let u := s.elapse dt;
      let tx (t : State) (b : Fin 32) : TxBuf := (t.can[n]).tx[b];
      let plain (b : Fin 32) : Bool := decide (b.val < u.cf n R.CAN_TXB.count ∧ (tx u b).pend = false ∧ bitAt (u.txW1 n b.val) 11 = false);
      decide (u.hostOpen ∧ (u.can[n]).mode ≠ 0 ∧ (∀ b : Fin 32, bitAt w.toNat b.val = true → plain b ∧
      u.scheduled n b.val = false))) = true ∧
    (let s : State := late ((can (lay rdy) 1).setRam 0x401 (12 * 131072)); let dt : Nat := 0; let n : Can := 0;
      let b : Fin 32 := 0; let u := s.elapse dt; let tx (t : State) (b : Fin 32) : TxBuf := (t.can[n]).tx[b];
      let plain (b : Fin 32) : Bool := decide (b.val < u.cf n R.CAN_TXB.count ∧ (tx u b).pend = false ∧ bitAt (u.txW1 n b.val) 11 = false);
      let per := 500000 * bitsAt (u.txW1 n b.val) 17 12; decide ((u.can[n]).mode ≠ 0 ∧ u.cf n R.CAN_STAT.state ≠ 3 ∧
      plain b ∧ u.scheduled n b.val = false ∧ per ≠ 0 ∧ (tx u b).perAt + per ≤ u.now)) = true ∧
    (let s : State := txb (can (lay rdy) 1) 0 (fun t => { t with pend := true }); let dt : Nat := 0; let n : Can := 0;
      let b : Fin 32 := 0; let u := s.elapse dt; let tx (t : State) (b : Fin 32) : TxBuf := (t.can[n]).tx[b];
      decide (u.txAt n b.val + 1 < 0x4000 ∧ u.hostOpen ∧ (tx u b).pend = true)) = true ∧
    (let s : State := txb (can (lay rdy) 1) 0 (fun t => { t with pend := true }); let dt : Nat := 0; let n : Can := 0;
      let b : Fin 32 := 0; let u := s.elapse dt; decide (u.txAt n b.val + 1 < 0x4000 ∧ u.txMay n b = true ∧
      (u.can[n]).mode = 1)) = true ∧
    (let s : State := (txb (cr (can (lay rdy) 1) R.CAN_STAT.tec 247) 0 fun t => { t with pend := true }).setRam 0x401 (5 * 64);
      let dt : Nat := 0; let n : Can := 0; let b : Fin 32 := 0; let x : BusErr := .stuff; let u := s.elapse dt;
      let tx (t : State) (b : Fin 32) : TxBuf := (t.can[n]).tx[b]; decide (u.txAt n b.val + 1 < 0x4000 ∧
      u.txMay n b = true ∧ (u.can[n]).mode = 1 ∧ x ≠ .ack ∧ u.cf n R.CAN_STAT.tec ≤ 247 ∧ (tx u b).single = false ∧
      (tx u b).cancel = false ∧ (tx u b).attempts < bitsAt (u.txW1 n b.val) 6 5)) = true ∧
    (let s : State := txb (can (lay rdy) 1) 1 (fun t => { t with pend := true, clash := 2 }); let dt : Nat := 0;
      let n : Can := 0; let b : Fin 32 := 1; let u := s.elapse dt;
      let tx (t : State) (b : Fin 32) : TxBuf := (t.can[n]).tx[b]; decide (u.txAt n b.val + 1 < 0x4000 ∧
      u.txMay n b = true ∧ (u.can[n]).mode = 1 ∧ 2 ≤ (tx u b).clash ∧ u.cf n R.CAN_STAT.tec ≤ 247 ∧
      (tx u b).cancel = false)) = true ∧
    (let s : State := txb (can (lay rdy) 1) 0 (fun t => { t with pend := true }); let dt : Nat := 0; let n : Can := 0;
      let b : Fin 32 := 0; let u := s.elapse dt; let tx (t : State) (b : Fin 32) : TxBuf := (t.can[n]).tx[b];
      decide (u.txAt n b.val + 1 < 0x4000 ∧ u.txMay n b = true ∧ (u.can[n]).mode = 1 ∧ (tx u b).cancel = false)) = true ∧
    (let s : State := (can (lay rdy) 1).modCan 0 fun c => { c with diag := some { bytes := [1], attempts := 0 }, ann := some { bytes := [1], attempts := 0 } };
      let dt : Nat := 0; let n : Can := 0; let u := s.elapse dt; decide (u.canOn n = true ∧ (u.can[n]).mode = 1) &&
      (((u.can[n]).diag).any fun _ => true)) = true ∧
    (let s : State := (can (lay rdy) 1).modCan 0 fun c => { c with diag := some { bytes := [1], attempts := 0 }, ann := some { bytes := [1], attempts := 0 } };
      let dt : Nat := 0; let n : Can := 0; let u := s.elapse dt; decide (u.canOn n = true ∧ (u.can[n]).mode = 1) &&
      (((u.can[n]).ann).any fun _ => true)) = true := by decide +kernel

theorem witness_CanModes :
    (let s : State := (can (lay rdy) 1).setF (canB 0) R.CAN_STAT.state 3; let dt : Nat := 0; let n : Can := 0;
      let u := s.elapse dt; decide (u.hostOpen ∧ u.cf n R.CAN_STAT.state = 3)) = true ∧
    (let s : State := can (lay rdy) 1; let dt : Nat := 0; let n : Can := 0; let u := s.elapse dt; decide (u.hostOpen ∧
      u.cf n R.CAN_STAT.state ≠ 3)) = true ∧
    (let s : State := cr (can (lay rdy) 0) R.CAN_TXB.base 0x3FFF; let dt : Nat := 0; let n : Can := 0;
      let x : BitVec 2 := 1; let u := s.elapse dt; let m := x.toNat; decide (u.hostOpen ∧ u.cf n R.CAN_CTRL.mode = 0 ∧
      m ≠ 0 ∧ u.layoutOk n = false)) = true ∧
    (let s : State := can (lay rdy) 1; let dt : Nat := 0; let n : Can := 1; let x : BitVec 2 := 1; let u := s.elapse dt;
      let mode := (u.can[n]).mode; let m := x.toNat; decide (u.hostOpen ∧ u.cf n R.CAN_CTRL.mode = 0 ∧ m ≠ 0 ∧
      u.layoutOk n = true ∧ mode = 0)) = true ∧
    (let s : State := can (lay rdy) 1; let dt : Nat := 0; let n : Can := 0; let x : BitVec 2 := 0; let u := s.elapse dt;
      let mode := (u.can[n]).mode; let m := x.toNat; decide (u.hostOpen ∧ u.cf n R.CAN_CTRL.mode ≠ 0 ∧ mode ≠ 0 ∧
      mode ≠ m)) = true ∧
    (let s : State := (can (lay rdy) 1).modCan 0 fun c => { c with modeNext := some 0, tx := Vector.replicate 32 { TxBuf.reset with pend := true } };
      let dt : Nat := 0; let n : Can := 0; let u := s.elapse dt; (((u.can[n]).modeNext).any fun _ => true)) = true ∧
    (let s : State := ((can (lay rdy) 1).setF (canB 0) R.CAN_STAT.state 3).setF (canB 0) R.CAN_STAT.recovering 1;
      let dt : Nat := 0; let n : Can := 0; let u := s.elapse dt; let mode := (u.can[n]).mode;
      decide (u.cf n R.CAN_STAT.recovering = 1 ∧ mode ≠ 0)) = true ∧
    (let s : State := (can (lay rdy) 1).setF (canB 0) R.CAN_STAT.integrating 1; let dt : Nat := 0; let n : Can := 0;
      let u := s.elapse dt; let mode := (u.can[n]).mode; decide (mode ≠ 0 ∧ u.cf n R.CAN_STAT.integrating = 1 ∧
      u.cf n R.CAN_STAT.state ≠ 3)) = true ∧
    (let s : State := can (lay rdy) 1; let dt : Nat := 0; let n : Can := 0; let u := s.elapse dt;
      let mode := (u.can[n]).mode; decide (u.canOn n = true ∧ mode ≠ 3)) = true := by decide +kernel

theorem witness_CanSchedule :
    (let s : State := tt (can (lay rdy) 1) 2; let dt : Nat := 0; let n : Can := 0; let u := s.elapse dt;
      decide (((u.can[n]).mode ≠ 0 ∧ u.cf n R.CAN_STAT.state ≠ 3) ∧ u.cf n R.CAN_TT.role = 2)) = true ∧
    (let s : State := tt (can (lay rdy) 1) 1; let dt : Nat := 0; let n : Can := 0; let b : Fin 32 := 3;
      let u := s.elapse dt; let tx (t : State) (b : Fin 32) : TxBuf := (t.can[n]).tx[b];
      let free (b : Fin 32) : Bool := decide (b.val < u.cf n R.CAN_TXB.count ∧ (tx u b).pend = false ∧ bitAt (u.txW1 n b.val) 11 = false);
      decide (((u.can[n]).mode ≠ 0 ∧ u.cf n R.CAN_STAT.state ≠ 3) ∧ u.cf n R.CAN_TT.role = 1 ∧
      b.val = u.cf n R.CAN_TT.ref_buf ∧ free b ∧ u.txAt n b.val + 2 < 0x4000 ∧
      (u.cf n R.CAN_TT_STAT.running = 0 ∨ (u.can[n]).cycAt + 500 * u.cf n R.CAN_TT.cycle_len ≤ u.now))) = true ∧
    (let s : State := ((tt (can (lay rdy) 1) 2).setF (canB 0) R.CAN_TT_STAT.running 1).setF (canB 0) R.CAN_TT_STAT.cycle 3;
      let dt : Nat := 0; let n : Can := 0; let u := s.elapse dt; decide (u.cf n R.CAN_TT.role = 2 ∧
      u.cf n R.CAN_TT_STAT.running = 1 ∧ (u.can[n]).cycAt + 750 * u.cf n R.CAN_TT.cycle_len ≤ u.now)) = true ∧
    (let s : State := (tt (can (lay rdy) 1) 1).setF (canB 0) R.CAN_TT_STAT.running 1; let dt : Nat := 0; let n : Can := 0;
      let col : Fin 32 := 0; let u := s.elapse dt; let x := u.cellByte n (u.cf n R.CAN_TT_STAT.cycle) col.val;
      decide (((u.can[n]).mode ≠ 0 ∧ u.cf n R.CAN_STAT.state ≠ 3) ∧ u.cf n R.CAN_TT_STAT.running = 1 ∧
      (u.can[n]).cycAt + 500 * u.colMark n col.val ≤ u.now ∧ cellValid x = false)) = true ∧
    (let s : State := ((tt (can (lay rdy) 1) 2).setF (canB 0) R.CAN_TT_STAT.running 1).setRam (0x800 + 32) 0x83828180;
      let dt : Nat := 0; let n : Can := 0; let col : Fin 32 := 0; let b : Fin 32 := 0; let u := s.elapse dt;
      let tx (t : State) (b : Fin 32) : TxBuf := (t.can[n]).tx[b];
      let free (b : Fin 32) : Bool := decide (b.val < u.cf n R.CAN_TXB.count ∧ (tx u b).pend = false ∧ bitAt (u.txW1 n b.val) 11 = false);
      let x := u.cellByte n (u.cf n R.CAN_TT_STAT.cycle) col.val; decide (((u.can[n]).mode ≠ 0 ∧
      u.cf n R.CAN_STAT.state ≠ 3) ∧ u.cf n R.CAN_TT_STAT.running = 1 ∧
      (u.can[n]).cycAt + 500 * u.colMark n col.val ≤ u.now ∧ cellValid x = true ∧ b.val = x % 32 ∧ free b)) = true ∧
    (let s : State := late ((txb (can (lay rdy) 1) 2 fun t => { t with pend := true, single := true }).modCan 0 fun c => { c with cell := some 2 });
      let dt : Nat := 0; let n : Can := 0; let u := s.elapse dt;
      let tx (t : State) (b : Fin 32) : TxBuf := (t.can[n]).tx[b];
      (((u.can[n]).cell).any fun b => decide ((tx u b).pend = true ∧ (tx u b).single = true ∧ u.txAt n b.val + 1 < 0x4000 ∧
      u.winOver n = true))) = true ∧
    (let s : State := (can (lay rdy) 1).setF pk R.SEC_CAN_CFG.ann_ctl 0; let dt : Nat := 0; let n : Can := 0;
      let u := s.elapse dt; decide (u.f pk R.SEC_CAN_CFG.ann_ctl = n.val ∧ u.dev.st.operates = true ∧
      u.sec.trngFail = false ∧ ((u.can[n]).mode ≠ 0 ∧ u.cf n R.CAN_STAT.state ≠ 3) ∧ u.sec.annAt ≤ u.now)) = true := by decide +kernel

theorem witness_FramePast :
    (let s : State := fr rdy 0 0; let dt : Nat := 0; let u := s.elapse dt; let a := u.asked;
      let mask := u.f pk R.DEV_SWAP.cluster_mask; let cs := maskCls mask; let frame := u.f pk R.DEV_SWAP.at_frame;
      let d := (frame + 256 - u.sync.frame % 256) % 256; let near := u.sync.lastAt + 500 * u.sync.period < u.now + 10000;
      decide (u.hostOpen ∧ u.dev.swap = none ∧ (∀ x ∈ cs, a.setLocked x = false) ∧ u.fb pk R.DEV_SWAP.use_frame = true ∧
      u.sync.lost = false ∧ (d = 0 ∨ 129 ≤ d ∨ (d = 1 ∧ near)))) = true ∧
    (let s : State := fr (clus rdy .running) 255 0; let dt : Nat := 0; let ecc : Ecc := []; let u := s.elapse dt;
      let a := u.asked; let mask := u.f pk R.DEV_SWAP.cluster_mask; let cs := maskCls mask;
      let pkg := u.fb pk R.DEV_SWAP.package_set; let frame := u.f pk R.DEV_SWAP.at_frame;
      let d := (frame + 256 - u.sync.frame % 256) % 256; let near := u.sync.lastAt + 500 * u.sync.period < u.now + 10000;
      let v := (a.discardAll cs).answer .ok; decide (u.hostOpen ∧ u.dev.swap = none ∧ (∀ x ∈ cs, a.setLocked x = false) ∧
      u.fb pk R.DEV_SWAP.use_frame = true ∧ u.sync.lost = false ∧ 1 ≤ d ∧ d ≤ 128 ∧ (¬ (d = 1 ∧ near)) ∧
      (∀ c ∈ cs, v.swapReason cs.contains c = 0 ∧ v.splitPair cs.contains c = false) ∧
      (pkg = true → pkgReason v (pkgB (!u.dev.pkgB)) = 0) ∧ (fillAll ecc cs v).2 = none)) = true ∧
    (let s : State := { (fr (clus rdy .running) 5 7) with dev := { rdy.dev with swap := some (0xFF, some 6) } };
      let dt : Nat := 0; let u := s.elapse dt; decide (u.dev.st ≠ .off) && (match u.dev.swap with
      | some (_, some k) => decide (k ≠ u.sync.frame % 256)
      | _ => false)) = true ∧
    (let s : State := { (fr (clus rdy .running) 5 7) with dev := { rdy.dev with swap := some (1, some 5) } };
      let dt : Nat := 0; let u := s.elapse dt; decide (u.dev.st ≠ .off) && (match u.dev.swap with
      | some (_, some k) => decide (k = u.sync.frame % 256)
      | _ => false)) = true := by decide +kernel

theorem witness_ChainCrc :
    (let s : State := (rdy.setF (spB 0) R.SP_CRC.crc_len 5).setF (spB 0) R.SP_CFG.wlen 8; let p : Fin 2 := 0;
      let b := spB p; let n := s.f b R.SP_CRC.crc_len; let len := s.f b R.SP_CFG.wlen; decide (n ≠ 0 ∧ n ≤ len)) = true ∧
    (let s : State := rdy; let dt : Nat := 0; let edges : Nat := 0; let u := s.elapse dt; decide (u.dev.st ≠ .off ∧
      u.hp.exec = none ∧ edges % 32 = 0)) = true := by decide +kernel

theorem witness_ClustersAndCarrierComplete :
    (let s : State := clus rdy .stopped; let dt : Nat := 0; let n : Mcn := 0; let u := s.elapse dt; let a := u.asked;
      let c := mcCl n; decide (u.hostOpen ∧ a.armGroup c = some [c] ∧ (u.cl[c]).st = .stopped ∧ u.dev.st ≠ .bivouac ∧
      a.fb (rgB (clRg c)) R.RG_PS_STAT.bus_absent = false ∧ a.known n = 0 ∧
      a.fb (mcB n) R.MC_GATE_SHORT.same_window = false ∧ a.faultIn c 3 false = false ∧ a.armPort c = true ∧
      a.armReason c = 0)) = true ∧
    (let s : State := clus rdy .stopped; let dt : Nat := 0; let n : Mcn := 0; let u := s.elapse dt; let a := u.asked;
      let c := mcCl n; decide (u.hostOpen ∧ a.cmdGroup c = some [c] ∧ (u.cl[c]).st ≠ .unused ∧
      a.setLocked c = false)) = true ∧
    (let s : State := clus rdy .stopped; let dt : Nat := 0; let n : Mcn := 0; let ecc : Ecc := []; let u := s.elapse dt;
      let a := u.asked; let c := mcCl n; let v := (a.discardAll [c]).answer .ok; decide (u.hostOpen ∧
      a.cmdGroup c = some [c] ∧ (u.cl[c]).st ≠ .unused ∧ a.setLocked c = false ∧ v.swapReason [c].contains c = 0 ∧
      (fillAll ecc [c] v).2 = none)) = true ∧
    (let s : State := (clus rdy .running).modCl 0 fun x => { x with copying := true }; let dt : Nat := 0;
      let n : Mcn := 0; let u := s.elapse dt; let c := mcCl n; decide ((u.cl[c]).st ≠ .unused ∧
      (u.cl[c]).copying = true)) = true ∧
    (let s : State := pair ((clus rdy .stopped).modCl 0 fun x => { x with swapPending := true }); let dt : Nat := 0;
      let n : Mcn := 0; let u := s.elapse dt; let c := mcCl n; decide ((u.cl[c]).st ≠ .unused ∧
      (u.cl[c]).swapPending = true ∧ c ∈ u.group c)) = true ∧
    (let s : State := grat (clus rdy .running) 0 5 3 0 0; let dt : Nat := 0; let n : Mcn := 0; let k : Fin 64 := 0;
      let u := s.elapse dt; let c := mcCl n; let m := u.mc[n]; decide ((u.cl[c]).st ≠ .unused ∧ (m.grat[k]).live = true ∧
      u.within2us (m.grat[k]).edge = true)) = true ∧
    (let s : State := grat (clus rdy .running) 40 8 3 0 77; let dt : Nat := 0; let n : Mcn := 0; let k : Fin 64 := 40;
      let u := s.elapse dt; let c := mcCl n; decide ((u.cl[c]).st ≠ .unused ∧ u.gf n k R.MC_GRAT_CTL.type = 8 ∧
      (u.gDue n k).isSome = true ∧ u.gActs n k = true ∧ (∀ j : Fin 64, j.val < k.val → u.gDue n j ≠ u.gDue n k))) = true ∧
    (let s : State := pwmOn (clus rdy .running); let dt : Nat := 0; let n : Mcn := 0; let u := s.elapse dt;
      let c := mcCl n; let m := u.mc[n]; decide ((u.cl[c]).st ≠ .unused ∧ u.conv n = false ∧ m.pwm.running = true ∧
      m.pwm.zeroAt + m.pwm.period ≤ u.now)) = true ∧
    (let s : State := pwmOn (clus rdy .running) (fun w => { w with rising := true, pend := some Compare.reset });
      let dt : Nat := 0; let n : Mcn := 0; let u := s.elapse dt; let c := mcCl n; let m := u.mc[n];
      decide ((u.cl[c]).st ≠ .unused ∧ u.conv n = false ∧ m.pwm.running = true ∧ m.pwm.rising = true ∧
      m.pwm.zeroAt + m.pwm.period / 2 ≤ u.now)) = true ∧
    (let s : State := pwmOn (grat (clus rdy .running) 0 5 3 0 0); let dt : Nat := 0; let n : Mcn := 0;
      let u := s.elapse dt; let c := mcCl n; let m := u.mc[n]; decide ((u.cl[c]).st ≠ .unused ∧ u.conv n = false ∧
      m.pwm.running = true ∧ m.dat.valid = true ∧ (u.cl[c]).st.moving = true)) = true ∧
    (let s : State := pwmOn (clus rdy .running) (fun w => { w with pend := some Compare.reset, kfNext := some 5 });
      let dt : Nat := 0; let n : Mcn := 0; let u := s.elapse dt; let c := mcCl n; let m := u.mc[n];
      decide ((u.cl[c]).st ≠ .unused) && ((m.pwm.pend).any fun _ => true)) = true ∧
    (let s : State := pwmOn (clus rdy .running) (fun w => { w with pend := some Compare.reset, kfNext := some 5 });
      let dt : Nat := 0; let n : Mcn := 0; let u := s.elapse dt; let c := mcCl n; let m := u.mc[n];
      decide ((u.cl[c]).st ≠ .unused) && ((m.pwm.kfNext).any fun _ => true)) = true ∧
    (let s : State := pwmOn ((grat (clus rdy .running) 0 5 3 0 0).setF (eff (mcB 0)) R.MC_PWM_CTRL.family 2) (fun w => { w with sectorEnd := some 0 });
      let dt : Nat := 0; let n : Mcn := 0; let u := s.elapse dt; let c := mcCl n; let m := u.mc[n];
      decide ((u.cl[c]).st ≠ .unused ∧ m.dat.valid = true ∧ u.sectorsByDatum n = true ∧ u.sectorDue n = true)) = true ∧
    (let s : State := (rdy).setF pk R.DEV_SYS.sync_role 2; let dt : Nat := 0; let u := s.elapse dt; let y := u.sync;
      decide (u.syncRole = 2 ∧ y.expected = none)) = true ∧
    (let s : State := clus rdy .stopped; let dt : Nat := 0; let u := s.elapse dt; let y := u.sync;
      decide (u.dev.st ≠ .off ∧ u.frameDue = true ∧ y.numbered = false)) = true := by decide +kernel

theorem witness_SensingCompletes :
    (let s : State := seq (clus rdy .running); let dt : Nat := 0; let g : Grp := 0; let inj : Bool := false;
      let u := s.elapse dt; let x := u.grp[g]; let q := if inj then x.inj else x.reg;
      let trig := u.f (u.seqB g) (if inj then R.SEQ_CFG.inj_trig else R.SEQ_CFG.reg_trig);
      decide ((match grpMc g with | some n => decide ((u.cl[mcCl n]).st ≠ .unused) | none => decide (u.dev.st ≠ .off)) = true ∧
      u.senRuns g = true ∧ u.f (u.seqB g) (if inj then R.SEQ_CFG.inj_len else R.SEQ_CFG.reg_len) ≠ 0 ∧ q.plan = [] ∧
      q.last ≠ some u.now ∧ u.trigLive g trig = true)) = true ∧
    (let s : State := seq (clus rdy .running); let dt : Nat := 0; let g : Grp := 0; let inj : Bool := false;
      let u := s.elapse dt; let x := u.grp[g]; let q := if inj then x.inj else x.reg;
      let trig := u.f (u.seqB g) (if inj then R.SEQ_CFG.inj_trig else R.SEQ_CFG.reg_trig);
      decide ((match grpMc g with | some n => decide ((u.cl[mcCl n]).st ≠ .unused) | none => decide (u.dev.st ≠ .off)) = true ∧
      u.senRuns g = true ∧ u.f (u.seqB g) (if inj then R.SEQ_CFG.inj_len else R.SEQ_CFG.reg_len) ≠ 0 ∧ q.plan = [] ∧
      q.last ≠ some u.now ∧ u.trigLive g trig = true ∧ u.hostOpen ∧ trig = 7 ∧ inj = false)) = true ∧
    (let s : State := seq (clus rdy .running); let dt : Nat := 0; let g : Grp := 0; let inj : Bool := true;
      let u := s.elapse dt; let x := u.grp[g]; let q := if inj then x.inj else x.reg;
      let trig := u.f (u.seqB g) (if inj then R.SEQ_CFG.inj_trig else R.SEQ_CFG.reg_trig);
      decide ((match grpMc g with | some n => decide ((u.cl[mcCl n]).st ≠ .unused) | none => decide (u.dev.st ≠ .off)) = true ∧
      u.senRuns g = true ∧ u.f (u.seqB g) (if inj then R.SEQ_CFG.inj_len else R.SEQ_CFG.reg_len) ≠ 0 ∧ q.plan = [] ∧
      q.last ≠ some u.now ∧ u.trigLive g trig = true ∧ u.hostOpen ∧ trig = 7 ∧ inj = true)) = true ∧
    (let s : State := { clus rdy .running with grp := (clus rdy .running).grp.map fun g => { g with reg := { plan := [(0, 0x13), (1, 2)], due := 0, pass := 7, last := none } } };
      let dt : Nat := 0; let g : Grp := 0; let u := s.elapse dt; let x := u.grp[g];
      decide ((match grpMc g with | some n => decide ((u.cl[mcCl n]).st ≠ .unused) | none => decide (u.dev.st ≠ .off)) = true) &&
      ((u.freeSlice g).any fun _ => (match x.reg.plan with
      | (_, _) :: r => decide (r ≠ [] ∧ x.reg.due ≤ u.now ∧ u.urgentDue g = false)
      | _ => false))) = true ∧
    (let s : State := { clus rdy .running with grp := (clus rdy .running).grp.map fun g => { g with urgent := [(0, .grat 7)], reg := { plan := [(0, 0x13), (1, 2)], due := 0, pass := 7, last := none } } };
      let dt : Nat := 0; let g : Grp := 0; let u := s.elapse dt; let x := u.grp[g];
      decide ((match grpMc g with | some n => decide ((u.cl[mcCl n]).st ≠ .unused) | none => decide (u.dev.st ≠ .off)) = true) &&
      ((u.freeSlice g).any fun _ => (match x.urgent with
      | (_, _) :: _ => decide (x.inj.plan = [])
      | _ => false))) = true ∧
    (let s : State := { clus rdy .running with grp := (clus rdy .running).grp.map fun g => { g with slot := #v[some (.reg 0 0x13 1, 0), some (.reg 1 0x113 0, 1), some (.reg 15 1 1, 2)] } };
      let dt : Nat := 0; let g : Grp := 0; let i : Fin 3 := 0; let k : Fin 16 := 0; let w : Nat := 0x13;
      let pass : Nat := 1; let by_ : Nat := 0; let u := s.elapse dt; let x := u.grp[g];
      decide ((match grpMc g with | some n => decide ((u.cl[mcCl n]).st ≠ .unused) | none => decide (u.dev.st ≠ .off)) = true ∧
      x.slot[i] = some (.reg k.val w pass, by_) ∧ (∀ j : Fin 3, j ≠ i → converts k.val x.slot[j] = false) ∧
      i ∈ seqSlices g ∧ w % 64 = 0x13 ∧ bitAt w 6 = false ∧ bitAt w 7 = false)) = true ∧
    (let s : State := rdy; let dt : Nat := 0; let g : Grp := 6; let u := s.elapse dt; let x := u.grp[g]; let b := grpB g;
      decide ((match grpMc g with | some n => decide ((u.cl[mcCl n]).st ≠ .unused) | none => decide (u.dev.st ≠ .off)) = true ∧
      u.fb b R.SEN_CAL.cal_en = true ∧ u.fb b R.SEN_ROLE.no_spare = false ∧ x.shadow = false ∧
      u.worn (sliceUnit g (u.slice g (spareRole g))) = false)) = true ∧
    (let s : State := { clus rdy .running with grp := (clus rdy .running).grp.map fun g => { g with shadow := true, calNext := 2 } };
      let dt : Nat := 0; let g : Grp := 0; let u := s.elapse dt; let x := u.grp[g];
      decide ((match grpMc g with | some n => decide ((u.cl[mcCl n]).st ≠ .unused) | none => decide (u.dev.st ≠ .off)) = true ∧
      x.shadow = true ∧ u.roleBusy g x.calNext = false)) = true ∧
    (let s : State := pwmOn (cal (clus rdy .running)); let dt : Nat := 0; let g : Grp := 0; let u := s.elapse dt;
      decide ((match grpMc g with | some n => decide ((u.cl[mcCl n]).st ≠ .unused) | none => decide (u.dev.st ≠ .off)) = true) &&
      ((grpMc g).any fun n => decide (u.ampSpare n = true ∧ (u.mc[n]).pwm.running = true ∧
      u.f (ampB n) R.SEN_AMPCHK.amp_period ≠ 0))) = true ∧
    (let s : State := pwmOn { (cal (clus rdy .running)) with grp := (clus rdy .running).grp.map fun g => { g with ampBusy := true, ampTurn := 2 } };
      let dt : Nat := 0; let g : Grp := 0; let u := s.elapse dt; let x := u.grp[g];
      decide ((match grpMc g with | some n => decide ((u.cl[mcCl n]).st ≠ .unused) | none => decide (u.dev.st ≠ .off)) = true) &&
      ((grpMc g).any fun _ => decide (x.ampBusy = true))) = true ∧
    (let s : State := { (cal (clus rdy .running)) with grp := (clus rdy .running).grp.map fun g => { g with ampSwap := some 1 } };
      let dt : Nat := 0; let g : Grp := 0; let u := s.elapse dt; let x := u.grp[g];
      decide ((match grpMc g with | some n => decide ((u.cl[mcCl n]).st ≠ .unused) | none => decide (u.dev.st ≠ .off)) = true) &&
      ((grpMc g).any fun n => ((x.ampSwap).any fun _ => decide (u.ampSpare n = true)))) = true ∧
    (let s : State := { dma (clus rdy .running) with grp := (clus rdy .running).grp.map fun g => { g with fifo := [5] } };
      let dt : Nat := 0; let g : Grp := 0; let u := s.elapse dt; let x := u.grp[g];
      decide ((match grpMc g with | some n => decide ((u.cl[mcCl n]).st ≠ .unused) | none => decide (u.dev.st ≠ .off)) = true ∧
      g ≠ 8) && (match x.fifo with
      | [_] => decide (u.dmaFill g + 1 < Nat.max 1 (u.dmaLen g))
      | _ => false)) = true ∧
    (let s : State := rdy; let dt : Nat := 0; let g : Grp := 6; let v : BitVec 16 := 0; let u := s.elapse dt;
      decide ((match grpMc g with | some n => decide ((u.cl[mcCl n]).st ≠ .unused) | none => decide (u.dev.st ≠ .off)) = true ∧
      g ≠ 8 ∧ u.hostOpen ∧ v.toNat < u.dmaLen g)) = true := by decide +kernel

theorem witness_EstimationCompletes :
    (let s : State := src (clus rdy .running) 0 1; let dt : Nat := 0; let n : Mcn := 0; let code : BitVec 3 := 1;
      let u := s.elapse dt; let st := (u.cl[mcCl n]).st; let v := bitsAt (u.st n R.MC_POS_MAP.hall_map) (3 * code.toNat) 3;
      decide (st ≠ .unused ∧ u.conv n = false ∧ u.source n = 1 ∧ v < 6)) = true ∧
    (let s : State := est (dat (src (clus rdy .running) 0 1)) fun x => { x with hall := some 2, edges := [5, 3] };
      let dt : Nat := 0; let n : Mcn := 0; let u := s.elapse dt; let x := (u.mc[n]).est; let st := (u.cl[mcCl n]).st;
      decide (st ≠ .unused ∧ u.conv n = false ∧ u.source n = 1 ∧ x.hall.isSome = true ∧
      ((u.mc[n]).dat).valid = true)) = true ∧
    (let s : State := pwmOn ((ef (src (clus rdy .running) 0 2) R.MC_PWM_CTRL.family 2).setF (mcB 0) R.MC_EST_STAT.enc_ref 1);
      let dt : Nat := 0; let n : Mcn := 0; let u := s.elapse dt; let st := (u.cl[mcCl n]).st; decide (st ≠ .unused ∧
      u.conv n = false ∧ u.source n = 2)) = true ∧
    (let s : State := ef (src (clus rdy .running) 0 2) R.MC_POS_ENC.z_en 1; let dt : Nat := 0; let n : Mcn := 0;
      let u := s.elapse dt; let st := (u.cl[mcCl n]).st; decide (st ≠ .unused ∧ u.conv n = false ∧ u.source n = 2 ∧
      u.st n R.MC_POS_ENC.z_en = 1)) = true ∧
    (let s : State := (src (clus rdy .running) 0 3).setF (spB 0) R.SP_CFG.mode 2; let dt : Nat := 0; let n : Mcn := 0;
      let p : Fin 2 := 0; let u := s.elapse dt; let st := (u.cl[mcCl n]).st; decide (st ≠ .unused ∧ u.conv n = false ∧
      u.dev.st ≠ .off ∧ u.portMode p = 2)) = true ∧
    (let s : State := { ((src (clus rdy .running) 0 3).setF (spB 0) R.SP_CFG.mode 2).setF (spB 0) R.SP_CFG.wlen 24 with sp := Vector.replicate 2 { SensPort.reset with new := true, good := true, word := 0x1234 } };
      let dt : Nat := 0; let n : Mcn := 0; let p : Fin 2 := 0; let u := s.elapse dt; let st := (u.cl[mcCl n]).st;
      decide (st ≠ .unused ∧ u.conv n = false ∧ u.dev.st ≠ .off ∧ u.portMode p = 2 ∧ sourcePort (u.source n) = some p ∧
      (u.sp[p]).new = true)) = true ∧
    (let s : State := pwmOn ((ef (src (clus rdy .running) 0 2) R.MC_PWM_CTRL.family 2).setF (mcB 0) R.MC_EST_STAT.enc_ref 1);
      let dt : Nat := 0; let n : Mcn := 0; let u := s.elapse dt; let x := (u.mc[n]).est; let st := (u.cl[mcCl n]).st;
      decide (st ≠ .unused ∧ u.conv n = false ∧ u.foc n = false ∧ x.zcDone = false ∧ x.zcOver = false ∧
      st.moving = true)) = true ∧
    (let s : State := est (clus rdy .running) fun x => { x with fsOn := true }; let dt : Nat := 0; let n : Mcn := 0;
      let u := s.elapse dt; let st := (u.cl[mcCl n]).st; decide (st ≠ .unused ∧ u.conv n = false ∧
      u.fsRuns n = true)) = true ∧
    (let s : State := act ((clus rdy .starting).setF (mcB 0) R.MC_EST_STAT.phase 1) R.MC_START_CFG.find 1;
      let dt : Nat := 0; let n : Mcn := 0; let u := s.elapse dt; let x := (u.mc[n]).est; let st := (u.cl[mcCl n]).st;
      decide (st ≠ .unused ∧ u.conv n = false ∧ u.estF n R.MC_EST_STAT.phase = 1 ∧ x.fsSeen = false ∧
      ((u.mc[n]).dat).valid = false ∧ u.setFld n R.MC_START_CFG.find = 1)) = true ∧
    (let s : State := act ((clus rdy .starting).setF (mcB 0) R.MC_EST_STAT.phase 2) R.MC_START_CFG.find 1;
      let dt : Nat := 0; let n : Mcn := 0; let u := s.elapse dt; let st := (u.cl[mcCl n]).st; decide (st ≠ .unused ∧
      u.conv n = false ∧ st = .starting ∧ u.estF n R.MC_EST_STAT.phase = 2 ∧ u.setFld n R.MC_START_CFG.find = 1)) = true ∧
    (let s : State := act (est ((clus rdy .starting).setF (mcB 0) R.MC_EST_STAT.phase 3) fun x => { x with polStep := 7 }) R.MC_START_CFG.find 2;
      let dt : Nat := 0; let n : Mcn := 0; let k : Nat := 5; let u := s.elapse dt; let x := (u.mc[n]).est;
      let st := (u.cl[mcCl n]).st; decide (st ≠ .unused ∧ u.conv n = false ∧ st = .starting ∧
      u.estF n R.MC_EST_STAT.phase = 3 ∧ 6 < x.polStep ∧ 0 < k)) = true ∧
    (let s : State := act ((clus rdy .starting).setF (mcB 0) R.MC_EST_STAT.phase 1) R.MC_START_CFG.find 1;
      let dt : Nat := 0; let n : Mcn := 0; let u := s.elapse dt; let x := (u.mc[n]).est; let st := (u.cl[mcCl n]).st;
      decide (st ≠ .unused ∧ u.conv n = false ∧ st = .starting ∧ x.failed = false)) = true ∧
    (let s : State := est (act (clus rdy .starting) R.MC_START_CFG.fly 1) fun x => { x with failed := true };
      let dt : Nat := 0; let n : Mcn := 0; let u := s.elapse dt; let x := (u.mc[n]).est; let st := (u.cl[mcCl n]).st;
      decide (st ≠ .unused ∧ u.conv n = false ∧ st = .starting ∧ x.failed = true ∧
      u.setFld n R.MC_START_CFG.fly = 1)) = true ∧
    (let s : State := (est (act (links (clus rdy .running)) R.MC_STALL_CFG.stall_t 1) fun x => { x with stallSince := some 3 }).tick 600000;
      let dt : Nat := 0; let n : Mcn := 0; let u := s.elapse dt; let x := (u.mc[n]).est; let st := (u.cl[mcCl n]).st;
      decide (st ≠ .unused ∧ u.conv n = false) && ((x.stallSince).any fun t => decide (u.foc n = true ∧ st.moving = true ∧
      t + max 1 (u.setFld n R.MC_STALL_CFG.stall_t) * 500000 ≤ u.now ∧ (u.link[clRg (mcCl n)]).lost = false))) = true ∧
    (let s : State := est (links (clus rdy .running)) fun x => { x with resume := some .coast, recPath := some .coast };
      let dt : Nat := 0; let n : Mcn := 0; let u := s.elapse dt; let x := (u.mc[n]).est; let st := (u.cl[mcCl n]).st;
      decide (st ≠ .unused ∧ u.conv n = false) && ((x.resume).any fun _ => decide (x.recOver = false ∧
      st = .running))) = true ∧
    (let s : State := est (links (clus rdy .running)) fun x => { x with resume := some .coast, recPath := some .coast };
      let dt : Nat := 0; let n : Mcn := 0; let u := s.elapse dt; let x := (u.mc[n]).est; let st := (u.cl[mcCl n]).st;
      decide (st ≠ .unused ∧ u.conv n = false ∧ x.recPath ≠ none ∧ x.again = false ∧ x.recOver = false ∧
      (u.link[clRg (mcCl n)]).lost = false)) = true := by decide +kernel

theorem witness_LanesAndSheetsComplete :
    (let s : State := pager (clus rdy .running) fun p => { p with fill := some (fl []), dueAt := some 1 };
      let dt : Nat := 0; let j : JobId := .thermM 0; let u := s.elapse dt; decide (u.dev.st ≠ .off ∧ u.jobAllowed j = true ∧
      u.jobDue j = true)) = true ∧
    (let s : State := lane (clus rdy .running) (.cur 0) []; let dt : Nat := 0; let i : Fin 8 := 2;
      let r : Running := { what := { job := .cur 0, release := 0, num := 1, deadline := none, rerun := false }, start := 0, fin := 9, inp := [], setB := false, banks := 0 };
      let u := s.elapse dt; decide (u.dev.st ≠ .off ∧ (u.lanes[i]).busy = some r ∧ u.laneOf r.what.job = some i ∧
      (u.lanes[i]).st = .inService ∧ u.overrun r = false)) = true ∧
    (let s : State := lane (clus rdy .running) (.cur 0) []; let dt : Nat := 16000; let i : Fin 8 := 2;
      let r : Running := { what := { job := .cur 0, release := 0, num := 1, deadline := none, rerun := false }, start := 0, fin := 9, inp := [], setB := false, banks := 0 };
      let u := s.elapse dt; decide (u.dev.st ≠ .off ∧ (u.lanes[i]).busy = some r ∧ u.laneOf r.what.job = some i ∧
      (u.lanes[i]).st = .inService ∧ u.overrun r = true)) = true ∧
    (let s : State := pager (clus rdy .running) fun p => { p with fill := some (fl []), dueAt := some 1 };
      let dt : Nat := 0; let u := s.elapse dt; decide (u.dev.st ≠ .off)) = true ∧
    (let s : State := pager (clus rdy .running) fun p => { p with fill := some (fl []), dueAt := some 1 };
      let dt : Nat := 0; let u := s.elapse dt; decide (u.dev.st ≠ .off ∧ u.lanesIn ≠ [])) = true ∧
    (let s : State := pager (clus rdy .running) fun p => { p with fill := some (fl []), dueAt := some 1 };
      let dt : Nat := 0; let off : Fin 0x100000 := 0; let u := s.elapse dt; decide (u.dev.st ≠ .off ∧ u.hostOpen ∧
      u.sheetSt (off.val / 256) ≠ 3 ∧ u.sheetInUse (off.val / 256) = false)) = true ∧
    (let s : State := pager (clus rdy .running) fun p => { p with fill := some (fl []), dueAt := some 1 };
      let dt : Nat := 0; let x : BitVec 12 := 0; let u := s.elapse dt; decide (u.dev.st ≠ .off ∧ u.hostOpen ∧
      u.fb pk R.ATL_CMD.busy = false ∧ u.sheetInUse x.toNat = false)) = true ∧
    (let s : State := { shst rdy 8 3 with atlChk := some 8 }; let dt : Nat := 0; let u := s.elapse dt;
      decide (u.dev.st ≠ .off) && ((u.atlChk).any fun _ => true)) = true ∧
    (let s : State := pager (clus rdy .running) fun p => { p with fill := some (fl []), dueAt := some 1 };
      let dt : Nat := 0; let n : Mcn := 0; let u := s.elapse dt; let p := (u.mc[n]).atl; decide (u.dev.st ≠ .off ∧
      (u.cl[mcCl n]).st ≠ .unused) && ((p.fill).any fun f => decide (∀ k ∈ f.cells.sheets, u.sheetCrcOk k = true))) = true ∧
    (let s : State := pager (clus rdy .running) fun p => { p with fill := some (fl []), dueAt := some 1 };
      let dt : Nat := 0; let n : Mcn := 0; let u := s.elapse dt; let p := (u.mc[n]).atl; decide (u.dev.st ≠ .off ∧
      (u.cl[mcCl n]).st ≠ .unused ∧ p.fill ≠ none ∧ p.dueAt.isSome = true ∧
      u.fb (mcB n) R.MC_ATL_STAT.critical = false)) = true ∧
    (let s : State := ((pager (clus rdy .running) fun p => { p with held := some (fl [(64, some 8)]), dueAt := some 3 }).setF (mcB 0) R.MC_LOOP_BANK.pending 11).tick 5;
      let dt : Nat := 0; let n : Mcn := 0; let g : Fin 4 := 0; let f : Fill := fl [(64, some 8)]; let u := s.elapse dt;
      let p := (u.mc[n]).atl; decide (u.dev.st ≠ .off ∧ (u.cl[mcCl n]).st ≠ .unused ∧
      bitAt (u.f (mcB n) R.MC_LOOP_BANK.pending) g.val = true ∧ p.swap = none ∧ p.held = some f ∧ p.dueAt.isSome = true ∧
      g.val < 2)) = true ∧
    (let s : State := { rdy with rowFlags := [0, 511, 7] }; let dt : Nat := 0; let pos : Fin 512 := 0;
      let u := s.elapse dt; decide (u.dev.st ≠ .off ∧ pos.val ∈ u.rowFlags) && (match u.rowSpares with
      | _ :: _ => true
      | _ => false)) = true := by decide +kernel

end Sys2Proof.Tests
end

section
/-! PROOFS. Rules that the statements about refused commands and swaps (01_architecture) share: a command of the host or an
event of Kilid gives its own effect, and what each command of this chapter answers in the cases that its rule names. -/

namespace Sys2Proof.Machine

/-! ## From a command to its effect -/

/-- Where the host is judged, a row whose meaning is `hostAct act` gives the effect of `act`. -/
theorem State.gives_hostAct {s u : State} {dt : Nat} {i : Instr} {act : State → State} {P : State → Prop}
    (hx : exec i s = s.after dt (·.hostAct act)) (hu : s.elapse dt = u) (ho : u.hostOpen) (hp : P (act u.asked)) :
    s.Gives i dt P :=
  ⟨act u.asked, by rw [hx, State.after, hu, State.hostAct_open ho], hp⟩

/-- Out of OFF, a row whose meaning is `onKilid act` gives the effect of `act`. -/
theorem State.gives_onKilid {s u : State} {dt : Nat} {i : Instr} {act : State → State} {P : State → Prop}
    (hx : exec i s = s.after dt (·.onKilid act)) (hu : s.elapse dt = u) (hd : u.dev.st ≠ .off) (hp : P (act u)) :
    s.Gives i dt P :=
  ⟨act u, by rw [hx, State.after, hu, State.onKilid_live hd], hp⟩

@[simp] theorem State.asked_cl (u : State) : u.asked.cl = u.cl := rfl
@[simp] theorem State.asked_dev (u : State) : u.asked.dev = u.dev := rfl
@[simp] theorem State.asked_sync (u : State) : u.asked.sync = u.sync := rfl
@[simp] theorem State.asked_now (u : State) : u.asked.now = u.now := rfl
@[simp] theorem State.asked_f (u : State) (b : Nat) (f : Fld) : u.asked.f b f = u.f b f := rfl
@[simp] theorem State.asked_fb (u : State) (b : Nat) (f : Fld) : u.asked.fb b f = u.fb b f := rfl

/-! ## Lists of clusters -/

theorem mem_allCl (c : Cl) : c ∈ allCl := by
  revert c; decide

theorem mem_maskCls {m : Nat} {c : Cl} : c ∈ maskCls m ↔ bitAt m c.val = true := by
  simp [maskCls, mem_allCl]

theorem maskCls_nodup (m : Nat) : (maskCls m).Nodup :=
  List.Pairwise.filter _ (show allCl.Nodup by decide)

theorem State.mem_group (s : State) (c : Cl) : c ∈ s.group c := by
  unfold State.group
  split
  · split <;> simp
  · simp

theorem State.mem_cmdGroup {s : State} {c : Cl} {cs : List Cl} (h : s.cmdGroup c = some cs) : c ∈ cs := by
  unfold State.cmdGroup at h
  split at h
  · split at h
    · cases h
    · cases h; exact s.mem_group c
  · cases h; simp

/-! ## START and CLEAR (R22) -/

theorem State.startCmd_stopping {s : State} {c : Cl} {cs : List Cl} (hg : s.cmdGroup c = some cs)
    (hst : (s.cl[c]).st = .stopping) : s.startCmd c = s.answer .busyStop := by
  simp only [State.startCmd, hg, hst]

theorem State.clearCmd_notFaulted {s : State} {c : Cl} {cs : List Cl} (hg : s.cmdGroup c = some cs)
    (hst : (s.cl[c]).st ≠ .faulted) : s.clearCmd c = s.answer .badState := by
  simp only [State.clearCmd, hg, ne_eq, hst, not_false_eq_true, if_true]

theorem State.clearCmd_fault {s : State} {c x : Cl} {cs : List Cl} (hg : s.cmdGroup c = some cs)
    (hst : (s.cl[c]).st = .faulted) (hx : x ∈ cs) (hf : s.faultIn x 4 true = true) :
    s.clearCmd c = s.answer .activeFault := by
  have hany : (cs.any fun x => s.faultIn x 4 true) = true := List.any_eq_true.2 ⟨x, hx, hf⟩
  simp only [State.clearCmd, hg, hst, hany, ne_eq, not_true, if_false, if_true]

/-- For CLEAR a pulse source counts as long as it is asserted: only severity and scope are judged. -/
theorem State.faultIn_of_asserted {s : State} {x : Cl} {k i : Nat} (hi : i < 256) (ha : s.asserted i = true)
    (hk : k ≤ s.sev i) (hx : x ∈ s.inScope i) : s.faultIn x k true = true :=
  List.any_eq_true.2 ⟨i, List.mem_range.2 hi, by simp [ha, hk, hx]⟩

/-! ## RECOVER and RESUME (R27) -/

theorem State.recoverCmd_inService {s : State} {c : Cl} (h : (s.cl[c]).st.active = true ∨ (s.cl[c]).st = .safe) :
    s.recoverCmd = s.answer .busyRun :=
  if_pos (List.any_eq_true.2 ⟨c, mem_allCl c, by simpa using h⟩)

theorem State.resumeCmd_halted {s : State} {i : Nat} (hd : s.dev.st = .bivouac) (hi : i < 256)
    (ha : s.asserted i = true) (hs : s.sev i = 5) : s.resumeCmd = s.answer .activeFault := by
  have hh : s.haltAsserted = true := List.any_eq_true.2 ⟨i, List.mem_range.2 hi, by simp [ha, hs]⟩
  simp [State.resumeCmd, hd, hh]

/-! ## Swaps that a lock refuses (R29, R33) -/

theorem State.setLocked_of_swapPending {s : State} {c : Cl} (h : (s.cl[c]).swapPending = true) :
    s.setLocked c = true := by
  simp only [State.setLocked, State.swapPend, h, Bool.true_or]

theorem State.setLocked_of_devSwap {s : State} {c : Cl} {m : Nat} {f : Option Nat} (hs : s.dev.swap = some (m, f))
    (hm : bitAt m c.val = true) : s.setLocked c = true := by
  simp [State.setLocked, State.swapPend, hs, hm]

theorem State.swapReq_locked {s : State} {c x : Cl} {cs : List Cl} (ecc : Ecc) (hg : s.cmdGroup c = some cs)
    (hx : x ∈ cs) (hl : s.setLocked x = true) : s.swapReq c ecc = s.answer .swapPend := by
  have hany : cs.any s.setLocked = true := List.any_eq_true.2 ⟨x, hx, hl⟩
  simp only [State.swapReq, hg, hany, if_true]

/-- The clusters that DEV_SWAP selects. -/
abbrev State.devSwapCls (s : State) : List Cl := maskCls (s.f pk R.DEV_SWAP.cluster_mask)

theorem State.devSwapReq_locked {s : State} {x : Cl} (ecc : Ecc) (hx : x ∈ s.devSwapCls)
    (hl : s.setLocked x = true) : s.devSwapReq ecc = s.answer .swapPend :=
  if_pos (.inr (List.any_eq_true.2 ⟨x, hx, hl⟩))

end Sys2Proof.Machine

open Sys2Proof Sys2Proof.Machine

/-- Settles O9: each command reaches its refusing branch, CLEAR by the asserted source that `faultIn` finds. -/
theorem refusedStartsAndClears : Obligations.RefusedStartsAndClears := by
  intro s dt c cs u a ho hg
  have hu : s.elapse dt = u := rfl
  clear_value u
  refine ⟨fun hst => ?_, fun hst hsrc => ?_, fun hst => ?_⟩
  · exact State.gives_hostAct rfl hu ho (State.startCmd_stopping hg hst)
  · obtain ⟨x, hx, i, hi, ha, hsev, hscope⟩ := hsrc
    have hclear : a.clearCmd c = a.answer .activeFault :=
      State.clearCmd_fault hg hst hx (State.faultIn_of_asserted hi ha hsev hscope)
    exact State.gives_hostAct rfl hu ho ⟨hclear, (congrArg (fun e : State => (e.cl[c]).st) hclear).trans hst⟩
  · exact State.gives_hostAct rfl hu ho (State.clearCmd_notFaulted hg (by rw [State.asked_cl, hst]; decide))

/-- Settles O14: the cluster in service and the asserted HALT source are what the two checks look for. -/
theorem recoverAndResumeRefused : Obligations.RecoverAndResumeRefused := by
  intro s dt u a ho
  have hu : s.elapse dt = u := rfl
  clear_value u
  refine ⟨fun hc => ?_, fun hd hsrc => ?_⟩
  · obtain ⟨c, hc⟩ := hc
    exact State.gives_hostAct rfl hu ho (State.recoverCmd_inService (c := c) hc)
  · obtain ⟨i, hi, ha, hsev⟩ := hsrc
    exact State.gives_hostAct rfl hu ho (State.resumeCmd_halted hd hi ha hsev)

/-- Settles O15: either pending swap locks the cluster's set, and a locked set refuses the other request. -/
theorem swapsExcludeEachOther : Obligations.SwapsExcludeEachOther := by
  intro s dt c ecc u a ho
  have hu : s.elapse dt = u := rfl
  clear_value u
  refine ⟨fun m f hsw hm hg => ?_, fun hm hp => ?_⟩
  · obtain ⟨cs, hcs⟩ := Option.ne_none_iff_exists'.1 hg
    exact State.gives_hostAct rfl hu ho
      (State.swapReq_locked ecc hcs (State.mem_cmdGroup hcs) (State.setLocked_of_devSwap hsw hm))
  · exact State.gives_hostAct rfl hu ho
      (State.devSwapReq_locked ecc (mem_maskCls.2 hm) (State.setLocked_of_swapPending hp))
end

section
/-! PROOFS. The frame of set swaps (R28, R32 to R35): what the fills of a request and the change of sets leave alone, and the
clusters after a change of sets. -/

namespace Sys2Proof.Machine

/-- What the pager's fills of a swap and the change of banks and entries leave alone: the clusters, the device, the answer and
the word of DEV_SWAP. -/
def State.swapView (s : State) : Vector Cluster 8 × Dev × Status × Word :=
  (s.cl, s.dev, s.status, s.word R.DEV_SWAP.reg)

theorem State.swapView_eq_iff {s t : State} :
    s.swapView = t.swapView ↔
      s.cl = t.cl ∧ s.dev = t.dev ∧ s.status = t.status ∧ s.word R.DEV_SWAP.reg = t.word R.DEV_SWAP.reg := by
  simp [State.swapView]

/-! ## Words other than DEV_SWAP -/

theorem State.setWord_swapView (s : State) {k : Nat} (w : Word) (h : R.DEV_SWAP.reg < k) :
    (s.setWord k w).swapView = s.swapView :=
  State.swapView_eq_iff.2 ⟨rfl, rfl, rfl, State.word_setWord_ne s w (Nat.ne_of_lt h)⟩

theorem State.setF_swapView (s : State) {b : Nat} {f : Fld} (v : Nat) (h : R.DEV_SWAP.reg < b + f.off) :
    (s.setF b f v).swapView = s.swapView :=
  s.setWord_swapView _ h

theorem State.inc_swapView (s : State) {b : Nat} {f : Fld} (k : Nat) (h : R.DEV_SWAP.reg < b + f.off) :
    (s.inc b f k).swapView = s.swapView :=
  s.setF_swapView _ h

theorem lt_mcB (n : Mcn) (k : Nat) : R.DEV_SWAP.reg < mcB n + k := by
  simp only [mcB, R.DEV_SWAP.reg]; omega

@[simp] theorem State.setF_mcB_swapView (s : State) (n : Mcn) (f : Fld) (v : Nat) :
    (s.setF (mcB n) f v).swapView = s.swapView :=
  s.setF_swapView v (lt_mcB n _)

@[simp] theorem State.inc_mcB_swapView (s : State) (n : Mcn) (f : Fld) (k : Nat) :
    (s.inc (mcB n) f k).swapView = s.swapView :=
  s.inc_swapView k (lt_mcB n _)

/-! ## Records

A change of a record that none of the four parts reads. (Each proof names the parts: by `rfl` alone, `simp` would leave the
whole comparison of two states to the kernel.) -/

@[simp] theorem State.modMc_swapView (s : State) (n : Mcn) (g : Mc → Mc) : (s.modMc n g).swapView = s.swapView :=
  State.swapView_eq_iff.2 ⟨rfl, rfl, rfl, rfl⟩

@[simp] theorem State.modEntry_swapView (s : State) (n : Mcn) (k : Fin 64) (g : GEntry → GEntry) :
    (s.modEntry n k g).swapView = s.swapView :=
  s.modMc_swapView n _

@[simp] theorem State.modAtl_swapView (s : State) (n : Mcn) (g : Pager → Pager) : (s.modAtl n g).swapView = s.swapView :=
  s.modMc_swapView n _

@[simp] theorem State.setBank_swapView (s : State) (n : Mcn) (g : Fin 4) (i : Fin 2) (b : Bank) :
    (s.setBank n g i b).swapView = s.swapView :=
  s.modMc_swapView n _

@[simp] theorem State.modStp_swapView (s : State) (k : Chan) (g : Stepper → Stepper) :
    (s.modStp k g).swapView = s.swapView :=
  State.swapView_eq_iff.2 ⟨rfl, rfl, rfl, rfl⟩

@[simp] theorem State.modTrace_swapView (s : State) (u : Fin 4) (g : TraceU → TraceU) :
    (s.modTrace u g).swapView = s.swapView :=
  State.swapView_eq_iff.2 ⟨rfl, rfl, rfl, rfl⟩

@[simp] theorem State.modLink_swapView (s : State) (d : Rg) (g : Link → Link) : (s.modLink d g).swapView = s.swapView :=
  State.swapView_eq_iff.2 ⟨rfl, rfl, rfl, rfl⟩

@[simp] theorem State.wear_swapView (s : State) (u : Nat) : (s.wear u).swapView = s.swapView :=
  State.swapView_eq_iff.2 ⟨rfl, rfl, rfl, rfl⟩

@[simp] theorem State.flagRow_swapView (s : State) (n : Nat) : (s.flagRow n).swapView = s.swapView := by
  unfold State.flagRow; split <;> rfl

@[simp] theorem State.each_swapView {α : Type} (s : State) (l : List α) (g : α → State → State)
    (h : ∀ a t, (g a t).swapView = t.swapView) : (s.each l g).swapView = s.swapView :=
  State.each_keeps (P := fun t => t.swapView = s.swapView) (fun a t ht => (h a t).trans ht) s rfl

/-! ## Events -/

@[simp] theorem State.traceTrigger_swapView (u : Fin 4) (s : State) : (traceTrigger u s).swapView = s.swapView := by
  unfold traceTrigger
  dsimp only
  split
  · exact (State.modTrace_swapView _ _ _).trans
      (s.setF_swapView 2 (by simp only [trB, R.DEV_SWAP.reg]; omega))
  · rfl

@[simp] theorem State.traceEvent_swapView (e : Nat) (s : State) : (traceEvent e s).swapView = s.swapView := by
  refine State.each_swapView _ _ _ fun u t => ?_
  dsimp only
  split <;> simp

@[simp] theorem State.collect_swapView (e : Nat) (s : State) : (collect e s).swapView = s.swapView := by
  unfold collect
  rw [State.traceEvent_swapView, State.inc_swapView, State.setWord_swapView]
  all_goals simp only [R.DEV_SWAP.reg]; omega

@[simp] theorem State.raise_swapView (s : State) (e : Nat) : (s.raise e).swapView = s.swapView := by
  unfold State.raise
  dsimp only
  split
  · exact s.modLink_swapView ..
  · split
    · exact s.modLink_swapView ..
    · exact State.collect_swapView e s

/-! ## The pager (R185, R216, R218) -/

@[simp] theorem State.setSheet_swapView (s : State) (n st : Nat) : (s.setSheet n st).swapView = s.swapView := by
  unfold State.setSheet
  rw [State.setF_swapView, State.setF_swapView]
  all_goals simp only [R.DEV_SWAP.reg, R.ATL_STAT.n_loaded]; omega

@[simp] theorem State.sheetFail_swapView (s : State) (n : Mcn) (k : Nat) : (s.sheetFail n k).swapView = s.swapView := by
  simp [State.sheetFail, State.inc_swapView _ 1 (show R.DEV_SWAP.reg < pk + R.ATL_CNT.uncorr.off by decide)]

@[simp] theorem State.eccCorrected_swapView (s : State) (k : Nat) : (s.eccCorrected k).swapView = s.swapView := by
  have hinc : (s.inc pk R.ATL_CNT.ecc_corr).swapView = s.swapView := s.inc_swapView 1 (by decide)
  unfold State.eccCorrected
  dsimp only
  split <;> simp [hinc]

@[simp] theorem State.readSheet_swapView (s : State) (ecc : Ecc) (k : Nat) : (s.readSheet ecc k).1.swapView = s.swapView :=
  State.each_swapView _ _ _ fun _ t => t.eccCorrected_swapView k

@[simp] theorem readSheets_swapView (ecc : Ecc) (ks : List Nat) (s : State) :
    (readSheets ecc ks s).1.swapView = s.swapView := by
  induction ks generalizing s with
  | nil => rfl
  | cons k ks ih =>
    unfold readSheets
    dsimp only
    split
    · exact (ih _).trans (s.readSheet_swapView ecc k)
    · exact s.readSheet_swapView ecc k

@[simp] theorem State.atlDiscard_swapView (s : State) (n : Mcn) : (s.atlDiscard n).swapView = s.swapView := by
  unfold State.atlDiscard
  dsimp only
  split <;> simp [State.fillEnd]

@[simp] theorem State.discardAll_swapView (s : State) (cs : List Cl) : (s.discardAll cs).swapView = s.swapView := by
  refine State.each_swapView _ _ _ fun c t => ?_
  split <;> simp

/-- The last step of a fill: its banks wait for the swap. -/
theorem State.bankFill_swapView (s : State) (n : Mcn) (bank : Fin 4 → Bank) (g : Pager → Pager) :
    (((s.each allG fun i t => t.setBank n i (t.idle n i) (bank i)).setF (mcB n) R.MC_LOOP_BANK.pending 15).modAtl n
      g).swapView = s.swapView := by
  rw [State.modAtl_swapView, State.setF_mcB_swapView]
  exact State.each_swapView _ _ _ fun _ t => t.setBank_swapView ..

@[simp] theorem State.swapFill_swapView (s : State) (n : Mcn) (base : Nat) (ecc : Ecc) :
    (s.swapFill n base ecc).1.swapView = s.swapView := by
  unfold State.swapFill
  dsimp only
  split
  · split
    next t k hr =>
      have ht := congrArg (fun r => r.1.swapView) hr
      simpa using ht.symm
    next t hr =>
      have ht := congrArg (fun r => r.1.swapView) hr
      exact (t.bankFill_swapView ..).trans (by simpa using ht.symm)
  · exact (State.bankFill_swapView ..).trans (s.atlDiscard_swapView n)

theorem fillAll_swapView (ecc : Ecc) (cs : List Cl) (s : State) : (fillAll ecc cs s).1.swapView = s.swapView := by
  induction cs generalizing s with
  | nil => rfl
  | cons c cs ih =>
    unfold fillAll
    split
    next n _ =>
      dsimp only
      split
      · exact (ih _).trans (s.swapFill_swapView ..)
      · exact s.swapFill_swapView ..
    next => exact ih s

/-! ## The change of sets (R28, R65, R185) -/

@[simp] theorem State.bankBit_swapView (s : State) (n : Mcn) (f : Fld) (g : Fin 4) (v : Bool) :
    (s.bankBit n f g v).swapView = s.swapView :=
  s.setF_mcB_swapView ..

@[simp] theorem State.bankFlip_swapView (s : State) (n : Mcn) (g : Fin 4) : (s.bankFlip n g).swapView = s.swapView := by
  unfold State.bankFlip
  rw [State.bankBit_swapView, State.bankBit_swapView, State.bankBit_swapView]

@[simp] theorem State.swapBanks_swapView (s : State) (n : Mcn) : (s.swapBanks n).swapView = s.swapView := by
  unfold State.swapBanks
  split <;> simp [State.showAct]

@[simp] theorem State.gPredict_swapView (s : State) (n : Mcn) (k : Fin 64) : (s.gPredict n k).swapView = s.swapView := by
  unfold State.gPredict
  dsimp only
  split
  · simp
  · split
    · simp
    · split <;> simp

@[simp] theorem State.gLive_swapView (s : State) (n : Mcn) (k : Fin 64) : (s.gLive n k).swapView = s.swapView := by
  unfold State.gLive
  dsimp only
  split
  · simp
  · split <;> simp

@[simp] theorem State.gReeval_swapView (s : State) (n : Mcn) (keep : Fin 64 → Bool) :
    (s.gReeval n keep).swapView = s.swapView := by
  refine State.each_swapView _ _ _ fun k t => ?_
  dsimp only
  split
  · rfl
  · split
    · split
      · simp
      · split <;> simp
    · simp

@[simp] theorem State.gLoad_swapView (s : State) (n : Mcn) (keep : Fin 64 → Bool) :
    (s.gLoad n keep).swapView = s.swapView := by
  refine (State.gReeval_swapView _ n keep).trans (State.each_swapView _ _ _ fun k t => ?_)
  split <;> simp

@[simp] theorem State.coilRefs_swapView (s : State) (k : Chan) : (s.coilRefs k).swapView = s.swapView :=
  State.each_swapView _ _ _ fun _ t => t.modStp_swapView ..

@[simp] theorem State.levelDue_swapView (s : State) (k : Chan) : (s.levelDue k).swapView = s.swapView :=
  s.modStp_swapView ..

/-- The sets of a cluster change roles in its own record, and its pending swap is over. -/
def Cluster.setsSwapped (x : Cluster) : Cluster := { x with setB := !x.setB, swapPending := false }

/-- A change of sets changes that one cluster's record and no other. -/
theorem State.swapSets_cl (s : State) (c : Cl) : (s.swapSets c).cl = upd s.cl c (s.cl[c]).setsSwapped := by
  have hrest {t : State} (h : t.swapView = ((s.modCl c Cluster.setsSwapped).inc (clB c) R.MC_SWAP.swap_count).swapView) :
      t.cl = upd s.cl c (s.cl[c]).setsSwapped := (State.swapView_eq_iff.1 h).1
  unfold State.swapSets
  dsimp only
  split
  · refine hrest ?_
    rw [State.gLoad_swapView, State.swapBanks_swapView]; rfl
  · exact hrest (State.each_swapView _ _ _ fun k t => by simp)

/-- The clusters that change sets do so once each, and no other does. -/
theorem State.each_swapSets_cl {cs : List Cl} (hn : cs.Nodup) (s : State) (y : Cl) :
    (s.each cs fun c t => t.swapSets c).cl[y] = if y ∈ cs then (s.cl[y]).setsSwapped else s.cl[y] := by
  induction cs generalizing s with
  | nil => simp
  | cons c cs ih =>
    obtain ⟨hc, hcs⟩ := List.nodup_cons.1 hn
    rw [State.each_cons, ih hcs, State.swapSets_cl, upd_get]
    by_cases hy : y = c
    · subst hy; rw [if_neg hc, if_pos rfl, if_pos List.mem_cons_self]
    · simp only [List.mem_cons, hy, false_or, if_false]

theorem State.swapPackage_cl (s : State) : s.swapPackage.cl = s.cl :=
  State.each_keeps (P := fun t => t.cl = s.cl) (fun n t ht => by dsimp only; split <;> simpa using ht) _ rfl

/-! ## The device-wide swap at its frame (R35) -/

theorem State.devSwapNow_otherFrame {s : State} {m k : Nat} (hs : s.dev.swap = some (m, some k))
    (hk : k ≠ s.sync.frame % 256) : s.devSwapNow = s := by
  have hframe : ((some k).all fun f => f == s.sync.frame % 256) = false := by simpa using hk
  simp only [State.devSwapNow, hs, hframe, Bool.false_eq_true, if_false]

theorem State.devSwapNow_cl {s : State} {m : Nat} {f : Option Nat} (hs : s.dev.swap = some (m, f))
    (hf : (f.all fun k => k == s.sync.frame % 256) = true) (y : Cl) :
    s.devSwapNow.cl[y] = if bitAt m y.val = true then (s.cl[y]).setsSwapped else s.cl[y] := by
  have hcl : s.devSwapNow.cl
      = ((s.modDev fun d => { d with swap := none }).each (maskCls m) fun c t => t.swapSets c).cl := by
    simp only [State.devSwapNow, hs, hf, if_true]
    rw [State.inc_cl]
    split
    · exact State.swapPackage_cl _
    · rfl
  simp only [hcl, State.each_swapSets_cl (maskCls_nodup m), mem_maskCls, State.modDev_cl]

/-! ## The request of a device-wide swap (R32, R35) -/

/-- A frame is past where its distance `d` is 0 or more than 128, or 1 with less than 20 us left. -/
theorem State.framePast_iff (s : State) :
    s.framePast = true ↔
      (s.f pk R.DEV_SWAP.at_frame + 256 - s.sync.frame % 256) % 256 = 0
        ∨ 129 ≤ (s.f pk R.DEV_SWAP.at_frame + 256 - s.sync.frame % 256) % 256
        ∨ ((s.f pk R.DEV_SWAP.at_frame + 256 - s.sync.frame % 256) % 256 = 1
          ∧ s.sync.lastAt + 500 * s.sync.period < s.now + 10000) := by
  simp only [State.framePast, Bool.or_eq_true, Bool.and_eq_true, beq_iff_eq, decide_eq_true_eq, or_assoc]

theorem State.asked_framePast (u : State) : u.asked.framePast = u.framePast := rfl

/-- The state in which the sets of a device-wide swap are judged: the pager's own fills and held banks are discarded. -/
abbrev State.devSwapJudged (s : State) : State := (s.discardAll s.devSwapCls).answer .ok

section
variable {s : State} (ecc : Ecc) (hswap : s.dev.swap = none) (hfree : ∀ x ∈ s.devSwapCls, s.setLocked x = false)
  (hframe : s.fb pk R.DEV_SWAP.use_frame = true) (hlost : s.sync.lost = false)
include hswap hfree hframe hlost

theorem State.devSwapReq_past (hpast : s.framePast = true) : s.devSwapReq ecc = s.answer .framePast := by
  have hopen : ¬ (s.dev.swap.isSome = true ∨ s.devSwapCls.any s.setLocked = true) := by
    simpa [hswap] using hfree
  unfold State.devSwapReq
  dsimp only
  rw [if_neg hopen, if_neg (by simp [hlost]), if_pos ⟨hframe, hpast⟩]

variable (hnear : s.framePast = false)
  (hsets : ∀ c ∈ s.devSwapCls, s.devSwapJudged.swapReason s.devSwapCls.contains c = 0
    ∧ s.devSwapJudged.splitPair s.devSwapCls.contains c = false)
  (hpkg : s.fb pk R.DEV_SWAP.package_set = true → pkgReason s.devSwapJudged (pkgB (!s.dev.pkgB)) = 0)
  (hfill : (fillAll ecc s.devSwapCls s.devSwapJudged).2 = none)
include hnear hsets hpkg hfill

/-- A request that fails no check waits for its frame. -/
theorem State.devSwapReq_waits :
    s.devSwapReq ecc
      = ((fillAll ecc s.devSwapCls s.devSwapJudged).1.setF pk R.DEV_SWAP.reject 0).modDev fun d => { d with
          swap := some (s.f pk R.DEV_SWAP.cluster_mask + 256 * b2n (s.fb pk R.DEV_SWAP.package_set),
            some ((fillAll ecc s.devSwapCls s.devSwapJudged).1.f pk R.DEV_SWAP.at_frame)) } := by
  have hopen : ¬ (s.dev.swap.isSome = true ∨ s.devSwapCls.any s.setLocked = true) := by
    simpa [hswap] using hfree
  have hdev : s.devSwapJudged.dev = s.dev := (State.swapView_eq_iff.1 (s.discardAll_swapView s.devSwapCls)).2.1
  unfold State.devSwapReq
  dsimp only
  rw [if_neg hopen, if_neg (by simp [hlost]), if_neg (by simp [hnear])]
  split
  next c hc =>
    obtain ⟨hreason, hsplit⟩ := hsets c (List.mem_of_find?_eq_some hc)
    have hfails := List.find?_some hc
    simp only [bne_iff_ne] at hfails
    rw [if_neg] at hfails
    · exact absurd hreason hfails
    · exact fun h => Bool.false_ne_true (hsplit.symm.trans h.2)
  next =>
    rw [hdev, if_neg (by simpa using hpkg)]
    split
    next t c ht => simp [ht] at hfill
    next t ht => rw [ht, if_pos hframe]

/-- Such a request is answered OK, and the frame that it waits for is the one written: the fills leave DEV_SWAP alone. -/
theorem State.devSwapReq_waits_for_frame :
    (s.devSwapReq ecc).status = .ok
      ∧ (s.devSwapReq ecc).dev.swap
        = some (s.f pk R.DEV_SWAP.cluster_mask + 256 * b2n (s.fb pk R.DEV_SWAP.package_set),
            some (s.f pk R.DEV_SWAP.at_frame)) := by
  obtain ⟨-, -, hstatus, hword⟩ := State.swapView_eq_iff.1 (fillAll_swapView ecc s.devSwapCls s.devSwapJudged)
  obtain ⟨-, -, -, hjudged⟩ := State.swapView_eq_iff.1 (s.discardAll_swapView s.devSwapCls)
  have hkept : (fillAll ecc s.devSwapCls s.devSwapJudged).1.f pk R.DEV_SWAP.at_frame = s.f pk R.DEV_SWAP.at_frame :=
    congrArg R.DEV_SWAP.at_frame.get (hword.trans hjudged)
  rw [State.devSwapReq_waits ecc hswap hfree hframe hlost hnear hsets hpkg hfill, hkept]
  exact ⟨by rw [State.modDev_status, State.setF_status, hstatus, State.answer_status], by rw [State.modDev_dev]⟩
end

end Sys2Proof.Machine

open Sys2Proof Sys2Proof.Machine

/-- Settles O58: the distance decides `framePast`, a request past its frame stops before anything changes, one that waits keeps
at_frame through the fills, and the pending swap changes its clusters at that frame alone. -/
theorem framePast : Obligations.FramePast := by
  intro s dt ecc u a mask cs pkg frame d near v
  have hu : s.elapse dt = u := rfl
  clear_value u
  refine ⟨fun ho hswap hfree hframe hlost => ⟨fun hd => ?_, fun h1 h128 hnear hsets hpkg hfill => ?_⟩,
    fun m k hoff hswap => ⟨fun hk => ?_, fun hk => ?_⟩⟩
  · have hreq : a.devSwapReq ecc = a.answer .framePast :=
      State.devSwapReq_past ecc hswap hfree hframe hlost (u.asked_framePast.trans (u.framePast_iff.2 hd))
    exact State.gives_hostAct (act := fun t => t.devSwapReq ecc) rfl hu ho ⟨hreq, by rw [hreq]; exact hfree⟩
  · have hpast : a.framePast = false := by
      rw [State.asked_framePast, Bool.eq_false_iff, ne_eq, State.framePast_iff]
      rintro (h | h | h)
      · exact Nat.ne_of_gt h1 h
      · exact absurd h (Nat.not_le.2 (Nat.lt_succ_of_le h128))
      · exact hnear h
    exact State.gives_hostAct (act := fun t => t.devSwapReq ecc) rfl hu ho
      (State.devSwapReq_waits_for_frame (s := a) ecc hswap hfree hframe hlost hpast hsets hpkg hfill)
  · exact State.gives_onKilid rfl hu hoff (State.devSwapNow_otherFrame hswap hk)
  · refine State.gives_onKilid (act := State.devSwapNow) rfl hu hoff fun y hy => ?_
    rw [State.devSwapNow_cl hswap (by simpa using hk), if_pos hy]; rfl

end

section
/-! PROOFS. The JOB entries of the graticule (R57, R58, R63, R173): what a release does to the count of releases, what the
marks of a firing leave to the job that it names, and what a firing keeps after that. -/

namespace Sys2Proof.Machine

/-! ## Raising an event (R315, R322) -/

/-- A raising writes the collector's words and the trace units, and notes the event with the link or as raised: a view of the
state that reads none of these is as before. -/
theorem State.raise_keeps {α : Type} {view : State → α} {e : Nat} (s : State)
    (hword : ∀ (t : State) (k : Nat) (w : Word), k < 0xB000 + e → view (t.setWord k w) = view t)
    (htrace : ∀ (t : State) (u : Fin 4) (g : TraceU → TraceU), view (t.modTrace u g) = view t)
    (hlink : ∀ (t : State) (d : Rg) (g : Link → Link), view (t.modLink d g) = view t)
    (hraised : ∀ (t : State) (l : List Nat), view { t with raised := l } = view t) : view (s.raise e) = view s := by
  have htrigger (u : Fin 4) (t : State) : view (traceTrigger u t) = view t := by
    unfold traceTrigger
    dsimp only
    split
    · exact (htrace ..).trans (hword _ _ _ (by simp only [trB, R.TR_STAT.state]; omega))
    · rfl
  have hevent (t : State) : view (traceEvent e t) = view t := by
    refine State.each_keeps (P := fun v => view v = view t) (fun u v hv => ?_) t rfl
    dsimp only
    split
    · exact (htrigger u v).trans hv
    · exact hv
  have hcollect : view (collect e s) = view s :=
    (hevent _).trans ((hword _ _ _ (by dsimp only; omega)).trans (hword _ _ _ (by omega)))
  unfold State.raise
  dsimp only
  split
  · exact hlink ..
  · split
    · exact hlink ..
    · exact (hraised ..).trans hcollect

/-! ## The count of releases (R171, R184, R188, R196) -/

/-- The instant and the releases counted so far: what dropped jobs, banks and dispatch leave alone. -/
def State.runView (s : State) : Nat × List (JobId × Nat × Nat) := (s.now, s.runs)

theorem State.runView_eq_iff {s t : State} : s.runView = t.runView ↔ s.now = t.now ∧ s.runs = t.runs := by
  simp [State.runView]

@[simp] theorem State.setWord_runView (s : State) (k : Nat) (w : Word) : (s.setWord k w).runView = s.runView :=
  State.runView_eq_iff.2 ⟨rfl, rfl⟩
@[simp] theorem State.setF_runView (s : State) (b : Nat) (f : Fld) (v : Nat) : (s.setF b f v).runView = s.runView :=
  State.runView_eq_iff.2 ⟨rfl, rfl⟩
@[simp] theorem State.inc_runView (s : State) (b : Nat) (f : Fld) (k : Nat) : (s.inc b f k).runView = s.runView :=
  State.runView_eq_iff.2 ⟨rfl, rfl⟩
@[simp] theorem State.modMc_runView (s : State) (n : Mcn) (g : Mc → Mc) : (s.modMc n g).runView = s.runView :=
  State.runView_eq_iff.2 ⟨rfl, rfl⟩
@[simp] theorem State.modAtl_runView (s : State) (n : Mcn) (g : Pager → Pager) : (s.modAtl n g).runView = s.runView :=
  s.modMc_runView n _
@[simp] theorem State.modLoop_runView (s : State) (n : Mcn) (x : Fin 4) (g : LoopSt → LoopSt) :
    (s.modLoop n x g).runView = s.runView := s.modMc_runView n _
@[simp] theorem State.modLink_runView (s : State) (d : Rg) (g : Link → Link) : (s.modLink d g).runView = s.runView :=
  State.runView_eq_iff.2 ⟨rfl, rfl⟩
@[simp] theorem State.modTrace_runView (s : State) (u : Fin 4) (g : TraceU → TraceU) :
    (s.modTrace u g).runView = s.runView := State.runView_eq_iff.2 ⟨rfl, rfl⟩

@[simp] theorem State.each_runView {α : Type} (s : State) (l : List α) (g : α → State → State)
    (h : ∀ a t, (g a t).runView = t.runView) : (s.each l g).runView = s.runView :=
  State.each_keeps (P := fun t => t.runView = s.runView) (fun a t ht => (h a t).trans ht) s rfl

@[simp] theorem State.raise_runView (s : State) (e : Nat) : (s.raise e).runView = s.runView :=
  s.raise_keeps (fun t k w _ => t.setWord_runView k w) State.modTrace_runView State.modLink_runView
    fun _ _ => State.runView_eq_iff.2 ⟨rfl, rfl⟩

@[simp] theorem State.markMissed_runView (j : JobId) (s : State) : (markMissed j s).runView = s.runView := by
  cases j <;> simp [markMissed]

@[simp] theorem State.traceMissed_runView (j : JobId) (s : State) : (traceMissed j s).runView = s.runView := by
  cases j <;> simp [traceMissed]

@[simp] theorem State.ltestMissed_runView (j : JobId) (s : State) : (ltestMissed j s).runView = s.runView := by
  unfold ltestMissed
  split
  · exact State.runView_eq_iff.2 ⟨rfl, rfl⟩
  · rfl

@[simp] theorem State.miss_runView (s : State) (j : JobId) : (s.miss j).runView = s.runView := by
  unfold State.miss
  dsimp only
  split
  · split <;> simp
  · split <;> simp

@[simp] theorem State.dropJob_runView (s : State) (r : Ready) : (s.dropJob r).runView = s.runView := by
  unfold State.dropJob
  rw [State.miss_runView, State.inc_runView]
  exact State.runView_eq_iff.2 ⟨rfl, rfl⟩

theorem dispatch_runView (inputs : JobId → State → List Int) (fuel : Nat) (s : State) :
    (dispatch inputs fuel s).runView = s.runView := by
  induction fuel generalizing s with
  | zero => rfl
  | succ fuel ih =>
    have hdrop (r : Ready) : (dispatch inputs fuel (s.dropJob r)).runView = s.runView :=
      (ih _).trans (s.dropJob_runView r)
    unfold dispatch
    split
    · rfl
    · split
      · exact hdrop _
      · refine iteInduction (motive := fun t : State => t.runView = s.runView) (fun _ => hdrop _) fun _ => ?_
        split
        · rfl
        · refine (ih _).trans ?_
          split
          · exact (State.inc_runView ..).trans (State.runView_eq_iff.2 ⟨rfl, rfl⟩)
          · exact State.runView_eq_iff.2 ⟨rfl, rfl⟩

@[simp] theorem State.bankBit_runView (s : State) (n : Mcn) (f : Fld) (g : Fin 4) (v : Bool) :
    (s.bankBit n f g v).runView = s.runView := s.setF_runView ..

@[simp] theorem State.bankFlip_runView (s : State) (n : Mcn) (g : Fin 4) : (s.bankFlip n g).runView = s.runView := by
  unfold State.bankFlip
  rw [State.bankBit_runView, State.bankBit_runView, State.bankBit_runView]

@[simp] theorem State.showAct_runView (s : State) (n : Mcn) (f : Fill) : (s.showAct n f).runView = s.runView := by
  simp [State.showAct]

@[simp] theorem State.bankSwap_runView (s : State) (n : Mcn) (g : Fin 4) : (s.bankSwap n g).runView = s.runView := by
  unfold State.bankSwap
  extract_lets p a flipped
  split
  · split
    next f _ =>
      extract_lets shown swapped
      have hshown : shown.runView = s.runView := by
        simp only [shown, flipped]
        split <;> simp
      have hswapped : swapped.runView = s.runView := by
        simp only [swapped]
        split
        · exact hshown
        · rw [State.showAct_runView, hshown]
      split
      · rw [State.setF_runView, State.modAtl_runView, hswapped]
      · exact hshown
    next => rfl
  · rfl

theorem State.jobBoundary_runView (s : State) (j : JobId) : (s.jobBoundary j).runView = s.runView := by
  cases j <;> simp [State.jobBoundary]

/-- A release counts its job once, at the present instant. -/
theorem State.release_runs (s : State) (inputs : JobId → State → List Int) (j : JobId) :
    (s.release inputs j).runs = countRun j s.now s.runs := by
  have hruns {t : State} {l : List (JobId × Nat × Nat)} {m : Nat} (h : t.runView = (m, l)) : t.runs = l :=
    congrArg Prod.snd h
  unfold State.release
  dsimp only
  refine hruns (m := s.now) ((dispatch_runView ..).trans ?_)
  split
  next old _ =>
    obtain ⟨hnow, hr⟩ := State.runView_eq_iff.1 (s.dropJob_runView old)
    have hcount : countRun j (s.dropJob old).now (s.dropJob old).runs = countRun j s.now s.runs := by rw [hnow, hr]
    exact Prod.ext hnow hcount
  next => rfl

/-- A release that the state admits is counted (R172, R196). -/
theorem State.relIf_runs {s : State} {j : JobId} (h : s.jobAllowed j = true) :
    (s.relIf j).runs = countRun j s.now s.runs := by
  obtain ⟨hnow, hruns⟩ := State.runView_eq_iff.1 (s.jobBoundary_runView j)
  unfold State.relIf State.rel
  rw [if_pos h, State.release_runs, hnow, hruns]

/-! ## What a job's release reads (R172, R173) -/

/-- What decides whether a firing of motor cluster `n` releases the atlas or the speed job, and what the release counts on. -/
def State.jobView (s : State) (n : Mcn) :=
  (s.runView, s.cl, s.lanes, s.ready, (s.mc[n]).est, s.conv n, s.ov2 (clRg (mcCl n)),
    fun i => s.word (mcSetB n false + i))

theorem State.jobView_eq_iff {s t : State} {n : Mcn} :
    s.jobView n = t.jobView n ↔
      s.runView = t.runView ∧ s.cl = t.cl ∧ s.lanes = t.lanes ∧ s.ready = t.ready ∧ (s.mc[n]).est = (t.mc[n]).est
        ∧ s.conv n = t.conv n ∧ s.ov2 (clRg (mcCl n)) = t.ov2 (clRg (mcCl n))
        ∧ ∀ i, s.word (mcSetB n false + i) = t.word (mcSetB n false + i) := by
  simp [State.jobView, funext_iff]

/-- A word below the operating sets, other than MC_STATE, is not among what a release reads. -/
theorem State.setWord_jobView (s : State) {n : Mcn} {k : Nat} (w : Word) (hset : k < mcSetB n false)
    (hstate : k ≠ mcB n + R.MC_STATE.personality.off) : (s.setWord k w).jobView n = s.jobView n := by
  have hbelow : k < mcB n + 0x8000 := hset
  have hregion : rgB (clRg (mcCl n)) + R.RG_PS_STAT.ov2_act.off ≠ k := by
    simp only [mcB, rgB, R.RG_PS_STAT.ov2_act] at hbelow ⊢; omega
  refine State.jobView_eq_iff.2 ⟨s.setWord_runView k w, rfl, rfl, rfl, rfl, ?_, ?_, fun i => s.word_setWord_ne w (by omega)⟩
  · unfold State.conv State.fb State.f
    rw [s.word_setWord_ne w (Ne.symm hstate)]
  · unfold State.ov2 State.fb State.f
    rw [s.word_setWord_ne w hregion]

/-- Nor is any of the motor cluster's own registers between the two. -/
theorem State.setWord_mc_jobView (s : State) (n : Mcn) {i : Nat} (w : Word) (hstate : R.MC_STATE.personality.off < i)
    (hset : i < 0x8000) : (s.setWord (mcB n + i) w).jobView n = s.jobView n :=
  s.setWord_jobView w (Nat.add_lt_add_left hset _) (Nat.ne_of_gt (Nat.add_lt_add_left hstate _))

/-- Nor is any register below the motor clusters. -/
theorem State.setWord_low_jobView (s : State) (n : Mcn) {k : Nat} (w : Word) (hk : k < 0x100000) :
    (s.setWord k w).jobView n = s.jobView n :=
  have hmotor : 0x100000 ≤ mcB n := Nat.le_add_right ..
  s.setWord_jobView w (Nat.lt_of_lt_of_le hk (Nat.le_add_right_of_le (Nat.le_add_right_of_le hmotor))) (by omega)

theorem State.modEntry_entry (s : State) (n : Mcn) (k : Fin 64) (g : GEntry → GEntry) :
    ((s.modEntry n k g).mc[n]).grat[k] = g (s.mc[n]).grat[k] :=
  (congrArg (fun m : Mc => m.grat[k]) (upd_self ..)).trans (upd_self ..)

theorem State.modEntry_jobView (s : State) (n : Mcn) (k : Fin 64) (g : GEntry → GEntry) :
    (s.modEntry n k g).jobView n = s.jobView n := by
  have hest : ((s.modEntry n k g).mc[n]).est = (s.mc[n]).est := by
    rw [show (s.modEntry n k g).mc = upd s.mc n _ from rfl, upd_self]
  exact State.jobView_eq_iff.2 ⟨s.modMc_runView n _, rfl, rfl, rfl, hest, rfl, rfl, fun _ => rfl⟩

theorem State.modLink_jobView (s : State) (n : Mcn) (d : Rg) (g : Link → Link) :
    (s.modLink d g).jobView n = s.jobView n :=
  State.jobView_eq_iff.2 ⟨s.modLink_runView d g, rfl, rfl, rfl, rfl, rfl, rfl, fun _ => rfl⟩

theorem State.modTrace_jobView (s : State) (n : Mcn) (u : Fin 4) (g : TraceU → TraceU) :
    (s.modTrace u g).jobView n = s.jobView n :=
  State.jobView_eq_iff.2 ⟨s.modTrace_runView u g, rfl, rfl, rfl, rfl, rfl, rfl, fun _ => rfl⟩

theorem State.raise_jobView (s : State) (n : Mcn) {e : Nat} (he : e < 256) : (s.raise e).jobView n = s.jobView n :=
  s.raise_keeps (view := (·.jobView n)) (fun t _ w hk => t.setWord_low_jobView n w (by omega))
    (fun t => t.modTrace_jobView n) (fun t => t.modLink_jobView n)
    fun _ _ => State.jobView_eq_iff.2 ⟨State.runView_eq_iff.2 ⟨rfl, rfl⟩, rfl, rfl, rfl, rfl, rfl, rfl, fun _ => rfl⟩

section
variable {s t : State} {n : Mcn} (h : t.jobView n = s.jobView n)
include h

theorem State.setFld_of_jobView (f : Fld) : t.setFld n f = s.setFld n f := by
  obtain ⟨-, hcl, -, -, -, -, -, hword⟩ := State.jobView_eq_iff.1 h
  have hset := hword (b2n (s.cl[mcCl n]).setB * 0x4000 + f.off)
  unfold State.setFld State.f State.act
  rw [hcl]
  refine congrArg f.get ?_
  simpa [mcSetB, b2n, Nat.add_assoc] using hset

theorem State.gf_of_jobView (k : Fin 64) (f : Fld) : t.gf n k f = s.gf n k f := by
  have hfield (v : State) : v.gf n k f = v.setFld n { f with off := 2 * k.val + f.off } :=
    congrArg (fun i => f.get (v.word i)) (Nat.add_assoc ..)
  rw [hfield, hfield, State.setFld_of_jobView h]

theorem State.jobAllowed_atlas_of_jobView : t.jobAllowed (.atlas n) = s.jobAllowed (.atlas n) := by
  obtain ⟨-, hcl, -, -, -, -, -, -⟩ := State.jobView_eq_iff.1 h
  simp only [State.jobAllowed, hcl, State.setFld_of_jobView h]

theorem State.jobAllowed_spd_of_jobView : t.jobAllowed (.spd n) = s.jobAllowed (.spd n) := by
  obtain ⟨-, hcl, -, -, hest, hconv, hov2, -⟩ := State.jobView_eq_iff.1 h
  simp only [State.jobAllowed, State.loopsHeld, hcl, hest, hconv, hov2]

end

/-! ## The marks of a firing (R57, R60) -/

/-- Bit `b` of a word reads 1 once it has been set. -/
theorem bitAt_setBit_true (w : Word) {b : Nat} (hb : b < 32) : bitAt (setBit w b true).toNat b = true := by
  have htest (m : Nat) : bitAt m b = m.testBit b := by
    rw [Nat.testBit_eq_decide_div_mod_eq]; rfl
  simp only [setBit, BitVec.toNat_ofNat, htest, Nat.testBit_mod_two_pow, hb, decide_true, Bool.true_and]
  cases hbit : w.toNat.testBit b with
  | true =>
    have hle : 2 ^ b ≤ w.toNat := Nat.ge_two_pow_of_testBit hbit
    simpa [b2n, Nat.sub_add_cancel hle] using hbit
  | false => simp [b2n, Nat.add_comm w.toNat, Nat.testBit_two_pow_add_eq, hbit]

/-- The register that holds the bit of an entry that has fired. -/
abbrev firedReg (n : Mcn) (k : Fin 64) : Nat :=
  mcB n + (if k.val < 32 then R.MC_GRAT_FIRED_LO.reg else R.MC_GRAT_FIRED_HI.reg)

theorem State.gFired_bit (s : State) (n : Mcn) (k : Fin 64) :
    bitAt ((s.gFired n k).word (firedReg n k)).toNat (k.val % 32) = true := by
  unfold State.gFired
  dsimp only
  rw [State.word_setWord_self]
  exact bitAt_setBit_true _ (Nat.mod_lt _ (by decide))

theorem State.gFired_jobView (s : State) (n : Mcn) (k : Fin 64) : (s.gFired n k).jobView n = s.jobView n :=
  s.setWord_mc_jobView n _ (by split <;> decide) (by split <;> decide)

/-- An entry fires: it is spent, and a late firing is counted and raised. -/
def State.gSpent (s : State) (n : Mcn) (k : Fin 64) : State :=
  let t := s.modEntry n k GEntry.spend
  if ((s.mc[n]).grat[k]).late then (t.inc (mcB n) R.MC_GRAT_STAT.late_count).raise (evMc n 1) else t

/-- The state in which an entry that fires does what its type says: its bit is set and its instant noted. -/
def State.gMarked (s : State) (n : Mcn) (k : Fin 64) : State :=
  ((s.gSpent n k).gFired n k).modEntry n k fun e => { e with lastFire := some (s.gSpent n k).now16 }

theorem State.gSpent_jobView (s : State) (n : Mcn) (k : Fin 64) : (s.gSpent n k).jobView n = s.jobView n := by
  unfold State.gSpent
  dsimp only
  split
  · refine (State.raise_jobView _ n (by simp only [evMc]; omega)).trans ?_
    exact (State.setWord_mc_jobView _ n _ (by decide) (by decide)).trans (s.modEntry_jobView ..)
  · exact s.modEntry_jobView ..

/-- The marks of a firing leave what a release reads. -/
theorem State.gMarked_jobView (s : State) (n : Mcn) (k : Fin 64) : (s.gMarked n k).jobView n = s.jobView n :=
  (State.modEntry_jobView ..).trans ((State.gFired_jobView ..).trans (s.gSpent_jobView n k))

theorem State.gMarked_lastFire (s : State) (n : Mcn) (k : Fin 64) :
    (((s.gMarked n k).mc[n]).grat[k]).lastFire = some s.now16 := by
  have hnow : (s.gSpent n k).now = s.now :=
    (State.runView_eq_iff.1 (State.jobView_eq_iff.1 (s.gSpent_jobView n k)).1).1
  simp only [State.gMarked, State.modEntry_entry, State.now16, hnow]

theorem State.gMarked_bit (s : State) (n : Mcn) (k : Fin 64) :
    bitAt ((s.gMarked n k).word (firedReg n k)).toNat (k.val % 32) = true := by
  unfold State.gMarked State.modEntry
  rw [State.modMc_word]
  exact (s.gSpent n k).gFired_bit n k

/-! ## The rest of a firing (R60 to R63) -/

/-- What a periodic entry keeps as it moves on to its next target. -/
def State.firedView (s : State) (n : Mcn) (k : Fin 64) :=
  (s.ready, s.lanes, s.runs, s.store, ((s.mc[n]).grat[k]).lastFire)

theorem State.firedView_eq_iff {s t : State} {n : Mcn} {k : Fin 64} :
    s.firedView n k = t.firedView n k ↔
      s.ready = t.ready ∧ s.lanes = t.lanes ∧ s.runs = t.runs ∧ s.store = t.store
        ∧ ((s.mc[n]).grat[k]).lastFire = ((t.mc[n]).grat[k]).lastFire := by
  simp [State.firedView]

theorem State.modEntry_firedView (s : State) (n : Mcn) (k : Fin 64) {g : GEntry → GEntry}
    (hg : ∀ e, (g e).lastFire = e.lastFire) : (s.modEntry n k g).firedView n k = s.firedView n k := by
  refine State.firedView_eq_iff.2 ⟨rfl, rfl, rfl, rfl, ?_⟩
  rw [State.modEntry_entry, hg]

theorem State.gPredict_firedView (s : State) (n : Mcn) (k : Fin 64) :
    (s.gPredict n k).firedView n k = s.firedView n k := by
  unfold State.gPredict
  dsimp only
  split
  · exact s.modEntry_firedView n k fun _ => rfl
  · split
    · exact s.modEntry_firedView n k fun _ => rfl
    · split <;> exact s.modEntry_firedView n k fun _ => rfl

theorem State.gAdvance_firedView (s : State) (n : Mcn) (k : Fin 64) (step : Nat) :
    (s.gAdvance n k step).firedView n k = s.firedView n k := by
  unfold State.gAdvance
  extract_lets m d t
  have ht : t.firedView n k = s.firedView n k := s.modEntry_firedView n k fun _ => rfl
  split
  · exact ht
  · split
    · have hlive := (t.modEntry_firedView n k (g := fun e => { e with live := true }) fun _ => rfl).trans ht
      split
      · exact (State.gPredict_firedView ..).trans hlive
      · exact hlive
    · exact ht

/-- No entry of a lower number falls due on the same tick: the entry fires alone. -/
theorem State.gFire_alone {s : State} {n : Mcn} {k : Fin 64}
    (hfirst : ∀ j : Fin 64, j.val < k.val → s.gDue n j ≠ s.gDue n k) : s.gFire n k = s.gFire1 n k := by
  have hnone : (allK.filter fun j => decide (j.val < k.val) && s.gDue n j == s.gDue n k) = [] :=
    List.filter_eq_nil_iff.2 fun j _ => by simpa using hfirst j
  unfold State.gFire
  dsimp only
  rw [hnone, State.each_nil, ite_self]

section
variable {s : State} {n : Mcn} {k : Fin 64} (htype : s.gf n k R.MC_GRAT_CTL.type = 7)
include htype

/-- A JOB entry that is due and acts, and was not merged into its previous firing, does its action in the marked state. -/
theorem State.gFire1_job (hdue : (s.gDue n k).isSome = true) (hacts : s.gActs n k = true)
    (hrate : ∀ t, s.gf n k R.MC_GRAT_CTL.step_or_b ≠ 0 → ((s.mc[n]).grat[k]).lastFire = some t → 8000 ≤ s.now16 - t) :
    (s.gFire1 n k).firedView n k = ((s.gMarked n k).gAction n k).firedView n k := by
  unfold State.gFire1
  rw [if_pos hdue]
  extract_lets e tgt type step acts merged spent reported marked acted effect
  have hstep : step = s.gf n k R.MC_GRAT_CTL.step_or_b := by simp [step, type, htype, gStep]
  have hmerged : merged = false := by
    cases hlast : e.lastFire with
    | none => simp [merged, hlast]
    | some t =>
      have hgap (h : step ≠ 0) : ¬ s.now16 - t < 8000 := Int.not_lt.2 (hrate t (hstep ▸ h) hlast)
      simpa [merged, hlast] using hgap
  have heffect : effect = (s.gMarked n k).gAction n k := by
    have htype1 : ¬ type = 1 := by simp [type, htype]
    simp only [effect, hmerged, Bool.false_eq_true, if_false, show acts = true from hacts, if_true, htype1]
    rfl
  rw [heffect]
  split
  · rfl
  · exact State.gAdvance_firedView ..

theorem State.gAction_atlas (ha : s.gf n k R.MC_GRAT_CTL.param_a = 9) : s.gAction n k = s.relIf (.atlas n) := by
  simp [State.gAction, htype, ha]

theorem State.gAction_spd (ha : s.gf n k R.MC_GRAT_CTL.param_a = 3) (hsrc : s.setFld n R.MC_LOOP_CFG.spd_src = 1) :
    s.gAction n k = s.relIf (.spd n) := by
  simp [State.gAction, htype, ha, hsrc]

theorem State.gAction_noJob (h9 : s.gf n k R.MC_GRAT_CTL.param_a ≠ 9)
    (h3 : s.gf n k R.MC_GRAT_CTL.param_a ≠ 3 ∨ s.setFld n R.MC_LOOP_CFG.spd_src ≠ 1) : s.gAction n k = s := by
  have hspd : ¬ (s.gf n k R.MC_GRAT_CTL.param_a = 3 ∧ s.setFld n R.MC_LOOP_CFG.spd_src = 1) :=
    fun ⟨ha, hsrc⟩ => h3.elim (· ha) (· hsrc)
  simp [State.gAction, htype, h9, hspd]

end

/-- In a motor cluster in use, a row whose meaning is `onMc n act` gives the effect of `act`. -/
theorem State.gives_onMc {s u : State} {dt : Nat} {i : Instr} {n : Mcn} {act : State → State} {P : State → Prop}
    (hx : exec i s = s.after dt (·.onMc n act)) (hu : s.elapse dt = u) (hn : (u.cl[mcCl n]).st ≠ .unused)
    (hp : P (act u)) : s.Gives i dt P :=
  ⟨act u, by rw [hx, State.after, hu, State.onMc_live hn], hp⟩

end Sys2Proof.Machine

open Sys2Proof Sys2Proof.Machine

/-- Settles O21: the entry fires alone and its marks leave what a release reads, so its action is the release that its code
names, or none; what a periodic entry does after that keeps both. -/
theorem jobEntriesRelease : Obligations.JobEntriesRelease := by
  intro s dt n k u x a hused htype hdue hfirst hacts hrate
  have hu : s.elapse dt = u := rfl
  clear_value u
  have hjob := u.gMarked_jobView n k
  have htypeM := (State.gf_of_jobView hjob k _).trans htype
  have hparam : (u.gMarked n k).gf n k R.MC_GRAT_CTL.param_a = a := State.gf_of_jobView hjob k _
  have hsrc := State.setFld_of_jobView hjob R.MC_LOOP_CFG.spd_src
  obtain ⟨hview, -, hlanes, hready, -⟩ := State.jobView_eq_iff.1 hjob
  obtain ⟨hnow, hruns⟩ := State.runView_eq_iff.1 hview
  have hfired := State.gFire1_job htype hdue hacts hrate
  rw [← State.gFire_alone hfirst] at hfired
  obtain ⟨hreadyF, hlanesF, hrunsF, hstoreF, hlastF⟩ := State.firedView_eq_iff.1 hfired
  have hgives {P : State → Prop} : P (u.gFire n k) → s.Gives (.graticuleFiring dt n k) dt P :=
    State.gives_onMc (act := (·.gFire n k)) rfl hu hused
  refine ⟨fun h9 h3 => hgives ?_, fun h9 hallow => hgives ?_, fun h3 h1 hallow => hgives ?_⟩
  · have hact := State.gAction_noJob htypeM (hparam ▸ h9) (hparam ▸ hsrc ▸ h3)
    rw [hact] at hreadyF hlanesF hstoreF hlastF
    refine ⟨hreadyF.trans hready, hlanesF.trans hlanes, hlastF.trans (u.gMarked_lastFire n k), ?_⟩
    unfold State.word
    rw [hstoreF]
    exact u.gMarked_bit n k
  · rw [hrunsF, State.gAction_atlas htypeM (hparam.trans h9),
      State.relIf_runs ((State.jobAllowed_atlas_of_jobView hjob).trans hallow), hnow, hruns]
  · rw [hrunsF, State.gAction_spd htypeM (hparam.trans h3) (hsrc.trans h1),
      State.relIf_runs ((State.jobAllowed_spd_of_jobView hjob).trans hallow), hnow, hruns]

end

section
/-! PROOFS. The CRC of R384: the bits of a word in the order of the algorithm, which of them the CRC of a chain word reads, the
status word (R386), what a chain word that fails its CRC does (R385), and the words of the sensor ports (R401). -/

namespace Sys2Proof.Machine

/-! ## The bits of a word -/

theorem bitAt_eq_testBit (n b : Nat) : bitAt n b = n.testBit b := by
  rw [Bool.eq_iff_iff, bitAt, beq_iff_eq, Nat.testBit_eq_decide_div_mod_eq, decide_eq_true_iff]

/-- The `m` bits of a word above its lowest `k`, most significant first, by their numbers in the word. -/
theorem bitsOf_div_two_pow (m k w : Nat) :
    bitsOf m (w / 2 ^ k) = (List.range m).map fun i => bitAt w (k + m - 1 - i) := by
  refine List.ext_getElem (by simp [bitsOf]) fun i hi _ => ?_
  have him : i < m := by simpa [bitsOf] using hi
  have hpos : k + (m - 1 - i) = k + m - 1 - i := by omega
  simp [bitsOf, bitAt, Nat.div_div_eq_div_mul, ← Nat.pow_add, hpos]

/-! ## The CRC of a chain word -/

theorem crcBits_cons (n poly c : Nat) (b : Bool) (bs : List Bool) :
    crcBits n poly (b :: bs) c
      = crcBits n poly bs (if xor (bitAt c (n - 1)) b then Nat.xor (2 * c % 2 ^ n) poly else 2 * c % 2 ^ n) := rfl

theorem crcBits_lt {n poly : Nat} (hpoly : poly < 2 ^ n) (bs : List Bool) {c : Nat} (hc : c < 2 ^ n) :
    crcBits n poly bs c < 2 ^ n := by
  induction bs generalizing c with
  | nil => exact hc
  | cons b bs ih =>
    have hshift : 2 * c % 2 ^ n < 2 ^ n := Nat.mod_lt _ (Nat.two_pow_pos n)
    rw [crcBits_cons]
    split
    · exact ih (Nat.xor_lt_two_pow hshift hpoly)
    · exact ih hshift

theorem crc4_lt (w : Nat) : crc4 w < 16 := crcBits_lt (n := 4) (by decide) _ (by decide)

theorem crc4_eq_bits (w : Nat) : crc4 w = crcBits 4 3 ((List.range 28).map fun i => bitAt w (31 - i)) 0xF :=
  congrArg (crcBits 4 3 · 0xF) (bitsOf_div_two_pow 28 4 w)

/-- The CRC reads bits 31 to 4 alone: neither the four bits in which it stands nor what 32 bits cannot hold. -/
theorem crc4_of_bits_above {q x : Nat} (hx : x < 2 ^ 4) : crc4 ((2 ^ 4 * q + x) % 2 ^ 32) = crc4 (2 ^ 4 * q) := by
  rw [crc4_eq_bits, crc4_eq_bits]
  congr 1
  refine List.map_congr_left fun i hi => ?_
  have hi : i < 28 := List.mem_range.1 hi
  have hlow : ¬ 31 - i < 4 := by omega
  have htop : 31 - i < 32 := by omega
  rw [bitAt_eq_testBit, bitAt_eq_testBit, Nat.testBit_mod_two_pow, Nat.testBit_two_pow_mul_add q hx, Nat.testBit_two_pow_mul]
  simp [htop, hlow, Nat.le_of_not_lt hlow]

/-! ## The status word (R386) -/

/-- A status word is a multiple of 16 with the inverted CRC of it in the low four bits. -/
theorem State.chainStatus_eq (s : State) :
    ∃ q, s.chainStatus = BitVec.ofNat 32 (2 ^ 4 * q + Nat.xor (crc4 (2 ^ 4 * q)) 0xF) := by
  have hfields (code rx data : Nat) :
      code * 2 ^ 28 + rx * 2 ^ 20 + data * 16 = 2 ^ 4 * (code * 2 ^ 24 + rx * 2 ^ 16 + data) := by omega
  unfold State.chainStatus
  dsimp only
  rw [hfields]
  exact ⟨_, rfl⟩

theorem State.chainStatus_crc (s : State) : s.chainStatus.toNat % 16 = Nat.xor (crc4 s.chainStatus.toNat) 0xF := by
  obtain ⟨q, hq⟩ := s.chainStatus_eq
  have hx : Nat.xor (crc4 (2 ^ 4 * q)) 0xF < 2 ^ 4 := Nat.xor_lt_two_pow (crc4_lt _) (by decide)
  rw [hq, BitVec.toNat_ofNat, crc4_of_bits_above hx]
  omega

/-- A status word fails the check of a command: its CRC is inverted. -/
theorem State.chainStatus_fails (s : State) : crc4 s.chainStatus.toNat ≠ s.chainStatus.toNat % 16 := by
  rw [s.chainStatus_crc]
  have hc := crc4_lt s.chainStatus.toNat
  generalize crc4 s.chainStatus.toNat = c at hc
  revert c
  decide

/-! ## Chain frames (R385) -/

/-- The word in the device's register at the release of a chain frame. -/
def State.chainLast (s : State) (edges : Nat) (ws : List Word) : Nat :=
  if edges = 0 then s.chainStatus.toNat else ((ws.take (edges / 32)).getLastD 0).toNat

/-- A frame of the device's own status word leaves that word in its register, whatever its whole number of words. -/
theorem State.chainLast_chainStatus (s : State) {edges : Nat} (h32 : edges % 32 = 0) :
    s.chainLast edges [s.chainStatus] = s.chainStatus.toNat := by
  unfold State.chainLast
  split
  · rfl
  · have hone : 1 ≤ edges / 32 := by omega
    rw [List.take_of_length_le hone]; rfl

theorem State.raise_cl (s : State) (e : Nat) : (s.raise e).cl = s.cl :=
  s.raise_keeps (view := State.cl) (fun _ _ _ _ => rfl) (fun _ _ _ => rfl) (fun _ _ _ => rfl) fun _ _ => rfl

theorem State.raise_hp (s : State) (e : Nat) : (s.raise e).hp = s.hp :=
  s.raise_keeps (view := State.hp) (fun _ _ _ _ => rfl) (fun _ _ _ => rfl) (fun _ _ _ => rfl) fun _ _ => rfl

section
variable {u : State} {edges : Nat} {ws : List Word} (hd : u.dev.st ≠ .off) (he : u.hp.exec = none) (h32 : edges % 32 = 0)
  (hcrc : crc4 (u.chainLast edges ws) ≠ u.chainLast edges ws % 16)
include hd he h32 hcrc

/-- A chain word that fails its CRC is counted, raises the frame-error event and is answered CRC. -/
theorem State.chainFrame_of_crc_fails :
    u.chainFrame edges ws = { (((u.fresh0.inc pk R.HP_CNT2.chain_crc).raise 49).answer .crc).modHp
      fun h => { h with chainStat := (1, none) } with data := [u.chainStatus] } := by
  simp only [State.chainFrame, hd, he, h32, State.fresh0, Option.isSome_none, Bool.false_eq_true, ne_eq, not_true, if_false]
  exact if_pos hcrc

theorem State.chainFrame_status_of_crc_fails : (u.chainFrame edges ws).status = .crc := by
  rw [State.chainFrame_of_crc_fails hd he h32 hcrc]
  rfl

theorem State.chainFrame_cl_of_crc_fails : (u.chainFrame edges ws).cl = u.cl := by
  rw [State.chainFrame_of_crc_fails hd he h32 hcrc]
  exact State.raise_cl ..

theorem State.chainFrame_hp_of_crc_fails : (u.chainFrame edges ws).hp = { u.hp with chainStat := (1, none) } := by
  rw [State.chainFrame_of_crc_fails hd he h32 hcrc]
  exact congrArg (fun h : HostPort => { h with chainStat := (1, none) }) (State.raise_hp ..)

end

/-! ## Sensor-port words (R401) -/

/-- A word with a CRC passes when the CRC of the bits above it, with the port's values, is the one it carries. -/
theorem State.spCrcOk_iff {s : State} {p : Fin 2} (w : Nat) (hn : s.f (spB p) R.SP_CRC.crc_len ≠ 0)
    (hlen : s.f (spB p) R.SP_CRC.crc_len ≤ s.f (spB p) R.SP_CFG.wlen) :
    s.spCrcOk p w = true ↔
      let n := s.f (spB p) R.SP_CRC.crc_len
      let len := s.f (spB p) R.SP_CFG.wlen
      Nat.xor (crcBits n (s.f (spB p) R.SP_CRC.poly % 2 ^ n) ((List.range (len - n)).map fun i => bitAt w (len - 1 - i))
        (s.f (spB p) R.SP_CRC.init % 2 ^ n)) (s.f (spB p) R.SP_CRC.xorout % 2 ^ n) = w % 2 ^ n := by
  simp only [State.spCrcOk, beq_eq_false_iff_ne.2 hn, Bool.false_or, beq_iff_eq, bitsOf_div_two_pow,
    Nat.add_sub_cancel' hlen]

end Sys2Proof.Machine

open Sys2Proof Sys2Proof.Machine

/-- Settles O59: both kinds of word take their bits by number, and a status word, whose CRC is inverted, is refused like any
word that fails its CRC. -/
theorem chainCrc : Obligations.ChainCrc := by
  refine ⟨fun n poly c b bs => ⟨rfl, crcBits_cons n poly c b bs⟩, crc4_eq_bits, ?_, State.chainStatus_crc, ?_,
    by decide +kernel, by decide +kernel⟩
  · intro s p w b n len hn hlen
    exact State.spCrcOk_iff w hn hlen
  · intro s dt edges u hd he h32
    have hfails := u.chainStatus_fails
    rw [← u.chainLast_chainStatus h32] at hfails
    exact ⟨u.chainFrame edges [u.chainStatus], rfl, State.chainFrame_status_of_crc_fails hd he h32 hfails,
      State.chainFrame_cl_of_crc_fails hd he h32 hfails, State.chainFrame_hp_of_crc_fails hd he h32 hfails⟩

end

section
/-! PROOFS. The locks of the reading ports (R417): what a lock that is set or released leaves alone, what a read of message RAM
does to its port's lock, and what such a read answers. -/

namespace Sys2Proof.Machine

/-! ## A lock and the frames that wait for it (R417, R418) -/

/-- Only the lock of a reading port changed. -/
def State.withLock (s : State) (p : Fin 4) (l : Option (Fin 3 × Fin 3 × Nat)) : State :=
  { s with ports := upd s.ports p { s.ports[p] with lock := l } }

theorem State.withLock_lock (s : State) (p : Fin 4) (l : Option (Fin 3 × Fin 3 × Nat)) :
    ((s.withLock p l).ports[p]).lock = l :=
  congrArg PortSt.lock (upd_self ..)

theorem State.withLock_other (s : State) {p q : Fin 4} (l : Option (Fin 3 × Fin 3 × Nat)) (h : q ≠ p) :
    (s.withLock p l).ports[q] = s.ports[q] :=
  upd_ne _ _ h

theorem State.withLock_self (s : State) (p : Fin 4) : s.withLock p (s.ports[p]).lock = s := by
  have hports : upd s.ports p s.ports[p] = s.ports := Vector.set_getElem_self p.isLt
  unfold State.withLock
  rw [hports]

/-- What a frame that waited for a lock leaves alone as it is written: the reading ports, the answer of the read, the clusters,
the flash and the security module. -/
def State.lockView (s : State) :=
  (s.ports, s.status, s.data, s.range, s.cl, s.flash, s.sec)

theorem State.lockView_eq_iff {s t : State} :
    s.lockView = t.lockView ↔
      s.ports = t.ports ∧ s.status = t.status ∧ s.data = t.data ∧ s.range = t.range ∧ s.cl = t.cl ∧ s.flash = t.flash
        ∧ s.sec = t.sec := by
  simp [State.lockView]

@[simp] theorem State.setWord_lockView (s : State) (k : Nat) (w : Word) : (s.setWord k w).lockView = s.lockView :=
  State.lockView_eq_iff.2 ⟨rfl, rfl, rfl, rfl, rfl, rfl, rfl⟩

@[simp] theorem State.modCan_lockView (s : State) (n : Can) (g : CanC → CanC) : (s.modCan n g).lockView = s.lockView :=
  State.lockView_eq_iff.2 ⟨rfl, rfl, rfl, rfl, rfl, rfl, rfl⟩

theorem State.each_lockView {α : Type} (s : State) (l : List α) (g : α → State → State)
    (h : ∀ a t, (g a t).lockView = t.lockView) : (s.each l g).lockView = s.lockView :=
  State.each_keeps (P := fun t => t.lockView = s.lockView) (fun a t ht => (h a t).trans ht) s rfl

theorem State.putElem_lockView (s : State) (a size : Nat) (f : Frame) (idx stamp : Nat) :
    (s.putElem a size f idx stamp).lockView = s.lockView :=
  (State.each_lockView _ _ _ fun _ t => t.setWord_lockView ..).trans
    ((State.setWord_lockView ..).trans (s.setWord_lockView ..))

theorem State.rxLoss_lockView (s : State) (n : Can) (b : Nat) : (s.rxLoss n b).lockView = s.lockView :=
  (State.setWord_lockView ..).trans (s.setWord_lockView ..)

theorem State.rxStore_lockView (s : State) (n : Can) (b : Nat) (f : Frame) (idx stamp : Nat) :
    (s.rxStore n b f idx stamp).lockView = s.lockView := by
  refine (State.setWord_lockView ..).trans ((State.putElem_lockView ..).trans ?_)
  split
  · exact s.rxLoss_lockView n b
  · rfl

theorem State.slotFlush_lockView (s : State) (n : Can) : (s.slotFlush n).lockView = s.lockView := by
  unfold State.slotFlush
  split
  · split
    · rfl
    · exact (State.rxStore_lockView ..).trans (s.modCan_lockView ..)
  · rfl

/-- Frames that waited are written into their buffers: of the reading ports, only the lock changes. -/
theorem State.setLock_lockView (s : State) (p : Fin 4) (l : Option (Fin 3 × Fin 3 × Nat)) :
    (s.setLock p l).lockView = (s.withLock p l).lockView :=
  (s.withLock p l).each_lockView _ _ fun n t => t.slotFlush_lockView n

theorem State.locked_iff (s : State) (n : Can) (kind : Fin 3) (k : Nat) :
    s.locked n kind k = true ↔ ∃ p : Fin 4, (s.ports[p]).lock = some (n, kind, k) := by
  simp [State.locked, Vector.any_eq_true, Fin.exists_iff]

/-! ## The lock after a read of message RAM (R417) -/

theorem State.ramTouch_outside {s : State} {i : Nat} (p : Fin 4) (h : ∀ n : Can, s.elemIn n i = none) :
    s.ramTouch p i = s := by
  have hfind : (allCan.find? fun n => (s.elemIn n i).isSome) = none :=
    List.find?_eq_none.2 fun n _ => by simp [h n]
  simp only [State.ramTouch, hfind]

/-- Data bytes stored in the element of that kind whose word `w` is word `i` of message RAM. -/
def State.storedLen (s : State) (n : Can) (kind : Fin 3) (i w : Nat) : Nat :=
  Nat.min (dlcLen (bitAt (s.ram (i - w + 1)) 5) (s.ram (i - w + 1) % 16)) (s.elemSize n kind)

section
variable {s : State} {i : Nat} {n : Can} {kind : Fin 3} {k w : Nat} (p : Fin 4)
  (hfind : (allCan.find? fun n => (s.elemIn n i).isSome) = some n) (helem : s.elemIn n i = some (kind, k, w))
include hfind helem

theorem State.ramTouch_inside :
    s.ramTouch p i =
      if w = 0 then s.setLock p (some (n, kind, k))
      else if w = 1 + (s.storedLen n kind i w + 3) / 4 ∧ (s.ports[p]).lock = some (n, kind, k) then s.setLock p none
      else s := by
  simp only [State.ramTouch, hfind, helem]
  rfl

theorem State.ramTouch_word0 (hw : w = 0) :
    (s.ramTouch p i).lockView = (s.withLock p (some (n, kind, k))).lockView := by
  rw [State.ramTouch_inside p hfind helem, if_pos hw]
  exact s.setLock_lockView ..

theorem State.ramTouch_lastWord (hw : w = 1 + (s.storedLen n kind i w + 3) / 4) :
    (s.ramTouch p i).lockView =
      (s.withLock p (if (s.ports[p]).lock = some (n, kind, k) then none else (s.ports[p]).lock)).lockView := by
  have h0 : w ≠ 0 := by omega
  rw [State.ramTouch_inside p hfind helem, if_neg h0]
  by_cases hlock : (s.ports[p]).lock = some (n, kind, k)
  · rw [if_pos ⟨hw, hlock⟩, if_pos hlock]
    exact s.setLock_lockView ..
  · rw [if_neg fun h => hlock h.2, if_neg hlock, State.withLock_self]

theorem State.ramTouch_otherWord (h0 : w ≠ 0) (hw : w ≠ 1 + (s.storedLen n kind i w + 3) / 4) :
    s.ramTouch p i = s := by
  rw [State.ramTouch_inside p hfind helem, if_neg h0, if_neg fun h => hw h.1]

end

/-! ## A read of message RAM through a port (R394, R435) -/

theorem locate_ramAddr (off : Fin 0x4000) : locate (ramAddr off.val) = (.canRam, off.val) := by
  obtain ⟨o, ho⟩ := off
  simp (disch := omega) only [locate, ramAddr, if_neg, if_pos, Nat.add_sub_cancel_left]

theorem State.view_ramAddr (s : State) (p : Port) (off : Fin 0x4000) :
    s.view p (ramAddr off.val) = s.word (ramAddr off.val) := by
  have hoff : off.val ≤ 0x3FFF := Nat.le_of_lt_succ off.isLt
  have hkey : s.readKey p (ramAddr off.val) = ramAddr off.val := by
    simp [State.readKey, State.keyOf, pkgSetAddr, stagingAddr, locate_ramAddr]
  simp [State.view, implemented, State.blind, locate_ramAddr, hoff, hkey]

theorem splitLo_ramAddr (off : Fin 0x4000) : splitLo (ramAddr off.val) = false := by
  simp [splitLo, locate_ramAddr]

/-- The word before message RAM is sample RAM, so no word of message RAM is the upper half of a value. -/
theorem splitHi_ramAddr (off : Fin 0x4000) : splitHi (ramAddr off.val) = false := by
  obtain ⟨o, ho⟩ := off
  cases o with
  | zero => exact (by decide : splitHi (ramAddr 0) = false)
  | succ o =>
    have hbelow : splitLo (ramAddr (o + 1) - 1) = false := splitLo_ramAddr ⟨o, by omega⟩
    simp [splitHi, hbelow]

/-- A word of message RAM is read as it stands, and its reading acts on the port's lock. -/
theorem State.readWord_ramAddr (s : State) (p : Port) (off : Fin 0x4000) :
    s.readWord p (ramAddr off.val) = (s.ramTouch (portIdx p) off.val, s.word (ramAddr off.val)) := by
  have hoff : off.val ≤ 0x3FFF := Nat.le_of_lt_succ off.isLt
  have himpl : implemented (ramAddr off.val) = true := by simp [implemented, locate_ramAddr, hoff]
  have htrng : ramAddr off.val ≠ R.SEC_TRNG.reg := by simp only [ramAddr, R.SEC_TRNG.reg]; omega
  simp [State.readWord, himpl, splitLo_ramAddr, splitHi_ramAddr, htrng, locate_ramAddr, State.view_ramAddr]

/-- The answer to a read of word `off` of message RAM through a port that is served. -/
def State.ramAnswer (u : State) (p : Port) (off : Fin 0x4000) : State :=
  { (u.fresh0.ramTouch (portIdx p) off.val).answer .ok with data := [u.word (ramAddr off.val)] }

section
variable {u : State} {p : Port} {off : Fin 0x4000} (hdev : u.dev.st ≠ .off) (hlife : u.sec.life ≠ 2)
include hlife

theorem State.diagRead_ramAddr (n : Can) : u.diagRead n (ramAddr off.val) = u.ramAnswer (.diag n) off := by
  have hread := u.fresh0.readWord_ramAddr (.diag n) off
  simp only [State.fresh0] at hread
  simp only [State.diagRead, hlife, false_and, if_false, hread]
  rfl

include hdev

theorem State.hostRead_ramAddr (hexec : u.hp.exec = none) : u.hostRead (ramAddr off.val) 1 = u.ramAnswer .host off := by
  have hread := u.fresh0.readWord_ramAddr .host off
  have haddr : ¬ 0x1000000 ≤ ramAddr off.val := by simp only [ramAddr]; omega
  simp only [State.fresh0] at hread
  simp only [State.hostRead, hdev, hexec, hlife, readRun, haddr, hread, Option.isSome_none, Bool.false_eq_true, false_and,
    if_false]
  rfl

/-- A read whose effect on the lock is known: RANGE is not raised, so the host's read counts nothing. -/
theorem State.portRead_ramAddr (hexec : p = .host → u.hp.exec = none)
    (hrange : (u.fresh0.ramTouch (portIdx p) off.val).range = false) :
    u.portRead p (ramAddr off.val) = u.ramAnswer p off := by
  cases p with
  | host =>
    have hcount : (u.ramAnswer .host off).countRange = u.ramAnswer .host off :=
      if_neg fun h => Bool.false_ne_true (hrange.symm.trans h.1)
    exact (congrArg State.countRange (State.hostRead_ramAddr hdev hlife (hexec rfl))).trans hcount
  | diag n => exact State.diagRead_ramAddr hlife n

end

/-- A read of message RAM that leaves its port with the lock `l` answers the word; the other ports, the clusters, the flash and
the security module are as before. -/
theorem State.gives_canElementRead {s u : State} {dt : Nat} {p : Port} {off : Fin 0x4000}
    {l : Option (Fin 3 × Fin 3 × Nat)} (hu : s.elapse dt = u) (hdev : u.dev.st ≠ .off) (hlife : u.sec.life ≠ 2)
    (hexec : p = .host → u.hp.exec = none)
    (htouch : (u.fresh0.ramTouch (portIdx p) off.val).lockView = (u.fresh0.withLock (portIdx p) l).lockView) :
    s.Gives (.canElementRead dt p off) dt fun e =>
      e.status = .ok ∧ e.data = [u.word (0x600000 + off.val)] ∧ (e.ports[portIdx p]).lock = l
        ∧ (∀ q : Fin 4, q ≠ portIdx p → e.ports[q] = u.ports[q]) ∧ e.cl = u.cl ∧ e.flash = u.flash ∧ e.sec = u.sec := by
  obtain ⟨hports, -, -, hrange, hcl, hflash, hsec⟩ := State.lockView_eq_iff.1 htouch
  have hanswered : (u.ramAnswer p off).ports = (u.fresh0.withLock (portIdx p) l).ports := hports
  refine ⟨u.ramAnswer p off, ?_, rfl, rfl, ?_, fun q hq => ?_, hcl, hflash, hsec⟩
  · rw [← State.portRead_ramAddr hdev hlife hexec hrange, ← hu]
    rfl
  · rw [hanswered]
    exact u.fresh0.withLock_lock ..
  · rw [hanswered]
    exact u.fresh0.withLock_other l hq

end Sys2Proof.Machine

open Sys2Proof Sys2Proof.Machine

/-- Settles O54: a served read answers its word and acts on its port's lock alone; outside the receive elements it leaves the
lock, and inside one the word's place decides. -/
theorem canLocks : Obligations.CanLocks := by
  refine ⟨State.locked_iff, ?_⟩
  intro s dt p off u i lock ok locks hok
  obtain ⟨hdev, hlife, hexec⟩ := hok
  have hu : s.elapse dt = u := rfl
  clear_value u
  have hlocks (l : Option (Fin 3 × Fin 3 × Nat))
      (h : (u.fresh0.ramTouch (portIdx p) i).lockView = (u.fresh0.withLock (portIdx p) l).lockView) : locks l :=
    State.gives_canElementRead hu hdev hlife hexec h
  have hkept (h : u.fresh0.ramTouch (portIdx p) i = u.fresh0) : locks (lock u (portIdx p)) :=
    hlocks _ (congrArg State.lockView (h.trans (u.fresh0.withLock_self _).symm))
  refine ⟨fun hnone => hkept (State.ramTouch_outside _ hnone), fun n kind k w hfind helem => ⟨?_, ?_, ?_⟩⟩
  · exact fun hw => hlocks _ (State.ramTouch_word0 _ hfind helem hw)
  · exact fun hw => hlocks _ (State.ramTouch_lastWord _ hfind helem hw)
  · exact fun h0 hw => hkept (State.ramTouch_otherWord _ hfind helem h0 hw)
end

section
/-! PROOFS. Words, fields and flash bytes as memory, and what every command has in common: it lets the time pass, acts, and
ends (`State.done`), unless it is a frame that no bus can carry. -/

namespace Sys2Proof.Machine

/-- Every row of the table lets the time pass and then acts; only a CAN frame may be one that no bus can carry. -/
theorem exec_done_or_illFormed (c : Instr) (s : State) :
    (∃ (dt : Nat) (e : State), exec c s = .next (s.done dt e))
      ∨ (c.wf = false ∧ exec c s = .fault .illFormed) := by
  cases c
  case canFrameReceived dt n ago f =>
    by_cases hf : f.ok = true
    · exact .inl ⟨dt, (s.elapse dt).canFrame diagHook n ago f, by simp [exec, execCanFrameReceived, hf, State.after]⟩
    · exact .inr ⟨by simpa [Instr.wf] using hf, by simp [exec, execCanFrameReceived, hf]⟩
  all_goals exact .inl ⟨_, _, rfl⟩

/-- A step that goes on keeps an idle state, or ends the front command. -/
theorem step_next_cases {s t : State} (h : step s = .next t) : t = s ∨ ∃ (v e : State) (dt : Nat), t = v.done dt e := by
  unfold step at h
  split at h
  · exact .inl (Host.Outcome.next.inj h).symm
  next c rest _ =>
    rcases exec_done_or_illFormed c { s with pending := rest } with ⟨dt, e, hx⟩ | ⟨-, hx⟩
    · rw [hx] at h
      exact .inr ⟨_, _, dt, (Host.Outcome.next.inj h).symm⟩
    · simp [hx] at h

end Sys2Proof.Machine

open Sys2Proof Sys2Proof.Machine

/-- Settles O1: both parts are the two branches of `step`. -/
theorem frontCommandRuns : Obligations.FrontCommandRuns :=
  ⟨fun _ _ _ => rfl, fun s hs => by unfold step; rw [hs]⟩

/-- Settles O6: the laws of the two memories and of fields. -/
theorem readAfterWrite : Obligations.ReadAfterWrite := by
  refine ⟨fun s a k w => s.word_setWord a w k, fun s b f g v hf => ⟨s.f_setF_self b f v hf, fun h => ?_⟩,
    fun m a k v => flashByte_putByte m a v k⟩
  rcases h with hreg | hbits
  · exact s.f_setF_other b f v b g (by omega)
  · exact s.f_setF_apart b f v b g hf hbits

/-- Settles O3: a step idles or ends a command, and the end of a command makes both memories canonical. -/
theorem stepKeepsSound : Obligations.StepKeepsSound := by
  intro s t hs hstep
  rcases step_next_cases hstep with rfl | ⟨v, e, dt, rfl⟩
  · exact hs
  · exact v.done_sound dt e

/-- Settles O2: a well-formed command is not such a frame, so it ends as every command does. -/
theorem commandsComplete : Obligations.CommandsComplete := by
  refine ⟨fun c s hc => ?_, fun dt n ago f s hf => by simp [exec, execCanFrameReceived, hf]⟩
  rcases exec_done_or_illFormed c s with ⟨dt, e, hx⟩ | ⟨hwf, -⟩
  · exact ⟨_, hx, rfl, Nat.le_add_right s.now dt, rfl, s.done_sound dt _⟩
  · exact absurd hc (by simp [hwf])

end

section
/-! PROOFS. The parts of the state and which of them an operation leaves alone: `s.part p` is what the state holds under the
part `p`, a field of its own, a field of one motor cluster's record, or the gate outputs of one motor cluster. The lemmas
about the operations give each once, for every part that it does not change. -/

namespace Sys2Proof.Machine

/-- The fields of a motor cluster's record. -/
inductive McPart where
| atl | dat | grat | ref1 | ref2 | scar | pwm | est | loops | banks | uA | uB | closed | iA | iB | recon | iD | iQ |
  vD | vQ | iqRef | spdRef | posOut | spdCnt | servCnt | sampleNew | short | bstNow | bstAt | bstRun | precharge |
  hardAt | vsCode | models | conv | pulse | dieSafe

/-- What a field of the record holds. -/
def McPart.Ty : McPart → Type
  | .atl => Pager
  | .dat => Datum
  | .grat => Vector GEntry 64
  | .ref1 => Option Nat
  | .ref2 => Option Nat
  | .scar => SCar
  | .pwm => Pwm
  | .est => Est
  | .loops => Vector LoopSt 4
  | .banks => Vector (Vector Bank 2) 4
  | .uA => Int
  | .uB => Int
  | .closed => Nat
  | .iA => Int
  | .iB => Int
  | .recon => Nat
  | .iD => Int
  | .iQ => Int
  | .vD => Int
  | .vQ => Int
  | .iqRef => Int
  | .spdRef => Int
  | .posOut => Int
  | .spdCnt => Nat
  | .servCnt => Nat
  | .sampleNew => Bool
  | .short => ShortSt
  | .bstNow => Vector Bool 3
  | .bstAt => Vector Nat 3
  | .bstRun => Vector Nat 3
  | .precharge => Bool
  | .hardAt => Vector (Option Nat) 2
  | .vsCode => Nat
  | .models => Vector Model 6
  | .conv => ConvSt
  | .pulse => List (Fin 6 × Nat)
  | .dieSafe => Bool

/-- The field of a record. -/
def Mc.part (m : Mc) : (q : McPart) → q.Ty
  | .atl => m.atl
  | .dat => m.dat
  | .grat => m.grat
  | .ref1 => m.ref1
  | .ref2 => m.ref2
  | .scar => m.scar
  | .pwm => m.pwm
  | .est => m.est
  | .loops => m.loops
  | .banks => m.banks
  | .uA => m.uA
  | .uB => m.uB
  | .closed => m.closed
  | .iA => m.iA
  | .iB => m.iB
  | .recon => m.recon
  | .iD => m.iD
  | .iQ => m.iQ
  | .vD => m.vD
  | .vQ => m.vQ
  | .iqRef => m.iqRef
  | .spdRef => m.spdRef
  | .posOut => m.posOut
  | .spdCnt => m.spdCnt
  | .servCnt => m.servCnt
  | .sampleNew => m.sampleNew
  | .short => m.short
  | .bstNow => m.bstNow
  | .bstAt => m.bstAt
  | .bstRun => m.bstRun
  | .precharge => m.precharge
  | .hardAt => m.hardAt
  | .vsCode => m.vsCode
  | .models => m.models
  | .conv => m.conv
  | .pulse => m.pulse
  | .dieSafe => m.dieSafe

/-- The parts of the state: its fields, but for the records of the motor clusters and the gate outputs, which are taken apart. -/
inductive Part where
| now | store | flash | pending | status | tear | range | raised | guyFault | rails | fresh | dev | cl | bases | link
  | sync | grp | axM | axS | stp | brake | die | ntc | rg | lanes | ready | runs | poolCyc | trace | atlChk | rowFlags
  | rowMap | rowDead | imgSheets | auto | boot | sec | log | hp | ports | mp | sp | can | data | authed | health
  | mc (n : Mcn) (q : McPart)
  /-- The outputs of one motor cluster, or with `none` those of the brake and reverse-battery switches. -/
  | gates (n : Option Mcn)

/-- The motor cluster of a gate output, if it is a motor switch. -/
def gateOwner (o : Fin 40) : Option Mcn := (outMc o).map Prod.fst

/-- What a part holds. -/
def Part.Ty : Part → Type
  | .now => Nat
  | .store => List (Nat × Word)
  | .flash => List Host.Cell
  | .pending => List Instr
  | .status => Status
  | .tear => Bool
  | .range => Bool
  | .raised => List Nat
  | .guyFault => List Nat
  | .rails => List Nat
  | .fresh => Nat
  | .dev => Dev
  | .cl => Vector Cluster 8
  | .bases => Vector Bases 8
  | .link => Vector Link 2
  | .sync => Sync
  | .grp => Vector SGroup 9
  | .axM => Vector AxisSt 6
  | .axS => Vector AxisSt 8
  | .stp => Vector Stepper 8
  | .brake => Vector Model 2
  | .die => Vector DieTh 3
  | .ntc => Vector Ntc 4
  | .rg => Vector Region 2
  | .lanes => Vector Lane 8
  | .ready => List Ready
  | .runs => List (JobId × Nat × Nat)
  | .poolCyc => Nat
  | .trace => Vector TraceU 4
  | .atlChk => Option Nat
  | .rowFlags => List Nat
  | .rowMap => List (Nat × Nat)
  | .rowDead => List Nat
  | .imgSheets => List (Nat × Nat)
  | .auto => Vector Auto 8
  | .boot => Boot
  | .sec => Sec
  | .log => Logbook
  | .hp => HostPort
  | .ports => Vector PortSt 4
  | .mp => MemPort
  | .sp => Vector SensPort 2
  | .can => Vector CanC 3
  | .data => List Word
  | .authed => Bool
  | .health => List (Nat × Nat)
  | .mc _ q => q.Ty
  | .gates _ => Fin 40 → Option GateOut

/-- What the state holds under a part. -/
def State.part (s : State) : (p : Part) → p.Ty
  | .now => s.now
  | .store => s.store
  | .flash => s.flash
  | .pending => s.pending
  | .status => s.status
  | .tear => s.tear
  | .range => s.range
  | .raised => s.raised
  | .guyFault => s.guyFault
  | .rails => s.rails
  | .fresh => s.fresh
  | .dev => s.dev
  | .cl => s.cl
  | .bases => s.bases
  | .link => s.link
  | .sync => s.sync
  | .grp => s.grp
  | .axM => s.axM
  | .axS => s.axS
  | .stp => s.stp
  | .brake => s.brake
  | .die => s.die
  | .ntc => s.ntc
  | .rg => s.rg
  | .lanes => s.lanes
  | .ready => s.ready
  | .runs => s.runs
  | .poolCyc => s.poolCyc
  | .trace => s.trace
  | .atlChk => s.atlChk
  | .rowFlags => s.rowFlags
  | .rowMap => s.rowMap
  | .rowDead => s.rowDead
  | .imgSheets => s.imgSheets
  | .auto => s.auto
  | .boot => s.boot
  | .sec => s.sec
  | .log => s.log
  | .hp => s.hp
  | .ports => s.ports
  | .mp => s.mp
  | .sp => s.sp
  | .can => s.can
  | .data => s.data
  | .authed => s.authed
  | .health => s.health
  | .mc n q => (s.mc[n]).part q
  | .gates n => fun o => if gateOwner o = n then some s.gates[o] else none
/-! ## Rewriting -/

/-- Rewriting stops at a part: an effect inside it is looked at from outside only. -/
@[congr] theorem State.part_stop (s : State) (p : Part) : s.part p = s.part p := rfl

@[simp] theorem State.part_ite (c : Prop) [Decidable c] (a b : State) (p : Part) :
    (if c then a else b).part p = if c then a.part p else b.part p := apply_ite (·.part p) c a b

@[simp] theorem State.part_each {α : Type} (s : State) (l : List α) (g : α → State → State) (p : Part)
    (h : ∀ a t, (g a t).part p = t.part p) : (s.each l g).part p = s.part p :=
  State.each_keeps (P := fun t => t.part p = s.part p) (fun a t ht => (h a t).trans ht) s rfl

@[simp] theorem State.part_onlyIf (s : State) (b : Bool) (g : State → State) (p : Part) (h : ∀ t, (g t).part p = t.part p) :
    (s.onlyIf b g).part p = s.part p := by
  unfold State.onlyIf; split
  · exact h s
  · rfl

/-! ## Gate outputs -/

@[simp] theorem gateOwner_swOut (n : Mcn) (sw : Fin 6) : gateOwner (swOut n sw) = some n := by
  have h : 6 * n.val + sw.val < 36 := by omega
  have hn : (6 * n.val + sw.val) / 6 = n.val := by omega
  simp [gateOwner, outMc, swOut, h, hn]

@[simp] theorem gateOwner_brkOut (r : Rg) : gateOwner (brkOut r) = none := by
  have h : ¬ 36 + r.val < 36 := by omega
  simp [gateOwner, outMc, brkOut, h]

@[simp] theorem gateOwner_rbgOut (r : Rg) : gateOwner (rbgOut r) = none := by
  have h : ¬ 38 + r.val < 36 := by omega
  simp [gateOwner, outMc, rbgOut, h]

/-! ## Changes of one field -/

@[simp] theorem State.with_raised_part (s : State) (x : List Nat) {p : Part} (h : p ∉ [.raised]) :
    ({ s with raised := x } : State).part p = s.part p := by
  cases p <;> first | rfl | simp at h

@[simp] theorem State.with_rails_part (s : State) (x : List Nat) {p : Part} (h : p ∉ [.rails]) :
    ({ s with rails := x } : State).part p = s.part p := by
  cases p <;> first | rfl | simp at h

@[simp] theorem State.with_lanes_part (s : State) (x : Vector Lane 8) {p : Part} (h : p ∉ [.lanes]) :
    ({ s with lanes := x } : State).part p = s.part p := by
  cases p <;> first | rfl | simp at h

@[simp] theorem State.with_auto_part (s : State) (x : Vector Auto 8) {p : Part} (h : p ∉ [.auto]) :
    ({ s with auto := x } : State).part p = s.part p := by
  cases p <;> first | rfl | simp at h

@[simp] theorem State.with_rowFlags_part (s : State) (x : List Nat) {p : Part} (h : p ∉ [.rowFlags]) :
    ({ s with rowFlags := x } : State).part p = s.part p := by
  cases p <;> first | rfl | simp at h

@[simp] theorem State.with_log_part (s : State) (x : Logbook) {p : Part} (h : p ∉ [.log]) :
    ({ s with log := x } : State).part p = s.part p := by
  cases p <;> first | rfl | simp at h

@[simp] theorem State.with_now_part (s : State) (x : Nat) {p : Part} (h : p ∉ [.now]) :
    ({ s with now := x } : State).part p = s.part p := by
  cases p <;> first | rfl | simp at h

/-! ## Changes of a record -/

theorem State.modMc_part (s : State) (n : Mcn) (g : Mc → Mc) {p : Part}
    (h : ∀ q, p = .mc n q → ∀ m : Mc, (g m).part q = m.part q) : (s.modMc n g).part p = s.part p := by
  cases p with
  | mc m q =>
    show ((upd s.mc n (g s.mc[n]))[m]).part q = (s.mc[m]).part q
    by_cases hm : m = n
    · subst hm; rw [upd_self]; exact h q rfl _
    · rw [upd_ne _ _ hm]
  | _ => rfl

@[simp] theorem State.modGate_part (s : State) (o : Fin 40) (g : GateOut → GateOut) {p : Part} (h : p ∉ [.gates (gateOwner o)]) :
    (s.modGate o g).part p = s.part p := by
  cases p with
  | gates n =>
    funext x
    show (if gateOwner x = n then some (upd s.gates o (g s.gates[o]))[x] else none) = if gateOwner x = n then some s.gates[x] else none
    split
    next hx =>
      have hne : x ≠ o := by rintro rfl; simp [hx] at h
      rw [upd_ne _ _ hne]
    next => rfl
  | _ => rfl

/-! ## From the parts to the fields -/

theorem Mc.ext_parts {m m' : Mc} (h : ∀ q, m.part q = m'.part q) : m = m' := by
  cases m; cases m'
  simp only [Mc.mk.injEq]
  exact ⟨h .atl, h .dat, h .grat, h .ref1, h .ref2, h .scar, h .pwm, h .est, h .loops, h .banks, h .uA, h .uB, h .closed,
    h .iA, h .iB, h .recon, h .iD, h .iQ, h .vD, h .vQ, h .iqRef, h .spdRef, h .posOut, h .spdCnt, h .servCnt,
    h .sampleNew, h .short, h .bstNow, h .bstAt, h .bstRun, h .precharge, h .hardAt, h .vsCode, h .models,
    h .conv, h .pulse, h .dieSafe⟩

theorem State.mc_eq {s t : State} (n : Mcn) (h : ∀ q, s.part (.mc n q) = t.part (.mc n q)) : s.mc[n] = t.mc[n] :=
  Mc.ext_parts h

theorem State.mcs_eq {s t : State} (h : ∀ n q, s.part (.mc n q) = t.part (.mc n q)) : s.mc = t.mc :=
  Vector.ext fun i hi => s.mc_eq (t := t) ⟨i, hi⟩ (h ⟨i, hi⟩)

theorem State.gate_eq {s t : State} {o : Fin 40} (h : s.part (.gates (gateOwner o)) = t.part (.gates (gateOwner o))) :
    s.gates[o] = t.gates[o] := by
  have ho := congrFun h o
  simpa [State.part] using ho

theorem State.gates_eq {s t : State} (h : ∀ n, s.part (.gates n) = t.part (.gates n)) : s.gates = t.gates :=
  Vector.ext fun i hi => State.gate_eq (o := ⟨i, hi⟩) (h _)

theorem State.gatesBut_of_parts {s t : State} {n : Mcn} (h : ∀ m, m ≠ some n → t.part (.gates m) = s.part (.gates m)) :
    s.gatesBut n t := by
  intro o ho
  refine State.gate_eq (h _ fun hn => ?_)
  obtain ⟨⟨m, sw⟩, hm, rfl⟩ := Option.map_eq_some_iff.1 hn
  refine ho sw (Fin.ext ?_)
  unfold outMc at hm
  split at hm
  · simp only [Option.some.injEq, Prod.mk.injEq] at hm
    obtain ⟨rfl, rfl⟩ := hm
    simp only [swOut]; omega
  · cases hm

/-- Two states that agree in every part are the same. -/
theorem State.ext_parts {s t : State} (h : ∀ p, s.part p = t.part p) : s = t := by
  have hmc : s.mc = t.mc := State.mcs_eq fun n q => h (.mc n q)
  have hgates : s.gates = t.gates := State.gates_eq fun n => h (.gates n)
  cases s; cases t
  simp only [State.mk.injEq]
  exact ⟨h .now, h .store, h .flash, h .pending, h .status, h .tear, h .range, h .raised, h .guyFault, h .rails, h .fresh,
    h .dev, h .cl, h .bases, h .link, hmc, h .sync, h .grp, hgates, h .axM, h .axS, h .stp, h .brake, h .die,
    h .ntc, h .rg, h .lanes, h .ready, h .runs, h .poolCyc, h .trace, h .atlChk, h .rowFlags, h .rowMap,
    h .rowDead, h .imgSheets, h .auto, h .boot, h .sec, h .log, h .hp, h .ports, h .mp, h .sp, h .can, h .data,
    h .authed, h .health⟩

theorem State.word_of_part {s t : State} (h : s.part .store = t.part .store) (k : Nat) : s.word k = t.word k :=
  congrArg (fun m => (wordAt m k).getD (regReset k)) h

theorem State.f_of_part {s t : State} (h : s.part .store = t.part .store) (b : Nat) (f : Fld) : s.f b f = t.f b f :=
  congrArg f.get (State.word_of_part h _)

end Sys2Proof.Machine
end

section
/-! PROOFS. What each operation of the model leaves alone. -/

namespace Sys2Proof.Machine
@[simp] theorem State.modMc_atl_part (s : State) (n : Mcn) (f : Mc → Pager) {p : Part} (h : p ∉ [.mc n .atl]) :
    (s.modMc n fun m => { m with atl := f m }).part p = s.part p :=
  s.modMc_part n _ fun q hq m => by subst hq; cases q <;> first | rfl | simp at h

@[simp] theorem State.modMc_dat_part (s : State) (n : Mcn) (f : Mc → Datum) {p : Part} (h : p ∉ [.mc n .dat]) :
    (s.modMc n fun m => { m with dat := f m }).part p = s.part p :=
  s.modMc_part n _ fun q hq m => by subst hq; cases q <;> first | rfl | simp at h

@[simp] theorem State.modMc_grat_part (s : State) (n : Mcn) (f : Mc → Vector GEntry 64) {p : Part} (h : p ∉ [.mc n .grat]) :
    (s.modMc n fun m => { m with grat := f m }).part p = s.part p :=
  s.modMc_part n _ fun q hq m => by subst hq; cases q <;> first | rfl | simp at h

@[simp] theorem State.modMc_ref1_part (s : State) (n : Mcn) (f : Mc → Option Nat) {p : Part} (h : p ∉ [.mc n .ref1]) :
    (s.modMc n fun m => { m with ref1 := f m }).part p = s.part p :=
  s.modMc_part n _ fun q hq m => by subst hq; cases q <;> first | rfl | simp at h

@[simp] theorem State.modMc_ref2_part (s : State) (n : Mcn) (f : Mc → Option Nat) {p : Part} (h : p ∉ [.mc n .ref2]) :
    (s.modMc n fun m => { m with ref2 := f m }).part p = s.part p :=
  s.modMc_part n _ fun q hq m => by subst hq; cases q <;> first | rfl | simp at h

@[simp] theorem State.modMc_scar_part (s : State) (n : Mcn) (f : Mc → SCar) {p : Part} (h : p ∉ [.mc n .scar]) :
    (s.modMc n fun m => { m with scar := f m }).part p = s.part p :=
  s.modMc_part n _ fun q hq m => by subst hq; cases q <;> first | rfl | simp at h

@[simp] theorem State.modMc_pwm_part (s : State) (n : Mcn) (f : Mc → Pwm) {p : Part} (h : p ∉ [.mc n .pwm]) :
    (s.modMc n fun m => { m with pwm := f m }).part p = s.part p :=
  s.modMc_part n _ fun q hq m => by subst hq; cases q <;> first | rfl | simp at h

@[simp] theorem State.modMc_est_part (s : State) (n : Mcn) (f : Mc → Est) {p : Part} (h : p ∉ [.mc n .est]) :
    (s.modMc n fun m => { m with est := f m }).part p = s.part p :=
  s.modMc_part n _ fun q hq m => by subst hq; cases q <;> first | rfl | simp at h

@[simp] theorem State.modMc_loops_part (s : State) (n : Mcn) (f : Mc → Vector LoopSt 4) {p : Part} (h : p ∉ [.mc n .loops]) :
    (s.modMc n fun m => { m with loops := f m }).part p = s.part p :=
  s.modMc_part n _ fun q hq m => by subst hq; cases q <;> first | rfl | simp at h

@[simp] theorem State.modMc_banks_part (s : State) (n : Mcn) (f : Mc → Vector (Vector Bank 2) 4) {p : Part} (h : p ∉ [.mc n .banks]) :
    (s.modMc n fun m => { m with banks := f m }).part p = s.part p :=
  s.modMc_part n _ fun q hq m => by subst hq; cases q <;> first | rfl | simp at h

@[simp] theorem State.modMc_uA_part (s : State) (n : Mcn) (f : Mc → Int) {p : Part} (h : p ∉ [.mc n .uA]) :
    (s.modMc n fun m => { m with uA := f m }).part p = s.part p :=
  s.modMc_part n _ fun q hq m => by subst hq; cases q <;> first | rfl | simp at h

@[simp] theorem State.modMc_uB_part (s : State) (n : Mcn) (f : Mc → Int) {p : Part} (h : p ∉ [.mc n .uB]) :
    (s.modMc n fun m => { m with uB := f m }).part p = s.part p :=
  s.modMc_part n _ fun q hq m => by subst hq; cases q <;> first | rfl | simp at h

@[simp] theorem State.modMc_closed_part (s : State) (n : Mcn) (f : Mc → Nat) {p : Part} (h : p ∉ [.mc n .closed]) :
    (s.modMc n fun m => { m with closed := f m }).part p = s.part p :=
  s.modMc_part n _ fun q hq m => by subst hq; cases q <;> first | rfl | simp at h

@[simp] theorem State.modMc_iA_part (s : State) (n : Mcn) (f : Mc → Int) {p : Part} (h : p ∉ [.mc n .iA]) :
    (s.modMc n fun m => { m with iA := f m }).part p = s.part p :=
  s.modMc_part n _ fun q hq m => by subst hq; cases q <;> first | rfl | simp at h

@[simp] theorem State.modMc_iB_part (s : State) (n : Mcn) (f : Mc → Int) {p : Part} (h : p ∉ [.mc n .iB]) :
    (s.modMc n fun m => { m with iB := f m }).part p = s.part p :=
  s.modMc_part n _ fun q hq m => by subst hq; cases q <;> first | rfl | simp at h

@[simp] theorem State.modMc_recon_part (s : State) (n : Mcn) (f : Mc → Nat) {p : Part} (h : p ∉ [.mc n .recon]) :
    (s.modMc n fun m => { m with recon := f m }).part p = s.part p :=
  s.modMc_part n _ fun q hq m => by subst hq; cases q <;> first | rfl | simp at h

@[simp] theorem State.modMc_iD_part (s : State) (n : Mcn) (f : Mc → Int) {p : Part} (h : p ∉ [.mc n .iD]) :
    (s.modMc n fun m => { m with iD := f m }).part p = s.part p :=
  s.modMc_part n _ fun q hq m => by subst hq; cases q <;> first | rfl | simp at h

@[simp] theorem State.modMc_iQ_part (s : State) (n : Mcn) (f : Mc → Int) {p : Part} (h : p ∉ [.mc n .iQ]) :
    (s.modMc n fun m => { m with iQ := f m }).part p = s.part p :=
  s.modMc_part n _ fun q hq m => by subst hq; cases q <;> first | rfl | simp at h

@[simp] theorem State.modMc_vD_part (s : State) (n : Mcn) (f : Mc → Int) {p : Part} (h : p ∉ [.mc n .vD]) :
    (s.modMc n fun m => { m with vD := f m }).part p = s.part p :=
  s.modMc_part n _ fun q hq m => by subst hq; cases q <;> first | rfl | simp at h

@[simp] theorem State.modMc_vQ_part (s : State) (n : Mcn) (f : Mc → Int) {p : Part} (h : p ∉ [.mc n .vQ]) :
    (s.modMc n fun m => { m with vQ := f m }).part p = s.part p :=
  s.modMc_part n _ fun q hq m => by subst hq; cases q <;> first | rfl | simp at h

@[simp] theorem State.modMc_iqRef_part (s : State) (n : Mcn) (f : Mc → Int) {p : Part} (h : p ∉ [.mc n .iqRef]) :
    (s.modMc n fun m => { m with iqRef := f m }).part p = s.part p :=
  s.modMc_part n _ fun q hq m => by subst hq; cases q <;> first | rfl | simp at h

@[simp] theorem State.modMc_spdRef_part (s : State) (n : Mcn) (f : Mc → Int) {p : Part} (h : p ∉ [.mc n .spdRef]) :
    (s.modMc n fun m => { m with spdRef := f m }).part p = s.part p :=
  s.modMc_part n _ fun q hq m => by subst hq; cases q <;> first | rfl | simp at h

@[simp] theorem State.modMc_posOut_part (s : State) (n : Mcn) (f : Mc → Int) {p : Part} (h : p ∉ [.mc n .posOut]) :
    (s.modMc n fun m => { m with posOut := f m }).part p = s.part p :=
  s.modMc_part n _ fun q hq m => by subst hq; cases q <;> first | rfl | simp at h

@[simp] theorem State.modMc_spdCnt_part (s : State) (n : Mcn) (f : Mc → Nat) {p : Part} (h : p ∉ [.mc n .spdCnt]) :
    (s.modMc n fun m => { m with spdCnt := f m }).part p = s.part p :=
  s.modMc_part n _ fun q hq m => by subst hq; cases q <;> first | rfl | simp at h

@[simp] theorem State.modMc_servCnt_part (s : State) (n : Mcn) (f : Mc → Nat) {p : Part} (h : p ∉ [.mc n .servCnt]) :
    (s.modMc n fun m => { m with servCnt := f m }).part p = s.part p :=
  s.modMc_part n _ fun q hq m => by subst hq; cases q <;> first | rfl | simp at h

@[simp] theorem State.modMc_sampleNew_part (s : State) (n : Mcn) (f : Mc → Bool) {p : Part} (h : p ∉ [.mc n .sampleNew]) :
    (s.modMc n fun m => { m with sampleNew := f m }).part p = s.part p :=
  s.modMc_part n _ fun q hq m => by subst hq; cases q <;> first | rfl | simp at h

@[simp] theorem State.modMc_short_part (s : State) (n : Mcn) (f : Mc → ShortSt) {p : Part} (h : p ∉ [.mc n .short]) :
    (s.modMc n fun m => { m with short := f m }).part p = s.part p :=
  s.modMc_part n _ fun q hq m => by subst hq; cases q <;> first | rfl | simp at h

@[simp] theorem State.modMc_bstNow_part (s : State) (n : Mcn) (f : Mc → Vector Bool 3) {p : Part} (h : p ∉ [.mc n .bstNow]) :
    (s.modMc n fun m => { m with bstNow := f m }).part p = s.part p :=
  s.modMc_part n _ fun q hq m => by subst hq; cases q <;> first | rfl | simp at h

@[simp] theorem State.modMc_bstAt_part (s : State) (n : Mcn) (f : Mc → Vector Nat 3) {p : Part} (h : p ∉ [.mc n .bstAt]) :
    (s.modMc n fun m => { m with bstAt := f m }).part p = s.part p :=
  s.modMc_part n _ fun q hq m => by subst hq; cases q <;> first | rfl | simp at h

@[simp] theorem State.modMc_bstRun_part (s : State) (n : Mcn) (f : Mc → Vector Nat 3) {p : Part} (h : p ∉ [.mc n .bstRun]) :
    (s.modMc n fun m => { m with bstRun := f m }).part p = s.part p :=
  s.modMc_part n _ fun q hq m => by subst hq; cases q <;> first | rfl | simp at h

@[simp] theorem State.modMc_precharge_part (s : State) (n : Mcn) (f : Mc → Bool) {p : Part} (h : p ∉ [.mc n .precharge]) :
    (s.modMc n fun m => { m with precharge := f m }).part p = s.part p :=
  s.modMc_part n _ fun q hq m => by subst hq; cases q <;> first | rfl | simp at h

@[simp] theorem State.modMc_hardAt_part (s : State) (n : Mcn) (f : Mc → Vector (Option Nat) 2) {p : Part} (h : p ∉ [.mc n .hardAt]) :
    (s.modMc n fun m => { m with hardAt := f m }).part p = s.part p :=
  s.modMc_part n _ fun q hq m => by subst hq; cases q <;> first | rfl | simp at h

@[simp] theorem State.modMc_vsCode_part (s : State) (n : Mcn) (f : Mc → Nat) {p : Part} (h : p ∉ [.mc n .vsCode]) :
    (s.modMc n fun m => { m with vsCode := f m }).part p = s.part p :=
  s.modMc_part n _ fun q hq m => by subst hq; cases q <;> first | rfl | simp at h

@[simp] theorem State.modMc_models_part (s : State) (n : Mcn) (f : Mc → Vector Model 6) {p : Part} (h : p ∉ [.mc n .models]) :
    (s.modMc n fun m => { m with models := f m }).part p = s.part p :=
  s.modMc_part n _ fun q hq m => by subst hq; cases q <;> first | rfl | simp at h

@[simp] theorem State.modMc_conv_part (s : State) (n : Mcn) (f : Mc → ConvSt) {p : Part} (h : p ∉ [.mc n .conv]) :
    (s.modMc n fun m => { m with conv := f m }).part p = s.part p :=
  s.modMc_part n _ fun q hq m => by subst hq; cases q <;> first | rfl | simp at h

@[simp] theorem State.modMc_pulse_part (s : State) (n : Mcn) (f : Mc → List (Fin 6 × Nat)) {p : Part} (h : p ∉ [.mc n .pulse]) :
    (s.modMc n fun m => { m with pulse := f m }).part p = s.part p :=
  s.modMc_part n _ fun q hq m => by subst hq; cases q <;> first | rfl | simp at h

@[simp] theorem State.modMc_dieSafe_part (s : State) (n : Mcn) (f : Mc → Bool) {p : Part} (h : p ∉ [.mc n .dieSafe]) :
    (s.modMc n fun m => { m with dieSafe := f m }).part p = s.part p :=
  s.modMc_part n _ fun q hq m => by subst hq; cases q <;> first | rfl | simp at h
@[simp] theorem State.with_flash_part (s : State) (x) {p : Part} (h : p ∉ [.flash]) :
    ({ s with flash := x } : State).part p = s.part p := by
  cases p <;> first | rfl | simp at h
@[simp] theorem State.with_sec_part (s : State) (x) {p : Part} (h : p ∉ [.sec]) :
    ({ s with sec := x } : State).part p = s.part p := by
  cases p <;> first | rfl | simp at h
@[simp] theorem State.with_can_part (s : State) (x) {p : Part} (h : p ∉ [.can]) :
    ({ s with can := x } : State).part p = s.part p := by
  cases p <;> first | rfl | simp at h
@[simp] theorem State.with_sp_part (s : State) (x) {p : Part} (h : p ∉ [.sp]) :
    ({ s with sp := x } : State).part p = s.part p := by
  cases p <;> first | rfl | simp at h
@[simp] theorem State.with_boot_part (s : State) (x) {p : Part} (h : p ∉ [.boot]) :
    ({ s with boot := x } : State).part p = s.part p := by
  cases p <;> first | rfl | simp at h
@[simp] theorem State.with_ports_part (s : State) (x) {p : Part} (h : p ∉ [.ports]) :
    ({ s with ports := x } : State).part p = s.part p := by
  cases p <;> first | rfl | simp at h
@[simp] theorem State.with_data_part (s : State) (x) {p : Part} (h : p ∉ [.data]) :
    ({ s with data := x } : State).part p = s.part p := by
  cases p <;> first | rfl | simp at h
@[simp] theorem State.with_range_part (s : State) (x) {p : Part} (h : p ∉ [.range]) :
    ({ s with range := x } : State).part p = s.part p := by
  cases p <;> first | rfl | simp at h
@[simp] theorem State.with_tear_part (s : State) (x) {p : Part} (h : p ∉ [.tear]) :
    ({ s with tear := x } : State).part p = s.part p := by
  cases p <;> first | rfl | simp at h
@[simp] theorem State.with_fresh_part (s : State) (x) {p : Part} (h : p ∉ [.fresh]) :
    ({ s with fresh := x } : State).part p = s.part p := by
  cases p <;> first | rfl | simp at h
@[simp] theorem State.with_mp_part (s : State) (x) {p : Part} (h : p ∉ [.mp]) :
    ({ s with mp := x } : State).part p = s.part p := by
  cases p <;> first | rfl | simp at h
@[simp] theorem State.with_imgSheets_part (s : State) (x) {p : Part} (h : p ∉ [.imgSheets]) :
    ({ s with imgSheets := x } : State).part p = s.part p := by
  cases p <;> first | rfl | simp at h
@[simp] theorem State.with_status_part (s : State) (x) {p : Part} (h : p ∉ [.status]) :
    ({ s with status := x } : State).part p = s.part p := by
  cases p <;> first | rfl | simp at h
@[simp] theorem State.with_authed_part (s : State) (x) {p : Part} (h : p ∉ [.authed]) :
    ({ s with authed := x } : State).part p = s.part p := by
  cases p <;> first | rfl | simp at h

@[simp] theorem State.with_rg_part (s : State) (x) {p : Part} (h : p ∉ [.rg]) :
    ({ s with rg := x } : State).part p = s.part p := by
  cases p <;> first | rfl | simp at h
@[simp] theorem State.with_ready_part (s : State) (x) {p : Part} (h : p ∉ [.ready]) :
    ({ s with ready := x } : State).part p = s.part p := by
  cases p <;> first | rfl | simp at h
@[simp] theorem State.with_runs_part (s : State) (x) {p : Part} (h : p ∉ [.runs]) :
    ({ s with runs := x } : State).part p = s.part p := by
  cases p <;> first | rfl | simp at h
@[simp] theorem State.with_guyFault_part (s : State) (x) {p : Part} (h : p ∉ [.guyFault]) :
    ({ s with guyFault := x } : State).part p = s.part p := by
  cases p <;> first | rfl | simp at h
@[simp] theorem State.with_atlChk_part (s : State) (x) {p : Part} (h : p ∉ [.atlChk]) :
    ({ s with atlChk := x } : State).part p = s.part p := by
  cases p <;> first | rfl | simp at h
@[simp] theorem State.with_rowDead_part (s : State) (x) {p : Part} (h : p ∉ [.rowDead]) :
    ({ s with rowDead := x } : State).part p = s.part p := by
  cases p <;> first | rfl | simp at h
@[simp] theorem State.with_store_part (s : State) (x) {p : Part} (h : p ∉ [.store]) :
    ({ s with store := x } : State).part p = s.part p := by
  cases p <;> first | rfl | simp at h

@[simp] theorem State.setWord_part (s : State) (key : Nat) (w : Word) {p : Part} (h : p ∉ [.store]) :
    (State.setWord s key w).part p = s.part p := by
  cases p <;> first | rfl | simp at h

@[simp] theorem State.setF_part (s : State) (base : Nat) (f : Fld) (v : Nat) {p : Part} (h : p ∉ [.store]) :
    (State.setF s base f v).part p = s.part p := by
  simp at h
  simp [State.setF, h]

@[simp] theorem State.inc_part (s : State) (base : Nat) (f : Fld) (k : Nat) {p : Part} (h : p ∉ [.store]) :
    (State.inc s base f k).part p = s.part p := by
  simp at h
  simp [State.inc, h]

@[simp] theorem State.modCl_part (s : State) (c : Cl) (g : Cluster → Cluster) {p : Part} (h : p ∉ [.cl]) :
    (State.modCl s c g).part p = s.part p := by
  cases p <;> first | rfl | simp at h

@[simp] theorem State.modDev_part (s : State) (g : Dev → Dev) {p : Part} (h : p ∉ [.dev]) :
    (State.modDev s g).part p = s.part p := by
  cases p <;> first | rfl | simp at h

@[simp] theorem State.modLink_part (s : State) (d : Rg) (g : Link → Link) {p : Part} (h : p ∉ [.link]) :
    (State.modLink s d g).part p = s.part p := by
  cases p <;> first | rfl | simp at h

@[simp] theorem State.modGrp_part (s : State) (i : Grp) (g : SGroup → SGroup) {p : Part} (h : p ∉ [.grp]) :
    (State.modGrp s i g).part p = s.part p := by
  cases p <;> first | rfl | simp at h

@[simp] theorem State.modEst_part (s : State) (n : Mcn) (g : Est → Est) {p : Part} (h : p ∉ [.mc n .est]) :
    (State.modEst s n g).part p = s.part p := by
  simp at h
  simp [State.modEst, h]

@[simp] theorem State.modPwm_part (s : State) (n : Mcn) (g : Pwm → Pwm) {p : Part} (h : p ∉ [.mc n .pwm]) :
    (State.modPwm s n g).part p = s.part p := by
  simp at h
  simp [State.modPwm, h]

@[simp] theorem State.modDat_part (s : State) (n : Mcn) (g : Datum → Datum) {p : Part} (h : p ∉ [.mc n .dat]) :
    (State.modDat s n g).part p = s.part p := by
  simp at h
  simp [State.modDat, h]

@[simp] theorem State.modLoop_part (s : State) (n : Mcn) (x : Fin 4) (g : LoopSt → LoopSt) {p : Part} (h : p ∉ [.mc n .loops]) :
    (State.modLoop s n x g).part p = s.part p := by
  simp at h
  simp [State.modLoop, h]

@[simp] theorem State.modEntry_part (s : State) (n : Mcn) (k : Fin 64) (g : GEntry → GEntry) {p : Part} (h : p ∉ [.mc n .grat]) :
    (State.modEntry s n k g).part p = s.part p := by
  simp at h
  simp [State.modEntry, h]

@[simp] theorem State.modTrace_part (s : State) (u : Fin 4) (g : TraceU → TraceU) {p : Part} (h : p ∉ [.trace]) :
    (State.modTrace s u g).part p = s.part p := by
  cases p <;> first | rfl | simp at h

@[simp] theorem State.modAx_part (s : State) (a : Axis) (g : AxisSt → AxisSt) {p : Part} (h : p ∉ [.axM, .axS]) :
    (State.modAx s a g).part p = s.part p := by
  cases a <;> cases p <;> first | rfl | simp at h

@[simp] theorem State.modStp_part (s : State) (k : Chan) (g : Stepper → Stepper) {p : Part} (h : p ∉ [.stp]) :
    (State.modStp s k g).part p = s.part p := by
  cases p <;> first | rfl | simp at h

@[simp] theorem State.modCoil_part (s : State) (k : Chan) (x : Fin 2) (g : Coil → Coil) {p : Part} (h : p ∉ [.stp]) :
    (State.modCoil s k x g).part p = s.part p := by
  simp at h
  simp [State.modCoil, h]

@[simp] theorem State.modModel_part (s : State) (n : Mcn) (sw : Fin 6) (g : Model → Model) {p : Part} (h : p ∉ [.mc n .models]) :
    (State.modModel s n sw g).part p = s.part p := by
  simp at h
  simp [State.modModel, h]

@[simp] theorem State.tick_part (s : State) (dt : Nat) {p : Part} (h : p ∉ [.log, .now]) :
    (State.tick s dt).part p = s.part p := by
  cases p <;> first | rfl | simp at h

@[simp] theorem State.drawn_part (s : State) {p : Part} (h : p ∉ [.fresh]) :
    (State.drawn s).part p = s.part p := by
  cases p <;> first | rfl | simp at h

@[simp] theorem State.answer_part (s : State) (st : Status) {p : Part} (h : p ∉ [.status]) :
    (State.answer s st).part p = s.part p := by
  cases p <;> first | rfl | simp at h

@[simp] theorem traceTrigger_part (u : Fin 4) (s : State) {p : Part} (h : p ∉ [.store, .trace]) :
    (traceTrigger u s).part p = s.part p := by
  simp at h
  simp [traceTrigger, h]

@[simp] theorem traceEvent_part (e : Nat) (s : State) {p : Part} (h : p ∉ [.store, .trace]) :
    (traceEvent e s).part p = s.part p := by
  simp at h
  simp [traceEvent, h]

@[simp] theorem collect_part (e : Nat) (s : State) {p : Part} (h : p ∉ [.store, .trace]) :
    (collect e s).part p = s.part p := by
  simp at h
  simp [collect, h]

@[simp] theorem State.raise_part (s : State) (e : Nat) {p : Part} (h : p ∉ [.link, .raised, .store, .trace]) :
    (State.raise s e).part p = s.part p := by
  simp at h
  simp [State.raise, h]

@[simp] theorem State.assertOn_part (s : State) (e : Nat) {p : Part} (h : p ∉ [.link, .rails, .raised, .store, .trace]) :
    (State.assertOn s e).part p = s.part p := by
  simp at h
  simp [State.assertOn, h]

@[simp] theorem State.assertOff_part (s : State) (e : Nat) {p : Part} (h : p ∉ [.rails, .store]) :
    (State.assertOff s e).part p = s.part p := by
  simp at h
  unfold State.assertOff
  dsimp only
  repeat' split
  all_goals simp [h]

@[simp] theorem State.level_part (s : State) (e : Nat) (b : Bool) {p : Part} (h : p ∉ [.link, .rails, .raised, .store, .trace]) :
    (State.level s e b).part p = s.part p := by
  simp at h
  simp [State.level, h]

@[simp] theorem State.wear_part (s : State) (u : Nat) {p : Part} (h : p ∉ [.health]) :
    (State.wear s u).part p = s.part p := by
  cases p <;> first | rfl | simp at h

@[simp] theorem State.substituted_part (s : State) {p : Part} (h : p ∉ [.store]) :
    (State.substituted s).part p = s.part p := by
  simp at h
  simp [State.substituted, h]

@[simp] theorem State.poolEmpty_part (s : State) (cls : Nat) {p : Part} (h : p ∉ [.link, .raised, .store, .trace]) :
    (State.poolEmpty s cls).part p = s.part p := by
  simp at h
  simp [State.poolEmpty, h]

@[simp] theorem State.seqMark_part (s : State) (g : Grp) (inj : Bool) {p : Part} (h : p ∉ [.grp]) :
    (State.seqMark s g inj).part p = s.part p := by
  simp at h
  simp [State.seqMark, h]

@[simp] theorem State.seqPass_part (s : State) (g : Grp) (inj : Bool) {p : Part} (h : p ∉ [.grp, .link, .raised, .store, .trace]) :
    (State.seqPass s g inj).part p = s.part p := by
  simp at h
  simp [State.seqPass, h]

@[simp] theorem State.seqTrigger_part (s : State) (g : Grp) (inj : Bool) {p : Part} (h : p ∉ [.grp, .link, .raised, .store, .trace]) :
    (State.seqTrigger s g inj).part p = s.part p := by
  simp at h
  simp [State.seqTrigger, h]

@[simp] theorem State.trigCode_part (s : State) (g : Grp) (code : Nat) {p : Part} (h : p ∉ [.grp, .link, .raised, .store, .trace]) :
    (State.trigCode s g code).part p = s.part p := by
  simp at h
  simp [State.trigCode, h]

@[simp] theorem State.pwmTrigger_part (s : State) (n : Mcn) (code : Nat) {p : Part} (h : p ∉ [.grp, .link, .raised, .store, .trace]) :
    (State.pwmTrigger s n code).part p = s.part p := by
  simp at h
  simp [State.pwmTrigger, h]

@[simp] theorem State.hold_part (s : State) (g : Grp) (i : Fin 3) (c : Conv) {p : Part} (h : p ∉ [.grp]) :
    (State.hold s g i c).part p = s.part p := by
  simp at h
  simp [State.hold, h]

@[simp] theorem State.issueRegular_part (s : State) (g : Grp) {p : Part} (h : p ∉ [.grp, .link, .raised, .store, .trace]) :
    (State.issueRegular s g).part p = s.part p := by
  simp at h
  unfold State.issueRegular
  dsimp only
  repeat' split
  all_goals simp [h]

@[simp] theorem State.issueInjected_part (s : State) (g : Grp) (i : Fin 3) {p : Part} (h : p ∉ [.grp]) :
    (State.issueInjected s g i).part p = s.part p := by
  simp at h
  unfold State.issueInjected
  dsimp only
  repeat' split
  all_goals simp [h]

@[simp] theorem State.issueUrgent_part (s : State) (g : Grp) {p : Part} (h : p ∉ [.grp]) :
    (State.issueUrgent s g).part p = s.part p := by
  simp at h
  unfold State.issueUrgent
  repeat' split
  all_goals simp [h]

@[simp] theorem State.accumulate_part (s : State) (g : Grp) (a : Fin 4) (w : Word) {p : Part} (h : p ∉ [.grp, .store]) :
    (State.accumulate s g a w).part p = s.part p := by
  simp at h
  simp [State.accumulate, h]

@[simp] theorem State.accRestart_part (s : State) (g : Grp) (a : Fin 4) {p : Part} (h : p ∉ [.grp, .store]) :
    (State.accRestart s g a).part p = s.part p := by
  simp at h
  simp [State.accRestart, h]

@[simp] theorem State.dmaPush_part (s : State) (g : Grp) (w : Word) {p : Part} (h : p ∉ [.grp, .store]) :
    (State.dmaPush s g w).part p = s.part p := by
  simp at h
  simp [State.dmaPush, h]

@[simp] theorem State.dmaMark_part (s : State) (g : Grp) {p : Part} (h : p ∉ [.grp, .link, .raised, .store, .trace]) :
    (State.dmaMark s g).part p = s.part p := by
  simp at h
  simp [State.dmaMark, h]

@[simp] theorem State.dmaWord_part (s : State) (g : Grp) (w : Word) {p : Part} (h : p ∉ [.grp, .link, .raised, .store, .trace]) :
    (State.dmaWord s g w).part p = s.part p := by
  simp at h
  simp [State.dmaWord, h]

@[simp] theorem State.dmaBurst_part (s : State) (g : Grp) {p : Part} (h : p ∉ [.grp, .link, .raised, .store, .trace]) :
    (State.dmaBurst s g).part p = s.part p := by
  simp at h
  simp [State.dmaBurst, h]

@[simp] theorem State.dmaRptr_part (s : State) (g : Grp) (v : Nat) {p : Part} (h : p ∉ [.grp, .link, .raised, .store, .trace]) :
    (State.dmaRptr s g v).part p = s.part p := by
  simp at h
  simp [State.dmaRptr, h]

@[simp] theorem State.busCode_part (s : State) (g : Grp) (ch code : Nat) {p : Part} (h : ∀ m, p ∉ [.rg, .mc m .vsCode]) :
    (State.busCode s g ch code).part p = s.part p := by
  simp [forall_and] at h
  unfold State.busCode
  dsimp only
  repeat' split
  all_goals simp [h]

@[simp] theorem State.seqResult_part (s : State) (g : Grp) (off k entry tag code slice : Nat) {p : Part} (h : ∀ m, p ∉ [.grp, .rg, .store, .mc m .vsCode]) :
    (State.seqResult s g off k entry tag code slice).part p = s.part p := by
  simp [forall_and] at h
  simp [State.seqResult, h]

@[simp] theorem State.clearSlot_part (s : State) (g : Grp) (i : Fin 3) {p : Part} (h : p ∉ [.grp]) :
    (State.clearSlot s g i).part p = s.part p := by
  simp at h
  simp [State.clearSlot, h]

@[simp] theorem State.holdRoles_part (s : State) (n : Mcn) (ps : List (Fin 3)) {p : Part} (h : p ∉ [.grp]) :
    (State.holdRoles s n ps).part p = s.part p := by
  simp at h
  simp [State.holdRoles, h]

@[simp] theorem State.currentResult_part (s : State) (n : Mcn) (x2 : Fin 3) (code : Nat) {p : Part} (h : p ∉ [.grp, .store]) :
    (State.currentResult s n x2 code).part p = s.part p := by
  simp at h
  simp [State.currentResult, h]

@[simp] theorem State.ampRetireSpare_part (s : State) (n : Mcn) {p : Part} (h : p ∉ [.grp, .link, .raised, .store, .trace]) :
    (State.ampRetireSpare s n).part p = s.part p := by
  simp at h
  simp [State.ampRetireSpare, h]

@[simp] theorem State.ampWant_part (s : State) (n : Mcn) (fuel : Nat) {p : Part} (h : p ∉ [.grp]) :
    (State.ampWant s n fuel).part p = s.part p := by
  simp at h
  simp [State.ampWant, h]

@[simp] theorem State.ampSwapNow_part (s : State) (n : Mcn) {p : Part} (h : p ∉ [.grp, .store]) :
    (State.ampSwapNow s n).part p = s.part p := by
  simp at h
  unfold State.ampSwapNow
  split <;> simp [h]

@[simp] theorem State.ampWear_part (s : State) (n : Mcn) (fuel : Nat) {p : Part} (h : p ∉ [.grp, .health]) :
    (State.ampWear s n fuel).part p = s.part p := by
  simp at h
  simp [State.ampWear, h]

@[simp] theorem State.ampCheck_part (s : State) (n : Mcn) (spareOk : Bool) (diff : Option Nat) {p : Part} (h : p ∉ [.grp, .health, .link, .raised, .store, .trace]) :
    (State.ampCheck s n spareOk diff).part p = s.part p := by
  simp at h
  unfold State.ampCheck
  repeat' split
  all_goals simp [h]

@[simp] theorem State.ampTimeout_part (s : State) (n : Mcn) {p : Part} (h : p ∉ [.grp, .store]) :
    (State.ampTimeout s n).part p = s.part p := by
  simp at h
  simp [State.ampTimeout, h]

@[simp] theorem State.offsetEnd_part (s : State) (n : Mcn) {p : Part} (h : p ∉ [.grp, .health, .link, .raised, .store, .trace]) :
    (State.offsetEnd s n).part p = s.part p := by
  simp at h
  simp [State.offsetEnd, h]

@[simp] theorem State.offsetPhase_part (s : State) (n : Mcn) (x2 : Fin 3) (code : Nat) {p : Part} (h : p ∉ [.grp]) :
    (State.offsetPhase s n x2 code).part p = s.part p := by
  simp at h
  simp [State.offsetPhase, h]

@[simp] theorem State.offsetSample_part (s : State) (n : Mcn) (ps : List (Fin 3 × Nat)) (spare : Option Nat) {p : Part} (h : p ∉ [.grp, .health, .link, .raised, .store, .trace]) :
    (State.offsetSample s n ps spare).part p = s.part p := by
  simp at h
  unfold State.offsetSample
  split <;> simp [h]

@[simp] theorem State.sliceRetire_part (s : State) (g : Grp) {p : Part} (h : p ∉ [.link, .raised, .store, .trace]) :
    (State.sliceRetire s g).part p = s.part p := by
  simp at h
  simp [State.sliceRetire, h]

@[simp] theorem State.calStep_part (s : State) (g : Grp) (refOk : Bool) {p : Part} (h : p ∉ [.grp, .health, .link, .raised, .store, .trace]) :
    (State.calStep s g refOk).part p = s.part p := by
  simp at h
  simp [State.calStep, h]

@[simp] theorem State.calHandover_part (s : State) (g : Grp) (diff : Option Nat) {p : Part} (h : p ∉ [.grp, .health, .link, .raised, .store, .trace]) :
    (State.calHandover s g diff).part p = s.part p := by
  simp at h
  unfold State.calHandover
  repeat' split
  all_goals simp [h]

@[simp] theorem State.switched_part (s : State) (o : Fin 40) (on : Bool) {p : Part} (h : ∀ m, p ∉ [.mc m .models]) :
    (State.switched s o on).part p = s.part p := by
  simp [forall_and] at h
  unfold State.switched
  split <;> simp [h]

@[simp] theorem State.turnOn_part (s : State) (o : Fin 40) {p : Part} (h : ∀ m, p ∉ [.mc m .models, .gates (gateOwner o)]) :
    (State.turnOn s o).part p = s.part p := by
  simp [forall_and] at h
  simp [State.turnOn, h]

@[simp] theorem State.turnOff_part (s : State) (o : Fin 40) {p : Part} (h : ∀ m, p ∉ [.mc m .models, .gates (gateOwner o)]) :
    (State.turnOff s o).part p = s.part p := by
  simp [forall_and] at h
  simp [State.turnOff, h]

@[simp] theorem State.softOff_part (s : State) (o : Fin 40) {p : Part} (h : p ∉ [.gates (gateOwner o)]) :
    (State.softOff s o).part p = s.part p := by
  simp at h
  simp [State.softOff, h]

@[simp] theorem State.phaseEnd_part (s : State) (o : Fin 40) {p : Part} (h : p ∉ [.gates (gateOwner o)]) :
    (State.phaseEnd s o).part p = s.part p := by
  simp at h
  simp [State.phaseEnd, h]

@[simp] theorem State.swAllOff_part (s : State) (n : Mcn) {p : Part} (h : ∀ m, p ∉ [.mc m .models, .mc n .vD, .mc n .vQ, .gates (some n)]) :
    (State.swAllOff s n).part p = s.part p := by
  simp [forall_and] at h
  refine (by exact State.modMc_part _ _ _ fun q hq m => by subst hq; cases q <;> first | rfl | simp at h : _ = State.part (s.each allSw fun sw s => s.turnOff (swOut n sw)) p).trans ?_
  simp [h]

@[simp] theorem State.shortEnter_part (s : State) (n : Mcn) (high : Bool) {p : Part} (h : ∀ m, p ∉ [.mc m .models, .mc n .short, .mc n .vD, .mc n .vQ, .gates (some n)]) :
    (State.shortEnter s n high).part p = s.part p := by
  simp [forall_and] at h
  refine (by exact State.modMc_part _ _ _ fun q hq m => by subst hq; cases q <;> first | rfl | simp at h : _ = State.part (s.each (sideSw (!high)) fun sw s => s.turnOff (swOut n sw)) p).trans ?_
  simp [h]

@[simp] theorem State.holdAllOff_part (s : State) (n : Mcn) {p : Part} (h : ∀ m, p ∉ [.mc m .models, .mc n .short, .mc n .vD, .mc n .vQ, .gates (some n)]) :
    (State.holdAllOff s n).part p = s.part p := by
  simp [forall_and] at h
  simp [State.holdAllOff, h]

@[simp] theorem State.gateApply_part (s : State) (n : Mcn) {p : Part} (h : ∀ m, p ∉ [.link, .raised, .store, .trace, .mc m .models, .mc n .short, .mc n .vD, .mc n .vQ, .gates (some n)]) :
    (State.gateApply s n).part p = s.part p := by
  simp [forall_and] at h
  unfold State.gateApply
  dsimp only
  repeat' split
  all_goals simp [h]

@[simp] theorem State.shortOn_part (s : State) (n : Mcn) {p : Part} (h : ∀ m, p ∉ [.mc m .models, .mc n .pwm, .mc n .short, .gates (some n)]) :
    (State.shortOn s n).part p = s.part p := by
  simp [forall_and] at h
  unfold State.shortOn
  split
  next hi _ =>
    refine State.part_onlyIf _ _ _ _ fun t => ?_
    refine (by exact State.modMc_part _ _ _ fun q hq m => by subst hq; cases q <;> first | rfl | simp at h : _ = State.part (t.each (sideSw hi) fun sw s => s.turnOn (swOut n sw)) p).trans ?_
    simp [h]
  · rfl

@[simp] theorem State.markShort_part (s : State) (n : Mcn) (sw : Fin 6) {p : Part} (h : ∀ m, p ∉ [.link, .raised, .store, .trace, .mc m .models, .mc n .short, .mc n .vD, .mc n .vQ, .gates (some n)]) :
    (State.markShort s n sw).part p = s.part p := by
  simp [forall_and] at h
  unfold State.markShort
  dsimp only
  repeat' split
  all_goals simp [h]

@[simp] theorem State.hardShort_part (s : State) (n : Mcn) (sw : Fin 6) {p : Part} (h : p ∉ [.store, .mc n .hardAt]) :
    (State.hardShort s n sw).part p = s.part p := by
  simp at h
  simp [State.hardShort, h]

@[simp] theorem State.trip_part (s : State) (n : Mcn) (sw : Fin 6) (hard : Bool) {p : Part} (h : ∀ m, p ∉ [.link, .raised, .store, .trace, .mc m .models, .mc n .hardAt, .mc n .short, .mc n .vD, .mc n .vQ, .gates (some n)]) :
    (State.trip s n sw hard).part p = s.part p := by
  simp [forall_and] at h
  unfold State.trip
  dsimp only
  repeat' split
  all_goals simp [h]

@[simp] theorem State.segFault_part (s : State) (o : Fin 40) (d : Fin 2) (k : Nat) {p : Part} (h : p ∉ [.health, .link, .raised, .store, .trace, .gates (gateOwner o)]) :
    (State.segFault s o d k).part p = s.part p := by
  simp at h
  unfold State.segFault
  dsimp only
  split <;> simp [h]

@[simp] theorem State.segSub_part (s : State) (o : Fin 40) (d : Fin 2) {p : Part} (h : p ∉ [.link, .raised, .store, .trace, .gates (gateOwner o)]) :
    (State.segSub s o d).part p = s.part p := by
  simp at h
  unfold State.segSub
  dsimp only
  repeat' split
  all_goals simp [h]

@[simp] theorem State.gateFault_part (s : State) (o : Fin 40) {p : Part} (h : ∀ m, p ∉ [.health, .link, .raised, .store, .trace, .mc m .models, .mc m .short, .mc m .vD, .mc m .vQ, .gates (some m)]) :
    (State.gateFault s o).part p = s.part p := by
  simp [forall_and] at h
  unfold State.gateFault
  split <;> simp [h]

@[simp] theorem State.bstPeriod_part (s : State) (n : Mcn) {p : Part} (h : p ∉ [.link, .raised, .store, .trace, .mc n .bstNow, .mc n .bstRun]) :
    (State.bstPeriod s n).part p = s.part p := by
  simp at h
  unfold State.bstPeriod
  extract_lets any s1
  have h1 : s1.part p = s.part p := by simp only [s1]; split <;> simp [h]
  refine (State.part_each _ _ _ _ fun k t => ?_).trans h1
  split
  · extract_lets run t1
    have ht : t1.part p = t.part p := State.modMc_part _ _ _ fun q hq m => by subst hq; cases q <;> first | rfl | simp at h
    split <;> simp [h, ht]
  · simp [h]

@[simp] theorem State.modRg_part (s : State) (r : Rg) (g : Region → Region) {p : Part} (h : p ∉ [.rg]) :
    (State.modRg s r g).part p = s.part p := by
  cases p <;> first | rfl | simp at h

@[simp] theorem State.chopOff_part (s : State) (r : Rg) {p : Part} (h : ∀ m, p ∉ [.rg, .store, .mc m .models, .gates none]) :
    (State.chopOff s r).part p = s.part p := by
  simp [forall_and] at h
  simp [State.chopOff, h]

@[simp] theorem State.chopSet_part (s : State) (r : Rg) (on : Bool) {p : Part} (h : ∀ m, p ∉ [.rg, .store, .mc m .models, .gates none]) :
    (State.chopSet s r on).part p = s.part p := by
  simp [forall_and] at h
  simp [State.chopSet, h]

@[simp] theorem State.gateApplyRg_part (s : State) (r : Rg) {p : Part} (h : ∀ m, p ∉ [.link, .raised, .store, .trace, .mc m .models, .mc m .short, .mc m .vD, .mc m .vQ, .gates (some m)]) :
    (State.gateApplyRg s r).part p = s.part p := by
  simp [forall_and] at h
  simp [State.gateApplyRg, h]

@[simp] theorem State.ov2Begin_part (s : State) (r : Rg) {p : Part} (h : ∀ m, p ∉ [.link, .rails, .raised, .store, .trace, .mc m .loops, .mc m .models, .mc m .short, .mc m .vD, .mc m .vQ, .gates (some m)]) :
    (State.ov2Begin s r).part p = s.part p := by
  simp [forall_and] at h
  simp [State.ov2Begin, h]

@[simp] theorem State.busLevel_part (s : State) (r : Rg) (l : Nat) {p : Part} (h : p ∉ [.store]) :
    (State.busLevel s r l).part p = s.part p := by
  simp at h
  simp [State.busLevel, h]

@[simp] theorem State.ovReach_part (s : State) (r : Rg) (k : Nat) {p : Part} (h : ∀ m, p ∉ [.link, .rails, .raised, .rg, .store, .trace, .mc m .loops, .mc m .models, .mc m .short, .mc m .vD, .mc m .vQ, .gates (some m), .gates none]) :
    (State.ovReach s r k).part p = s.part p := by
  simp [forall_and] at h
  unfold State.ovReach
  dsimp only
  repeat' split
  all_goals simp [h]

@[simp] theorem State.ovFall_part (s : State) (r : Rg) {p : Part} (h : ∀ m, p ∉ [.rg, .store, .mc m .models, .gates none]) :
    (State.ovFall s r).part p = s.part p := by
  simp [forall_and] at h
  simp [State.ovFall, h]

@[simp] theorem State.chopFault_part (s : State) (r : Rg) (desat : Bool) {p : Part} (h : ∀ m, p ∉ [.link, .rails, .raised, .rg, .store, .trace, .mc m .loops, .mc m .models, .mc m .short, .mc m .vD, .mc m .vQ, .gates (some m), .gates none]) :
    (State.chopFault s r desat).part p = s.part p := by
  simp [forall_and] at h
  simp [State.chopFault, h]

@[simp] theorem State.rbgSet_part (s : State) (r : Rg) (on : Bool) {p : Part} (h : ∀ m, p ∉ [.store, .mc m .models, .gates none]) :
    (State.rbgSet s r on).part p = s.part p := by
  simp [forall_and] at h
  simp [State.rbgSet, h]

@[simp] theorem State.rbgHeld_part (s : State) (r : Rg) {p : Part} (h : ∀ m, p ∉ [.fresh, .store, .mc m .models, .gates none]) :
    (State.rbgHeld s r).part p = s.part p := by
  simp [forall_and] at h
  simp [State.rbgHeld, h]

@[simp] theorem State.gPredict_part (s : State) (n : Mcn) (k : Fin 64) {p : Part} (h : p ∉ [.mc n .grat]) :
    (State.gPredict s n k).part p = s.part p := by
  simp at h
  unfold State.gPredict
  dsimp only
  repeat' split
  all_goals simp [h]

@[simp] theorem State.gLive_part (s : State) (n : Mcn) (k : Fin 64) {p : Part} (h : p ∉ [.mc n .grat]) :
    (State.gLive s n k).part p = s.part p := by
  simp at h
  simp [State.gLive, h]

@[simp] theorem State.gUpdate_part (s : State) (n : Mcn) (turned : Bool) (k : Fin 64) {p : Part} (h : p ∉ [.mc n .grat]) :
    (State.gUpdate s n turned k).part p = s.part p := by
  simp at h
  unfold State.gUpdate
  repeat' split
  all_goals simp [h]

@[simp] theorem State.gReeval_part (s : State) (n : Mcn) (keep : Fin 64 → Bool) {p : Part} (h : p ∉ [.mc n .grat]) :
    (State.gReeval s n keep).part p = s.part p := by
  simp at h
  refine State.part_each _ _ _ _ fun _ t => ?_
  repeat' split
  all_goals simp [h]

@[simp] theorem State.refMoved_part (s : State) (n : Mcn) (ref : Nat) (but : Option (Fin 64)) {p : Part} (h : p ∉ [.mc n .grat]) :
    (State.refMoved s n ref but).part p = s.part p := by
  simp at h
  refine State.part_each _ _ _ _ fun _ t => ?_
  repeat' split
  all_goals simp [h]

@[simp] theorem State.scLeave_part (s : State) (n : Mcn) {p : Part} (h : p ∉ [.store, .mc n .loops, .mc n .pwm, .mc n .scar]) :
    (State.scLeave s n).part p = s.part p := by
  simp at h
  unfold State.scLeave
  dsimp only
  split
  · exact (State.setF_part _ _ _ _ (by simp [h])).trans (State.modMc_part _ _ _ fun q hq m => by subst hq; cases q <;> first | rfl | simp at h)
  · rfl

@[simp] theorem State.contours_part (s : State) (n : Mcn) {p : Part} (h : p ∉ [.mc n .pwm]) :
    (State.contours s n).part p = s.part p := by
  simp at h
  simp [State.contours, h]

@[simp] theorem State.periodTo_part (s : State) (n : Mcn) (e : Int) {p : Part} (h : p ∉ [.mc n .pwm]) :
    (State.periodTo s n e).part p = s.part p := by
  simp at h
  simp [State.periodTo, h]

@[simp] theorem State.syncEnd_part (s : State) (n : Mcn) {p : Part} (h : p ∉ [.mc n .pwm]) :
    (State.syncEnd s n).part p = s.part p := by
  simp at h
  unfold State.syncEnd
  dsimp only
  repeat' split
  all_goals simp [h]

@[simp] theorem State.sectorPredict_part (s : State) (n : Mcn) {p : Part} (h : p ∉ [.mc n .pwm]) :
    (State.sectorPredict s n).part p = s.part p := by
  simp at h
  simp [State.sectorPredict, h]

@[simp] theorem State.boundsUpdate_part (s : State) (n : Mcn) (turned : Bool) {p : Part} (h : p ∉ [.mc n .pwm]) :
    (State.boundsUpdate s n turned).part p = s.part p := by
  simp at h
  unfold State.boundsUpdate
  repeat' split
  all_goals simp [h]

@[simp] theorem State.datumUpdate_part (s : State) (n : Mcn) (angle : Nat) (speed ts : Int) {p : Part} (h : p ∉ [.rails, .store, .mc n .dat, .mc n .grat, .mc n .loops, .mc n .pwm, .mc n .scar]) :
    (State.datumUpdate s n angle speed ts).part p = s.part p := by
  simp at h
  simp [State.datumUpdate, h]

@[simp] theorem State.sourceUpdate_part (s : State) (n : Mcn) (angle : Nat) (speed ts : Int) {p : Part} (h : p ∉ [.rails, .store, .mc n .dat, .mc n .grat, .mc n .loops, .mc n .pwm, .mc n .scar]) :
    (State.sourceUpdate s n angle speed ts).part p = s.part p := by
  simp at h
  simp [State.sourceUpdate, h]

@[simp] theorem State.datumInvalid_part (s : State) (n : Mcn) {p : Part} (h : p ∉ [.link, .rails, .raised, .store, .trace, .mc n .dat, .mc n .loops, .mc n .pwm, .mc n .scar]) :
    (State.datumInvalid s n).part p = s.part p := by
  simp at h
  simp [State.datumInvalid, h]

@[simp] theorem markMissed_part (j : JobId) (s : State) {p : Part} (h : ∀ m, p ∉ [.mc m .conv, .mc m .loops]) :
    (markMissed j s).part p = s.part p := by
  simp [forall_and] at h
  unfold markMissed
  split <;> simp [h]

@[simp] theorem traceMissed_part (j : JobId) (s : State) {p : Part} (h : p ∉ [.trace]) :
    (traceMissed j s).part p = s.part p := by
  simp at h
  unfold traceMissed
  split <;> simp [h]

@[simp] theorem ltestMissed_part (j : JobId) (s : State) {p : Part} (h : p ∉ [.lanes]) :
    (ltestMissed j s).part p = s.part p := by
  simp at h
  unfold ltestMissed
  split <;> simp [h]

@[simp] theorem State.miss_part (s : State) (j : JobId) {p : Part} (h : ∀ m, p ∉ [.lanes, .link, .raised, .store, .trace, .mc m .conv, .mc m .loops]) :
    (State.miss s j).part p = s.part p := by
  simp [forall_and] at h
  unfold State.miss
  dsimp only
  repeat' split
  all_goals simp [h]

@[simp] theorem State.saturated_part (s : State) (j : JobId) (sat : Bool) {p : Part} (h : p ∉ [.link, .raised, .store, .trace]) :
    (State.saturated s j sat).part p = s.part p := by
  simp at h
  unfold State.saturated
  repeat' split
  all_goals simp [h]

@[simp] theorem State.dropJob_part (s : State) (r : Ready) {p : Part} (h : ∀ m, p ∉ [.lanes, .link, .raised, .ready, .store, .trace, .mc m .conv, .mc m .loops]) :
    (State.dropJob s r).part p = s.part p := by
  simp [forall_and] at h
  simp [State.dropJob, h]

@[simp] theorem State.useSet_part (s : State) (j : JobId) (x : Bool × Nat) {p : Part} (h : p ∉ [.cl, .store]) :
    (State.useSet s j x).part p = s.part p := by
  simp at h
  unfold State.useSet
  repeat' split
  all_goals simp [h]

@[simp] theorem dispatch_part (inputs : JobId → State → List Int) (fuel : Nat) (s : State) {p : Part} (h : ∀ m, p ∉ [.lanes, .link, .poolCyc, .raised, .ready, .store, .trace, .mc m .conv, .mc m .loops]) :
    (dispatch inputs fuel s).part p = s.part p := by
  simp [forall_and] at h
  induction fuel generalizing s with
  | zero => rfl
  | succ fuel ih =>
    unfold dispatch
    split
    · rfl
    · split
      · simp [ih, h]
      · refine iteInduction (motive := fun t : State => t.part p = s.part p) (fun _ => by simp [ih, h]) fun _ => ?_
        split
        · rfl
        · rw [ih]
          have hrun (t : State) (x : List Ready) (y : Vector Lane 8) (z : Nat) :
              ({ t with ready := x, lanes := y, poolCyc := z } : State).part p = t.part p := by
            cases p <;> first | rfl | simp at h
          split
          · simp [h, hrun]
          · exact hrun ..

@[simp] theorem State.dispatchAll_part (inputs : JobId → State → List Int) (s : State) {p : Part} (h : ∀ m, p ∉ [.lanes, .link, .poolCyc, .raised, .ready, .store, .trace, .mc m .conv, .mc m .loops]) :
    (State.dispatchAll inputs s).part p = s.part p := by
  simp [forall_and] at h
  simp [State.dispatchAll, h]

@[simp] theorem State.release_part (inputs : JobId → State → List Int) (s : State) (j : JobId) {p : Part} (h : ∀ m, p ∉ [.lanes, .link, .poolCyc, .raised, .ready, .runs, .store, .trace, .mc m .conv, .mc m .loops]) :
    (State.release inputs s j).part p = s.part p := by
  simp [forall_and] at h
  unfold State.release
  extract_lets s1 s2 s3
  have h1 : s1.part p = s.part p := by simp only [s1]; split <;> simp [h]
  have h3 : s3.part p = s1.part p := (s2.with_ready_part _ (by simp [h])).trans (s1.with_runs_part _ (by simp [h]))
  simp [h, h3, h1]

@[simp] theorem State.freeLane_part (s : State) (i : Fin 8) {p : Part} (h : p ∉ [.lanes]) :
    (State.freeLane s i).part p = s.part p := by
  simp at h
  simp [State.freeLane, h]

@[simp] theorem traceRun_part (inputs : JobId → State → List Int) (j : JobId) (what : Ready) (sat : Bool) (node : Fin 4 → Nat → Word) (s : State) {p : Part} (h : ∀ m, p ∉ [.lanes, .link, .poolCyc, .raised, .ready, .runs, .store, .trace, .mc m .conv, .mc m .loops]) :
    (traceRun inputs j what sat node s).part p = s.part p := by
  simp [forall_and] at h
  refine State.part_each _ _ _ _ fun _ t => ?_
  repeat' split
  all_goals simp [h]

@[simp] theorem State.laneState_part (s : State) (i : Fin 8) (st : LaneSt) {p : Part} (h : p ∉ [.lanes]) :
    (State.laneState s i st).part p = s.part p := by
  simp at h
  unfold State.laneState
  repeat' split
  all_goals simp [h]

@[simp] theorem State.laneIn_part (s : State) (i : Fin 8) {p : Part} (h : p ∉ [.lanes, .link, .raised, .ready, .store, .trace]) :
    (State.laneIn s i).part p = s.part p := by
  simp at h
  unfold State.laneIn
  extract_lets l s1
  have h1 : s1.part p = s.part p := by
    simp only [s1]
    split
    · cases p <;> first | rfl | simp at h
    · rfl
  simp [h, h1]

@[simp] theorem State.setMeasured_part (s : State) (a : Axis) (x2 : Int) {p : Part} (h : p ∉ [.axM, .axS, .stp]) :
    (State.setMeasured s a x2).part p = s.part p := by
  simp at h
  unfold State.setMeasured
  split <;> simp [h]

@[simp] theorem State.moRefuse_part (s : State) (a : Axis) (st : Status) {p : Part} (h : p ∉ [.status, .store]) :
    (State.moRefuse s a st).part p = s.part p := by
  simp at h
  unfold State.moRefuse
  dsimp only
  repeat' split
  all_goals simp [h]

@[simp] theorem State.noteClamp_part (s : State) (a : Axis) (v acc : Nat) {p : Part} (h : p ∉ [.store]) :
    (State.noteClamp s a v acc).part p = s.part p := by
  simp at h
  simp [State.noteClamp, h]

@[simp] theorem State.moAccept_part (s : State) (a : Axis) (c : MoCmd) {p : Part} (h : p ∉ [.axM, .axS, .status]) :
    (State.moAccept s a c).part p = s.part p := by
  simp at h
  simp [State.moAccept, h]

@[simp] theorem State.moDo_part (s : State) (a : Axis) (j : Option Status) (v acc : Nat) (c : MoCmd) {p : Part} (h : p ∉ [.axM, .axS, .status, .store]) :
    (State.moDo s a j v acc c).part p = s.part p := by
  simp at h
  unfold State.moDo
  split <;> simp [h]

@[simp] theorem State.moMove_part (s : State) (a : Axis) (g : Staged) {p : Part} (h : p ∉ [.axM, .axS, .status, .store]) :
    (State.moMove s a g).part p = s.part p := by
  simp at h
  simp [State.moMove, h]

@[simp] theorem State.moStop_part (s : State) (a : Axis) {p : Part} (h : p ∉ [.axM, .axS, .status, .store]) :
    (State.moStop s a).part p = s.part p := by
  simp at h
  unfold State.moStop
  split <;> simp [h]

@[simp] theorem State.moSetV_part (s : State) (a : Axis) (g : Staged) {p : Part} (h : p ∉ [.axM, .axS, .status, .store]) :
    (State.moSetV s a g).part p = s.part p := by
  simp at h
  simp [State.moSetV, h]

@[simp] theorem State.moSetA_part (s : State) (a : Axis) (g : Staged) {p : Part} (h : p ∉ [.axM, .axS, .status, .store]) :
    (State.moSetA s a g).part p = s.part p := by
  simp at h
  simp [State.moSetA, h]

@[simp] theorem State.moSpeed_part (s : State) (a : Axis) (g : Staged) {p : Part} (h : p ∉ [.axM, .axS, .status, .store]) :
    (State.moSpeed s a g).part p = s.part p := by
  simp at h
  simp [State.moSpeed, h]

@[simp] theorem State.moAppend_part (s : State) (a : Axis) (g : Staged) {p : Part} (h : p ∉ [.axM, .axS, .status, .store]) :
    (State.moAppend s a g).part p = s.part p := by
  simp at h
  simp [State.moAppend, h]

@[simp] theorem State.moRouteStart_part (s : State) (a : Axis) (openRt : Bool) {p : Part} (h : p ∉ [.axM, .axS, .status, .store]) :
    (State.moRouteStart s a openRt).part p = s.part p := by
  simp at h
  simp [State.moRouteStart, h]

@[simp] theorem State.moRouteLoad_part (s : State) (a : Axis) (route : Option (List Waypoint)) {p : Part} (h : p ∉ [.axM, .axS, .status, .store]) :
    (State.moRouteLoad s a route).part p = s.part p := by
  simp at h
  simp [State.moRouteLoad, h]

@[simp] theorem State.moRouteClear_part (s : State) (a : Axis) {p : Part} (h : p ∉ [.axM, .axS, .status, .store]) :
    (State.moRouteClear s a).part p = s.part p := by
  simp at h
  simp [State.moRouteClear, h]

@[simp] theorem State.moHome_part (s : State) (a : Axis) {p : Part} (h : p ∉ [.axM, .axS, .status, .store]) :
    (State.moHome s a).part p = s.part p := by
  simp at h
  simp [State.moHome, h]

@[simp] theorem State.moSetPos_part (s : State) (a : Axis) (g : Staged) {p : Part} (h : p ∉ [.axM, .axS, .status, .store]) :
    (State.moSetPos s a g).part p = s.part p := by
  simp at h
  simp [State.moSetPos, h]

@[simp] theorem State.freeAxes_part (s : State) (c : Cl) {p : Part} (h : p ∉ [.axM, .axS]) :
    (State.freeAxes s c).part p = s.part p := by
  simp at h
  simp [State.freeAxes, h]

@[simp] theorem State.stopAxes_part (s : State) (c : Cl) {p : Part} (h : p ∉ [.axM, .axS]) :
    (State.stopAxes s c).part p = s.part p := by
  simp at h
  simp [State.stopAxes, h]

@[simp] theorem State.nextSeg_part (s : State) (a : Axis) {p : Part} (h : p ∉ [.axM, .axS, .store]) :
    (State.nextSeg s a).part p = s.part p := by
  simp at h
  unfold State.nextSeg
  dsimp only
  repeat' split
  all_goals simp [h]

@[simp] theorem State.jointPassed_part (s : State) (a : Axis) {p : Part} (h : p ∉ [.axM, .axS, .store]) :
    (State.jointPassed s a).part p = s.part p := by
  simp at h
  simp [State.jointPassed, h]

@[simp] theorem State.runStop_part (s : State) (a : Axis) (dt : Int) {p : Part} (h : p ∉ [.axM, .axS]) :
    (State.runStop s a dt).part p = s.part p := by
  simp at h
  simp [State.runStop, h]

@[simp] theorem State.runSpeed_part (s : State) (a : Axis) (dt : Int) {p : Part} (h : p ∉ [.axM, .axS]) :
    (State.runSpeed s a dt).part p = s.part p := by
  simp at h
  unfold State.runSpeed
  dsimp only
  repeat' split
  all_goals simp [h]

@[simp] theorem State.homeBegin_part (s : State) (k : Chan) {p : Part} (h : p ∉ [.axM, .axS]) :
    (State.homeBegin s k).part p = s.part p := by
  simp at h
  simp [State.homeBegin, h]

@[simp] theorem State.act1_part (a : Axis) (c : MoCmd) (s : State) {p : Part} (h : p ∉ [.axM, .axS, .store, .stp]) :
    (State.act1 a c s).part p = s.part p := by
  simp at h
  unfold State.act1
  repeat' split
  all_goals simp [h]

@[simp] theorem State.follow_part (s : State) (n : Mcn) {p : Part} (h : p ∉ [.axM, .axS]) :
    (State.follow s n).part p = s.part p := by
  simp at h
  simp [State.follow, h]

@[simp] theorem State.coilRefsBy_part (s : State) (k : Chan) (emission : Bool) {p : Part} (h : p ∉ [.stp]) :
    (State.coilRefsBy s k emission).part p = s.part p := by
  simp at h
  simp [State.coilRefsBy, h]

@[simp] theorem State.coilRefs_part (s : State) (k : Chan) {p : Part} (h : p ∉ [.stp]) :
    (State.coilRefs s k).part p = s.part p := by
  simp at h
  simp [State.coilRefs, h]

@[simp] theorem State.coilRefsRg_part (s : State) (r : Rg) {p : Part} (h : p ∉ [.stp]) :
    (State.coilRefsRg s r).part p = s.part p := by
  simp at h
  simp [State.coilRefsRg, h]

@[simp] theorem State.levelDue_part (s : State) (k : Chan) {p : Part} (h : p ∉ [.stp]) :
    (State.levelDue s k).part p = s.part p := by
  simp at h
  simp [State.levelDue, h]

@[simp] theorem State.coincide_part (s : State) (k : Chan) {p : Part} (h : p ∉ [.stp]) :
    (State.coincide s k).part p = s.part p := by
  simp at h
  simp [State.coincide, h]

@[simp] theorem State.emit_part (s : State) (k : Chan) {p : Part} (h : p ∉ [.stp]) :
    (State.emit s k).part p = s.part p := by
  simp at h
  simp [State.emit, h]

@[simp] theorem State.homeDone_part (s : State) (k : Chan) {p : Part} (h : p ∉ [.axM, .axS, .store, .stp]) :
    (State.homeDone s k).part p = s.part p := by
  simp at h
  simp [State.homeDone, h]

@[simp] theorem State.homeTravel_part (a : Axis) (s : State) {p : Part} (h : p ∉ [.axM, .axS, .link, .raised, .store, .stp, .trace]) :
    (State.homeTravel a s).part p = s.part p := by
  simp at h
  unfold State.homeTravel
  split <;> simp [h]

@[simp] theorem State.stall_part (s : State) (k : Chan) {p : Part} (h : p ∉ [.axM, .axS, .link, .raised, .store, .stp, .trace]) :
    (State.stall s k).part p = s.part p := by
  simp at h
  unfold State.stall
  dsimp only
  repeat' split
  all_goals simp [h]

@[simp] theorem State.windowEnd_part (s : State) (k : Chan) (x : Fin 2) (code : Nat) {p : Part} (h : p ∉ [.axM, .axS, .link, .raised, .store, .stp, .trace]) :
    (State.windowEnd s k x code).part p = s.part p := by
  simp at h
  unfold State.windowEnd
  split <;> simp [h]

@[simp] theorem State.coilZero_part (s : State) (k : Chan) (x : Fin 2) {p : Part} (h : p ∉ [.stp]) :
    (State.coilZero s k x).part p = s.part p := by
  simp at h
  simp [State.coilZero, h]

@[simp] theorem State.onEnd_part (s : State) (k : Chan) (x : Fin 2) {p : Part} (h : p ∉ [.stp]) :
    (State.onEnd s k x).part p = s.part p := by
  simp at h
  simp [State.onEnd, h]

@[simp] theorem State.decayEnds_part (s : State) {p : Part} (h : p ∉ [.stp]) :
    (State.decayEnds s).part p = s.part p := by
  simp at h
  simp [State.decayEnds, h]

@[simp] theorem State.onBegin_part (s : State) (k : Chan) (x : Fin 2) {p : Part} (h : p ∉ [.health, .link, .raised, .store, .stp, .trace]) :
    (State.onBegin s k x).part p = s.part p := by
  simp at h
  unfold State.onBegin
  dsimp only
  split <;> simp [h]

@[simp] theorem State.bridgeOc_part (s : State) (k : Chan) (x : Fin 2) {p : Part} (h : p ∉ [.axM, .axS, .health, .link, .raised, .store, .stp, .trace]) :
    (State.bridgeOc s k x).part p = s.part p := by
  simp at h
  simp [State.bridgeOc, h]

@[simp] theorem State.bridgeSeg_part (s : State) (x1 : Fin 16) (seg : Nat) {p : Part} (h : p ∉ [.health, .store, .stp]) :
    (State.bridgeSeg s x1 seg).part p = s.part p := by
  simp at h
  simp [State.bridgeSeg, h]

@[simp] theorem State.bridgeSpare_part (s : State) (x1 : Fin 16) {p : Part} (h : p ∉ [.link, .raised, .store, .stp, .trace]) :
    (State.bridgeSpare s x1).part p = s.part p := by
  simp at h
  unfold State.bridgeSpare
  dsimp only
  repeat' split
  all_goals simp [h]

@[simp] theorem State.measureAxis_part (s : State) (n : Mcn) {p : Part} (h : p ∉ [.axM, .axS, .store]) :
    (State.measureAxis s n).part p = s.part p := by
  simp at h
  unfold State.measureAxis
  dsimp only
  repeat' split
  all_goals simp [h]

@[simp] theorem State.dwellOver_part (s : State) (a : Axis) {p : Part} (h : p ∉ [.axM, .axS, .store]) :
    (State.dwellOver s a).part p = s.part p := by
  simp at h
  simp [State.dwellOver, h]

@[simp] theorem State.standbyDue_part (s : State) (k : Chan) {p : Part} (h : p ∉ [.stp]) :
    (State.standbyDue s k).part p = s.part p := by
  simp at h
  unfold State.standbyDue
  split <;> simp [h]

@[simp] theorem State.modDie_part (s : State) (d : Fin 3) (g : DieTh → DieTh) {p : Part} (h : p ∉ [.die]) :
    (State.modDie s d g).part p = s.part p := by
  cases p <;> first | rfl | simp at h

@[simp] theorem State.modNtc_part (s : State) (k : Fin 4) (g : Ntc → Ntc) {p : Part} (h : p ∉ [.ntc]) :
    (State.modNtc s k g).part p = s.part p := by
  cases p <;> first | rfl | simp at h

@[simp] theorem State.reach_part (s : State) (e : Nat) (new any : Bool) {p : Part} (h : p ∉ [.link, .rails, .raised, .store, .trace]) :
    (State.reach s e new any).part p = s.part p := by
  simp at h
  simp [State.reach, h]

@[simp] theorem State.rateEvent_part (s : State) (e : Nat) (was is : Bool) {p : Part} (h : p ∉ [.link, .raised, .store, .trace]) :
    (State.rateEvent s e was is).part p = s.part p := by
  simp at h
  simp [State.rateEvent, h]

@[simp] theorem State.sensBreak_part (s : State) (d : Fin 3) (fuel : Nat) {p : Part} (h : p ∉ [.die, .link, .rails, .raised, .store, .trace]) :
    (State.sensBreak s d fuel).part p = s.part p := by
  simp at h
  simp [State.sensBreak, h]

@[simp] theorem State.outlier_part (s : State) (d : Fin 3) (temps : List Int) (r : Nat) {p : Part} (h : p ∉ [.die, .health, .link, .rails, .raised, .store, .trace]) :
    (State.outlier s d temps r).part p = s.part p := by
  simp at h
  simp [State.outlier, h]

@[simp] theorem State.dieLimits_part (s : State) (d : Fin 3) (t : Int) {p : Part} (h : p ∉ [.die, .link, .rails, .raised, .store, .trace]) :
    (State.dieLimits s d t).part p = s.part p := by
  simp at h
  simp [State.dieLimits, h]

@[simp] theorem State.dieRate_part (s : State) (d : Fin 3) (temps : List Int) (r : Nat) {p : Part} (h : p ∉ [.die, .link, .raised, .store, .trace]) :
    (State.dieRate s d temps r).part p = s.part p := by
  simp at h
  simp [State.dieRate, h]

@[simp] theorem State.diePass_part (s : State) (d : Fin 3) (code : Nat → Nat) {p : Part} (h : p ∉ [.die, .health, .link, .rails, .raised, .store, .trace]) :
    (State.diePass s d code).part p = s.part p := by
  simp at h
  simp [State.diePass, h]

@[simp] theorem State.ntcPass_part (s : State) (k : Fin 4) (code : Nat) {p : Part} (h : p ∉ [.link, .ntc, .rails, .raised, .store, .trace]) :
    (State.ntcPass s k code).part p = s.part p := by
  simp at h
  simp [State.ntcPass, h]

@[simp] theorem State.coldMarks_part (s : State) {p : Part} (h : p ∉ [.store]) :
    (State.coldMarks s).part p = s.part p := by
  simp at h
  simp [State.coldMarks, h]

@[simp] theorem State.thermalPass_part (s : State) (t : ThermIn) {p : Part} (h : p ∉ [.die, .health, .link, .ntc, .rails, .raised, .store, .trace]) :
    (State.thermalPass s t).part p = s.part p := by
  simp at h
  simp [State.thermalPass, h]

@[simp] theorem State.modelSample_part (s : State) (n : Mcn) {p : Part} (h : p ∉ [.mc n .models]) :
    (State.modelSample s n).part p = s.part p := by
  simp at h
  simp [State.modelSample, h]

@[simp] theorem State.vdsResult_part (s : State) (n : Mcn) (sw : Fin 6) (code : Nat) {p : Part} (h : p ∉ [.mc n .models]) :
    (State.vdsResult s n sw code).part p = s.part p := by
  simp at h
  simp [State.vdsResult, h]

@[simp] theorem State.modelRun_part (s : State) (n : Mcn) (sw : Fin 6) (at_ : Nat) (ref vs : Int) (sums : List Int) {p : Part} (h : p ∉ [.link, .rails, .raised, .store, .trace, .mc n .models]) :
    (State.modelRun s n sw at_ ref vs sums).1.part p = s.part p := by
  simp at h
  simp [State.modelRun, h]

@[simp] theorem State.brakeRun_part (s : State) (r : Rg) (inp : List Int) {p : Part} (h : p ∉ [.brake, .link, .rails, .raised, .rg, .store, .trace]) :
    (State.brakeRun s r inp).1.part p = s.part p := by
  simp at h
  unfold State.brakeRun
  extract_lets m x g at_ dt pf ref bad rb pw rs taus th tj t lf l win is s1 s2 s3 s4 s5 s6
  have h1 : s1.part p = s.part p := by
    cases p <;> first | rfl | simp at h
  have h2 : s2.part p = s.part p := by
    simp only [s2]; split <;> simp [h, h1]
  have h6 : s6.part p = s.part p := by simp [s6, s5, s4, s3, h, h2]
  simp [h, h6]

@[simp] theorem State.derateBy_part (s : State) (n : Mcn) (inp : List Int) {p : Part} (h : p ∉ [.store, .mc n .pwm]) :
    (State.derateBy s n inp).part p = s.part p := by
  simp at h
  unfold State.derateBy
  extract_lets lf mods srcs fs cap evf ki kf lim old kf'
  generalize maxRole (allSw.map fun sw => ((s.mc[n]).models[sw]).tj) 0 (-40000, 0) = x
  clear_value kf' lim ki
  dsimp only
  split <;> simp [h]

@[simp] theorem State.derate_part (s : State) (n : Mcn) {p : Part} (h : p ∉ [.store, .mc n .pwm]) :
    (State.derate s n).part p = s.part p := by
  simp at h
  simp [State.derate, h]

@[simp] theorem State.derateSt_part (s : State) (r : Rg) {p : Part} (h : p ∉ [.link, .rails, .raised, .store, .stp, .trace]) :
    (State.derateSt s r).part p = s.part p := by
  simp at h
  simp [State.derateSt, h]

@[simp] theorem State.thermMotor_part (s : State) (n : Mcn) (inp : List Int) {p : Part} (h : p ∉ [.link, .rails, .raised, .store, .trace, .mc n .models, .mc n .pwm]) :
    (State.thermMotor s n inp).1.part p = s.part p := by
  simp at h
  unfold State.thermMotor
  have hf (l : List (Fin 6)) (x : State × Bool) : (l.foldl (fun (x : State × Bool) sw =>
      let (s, b) := x.1.modelRun n sw (nth inp 0 0).toNat (nth inp 1 0) (nth inp 2 0) ((inp.drop (3 + 8 * sw.val)).take 8)
      (s, x.2 || b)) x).1.part p = x.1.part p := by
    induction l generalizing x with
    | nil => rfl
    | cons a l ih => exact (ih _).trans (State.modelRun_part _ _ _ _ _ _ _ (by simp [h]))
  exact (State.derateBy_part _ _ _ (by simp [h])).trans (hf _ _)

@[simp] theorem State.thermRegion_part (s : State) (r : Rg) (inp : List Int) {p : Part} (h : p ∉ [.brake, .link, .rails, .raised, .rg, .store, .stp, .trace]) :
    (State.thermRegion s r inp).1.part p = s.part p := by
  simp at h
  exact (State.derateSt_part _ _ (by simp [h])).trans (s.brakeRun_part _ _ (by simp [h]))

@[simp] theorem State.carrierChange_part (s : State) (n : Mcn) {p : Part} (h : p ∉ [.mc n .pwm]) :
    (State.carrierChange s n).part p = s.part p := by
  simp at h
  unfold State.carrierChange
  split <;> simp [h]

@[simp] theorem State.rampBit_part (s : State) (n : Mcn) (x : Nat) (ramping : Bool) {p : Part} (h : p ∉ [.store]) :
    (State.rampBit s n x ramping).part p = s.part p := by
  simp at h
  simp [State.rampBit, h]

@[simp] theorem State.place_part (s : State) (n : Mcn) (d : Vector Int 3) (ua ub : Int) {p : Part} (h : p ∉ [.store, .mc n .pwm]) :
    (State.place s n d ua ub).2.part p = s.part p := by
  simp at h
  simp [State.place, h]

@[simp] theorem State.showApplied_part (s : State) (n : Mcn) (c : Compare) {p : Part} (h : p ∉ [.store]) :
    (State.showApplied s n c).part p = s.part p := by
  simp at h
  simp [State.showApplied, h]

@[simp] theorem State.latency_part (s : State) (n : Mcn) (apply out : Nat) {p : Part} (h : p ∉ [.store, .mc n .pwm]) :
    (State.latency s n apply out).part p = s.part p := by
  simp at h
  simp [State.latency, h]

@[simp] theorem State.legEdge_part (s : State) (n : Mcn) (t : Int) (x3 : Fin 3) (c : LegCmd) {p : Part} (h : ∀ m, p ∉ [.mc m .models, .mc n .pwm, .gates (some n)]) :
    (State.legEdge s n t x3 c).part p = s.part p := by
  simp [forall_and] at h
  unfold State.legEdge
  repeat' split
  all_goals simp [h]

@[simp] theorem State.edgesGo_part (n : Mcn) (fuel : Nat) (s : State) {p : Part} (h : ∀ m, p ∉ [.mc m .models, .mc n .pwm, .gates (some n)]) :
    (State.edgesGo n fuel s).part p = s.part p := by
  simp [forall_and] at h
  induction fuel generalizing s with
  | zero => rfl
  | succ k ih =>
    unfold State.edgesGo
    split
    · rfl
    · split
      · rw [ih]
        by_cases hnow : p = .now
        · subst hnow; rfl
        exact (State.with_now_part _ _ (by simp [hnow])).trans ((State.legEdge_part _ _ _ _ _ (by simp [h])).trans
          ((State.with_now_part _ _ (by simp [hnow])).trans (State.modPwm_part _ _ _ (by simp [h]))))
      · rfl

@[simp] theorem State.runEdges_part (s : State) (n : Mcn) {p : Part} (h : ∀ m, p ∉ [.mc m .models, .mc n .pwm, .gates (some n)]) :
    (State.runEdges s n).part p = s.part p := by
  simp [forall_and] at h
  simp [State.runEdges, h]

@[simp] theorem State.schedule_part (s : State) (n : Mcn) (ps : List (Fin 3)) (es : List (Int × Fin 3 × LegCmd)) {p : Part} (h : ∀ m, p ∉ [.mc m .models, .mc n .pwm, .gates (some n)]) :
    (State.schedule s n ps es).part p = s.part p := by
  simp [forall_and] at h
  unfold State.schedule
  extract_lets s1 s2 s3
  have h2 : s2.part p = s1.part p := State.part_each _ _ _ _ fun q t => by split <;> simp [h]
  simp [s3, s1, h, h2]

@[simp] theorem State.driveHalf_part (s : State) (n : Mcn) {p : Part} (h : ∀ m, p ∉ [.mc m .models, .mc n .pwm, .gates (some n)]) :
    (State.driveHalf s n).part p = s.part p := by
  simp [forall_and] at h
  simp [State.driveHalf, h]

@[simp] theorem State.compareApply_part (s : State) (n : Mcn) {p : Part} (h : ∀ m, p ∉ [.store, .mc m .models, .mc n .pwm, .gates (some n)]) :
    (State.compareApply s n).part p = s.part p := by
  simp [forall_and] at h
  unfold State.compareApply
  dsimp only
  repeat' split
  all_goals simp [h]

@[simp] theorem State.scalePeriod_part (s : State) (n : Mcn) (from_ into : Nat) {p : Part} (h : p ∉ [.mc n .pwm]) :
    (State.scalePeriod s n from_ into).part p = s.part p := by
  simp at h
  simp [State.scalePeriod, h]

@[simp] theorem State.newPeriod_part (s : State) (n : Mcn) {p : Part} (h : p ∉ [.link, .raised, .store, .trace, .mc n .pwm, .mc n .scar]) :
    (State.newPeriod s n).part p = s.part p := by
  simp at h
  unfold State.newPeriod
  extract_lets m past s1 s2 t s3 s4
  split
  · have h1 : s1.part p = s.part p := State.modMc_part _ _ _ fun q hq m => by subst hq; cases q <;> first | rfl | simp at h
    split <;> simp [s2, h, h1]
  · have h4 : s4.part p = s.part p := by
      simp only [s4]
      split
      · split <;> simp [s3, h]
      · simp [s3, h]
    split <;> simp [h, h4]

@[simp] theorem State.carrierStart_part (s : State) (n : Mcn) {p : Part} (h : p ∉ [.link, .raised, .store, .trace, .mc n .pwm, .mc n .scar]) :
    (State.carrierStart s n).part p = s.part p := by
  simp at h
  unfold State.carrierStart
  extract_lets z s1 s2
  have h1 : s1.part p = s.part p := State.modMc_part _ _ _ fun q hq m => by subst hq; cases q <;> first | rfl | simp at h
  split <;> simp [s2, h, h1]

@[simp] theorem State.carrierStop_part (s : State) (n : Mcn) {p : Part} (h : p ∉ [.store, .mc n .pwm, .mc n .scar]) :
    (State.carrierStop s n).part p = s.part p := by
  simp at h
  exact (State.setF_part _ _ _ _ (by simp [h])).trans (State.modMc_part _ _ _ fun q hq m => by subst hq; cases q <;> first | rfl | simp at h)

@[simp] theorem State.carrierBack_part (s : State) (n : Mcn) {p : Part} (h : p ∉ [.link, .raised, .store, .trace, .mc n .pwm, .mc n .scar]) :
    (State.carrierBack s n).part p = s.part p := by
  simp at h
  simp [State.carrierBack, h]

@[simp] theorem State.gateBack_part (s : State) (n : Mcn) {p : Part} (h : ∀ m, p ∉ [.link, .raised, .store, .trace, .mc m .models, .mc n .pwm, .mc n .scar, .mc n .short, .mc n .vD, .mc n .vQ, .gates (some n)]) :
    (State.gateBack s n).part p = s.part p := by
  simp [forall_and] at h
  simp [State.gateBack, h]

@[simp] theorem State.dropResiduals_part (s : State) (n : Mcn) {p : Part} (h : p ∉ [.mc n .pwm]) :
    (State.dropResiduals s n).part p = s.part p := by
  simp at h
  simp [State.dropResiduals, h]

@[simp] theorem State.sectorSet_part (s : State) (n : Mcn) (k : Nat) {p : Part} (h : ∀ m, p ∉ [.store, .mc m .models, .mc n .est, .mc n .pwm, .gates (some n)]) :
    (State.sectorSet s n k).part p = s.part p := by
  simp [forall_and] at h
  unfold State.sectorSet
  dsimp only
  repeat' split
  all_goals simp [h]

@[simp] theorem State.sectorSync_part (s : State) (n : Mcn) {p : Part} (h : ∀ m, p ∉ [.store, .mc m .models, .mc n .est, .mc n .pwm, .gates (some n)]) :
    (State.sectorSync s n).part p = s.part p := by
  simp [forall_and] at h
  simp [State.sectorSync, h]

@[simp] theorem State.sectorBoundary_part (s : State) (n : Mcn) {p : Part} (h : ∀ m, p ∉ [.store, .mc m .models, .mc n .est, .mc n .pwm, .gates (some n)]) :
    (State.sectorBoundary s n).part p = s.part p := by
  simp [forall_and] at h
  simp [State.sectorBoundary, h]

@[simp] theorem State.refreshDone_part (s : State) (n : Mcn) (x2 : Fin 3) {p : Part} (h : p ∉ [.store, .mc n .pwm]) :
    (State.refreshDone s n x2).part p = s.part p := by
  simp at h
  simp [State.refreshDone, h]

@[simp] theorem State.refreshPlan_part (s : State) (n : Mcn) {p : Part} (h : p ∉ [.mc n .pwm]) :
    (State.refreshPlan s n).part p = s.part p := by
  simp at h
  simp [State.refreshPlan, h]

@[simp] theorem State.forceRefresh_part (s : State) (n : Mcn) (x2 : Fin 3) {p : Part} (h : p ∉ [.mc n .pwm]) :
    (State.forceRefresh s n x2).part p = s.part p := by
  simp at h
  simp [State.forceRefresh, h]

@[simp] theorem State.bstSet_part (s : State) (n : Mcn) (x2 : Fin 3) (low : Bool) {p : Part} (h : p ∉ [.store, .mc n .bstAt, .mc n .bstNow, .mc n .pwm]) :
    (State.bstSet s n x2 low).part p = s.part p := by
  simp at h
  simp [State.bstSet, h]

@[simp] theorem State.refreshPhase_part (s : State) (n : Mcn) (x2 : Fin 3) {p : Part} (h : p ∉ [.store, .mc n .pwm]) :
    (State.refreshPhase s n x2).part p = s.part p := by
  simp at h
  simp [State.refreshPhase, h]

@[simp] theorem State.sampleBoundary_part (s : State) (n : Mcn) {p : Part} (h : p ∉ [.mc n .atl]) :
    (State.sampleBoundary s n).part p = s.part p := by
  simp at h
  refine State.modMc_part _ _ _ fun q hq m => ?_
  subst hq
  dsimp only
  split
  · split
    · cases q <;> first | rfl | simp at h
    · rfl
  · rfl

@[simp] theorem State.holdCurrents_part (s : State) (n : Mcn) {p : Part} (h : p ∉ [.grp, .store, .mc n .atl, .mc n .closed, .mc n .pwm, .mc n .uA, .mc n .uB]) :
    (State.holdCurrents s n).part p = s.part p := by
  simp at h
  unfold State.holdCurrents
  extract_lets closed s1 s2 s3
  generalize s.appliedVec n = x
  rcases x with ⟨ua, ub⟩
  exact (by exact State.modMc_part _ _ _ fun q hq m => by subst hq; cases q <;> first | rfl | simp at h : _ = State.part s3 p).trans (by simp [s3, s2, s1, h])

@[simp] theorem State.injPlan_part (s : State) (n : Mcn) {p : Part} (h : p ∉ [.store, .mc n .est, .mc n .pwm]) :
    (State.injPlan s n).part p = s.part p := by
  simp at h
  simp [State.injPlan, h]

@[simp] theorem State.zeroNow_part (s : State) (n : Mcn) {p : Part} (h : ∀ m, p ∉ [.grp, .link, .raised, .store, .trace, .mc m .models, .mc n .atl, .mc n .bstNow, .mc n .bstRun, .mc n .closed, .mc n .est, .mc n .pwm, .mc n .scar, .mc n .uA, .mc n .uB, .gates (some n)]) :
    (State.zeroNow s n).part p = s.part p := by
  simp [forall_and] at h
  simp [State.zeroNow, h]

@[simp] theorem State.counterZero_part (s : State) (n : Mcn) {p : Part} (h : ∀ m, p ∉ [.grp, .link, .raised, .store, .trace, .mc m .models, .mc n .atl, .mc n .bstNow, .mc n .bstRun, .mc n .closed, .mc n .est, .mc n .pwm, .mc n .scar, .mc n .uA, .mc n .uB, .gates (some n)]) :
    (State.counterZero s n).part p = s.part p := by
  simp [forall_and] at h
  simp [State.counterZero, h]

@[simp] theorem State.periodEvent_part (s : State) (n : Mcn) {p : Part} (h : ∀ m, p ∉ [.grp, .link, .raised, .store, .trace, .mc m .models, .mc n .atl, .mc n .closed, .mc n .pwm, .mc n .uA, .mc n .uB, .gates (some n)]) :
    (State.periodEvent s n).part p = s.part p := by
  simp [forall_and] at h
  unfold State.periodEvent
  dsimp only
  repeat' split
  all_goals simp [h]

@[simp] theorem State.ratioCrossing_part (s : State) (n : Mcn) {p : Part} (h : ∀ m, p ∉ [.fresh, .grp, .link, .raised, .store, .trace, .mc m .models, .mc n .atl, .mc n .bstNow, .mc n .bstRun, .mc n .closed, .mc n .est, .mc n .loops, .mc n .pwm, .mc n .scar, .mc n .uA, .mc n .uB, .gates (some n)]) :
    (State.ratioCrossing s n).part p = s.part p := by
  simp [forall_and] at h
  unfold State.ratioCrossing
  extract_lets m sel old ratio six wasSix same s1 s2 s3 vd s4 vq s5 s6 s7 b
  have h1 : s1.part p = s.part p := by simp only [s1]; split <;> simp [h]
  have h2 : s2.part p = s.part p := (by exact State.modMc_part _ _ _ fun q hq m => by subst hq; cases q <;> first | rfl | simp at h : s2.part p = s1.part p).trans h1
  have h3 : s3.part p = s.part p := by simp only [s3]; split <;> simp [h, h2]
  have h6 : s6.part p = s.part p := by
    simp only [s6]
    split
    · exact (by exact State.modMc_part _ _ _ fun q hq m => by subst hq; cases q <;> first | rfl | simp at h : _ = s5.part p).trans (by simp [s5, s4, h, h3])
    · exact h3
  clear_value s6 s3 s2
  have h7 : s7.part p = s.part p := by simp [s7, h, h6]
  split
  · rfl
  · split
    · split <;> simp [h, h2]
    · split
      · exact h2
      · split
        · simp [h, h7]
        · split <;> simp [h, h7]

@[simp] theorem State.estSet_part (s : State) (n : Mcn) (f : Fld) (v : Nat) {p : Part} (h : p ∉ [.store]) :
    (State.estSet s n f v).part p = s.part p := by
  simp at h
  simp [State.estSet, h]

@[simp] theorem State.sensorUpdate_part (s : State) (n : Mcn) (angle : Nat) (speed ts : Int) {p : Part} (h : ∀ m, p ∉ [.rails, .store, .mc m .models, .mc n .dat, .mc n .est, .mc n .grat, .mc n .loops, .mc n .pwm, .mc n .scar, .gates (some n)]) :
    (State.sensorUpdate s n angle speed ts).part p = s.part p := by
  simp [forall_and] at h
  simp [State.sensorUpdate, h]

@[simp] theorem State.hallHold_part (s : State) (n : Mcn) {p : Part} (h : p ∉ [.mc n .dat]) :
    (State.hallHold s n).part p = s.part p := by
  simp at h
  simp [State.hallHold, h]

@[simp] theorem State.hallEdge_part (s : State) (n : Mcn) (code : Nat) {p : Part} (h : ∀ m, p ∉ [.link, .rails, .raised, .store, .trace, .mc m .models, .mc n .dat, .mc n .est, .mc n .grat, .mc n .loops, .mc n .pwm, .mc n .scar, .gates (some n)]) :
    (State.hallEdge s n code).part p = s.part p := by
  simp [forall_and] at h
  unfold State.hallEdge
  dsimp only
  repeat' split
  all_goals simp [h]

@[simp] theorem State.setEncCount_part (s : State) (n : Mcn) (c : Int) {p : Part} (h : p ∉ [.store]) :
    (State.setEncCount s n c).part p = s.part p := by
  simp at h
  simp [State.setEncCount, h]

@[simp] theorem State.encUpdate_part (s : State) (n : Mcn) {p : Part} (h : ∀ m, p ∉ [.rails, .store, .mc m .models, .mc n .dat, .mc n .est, .mc n .grat, .mc n .loops, .mc n .pwm, .mc n .scar, .gates (some n)]) :
    (State.encUpdate s n).part p = s.part p := by
  simp [forall_and] at h
  simp [State.encUpdate, h]

@[simp] theorem State.posStop_part (s : State) (n : Mcn) {p : Part} (h : ∀ m, p ∉ [.rails, .store, .mc m .models, .mc n .dat, .mc n .est, .mc n .grat, .mc n .loops, .mc n .pwm, .mc n .scar, .gates (some n)]) :
    (State.posStop s n).part p = s.part p := by
  simp [forall_and] at h
  unfold State.posStop
  split <;> simp [h]

@[simp] theorem State.hallSample_part (s : State) (n : Mcn) {p : Part} (h : ∀ m, p ∉ [.rails, .store, .mc m .models, .mc n .dat, .mc n .est, .mc n .grat, .mc n .loops, .mc n .pwm, .mc n .scar, .gates (some n)]) :
    (State.hallSample s n).part p = s.part p := by
  simp [forall_and] at h
  unfold State.hallSample
  dsimp only
  repeat' split
  all_goals simp [h]

@[simp] theorem State.encEdge_part (s : State) (n : Mcn) (q : Quad) {p : Part} (h : p ∉ [.link, .raised, .store, .trace, .mc n .est]) :
    (State.encEdge s n q).part p = s.part p := by
  simp at h
  unfold State.encEdge
  repeat' split
  all_goals simp [h]

@[simp] theorem State.encIndex_part (s : State) (n : Mcn) {p : Part} (h : ∀ m, p ∉ [.link, .rails, .raised, .store, .trace, .mc m .models, .mc n .dat, .mc n .est, .mc n .grat, .mc n .loops, .mc n .pwm, .mc n .scar, .gates (some n)]) :
    (State.encIndex s n).part p = s.part p := by
  simp [forall_and] at h
  simp [State.encIndex, h]

@[simp] theorem State.encRef_part (s : State) (n : Mcn) (angle : Nat) {p : Part} (h : p ∉ [.store, .mc n .est]) :
    (State.encRef s n angle).part p = s.part p := by
  simp at h
  simp [State.encRef, h]

@[simp] theorem State.absUpdate_part (s : State) (n : Mcn) (start : Int) (w : Nat) (portOk : Bool) {p : Part} (h : ∀ m, p ∉ [.link, .rails, .raised, .store, .trace, .mc m .models, .mc n .dat, .mc n .est, .mc n .grat, .mc n .loops, .mc n .pwm, .mc n .scar, .gates (some n)]) :
    (State.absUpdate s n start w portOk).part p = s.part p := by
  simp [forall_and] at h
  unfold State.absUpdate
  extract_lets bits ok mech a ts e diffs speed s1 s2 run s3
  clear_value diffs speed
  split
  · split
    · simp [s1, h]
    · split <;> simp [s3, s2, h]
  · rfl

@[simp] theorem State.injBand_part (s : State) (n : Mcn) {p : Part} (h : p ∉ [.store, .mc n .est]) :
    (State.injBand s n).part p = s.part p := by
  simp at h
  simp [State.injBand, h]

@[simp] theorem State.blendDatum_part (s : State) (n : Mcn) (ts : Int) {p : Part} (h : p ∉ [.link, .rails, .raised, .store, .trace, .mc n .dat, .mc n .grat, .mc n .loops, .mc n .pwm, .mc n .scar]) :
    (State.blendDatum s n ts).part p = s.part p := by
  simp at h
  simp [State.blendDatum, h]

@[simp] theorem State.reacqRecord_part (s : State) (n : Mcn) (ok : Bool) {p : Part} (h : p ∉ [.store]) :
    (State.reacqRecord s n ok).part p = s.part p := by
  simp at h
  simp [State.reacqRecord, h]

@[simp] theorem State.takePath_part (s : State) (n : Mcn) (x2 : Path) {p : Part} (h : ∀ m, p ∉ [.link, .raised, .store, .trace, .mc m .models, .mc n .est, .mc n .pwm, .mc n .scar, .mc n .short, .mc n .vD, .mc n .vQ, .gates (some n)]) :
    (State.takePath s n x2).part p = s.part p := by
  simp [forall_and] at h
  simp [State.takePath, h]

@[simp] theorem State.choosePath_part (s : State) (n : Mcn) {p : Part} (h : ∀ m, p ∉ [.link, .raised, .store, .trace, .mc m .models, .mc n .est, .mc n .pwm, .mc n .scar, .mc n .short, .mc n .vD, .mc n .vQ, .gates (some n)]) :
    (State.choosePath s n).part p = s.part p := by
  simp [forall_and] at h
  simp [State.choosePath, h]

@[simp] theorem State.recover_part (s : State) (n : Mcn) {p : Part} (h : ∀ m, p ∉ [.link, .rails, .raised, .store, .trace, .mc m .models, .mc n .dat, .mc n .est, .mc n .loops, .mc n .pwm, .mc n .scar, .mc n .short, .mc n .vD, .mc n .vQ, .gates (some n)]) :
    (State.recover s n).part p = s.part p := by
  simp [forall_and] at h
  simp [State.recover, h]

@[simp] theorem State.lockLost_part (s : State) (n : Mcn) {p : Part} (h : p ∉ [.link, .raised, .store, .trace]) :
    (State.lockLost s n).part p = s.part p := by
  simp at h
  simp [State.lockLost, h]

@[simp] theorem State.lossOfLock_part (s : State) (n : Mcn) {p : Part} (h : ∀ m, p ∉ [.link, .rails, .raised, .store, .trace, .mc m .models, .mc n .dat, .mc n .est, .mc n .loops, .mc n .pwm, .mc n .scar, .mc n .short, .mc n .vD, .mc n .vQ, .gates (some n)]) :
    (State.lossOfLock s n).part p = s.part p := by
  simp [forall_and] at h
  simp [State.lossOfLock, h]

@[simp] theorem State.reacqExpire_part (s : State) (n : Mcn) {p : Part} (h : p ∉ [.link, .raised, .store, .trace, .mc n .est]) :
    (State.reacqExpire s n).part p = s.part p := by
  simp at h
  simp [State.reacqExpire, h]

@[simp] theorem State.startReady_part (s : State) (n : Mcn) {p : Part} (h : p ∉ [.cl, .store]) :
    (State.startReady s n).part p = s.part p := by
  simp at h
  simp [State.startReady, h]

@[simp] theorem State.startSpeed_part (s : State) (n : Mcn) {p : Part} (h : p ∉ [.cl, .store, .mc n .loops]) :
    (State.startSpeed s n).part p = s.part p := by
  simp at h
  simp [State.startSpeed, h]

@[simp] theorem State.startAccel_part (s : State) (n : Mcn) {p : Part} (h : ∀ m, p ∉ [.cl, .rails, .store, .mc m .models, .mc n .dat, .mc n .est, .mc n .grat, .mc n .loops, .mc n .pwm, .mc n .scar, .gates (some n)]) :
    (State.startAccel s n).part p = s.part p := by
  simp [forall_and] at h
  simp [State.startAccel, h]

@[simp] theorem State.startFind_part (s : State) (n : Mcn) {p : Part} (h : ∀ m, p ∉ [.cl, .rails, .store, .mc m .models, .mc n .dat, .mc n .est, .mc n .grat, .mc n .loops, .mc n .pwm, .mc n .scar, .gates (some n)]) :
    (State.startFind s n).part p = s.part p := by
  simp [forall_and] at h
  unfold State.startFind
  dsimp only
  repeat' split
  all_goals simp [h]

@[simp] theorem State.startFix_part (s : State) (n : Mcn) {p : Part} (h : p ∉ [.mc n .est]) :
    (State.startFix s n).part p = s.part p := by
  simp at h
  simp [State.startFix, h]

@[simp] theorem State.startBegin_part (s : State) (n : Mcn) {p : Part} (h : ∀ m, p ∉ [.cl, .rails, .store, .mc m .models, .mc n .dat, .mc n .est, .mc n .grat, .mc n .loops, .mc n .pwm, .mc n .scar, .gates (some n)]) :
    (State.startBegin s n).part p = s.part p := by
  simp [forall_and] at h
  simp [State.startBegin, h]

@[simp] theorem State.startFail_part (s : State) (n : Mcn) {p : Part} (h : ∀ m, p ∉ [.link, .rails, .raised, .store, .trace, .mc m .models, .mc n .dat, .mc n .est, .mc n .loops, .mc n .pwm, .mc n .scar, .mc n .short, .mc n .vD, .mc n .vQ, .gates (some n)]) :
    (State.startFail s n).part p = s.part p := by
  simp [forall_and] at h
  simp [State.startFail, h]

@[simp] theorem State.probeEnd_part (s : State) (n : Mcn) {p : Part} (h : ∀ m, p ∉ [.cl, .rails, .store, .mc m .models, .mc n .dat, .mc n .est, .mc n .grat, .mc n .loops, .mc n .pwm, .mc n .scar, .gates (some n)]) :
    (State.probeEnd s n).part p = s.part p := by
  simp [forall_and] at h
  simp [State.probeEnd, h]

@[simp] theorem State.alignDone_part (s : State) (n : Mcn) {p : Part} (h : ∀ m, p ∉ [.cl, .rails, .store, .mc m .models, .mc n .dat, .mc n .est, .mc n .grat, .mc n .loops, .mc n .pwm, .mc n .scar, .gates (some n)]) :
    (State.alignDone s n).part p = s.part p := by
  simp [forall_and] at h
  simp [State.alignDone, h]

@[simp] theorem State.polarity_part (s : State) (n : Mcn) (plus minus : Nat) {p : Part} (h : ∀ m, p ∉ [.cl, .link, .rails, .raised, .store, .trace, .mc m .models, .mc n .dat, .mc n .est, .mc n .grat, .mc n .loops, .mc n .pwm, .mc n .scar, .mc n .short, .mc n .vD, .mc n .vQ, .gates (some n)]) :
    (State.polarity s n plus minus).part p = s.part p := by
  simp [forall_and] at h
  simp [State.polarity, h]

@[simp] theorem State.rampSample_part (s : State) (n : Mcn) {p : Part} (h : p ∉ [.rails, .store, .mc n .dat, .mc n .est, .mc n .grat, .mc n .loops, .mc n .pwm, .mc n .scar]) :
    (State.rampSample s n).part p = s.part p := by
  simp at h
  simp [State.rampSample, h]

@[simp] theorem State.handover_part (s : State) (n : Mcn) {p : Part} (h : p ∉ [.cl, .store, .mc n .loops]) :
    (State.handover s n).part p = s.part p := by
  simp at h
  simp [State.handover, h]

@[simp] theorem State.observe_part (s : State) (n : Mcn) (inp : List Int) {p : Part} (h : ∀ m, p ∉ [.link, .rails, .raised, .store, .trace, .mc m .models, .mc n .dat, .mc n .est, .mc n .loops, .mc n .pwm, .mc n .scar, .mc n .short, .mc n .vD, .mc n .vQ, .gates (some n)]) :
    (State.observe s n inp).1.part p = s.part p := by
  simp [forall_and] at h
  unfold State.observe
  extract_lets g e ts dt flux fa fb sa sb la lb fx px mag fix la2 lb2 aa ab mag2 th w er fw w' th' s1 s2 dev pct beyond run s3 s4 s5 min good k s6 s7 s8 st watched s9
  have h4 : s4.part p = s.part p := by simp [s4, s3, s2, s1, h]
  have h5 : s5.part p = s.part p := by simp only [s5]; split <;> simp [h, h4]
  have h6 : s6.part p = s.part p := by simp [s6, h, h5]
  have h7 : s7.part p = s.part p := by simp only [s7]; split <;> simp [h, h6]
  have h8 : s8.part p = s.part p := by simp only [s8]; split <;> simp [h, h7]
  show s9.part p = s.part p
  simp only [s9]
  split <;> simp [h, h8]

@[simp] theorem State.obsDone_part (s : State) (n : Mcn) (inp : List Int) {p : Part} (h : ∀ m, p ∉ [.cl, .link, .rails, .raised, .store, .trace, .mc m .models, .mc n .dat, .mc n .est, .mc n .grat, .mc n .loops, .mc n .pwm, .mc n .scar, .mc n .short, .mc n .vD, .mc n .vQ, .gates (some n)]) :
    (State.obsDone s n inp).1.part p = s.part p := by
  simp [forall_and] at h
  unfold State.obsDone
  dsimp only
  refine (State.modEst_part _ _ _ (by simp [h])).trans ?_
  split <;> simp [h]

@[simp] theorem State.injCycleEnd_part (s : State) (n : Mcn) (rs : List Int) {p : Part} (h : p ∉ [.fresh, .store, .mc n .est]) :
    (State.injCycleEnd s n rs).part p = s.part p := by
  simp at h
  unfold State.injCycleEnd
  dsimp only
  repeat' split
  all_goals simp [h]

@[simp] theorem State.injSample_part (s : State) (n : Mcn) {p : Part} (h : p ∉ [.fresh, .store, .mc n .est]) :
    (State.injSample s n).part p = s.part p := by
  simp at h
  simp [State.injSample, h]

@[simp] theorem State.zcAccept_part (s : State) (n : Mcn) (k angle : Nat) (t : Int) {p : Part} (h : p ∉ [.cl, .rails, .store, .mc n .dat, .mc n .est, .mc n .grat, .mc n .loops, .mc n .pwm, .mc n .ref1, .mc n .scar]) :
    (State.zcAccept s n k angle t).part p = s.part p := by
  simp at h
  simp [State.zcAccept, h]

@[simp] theorem State.bemf_part (s : State) (n : Mcn) (fuel code hold : Nat) {p : Part} (h : p ∉ [.cl, .rails, .store, .mc n .dat, .mc n .est, .mc n .grat, .mc n .loops, .mc n .pwm, .mc n .ref1, .mc n .scar]) :
    (State.bemf s n fuel code hold).part p = s.part p := by
  simp at h
  unfold State.bemf
  dsimp only
  repeat' split
  all_goals simp [h]

@[simp] theorem State.zcExpire_part (s : State) (n : Mcn) {p : Part} (h : p ∉ [.link, .rails, .raised, .store, .trace, .mc n .dat, .mc n .est, .mc n .loops, .mc n .pwm, .mc n .scar]) :
    (State.zcExpire s n).part p = s.part p := by
  simp [forall_and] at h
  unfold State.zcExpire
  extract_lets s1 k s2 s3
  split
  · rfl
  · split
    · split <;> simp [s3, s2, s1, h]
    · simp [s2, s1, h]

@[simp] theorem State.trackerConv_part (s : State) (n : Mcn) {p : Part} (h : p ∉ [.grp, .mc n .est]) :
    (State.trackerConv s n).part p = s.part p := by
  simp at h
  simp [State.trackerConv, h]

@[simp] theorem State.trackerStep_part (s : State) (n : Mcn) (t : Int) {p : Part} (h : ∀ m, p ∉ [.fresh, .link, .raised, .store, .trace, .mc m .models, .mc n .est, .mc n .pwm, .mc n .scar, .mc n .short, .mc n .vD, .mc n .vQ, .gates (some n)]) :
    (State.trackerStep s n t).part p = s.part p := by
  simp [forall_and] at h
  simp [State.trackerStep, h]

@[simp] theorem State.trackerResult_part (s : State) (n : Mcn) (x2 : Fin 3) (code hold : Nat) {p : Part} (h : ∀ m, p ∉ [.fresh, .link, .raised, .store, .trace, .mc m .models, .mc n .est, .mc n .pwm, .mc n .scar, .mc n .short, .mc n .vD, .mc n .vQ, .gates (some n)]) :
    (State.trackerResult s n x2 code hold).part p = s.part p := by
  simp [forall_and] at h
  unfold State.trackerResult
  dsimp only
  repeat' split
  all_goals simp [h]

@[simp] theorem State.resumeControl_part (s : State) (n : Mcn) {p : Part} (h : ∀ m, p ∉ [.cl, .link, .rails, .raised, .store, .trace, .mc m .models, .mc n .dat, .mc n .est, .mc n .grat, .mc n .loops, .mc n .pwm, .mc n .scar, .mc n .short, .mc n .vD, .mc n .vQ, .gates (some n)]) :
    (State.resumeControl s n).part p = s.part p := by
  simp [forall_and] at h
  unfold State.resumeControl
  dsimp only
  repeat' split
  all_goals simp [h]

@[simp] theorem State.scStep_part (s : State) (n : Mcn) {p : Part} (h : p ∉ [.fresh, .mc n .est]) :
    (State.scStep s n).part p = s.part p := by
  simp at h
  simp [State.scStep, h]

@[simp] theorem State.scSample_part (s : State) (n : Mcn) {p : Part} (h : ∀ m, p ∉ [.fresh, .link, .raised, .store, .trace, .mc m .models, .mc n .est, .mc n .pwm, .mc n .scar, .mc n .short, .mc n .vD, .mc n .vQ, .gates (some n)]) :
    (State.scSample s n).part p = s.part p := by
  simp [forall_and] at h
  simp [State.scSample, h]

@[simp] theorem State.estSample_part (s : State) (n : Mcn) {p : Part} (h : ∀ m, p ∉ [.cl, .fresh, .link, .rails, .raised, .store, .trace, .mc m .models, .mc n .dat, .mc n .est, .mc n .grat, .mc n .loops, .mc n .pwm, .mc n .scar, .mc n .short, .mc n .vD, .mc n .vQ, .gates (some n)]) :
    (State.estSample s n).part p = s.part p := by
  simp [forall_and] at h
  unfold State.estSample
  extract_lets s1 s2 s3 s4 s5 s6 e low k s7 s8
  have h3 : s3.part p = s.part p := by
    simp only [s3]
    have h2 : s2.part p = s.part p := by simp only [s2]; split <;> simp [s1, h]
    split <;> simp [h, h2]
  have h6 : s6.part p = s.part p := by simp [s6, s5, s4, h, h3]
  have h7 : s7.part p = s.part p := by simp only [s7]; split <;> simp [h, h6]
  have h8 : s8.part p = s.part p := by simp [s8, h, h7]
  split
  · rfl
  · split
    · split
      · split <;> simp [h, h8]
      · simp [h, h8]
    · exact h8

@[simp] theorem State.startCheck_part (s : State) (n : Mcn) {p : Part} (h : p ∉ [.cl, .store, .mc n .loops]) :
    (State.startCheck s n).part p = s.part p := by
  simp at h
  simp [State.startCheck, h]

@[simp] theorem State.startTimeout_part (s : State) (n : Mcn) {p : Part} (h : ∀ m, p ∉ [.link, .rails, .raised, .store, .trace, .mc m .models, .mc n .dat, .mc n .est, .mc n .loops, .mc n .pwm, .mc n .scar, .mc n .short, .mc n .vD, .mc n .vQ, .gates (some n)]) :
    (State.startTimeout s n).part p = s.part p := by
  simp [forall_and] at h
  simp [State.startTimeout, h]

@[simp] theorem State.startAgain_part (s : State) (n : Mcn) {p : Part} (h : ∀ m, p ∉ [.cl, .rails, .store, .mc m .models, .mc n .dat, .mc n .est, .mc n .grat, .mc n .loops, .mc n .pwm, .mc n .scar, .gates (some n)]) :
    (State.startAgain s n).part p = s.part p := by
  simp [forall_and] at h
  simp [State.startAgain, h]

@[simp] theorem State.stallWatch_part (s : State) (n : Mcn) (ref meas : Int) (limited : Bool) {p : Part} (h : p ∉ [.mc n .est]) :
    (State.stallWatch s n ref meas limited).part p = s.part p := by
  simp at h
  simp [State.stallWatch, h]

@[simp] theorem State.stallDeclared_part (s : State) (n : Mcn) {p : Part} (h : p ∉ [.link, .raised, .store, .trace, .mc n .est]) :
    (State.stallDeclared s n).part p = s.part p := by
  simp at h
  unfold State.stallDeclared
  split <;> simp [h]

@[simp] theorem State.modConv_part (s : State) (n : Mcn) (g : ConvSt → ConvSt) {p : Part} (h : p ∉ [.mc n .conv]) :
    (State.modConv s n g).part p = s.part p := by
  simp at h
  simp [State.modConv, h]

@[simp] theorem State.setActive_part (s : State) (n : Mcn) (x2 : Fin 3) (on : Bool) {p : Part} (h : p ∉ [.store]) :
    (State.setActive s n x2 on).part p = s.part p := by
  simp at h
  simp [State.setActive, h]

@[simp] theorem State.convSeed_part (s : State) (n : Mcn) {p : Part} (h : p ∉ [.mc n .conv, .mc n .loops]) :
    (State.convSeed s n).part p = s.part p := by
  simp at h
  simp [State.convSeed, h]

@[simp] theorem State.convRamps_part (s : State) (n : Mcn) {p : Part} (h : p ∉ [.mc n .conv]) :
    (State.convRamps s n).part p = s.part p := by
  simp at h
  simp [State.convRamps, h]

@[simp] theorem State.convArm_part (s : State) (n : Mcn) {p : Part} (h : p ∉ [.store, .mc n .conv, .mc n .loops]) :
    (State.convArm s n).part p = s.part p := by
  simp at h
  simp [State.convArm, h]

@[simp] theorem State.phaseTake_part (s : State) (n : Mcn) (x2 : Fin 3) {p : Part} (h : p ∉ [.mc n .pwm]) :
    (State.phaseTake s n x2).part p = s.part p := by
  simp at h
  unfold State.phaseTake
  dsimp only
  split <;> simp [h]

@[simp] theorem State.phaseDuty_part (s : State) (n : Mcn) (x2 : Fin 3) (d : Int) {p : Part} (h : p ∉ [.mc n .pwm]) :
    (State.phaseDuty s n x2 d).part p = s.part p := by
  simp at h
  simp [State.phaseDuty, h]

@[simp] theorem State.cycleBegin_part (s : State) (n : Mcn) {p : Part} (h : ∀ m, p ∉ [.grp, .link, .rails, .raised, .store, .trace, .mc m .atl, .mc m .conv, .mc m .dat, .mc m .grat, .mc m .loops, .mc m .pwm, .mc m .scar]) :
    (State.cycleBegin s n).part p = s.part p := by
  simp [forall_and] at h
  simp [State.cycleBegin, h]

@[simp] theorem State.phasePeriod_part (s : State) (n : Mcn) (x2 : Fin 3) {p : Part} (h : p ∉ [.mc n .conv]) :
    (State.phasePeriod s n x2).part p = s.part p := by
  simp at h
  simp [State.phasePeriod, h]

@[simp] theorem State.phaseDrive_part (s : State) (n : Mcn) (x2 : Fin 3) (rising : Bool) {p : Part} (h : ∀ m, p ∉ [.mc m .models, .mc n .pwm, .gates (some n)]) :
    (State.phaseDrive s n x2 rising).part p = s.part p := by
  simp [forall_and] at h
  unfold State.phaseDrive
  repeat' split
  all_goals simp [h]

@[simp] theorem State.convZero_part (s : State) (n : Mcn) (x2 : Fin 3) {p : Part} (h : ∀ m, p ∉ [.grp, .link, .rails, .raised, .store, .trace, .mc m .atl, .mc m .conv, .mc m .dat, .mc m .grat, .mc m .loops, .mc m .models, .mc m .pwm, .mc m .scar, .gates (some n)]) :
    (State.convZero s n x2).part p = s.part p := by
  simp [forall_and] at h
  unfold State.convZero
  dsimp only
  repeat' split
  all_goals simp [h]

@[simp] theorem State.convPeriod_part (s : State) (n : Mcn) (x2 : Fin 3) {p : Part} (h : ∀ m, p ∉ [.grp, .link, .raised, .store, .trace, .mc m .models, .mc n .conv, .mc n .pwm, .gates (some n)]) :
    (State.convPeriod s n x2).part p = s.part p := by
  simp [forall_and] at h
  simp [State.convPeriod, h]

@[simp] theorem State.convApply_part (s : State) (n : Mcn) {p : Part} (h : p ∉ [.store, .mc n .pwm]) :
    (State.convApply s n).part p = s.part p := by
  simp at h
  unfold State.convApply
  split <;> simp [h]

@[simp] theorem State.convSample_part (s : State) (n : Mcn) (x2 : Fin 3) {p : Part} (h : ∀ m, p ∉ [.grp, .link, .raised, .store, .trace, .mc m .models, .mc n .conv, .gates (some n)]) :
    (State.convSample s n x2).part p = s.part p := by
  simp [forall_and] at h
  unfold State.convSample
  dsimp only
  repeat' split
  all_goals simp [h]

@[simp] theorem State.vloOv_part (s : State) (n : Mcn) {p : Part} (h : ∀ m, p ∉ [.link, .rails, .raised, .store, .trace, .mc m .models, .mc n .short, .mc n .vD, .mc n .vQ, .gates (some n)]) :
    (State.vloOv s n).part p = s.part p := by
  simp [forall_and] at h
  simp [State.vloOv, h]

@[simp] theorem State.vloResult_part (s : State) (n : Mcn) (code : Nat) {p : Part} (h : ∀ m, p ∉ [.link, .rails, .raised, .store, .trace, .mc m .models, .mc n .conv, .mc n .short, .mc n .vD, .mc n .vQ, .gates (some n)]) :
    (State.vloResult s n code).part p = s.part p := by
  simp [forall_and] at h
  simp [State.vloResult, h]

@[simp] theorem State.vloOk_part (s : State) (n : Mcn) {p : Part} (h : ∀ m, p ∉ [.link, .rails, .raised, .store, .trace, .mc m .models, .mc n .conv, .mc n .loops, .mc n .short, .mc n .vD, .mc n .vQ, .gates (some n)]) :
    (State.vloOk s n).part p = s.part p := by
  simp [forall_and] at h
  simp [State.vloOk, h]

@[simp] theorem State.ccurPhase_part (s : State) (n : Mcn) (inp : List Int) (x3 : Fin 3) {p : Part} (h : p ∉ [.store, .mc n .conv]) :
    (State.ccurPhase s n inp x3).1.part p = s.part p := by
  simp at h
  simp [State.ccurPhase, h]

@[simp] theorem State.meter_part (s : State) (n : Mcn) (inp : List Int) {p : Part} (h : p ∉ [.mc n .conv]) :
    (State.meter s n inp).part p = s.part p := by
  simp at h
  simp [State.meter, h]

@[simp] theorem State.ccurDone_part (s : State) (n : Mcn) (inp : List Int) (fin : Nat) {p : Part} (h : p ∉ [.cl, .store, .mc n .conv, .mc n .pwm]) :
    (State.ccurDone s n inp fin).1.part p = s.part p := by
  simp at h
  unfold State.ccurDone
  extract_lets step
  have hstep (l : List (Fin 3)) (x : State × List Int × Bool) : (l.foldl step x).1.part p = x.1.part p := by
    induction l generalizing x with
    | nil => rfl
    | cons a l ih =>
      refine (ih _).trans ?_
      simp only [step]
      split <;> simp [h]
  have h1 := hstep allP (s, [], false)
  generalize allP.foldl step (s, [], false) = x at h1 ⊢
  rcases x with ⟨t, ds, sat⟩
  dsimp only at h1 ⊢
  refine (State.modConv_part _ _ _ (by simp [h])).trans ?_
  split <;> simp [h, h1]

@[simp] theorem State.setIref_part (s : State) (l : Mcn) (iref target : Int) {p : Part} (h : ∀ m, p ∉ [.store, .mc m .conv]) :
    (State.setIref s l iref target).part p = s.part p := by
  simp [forall_and] at h
  simp [State.setIref, h]

@[simp] theorem State.isetTarget_part (s : State) (n : Mcn) {p : Part} (h : ∀ m, p ∉ [.store, .mc m .conv]) :
    (State.isetTarget s n).part p = s.part p := by
  simp [forall_and] at h
  simp [State.isetTarget, h]

@[simp] theorem State.shed_part (s : State) (l : Mcn) {p : Part} (h : ∀ m, p ∉ [.store, .mc l .loops, .mc m .conv]) :
    (State.shed s l).part p = s.part p := by
  simp [forall_and] at h
  unfold State.shed
  dsimp only
  repeat' split
  all_goals simp [h]

@[simp] theorem State.cvoltDone_part (s : State) (n : Mcn) (inp : List Int) (rel : Nat) {p : Part} (h : ∀ m, p ∉ [.store, .mc m .conv, .mc n .loops]) :
    (State.cvoltDone s n inp rel).1.part p = s.part p := by
  simp [forall_and] at h
  simp [State.cvoltDone, h]

@[simp] theorem State.meterClear_part (s : State) (n : Mcn) {p : Part} (h : p ∉ [.mc n .conv]) :
    (State.meterClear s n).part p = s.part p := by
  simp at h
  simp [State.meterClear, h]

@[simp] theorem State.setBank_part (s : State) (n : Mcn) (g : Fin 4) (i : Fin 2) (b : Bank) {p : Part} (h : p ∉ [.mc n .banks]) :
    (State.setBank s n g i b).part p = s.part p := by
  simp at h
  simp [State.setBank, h]

@[simp] theorem State.bankBit_part (s : State) (n : Mcn) (f : Fld) (g : Fin 4) (v : Bool) {p : Part} (h : p ∉ [.store]) :
    (State.bankBit s n f g v).part p = s.part p := by
  simp at h
  simp [State.bankBit, h]

@[simp] theorem State.modAtl_part (s : State) (n : Mcn) (g : Pager → Pager) {p : Part} (h : p ∉ [.mc n .atl]) :
    (State.modAtl s n g).part p = s.part p := by
  simp at h
  simp [State.modAtl, h]

@[simp] theorem State.bankFlip_part (s : State) (n : Mcn) (g : Fin 4) {p : Part} (h : p ∉ [.store]) :
    (State.bankFlip s n g).part p = s.part p := by
  simp at h
  simp [State.bankFlip, h]

@[simp] theorem State.showAct_part (s : State) (n : Mcn) (f : Fill) {p : Part} (h : p ∉ [.store, .mc n .atl]) :
    (State.showAct s n f).part p = s.part p := by
  simp at h
  simp [State.showAct, h]

@[simp] theorem State.bankSwap_part (s : State) (n : Mcn) (g : Fin 4) {p : Part} (h : p ∉ [.store, .mc n .atl]) :
    (State.bankSwap s n g).part p = s.part p := by
  simp at h
  unfold State.bankSwap
  dsimp only
  repeat' split
  all_goals simp [h]

@[simp] theorem State.jobBoundary_part (s : State) (j : JobId) {p : Part} (h : ∀ m, p ∉ [.store, .mc m .atl]) :
    (State.jobBoundary s j).part p = s.part p := by
  simp [forall_and] at h
  unfold State.jobBoundary
  split <;> simp [h]

@[simp] theorem State.rel_part (s : State) (j : JobId) {p : Part} (h : ∀ m, p ∉ [.lanes, .link, .poolCyc, .raised, .ready, .runs, .store, .trace, .mc m .atl, .mc m .conv, .mc m .loops]) :
    (State.rel s j).part p = s.part p := by
  simp [forall_and] at h
  simp [State.rel, h]

@[simp] theorem State.dispatchNow_part (s : State) {p : Part} (h : ∀ m, p ∉ [.lanes, .link, .poolCyc, .raised, .ready, .store, .trace, .mc m .conv, .mc m .loops]) :
    (State.dispatchNow s).part p = s.part p := by
  simp [forall_and] at h
  simp [State.dispatchNow, h]

@[simp] theorem State.relIf_part (s : State) (j : JobId) {p : Part} (h : ∀ m, p ∉ [.lanes, .link, .poolCyc, .raised, .ready, .runs, .store, .trace, .mc m .atl, .mc m .conv, .mc m .loops]) :
    (State.relIf s j).part p = s.part p := by
  simp [forall_and] at h
  simp [State.relIf, h]

@[simp] theorem State.spdCount_part (s : State) (n : Mcn) {p : Part} (h : ∀ m, p ∉ [.lanes, .link, .poolCyc, .raised, .ready, .runs, .store, .trace, .mc m .atl, .mc m .conv, .mc m .loops, .mc n .spdCnt]) :
    (State.spdCount s n).part p = s.part p := by
  simp [forall_and] at h
  simp [State.spdCount, h]

@[simp] theorem State.servCount_part (s : State) (n : Mcn) {p : Part} (h : ∀ m, p ∉ [.lanes, .link, .poolCyc, .raised, .ready, .runs, .store, .trace, .mc m .atl, .mc m .conv, .mc m .loops, .mc n .servCnt]) :
    (State.servCount s n).part p = s.part p := by
  simp [forall_and] at h
  simp [State.servCount, h]

@[simp] theorem State.servoEnd_part (s : State) (c : Cl) {p : Part} (h : p ∉ [.cl]) :
    (State.servoEnd s c).part p = s.part p := by
  simp at h
  simp [State.servoEnd, h]

@[simp] theorem State.sampleRelease_part (s : State) (n : Mcn) {p : Part} (h : ∀ m, p ∉ [.lanes, .link, .poolCyc, .raised, .ready, .runs, .store, .trace, .mc m .atl, .mc m .conv, .mc m .loops, .mc n .sampleNew, .mc n .servCnt, .mc n .spdCnt]) :
    (State.sampleRelease s n).part p = s.part p := by
  simp [forall_and] at h
  simp [State.sampleRelease, h]

@[simp] theorem State.jobRelease_part (s : State) (j : JobId) {p : Part} (h : ∀ m, p ∉ [.cl, .lanes, .link, .poolCyc, .raised, .ready, .runs, .store, .trace, .mc m .atl, .mc m .conv, .mc m .loops, .mc m .sampleNew, .mc m .servCnt, .mc m .spdCnt]) :
    (State.jobRelease s j).part p = s.part p := by
  simp [forall_and] at h
  unfold State.jobRelease
  repeat' split
  all_goals simp [h]

@[simp] theorem State.deliver_part (s : State) (n : Mcn) {p : Part} (h : p ∉ [.fresh, .store, .mc n .iA, .mc n .iB, .mc n .recon]) :
    (State.deliver s n).part p = s.part p := by
  simp at h
  unfold State.deliver
  extract_lets m g clip shut i s1 st put a s2 b s3 s4
  have hp (u v w : Int) (k : Nat) (t : State) : (put u v w k t).part p = t.part p := by
    simp only [put]
    refine (State.setF_part _ _ _ _ (by simp [h])).trans ((State.setF_part _ _ _ _ (by simp [h])).trans ?_)
    exact State.modMc_part _ _ _ fun q hq m => by subst hq; cases q <;> first | rfl | simp at h
  have h1 : s1.part p = s.part p := by simp [s1, h]
  clear_value shut
  have h4 : s4.part p = s1.part p := (by exact State.modMc_part _ _ _ fun q hq m => by subst hq; cases q <;> first | rfl | simp at h : s4.part p = s3.part p).trans (by simp [s3, s2, h])
  split <;> simp [hp, h, h1, h4]

@[simp] theorem State.windowCount_part (s : State) (n : Mcn) (recon : Int) {p : Part} (h : p ∉ [.link, .raised, .store, .trace, .mc n .pwm]) :
    (State.windowCount s n recon).part p = s.part p := by
  simp at h
  simp [State.windowCount, h]

@[simp] theorem State.vecOut_part (s : State) (n : Mcn) (th : Nat) (w : Int) (ts : Nat) (vd vq out : Int) {p : Part} (h : p ∉ [.store, .mc n .pwm]) :
    (s.vecOut n th w ts vd vq out).s.part p = s.part p := by
  unfold State.vecOut
  dsimp only
  exact State.place_part _ _ _ _ _ h

@[simp] theorem State.curFoc_part (s : State) (n : Mcn) (inp : List Int) (fin : Nat) {p : Part} (h : p ∉ [.store, .mc n .est, .mc n .iD, .mc n .iQ, .mc n .loops, .mc n .pwm, .mc n .vD, .mc n .vQ]) :
    (State.curFoc s n inp fin).1.part p = s.part p := by
  simp at h
  unfold State.curFoc
  extract_lets g th ts a cs sn id iq s1 m cd cq pd pq fact fd fq
  have h1 : s1.part p = s.part p := State.modMc_part _ _ _ fun q hq m => by subst hq; cases q <;> first | rfl | simp at h
  clear_value pd pq fact fd fq
  split
  · generalize s1.limitDq n fd.v fq.v = x
    rcases x with ⟨vd, vq, flag⟩
    dsimp -zeta only
    extract_lets vec out v s2 s3 mUse s4 s5 s6
    have hv : v.s.part p = s.part p := (s1.vecOut_part _ _ _ _ _ _ _ (by simp [h])).trans h1
    have h2 : s2.part p = s.part p := (by exact State.modMc_part _ _ _ fun q hq m => by subst hq; cases q <;> first | rfl | simp at h : s2.part p = v.s.part p).trans hv
    have h5 : s5.part p = s.part p := by simp [s5, s4, s3, h, h2]
    show s6.part p = s.part p
    simp only [s6]
    split <;> simp [h, h5]
  · simp [h, h1]

@[simp] theorem State.curBlock_part (s : State) (n : Mcn) (inp : List Int) (fin : Nat) {p : Part} (h : p ∉ [.store, .mc n .iD, .mc n .iQ, .mc n .loops, .mc n .pwm, .mc n .vD, .mc n .vQ]) :
    (State.curBlock s n inp fin).1.part p = s.part p := by
  simp at h
  unfold State.curBlock
  extract_lets g meas s1 m c pre f d cmp out
  have h1 : s1.part p = s.part p := State.modMc_part _ _ _ fun q hq m => by subst hq; cases q <;> first | rfl | simp at h
  split
  · generalize loopPost pre c f.v d = x
    rcases x with ⟨l, sat⟩
    dsimp -zeta only
    extract_lets s2 s3
    have h2 : s2.part p = s.part p := (by exact State.modMc_part _ _ _ fun q hq m => by subst hq; cases q <;> first | rfl | simp at h : s2.part p = s1.part p).trans h1
    simp [s3, h, h2]
  · simp [h, h1]

@[simp] theorem State.curDone_part (s : State) (n : Mcn) (inp : List Int) (fin : Nat) {p : Part} (h : p ∉ [.link, .raised, .store, .trace, .mc n .est, .mc n .iD, .mc n .iQ, .mc n .loops, .mc n .pwm, .mc n .vD, .mc n .vQ]) :
    (State.curDone s n inp fin).1.part p = s.part p := by
  simp at h
  unfold State.curDone
  split <;> simp [h]

@[simp] theorem State.spdDone_part (s : State) (n : Mcn) (inp : List Int) (rel : Nat) {p : Part} (h : p ∉ [.store, .mc n .est, .mc n .iqRef, .mc n .loops, .mc n .spdRef]) :
    (State.spdDone s n inp rel).1.part p = s.part p := by
  simp at h
  unfold State.spdDone
  dsimp only
  refine (State.rampBit_part _ _ _ _ (by simp [h])).trans ((State.stallWatch_part _ _ _ _ _ (by simp [h])).trans ?_)
  exact State.modMc_part _ _ _ fun q hq m => by subst hq; cases q <;> first | rfl | simp at h

@[simp] theorem State.posDone_part (s : State) (n : Mcn) (inp : List Int) (rel : Nat) {p : Part} (h : p ∉ [.mc n .loops, .mc n .posOut]) :
    (State.posDone s n inp rel).1.part p = s.part p := by
  simp at h
  unfold State.posDone
  exact State.modMc_part _ _ _ fun q hq m => by subst hq; cases q <;> first | rfl | simp at h

@[simp] theorem State.laneSubst_part (s : State) {p : Part} (h : p ∉ [.lanes, .link, .raised, .ready, .store, .trace]) :
    (State.laneSubst s).part p = s.part p := by
  simp at h
  unfold State.laneSubst
  split <;> simp [h]

@[simp] theorem State.laneFail_part (s : State) (i : Fin 8) {p : Part} (h : ∀ m, p ∉ [.lanes, .link, .poolCyc, .rails, .raised, .ready, .store, .trace, .mc m .conv, .mc m .loops]) :
    (State.laneFail s i).part p = s.part p := by
  simp [forall_and] at h
  unfold State.laneFail
  extract_lets l s1 s2 s3 s4
  split
  · rfl
  · have h1 : s1.part p = s.part p := by
      cases p <;> first | rfl | simp at h
    have h2 : s2.part p = s.part p := by simp [s2, h, h1]
    have h3 : s3.part p = s.part p := by
      simp only [s3]
      split
      · simp [h, h2]
      · split <;> simp [h, h2]
      · exact h2
    have h4 : s4.part p = s.part p := by simp only [s4]; split <;> simp [h, h3]
    simp [h, h4]

@[simp] theorem State.laneFree_part (s : State) (i : Fin 8) {p : Part} (h : ∀ m, p ∉ [.lanes, .link, .poolCyc, .raised, .ready, .runs, .store, .trace, .mc m .atl, .mc m .conv, .mc m .loops]) :
    (State.laneFree s i).part p = s.part p := by
  simp [forall_and] at h
  unfold State.laneFree
  repeat' split
  all_goals simp [h]

@[simp] theorem State.currentsReady_part (s : State) (n : Mcn) (u v w : Nat) (spare : Option Nat) {p : Part} (h : ∀ m, p ∉ [.axM, .axS, .cl, .fresh, .grp, .health, .link, .rails, .raised, .store, .trace, .mc m .models, .mc n .dat, .mc n .est, .mc n .grat, .mc n .iA, .mc n .iB, .mc n .loops, .mc n .pwm, .mc n .recon, .mc n .sampleNew, .mc n .scar, .mc n .short, .mc n .vD, .mc n .vQ, .gates (some n)]) :
    (State.currentsReady s n u v w spare).part p = s.part p := by
  simp [forall_and] at h
  unfold State.currentsReady
  dsimp only
  split
  · rfl
  · simp [h]

@[simp] theorem State.currentReady_part (s : State) (n : Mcn) (x2 : Fin 3) (code : Nat) (spare : Option Nat) {p : Part} (h : ∀ m, p ∉ [.grp, .health, .link, .raised, .store, .trace, .mc m .models, .mc n .conv, .mc n .sampleNew, .gates (some n)]) :
    (State.currentReady s n x2 code spare).part p = s.part p := by
  simp [forall_and] at h
  simp [State.currentReady, h]

@[simp] theorem State.edgeCommit_part (s : State) (n : Mcn) (k : Fin 64) {p : Part} (h : p ∉ [.mc n .grat]) :
    (State.edgeCommit s n k).part p = s.part p := by
  simp at h
  simp [State.edgeCommit, h]

@[simp] theorem State.testPulse_part (s : State) (n : Mcn) (sw : Fin 6) (width : Nat) {p : Part} (h : ∀ m, p ∉ [.mc m .models, .mc n .pulse, .gates (some n)]) :
    (State.testPulse s n sw width).part p = s.part p := by
  simp [forall_and] at h
  simp [State.testPulse, h]

@[simp] theorem State.pulseEnds_part (s : State) {p : Part} (h : ∀ m, p ∉ [.mc m .models, .mc m .pulse, .gates (some m)]) :
    (State.pulseEnds s).part p = s.part p := by
  simp [forall_and] at h
  refine State.part_each _ _ _ _ fun n t => ?_
  extract_lets past s1
  have h1 : s1.part p = t.part p := State.part_each _ _ _ _ fun x u => by
    by_cases hnow : p = .now
    · subst hnow; rfl
    · exact (State.with_now_part _ _ (by simp [hnow])).trans
        ((State.turnOff_part _ _ (by simp [h])).trans (State.with_now_part _ _ (by simp [hnow])))
  simp [h, h1]

@[simp] theorem State.gAction_part (s : State) (n : Mcn) (k : Fin 64) {p : Part} (h : ∀ m, p ∉ [.grp, .lanes, .link, .poolCyc, .raised, .ready, .runs, .store, .trace, .mc m .atl, .mc m .conv, .mc m .loops, .mc m .models, .mc n .est, .mc n .pulse, .mc n .pwm, .gates (some n)]) :
    (State.gAction s n k).part p = s.part p := by
  simp [forall_and] at h
  unfold State.gAction
  dsimp only
  repeat' split
  all_goals simp [h]

@[simp] theorem State.gAdvance_part (s : State) (n : Mcn) (k : Fin 64) (step : Nat) {p : Part} (h : p ∉ [.mc n .grat]) :
    (State.gAdvance s n k step).part p = s.part p := by
  simp at h
  unfold State.gAdvance
  dsimp only
  repeat' split
  all_goals simp [h]

@[simp] theorem State.gFired_part (s : State) (n : Mcn) (k : Fin 64) {p : Part} (h : p ∉ [.store]) :
    (State.gFired s n k).part p = s.part p := by
  simp at h
  simp [State.gFired, h]

@[simp] theorem State.gFire1_part (s : State) (n : Mcn) (k : Fin 64) {p : Part} (h : ∀ m, p ∉ [.grp, .lanes, .link, .poolCyc, .raised, .ready, .runs, .store, .trace, .mc m .atl, .mc m .conv, .mc m .loops, .mc m .models, .mc n .est, .mc n .grat, .mc n .pulse, .mc n .pwm, .mc n .ref2, .gates (some n)]) :
    (State.gFire1 s n k).part p = s.part p := by
  simp [forall_and] at h
  simp [State.gFire1, h]

@[simp] theorem State.gFire_part (s : State) (n : Mcn) (k : Fin 64) {p : Part} (h : ∀ m, p ∉ [.grp, .lanes, .link, .poolCyc, .raised, .ready, .runs, .store, .trace, .mc m .atl, .mc m .conv, .mc m .loops, .mc m .models, .mc n .est, .mc n .grat, .mc n .pulse, .mc n .pwm, .mc n .ref2, .gates (some n)]) :
    (State.gFire s n k).part p = s.part p := by
  simp [forall_and] at h
  simp [State.gFire, h]

@[simp] theorem State.commuteDue_part (s : State) (n : Mcn) {p : Part} (h : ∀ m, p ∉ [.grp, .lanes, .link, .poolCyc, .raised, .ready, .runs, .store, .trace, .mc m .atl, .mc m .conv, .mc m .loops, .mc m .models, .mc n .est, .mc n .grat, .mc n .pulse, .mc n .pwm, .mc n .ref2, .gates (some n)]) :
    (State.commuteDue s n).part p = s.part p := by
  simp [forall_and] at h
  simp [State.commuteDue, h]

@[simp] theorem State.channelUse_part (s : State) (g : Grp) (entry code : Nat) {p : Part} (h : ∀ m, p ∉ [.link, .rails, .raised, .store, .trace, .mc m .conv, .mc m .models, .mc m .short, .mc m .vD, .mc m .vQ, .gates (some m)]) :
    (State.channelUse s g entry code).part p = s.part p := by
  simp [forall_and] at h
  unfold State.channelUse
  dsimp only
  repeat' split
  all_goals simp [h]

@[simp] theorem State.regularReady_part (s : State) (g : Grp) (k code : Nat) {p : Part} (h : ∀ m, p ∉ [.grp, .link, .rails, .raised, .rg, .store, .trace, .mc m .conv, .mc m .models, .mc m .short, .mc m .vD, .mc m .vQ, .mc m .vsCode, .gates (some m)]) :
    (State.regularReady s g k code).part p = s.part p := by
  simp [forall_and] at h
  unfold State.regularReady
  repeat' split
  all_goals simp [h]

@[simp] theorem State.injectedReady_part (s : State) (g : Grp) (k code : Nat) {p : Part} (h : ∀ m, p ∉ [.grp, .link, .rails, .raised, .rg, .store, .trace, .mc m .conv, .mc m .models, .mc m .short, .mc m .vD, .mc m .vQ, .mc m .vsCode, .gates (some m)]) :
    (State.injectedReady s g k code).part p = s.part p := by
  simp [forall_and] at h
  unfold State.injectedReady
  repeat' split
  all_goals simp [h]

@[simp] theorem State.graticuleReady_part (s : State) (g : Grp) (code : Nat) {p : Part} (h : ∀ m, p ∉ [.cl, .grp, .link, .rails, .raised, .store, .trace, .mc m .conv, .mc m .dat, .mc m .est, .mc m .grat, .mc m .loops, .mc m .models, .mc m .pwm, .mc m .ref1, .mc m .scar, .mc m .short, .mc m .vD, .mc m .vQ, .gates (some m)]) :
    (State.graticuleReady s g code).part p = s.part p := by
  simp [forall_and] at h
  unfold State.graticuleReady
  repeat' split
  all_goals simp [h]

@[simp] theorem State.trackReady_part (s : State) (g : Grp) (code : Nat) {p : Part} (h : ∀ m, p ∉ [.fresh, .grp, .link, .raised, .store, .trace, .mc m .est, .mc m .models, .mc m .pwm, .mc m .scar, .mc m .short, .mc m .vD, .mc m .vQ, .gates (some m)]) :
    (State.trackReady s g code).part p = s.part p := by
  simp [forall_and] at h
  unfold State.trackReady
  repeat' split
  all_goals simp [h]

@[simp] theorem State.resultReady_part (s : State) (g : Grp) (r : Result) {p : Part} (h : ∀ m, p ∉ [.axM, .axS, .cl, .fresh, .grp, .health, .link, .rails, .raised, .rg, .store, .trace, .mc m .conv, .mc m .dat, .mc m .est, .mc m .grat, .mc m .iA, .mc m .iB, .mc m .loops, .mc m .models, .mc m .pwm, .mc m .recon, .mc m .ref1, .mc m .sampleNew, .mc m .scar, .mc m .short, .mc m .vD, .mc m .vQ, .mc m .vsCode, .gates (some m)]) :
    (State.resultReady s g r).part p = s.part p := by
  simp [forall_and] at h
  unfold State.resultReady
  split
  · simp [h]
  · simp [h]
  · simp [h]
  · simp [h]
  · split
    · split <;> simp [h]
    · rfl
  · split
    · split <;> simp [h]
    · rfl

@[simp] theorem State.setSheet_part (s : State) (n st : Nat) {p : Part} (h : p ∉ [.store]) :
    (State.setSheet s n st).part p = s.part p := by
  simp at h
  simp [State.setSheet, h]

@[simp] theorem State.sheetWrite_part (s : State) (off : Nat) (w : Word) {p : Part} (h : p ∉ [.imgSheets, .status, .store]) :
    (State.sheetWrite s off w).part p = s.part p := by
  simp at h
  unfold State.sheetWrite
  extract_lets n t s1
  have h1 : s1.part p = s.part p := (t.with_imgSheets_part _ (by simp [h])).trans (by simp [t, h])
  split
  · simp [h]
  · split <;> simp [h, h1]

@[simp] theorem State.sheetCheck_part (s : State) (n : Nat) {p : Part} (h : p ∉ [.atlChk, .store]) :
    (State.sheetCheck s n).part p = s.part p := by
  simp at h
  unfold State.sheetCheck
  dsimp only
  repeat' split
  all_goals simp [h]

@[simp] theorem State.flagRow_part (s : State) (n : Nat) {p : Part} (h : p ∉ [.rowFlags]) :
    (State.flagRow s n).part p = s.part p := by
  simp at h
  simp [State.flagRow, h]

@[simp] theorem State.eccCorrected_part (s : State) (k : Nat) {p : Part} (h : p ∉ [.health, .rowFlags, .store]) :
    (State.eccCorrected s k).part p = s.part p := by
  simp at h
  simp [State.eccCorrected, h]

@[simp] theorem State.sheetCheckDone_part (s : State) (ecc : Ecc) {p : Part} (h : p ∉ [.atlChk, .health, .rowFlags, .store]) :
    (State.sheetCheckDone s ecc).part p = s.part p := by
  simp at h
  unfold State.sheetCheckDone
  split
  · rfl
  · extract_lets t s1 s2 r
    have h1 : s1.part p = s.part p := (t.with_atlChk_part _ (by simp [h])).trans (by simp [t, h])
    split <;> simp [s2, h, h1]

@[simp] theorem State.atlasDone_part (s : State) (n : Mcn) (inp : List Int) {p : Part} (h : p ∉ [.store, .mc n .atl]) :
    (State.atlasDone s n inp).1.part p = s.part p := by
  simp at h
  simp [State.atlasDone, h]

@[simp] theorem State.sheetFail_part (s : State) (n : Mcn) (k : Nat) {p : Part} (h : p ∉ [.link, .raised, .rowFlags, .store, .trace]) :
    (State.sheetFail s n k).part p = s.part p := by
  simp at h
  simp [State.sheetFail, h]

@[simp] theorem State.fillEnd_part (s : State) (n : Mcn) {p : Part} (h : p ∉ [.store, .mc n .atl]) :
    (State.fillEnd s n).part p = s.part p := by
  simp at h
  simp [State.fillEnd, h]

@[simp] theorem State.readSheet_part (s : State) (ecc : Ecc) (k : Nat) {p : Part} (h : p ∉ [.health, .rowFlags, .store]) :
    (State.readSheet s ecc k).1.part p = s.part p := by
  simp at h
  simp [State.readSheet, h]

@[simp] theorem readSheets_part (ecc : Ecc) (x1 : List Nat) (s : State) {p : Part} (h : p ∉ [.health, .rowFlags, .store]) :
    (readSheets ecc x1 s).1.part p = s.part p := by
  simp at h
  induction x1 generalizing s with
  | nil => rfl
  | cons k ks ih =>
    have hk := s.readSheet_part ecc k (p := p) (by simp [h])
    unfold readSheets
    dsimp only
    split
    · exact (ih _).trans hk
    · exact hk

@[simp] theorem State.sheetMiss_part (s : State) (n : Mcn) {p : Part} (h : p ∉ [.link, .raised, .store, .trace]) :
    (State.sheetMiss s n).part p = s.part p := by
  simp at h
  simp [State.sheetMiss, h]

@[simp] theorem State.fillComplete_part (s : State) (n : Mcn) (ecc : Ecc) {p : Part} (h : p ∉ [.health, .link, .raised, .rowFlags, .store, .trace, .mc n .atl, .mc n .banks]) :
    (State.fillComplete s n ecc).part p = s.part p := by
  simp at h
  unfold State.fillComplete
  dsimp only
  repeat' split
  all_goals simp [h]

@[simp] theorem State.atlDiscard_part (s : State) (n : Mcn) {p : Part} (h : p ∉ [.store, .mc n .atl]) :
    (State.atlDiscard s n).part p = s.part p := by
  simp at h
  simp [State.atlDiscard, h]

@[simp] theorem State.swapFill_part (s : State) (n : Mcn) (base : Nat) (ecc : Ecc) {p : Part} (h : p ∉ [.health, .link, .raised, .rowFlags, .store, .trace, .mc n .atl, .mc n .banks]) :
    (State.swapFill s n base ecc).1.part p = s.part p := by
  simp at h
  unfold State.swapFill
  extract_lets s1 active take x l
  have h1 : s1.part p = s.part p := by simp [s1, h]
  have ht (t : State) (f bins ed bank) : (take t f bins ed bank).1.part p = t.part p := by simp [take, h]
  split
  · generalize s1.evaluate base x l (s1.atlTemp n base) none 0 = y
    rcases y with ⟨f, b, ed⟩
    dsimp -zeta only
    have hr := readSheets_part ecc f.cells.sheets s1 (p := p) (by simp [h])
    split
    next he => rw [he] at hr; dsimp only at hr; simp [h, h1, hr]
    next he => rw [he] at hr; dsimp only at hr; simp [ht, h, h1, hr]
  · simp [ht, h1]

@[simp] theorem State.swapRelease_part (s : State) (n : Mcn) {p : Part} (h : p ∉ [.store, .mc n .atl]) :
    (State.swapRelease s n).part p = s.part p := by
  simp at h
  simp [State.swapRelease, h]

@[simp] theorem State.swapBanks_part (s : State) (n : Mcn) {p : Part} (h : p ∉ [.store, .mc n .atl]) :
    (State.swapBanks s n).part p = s.part p := by
  simp at h
  unfold State.swapBanks
  split <;> simp [h]

@[simp] theorem State.atlArm_part (s : State) (n : Mcn) {p : Part} (h : p ∉ [.mc n .atl]) :
    (State.atlArm s n).part p = s.part p := by
  simp at h
  simp [State.atlArm, h]

@[simp] theorem State.rowSheet_part (s : State) (ecc : Ecc) (k : Nat) {p : Part} (h : p ∉ [.health, .rowFlags, .store]) :
    (State.rowSheet s ecc k).part p = s.part p := by
  simp at h
  unfold State.rowSheet
  extract_lets st
  split
  · dsimp only
    split
    · simp [h]
    · split <;> simp [h]
  · rfl

@[simp] theorem State.rowTake_part (s : State) (g u : Nat) {p : Part} (h : p ∉ [.rowDead, .rowMap]) :
    (State.rowTake s g u).part p = s.part p := by
  simp at h
  cases p <;> first | rfl | simp at h

@[simp] theorem State.rowSub_part (s : State) (g : Nat) (ecc : Ecc) {p : Part} (h : p ∉ [.health, .link, .raised, .rowDead, .rowFlags, .rowMap, .store, .trace]) :
    (State.rowSub s g ecc).part p = s.part p := by
  simp at h
  unfold State.rowSub
  dsimp only
  repeat' split
  all_goals simp [h]

@[simp] theorem State.effCopy_part (s : State) (b : Blk) (base : Nat) {p : Part} (h : p ∉ [.store]) :
    (State.effCopy s b base).part p = s.part p := by
  simp at h
  simp [State.effCopy, h]

@[simp] theorem State.effCluster_part (s : State) (c : Cl) {p : Part} (h : p ∉ [.store]) :
    (State.effCluster s c).part p = s.part p := by
  simp at h
  unfold State.effCluster
  split <;> simp [h]

@[simp] theorem State.endEst_part (s : State) (n : Mcn) {p : Part} (h : p ∉ [.store, .mc n .est]) :
    (State.endEst s n).part p = s.part p := by
  simp at h
  simp [State.endEst, h]

@[simp] theorem State.endSensor_part (s : State) (n : Mcn) {p : Part} (h : p ∉ [.mc n .est]) :
    (State.endSensor s n).part p = s.part p := by
  simp at h
  simp [State.endSensor, h]

@[simp] theorem State.startAbort_part (s : State) (n : Mcn) {p : Part} (h : ∀ m, p ∉ [.link, .rails, .raised, .store, .trace, .mc m .models, .mc n .dat, .mc n .est, .mc n .loops, .mc n .pwm, .mc n .scar, .mc n .short, .mc n .vD, .mc n .vQ, .gates (some n)]) :
    (State.startAbort s n).part p = s.part p := by
  simp [forall_and] at h
  simp [State.startAbort, h]

@[simp] theorem State.armZero_part (s : State) (n : Mcn) {p : Part} (h : ∀ m, p ∉ [.grp, .link, .rails, .raised, .store, .trace, .mc m .atl, .mc m .conv, .mc m .dat, .mc m .grat, .mc m .loops, .mc m .models, .mc m .pwm, .mc m .scar, .mc n .closed, .mc n .uA, .mc n .uB, .gates (some m)]) :
    (State.armZero s n).part p = s.part p := by
  simp [forall_and] at h
  simp [State.armZero, h]

@[simp] theorem State.armMc_part (s : State) (n : Mcn) {p : Part} (h : ∀ m, p ∉ [.grp, .link, .rails, .raised, .store, .trace, .mc m .atl, .mc m .conv, .mc m .dat, .mc m .grat, .mc m .loops, .mc m .models, .mc m .pwm, .mc m .scar, .mc n .bstRun, .mc n .closed, .mc n .est, .mc n .precharge, .mc n .ref1, .mc n .ref2, .mc n .sampleNew, .mc n .servCnt, .mc n .short, .mc n .spdCnt, .mc n .uA, .mc n .uB, .gates (some m)]) :
    (State.armMc s n).part p = s.part p := by
  simp [forall_and] at h
  unfold State.armMc
  extract_lets old s1 s2 s3 s4 s5 s6 s7 s8 s9 s10
  have h3 : s3.part p = s.part p := by simp [s3, s2, s1, h]
  have h4 : s4.part p = s3.part p := State.modMc_part _ _ _ fun q hq m => by subst hq; cases q <;> first | rfl | simp at h
  have h6 : s6.part p = s.part p := by simp only [s6]; split <;> simp [s5, h, h3, h4]
  split
  · simp [s9, s8, s7, h, h6]
  · split
    · simp [s10, s9, s8, s7, h, h6]
    · simp [s10, s9, s8, s7, h, h6]

@[simp] theorem State.armSt_part (s : State) (r : Rg) {p : Part} (h : p ∉ [.store, .stp]) :
    (State.armSt s r).part p = s.part p := by
  simp at h
  simp [State.armSt, h]

@[simp] theorem State.defaultSp_part (s : State) (c : Cl) {p : Part} (h : p ∉ [.axM, .axS, .store]) :
    (State.defaultSp s c).part p = s.part p := by
  simp at h
  unfold State.defaultSp
  split <;> simp [h]

@[simp] theorem State.startUnits_part (s : State) (c : Cl) {p : Part} (h : ∀ m, p ∉ [.axM, .axS, .cl, .link, .rails, .raised, .store, .stp, .trace, .mc m .conv, .mc m .dat, .mc m .est, .mc m .grat, .mc m .loops, .mc m .models, .mc m .precharge, .mc m .pwm, .mc m .sampleNew, .mc m .scar, .mc m .servCnt, .mc m .short, .mc m .spdCnt, .mc m .vD, .mc m .vQ, .gates (some m)]) :
    (State.startUnits s c).part p = s.part p := by
  simp [forall_and] at h
  unfold State.startUnits
  extract_lets s1
  have h1 : s1.part p = s.part p := by simp [s1, h]
  split
  · extract_lets s2 s3 s4
    have h2 : s2.part p = s1.part p := State.modMc_part _ _ _ fun q hq m => by subst hq; cases q <;> first | rfl | simp at h
    split
    · simp [h, h1, h2]
    · have h4 : s4.part p = s.part p := by simp only [s4]; split <;> simp [s3, h, h1, h2]
      simp [h, h4]
  · simp [h, h1]

@[simp] theorem State.runUnits_part (s : State) (c : Cl) {p : Part} (h : ∀ m, p ∉ [.axM, .axS, .link, .raised, .store, .stp, .trace, .mc m .models, .mc m .short, .mc m .vD, .mc m .vQ, .gates (some m)]) :
    (State.runUnits s c).part p = s.part p := by
  simp [forall_and] at h
  unfold State.runUnits
  split <;> simp [h]

@[simp] theorem State.stopUnits_part (s : State) (c : Cl) (starting : Bool) {p : Part} (h : ∀ m, p ∉ [.axM, .axS, .link, .rails, .raised, .store, .stp, .trace, .mc m .conv, .mc m .dat, .mc m .est, .mc m .loops, .mc m .models, .mc m .pwm, .mc m .scar, .mc m .short, .mc m .vD, .mc m .vQ, .gates (some m)]) :
    (State.stopUnits s c starting).part p = s.part p := by
  simp [forall_and] at h
  unfold State.stopUnits
  split <;> simp [h]

@[simp] theorem State.restUnits_part (s : State) (c : Cl) {p : Part} (h : ∀ m, p ∉ [.axM, .axS, .grp, .link, .rails, .raised, .store, .stp, .trace, .mc m .dat, .mc m .est, .mc m .loops, .mc m .models, .mc m .precharge, .mc m .pulse, .mc m .pwm, .mc m .scar, .mc m .short, .mc m .vD, .mc m .vQ, .gates (some m)]) :
    (State.restUnits s c).part p = s.part p := by
  simp [forall_and] at h
  unfold State.restUnits
  extract_lets s1 r s2
  have h1 : s1.part p = s.part p := by simp [s1, h]
  split
  next n _ =>
    extract_lets s3 s4 s5
    have h3 : s4.part p = s.part p := by
      refine (State.modGrp_part _ _ _ (by simp [h])).trans ?_
      refine (by exact State.modMc_part _ _ _ fun q hq m => by subst hq; cases q <;> first | rfl | simp at h : State.part (s3.modMc n _) p = s3.part p).trans ?_
      simp [s3, h, h1]
    have h4 : s5.part p = s.part p := by simp only [s5]; split <;> simp [h, h3]
    simp [h, h4]
  · have h2 : s2.part p = s.part p := by simp only [s2]; split <;> simp [h, h1]
    simp [h, h2]

@[simp] theorem State.enter_part (s : State) (c : Cl) (goal : CState) (cause : Nat) (ev : Option Nat) {p : Part} (h : ∀ m, p ∉ [.auto, .axM, .axS, .cl, .grp, .link, .rails, .raised, .store, .stp, .trace, .mc m .atl, .mc m .bstRun, .mc m .closed, .mc m .conv, .mc m .dat, .mc m .est, .mc m .grat, .mc m .loops, .mc m .models, .mc m .precharge, .mc m .pulse, .mc m .pwm, .mc m .ref1, .mc m .ref2, .mc m .sampleNew, .mc m .scar, .mc m .servCnt, .mc m .short, .mc m .spdCnt, .mc m .uA, .mc m .uB, .mc m .vD, .mc m .vQ, .gates (some m)]) :
    (State.enter s c goal cause ev).part p = s.part p := by
  simp [forall_and] at h
  unfold State.enter
  extract_lets was rearm s1 a s2
  have h2 : s2.part p = s.part p := (s1.with_auto_part _ (by simp [h])).trans (by simp [s1, h])
  split
  · split <;> simp [h, h2]
  all_goals simp [h, h2]

@[simp] theorem State.rejectSwap_part (s : State) (c : Cl) (reason : Nat) {p : Part} (h : p ∉ [.store]) :
    (State.rejectSwap s c reason).part p = s.part p := by
  simp at h
  simp [State.rejectSwap, h]

@[simp] theorem State.armCmd_part (s : State) (c : Cl) (cause : Nat) {p : Part} (h : ∀ m, p ∉ [.auto, .axM, .axS, .cl, .grp, .link, .rails, .raised, .status, .store, .stp, .trace, .mc m .atl, .mc m .bstRun, .mc m .closed, .mc m .conv, .mc m .dat, .mc m .est, .mc m .grat, .mc m .loops, .mc m .models, .mc m .precharge, .mc m .pulse, .mc m .pwm, .mc m .ref1, .mc m .ref2, .mc m .sampleNew, .mc m .scar, .mc m .servCnt, .mc m .short, .mc m .spdCnt, .mc m .uA, .mc m .uB, .mc m .vD, .mc m .vQ, .gates (some m)]) :
    (State.armCmd s c cause).part p = s.part p := by
  simp [forall_and] at h
  unfold State.armCmd
  repeat' split
  all_goals simp [h]

@[simp] theorem State.enterAll_part (s : State) (cs : List Cl) (ok : CState → Bool) (goal : CState) (cause : Nat) (ev : Option Nat) {p : Part} (h : ∀ m, p ∉ [.auto, .axM, .axS, .cl, .grp, .link, .rails, .raised, .store, .stp, .trace, .mc m .atl, .mc m .bstRun, .mc m .closed, .mc m .conv, .mc m .dat, .mc m .est, .mc m .grat, .mc m .loops, .mc m .models, .mc m .precharge, .mc m .pulse, .mc m .pwm, .mc m .ref1, .mc m .ref2, .mc m .sampleNew, .mc m .scar, .mc m .servCnt, .mc m .short, .mc m .spdCnt, .mc m .uA, .mc m .uB, .mc m .vD, .mc m .vQ, .gates (some m)]) :
    (State.enterAll s cs ok goal cause ev).part p = s.part p := by
  simp [forall_and] at h
  simp [State.enterAll, h]

@[simp] theorem State.disarmCmd_part (s : State) (c : Cl) {p : Part} (h : ∀ m, p ∉ [.auto, .axM, .axS, .cl, .grp, .link, .rails, .raised, .status, .store, .stp, .trace, .mc m .atl, .mc m .bstRun, .mc m .closed, .mc m .conv, .mc m .dat, .mc m .est, .mc m .grat, .mc m .loops, .mc m .models, .mc m .precharge, .mc m .pulse, .mc m .pwm, .mc m .ref1, .mc m .ref2, .mc m .sampleNew, .mc m .scar, .mc m .servCnt, .mc m .short, .mc m .spdCnt, .mc m .uA, .mc m .uB, .mc m .vD, .mc m .vQ, .gates (some m)]) :
    (State.disarmCmd s c).part p = s.part p := by
  simp [forall_and] at h
  unfold State.disarmCmd
  split <;> simp [h]

@[simp] theorem State.startGo_part (s : State) (c : Cl) (cs : List Cl) (auto : Bool) {p : Part} (h : ∀ m, p ∉ [.auto, .axM, .axS, .cl, .grp, .link, .rails, .raised, .status, .store, .stp, .trace, .mc m .atl, .mc m .bstRun, .mc m .closed, .mc m .conv, .mc m .dat, .mc m .est, .mc m .grat, .mc m .loops, .mc m .models, .mc m .precharge, .mc m .pulse, .mc m .pwm, .mc m .ref1, .mc m .ref2, .mc m .sampleNew, .mc m .scar, .mc m .servCnt, .mc m .short, .mc m .spdCnt, .mc m .uA, .mc m .uB, .mc m .vD, .mc m .vQ, .gates (some m)]) :
    (State.startGo s c cs auto).part p = s.part p := by
  simp [forall_and] at h
  simp [State.startGo, h]

@[simp] theorem State.startCmd_part (s : State) (c : Cl) {p : Part} (h : ∀ m, p ∉ [.auto, .axM, .axS, .cl, .grp, .link, .rails, .raised, .status, .store, .stp, .trace, .mc m .atl, .mc m .bstRun, .mc m .closed, .mc m .conv, .mc m .dat, .mc m .est, .mc m .grat, .mc m .loops, .mc m .models, .mc m .precharge, .mc m .pulse, .mc m .pwm, .mc m .ref1, .mc m .ref2, .mc m .sampleNew, .mc m .scar, .mc m .servCnt, .mc m .short, .mc m .spdCnt, .mc m .uA, .mc m .uB, .mc m .vD, .mc m .vQ, .gates (some m)]) :
    (State.startCmd s c).part p = s.part p := by
  simp [forall_and] at h
  unfold State.startCmd
  repeat' split
  all_goals simp [h]

@[simp] theorem State.stopCmd_part (s : State) (c : Cl) {p : Part} (h : ∀ m, p ∉ [.auto, .axM, .axS, .cl, .grp, .link, .rails, .raised, .status, .store, .stp, .trace, .mc m .atl, .mc m .bstRun, .mc m .closed, .mc m .conv, .mc m .dat, .mc m .est, .mc m .grat, .mc m .loops, .mc m .models, .mc m .precharge, .mc m .pulse, .mc m .pwm, .mc m .ref1, .mc m .ref2, .mc m .sampleNew, .mc m .scar, .mc m .servCnt, .mc m .short, .mc m .spdCnt, .mc m .uA, .mc m .uB, .mc m .vD, .mc m .vQ, .gates (some m)]) :
    (State.stopCmd s c).part p = s.part p := by
  simp [forall_and] at h
  unfold State.stopCmd
  repeat' split
  all_goals simp [h]

@[simp] theorem State.safeCmd_part (s : State) (c : Cl) {p : Part} (h : ∀ m, p ∉ [.auto, .axM, .axS, .cl, .grp, .link, .rails, .raised, .status, .store, .stp, .trace, .mc m .atl, .mc m .bstRun, .mc m .closed, .mc m .conv, .mc m .dat, .mc m .est, .mc m .grat, .mc m .loops, .mc m .models, .mc m .precharge, .mc m .pulse, .mc m .pwm, .mc m .ref1, .mc m .ref2, .mc m .sampleNew, .mc m .scar, .mc m .servCnt, .mc m .short, .mc m .spdCnt, .mc m .uA, .mc m .uB, .mc m .vD, .mc m .vQ, .gates (some m)]) :
    (State.safeCmd s c).part p = s.part p := by
  simp [forall_and] at h
  unfold State.safeCmd
  split <;> simp [h]

@[simp] theorem State.clearCmd_part (s : State) (c : Cl) {p : Part} (h : ∀ m, p ∉ [.auto, .axM, .axS, .cl, .grp, .link, .rails, .raised, .status, .store, .stp, .trace, .mc m .atl, .mc m .bstRun, .mc m .closed, .mc m .conv, .mc m .dat, .mc m .dieSafe, .mc m .est, .mc m .grat, .mc m .loops, .mc m .models, .mc m .precharge, .mc m .pulse, .mc m .pwm, .mc m .ref1, .mc m .ref2, .mc m .sampleNew, .mc m .scar, .mc m .servCnt, .mc m .short, .mc m .spdCnt, .mc m .uA, .mc m .uB, .mc m .vD, .mc m .vQ, .gates (some m)]) :
    (State.clearCmd s c).part p = s.part p := by
  simp [forall_and] at h
  unfold State.clearCmd
  split
  · split
    · simp [h]
    · split
      · simp [h]
      · extract_lets s1
        have h1 : s1.part p = s.part p := State.part_each _ _ _ _ fun x t => by split <;> simp [h]
        simp [h, h1]
  · simp [h]

@[simp] theorem State.restMet_part (s : State) (c : Cl) {p : Part} (h : ∀ m, p ∉ [.auto, .axM, .axS, .cl, .grp, .link, .rails, .raised, .store, .stp, .trace, .mc m .atl, .mc m .bstRun, .mc m .closed, .mc m .conv, .mc m .dat, .mc m .est, .mc m .grat, .mc m .loops, .mc m .models, .mc m .precharge, .mc m .pulse, .mc m .pwm, .mc m .ref1, .mc m .ref2, .mc m .sampleNew, .mc m .scar, .mc m .servCnt, .mc m .short, .mc m .spdCnt, .mc m .uA, .mc m .uB, .mc m .vD, .mc m .vQ, .gates (some m)]) :
    (State.restMet s c).part p = s.part p := by
  simp [forall_and] at h
  unfold State.restMet
  split <;> simp [h]

@[simp] theorem State.armTimeout_part (s : State) (c : Cl) {p : Part} (h : ∀ m, p ∉ [.auto, .axM, .axS, .cl, .grp, .link, .rails, .raised, .store, .stp, .trace, .mc m .atl, .mc m .bstRun, .mc m .closed, .mc m .conv, .mc m .dat, .mc m .est, .mc m .grat, .mc m .loops, .mc m .models, .mc m .precharge, .mc m .pulse, .mc m .pwm, .mc m .ref1, .mc m .ref2, .mc m .sampleNew, .mc m .scar, .mc m .servCnt, .mc m .short, .mc m .spdCnt, .mc m .uA, .mc m .uB, .mc m .vD, .mc m .vQ, .gates (some m)]) :
    (State.armTimeout s c).part p = s.part p := by
  simp [forall_and] at h
  simp [State.armTimeout, h]

@[simp] theorem State.autoStartNow_part (s : State) (c : Cl) {p : Part} (h : ∀ m, p ∉ [.auto, .axM, .axS, .cl, .grp, .link, .rails, .raised, .status, .store, .stp, .trace, .mc m .atl, .mc m .bstRun, .mc m .closed, .mc m .conv, .mc m .dat, .mc m .est, .mc m .grat, .mc m .loops, .mc m .models, .mc m .precharge, .mc m .pulse, .mc m .pwm, .mc m .ref1, .mc m .ref2, .mc m .sampleNew, .mc m .scar, .mc m .servCnt, .mc m .short, .mc m .spdCnt, .mc m .uA, .mc m .uB, .mc m .vD, .mc m .vQ, .gates (some m)]) :
    (State.autoStartNow s c).part p = s.part p := by
  simp [forall_and] at h
  simp [State.autoStartNow, h]

@[simp] theorem State.autoArm_part (s : State) (c : Cl) {p : Part} (h : ∀ m, p ∉ [.auto, .axM, .axS, .cl, .grp, .link, .rails, .raised, .status, .store, .stp, .trace, .mc m .atl, .mc m .bstRun, .mc m .closed, .mc m .conv, .mc m .dat, .mc m .est, .mc m .grat, .mc m .loops, .mc m .models, .mc m .precharge, .mc m .pulse, .mc m .pwm, .mc m .ref1, .mc m .ref2, .mc m .sampleNew, .mc m .scar, .mc m .servCnt, .mc m .short, .mc m .spdCnt, .mc m .uA, .mc m .uB, .mc m .vD, .mc m .vQ, .gates (some m)]) :
    (State.autoArm s c).part p = s.part p := by
  simp [forall_and] at h
  unfold State.autoArm
  repeat' split
  all_goals simp [h]

@[simp] theorem State.firstSp_part (s : State) (c : Cl) (src : Nat) {p : Part} (h : ∀ m, p ∉ [.auto, .axM, .axS, .cl, .grp, .link, .rails, .raised, .status, .store, .stp, .trace, .mc m .atl, .mc m .bstRun, .mc m .closed, .mc m .conv, .mc m .dat, .mc m .est, .mc m .grat, .mc m .loops, .mc m .models, .mc m .precharge, .mc m .pulse, .mc m .pwm, .mc m .ref1, .mc m .ref2, .mc m .sampleNew, .mc m .scar, .mc m .servCnt, .mc m .short, .mc m .spdCnt, .mc m .uA, .mc m .uB, .mc m .vD, .mc m .vQ, .gates (some m)]) :
    (State.firstSp s c src).part p = s.part p := by
  simp [forall_and] at h
  unfold State.firstSp
  dsimp only
  repeat' split
  all_goals simp [h]

@[simp] theorem State.logRequest_part (s : State) (cause : Nat) {p : Part} (h : p ∉ [.log]) :
    (State.logRequest s cause).part p = s.part p := by
  simp at h
  unfold State.logRequest
  repeat' split
  all_goals simp [h]

@[simp] theorem State.dark_part (s : State) {p : Part} (h : p ∉ [.dev]) :
    (State.dark s).part p = s.part p := by
  simp at h
  simp [State.dark, h]

@[simp] theorem State.faultSafe_part (s : State) (c : Cl) (cause : Nat) (ev : Option Nat) {p : Part} (h : ∀ m, p ∉ [.auto, .axM, .axS, .cl, .grp, .link, .rails, .raised, .store, .stp, .trace, .mc m .atl, .mc m .bstRun, .mc m .closed, .mc m .conv, .mc m .dat, .mc m .est, .mc m .grat, .mc m .loops, .mc m .models, .mc m .precharge, .mc m .pulse, .mc m .pwm, .mc m .ref1, .mc m .ref2, .mc m .sampleNew, .mc m .scar, .mc m .servCnt, .mc m .short, .mc m .spdCnt, .mc m .uA, .mc m .uB, .mc m .vD, .mc m .vQ, .gates (some m)]) :
    (State.faultSafe s c cause ev).part p = s.part p := by
  simp [forall_and] at h
  unfold State.faultSafe
  split <;> simp [h]

@[simp] theorem State.bivouac_part (s : State) (cause : Nat) (ev : Option Nat) {p : Part} (h : ∀ m, p ∉ [.auto, .axM, .axS, .cl, .dev, .grp, .link, .log, .rails, .raised, .store, .stp, .trace, .mc m .atl, .mc m .bstRun, .mc m .closed, .mc m .conv, .mc m .dat, .mc m .est, .mc m .grat, .mc m .loops, .mc m .models, .mc m .precharge, .mc m .pulse, .mc m .pwm, .mc m .ref1, .mc m .ref2, .mc m .sampleNew, .mc m .scar, .mc m .servCnt, .mc m .short, .mc m .spdCnt, .mc m .uA, .mc m .uB, .mc m .vD, .mc m .vQ, .gates (some m)]) :
    (State.bivouac s cause ev).part p = s.part p := by
  simp [forall_and] at h
  simp [State.bivouac, h]

@[simp] theorem State.reactAt_part (s : State) (k e : Nat) {p : Part} (h : ∀ m, p ∉ [.auto, .axM, .axS, .cl, .dev, .grp, .link, .log, .rails, .raised, .store, .stp, .trace, .mc m .atl, .mc m .bstRun, .mc m .closed, .mc m .conv, .mc m .dat, .mc m .est, .mc m .grat, .mc m .loops, .mc m .models, .mc m .precharge, .mc m .pulse, .mc m .pwm, .mc m .ref1, .mc m .ref2, .mc m .sampleNew, .mc m .scar, .mc m .servCnt, .mc m .short, .mc m .spdCnt, .mc m .uA, .mc m .uB, .mc m .vD, .mc m .vQ, .gates (some m)]) :
    (State.reactAt s k e).part p = s.part p := by
  simp [forall_and] at h
  simp [State.reactAt, h]

@[simp] theorem State.reactHold_part (s : State) (e : Nat) {p : Part} (h : ∀ m, p ∉ [.dev, .link, .rails, .raised, .store, .stp, .trace, .mc m .pwm]) :
    (State.reactHold s e).part p = s.part p := by
  simp [forall_and] at h
  unfold State.reactHold
  extract_lets s1
  have h1 : s1.part p = s.part p := by simp only [s1]; split <;> simp [h]
  split
  · refine (State.part_each _ _ _ _ fun c t => ?_).trans h1
    split
    · rfl
    · split <;> simp [h]
  · exact h1

@[simp] theorem State.react_part (s : State) {p : Part} (h : ∀ m, p ∉ [.auto, .axM, .axS, .cl, .dev, .grp, .link, .log, .rails, .raised, .store, .stp, .trace, .mc m .atl, .mc m .bstRun, .mc m .closed, .mc m .conv, .mc m .dat, .mc m .est, .mc m .grat, .mc m .loops, .mc m .models, .mc m .precharge, .mc m .pulse, .mc m .pwm, .mc m .ref1, .mc m .ref2, .mc m .sampleNew, .mc m .scar, .mc m .servCnt, .mc m .short, .mc m .spdCnt, .mc m .uA, .mc m .uB, .mc m .vD, .mc m .vQ, .gates (some m)]) :
    (State.react s).part p = s.part p := by
  simp [forall_and] at h
  unfold State.react
  dsimp only
  repeat' split
  all_goals simp [h]

@[simp] theorem reactAll_part (fuel : Nat) (s : State) {p : Part} (h : ∀ m, p ∉ [.auto, .axM, .axS, .cl, .dev, .grp, .link, .log, .rails, .raised, .store, .stp, .trace, .mc m .atl, .mc m .bstRun, .mc m .closed, .mc m .conv, .mc m .dat, .mc m .est, .mc m .grat, .mc m .loops, .mc m .models, .mc m .precharge, .mc m .pulse, .mc m .pwm, .mc m .ref1, .mc m .ref2, .mc m .sampleNew, .mc m .scar, .mc m .servCnt, .mc m .short, .mc m .spdCnt, .mc m .uA, .mc m .uB, .mc m .vD, .mc m .vQ, .gates (some m)]) :
    (reactAll fuel s).part p = s.part p := by
  simp [forall_and] at h
  induction fuel generalizing s with
  | zero => rfl
  | succ k ih =>
    unfold reactAll
    split
    · rfl
    · exact (ih _).trans (State.react_part _ (by simp [h]))

@[simp] theorem State.advance_part (s : State) {p : Part} (h : ∀ m, p ∉ [.auto, .axM, .axS, .cl, .grp, .link, .rails, .raised, .store, .stp, .trace, .mc m .atl, .mc m .bstRun, .mc m .closed, .mc m .conv, .mc m .dat, .mc m .est, .mc m .grat, .mc m .loops, .mc m .models, .mc m .precharge, .mc m .pulse, .mc m .pwm, .mc m .ref1, .mc m .ref2, .mc m .sampleNew, .mc m .scar, .mc m .servCnt, .mc m .short, .mc m .spdCnt, .mc m .uA, .mc m .uB, .mc m .vD, .mc m .vQ, .gates (some m)]) :
    (State.advance s).part p = s.part p := by
  simp [forall_and] at h
  simp [State.advance, h]

@[simp] theorem State.settle_part (s : State) {p : Part} (h : ∀ m, p ∉ [.auto, .axM, .axS, .cl, .dev, .grp, .link, .log, .rails, .raised, .store, .stp, .trace, .mc m .atl, .mc m .bstRun, .mc m .closed, .mc m .conv, .mc m .dat, .mc m .est, .mc m .grat, .mc m .loops, .mc m .models, .mc m .precharge, .mc m .pulse, .mc m .pwm, .mc m .ref1, .mc m .ref2, .mc m .sampleNew, .mc m .scar, .mc m .servCnt, .mc m .short, .mc m .spdCnt, .mc m .uA, .mc m .uB, .mc m .vD, .mc m .vQ, .gates (some m)]) :
    (State.settle s).part p = s.part p := by
  simp [forall_and] at h
  simp [State.settle, h]

@[simp] theorem State.discardAll_part (s : State) (cs : List Cl) {p : Part} (h : ∀ m, p ∉ [.store, .mc m .atl]) :
    (State.discardAll s cs).part p = s.part p := by
  simp [forall_and] at h
  refine State.part_each _ _ _ _ fun _ t => ?_
  repeat' split
  all_goals simp [h]

@[simp] theorem fillAll_part (ecc : Ecc) (x1 : List Cl) (s : State) {p : Part} (h : ∀ m, p ∉ [.health, .link, .raised, .rowFlags, .store, .trace, .mc m .atl, .mc m .banks]) :
    (fillAll ecc x1 s).1.part p = s.part p := by
  simp [forall_and] at h
  induction x1 generalizing s with
  | nil => rfl
  | cons c cs ih =>
    unfold fillAll
    split
    next n _ =>
      have hk := s.swapFill_part n (s.shadow n) ecc (p := p) (by simp [h])
      dsimp only
      split
      · exact (ih _).trans hk
      · exact hk
    · exact ih _

@[simp] theorem State.releaseAll_part (s : State) (cs : List Cl) {p : Part} (h : ∀ m, p ∉ [.store, .mc m .atl]) :
    (State.releaseAll s cs).part p = s.part p := by
  simp [forall_and] at h
  refine State.part_each _ _ _ _ fun _ t => ?_
  repeat' split
  all_goals simp [h]

@[simp] theorem State.swapReq_part (s : State) (c : Cl) (ecc : Ecc) {p : Part} (h : ∀ m, p ∉ [.cl, .health, .link, .raised, .rowFlags, .status, .store, .trace, .mc m .atl, .mc m .banks]) :
    (State.swapReq s c ecc).part p = s.part p := by
  simp [forall_and] at h
  unfold State.swapReq
  split
  · simp [h]
  · split
    · simp [h]
    · dsimp only
      split
      · simp [h]
      · split
        next t x hf =>
          have ht := congrArg (fun r => r.1.part p) hf
          simp [h] at ht
          simp [h, ht]
        next t hf =>
          have ht := congrArg (fun r => r.1.part p) hf
          simp [h] at ht
          simp [h, ht]

@[simp] theorem State.gLoad_part (s : State) (n : Mcn) (keep : Fin 64 → Bool) {p : Part} (h : p ∉ [.mc n .grat]) :
    (State.gLoad s n keep).part p = s.part p := by
  simp at h
  simp [State.gLoad, h]

@[simp] theorem State.swapSets_part (s : State) (c : Cl) {p : Part} (h : ∀ m, p ∉ [.cl, .store, .stp, .mc m .atl, .mc m .grat]) :
    (State.swapSets s c).part p = s.part p := by
  simp [forall_and] at h
  unfold State.swapSets
  split <;> simp [h]

@[simp] theorem State.swapNow_part (s : State) (c : Cl) {p : Part} (h : ∀ m, p ∉ [.cl, .store, .stp, .mc m .atl, .mc m .grat]) :
    (State.swapNow s c).part p = s.part p := by
  simp [forall_and] at h
  simp [State.swapNow, h]

@[simp] theorem State.copyShadow_part (s : State) (c : Cl) {p : Part} (h : p ∉ [.cl, .status]) :
    (State.copyShadow s c).part p = s.part p := by
  simp at h
  unfold State.copyShadow
  split <;> simp [h]

@[simp] theorem State.copyDone_part (s : State) (c : Cl) {p : Part} (h : p ∉ [.cl, .store]) :
    (State.copyDone s c).part p = s.part p := by
  simp at h
  simp [State.copyDone, h]

@[simp] theorem State.devReject_part (s : State) (unit reason : Nat) {p : Part} (h : p ∉ [.link, .raised, .store, .trace]) :
    (State.devReject s unit reason).part p = s.part p := by
  simp at h
  simp [State.devReject, h]

@[simp] theorem State.devSwapReq_part (s : State) (ecc : Ecc) {p : Part} (h : ∀ m, p ∉ [.dev, .health, .link, .raised, .rowFlags, .status, .store, .trace, .mc m .atl, .mc m .banks]) :
    (State.devSwapReq s ecc).part p = s.part p := by
  simp [forall_and] at h
  unfold State.devSwapReq
  extract_lets mask pkg frame cs sel s1 reason pr
  have h1 : s1.part p = s.part p := by simp [s1, h]
  have hf := fillAll_part ecc cs s1 (p := p) (by simp [h])
  split
  · simp [h]
  · split
    · simp [h]
    · split
      · simp [h]
      · split
        · simp [h, h1]
        · split
          · simp [h, h1]
          · split
            next he => rw [he] at hf; dsimp only at hf; simp [h, h1, hf]
            next he => rw [he] at hf; dsimp only at hf; simp [h, h1, hf]

@[simp] theorem State.swapPackage_part (s : State) {p : Part} (h : p ∉ [.dev, .store]) :
    (State.swapPackage s).part p = s.part p := by
  simp at h
  unfold State.swapPackage
  extract_lets old s1
  have h1 : s1.part p = s.part p := by simp [s1, h]
  refine (State.part_each _ _ _ _ fun n t => ?_).trans h1
  dsimp only
  split <;> simp [h]

@[simp] theorem State.devSwapNow_part (s : State) {p : Part} (h : ∀ m, p ∉ [.cl, .dev, .store, .stp, .mc m .atl, .mc m .grat]) :
    (State.devSwapNow s).part p = s.part p := by
  simp [forall_and] at h
  unfold State.devSwapNow
  split <;> simp [h]

@[simp] theorem State.modSync_part (s : State) (g : Sync → Sync) {p : Part} (h : p ∉ [.sync]) :
    (State.modSync s g).part p = s.part p := by
  cases p <;> first | rfl | simp at h

@[simp] theorem State.syncMiss_part (s : State) {p : Part} (h : p ∉ [.link, .rails, .raised, .store, .sync, .trace]) :
    (State.syncMiss s).part p = s.part p := by
  simp at h
  simp [State.syncMiss, h]

@[simp] theorem State.syncEdge_part (s : State) (long : Bool) {p : Part} (h : p ∉ [.link, .rails, .raised, .store, .sync, .trace]) :
    (State.syncEdge s long).part p = s.part p := by
  simp at h
  simp [State.syncEdge, h]

@[simp] theorem State.syncWindowClose_part (s : State) {p : Part} (h : p ∉ [.link, .rails, .raised, .store, .sync, .trace]) :
    (State.syncWindowClose s).part p = s.part p := by
  simp at h
  simp [State.syncWindowClose, h]

@[simp] theorem State.snapshot_part (s : State) (n : Mcn) {p : Part} (h : p ∉ [.store]) :
    (State.snapshot s n).part p = s.part p := by
  simp at h
  simp [State.snapshot, h]

@[simp] theorem State.alignMeasure_part (s : State) (n : Mcn) {p : Part} (h : p ∉ [.mc n .pwm]) :
    (State.alignMeasure s n).part p = s.part p := by
  simp at h
  simp [State.alignMeasure, h]

@[simp] theorem State.newFramePeriod_part (s : State) {p : Part} (h : ∀ m, p ∉ [.sync, .mc m .pwm]) :
    (State.newFramePeriod s).part p = s.part p := by
  simp [forall_and] at h
  simp [State.newFramePeriod, h]

@[simp] theorem State.contention_part (s : State) (wrong : Bool) {p : Part} (h : p ∉ [.link, .raised, .store, .sync, .trace]) :
    (State.contention s wrong).part p = s.part p := by
  simp at h
  unfold State.contention
  repeat' split
  all_goals simp [h]

@[simp] theorem State.nextFrame_part (s : State) (start : Nat) {p : Part} (h : p ∉ [.sync]) :
    (State.nextFrame s start).part p = s.part p := by
  simp at h
  simp [State.nextFrame, h]

@[simp] theorem State.frameBoundary_part (s : State) (wrong : Bool) {p : Part} (h : ∀ m, p ∉ [.grp, .link, .raised, .store, .sync, .trace, .mc m .pwm]) :
    (State.frameBoundary s wrong).part p = s.part p := by
  simp [forall_and] at h
  simp [State.frameBoundary, h]

@[simp] theorem State.runEnter_part (s : State) (cause : Nat) {p : Part} (h : p ∉ [.auto, .dev, .sync]) :
    (State.runEnter s cause).part p = s.part p := by
  simp at h
  exact (State.with_auto_part _ _ (by simp [h])).trans (by simp [h])

@[simp] theorem State.runCmd_part (s : State) {p : Part} (h : p ∉ [.auto, .dev, .status, .sync]) :
    (State.runCmd s).part p = s.part p := by
  simp at h
  simp [State.runCmd, h]

@[simp] theorem State.haltCmd_part (s : State) {p : Part} (h : ∀ m, p ∉ [.auto, .axM, .axS, .cl, .dev, .grp, .link, .log, .rails, .raised, .status, .store, .stp, .trace, .mc m .atl, .mc m .bstRun, .mc m .closed, .mc m .conv, .mc m .dat, .mc m .est, .mc m .grat, .mc m .loops, .mc m .models, .mc m .precharge, .mc m .pulse, .mc m .pwm, .mc m .ref1, .mc m .ref2, .mc m .sampleNew, .mc m .scar, .mc m .servCnt, .mc m .short, .mc m .spdCnt, .mc m .uA, .mc m .uB, .mc m .vD, .mc m .vQ, .gates (some m)]) :
    (State.haltCmd s).part p = s.part p := by
  simp [forall_and] at h
  simp [State.haltCmd, h]

@[simp] theorem State.resumeCmd_part (s : State) {p : Part} (h : p ∉ [.auto, .dev, .status, .sync]) :
    (State.resumeCmd s).part p = s.part p := by
  simp at h
  simp [State.resumeCmd, h]

@[simp] theorem State.faultNLow_part (s : State) {p : Part} (h : p ∉ [.dev, .link, .rails, .raised, .store, .trace]) :
    (State.faultNLow s).part p = s.part p := by
  simp at h
  simp [State.faultNLow, h]

@[simp] theorem State.faultNHigh_part (s : State) {p : Part} (h : p ∉ [.dev, .rails, .store]) :
    (State.faultNHigh s).part p = s.part p := by
  simp at h
  simp [State.faultNHigh, h]

@[simp] theorem State.lanternToggle_part (s : State) {p : Part} (h : p ∉ [.dev]) :
    (State.lanternToggle s).part p = s.part p := by
  simp at h
  simp [State.lanternToggle, h]

@[simp] theorem State.pulseExpire_part (s : State) (e : Nat) {p : Part} (h : p ∉ [.dev]) :
    (State.pulseExpire s e).part p = s.part p := by
  simp at h
  simp [State.pulseExpire, h]

@[simp] theorem State.stickyClear_part (s : State) (k : Nat) (w : Word) {p : Part} (h : p ∉ [.store]) :
    (State.stickyClear s k w).part p = s.part p := by
  simp at h
  simp [State.stickyClear, h]

@[simp] theorem State.guyClear_part (s : State) (k : Nat) (w : Word) {p : Part} (h : p ∉ [.store]) :
    (State.guyClear s k w).part p = s.part p := by
  simp at h
  simp [State.guyClear, h]

@[simp] theorem State.guyBegin_part (s : State) (e : Nat) {p : Part} (h : p ∉ [.guyFault, .link, .rails, .raised, .store, .trace]) :
    (State.guyBegin s e).part p = s.part p := by
  simp at h
  simp [State.guyBegin, h]

@[simp] theorem State.guyEnd_part (s : State) (e : Nat) {p : Part} (h : p ∉ [.guyFault, .rails, .store]) :
    (State.guyEnd s e).part p = s.part p := by
  simp at h
  simp [State.guyEnd, h]

@[simp] theorem State.dieApply_part (s : State) (d : Rg) {p : Part} (h : ∀ m, p ∉ [.link, .raised, .store, .trace, .mc m .dieSafe, .mc m .models, .mc m .short, .mc m .vD, .mc m .vQ, .gates (some m)]) :
    (State.dieApply s d).part p = s.part p := by
  simp [forall_and] at h
  simp [State.dieApply, h]

@[simp] theorem State.linkLoss_part (s : State) (d : Rg) {p : Part} (h : ∀ m, p ∉ [.link, .rails, .raised, .store, .trace, .mc m .dieSafe, .mc m .models, .mc m .short, .mc m .vD, .mc m .vQ, .gates (some m)]) :
    (State.linkLoss s d).part p = s.part p := by
  simp [forall_and] at h
  simp [State.linkLoss, h]

@[simp] theorem State.supplyLoss_part (s : State) (d : Rg) {p : Part} (h : ∀ m, p ∉ [.link, .rails, .raised, .rg, .store, .trace, .mc m .dieSafe, .mc m .models, .mc m .short, .mc m .vD, .mc m .vQ, .gates (some m), .gates none]) :
    (State.supplyLoss s d).part p = s.part p := by
  simp [forall_and] at h
  simp [State.supplyLoss, h]

@[simp] theorem State.holdLoss_part (s : State) (r : Rg) {p : Part} (h : ∀ m, p ∉ [.link, .raised, .rg, .store, .trace, .mc m .models, .mc m .short, .mc m .vD, .mc m .vQ, .gates (some m), .gates none]) :
    (State.holdLoss s r).part p = s.part p := by
  simp [forall_and] at h
  simp [State.holdLoss, h]

@[simp] theorem State.deliverRaisings_part (s : State) (d : Rg) {p : Part} (h : p ∉ [.link, .raised, .store, .trace]) :
    (State.deliverRaisings s d).part p = s.part p := by
  simp at h
  unfold State.deliverRaisings
  extract_lets b s1
  have h1 : s1.part p = s.part p := by simp [s1, h]
  exact (State.part_each _ _ _ _ fun x t => State.part_each _ _ _ _ fun k t => by simp [h]).trans h1

@[simp] theorem State.linkRestored_part (s : State) (d : Rg) {p : Part} (h : ∀ m, p ∉ [.fresh, .link, .rails, .raised, .store, .trace, .mc m .models, .mc m .short, .mc m .vD, .mc m .vQ, .gates (some m), .gates none]) :
    (State.linkRestored s d).part p = s.part p := by
  simp [forall_and] at h
  simp [State.linkRestored, h]

@[simp] theorem State.linkFrame_part (s : State) (d : Rg) (toKilid : Bool) (bad : List (Fin 5)) {p : Part} (h : p ∉ [.health]) :
    (State.linkFrame s d toKilid bad).part p = s.part p := by
  simp at h
  simp [State.linkFrame, h]

@[simp] theorem State.laneRetrain_part (s : State) (d : Rg) (toKilid : Bool) (lane : Fin 5) {p : Part} (h : ∀ m, p ∉ [.link, .rails, .raised, .store, .trace, .mc m .dieSafe, .mc m .models, .mc m .short, .mc m .vD, .mc m .vQ, .gates (some m)]) :
    (State.laneRetrain s d toKilid lane).part p = s.part p := by
  simp [forall_and] at h
  simp [State.laneRetrain, h]

@[simp] theorem State.supplyEvent_part (s : State) {p : Part} (h : p ∉ [.link, .rails, .raised, .store, .trace]) :
    (State.supplyEvent s).part p = s.part p := by
  simp at h
  simp [State.supplyEvent, h]

@[simp] theorem State.supplyMark_part (s : State) (m : Nat) (on : Bool) {p : Part} (h : p ∉ [.dev, .link, .rails, .raised, .store, .trace]) :
    (State.supplyMark s m on).part p = s.part p := by
  simp at h
  simp [State.supplyMark, h]

@[simp] theorem State.busAbsent_part (s : State) (r : Rg) {p : Part} (h : ∀ m, p ∉ [.auto, .axM, .axS, .cl, .dev, .grp, .link, .rails, .raised, .store, .stp, .trace, .mc m .atl, .mc m .bstRun, .mc m .closed, .mc m .conv, .mc m .dat, .mc m .est, .mc m .grat, .mc m .loops, .mc m .models, .mc m .precharge, .mc m .pulse, .mc m .pwm, .mc m .ref1, .mc m .ref2, .mc m .sampleNew, .mc m .scar, .mc m .servCnt, .mc m .short, .mc m .spdCnt, .mc m .uA, .mc m .uB, .mc m .vD, .mc m .vQ, .gates (some m)]) :
    (State.busAbsent s r).part p = s.part p := by
  simp [forall_and] at h
  simp [State.busAbsent, h]

@[simp] theorem State.busPresent_part (s : State) (r : Rg) {p : Part} (h : p ∉ [.dev, .link, .rails, .raised, .store, .trace]) :
    (State.busPresent s r).part p = s.part p := by
  simp at h
  simp [State.busPresent, h]

@[simp] theorem State.clockCheck_part (s : State) (v : ClockVerdict) {p : Part} (h : ∀ m, p ∉ [.dev, .link, .rails, .raised, .store, .trace, .mc m .dieSafe, .mc m .models, .mc m .short, .mc m .vD, .mc m .vQ, .gates (some m)]) :
    (State.clockCheck s v).part p = s.part p := by
  simp [forall_and] at h
  unfold State.clockCheck
  repeat' split
  all_goals simp [h]

@[simp] theorem State.laneWindow_part (s : State) (i : Fin 8) (count : Nat) {p : Part} (h : p ∉ [.health, .lanes, .log]) :
    (State.laneWindow s i count).part p = s.part p := by
  simp at h
  unfold State.laneWindow
  extract_lets r l s1 low lg s2
  have h2 : s2.part p = s.part p := (s1.with_log_part _ (by simp [h])).trans (s.with_lanes_part _ (by simp [h]))
  split <;> simp [h, h2]

@[simp] theorem State.laneDrain_part (s : State) (i : Fin 8) {p : Part} (h : p ∉ [.lanes]) :
    (State.laneDrain s i).part p = s.part p := by
  simp at h
  simp [State.laneDrain, h]

@[simp] theorem State.poolTest_part (s : State) {p : Part} (h : ∀ m, p ∉ [.lanes, .link, .poolCyc, .rails, .raised, .ready, .store, .trace, .mc m .conv, .mc m .loops]) :
    (State.poolTest s).part p = s.part p := by
  simp [forall_and] at h
  unfold State.poolTest
  extract_lets ls rMin sum cyc s1 util s2 cs slacks s3 breach worn slow out s4 s5
  have h1 : s1.part p = s.part p := by cases p <;> first | rfl | simp at h
  have h2 : s2.part p = s.part p := by simp [s2, h, h1]
  have h3 : s3.part p = s.part p := by simp only [s3]; split <;> simp [h, h2]
  have h5 : s5.part p = s.part p := by
    simp only [s5]
    split
    · clear_value out
      split <;> simp [s4, h, h3]
    · split <;> simp [h, h3]
  clear_value s5
  split
  · exact h1
  · split <;> simp [h, h5]

@[simp] theorem State.laneOverrun_part (s : State) (i : Fin 8) {p : Part} (h : ∀ m, p ∉ [.lanes, .link, .poolCyc, .rails, .raised, .ready, .store, .trace, .mc m .conv, .mc m .loops]) :
    (State.laneOverrun s i).part p = s.part p := by
  simp [forall_and] at h
  unfold State.laneOverrun
  split <;> simp [h]

@[simp] theorem State.ltestDone_part (s : State) (i : Fin 8) (good : Bool) {p : Part} (h : ∀ m, p ∉ [.lanes, .link, .poolCyc, .rails, .raised, .ready, .runs, .store, .trace, .mc m .atl, .mc m .conv, .mc m .loops]) :
    (State.ltestDone s i good).part p = s.part p := by
  simp [forall_and] at h
  unfold State.ltestDone
  split <;> simp [h]

@[simp] theorem State.traceArm_part (s : State) (u : Fin 4) {p : Part} (h : p ∉ [.store, .trace]) :
    (State.traceArm s u).part p = s.part p := by
  simp at h
  simp [State.traceArm, h]

@[simp] theorem State.traceSoft_part (s : State) (u : Fin 4) {p : Part} (h : p ∉ [.store, .trace]) :
    (State.traceSoft s u).part p = s.part p := by
  simp at h
  simp [State.traceSoft, h]

@[simp] theorem State.traceStop_part (s : State) (u : Fin 4) {p : Part} (h : p ∉ [.store]) :
    (State.traceStop s u).part p = s.part p := by
  simp at h
  simp [State.traceStop, h]

@[simp] theorem State.putWords_part (s : State) (a : Nat) (ws : List Word) {p : Part} (h : p ∉ [.store]) :
    (State.putWords s a ws).part p = s.part p := by
  simp at h
  simp [State.putWords, h]

@[simp] theorem State.traceRecord_part (s : State) (u : Fin 4) (inp : List Int) {p : Part} (h : p ∉ [.store, .trace]) :
    (State.traceRecord s u inp).part p = s.part p := by
  simp at h
  unfold State.traceRecord
  split <;> simp [h]

@[simp] theorem State.traceTake_part (s : State) (u : Fin 4) (n : Nat) {p : Part} (h : p ∉ [.trace]) :
    (State.traceTake s u n).1.part p = s.part p := by
  simp at h
  simp [State.traceTake, h]

@[simp] theorem State.restoreLanes_part (s : State) (dead : Nat) {p : Part} (h : p ∉ [.lanes, .store]) :
    (State.restoreLanes s dead).part p = s.part p := by
  simp at h
  simp [State.restoreLanes, h]

@[simp] theorem State.restoreSlices_part (s : State) (dead : Nat) {p : Part} (h : p ∉ [.store]) :
    (State.restoreSlices s dead).part p = s.part p := by
  simp at h
  refine State.part_each _ _ _ _ fun g t => ?_
  extract_lets dd n free b s1 s2 s3
  have h3 : s3.part p = t.part p := by simp [s3, s2, s1, h]
  split
  · rfl
  · split <;> simp [h, h3]

@[simp] theorem State.restoreAmps_part (s : State) (dead : Nat) {p : Part} (h : p ∉ [.store]) :
    (State.restoreAmps s dead).part p = s.part p := by
  simp at h
  refine State.part_each _ _ _ _ fun _ t => ?_
  repeat' split
  all_goals simp [h]

@[simp] theorem State.restoreGates_part (s : State) (dead : Nat) {p : Part} (h : ∀ m, p ∉ [.store, .gates (some m), .gates none]) :
    (State.restoreGates s dead).part p = s.part p := by
  simp [forall_and] at h
  refine State.part_each _ _ _ _ fun o t => State.part_each _ _ _ _ fun g t => ?_
  extract_lets m
  split
  · rfl
  · have ho : ¬p = .gates (gateOwner o) := by cases gateOwner o <;> simp [h]
    dsimp only
    split <;> simp [h, ho]

@[simp] theorem State.restoreSteps_part (s : State) (dead : Nat) {p : Part} (h : p ∉ [.store, .stp]) :
    (State.restoreSteps s dead).part p = s.part p := by
  simp at h
  simp [State.restoreSteps, h]

@[simp] theorem State.restoreSensors_part (s : State) (dead : Nat) {p : Part} (h : p ∉ [.store]) :
    (State.restoreSensors s dead).part p = s.part p := by
  simp at h
  refine State.part_each _ _ _ _ fun g t => ?_
  extract_lets n m s1 s2
  have h2 : s2.part p = t.part p := by simp [s2, s1, h]
  split
  · rfl
  · split
    · split <;> simp [h, h2]
    · exact h2

@[simp] theorem State.restoreLinks_part (s : State) (dead : Nat) {p : Part} (h : p ∉ [.link, .store]) :
    (State.restoreLinks s dead).part p = s.part p := by
  simp at h
  simp [State.restoreLinks, h]

@[simp] theorem State.restoreRows_part (s : State) (dead : Nat) {p : Part} (h : p ∉ [.rowDead, .rowMap, .store]) :
    (State.restoreRows s dead).part p = s.part p := by
  simp at h
  unfold State.restoreRows
  extract_lets s1 s2 s3
  have h1 : s1.part p = s.part p := s.with_rowDead_part _ (by simp [h])
  have h2 : s2.part p = s1.part p := State.part_each _ _ _ _ fun g t => by
    split
    · split <;> simp [h]
    · rfl
  split <;> simp [s3, h, h1, h2]

@[simp] theorem State.restoreMap_part (s : State) (m : Nat) {p : Part} (h : ∀ m, p ∉ [.lanes, .link, .rowDead, .rowMap, .store, .stp, .gates (some m), .gates none]) :
    (State.restoreMap s m).part p = s.part p := by
  simp [forall_and] at h
  simp [State.restoreMap, h]

@[simp] theorem State.flashErase_part (s : State) (a n : Nat) {p : Part} (h : p ∉ [.flash]) :
    (State.flashErase s a n).part p = s.part p := by
  exact s.with_flash_part _ h

@[simp] theorem State.flashFree_part (s : State) (a n : Nat) {p : Part} (h : p ∉ [.flash, .fresh]) :
    (State.flashFree s a n).part p = s.part p := by
  simp at h
  refine State.part_each _ _ _ _ fun i t => ?_
  cases p <;> first | rfl | simp at h

@[simp] theorem State.flashProgram_part (s : State) (fuel : Nat) (x2 : List Nat) {p : Part} (h : p ∉ [.flash, .fresh]) :
    (State.flashProgram s fuel x2).part p = s.part p := by
  simp at h
  induction x2 generalizing s fuel with
  | nil => rfl
  | cons b bs ih =>
    unfold State.flashProgram
    rw [ih]
    split
    · exact State.with_flash_part _ _ (by simp [h])
    · simp [h]

@[simp] theorem State.memMode_part (s : State) (mode clk dly : Nat) {p : Part} (h : p ∉ [.store]) :
    (State.memMode s mode clk dly).part p = s.part p := by
  simp at h
  simp [State.memMode, h]

@[simp] theorem State.memUser_part (s : State) (u : Nat) {p : Part} (h : p ∉ [.mp]) :
    (State.memUser s u).part p = s.part p := by
  simp at h
  simp [State.memUser, h]

@[simp] theorem State.logHourly_part (s : State) {p : Part} (h : p ∉ [.log]) :
    (State.logHourly s).part p = s.part p := by
  simp at h
  simp [State.logHourly, h]

@[simp] theorem State.logNow_part (s : State) {p : Part} (h : p ∉ [.log, .status]) :
    (State.logNow s).part p = s.part p := by
  simp at h
  simp [State.logNow, h]

@[simp] theorem State.noteTemps_part (s : State) {p : Part} (h : p ∉ [.log]) :
    (State.noteTemps s).part p = s.part p := by
  simp at h
  simp [State.noteTemps, h]

@[simp] theorem State.logStart_part (s : State) {p : Part} (h : p ∉ [.flash, .fresh, .log, .mp]) :
    (State.logStart s).part p = s.part p := by
  simp at h
  unfold State.logStart
  repeat' split
  all_goals simp [h]

@[simp] theorem State.logOk_part (s : State) (slot : Nat) {p : Part} (h : p ∉ [.log, .mp, .rails, .store]) :
    (State.logOk s slot).part p = s.part p := by
  simp at h
  unfold State.logOk
  extract_lets s1 l s2
  have h2 : s2.part p = s.part p := (s1.with_log_part _ (by simp [h])).trans (by simp [s1, h])
  split <;> simp [h, h2]

@[simp] theorem State.logFail_part (s : State) (cause slot : Nat) {p : Part} (h : p ∉ [.flash, .fresh, .link, .log, .mp, .rails, .raised, .store, .trace]) :
    (State.logFail s cause slot).part p = s.part p := by
  simp at h
  unfold State.logFail
  extract_lets s1 s2 l s3
  have h3 : s3.part p = s.part p := (s2.with_log_part _ (by simp [h])).trans (by simp [s2, s1, h])
  simp [h, h3]

@[simp] theorem State.logComplete_part (s : State) (ok : Bool) {p : Part} (h : p ∉ [.flash, .fresh, .link, .log, .mp, .rails, .raised, .store, .trace]) :
    (State.logComplete s ok).part p = s.part p := by
  unfold State.logComplete
  split
  · split
    · exact s.logOk_part _ (by simp at h; simp [h])
    · exact s.logFail_part _ _ (by simp at h; simp [h])
  · rfl

@[simp] theorem State.logTimeout_part (s : State) {p : Part} (h : p ∉ [.flash, .fresh, .link, .log, .mp, .rails, .raised, .store, .trace]) :
    (State.logTimeout s).part p = s.part p := by
  unfold State.logTimeout
  split
  · split
    · exact s.logFail_part _ _ (by simp at h; simp [h])
    · rfl
  · rfl

@[simp] theorem State.logRestore_part (s : State) {p : Part} (h : ∀ m, p ∉ [.health, .lanes, .link, .log, .rails, .raised, .rowDead, .rowMap, .store, .stp, .trace, .gates (some m), .gates none]) :
    (State.logRestore s).part p = s.part p := by
  simp [forall_and] at h
  unfold State.logRestore
  extract_lets base recs
  split
  · rfl
  · extract_lets map bad s1 s2 s3 s4
    have h1 : s1.part p = s.part p := by
      cases p <;> first | rfl | simp at h
    have h4 : s4.part p = s.part p := by
      simp only [s4]; split <;> simp [s3, s2, h, h1]
    simp [h, h4]

@[simp] theorem State.setRam_part (s : State) (i w : Nat) {p : Part} (h : p ∉ [.store]) :
    (State.setRam s i w).part p = s.part p := by
  exact s.setWord_part _ _ h

theorem State.loadWord_part {s t : State} {ty inst a w : Nat} (hw : s.loadWord ty inst a w = some t) {p : Part} (h : p ∉ [.boot, .store]) :
    t.part p = s.part p := by
  simp at h
  have hkeep (k : Nat) (w : Word) : (({ s with boot := { s.boot with written := k :: s.boot.written } } : State).setWord k w).part p = s.part p :=
    (State.setWord_part _ _ _ (by simp [h])).trans (s.with_boot_part _ (by simp [h]))
  unfold State.loadWord at hw
  split at hw
  · cases hw
  · dsimp only at hw
    split at hw
    · cases hw; exact hkeep ..
    · split at hw
      · cases hw
      · obtain ⟨-, hw⟩ := Option.ite_none_left_eq_some.1 hw
        cases hw; exact hkeep ..

@[simp] theorem loadWords_part (t inst a : Nat) (ws : List Nat) (s : State) {p : Part} (h : p ∉ [.boot, .store]) :
    (loadWords t inst a ws s).1.part p = s.part p := by
  induction ws generalizing s a with
  | nil => rfl
  | cons w ws ih =>
    unfold loadWords
    split
    · rfl
    next hw => exact (ih _ _).trans (State.loadWord_part hw h)

@[simp] theorem loadRecords_part (t inst k : Nat) (ws : List Nat) (s : State) {p : Part} (h : p ∉ [.boot, .store]) :
    (loadRecords t inst k ws s).1.part p = s.part p := by
  induction k generalizing s ws with
  | zero => rfl
  | succ k ih =>
    cases ws with
    | nil => rfl
    | cons hd ws =>
      unfold loadRecords
      dsimp only
      split
      · rfl
      · have hw := loadWords_part t inst (hd % 2 ^ 24) (ws.take (hd / 2 ^ 24)) s h
        split
        next hx => rw [hx] at hw; exact (ih _ _).trans hw
        next hx => rw [hx] at hw; exact hw

@[simp] theorem loadSheets_part (c n at_ : Nat) (ws : List Nat) (s : State) {p : Part} (h : p ∉ [.imgSheets, .store]) :
    (loadSheets c n at_ ws s).1.part p = s.part p := by
  simp at h
  induction c generalizing s n at_ ws with
  | zero => rfl
  | succ c ih =>
    unfold loadSheets
    dsimp only
    split
    · rfl
    · split
      · exact (ih _ _ _ _).trans ((State.with_imgSheets_part _ _ (by simp [h])).trans (by simp [h]))
      · simp [h]

@[simp] theorem loadRuns_part (k at_ : Nat) (ws : List Nat) (s : State) {p : Part} (h : p ∉ [.imgSheets, .store]) :
    (loadRuns k at_ ws s).1.part p = s.part p := by
  induction k generalizing s at_ ws with
  | zero => rfl
  | succ k ih =>
    cases ws with
    | nil => rfl
    | cons hd ws =>
      unfold loadRuns
      dsimp only
      split
      · rfl
      · have hw := loadSheets_part (bitsAt hd 12 12) (hd % 4096) (at_ + 4) ws s h
        split
        next hx => rw [hx] at hw; exact (ih _ _ _).trans hw
        next hx => rw [hx] at hw; exact hw

@[simp] theorem State.loadSection_part (s : State) (slot : Nat) (x : Sect) (ws : List Nat) {p : Part} (h : p ∉ [.boot, .imgSheets, .store]) :
    (s.loadSection slot x ws).1.part p = s.part p := by
  simp at h
  have hr := loadRecords_part x.type x.inst ws.length ws s (p := p) (by simp [h])
  have hs := loadRuns_part ws.length (slot + x.off) ws s (p := p) (by simp [h])
  unfold State.loadSection
  split
  next t r hx =>
    have h1 : t.part p = s.part p := by
      refine (congrArg (fun y => y.1.part p) hx).symm.trans ?_
      dsimp only
      split
      · exact hs
      · rfl
      · rfl
      · rfl
      · rfl
      · exact hr
    split
    · exact h1
    · split
      · exact h1
      · split <;> exact h1

@[simp] theorem loadAll_part (slot : Nat) (img : List Nat) (i : Nat) (xs : List Sect) (s : State) {p : Part} (h : p ∉ [.boot, .imgSheets, .store]) :
    (loadAll slot img i xs s).1.part p = s.part p := by
  induction xs generalizing s i with
  | nil => rfl
  | cons x xs ih =>
    have hx := s.loadSection_part slot x ((img.drop (x.off / 4)).take (x.len / 4)) h
    unfold loadAll
    split
    next he => rw [he] at hx; exact hx
    next he => rw [he] at hx; exact (ih _ _).trans hx

@[simp] theorem State.loadImage_part (s : State) (k : Fin 2) {p : Part} (h : p ∉ [.boot, .imgSheets, .store]) : (s.loadImage k).1.part p = s.part p := by
  unfold State.loadImage
  extract_lets img hr sects
  split
  · rfl
  · split
    · rfl
    · split
      · rfl
      · exact loadAll_part _ _ _ _ _ h

@[simp] theorem State.gatesNow_part (s : State) {p : Part} (h : ∀ m, p ∉ [.link, .raised, .store, .trace, .mc m .models, .mc m .short, .mc m .vD, .mc m .vQ, .gates (some m)]) :
    (State.gatesNow s).part p = s.part p := by
  simp [forall_and] at h
  unfold State.gatesNow
  repeat' split
  all_goals simp [h]

@[simp] theorem State.bootPhase_part (s : State) (x1 : BPhase) {p : Part} (h : p ∉ [.boot]) :
    (State.bootPhase s x1).part p = s.part p := by
  simp at h
  unfold State.bootPhase
  dsimp only
  repeat' split
  all_goals simp [h]

@[simp] theorem State.paramsRead_part (s : State) (valid : Bool) {p : Part} (h : p ∉ [.boot]) :
    (State.paramsRead s valid).part p = s.part p := by
  simp at h
  simp [State.paramsRead, h]

@[simp] theorem State.octalSwitch_part (s : State) (ok : Bool) {p : Part} (h : p ∉ [.boot, .fresh, .store]) :
    (State.octalSwitch s ok).part p = s.part p := by
  simp at h
  simp [State.octalSwitch, h]

@[simp] theorem State.setReason_part (s : State) (k : Fin 2) (r : Reason) {p : Part} (h : p ∉ [.store]) :
    (State.setReason s k r).part p = s.part p := by
  simp at h
  simp [State.setReason, h]

@[simp] theorem State.loadEnds_part (s : State) {p : Part} (h : p ∉ [.mp, .store]) :
    (State.loadEnds s).part p = s.part p := by
  simp at h
  simp [State.loadEnds, h]

@[simp] theorem State.toRecovery_part (s : State) {p : Part} (h : p ∉ [.boot, .dev, .mp, .store]) :
    (State.toRecovery s).part p = s.part p := by
  simp at h
  unfold State.toRecovery
  extract_lets s1
  exact (State.loadEnds_part _ (by simp [h])).trans ((s1.with_boot_part _ (by simp [h])).trans (by simp [s1, h]))

@[simp] theorem State.flashSilent_part (s : State) {p : Part} (h : p ∉ [.boot, .dev, .mp, .store]) :
    (State.flashSilent s).part p = s.part p := by
  simp at h
  simp [State.flashSilent, h]

@[simp] theorem State.setAlt_part (s : State) (k : Fin 2) {p : Part} (h : p ∉ [.store]) :
    (State.setAlt s k).part p = s.part p := by
  simp at h
  simp [State.setAlt, h]

@[simp] theorem State.headerCheck_part (s : State) {p : Part} (h : p ∉ [.boot, .dev, .mp, .store]) :
    (State.headerCheck s).part p = s.part p := by
  simp at h
  unfold State.headerCheck
  split
  · extract_lets s1 hd ok s2 order
    have h2 : s2.part p = s.part p := by simp [s2, s1, h]
    split
    · simp [h, h2]
    · extract_lets s3
      have h3 : s3.part p = s2.part p := s2.with_boot_part _ (by simp [h])
      simp [h, h2, h3]
  · rfl

@[simp] theorem State.undoLoad_part (s : State) {p : Part} (h : p ∉ [.boot, .imgSheets, .store]) :
    (State.undoLoad s).part p = s.part p := by
  simp at h
  unfold State.undoLoad
  extract_lets s1 s2 b s3
  have h1 : s1.part p = s.part p := State.part_each _ _ _ _ fun k t => by
    dsimp only
    split <;> simp [h]
  have h2 : s2.part p = s1.part p := State.part_each _ _ _ _ fun k t => by simp [h]
  have h3 (t : State) (x : List (Nat × Nat)) (y : Boot) : ({ t with imgSheets := x, boot := y } : State).part p = t.part p := by
    cases p <;> first | rfl | simp at h
  exact (State.setF_part _ _ _ _ (by simp [h])).trans ((h3 s2 _ _).trans (h2.trans h1))

@[simp] theorem State.imageFail_part (s : State) (r : Reason) (section_ unit check : Nat) {p : Part} (h : p ∉ [.boot, .dev, .imgSheets, .link, .mp, .raised, .store, .trace]) :
    (State.imageFail s r section_ unit check).part p = s.part p := by
  simp at h
  unfold State.imageFail
  split
  · rfl
  · extract_lets s1 s2 s3
    have h3 : s3.part p = s.part p := by simp [s3, s2, s1, h]
    split
    · simp [h, h3]
    · exact (State.setAlt_part _ _ (by simp [h])).trans ((s3.with_boot_part _ (by simp [h])).trans h3)

@[simp] theorem State.imageStream_part (s : State) {p : Part} (h : p ∉ [.store, .imgSheets, .boot, .link, .trace, .raised, .dev, .mp]) : s.imageStream.part p = s.part p := by
  simp at h
  unfold State.imageStream
  split
  · split
    · rfl
    next k _ _ =>
      have hk := s.loadImage_part k (p := p) (by simp [h])
      split
      next he => rw [he] at hk; simp [h, ← hk]
      next he => rw [he] at hk; simp [h, ← hk]
  · rfl

@[simp] theorem State.imagePass_part (s : State) (k : Fin 2) (img : List Nat) {p : Part} (h : p ∉ [.auto, .boot, .dev, .mp, .store]) :
    (State.imagePass s k img).part p = s.part p := by
  simp at h
  unfold State.imagePass
  extract_lets s1 s2 routes refs rules b s3 s4
  have h2 : s2.part p = s.part p := by simp [s2, s1, h]
  have h3 : s3.part p = s2.part p := s2.with_boot_part _ (by simp [h])
  have h4 : s4.part p = s.part p := (State.part_each _ _ _ _ fun r t => by
    split
    · exact (State.setF_part _ _ _ _ (by simp [h])).trans (t.with_auto_part _ (by simp [h]))
    · rfl).trans (h3.trans h2)
  split <;> simp [h, h4]

@[simp] theorem State.imagePost_part (s : State) {p : Part} (h : p ∉ [.auto, .boot, .dev, .imgSheets, .link, .mp, .raised, .store, .trace]) :
    (State.imagePost s).part p = s.part p := by
  simp at h
  unfold State.imagePost
  dsimp only
  repeat' split
  all_goals simp [h]

@[simp] theorem State.bootRestore_part (s : State) {p : Part} (h : ∀ m, p ∉ [.boot, .health, .lanes, .link, .log, .mp, .rails, .raised, .rowDead, .rowMap, .store, .stp, .trace, .gates (some m), .gates none]) :
    (State.bootRestore s).part p = s.part p := by
  simp [forall_and] at h
  unfold State.bootRestore
  dsimp only
  repeat' split
  all_goals simp [h]

@[simp] theorem State.canReady_part (s : State) (n : Can) {p : Part} (h : p ∉ [.can, .store]) :
    (State.canReady s n).part p = s.part p := by
  simp at h
  unfold State.canReady
  extract_lets c x s1 s2
  have h1 : s1.part p = s.part p := s.with_can_part _ (by simp [h])
  have h2 : s2.part p = s.part p := (State.part_each _ _ _ _ fun i t => by split <;> simp [h]).trans h1
  split <;> simp [h, h2]

@[simp] theorem State.clusterReady_part (s : State) (c : Cl) {p : Part} (h : ∀ m, p ∉ [.auto, .axM, .axS, .cl, .grp, .link, .rails, .raised, .store, .stp, .trace, .mc m .atl, .mc m .bstRun, .mc m .closed, .mc m .conv, .mc m .dat, .mc m .est, .mc m .grat, .mc m .loops, .mc m .models, .mc m .precharge, .mc m .pulse, .mc m .pwm, .mc m .ref1, .mc m .ref2, .mc m .sampleNew, .mc m .scar, .mc m .servCnt, .mc m .short, .mc m .spdCnt, .mc m .uA, .mc m .uB, .mc m .vD, .mc m .vQ, .gates (some m)]) :
    (State.clusterReady s c).part p = s.part p := by
  simp [forall_and] at h
  unfold State.clusterReady
  split <;> simp [h]

@[simp] theorem State.ready_part (s : State) {p : Part} (h : ∀ m, p ∉ [.auto, .axM, .axS, .boot, .can, .cl, .dev, .fresh, .grp, .link, .rails, .raised, .sec, .store, .stp, .sync, .trace, .mc m .atl, .mc m .bstRun, .mc m .closed, .mc m .conv, .mc m .dat, .mc m .est, .mc m .grat, .mc m .loops, .mc m .models, .mc m .precharge, .mc m .pulse, .mc m .pwm, .mc m .ref1, .mc m .ref2, .mc m .sampleNew, .mc m .scar, .mc m .servCnt, .mc m .short, .mc m .spdCnt, .mc m .uA, .mc m .uB, .mc m .vD, .mc m .vQ, .gates (some m), .gates none]) :
    (State.ready_ s).part p = s.part p := by
  simp [forall_and] at h
  unfold State.ready_
  extract_lets s1 s2 s3 s4 s5 sv d x s6 s7
  have h5 : s5.part p = s.part p := by simp [s5, s4, s3, s2, s1, h]
  have h6 : s6.part p = s.part p := (d.with_sec_part _ (by simp [h])).trans (by simp [d, h, h5])
  have h7 : s7.part p = s.part p := by simp [s7, h, h6]
  split
  · split
    · simp [h, h7]
    · exact h7
  · rfl

@[simp] theorem State.loadBegin_part (s : State) {p : Part} (h : p ∉ [.boot, .fresh, .mp, .store]) :
    (State.loadBegin s).part p = s.part p := by
  simp at h
  unfold State.loadBegin
  extract_lets b s1 s2 clk s3 dly
  have h2 : s2.part p = s.part p := by
    have h1 : s1.part p = s.part p := s.with_boot_part _ (by simp [h])
    simp only [s2]; split <;> simp [h, h1]
  split
  · simp [s3, h, h2]
  · exact h2

@[simp] theorem State.bootLoad_part (s : State) {p : Part} (h : p ∉ [.boot, .fresh, .mp, .status, .store]) :
    (State.bootLoad s).part p = s.part p := by
  simp at h
  simp [State.bootLoad, h]

@[simp] theorem State.autoFirst_part (s : State) (c : Cl) {p : Part} (h : ∀ m, p ∉ [.auto, .axM, .axS, .cl, .grp, .link, .rails, .raised, .status, .store, .stp, .trace, .mc m .atl, .mc m .bstRun, .mc m .closed, .mc m .conv, .mc m .dat, .mc m .est, .mc m .grat, .mc m .loops, .mc m .models, .mc m .precharge, .mc m .pulse, .mc m .pwm, .mc m .ref1, .mc m .ref2, .mc m .sampleNew, .mc m .scar, .mc m .servCnt, .mc m .short, .mc m .spdCnt, .mc m .uA, .mc m .uB, .mc m .vD, .mc m .vQ, .gates (some m)]) :
    (State.autoFirst s c).part p = s.part p := by
  simp [forall_and] at h
  simp [State.autoFirst, h]

@[simp] theorem State.autoAgain_part (s : State) (c : Cl) {p : Part} (h : ∀ m, p ∉ [.auto, .axM, .axS, .cl, .grp, .link, .rails, .raised, .status, .store, .stp, .trace, .mc m .atl, .mc m .bstRun, .mc m .closed, .mc m .conv, .mc m .dat, .mc m .est, .mc m .grat, .mc m .loops, .mc m .models, .mc m .precharge, .mc m .pulse, .mc m .pwm, .mc m .ref1, .mc m .ref2, .mc m .sampleNew, .mc m .scar, .mc m .servCnt, .mc m .short, .mc m .spdCnt, .mc m .uA, .mc m .uB, .mc m .vD, .mc m .vQ, .gates (some m)]) :
    (State.autoAgain s c).part p = s.part p := by
  simp [forall_and] at h
  simp [State.autoAgain, h]

@[simp] theorem State.autoHold_part (s : State) (hold : Bool) {p : Part} (h : ∀ m, p ∉ [.auto, .axM, .axS, .cl, .grp, .link, .rails, .raised, .status, .store, .stp, .trace, .mc m .atl, .mc m .bstRun, .mc m .closed, .mc m .conv, .mc m .dat, .mc m .est, .mc m .grat, .mc m .loops, .mc m .models, .mc m .precharge, .mc m .pulse, .mc m .pwm, .mc m .ref1, .mc m .ref2, .mc m .sampleNew, .mc m .scar, .mc m .servCnt, .mc m .short, .mc m .spdCnt, .mc m .uA, .mc m .uB, .mc m .vD, .mc m .vQ, .gates (some m)]) :
    (State.autoHold s hold).part p = s.part p := by
  simp [forall_and] at h
  unfold State.autoHold
  dsimp only
  repeat' split
  all_goals simp [h]

@[simp] theorem State.coldEnd_part (s : State) (c : Cl) {p : Part} (h : ∀ m, p ∉ [.auto, .axM, .axS, .cl, .grp, .link, .rails, .raised, .status, .store, .stp, .trace, .mc m .atl, .mc m .bstRun, .mc m .closed, .mc m .conv, .mc m .dat, .mc m .est, .mc m .grat, .mc m .loops, .mc m .models, .mc m .precharge, .mc m .pulse, .mc m .pwm, .mc m .ref1, .mc m .ref2, .mc m .sampleNew, .mc m .scar, .mc m .servCnt, .mc m .short, .mc m .spdCnt, .mc m .uA, .mc m .uB, .mc m .vD, .mc m .vQ, .gates (some m)]) :
    (State.coldEnd s c).part p = s.part p := by
  simp [forall_and] at h
  unfold State.coldEnd
  extract_lets s1 st cs t
  have h1 : s1.part p = s.part p := by simp [s1, h]
  split
  · split
    · exact h1
    · refine (State.with_status_part _ _ (by simp [h])).trans ?_
      simp [t, h, h1]
  · exact h1

@[simp] theorem State.gatePhaseEnd_part (s : State) (o : Fin 40) {p : Part} (h : ∀ m, p ∉ [.link, .raised, .store, .trace, .mc m .models, .mc m .pwm, .mc m .scar, .mc m .short, .mc m .vD, .mc m .vQ, .gates (gateOwner o), .gates (some m)]) :
    (State.gatePhaseEnd s o).part p = s.part p := by
  simp [forall_and] at h
  unfold State.gatePhaseEnd
  repeat' split
  all_goals simp [h]

@[simp] theorem State.softOffEnd_part (s : State) (o : Fin 40) {p : Part} (h : ∀ m, p ∉ [.link, .raised, .store, .trace, .mc m .models, .mc m .pwm, .mc m .scar, .mc m .short, .mc m .vD, .mc m .vQ, .gates (gateOwner o), .gates (some m)]) :
    (State.softOffEnd s o).part p = s.part p := by
  simp [forall_and] at h
  simp [State.softOffEnd, h]

@[simp] theorem State.outTrip_part (s : State) (o : Fin 40) (hard : Bool) (after : Nat) {p : Part} (h : ∀ m, p ∉ [.link, .rails, .raised, .rg, .store, .trace, .mc m .hardAt, .mc m .loops, .mc m .models, .mc m .short, .mc m .vD, .mc m .vQ, .gates (gateOwner o), .gates (some m), .gates none]) :
    (State.outTrip s o hard after).part p = s.part p := by
  simp [forall_and] at h
  unfold State.outTrip
  repeat' split
  all_goals simp [h]

@[simp] theorem State.desatTrip_part (s : State) (o : Fin 40) {p : Part} (h : ∀ m, p ∉ [.link, .rails, .raised, .rg, .store, .trace, .mc m .hardAt, .mc m .loops, .mc m .models, .mc m .short, .mc m .vD, .mc m .vQ, .gates (gateOwner o), .gates (some m), .gates none]) :
    (State.desatTrip s o).part p = s.part p := by
  simp [forall_and] at h
  simp [State.desatTrip, h]

@[simp] theorem State.hardTrip_part (s : State) (o : Fin 40) {p : Part} (h : ∀ m, p ∉ [.link, .rails, .raised, .rg, .store, .trace, .mc m .hardAt, .mc m .loops, .mc m .models, .mc m .short, .mc m .vD, .mc m .vQ, .gates (gateOwner o), .gates (some m), .gates none]) :
    (State.hardTrip s o).part p = s.part p := by
  simp [forall_and] at h
  simp [State.hardTrip, h]

@[simp] theorem State.gateLate_part (s : State) (o : Fin 40) {p : Part} (h : ∀ m, p ∉ [.health, .link, .raised, .store, .trace, .mc m .models, .mc m .pwm, .mc m .scar, .mc m .short, .mc m .vD, .mc m .vQ, .gates (some m)]) :
    (State.gateLate s o).part p = s.part p := by
  simp [forall_and] at h
  unfold State.gateLate
  split <;> simp [h]

@[simp] theorem State.prechargeEnd_part (s : State) (n : Mcn) {p : Part} (h : ∀ m, p ∉ [.grp, .link, .raised, .store, .trace, .mc m .models, .mc n .precharge, .mc n .short, .mc n .vD, .mc n .vQ, .gates (some n)]) :
    (State.prechargeEnd s n).part p = s.part p := by
  simp [forall_and] at h
  simp [State.prechargeEnd, h]

@[simp] theorem State.knownClear_part (s : State) (n : Mcn) {p : Part} (h : p ∉ [.status, .store]) :
    (State.knownClear s n).part p = s.part p := by
  simp at h
  simp [State.knownClear, h]

@[simp] theorem State.holdPumpOut_part (s : State) (n : Mcn) {p : Part} (h : ∀ m, p ∉ [.link, .raised, .store, .trace, .mc m .models, .mc n .short, .mc n .vD, .mc n .vQ, .gates (some n)]) :
    (State.holdPumpOut s n).part p = s.part p := by
  simp [forall_and] at h
  unfold State.holdPumpOut
  split <;> simp [h]

@[simp] theorem State.chopMinEnd_part (s : State) (r : Rg) {p : Part} (h : ∀ m, p ∉ [.rg, .store, .mc m .models, .gates none]) :
    (State.chopMinEnd s r).part p = s.part p := by
  simp [forall_and] at h
  simp [State.chopMinEnd, h]

@[simp] theorem State.ov2End_part (s : State) (r : Rg) {p : Part} (h : ∀ m, p ∉ [.link, .rails, .raised, .store, .trace, .mc m .conv, .mc m .est, .mc m .loops, .mc m .models, .mc m .pwm, .mc m .scar, .mc m .short, .mc m .vD, .mc m .vQ, .gates (some m)]) :
    (State.ov2End s r).part p = s.part p := by
  simp [forall_and] at h
  simp [State.ov2End, h]

@[simp] theorem State.ov3Clear_part (s : State) (r : Rg) {p : Part} (h : ∀ m, p ∉ [.fresh, .link, .rails, .raised, .rg, .status, .store, .trace, .mc m .models, .mc m .pwm, .mc m .scar, .mc m .short, .mc m .vD, .mc m .vQ, .gates (some m), .gates none]) :
    (State.ov3Clear s r).part p = s.part p := by
  simp [forall_and] at h
  obtain ⟨y, hy⟩ : ∃ y, y = if (s.rg[r]).vsTop < 2 then s.answer .ok else (s.answer .ok).drawn := ⟨_, rfl⟩
  have hdrawn : y.part p = s.part p := by
    rw [hy]
    split <;> simp [h]
  unfold State.ov3Clear
  dsimp only
  rw [show (s.answer .ok).rg = s.rg from rfl, ← hy]
  split
  · split
    · simp [h, hdrawn]
    · exact hdrawn
  · simp [h]

@[simp] theorem State.chopClear_part (s : State) (r : Rg) {p : Part} (h : p ∉ [.rails, .status, .store, .gates none]) :
    (State.chopClear s r).part p = s.part p := by
  simp at h
  unfold State.chopClear
  dsimp only
  split <;> simp [h]

@[simp] theorem State.chopCheck_part (s : State) (r : Rg) (before after : Nat) {p : Part} (h : ∀ m, p ∉ [.link, .rails, .raised, .rg, .store, .trace, .mc m .loops, .mc m .models, .mc m .short, .mc m .vD, .mc m .vQ, .mc m .vsCode, .gates (some m), .gates none]) :
    (State.chopCheck s r before after).part p = s.part p := by
  simp [forall_and] at h
  simp [State.chopCheck, h]

@[simp] theorem State.rbsRise_part (s : State) (r : Rg) {p : Part} (h : ∀ m, p ∉ [.rg, .store, .mc m .models, .gates none]) :
    (State.rbsRise s r).part p = s.part p := by
  simp [forall_and] at h
  simp [State.rbsRise, h]

@[simp] theorem State.rbsFall_part (s : State) (r : Rg) {p : Part} (h : ∀ m, p ∉ [.rg, .store, .mc m .models, .gates none]) :
    (State.rbsFall s r).part p = s.part p := by
  simp [forall_and] at h
  simp [State.rbsFall, h]

@[simp] theorem State.rbsReverse_part (s : State) (r : Rg) {p : Part} (h : ∀ m, p ∉ [.link, .rails, .raised, .rg, .store, .trace, .mc m .models, .gates none]) :
    (State.rbsReverse s r).part p = s.part p := by
  simp [forall_and] at h
  simp [State.rbsReverse, h]

@[simp] theorem State.rbsRecover_part (s : State) (r : Rg) {p : Part} (h : ∀ m, p ∉ [.rails, .rg, .store, .mc m .models, .gates none]) :
    (State.rbsRecover s r).part p = s.part p := by
  simp [forall_and] at h
  simp [State.rbsRecover, h]

@[simp] theorem State.modSec_part (s : State) (g : Sec → Sec) {p : Part} (h : p ∉ [.sec]) :
    (State.modSec s g).part p = s.part p := by
  exact s.with_sec_part _ h

@[simp] theorem State.secResult_part (s : State) (r : Nat) {p : Part} (h : p ∉ [.status, .store]) :
    (State.secResult s r).part p = s.part p := by
  simp at h
  simp [State.secResult, h]

@[simp] theorem State.keyBufClear_part (s : State) {p : Part} (h : p ∉ [.store]) :
    (State.keyBufClear s).part p = s.part p := by
  simp at h
  simp [State.keyBufClear, h]

@[simp] theorem State.putSlot_part (s : State) (i : Fin 16) (k : KeySlot) {p : Part} (h : p ∉ [.sec]) :
    (State.putSlot s i k).part p = s.part p := by
  simp at h
  simp [State.putSlot, h]

@[simp] theorem State.secProgram_part (s : State) (arg : Word) (otpOk : Bool) {p : Part} (h : p ∉ [.sec, .status, .store]) :
    (State.secProgram s arg otpOk).part p = s.part p := by
  simp at h
  simp [State.secProgram, h]

@[simp] theorem State.secSeal_part (s : State) (otpOk : Bool) {p : Part} (h : p ∉ [.sec, .status, .store]) :
    (State.secSeal s otpOk).part p = s.part p := by
  simp at h
  simp [State.secSeal, h]

@[simp] theorem State.slotBurn_part (s : State) (i : Fin 16) {p : Part} (h : p ∉ [.fresh, .sec]) :
    (State.slotBurn s i).part p = s.part p := by
  simp at h
  unfold State.slotBurn
  repeat' split
  all_goals simp [h]

@[simp] theorem State.secRetire_part (s : State) (otpOk : Bool) {p : Part} (h : p ∉ [.fresh, .sec, .status, .store]) :
    (State.secRetire s otpOk).part p = s.part p := by
  simp at h
  simp [State.secRetire, h]

@[simp] theorem State.secRevoke_part (s : State) (arg : Word) (otpOk : Bool) {p : Part} (h : p ∉ [.sec, .status, .store]) :
    (State.secRevoke s arg otpOk).part p = s.part p := by
  simp at h
  simp [State.secRevoke, h]

@[simp] theorem State.secAdvance_part (s : State) (otpOk : Bool) {p : Part} (h : p ∉ [.sec, .status, .store]) :
    (State.secAdvance s otpOk).part p = s.part p := by
  simp at h
  simp [State.secAdvance, h]

@[simp] theorem State.secCmd_part (s : State) (w : Word) {p : Part} (h : p ∉ [.fresh, .sec, .status, .store]) :
    (State.secCmd s w).part p = s.part p := by
  simp at h
  unfold State.secCmd
  split <;> simp [h]

@[simp] theorem State.trngRead_part (s : State) {p : Part} (h : p ∉ [.fresh, .sec]) :
    (State.trngRead s).1.part p = s.part p := by
  simp at h
  unfold State.trngRead
  dsimp only
  repeat' split
  all_goals simp [h]

@[simp] theorem State.trngFails_part (s : State) {p : Part} (h : p ∉ [.sec]) :
    (State.trngFails s).part p = s.part p := by
  simp at h
  simp [State.trngFails, h]

@[simp] theorem State.authRefuse_part (s : State) {p : Part} (h : p ∉ [.link, .raised, .sec, .store, .trace]) :
    (State.authRefuse s).part p = s.part p := by
  simp at h
  simp [State.authRefuse, h]

@[simp] theorem State.authCheck_part (s : State) (fv : Nat) (ws : List Nat) (mac : Nat × Nat) {p : Part} (h : p ∉ [.link, .raised, .sec, .store, .trace]) :
    (State.authCheck s fv ws mac).1.part p = s.part p := by
  simp at h
  unfold State.authCheck
  dsimp only
  repeat' split
  all_goals simp [h]

@[simp] theorem State.lockoutEnd_part (s : State) {p : Part} (h : p ∉ [.sec]) :
    (State.lockoutEnd s).part p = s.part p := by
  simp at h
  simp [State.lockoutEnd, h]

@[simp] theorem State.modCan_part (s : State) (n : Can) (g : CanC → CanC) {p : Part} (h : p ∉ [.can]) :
    (State.modCan s n g).part p = s.part p := by
  exact s.with_can_part _ h

@[simp] theorem State.modTx_part (s : State) (n : Can) (b : Fin 32) (g : TxBuf → TxBuf) {p : Part} (h : p ∉ [.can]) :
    (State.modTx s n b g).part p = s.part p := by
  simp at h
  simp [State.modTx, h]

@[simp] theorem State.modRoute_part (s : State) (n : Can) (i : Fin 32) (g : RouteSt → RouteSt) {p : Part} (h : p ∉ [.can]) :
    (State.modRoute s n i g).part p = s.part p := by
  simp at h
  simp [State.modRoute, h]

@[simp] theorem State.cset_part (s : State) (n : Can) (f : Fld) (v : Nat) {p : Part} (h : p ∉ [.store]) :
    (State.cset s n f v).part p = s.part p := by
  simp at h
  simp [State.cset, h]

@[simp] theorem State.cinc_part (s : State) (n : Can) (f : Fld) {p : Part} (h : p ∉ [.store]) :
    (State.cinc s n f).part p = s.part p := by
  simp at h
  simp [State.cinc, h]

@[simp] theorem State.canState_part (s : State) (n : Can) {p : Part} (h : p ∉ [.store]) :
    (State.canState s n).part p = s.part p := by
  simp at h
  simp [State.canState, h]

@[simp] theorem State.noteErr_part (s : State) (n : Can) (e : BusErr) (dataPhase : Bool) {p : Part} (h : p ∉ [.store]) :
    (State.noteErr s n e dataPhase).part p = s.part p := by
  simp at h
  simp [State.noteErr, h]

@[simp] theorem State.rxError_part (s : State) (n : Can) (e : BusErr) (dataPhase flagDom : Bool) {p : Part} (h : p ∉ [.store]) :
    (State.rxError s n e dataPhase flagDom).part p = s.part p := by
  simp at h
  simp [State.rxError, h]

@[simp] theorem State.rxGood_part (s : State) (n : Can) {p : Part} (h : p ∉ [.fresh, .store]) :
    (State.rxGood s n).part p = s.part p := by
  simp at h
  simp [State.rxGood, h]

@[simp] theorem State.txOut_part (s : State) (n : Can) (out : Nat) (b : Fin 32) {p : Part} (h : p ∉ [.can, .store]) :
    (State.txOut s n out b).part p = s.part p := by
  simp at h
  simp [State.txOut, h]

@[simp] theorem State.txOutAll_part (s : State) (n : Can) (out : Nat) {p : Part} (h : p ∉ [.can, .store]) :
    (State.txOutAll s n out).part p = s.part p := by
  simp at h
  simp [State.txOutAll, h]

@[simp] theorem State.canBusOff_part (s : State) (n : Can) {p : Part} (h : p ∉ [.can, .link, .rails, .raised, .store, .trace]) :
    (State.canBusOff s n).part p = s.part p := by
  simp at h
  simp [State.canBusOff, h]

@[simp] theorem State.canRecoverCmd_part (s : State) (n : Can) {p : Part} (h : p ∉ [.status, .store]) :
    (State.canRecoverCmd s n).part p = s.part p := by
  simp at h
  simp [State.canRecoverCmd, h]

@[simp] theorem State.canRecovered_part (s : State) (n : Can) {p : Part} (h : p ∉ [.rails, .store]) :
    (State.canRecovered s n).part p = s.part p := by
  simp at h
  simp [State.canRecovered, h]

@[simp] theorem State.ackSeen_part (s : State) (n : Can) {p : Part} (h : p ∉ [.can, .rails, .store]) :
    (State.ackSeen s n).part p = s.part p := by
  simp at h
  simp [State.ackSeen, h]

@[simp] theorem State.txError_part (s : State) (n : Can) (e : BusErr) (dataPhase flagDom : Bool) {p : Part} (h : p ∉ [.can, .link, .rails, .raised, .store, .trace]) :
    (State.txError s n e dataPhase flagDom).part p = s.part p := by
  simp at h
  simp [State.txError, h]

@[simp] theorem State.txGood_part (s : State) (n : Can) {p : Part} (h : p ∉ [.can, .rails, .store]) :
    (State.txGood s n).part p = s.part p := by
  simp at h
  simp [State.txGood, h]

@[simp] theorem State.canApplyMode_part (s : State) (n : Can) (m : Nat) {p : Part} (h : p ∉ [.can, .rails, .store]) :
    (State.canApplyMode s n m).part p = s.part p := by
  simp at h
  simp [State.canApplyMode, h]

@[simp] theorem State.canModeCmd_part (s : State) (n : Can) (m : Nat) {p : Part} (h : p ∉ [.can, .rails, .status, .store]) :
    (State.canModeCmd s n m).part p = s.part p := by
  simp at h
  unfold State.canModeCmd
  dsimp only
  repeat' split
  all_goals simp [h]

@[simp] theorem State.canModeDue_part (s : State) (n : Can) {p : Part} (h : p ∉ [.can, .rails, .store]) :
    (State.canModeDue s n).part p = s.part p := by
  simp at h
  unfold State.canModeDue
  split <;> simp [h]

@[simp] theorem State.canJoins_part (s : State) (n : Can) {p : Part} (h : p ∉ [.can, .store]) :
    (State.canJoins s n).part p = s.part p := by
  simp at h
  simp [State.canJoins, h]

@[simp] theorem State.canRxError_part (s : State) (n : Can) (e : BusErr) (dataPhase flagDom : Bool) {p : Part} (h : p ∉ [.store]) :
    (State.canRxError s n e dataPhase flagDom).part p = s.part p := by
  simp at h
  simp [State.canRxError, h]

@[simp] theorem State.putElem_part (s : State) (a size : Nat) (f : Frame) (idx stamp : Nat) {p : Part} (h : p ∉ [.fresh, .store]) :
    (State.putElem s a size f idx stamp).part p = s.part p := by
  simp at h
  unfold State.putElem
  dsimp only
  repeat' split
  all_goals simp [h]

@[simp] theorem State.rxLoss_part (s : State) (n : Can) (b : Nat) {p : Part} (h : p ∉ [.store]) :
    (State.rxLoss s n b).part p = s.part p := by
  simp at h
  simp [State.rxLoss, h]

@[simp] theorem State.rxStore_part (s : State) (n : Can) (b : Nat) (f : Frame) (idx stamp : Nat) {p : Part} (h : p ∉ [.fresh, .store]) :
    (State.rxStore s n b f idx stamp).part p = s.part p := by
  simp at h
  simp [State.rxStore, h]

@[simp] theorem State.rxBuffer_part (s : State) (n : Can) (b : Nat) (f : Frame) (idx stamp : Nat) {p : Part} (h : p ∉ [.can, .fresh, .store]) :
    (State.rxBuffer s n b f idx stamp).part p = s.part p := by
  simp at h
  unfold State.rxBuffer
  repeat' split
  all_goals simp [h]

@[simp] theorem State.slotFlush_part (s : State) (n : Can) {p : Part} (h : p ∉ [.can, .fresh, .store]) :
    (State.slotFlush s n).part p = s.part p := by
  simp at h
  unfold State.slotFlush
  split <;> simp [h]

@[simp] theorem State.rxFifo_part (s : State) (n : Can) (k : Fin 2) (f : Frame) (idx stamp : Nat) {p : Part} (h : p ∉ [.fresh, .store]) :
    (State.rxFifo s n k f idx stamp).part p = s.part p := by
  simp at h
  simp [State.rxFifo, h]

@[simp] theorem State.fifoGet_part (s : State) (n : Can) (k : Fin 2) (v : Nat) {p : Part} (h : p ∉ [.store]) :
    (State.fifoGet s n k v).part p = s.part p := by
  simp at h
  simp [State.fifoGet, h]

@[simp] theorem State.setLock_part (s : State) (x1 : Fin 4) (l : Option (Fin 3 × Fin 3 × Nat)) {p : Part} (h : p ∉ [.can, .fresh, .ports, .store]) :
    (State.setLock s x1 l).part p = s.part p := by
  simp at h
  exact (State.part_each _ _ _ _ fun n t => t.slotFlush_part n (by simp [h])).trans (s.with_ports_part _ (by simp [h]))

@[simp] theorem State.ramTouch_part (s : State) (x1 : Fin 4) (i : Nat) {p : Part} (h : p ∉ [.can, .fresh, .ports, .store]) :
    (State.ramTouch s x1 i).part p = s.part p := by
  simp at h
  unfold State.ramTouch
  repeat' split
  all_goals simp [h]

@[simp] theorem State.stageRoute_part (s : State) (n : Can) (a : Axis) (tgt : Option Int) (vel : Int) {p : Part} (h : p ∉ [.store]) :
    (State.stageRoute s n a tgt vel).part p = s.part p := by
  simp at h
  unfold State.stageRoute
  split <;> simp [h]

@[simp] theorem State.convWrite_part (s : State) (m : Mcn) (f : Fld) (v : Nat) {p : Part} (h : p ∉ [.status, .store]) :
    (State.convWrite s m f v).part p = s.part p := by
  simp at h
  simp [State.convWrite, h]

@[simp] theorem State.clusterCmd_part (s : State) (c : Cl) (k : Nat) {p : Part} (h : ∀ m, p ∉ [.auto, .axM, .axS, .cl, .grp, .link, .rails, .raised, .status, .store, .stp, .trace, .mc m .atl, .mc m .bstRun, .mc m .closed, .mc m .conv, .mc m .dat, .mc m .dieSafe, .mc m .est, .mc m .grat, .mc m .loops, .mc m .models, .mc m .precharge, .mc m .pulse, .mc m .pwm, .mc m .ref1, .mc m .ref2, .mc m .sampleNew, .mc m .scar, .mc m .servCnt, .mc m .short, .mc m .spdCnt, .mc m .uA, .mc m .uB, .mc m .vD, .mc m .vQ, .gates (some m)]) :
    (State.clusterCmd s c k).part p = s.part p := by
  simp [forall_and] at h
  unfold State.clusterCmd
  split <;> simp [h]

@[simp] theorem State.setRouteW4_part (s : State) (n : Can) (i w : Nat) {p : Part} (h : p ∉ [.store]) :
    (State.setRouteW4 s n i w).part p = s.part p := by
  simp at h
  simp [State.setRouteW4, h]

@[simp] theorem State.routeRefused_part (s : State) (n : Can) (i : Nat) (st : Status) {p : Part} (h : p ∉ [.store]) :
    (State.routeRefused s n i st).part p = s.part p := by
  simp at h
  simp [State.routeRefused, h]

theorem State.routeCmd_part {s t : State} {n : Can} {k x : Nat} {v : Int} (hr : s.routeCmd n k x v = some t) {p : Part} (h : ∀ m, p ∉ [.auto, .axM, .axS, .can, .cl, .grp, .link, .rails, .raised, .status, .store, .stp, .trace, .mc m .atl, .mc m .bstRun, .mc m .closed, .mc m .conv, .mc m .dat, .mc m .dieSafe, .mc m .est, .mc m .grat, .mc m .loops, .mc m .models, .mc m .precharge, .mc m .pulse, .mc m .pwm, .mc m .ref1, .mc m .ref2, .mc m .sampleNew, .mc m .scar, .mc m .servCnt, .mc m .short, .mc m .spdCnt, .mc m .uA, .mc m .uB, .mc m .vD, .mc m .vQ, .gates (some m)]) :
    t.part p = s.part p := by
  simp [forall_and] at h
  unfold State.routeCmd at hr
  split at hr
  · split at hr
    · cases hr; simp [h]
    · cases hr
  · split at hr
    · cases hr; simp [h]
    · cases hr
  · split at hr
    · cases hr; split <;> simp [h]
    · cases hr
  · split at hr
    · cases hr; simp [h]
    · cases hr
  · split at hr
    · cases hr; simp [h]
    · cases hr
  · cases hr

@[simp] theorem State.routeIssue_part (s : State) (n : Can) (i : Fin 32) (w0 : Nat) (v : Int) {p : Part} (h : ∀ m, p ∉ [.auto, .axM, .axS, .can, .cl, .grp, .link, .rails, .raised, .status, .store, .stp, .trace, .mc m .atl, .mc m .bstRun, .mc m .closed, .mc m .conv, .mc m .dat, .mc m .dieSafe, .mc m .est, .mc m .grat, .mc m .loops, .mc m .models, .mc m .precharge, .mc m .pulse, .mc m .pwm, .mc m .ref1, .mc m .ref2, .mc m .sampleNew, .mc m .scar, .mc m .servCnt, .mc m .short, .mc m .spdCnt, .mc m .uA, .mc m .uB, .mc m .vD, .mc m .vQ, .gates (some m)]) : (s.routeIssue n i w0 v).part p = s.part p := by
  unfold State.routeIssue
  extract_lets kind t what again
  split
  · split
    · rfl
    next s' hs =>
      have h' := State.routeCmd_part hs h
      simp [forall_and] at h
      extract_lets st s1 s2 s3
      split
      · simp [s1, h, h']
      · have h3 : s3.part p = s.part p := by
          simp only [s3, s2]
          split
          · split <;> simp [h, h']
          · simp [h, h']
        split <;> simp [h, h3]
  · rfl

@[simp] theorem State.routeFrame_part (s : State) (n : Can) (k : Nat) (f : Frame) {p : Part} (h : ∀ m, p ∉ [.auto, .axM, .axS, .can, .cl, .grp, .link, .rails, .raised, .status, .store, .stp, .trace, .mc m .atl, .mc m .bstRun, .mc m .closed, .mc m .conv, .mc m .dat, .mc m .dieSafe, .mc m .est, .mc m .grat, .mc m .loops, .mc m .models, .mc m .precharge, .mc m .pulse, .mc m .pwm, .mc m .ref1, .mc m .ref2, .mc m .sampleNew, .mc m .scar, .mc m .servCnt, .mc m .short, .mc m .spdCnt, .mc m .uA, .mc m .uB, .mc m .vD, .mc m .vQ, .gates (some m)]) : (s.routeFrame n k f).part p = s.part p := by
  have h' := h
  simp [forall_and] at h
  unfold State.routeFrame
  split
  · extract_lets i a w0 bs secure fv
    split
    · rfl
    · split
      · simp [h]
      · clear_value fv
        cases fv with
        | none => simp [h]
        | some fv =>
          dsimp only
          generalize hs : (if secure = true then _ else s : State) = s1
          have h1 : s1.part p = s.part p := by rw [← hs]; split <;> simp [h]
          split
          · simp [h, h1]
          · refine (State.with_status_part _ _ (by simp [h])).trans ?_
            simp [h, h1]
  · rfl

@[simp] theorem State.timeoutAct_part (s : State) (w0 : Nat) {p : Part} (h : ∀ m, p ∉ [.auto, .axM, .axS, .cl, .grp, .link, .rails, .raised, .status, .store, .stp, .trace, .mc m .atl, .mc m .bstRun, .mc m .closed, .mc m .conv, .mc m .dat, .mc m .est, .mc m .grat, .mc m .loops, .mc m .models, .mc m .precharge, .mc m .pulse, .mc m .pwm, .mc m .ref1, .mc m .ref2, .mc m .sampleNew, .mc m .scar, .mc m .servCnt, .mc m .short, .mc m .spdCnt, .mc m .uA, .mc m .uB, .mc m .vD, .mc m .vQ, .gates (some m)]) :
    (State.timeoutAct s w0).part p = s.part p := by
  simp [forall_and] at h
  unfold State.timeoutAct
  dsimp only
  repeat' split
  all_goals simp [h]

@[simp] theorem State.routeTimeout_part (s : State) (n : Can) (i : Fin 32) {p : Part} (h : ∀ m, p ∉ [.auto, .axM, .axS, .cl, .grp, .link, .rails, .raised, .status, .store, .stp, .trace, .mc m .atl, .mc m .bstRun, .mc m .closed, .mc m .conv, .mc m .dat, .mc m .est, .mc m .grat, .mc m .loops, .mc m .models, .mc m .precharge, .mc m .pulse, .mc m .pwm, .mc m .ref1, .mc m .ref2, .mc m .sampleNew, .mc m .scar, .mc m .servCnt, .mc m .short, .mc m .spdCnt, .mc m .uA, .mc m .uB, .mc m .vD, .mc m .vQ, .gates (some m)]) :
    (State.routeTimeout s n i).part p = s.part p := by
  simp [forall_and] at h
  unfold State.routeTimeout
  extract_lets a w0 w4 s1 st t
  split
  · refine (State.with_status_part _ _ (by simp [h])).trans ?_
    simp [t, s1, h]
  · rfl

@[simp] theorem State.frameDest_part (s : State) (n : Can) (f : Frame) (stamp : Nat) {p : Part} (h : ∀ m, p ∉ [.auto, .axM, .axS, .can, .cl, .fresh, .grp, .link, .rails, .raised, .status, .store, .stp, .trace, .mc m .atl, .mc m .bstRun, .mc m .closed, .mc m .conv, .mc m .dat, .mc m .dieSafe, .mc m .est, .mc m .grat, .mc m .loops, .mc m .models, .mc m .precharge, .mc m .pulse, .mc m .pwm, .mc m .ref1, .mc m .ref2, .mc m .sampleNew, .mc m .scar, .mc m .servCnt, .mc m .short, .mc m .spdCnt, .mc m .uA, .mc m .uB, .mc m .vD, .mc m .vQ, .gates (some m)]) :
    (State.frameDest s n f stamp).part p = s.part p := by
  simp [forall_and] at h
  unfold State.frameDest
  dsimp only
  repeat' split
  all_goals simp [h]

@[simp] theorem State.putTxBytes_part (s : State) (n : Can) (b : Nat) (bs : List Nat) {p : Part} (h : p ∉ [.store]) :
    (State.putTxBytes s n b bs).part p = s.part p := by
  simp at h
  simp [State.putTxBytes, h]

@[simp] theorem State.txPend_part (s : State) (n : Can) (b : Fin 32) (single : Bool) {p : Part} (h : p ∉ [.can]) :
    (State.txPend s n b single).part p = s.part p := by
  simp at h
  simp [State.txPend, h]

@[simp] theorem State.txRequest_part (s : State) (n : Can) (b : Fin 32) (single : Bool) {p : Part} (h : p ∉ [.can, .fresh, .link, .raised, .store, .trace]) :
    (State.txRequest s n b single).part p = s.part p := by
  simp at h
  unfold State.txRequest
  split
  · rfl
  · extract_lets w1 r a w0 bs fv
    split
    · split
      · split
        · simp [h]
        · split
          · rfl
          · extract_lets s1 s2 s3
            have h3 : s3.part p = s.part p := (s2.with_fresh_part _ (by simp [h])).trans (by simp [s2, s1, h])
            refine (State.txPend_part _ _ _ _ (by simp [h])).trans ?_
            split <;> simp [h, h3]
      · simp [h]
    · simp [h]

@[simp] theorem State.txReqCmd_part (s : State) (n : Can) (w : Word) {p : Part} (h : p ∉ [.can, .fresh, .link, .raised, .status, .store, .trace]) :
    (State.txReqCmd s n w).part p = s.part p := by
  simp at h
  simp [State.txReqCmd, h]

@[simp] theorem State.txPeriod_part (s : State) (n : Can) (b : Fin 32) {p : Part} (h : p ∉ [.can, .fresh, .link, .raised, .store, .trace]) :
    (State.txPeriod s n b).part p = s.part p := by
  simp at h
  simp [State.txPeriod, h]

@[simp] theorem State.txCancelCmd_part (s : State) (n : Can) (w : Word) {p : Part} (h : p ∉ [.can, .fresh, .status, .store]) :
    (State.txCancelCmd s n w).part p = s.part p := by
  simp at h
  simp [State.txCancelCmd, h]

@[simp] theorem State.loopIn_part (s : State) (n : Can) (f : Frame) {p : Part} (h : ∀ m, p ∉ [.auto, .axM, .axS, .can, .cl, .fresh, .grp, .link, .rails, .raised, .status, .store, .stp, .trace, .mc m .atl, .mc m .bstRun, .mc m .closed, .mc m .conv, .mc m .dat, .mc m .dieSafe, .mc m .est, .mc m .grat, .mc m .loops, .mc m .models, .mc m .precharge, .mc m .pulse, .mc m .pwm, .mc m .ref1, .mc m .ref2, .mc m .sampleNew, .mc m .scar, .mc m .servCnt, .mc m .short, .mc m .spdCnt, .mc m .uA, .mc m .uB, .mc m .vD, .mc m .vQ, .gates (some m)]) :
    (State.loopIn s n f).part p = s.part p := by
  simp [forall_and] at h
  unfold State.loopIn
  split
  · unfold State.frameIn
    dsimp only
    split <;> simp [h]
  · rfl

@[simp] theorem State.txFailed_part (s : State) (n : Can) (b : Fin 32) (clash : Bool) {p : Part} (h : p ∉ [.can, .link, .raised, .store, .trace]) :
    (State.txFailed s n b clash).part p = s.part p := by
  simp at h
  simp [State.txFailed, h]

@[simp] theorem State.txBufEnd_part (s : State) (n : Can) (b : Fin 32) (r : TxEnd) {p : Part} (h : ∀ m, p ∉ [.auto, .axM, .axS, .can, .cl, .fresh, .grp, .link, .rails, .raised, .status, .store, .stp, .trace, .mc m .atl, .mc m .bstRun, .mc m .closed, .mc m .conv, .mc m .dat, .mc m .dieSafe, .mc m .est, .mc m .grat, .mc m .loops, .mc m .models, .mc m .precharge, .mc m .pulse, .mc m .pwm, .mc m .ref1, .mc m .ref2, .mc m .sampleNew, .mc m .scar, .mc m .servCnt, .mc m .short, .mc m .spdCnt, .mc m .uA, .mc m .uB, .mc m .vD, .mc m .vQ, .gates (some m)]) :
    (State.txBufEnd s n b r).part p = s.part p := by
  simp [forall_and] at h
  unfold State.txBufEnd
  repeat' split
  all_goals simp [h]

@[simp] theorem State.setOwn_part (s : State) (n : Can) (diag : Bool) (o : Option OwnFrame) {p : Part} (h : p ∉ [.can]) :
    (State.setOwn s n diag o).part p = s.part p := by
  simp at h
  simp [State.setOwn, h]

@[simp] theorem State.txOwnEnd_part (s : State) (n : Can) (diag : Bool) (r : TxEnd) {p : Part} (h : ∀ m, p ∉ [.auto, .axM, .axS, .can, .cl, .fresh, .grp, .link, .rails, .raised, .status, .store, .stp, .trace, .mc m .atl, .mc m .bstRun, .mc m .closed, .mc m .conv, .mc m .dat, .mc m .dieSafe, .mc m .est, .mc m .grat, .mc m .loops, .mc m .models, .mc m .precharge, .mc m .pulse, .mc m .pwm, .mc m .ref1, .mc m .ref2, .mc m .sampleNew, .mc m .scar, .mc m .servCnt, .mc m .short, .mc m .spdCnt, .mc m .uA, .mc m .uB, .mc m .vD, .mc m .vQ, .gates (some m)]) :
    (State.txOwnEnd s n diag r).part p = s.part p := by
  simp [forall_and] at h
  unfold State.txOwnEnd
  repeat' split
  all_goals simp [h]

@[simp] theorem State.txEnd_part (s : State) (n : Can) (w : TxWho) (r : TxEnd) {p : Part} (h : ∀ m, p ∉ [.auto, .axM, .axS, .can, .cl, .fresh, .grp, .link, .rails, .raised, .status, .store, .stp, .trace, .mc m .atl, .mc m .bstRun, .mc m .closed, .mc m .conv, .mc m .dat, .mc m .dieSafe, .mc m .est, .mc m .grat, .mc m .loops, .mc m .models, .mc m .precharge, .mc m .pulse, .mc m .pwm, .mc m .ref1, .mc m .ref2, .mc m .sampleNew, .mc m .scar, .mc m .servCnt, .mc m .short, .mc m .spdCnt, .mc m .uA, .mc m .uB, .mc m .vD, .mc m .vQ, .gates (some m)]) :
    (State.txEnd s n w r).part p = s.part p := by
  simp [forall_and] at h
  unfold State.txEnd
  split <;> simp [h]

@[simp] theorem State.announce_part (s : State) {p : Part} (h : p ∉ [.can, .sec]) :
    (State.announce s).part p = s.part p := by
  simp at h
  unfold State.announce
  extract_lets k x s1
  split
  · extract_lets n
    have h1 : s1.part p = s.part p := s.with_sec_part _ (by simp [h])
    split <;> simp [h, h1]
  · rfl

@[simp] theorem State.refMessage_part (s : State) (n : Can) (cycle : Option (BitVec 8)) {p : Part} (h : p ∉ [.can, .fresh, .link, .raised, .store, .trace]) :
    (State.refMessage s n cycle).part p = s.part p := by
  simp at h
  unfold State.refMessage
  repeat' split
  all_goals simp [h]

@[simp] theorem State.refLost_part (s : State) (n : Can) {p : Part} (h : p ∉ [.store]) :
    (State.refLost s n).part p = s.part p := by
  simp at h
  simp [State.refLost, h]

@[simp] theorem State.schedMark_part (s : State) (n : Can) (col : Nat) {p : Part} (h : p ∉ [.can, .fresh, .link, .raised, .store, .trace]) :
    (State.schedMark s n col).part p = s.part p := by
  simp at h
  simp [State.schedMark, h]

@[simp] theorem State.schedMissed_part (s : State) (n : Can) {p : Part} (h : p ∉ [.can, .store]) :
    (State.schedMissed s n).part p = s.part p := by
  simp at h
  unfold State.schedMissed
  split <;> simp [h]

@[simp] theorem State.latClear_part (s : State) (n : Mcn) {p : Part} (h : p ∉ [.mc n .pwm]) :
    (State.latClear s n).part p = s.part p := by
  simp at h
  simp [State.latClear, h]

@[simp] theorem State.pwmClear_part (s : State) (n : Mcn) {p : Part} (h : p ∉ [.store]) :
    (State.pwmClear s n).part p = s.part p := by
  simp at h
  simp [State.pwmClear, h]

@[simp] theorem State.senClear_part (s : State) (g : Grp) {p : Part} (h : p ∉ [.store]) :
    (State.senClear s g).part p = s.part p := by
  simp at h
  simp [State.senClear, h]

@[simp] theorem State.swTrigger_part (s : State) (g : Grp) (inj : Bool) {p : Part} (h : p ∉ [.grp, .link, .raised, .store, .trace]) :
    (State.swTrigger s g inj).part p = s.part p := by
  simp at h
  simp [State.swTrigger, h]

@[simp] theorem State.senCmd_part (s : State) (g : Grp) (w : Word) {p : Part} (h : p ∉ [.grp, .link, .raised, .store, .trace]) :
    (State.senCmd s g w).part p = s.part p := by
  simp at h
  simp [State.senCmd, h]

@[simp] theorem State.setHold_part (s : State) (x1 : Port) (x2 : Option (Nat × Word)) {p : Part} (h : p ∉ [.ports]) :
    (State.setHold s x1 x2).part p = s.part p := by
  simp at h
  unfold State.setHold
  dsimp only
  repeat' split
  all_goals simp [h]

@[simp] theorem State.readWord_part (s : State) (x1 : Port) (a : Nat) {p : Part} (h : p ∉ [.can, .fresh, .grp, .ports, .range, .sec, .store, .tear]) :
    (State.readWord s x1 a).1.part p = s.part p := by
  simp at h
  unfold State.readWord
  extract_lets v s1
  have h1 : s1.part p = s.part p := by simp [s1, h]
  split
  · exact s.with_range_part _ (by simp [h])
  · split
    · split <;> simp [h, h1]
    · split
      · have ht : ({ s with tear := true } : State).part p = s.part p := s.with_tear_part _ (by simp [h])
        split
        · split
          · rfl
          · exact ht
        · exact ht
      · split
        · simp [h]
        · split <;> simp [h]

@[simp] theorem State.ramWrite_part (s : State) (i : Nat) (w : Word) {p : Part} (h : p ∉ [.can, .status, .store]) :
    (State.ramWrite s i w).part p = s.part p := by
  simp at h
  unfold State.ramWrite
  extract_lets s1
  have h1 : s1.part p = s.part p :=
    State.part_each _ _ _ _ fun n t => State.part_each _ _ _ _ fun b t => by split <;> simp [h]
  split <;> simp [h, h1]

@[simp] theorem State.clCmd_part (s : State) (c : Cl) (w : Word) {p : Part} (h : ∀ m, p ∉ [.auto, .axM, .axS, .cl, .grp, .link, .rails, .raised, .status, .store, .stp, .trace, .mc m .atl, .mc m .bstRun, .mc m .closed, .mc m .conv, .mc m .dat, .mc m .dieSafe, .mc m .est, .mc m .grat, .mc m .loops, .mc m .models, .mc m .precharge, .mc m .pulse, .mc m .pwm, .mc m .ref1, .mc m .ref2, .mc m .sampleNew, .mc m .scar, .mc m .servCnt, .mc m .short, .mc m .spdCnt, .mc m .uA, .mc m .uB, .mc m .vD, .mc m .vQ, .gates (some m)]) :
    (State.clCmd s c w).part p = s.part p := by
  simp [forall_and] at h
  simp [State.clCmd, h]

@[simp] theorem State.moCmd_part (s : State) (x1 : Port) (a : Axis) (w : Word) {p : Part} (h : p ∉ [.axM, .axS, .status, .store]) :
    (State.moCmd s x1 a w).part p = s.part p := by
  simp at h
  unfold State.moCmd
  split <;> simp [h]

@[simp] theorem State.canCtrl_part (s : State) (n : Can) (w : Word) {p : Part} (h : p ∉ [.can, .rails, .status, .store]) :
    (State.canCtrl s n w).part p = s.part p := by
  simp at h
  simp [State.canCtrl, h]

@[simp] theorem State.traceCmd_part (s : State) (u : Fin 4) (w : Word) {p : Part} (h : p ∉ [.store, .trace]) :
    (State.traceCmd s u w).part p = s.part p := by
  simp at h
  simp [State.traceCmd, h]

@[simp] theorem State.bootCtrl_part (s : State) (w : Word) {p : Part} (h : ∀ m, p ∉ [.auto, .axM, .axS, .boot, .cl, .fresh, .grp, .link, .mp, .rails, .raised, .status, .store, .stp, .trace, .mc m .atl, .mc m .bstRun, .mc m .closed, .mc m .conv, .mc m .dat, .mc m .est, .mc m .grat, .mc m .loops, .mc m .models, .mc m .precharge, .mc m .pulse, .mc m .pwm, .mc m .ref1, .mc m .ref2, .mc m .sampleNew, .mc m .scar, .mc m .servCnt, .mc m .short, .mc m .spdCnt, .mc m .uA, .mc m .uB, .mc m .vD, .mc m .vQ, .gates (some m)]) :
    (State.bootCtrl s w).part p = s.part p := by
  simp [forall_and] at h
  simp [State.bootCtrl, h]

@[simp] theorem State.plainWrite_part (s : State) (b : Blk) (o : Nat) (d : RDesc) (a key : Nat) (w : Word) {p : Part} (h : p ∉ [.store]) :
    (State.plainWrite s b o d a key w).part p = s.part p := by
  simp at h
  simp [State.plainWrite, h]

@[simp] theorem readRun_part (x0 : Port) (fuel fuel2 : Nat) (s : State) {p : Part} (h : p ∉ [.can, .fresh, .grp, .ports, .range, .sec, .store, .tear]) :
    (readRun x0 fuel fuel2 s).1.part p = s.part p := by
  simp at h
  induction fuel generalizing s fuel2 with
  | zero => rfl
  | succ fuel ih =>
    unfold readRun
    split
    · exact s.with_range_part _ (by simp [h])
    · exact (ih _ _).trans (s.readWord_part _ _ (by simp [h]))

@[simp] theorem State.hostRead_part (s : State) (a n : Nat) {p : Part} (h : p ∉ [.authed, .can, .data, .fresh, .grp, .ports, .range, .sec, .status, .store, .tear]) :
    (State.hostRead s a n).part p = s.part p := by
  simp at h
  unfold State.hostRead
  split
  · rfl
  · extract_lets s1
    have h1 : s1.part p = s.part p := by
      cases p <;> first | rfl | simp at h
    split
    · simp [h, h1]
    · split
      · simp [h, h1]
      · refine (State.with_data_part _ _ (by simp [h])).trans ?_
        simp [h, h1]

@[simp] theorem State.countRange_part (s : State) {p : Part} (h : p ∉ [.store]) :
    (State.countRange s).part p = s.part p := by
  simp at h
  simp [State.countRange, h]

@[simp] theorem State.diagRead_part (s : State) (n : Can) (a : Nat) {p : Part} (h : p ∉ [.authed, .can, .data, .fresh, .grp, .ports, .range, .sec, .status, .store, .tear]) :
    (State.diagRead s n a).part p = s.part p := by
  simp at h
  unfold State.diagRead
  extract_lets s1
  have h1 : s1.part p = s.part p := by
    cases p <;> first | rfl | simp at h
  split
  · simp [h, h1]
  · refine (State.with_data_part _ _ (by simp [h])).trans ((State.answer_part _ _ (by simp [h])).trans ?_)
    exact (s1.readWord_part _ _ (by simp [h])).trans h1

@[simp] theorem State.portRead_part (s : State) (x1 : Port) (a : Nat) {p : Part} (h : p ∉ [.authed, .can, .data, .fresh, .grp, .ports, .range, .sec, .status, .store, .tear]) :
    (State.portRead s x1 a).part p = s.part p := by
  simp at h
  unfold State.portRead
  split <;> simp [h]

@[simp] theorem State.modSp_part (s : State) (x1 : Fin 2) (g : SensPort → SensPort) {p : Part} (h : p ∉ [.sp]) :
    (State.modSp s x1 g).part p = s.part p := by
  exact s.with_sp_part _ h

@[simp] theorem State.spJudge_part (s : State) (x1 : Fin 2) (w : Nat) {p : Part} (h : p ∉ [.store]) :
    (State.spJudge s x1 w).1.part p = s.part p := by
  simp at h
  simp [State.spJudge, h]

@[simp] theorem State.slaveWord_part (s : State) (x1 : Fin 2) (bits ago : Nat) (w : Word) {p : Part} (h : p ∉ [.sp, .store]) :
    (State.slaveWord s x1 bits ago w).part p = s.part p := by
  simp at h
  simp [State.slaveWord, h]

@[simp] theorem State.sensTransfer_part (s : State) (n : Mcn) (ago : Nat) (w : Word) {p : Part} (h : ∀ m, p ∉ [.link, .rails, .raised, .sp, .store, .trace, .mc m .models, .mc n .dat, .mc n .est, .mc n .grat, .mc n .loops, .mc n .pwm, .mc n .scar, .gates (some n)]) :
    (State.sensTransfer s n ago w).part p = s.part p := by
  simp [forall_and] at h
  unfold State.sensTransfer
  repeat' split
  all_goals simp [h]

@[simp] theorem State.modHp_part (s : State) (g : HostPort → HostPort) {p : Part} (h : p ∉ [.hp]) :
    (State.modHp s g).part p = s.part p := by
  cases p <;> first | rfl | simp at h

@[simp] theorem State.fresh0_part (s : State) {p : Part} (h : p ∉ [.authed, .data, .range, .tear]) :
    (State.fresh0 s).part p = s.part p := by
  cases p <;> first | rfl | simp at h

@[simp] theorem State.mpWait_part (s : State) (op : NvmOp) {p : Part} (h : p ∉ [.mp, .status]) :
    (State.mpWait s op).part p = s.part p := by
  simp at h
  exact (State.with_mp_part _ _ (by simp [h])).trans (by simp [h])

@[simp] theorem State.badPkt_part (s : State) {p : Part} (h : p ∉ [.status, .store]) :
    (State.badPkt s).part p = s.part p := by
  simp at h
  simp [State.badPkt, h]

@[simp] theorem State.opRead_part (s : State) (a n : Nat) {p : Part} (h : p ∉ [.can, .data, .fresh, .grp, .ports, .range, .sec, .status, .store, .tear]) :
    (State.opRead s a n).1.part p = s.part p := by
  simp at h
  exact (State.with_data_part _ _ (by simp [h])).trans (by simp [h])

@[simp] theorem State.opDma_part (s : State) (g : Grp) (n : Nat) {p : Part} (h : p ∉ [.data, .grp, .link, .raised, .status, .store, .trace]) :
    (State.opDma s g n).1.part p = s.part p := by
  simp at h
  exact (State.with_data_part _ _ (by simp [h])).trans (by simp [h])

@[simp] theorem State.opBulkRead_part (s : State) (target a n : Nat) {p : Part} (h : p ∉ [.can, .data, .fresh, .grp, .link, .mp, .ports, .raised, .range, .sec, .status, .store, .tear, .trace]) :
    (State.opBulkRead s target a n).1.part p = s.part p := by
  simp at h
  have hdata (t : State) (x : List Word) : ({ t.answer .ok with data := x } : State).part p = t.part p :=
    (State.with_data_part _ _ (by simp [h])).trans (by simp [h])
  unfold State.opBulkRead
  split
  · simp [h]
  · split
    · simp [h]
    · split
      · simp [h]
      · split
        · exact hdata ..
        · dsimp only
          split
          · exact (hdata ..).trans (by simp [h])
          · simp [h]
        · simp [h]
        · simp [h]
        · split <;> simp [h]

@[simp] theorem State.opErase_part (s : State) (a len : Nat) {p : Part} (h : p ∉ [.mp, .status, .store]) :
    (State.opErase s a len).1.part p = s.part p := by
  simp at h
  unfold State.opErase
  repeat' split
  all_goals simp [h]

@[simp] theorem State.opHoldClr_part (s : State) {p : Part} (h : p ∉ [.ports, .status]) :
    (State.opHoldClr s).1.part p = s.part p := by
  simp at h
  unfold State.opHoldClr
  split <;> simp [h]

@[simp] theorem State.respond_part (s : State) (st : Status) (tear range auth : Bool) (tag count : Nat) (data : List Word) {p : Part} (h : p ∉ [.hp, .store]) :
    (State.respond s st tear range auth tag count data).part p = s.part p := by
  simp at h
  simp [State.respond, h]

@[simp] theorem State.refusePkt_part (s : State) (st : Status) (tag : Nat) {p : Part} (h : p ∉ [.hp, .status, .store]) :
    (State.refusePkt s st tag).part p = s.part p := by
  simp at h
  simp [State.refusePkt, h]

@[simp] theorem State.chainSetpoint_part (s : State) (arg : Nat) {p : Part} (h : ∀ m, p ∉ [.auto, .axM, .axS, .cl, .grp, .link, .rails, .raised, .status, .store, .stp, .trace, .mc m .atl, .mc m .bstRun, .mc m .closed, .mc m .conv, .mc m .dat, .mc m .est, .mc m .grat, .mc m .loops, .mc m .models, .mc m .precharge, .mc m .pulse, .mc m .pwm, .mc m .ref1, .mc m .ref2, .mc m .sampleNew, .mc m .scar, .mc m .servCnt, .mc m .short, .mc m .spdCnt, .mc m .uA, .mc m .uB, .mc m .vD, .mc m .vQ, .gates (some m)]) :
    (State.chainSetpoint s arg).part p = s.part p := by
  simp [forall_and] at h
  unfold State.chainSetpoint
  extract_lets v mk note k
  have hn (c : Cl) (t : State) : (note c t).part p = t.part p := by simp only [note]; split <;> simp [h]
  split
  · extract_lets n a
    rw [hn]
    split
    · split <;> simp [h]
    · split <;> simp [h]
  · split
    · simp [hn, h]
    · simp [h]

@[simp] theorem State.chainNext_part (s : State) {p : Part} (h : p ∉ [.hp]) :
    (State.chainNext s).part p = s.part p := by
  simp at h
  simp [State.chainNext, h]

@[simp] theorem State.packetComplete_part (s : State) {p : Part} (h : p ∉ [.data, .hp, .status, .store]) :
    (State.packetComplete s).part p = s.part p := by
  simp at h
  unfold State.packetComplete
  dsimp only
  repeat' split
  all_goals simp [h]

@[simp] theorem State.mpEnd_part (s : State) (st : Status) (data : List Word) (nvm : Bool) {p : Part} (h : p ∉ [.hp, .mp, .store]) :
    (State.mpEnd s st data nvm).part p = s.part p := by
  simp at h
  unfold State.mpEnd
  extract_lets m s1 s2
  have h2 : s2.part p = s.part p := (State.modHp_part _ _ (by simp [h])).trans (s.with_mp_part _ (by simp [h]))
  split
  · exact h2
  · split <;> simp [h, h2]

@[simp] theorem State.mpGrant_part (s : State) {p : Part} (h : p ∉ [.hp, .mp, .store]) :
    (State.mpGrant s).part p = s.part p := by
  simp at h
  unfold State.mpGrant
  split
  · rfl
  · split
    · simp [h]
    · split
      · simp [h]
      · split
        · rfl
        · simp [h]
        · exact (State.memUser_part _ _ (by simp [h])).trans (s.with_mp_part _ (by simp [h]))

@[simp] theorem State.mpPoll_part (s : State) (busy failed : Bool) {p : Part} (h : p ∉ [.flash, .fresh, .hp, .mp, .store]) :
    (State.mpPoll s busy failed).part p = s.part p := by
  simp at h
  unfold State.mpPoll
  repeat' split
  all_goals simp [h]

@[simp] theorem State.mpTimeout_part (s : State) {p : Part} (h : p ∉ [.flash, .fresh, .hp, .mp, .store]) :
    (State.mpTimeout s).part p = s.part p := by
  simp at h
  unfold State.mpTimeout
  repeat' split
  all_goals simp [h]

@[simp] theorem State.legEdges_part (s : State) {p : Part} (h : ∀ m, p ∉ [.mc m .models, .mc m .pwm, .gates (some m)]) :
    (State.legEdges s).part p = s.part p := by
  simp [forall_and] at h
  simp [State.legEdges, h]

end Sys2Proof.Machine
end

section
/-! PROOFS. The lifecycle state and the rollback counter of the OTP never go back (R368): each operation of the model is shown
to keep the order `State.otpLe`, the commands of the security module by their own checks, every other because it leaves the
security module's two values as they are. -/

namespace Sys2Proof.Machine

/-- Neither the lifecycle state nor the rollback counter goes back. -/
def State.otpLe (u e : State) : Prop := u.sec.life ≤ e.sec.life ∧ u.sec.rb ≤ e.sec.rb

namespace State

theorem otpLe.refl (s : State) : s.otpLe s := ⟨Nat.le_refl _, Nat.le_refl _⟩

theorem otpLe.trans {s t u : State} (h : s.otpLe t) (h' : t.otpLe u) : s.otpLe u := ⟨Nat.le_trans h.1 h'.1, Nat.le_trans h.2 h'.2⟩

theorem otpLe_of_sec {s t : State} (h : t.sec = s.sec) : s.otpLe t := by
  unfold otpLe; rw [h]; exact ⟨Nat.le_refl _, Nat.le_refl _⟩

theorem otpLe_of_outer {s t : State} (h : t.outer = s.outer) : s.otpLe t := otpLe_of_sec (congrArg (fun x => x.2.1) h)

theorem otpLe_of_part {s t : State} (h : t.part .sec = s.part .sec) : s.otpLe t := otpLe_of_sec h

theorem otpLe_ite {s a b : State} {c : Prop} [Decidable c] (ha : s.otpLe a) (hb : s.otpLe b) :
    s.otpLe (if c then a else b) := by
  split
  · exact ha
  · exact hb

theorem otpLe_each {α : Type} (s : State) (l : List α) {g : α → State → State} (hg : ∀ a (t : State), t.otpLe (g a t)) :
    s.otpLe (s.each l g) :=
  State.each_keeps (P := fun t => s.otpLe t) (fun a t ht => ht.trans (hg a t)) s (otpLe.refl s)

theorem otpLe_onlyIf (s : State) (b : Bool) {g : State → State} (hg : ∀ t : State, t.otpLe (g t)) : s.otpLe (s.onlyIf b g) :=
  otpLe_ite (hg s) (otpLe.refl s)

/-! ## The security module -/

theorem otpLe_modSec (s : State) {g : Sec → Sec} (hlife : s.sec.life ≤ (g s.sec).life) (hrb : s.sec.rb ≤ (g s.sec).rb) :
    s.otpLe (s.modSec g) := ⟨hlife, hrb⟩

theorem secResult_otpLe (s : State) (r : Nat) : s.otpLe (s.secResult r) := otpLe_of_part (by simp)

theorem keyBufClear_otpLe (s : State) : s.otpLe s.keyBufClear := otpLe_of_part (by simp)

theorem putSlot_otpLe (s : State) (i : Fin 16) (k : KeySlot) : s.otpLe (s.putSlot i k) := ⟨Nat.le_refl _, Nat.le_refl _⟩

theorem slotBurn_otpLe (s : State) (i : Fin 16) : s.otpLe (s.slotBurn i) := ⟨Nat.le_refl _, Nat.le_refl _⟩

theorem secProgram_otpLe (s : State) (arg : Word) (ok : Bool) : s.otpLe (s.secProgram arg ok) := by
  have hkey := s.keyBufClear_otpLe
  unfold secProgram
  refine otpLe_ite (s.secResult_otpLe _) (otpLe_ite (s.secResult_otpLe _) (otpLe_ite (s.secResult_otpLe _) ?_))
  exact otpLe_ite (hkey.trans ((putSlot_otpLe ..).trans (secResult_otpLe ..))) (hkey.trans (secResult_otpLe ..))

theorem secSeal_otpLe (s : State) (ok : Bool) : s.otpLe (s.secSeal ok) := by
  unfold secSeal
  split
  · exact s.secResult_otpLe _
  next hs =>
    have hlife : s.sec.life = 0 := by simpa using (not_or.1 hs).1
    refine otpLe_ite (s.secResult_otpLe _) (otpLe_ite ?_ (s.secResult_otpLe _))
    exact (s.otpLe_modSec (by simp [hlife]) (Nat.le_refl _)).trans ((keyBufClear_otpLe _).trans (secResult_otpLe ..))

theorem slotBurn_life (s : State) (i : Fin 16) : (s.slotBurn i).sec.life = s.sec.life := rfl

theorem secRetire_otpLe (s : State) (ok : Bool) : s.otpLe (s.secRetire ok) := by
  unfold secRetire
  split
  · exact s.secResult_otpLe _
  next hs =>
    refine otpLe_ite ?_ (s.secResult_otpLe _)
    have hburn := s.otpLe_each (List.finRange 16) fun i (t : State) => t.slotBurn_otpLe i
    have hlife : (s.each (List.finRange 16) fun i t => t.slotBurn i).sec.life = 1 :=
      State.each_keeps (P := fun t => t.sec.life = 1) (fun i t ht => (t.slotBurn_life i).trans ht) s (Decidable.not_not.1 hs)
    exact hburn.trans ((otpLe_modSec _ (by simp [hlife]) (Nat.le_refl _)).trans ((keyBufClear_otpLe _).trans (secResult_otpLe ..)))

theorem secRevoke_otpLe (s : State) (arg : Word) (ok : Bool) : s.otpLe (s.secRevoke arg ok) := by
  unfold secRevoke
  exact otpLe_ite (s.secResult_otpLe _) (otpLe_ite (s.secResult_otpLe _)
    (otpLe_ite ((putSlot_otpLe ..).trans (secResult_otpLe ..)) (s.secResult_otpLe _)))

theorem secAdvance_otpLe (s : State) (ok : Bool) : s.otpLe (s.secAdvance ok) := by
  unfold secAdvance
  refine otpLe_ite (s.secResult_otpLe _) ?_
  split
  · exact s.secResult_otpLe _
  next hrb =>
    exact otpLe_ite ((s.otpLe_modSec (Nat.le_refl _) (Nat.le_of_lt (Nat.not_le.1 hrb))).trans (secResult_otpLe ..)) (s.secResult_otpLe _)

theorem drawn_otpLe (s : State) : s.otpLe s.drawn := ⟨Nat.le_refl _, Nat.le_refl _⟩

theorem answer_otpLe (s : State) (st : Status) : s.otpLe (s.answer st) := ⟨Nat.le_refl _, Nat.le_refl _⟩

theorem secCmd_otpLe (s : State) (w : Word) : s.otpLe (s.secCmd w) := by
  unfold secCmd
  extract_lets ok
  split
  · exact s.drawn_otpLe.trans (secProgram_otpLe ..)
  · exact s.drawn_otpLe.trans (secSeal_otpLe ..)
  · exact s.drawn_otpLe.trans (secRetire_otpLe ..)
  · exact s.drawn_otpLe.trans (secRevoke_otpLe ..)
  · exact s.drawn_otpLe.trans (secAdvance_otpLe ..)
  · exact s.answer_otpLe _

theorem trngRead_otpLe (s : State) : s.otpLe s.trngRead.1 := by
  unfold trngRead
  dsimp only
  split <;> exact ⟨Nat.le_refl _, Nat.le_refl _⟩

theorem trngFails_otpLe (s : State) : s.otpLe s.trngFails := otpLe_ite (otpLe.refl s) ⟨Nat.le_refl _, Nat.le_refl _⟩

theorem raise_otpLe (s : State) (e : Nat) : s.otpLe (s.raise e) := otpLe_of_outer (by simp)

theorem authRefuse_otpLe (s : State) : s.otpLe s.authRefuse := by
  unfold authRefuse
  extract_lets s1 s2
  have h2 : s.otpLe s2 := (show s.otpLe s1 from ⟨Nat.le_refl _, Nat.le_refl _⟩).trans (s1.raise_otpLe 47)
  exact otpLe_ite (h2.trans ⟨Nat.le_refl _, Nat.le_refl _⟩) h2

theorem authCheck_otpLe (s : State) (fv : Nat) (ws : List Nat) (mac : Nat × Nat) : s.otpLe (s.authCheck fv ws mac).1 := by
  unfold authCheck
  extract_lets good
  split
  · exact s.authRefuse_otpLe
  · split
    · exact ⟨Nat.le_refl _, Nat.le_refl _⟩
    · exact s.authRefuse_otpLe

theorem lockoutEnd_otpLe (s : State) : s.otpLe s.lockoutEnd := otpLe_ite ⟨Nat.le_refl _, Nat.le_refl _⟩ (otpLe.refl s)

theorem announce_otpLe (s : State) : s.otpLe s.announce := by
  unfold announce
  extract_lets k x s1
  split
  · extract_lets n
    have h1 : s.otpLe s1 := ⟨Nat.le_refl _, Nat.le_refl _⟩
    exact otpLe_ite (h1.trans (otpLe_of_part (by simp))) h1
  · exact otpLe.refl s

/-! ## Reset, boot and recovery -/

theorem toOff_otpLe (s : State) : s.otpLe s.toOff := by
  unfold toOff
  extract_lets motors a b c d e t
  have hu : s.otpLe t := (show s.otpLe e from ⟨Nat.le_refl _, Nat.le_refl _⟩).trans (otpLe_of_outer (by simp [t]))
  exact otpLe_ite (otpLe.refl s) (hu.trans (otpLe_of_outer (by simp)))

theorem release_n_otpLe (s : State) (sess : BitVec 64) : s.otpLe (s.release_n sess) := by
  unfold release_n
  extract_lets b x m s1 s2 s3
  have h2 : s.otpLe s2 := (show s.otpLe s1 from ⟨Nat.le_refl _, Nat.le_refl _⟩).trans (otpLe_of_outer (by simp [s2]))
  have h3 : s.otpLe s3 := h2.trans (otpLe_each _ _ fun d t => otpLe_of_part (by simp))
  exact otpLe_ite (h3.trans (otpLe_of_part (by simp))) (otpLe.refl s)

theorem loadBegin_otpLe (s : State) : s.otpLe s.loadBegin := otpLe_of_part (by simp)

theorem ready_otpLe (s : State) : s.otpLe s.ready_ := by
  unfold ready_
  extract_lets s1 s2 s3 s4 s5 sv d x s6 s7
  have h5 : s.otpLe s5 := otpLe_of_part (by simp [s5, s4, s3, s2, s1])
  have h6 : s.otpLe s6 := h5.trans ⟨Nat.le_refl _, Nat.le_refl _⟩
  have h7 : s.otpLe s7 := h6.trans (otpLe_of_part (by simp [s7]))
  exact otpLe_ite (otpLe_ite (h7.trans (otpLe_of_part (by simp))) h7) (otpLe.refl s)

theorem blockReset_otpLe (s : State) : s.otpLe s.blockReset := by
  unfold blockReset
  extract_lets rails a b c d e f x y t t1 t2 t3 t4 t5 t6
  have h0 : s.otpLe t := ⟨Nat.le_refl _, Nat.le_refl _⟩
  exact h0.trans (otpLe_of_outer (by simp [t6, t5, t4, t3, t2, t1]))

theorem recoverStep_otpLe (s : State) : s.otpLe s.recoverStep :=
  otpLe_ite (s.blockReset_otpLe.trans (loadBegin_otpLe _)) (otpLe.refl s)

theorem recoverCmd_otpLe (s : State) : s.otpLe s.recoverCmd := by
  unfold recoverCmd
  extract_lets s1 a b s2
  have h1 : s.otpLe s1 := otpLe_of_part (by simp [s1])
  have h2 : s.otpLe s2 := h1.trans ⟨Nat.le_refl _, Nat.le_refl _⟩
  exact otpLe_ite (s.answer_otpLe _) (otpLe_ite (h2.trans (recoverStep_otpLe _)) (s.answer_otpLe _))

theorem logCompleteStep_otpLe (s : State) (ok : Bool) : s.otpLe (s.logCompleteStep ok) :=
  (otpLe_of_part (by simp)).trans (recoverStep_otpLe _)

theorem logTimeoutStep_otpLe (s : State) : s.otpLe s.logTimeoutStep :=
  (otpLe_of_part (by simp)).trans (recoverStep_otpLe _)

/-! ## Register reads and writes -/

theorem readWord_otpLe (s : State) (p : Port) (a : Nat) : s.otpLe (s.readWord p a).1 := by
  unfold readWord
  extract_lets v s1
  have h1 : s.otpLe s1 := ⟨Nat.le_refl _, Nat.le_refl _⟩
  split
  · exact ⟨Nat.le_refl _, Nat.le_refl _⟩
  · split
    · split
      · exact h1.trans (otpLe_of_part (by simp))
      · exact h1
    · split
      · split
        · split
          · exact otpLe.refl s
          · exact ⟨Nat.le_refl _, Nat.le_refl _⟩
        · exact ⟨Nat.le_refl _, Nat.le_refl _⟩
      · split
        · exact s.trngRead_otpLe
        · split
          · exact otpLe_of_part (by simp)
          · exact otpLe.refl s

theorem readRun_otpLe (p : Port) (n a : Nat) (s : State) : s.otpLe (readRun p n a s).1 := by
  induction n generalizing s a with
  | zero => exact otpLe.refl s
  | succ n ih =>
    unfold readRun
    split
    · exact ⟨Nat.le_refl _, Nat.le_refl _⟩
    · exact (s.readWord_otpLe p a).trans (ih _ _)

theorem devCmd_otpLe (s : State) (w : Word) : s.otpLe (s.devCmd w) := by
  unfold devCmd
  split
  · exact otpLe_of_part (by simp)
  · exact otpLe_of_part (by simp)
  · exact otpLe_of_part (by simp)
  · exact s.recoverCmd_otpLe
  · exact s.answer_otpLe _

theorem senWrite_otpLe (s : State) (g : Grp) (o : Nat) (w : Word) {plain : State} (h : s.otpLe plain) :
    s.otpLe ((s.senWrite g o w plain).getD plain) := by
  unfold senWrite
  split
  · exact otpLe_of_part (by simp)
  · split
    · exact otpLe_of_part (by simp)
    · split
      · exact h.trans (otpLe_of_part (by simp))
      · exact h

theorem writeEffect_otpLe (s : State) (p : Port) (b : Blk) (o : Nat) (w : Word) {plain : State} (h : s.otpLe plain) :
    s.otpLe (s.writeEffect p b o w plain) := by
  unfold writeEffect
  extract_lets swapGo
  split
  · exact otpLe_ite (s.devCmd_otpLe w) (otpLe_ite (h.trans (otpLe_of_part (by simp)))
      (otpLe_ite (otpLe_of_part (by simp)) h))
  · exact s.senWrite_otpLe _ _ _ h
  · exact otpLe_ite (otpLe_of_part (by simp)) (otpLe_ite (otpLe_of_part (by simp)) h)
  · exact otpLe_ite (otpLe_of_part (by simp)) h
  · exact otpLe_ite (s.secCmd_otpLe w) (otpLe_ite (otpLe_of_part (by simp)) h)
  · exact otpLe_ite (otpLe_of_part (by simp)) (otpLe_ite (h.trans (otpLe_of_part (by simp)))
      (otpLe_ite (otpLe_of_part (by simp)) (otpLe_ite (otpLe_of_part (by simp)) h)))
  · exact otpLe_ite (otpLe_ite (otpLe_of_part (by simp)) h) h
  · exact otpLe_ite (h.trans (otpLe_of_part (by simp))) (otpLe_ite (otpLe.refl s) h)
  · exact otpLe_ite (otpLe_of_part (by simp)) (otpLe_ite (h.trans (otpLe_of_part (by simp)))
      (otpLe_ite (otpLe_of_part (by simp)) (otpLe_ite (h.trans (otpLe_of_part (by simp)))
      (otpLe_ite (otpLe_of_part (by simp)) (otpLe_ite (otpLe_of_part (by simp)) (otpLe_ite (s.senWrite_otpLe _ _ _ h) h))))))
  · exact otpLe_ite (otpLe_of_part (by simp)) h
  · exact otpLe_ite (otpLe_of_part (by simp)) (otpLe_ite (h.trans (otpLe_of_part (by simp)))
      (otpLe_ite (otpLe_of_part (by simp)) (otpLe_ite (h.trans (otpLe_of_part (by simp)))
      (otpLe_ite (s.senWrite_otpLe _ _ _ h) h))))
  · exact h

theorem writeWord_otpLe (s : State) (p : Port) (a : Nat) (w : Word) : s.otpLe (s.writeWord p a w) := by
  unfold writeWord
  extract_lets s1 b
  have h1 : s.otpLe s1 := s.answer_otpLe .ok
  refine h1.trans (otpLe_ite ⟨Nat.le_refl _, Nat.le_refl _⟩ ?_)
  split
  · exact otpLe_of_part (by simp)
  · exact otpLe.refl _
  · exact otpLe.refl _
  · exact otpLe_of_part (by simp)
  · split
    · exact otpLe.refl _
    · refine otpLe_ite (otpLe.refl _) ?_
      split
      · exact answer_otpLe ..
      · exact writeEffect_otpLe _ _ _ _ _ (otpLe_of_part (by simp))

theorem writeRun_otpLe (p : Port) (a : Nat) (ws : List Word) (s : State) : s.otpLe (writeRun p a ws s).1 := by
  induction ws generalizing s a with
  | nil => exact s.answer_otpLe _
  | cons w ws ih =>
    unfold writeRun
    split
    · exact ⟨Nat.le_refl _, Nat.le_refl _⟩
    · have hw := s.writeWord_otpLe p a w
      dsimp only
      split
      · exact hw.trans (ih _ _)
      · exact hw

/-! ## What the ports execute -/

theorem hostDo_otpLe (s : State) {act : State → State} (h : ∀ t : State, t.otpLe (act t)) : s.otpLe (s.hostDo act) := by
  unfold hostDo
  extract_lets s1
  have h1 : s.otpLe s1 := ⟨Nat.le_refl _, Nat.le_refl _⟩
  exact otpLe_ite (otpLe.refl s) (h1.trans (otpLe_ite (otpLe_of_part (by simp)) (otpLe_ite (answer_otpLe ..)
    (otpLe_ite (answer_otpLe ..) (h s1)))))

theorem inc_otpLe (s : State) (b : Nat) (f : Fld) (k : Nat) : s.otpLe (s.inc b f k) := ⟨Nat.le_refl _, Nat.le_refl _⟩

theorem hostAct_otpLe (s : State) {act : State → State} (h : ∀ t : State, t.otpLe (act t)) : s.otpLe (s.hostAct act) :=
  s.hostDo_otpLe fun t => (t.answer_otpLe .ok).trans (h _)

theorem hostCmd_otpLe (s : State) (a : Nat) {act : State → State} (h : ∀ t : State, t.otpLe (act t)) :
    s.otpLe (s.hostCmd a act) :=
  s.hostDo_otpLe fun t => (t.answer_otpLe .ok).trans (otpLe_ite (otpLe.refl _) (h _))

theorem hostRead_otpLe (s : State) (a n : Nat) : s.otpLe (s.hostRead a n) := by
  unfold hostRead
  extract_lets s1
  have h1 : s.otpLe s1 := ⟨Nat.le_refl _, Nat.le_refl _⟩
  refine otpLe_ite (otpLe.refl s) (h1.trans (otpLe_ite (otpLe_of_part (by simp)) (otpLe_ite (answer_otpLe ..) ?_)))
  exact (readRun_otpLe .host n a s1).trans ⟨Nat.le_refl _, Nat.le_refl _⟩

theorem diagRead_otpLe (s : State) (n : Can) (a : Nat) : s.otpLe (s.diagRead n a) := by
  unfold diagRead
  extract_lets s1
  have h1 : s.otpLe s1 := ⟨Nat.le_refl _, Nat.le_refl _⟩
  refine h1.trans (otpLe_ite (answer_otpLe ..) ?_)
  exact (s1.readWord_otpLe (.diag n) a).trans ⟨Nat.le_refl _, Nat.le_refl _⟩

theorem diagWrite_otpLe (s : State) (n : Can) (a : Nat) (w : Word) : s.otpLe (s.diagWrite n a w) := by
  unfold diagWrite
  extract_lets s1
  have h1 : s.otpLe s1 := ⟨Nat.le_refl _, Nat.le_refl _⟩
  exact h1.trans (otpLe_ite (answer_otpLe ..) (otpLe_ite (answer_otpLe ..) (writeWord_otpLe ..)))

theorem portRead_otpLe (s : State) (p : Port) (a : Nat) : s.otpLe (s.portRead p a) := by
  cases p with
  | host =>
    have h : (s.hostRead a 1).otpLe (s.hostRead a 1).countRange := otpLe_of_part (by simp)
    exact (s.hostRead_otpLe a 1).trans h
  | diag n => exact s.diagRead_otpLe n a


theorem portWrite_otpLe (s : State) (p : Port) (a : Nat) (w : Word) : s.otpLe (s.portWrite p a w) := by
  unfold portWrite
  split
  · exact (s.hostDo_otpLe fun t => t.writeWord_otpLe .host a w).trans (otpLe_of_part (by simp))
  · exact s.diagWrite_otpLe ..

theorem diagExec_otpLe (s : State) (n : Can) (bs : List Nat) : s.otpLe (s.diagExec n bs) := by
  unfold diagExec
  extract_lets a s1 t u r
  have ht : s.otpLe t := by
    simp only [t]
    split
    · exact s.diagRead_otpLe ..
    · exact s.diagWrite_otpLe ..
    · exact ⟨Nat.le_refl _, Nat.le_refl _⟩
  have hu : s.otpLe u := otpLe_ite ht (ht.trans ⟨Nat.le_refl _, Nat.le_refl _⟩)
  exact (hu.trans (otpLe_onlyIf _ _ fun v => otpLe_of_part (by simp))).trans ⟨Nat.le_refl _, Nat.le_refl _⟩


theorem diagHook_otpLe {n : Can} {f : Frame} {s t : State} (h : diagHook n f s = some t) : s.otpLe t := by
  unfold diagHook at h
  split at h
  · split at h
    · cases h; exact otpLe.refl s
    · cases h; exact s.diagExec_otpLe ..
  · cases h

theorem frameIn_otpLe {diag : Can → Frame → State → Option State} (hd : ∀ n f s t, diag n f s = some t → s.otpLe t)
    (s : State) (n : Can) (f : Frame) (stamp : Nat) : s.otpLe (s.frameIn diag n f stamp) := by
  unfold frameIn
  extract_lets s1
  have h1 : s.otpLe s1 := otpLe_of_part (by simp [s1])
  refine otpLe_ite (h1.trans (otpLe_of_part (by simp))) ?_
  split
  next t ht => exact h1.trans (hd _ _ _ _ ht)
  next => exact h1.trans (otpLe_of_part (by simp))


theorem canFrame_otpLe {diag : Can → Frame → State → Option State} (hd : ∀ n f s t, diag n f s = some t → s.otpLe t)
    (s : State) (n : Can) (ago : Nat) (f : Frame) : s.otpLe (s.canFrame diag n ago f) := by
  unfold canFrame
  exact otpLe_ite (otpLe_ite (otpLe_of_part (by simp)) (frameIn_otpLe hd ..)) (otpLe.refl s)


theorem opRead_otpLe (s : State) (a n : Nat) : s.otpLe (s.opRead a n).1 := (readRun_otpLe .host n a s).trans ⟨Nat.le_refl _, Nat.le_refl _⟩

theorem opWrite_otpLe (s : State) (a : Nat) (ws : List Word) : s.otpLe (s.opWrite a ws).1 := by
  unfold opWrite
  split
  · exact s.answer_otpLe _
  · exact writeRun_otpLe .host a ws s

theorem opDma_otpLe (s : State) (g : Grp) (n : Nat) : s.otpLe (s.opDma g n).1 := otpLe_of_part (by simp)

theorem opBulkRead_otpLe (s : State) (k a n : Nat) : s.otpLe (s.opBulkRead k a n).1 := by
  unfold opBulkRead
  split
  · exact otpLe_of_part (by simp)
  · split
    · exact s.opRead_otpLe a n
    · split
      · exact s.answer_otpLe _
      · split
        · exact ⟨Nat.le_refl _, Nat.le_refl _⟩
        · dsimp only
          split
          · have ht : s.otpLe (s.traceTake ⟨a % 4, by omega⟩ n).1 := otpLe_of_part (by simp)
            exact ht.trans ⟨Nat.le_refl _, Nat.le_refl _⟩
          · exact s.answer_otpLe _
        · exact s.opDma_otpLe ..
        · exact otpLe_of_part (by simp)
        · split <;> exact otpLe_of_part (by simp)

theorem opBulkWrite_otpLe (s : State) (k a : Nat) (ws : List Word) : s.otpLe (s.opBulkWrite k a ws).1 := by
  unfold opBulkWrite
  split
  · exact otpLe_of_part (by simp)
  · split
    · exact s.opWrite_otpLe a ws
    · split
      · exact s.answer_otpLe _
      · split
        · exact s.opWrite_otpLe ..
        · exact s.answer_otpLe _
        · split
          · exact s.answer_otpLe _
          · exact otpLe_of_part (by simp)

theorem pktRun_otpLe (s : State) (op hdr len : Nat) (ws : List Word) : s.otpLe (s.pktRun op hdr len ws).1 := by
  unfold pktRun
  extract_lets a sub
  split
  · exact s.opRead_otpLe ..
  · exact s.opRead_otpLe ..
  · exact s.opWrite_otpLe ..
  · exact s.opWrite_otpLe ..
  · clear_value sub
    split <;> exact otpLe_of_part (by simp)
  · exact s.opBulkRead_otpLe ..
  · exact s.opBulkWrite_otpLe ..

theorem hostOp_otpLe (s : State) (r : Bool) {op : State → State × Nat × Bool} (h : ∀ t : State, t.otpLe (op t).1) :
    s.otpLe (s.hostOp r op) := by
  unfold hostOp
  extract_lets s1
  have h1 : s.otpLe s1 := ⟨Nat.le_refl _, Nat.le_refl _⟩
  refine otpLe_ite (otpLe.refl s) (h1.trans (otpLe_ite (otpLe_of_part (by simp)) (otpLe_ite (answer_otpLe ..) ?_)))
  exact (h s1).trans (otpLe_ite ⟨Nat.le_refl _, Nat.le_refl _⟩ (otpLe_of_part (by simp)))

theorem chainCmd_otpLe (s : State) (cmd arg : Nat) : s.otpLe (s.chainCmd cmd arg).1 := by
  unfold chainCmd
  extract_lets closed s1 s2
  have h1 : s.otpLe s1 := s.writeWord_otpLe ..
  have h2 : s.otpLe s2 := otpLe_of_part (by simp [s2])
  split
  · exact s.answer_otpLe _
  · split
    · exact s.answer_otpLe _
    · exact otpLe_ite (s.answer_otpLe _) (otpLe_of_part (by simp))
    · exact ⟨Nat.le_refl _, Nat.le_refl _⟩
    · exact otpLe_ite (s.answer_otpLe _) ⟨Nat.le_refl _, Nat.le_refl _⟩
    · split
      · exact s.answer_otpLe _
      · split
        · exact s.answer_otpLe _
        · exact h1.trans (otpLe_ite (otpLe_of_part (by simp)) (otpLe.refl _))
    · exact (s.readWord_otpLe ..).trans ⟨Nat.le_refl _, Nat.le_refl _⟩
    · exact h2.trans ⟨Nat.le_refl _, Nat.le_refl _⟩
    · exact s.answer_otpLe _


theorem chainWord_otpLe (s : State) (cmd arg : Nat) : s.otpLe (s.chainWord cmd arg).1 := by
  unfold chainWord
  extract_lets s1
  have h1 : s.otpLe s1 := otpLe_of_part (by simp [s1])
  have h2 := h1.trans (s1.chainCmd_otpLe cmd arg)
  generalize s1.chainCmd cmd arg = x at h2
  exact h2.trans (otpLe_of_part (State.countRange_part _ (by simp)))


theorem chainRow_otpLe (s : State) (cmd : Nat) (arg : BitVec 24) : s.otpLe (s.chainRow cmd arg) := by
  unfold chainRow
  extract_lets s1
  have h1 : s.otpLe s1 := ⟨Nat.le_refl _, Nat.le_refl _⟩
  refine otpLe_ite (otpLe.refl s) (h1.trans (otpLe_ite (otpLe_of_part (by simp)) ?_))
  exact (s1.chainWord_otpLe ..).trans ⟨Nat.le_refl _, Nat.le_refl _⟩


theorem chainFrame_otpLe (s : State) (edges : Nat) (ws : List Word) : s.otpLe (s.chainFrame edges ws) := by
  unfold chainFrame
  extract_lets out s1 shown w
  have h1 : s.otpLe s1 := ⟨Nat.le_refl _, Nat.le_refl _⟩
  have hs (t : State) : t.otpLe (shown t) := ⟨Nat.le_refl _, Nat.le_refl _⟩
  refine otpLe_ite (otpLe.refl s) (h1.trans (otpLe_ite ?_ (otpLe_ite ?_ (otpLe_ite ?_ ?_))))
  · exact (otpLe_of_part (by simp)).trans (hs _)
  · exact (otpLe_of_part (by simp)).trans (hs _)
  · exact (otpLe_of_part (by simp)).trans (hs _)
  · exact ((s1.chainWord_otpLe ..).trans ⟨Nat.le_refl _, Nat.le_refl _⟩).trans (hs _)


theorem pktExec_otpLe (s : State) (ws : List Nat) (op : Nat) (auth : Bool) : s.otpLe (s.pktExec ws op auth) := by
  unfold pktExec
  extract_lets hdr len tag n first payload
  split
  next t bad hx =>
    have ht : s.otpLe t := by
      refine (?_ : s.otpLe (t, bad).1)
      rw [← hx]
      split
      · exact s.authCheck_otpLe ..
      · exact otpLe.refl s
    split
    · exact ht.trans (otpLe_of_part (by simp))
    · extract_lets t1
      have h1 : s.otpLe t1 := ht.trans ⟨Nat.le_refl _, Nat.le_refl _⟩
      have h2 := h1.trans (t1.pktRun_otpLe op hdr len (payload.map fun x => BitVec.ofNat 32 x))
      generalize t1.pktRun op hdr len (payload.map fun x => BitVec.ofNat 32 x) = r at h2
      rcases r with ⟨u, count, wait⟩
      have h3 : s.otpLe (if wait = true then u else u.countRange) := h2.trans (otpLe_ite (otpLe.refl _) (otpLe_of_part (by simp)))
      exact h3.trans ⟨Nat.le_refl _, Nat.le_refl _⟩

theorem pktFrame_otpLe (s : State) (edges : Nat) (ws : List Nat) : s.otpLe (s.pktFrame edges ws) := by
  unfold pktFrame
  extract_lets hdr len tag op auth need
  refine otpLe_ite ?_ (otpLe_ite ?_ (otpLe_ite ?_ (otpLe_ite ?_ (otpLe_ite ?_ (otpLe_ite ?_ (s.pktExec_otpLe ..))))))
  all_goals exact otpLe_of_part (by simp)


theorem packetFrame_otpLe (s : State) (edges : Nat) (w : List Word) : s.otpLe (s.packetFrame edges w) := by
  unfold packetFrame
  extract_lets n ws s1 s2 s3 resp s4 s5
  have h1 : s.otpLe s1 := otpLe_of_part (by simp [s1])
  have h3 : s1.otpLe s3 := (otpLe_ite (otpLe.refl _) (otpLe_of_part (by simp))).trans (answer_otpLe ..)
  have h4 : s1.otpLe s4 := otpLe_of_part (by simp [s4])
  have h5 : s1.otpLe s5 := h4.trans ((otpLe_of_part (by simp)).trans (pktFrame_otpLe ..))
  refine otpLe_ite (otpLe.refl s) (h1.trans ?_)
  split
  · exact h3.trans ⟨Nat.le_refl _, Nat.le_refl _⟩
  · exact h5.trans ⟨Nat.le_refl _, Nat.le_refl _⟩

/-! ## Jobs of the lanes -/

theorem finish_otpLe (s : State) (j : JobId) {eff : Running → State → State × Bool}
    (h : ∀ (r : Running) (t : State), t.otpLe (eff r t).1) : s.otpLe (s.finish j eff) := by
  unfold finish
  split
  · exact otpLe.refl s
  · split
    · exact otpLe.refl s
    · split
      · exact otpLe_of_outer (by simp)
      next i _ r _ _ =>
        have h1 : s.otpLe (s.useSet j (r.setB, r.banks)) := otpLe_of_outer (by simp)
        have h2 := h1.trans (h r (s.useSet j (r.setB, r.banks)))
        exact h2.trans (otpLe_of_part (by simp))

theorem runTo_otpLe {home : Axis → State → State} (hh : ∀ a (t : State), t.otpLe (home a t)) (s : State) (a : Axis) (dt : Int) :
    s.otpLe (s.runTo home a dt) := by
  unfold runTo
  extract_lets x rem u lim dv u1 r s1 s2 d s3
  split
  · split
    · dsimp only
      split <;> exact otpLe_of_part (by simp)
    · exact otpLe.refl s
  · have h2 : s.otpLe s2 := by
      refine otpLe_ite (otpLe_of_part ?_) (otpLe_of_part ?_) <;> simp [s1]
    refine otpLe_ite ?_ h2
    split
    · exact h2.trans (otpLe_ite (otpLe_of_part (by simp [s3])) (otpLe_of_part (by simp [s3])))
    · exact h2.trans (hh a _)
    · exact h2.trans (otpLe_of_part (by simp))

theorem runBlend_otpLe {home : Axis → State → State} (hh : ∀ a (t : State), t.otpLe (home a t)) (s : State) (a : Axis)
    (b : Blend) (dt : Nat) : s.otpLe (s.runBlend home a b dt) := by
  unfold runBlend
  extract_lets t s1 s2
  split
  · exact otpLe_of_part (by simp)
  · have h2 : s.otpLe s2 := otpLe_of_part (by simp [s2, s1])
    exact otpLe_ite h2 (otpLe_ite (h2.trans (runTo_otpLe hh ..)) h2)

theorem profRun_otpLe {home : Axis → State → State} (hh : ∀ a (t : State), t.otpLe (home a t)) (s : State) (a : Axis)
    (k dt : Nat) : s.otpLe (s.profRun home a k dt) := by
  unfold profRun
  extract_lets now s1 s2 s3 x s4
  have h2 : s.otpLe s2 := otpLe_of_part (by simp [s2, s1])
  have h3 : s.otpLe s3 := otpLe_ite (h2.trans (otpLe_of_part (by simp))) h2
  have h4 : s3.otpLe s4 := runTo_otpLe hh ..
  refine h3.trans (otpLe_ite (otpLe.refl s3) ?_)
  split
  · exact runTo_otpLe hh ..
  · exact runTo_otpLe hh ..
  · split
    · exact otpLe.refl s3
    · split
      · exact runBlend_otpLe hh ..
      · split
        · exact h4.trans (runBlend_otpLe hh ..)
        · exact h4
  · exact otpLe_of_part (by simp)
  · exact otpLe_of_part (by simp)
  · exact otpLe_of_part (by simp)
  · exact otpLe.refl s3

theorem profStepper_otpLe (s : State) (k : Chan) (cmds dt : Nat) : s.otpLe (s.profStepper k cmds dt) := by
  unfold profStepper
  extract_lets s1 s2 s3 moving s4 s5
  have h1 : s.otpLe s1 := otpLe_of_part (by simp [s1])
  have h2 : s.otpLe s2 := h1.trans (profRun_otpLe (fun a t => otpLe_of_part (by simp)) ..)
  have h4 : s.otpLe s4 := h2.trans (otpLe_of_part (by simp [s4, s3]))
  have h5 : s.otpLe s5 := otpLe_ite (h4.trans (otpLe_of_part (by simp))) h4
  exact h5.trans (otpLe_of_part (by simp))

theorem profMotor_otpLe (s : State) (n : Mcn) (cmds dt : Nat) : s.otpLe (s.profMotor n cmds dt) := by
  unfold profMotor
  extract_lets s1 s2
  have h1 : s.otpLe s1 := profRun_otpLe (fun a t => otpLe.refl t) ..
  have h2 : s.otpLe s2 := h1.trans (otpLe_of_part (by simp [s2]))
  exact otpLe_ite (otpLe_ite (h2.trans (otpLe_of_part (by simp))) h2) h1

theorem profJob_otpLe (s : State) (a : Axis) : s.otpLe (s.profJob a) := by
  unfold profJob
  extract_lets ran s1
  have h1 : s.otpLe s1 := s.finish_otpLe _ fun r t => by
    cases a with
    | mc n =>
      extract_lets at_ last dt k t1 x past
      have ht : t.otpLe t1 := t.profMotor_otpLe ..
      exact ht.trans (otpLe_of_part (by simp))
    | st c =>
      extract_lets at_ last dt k t1 x past
      have ht : t.otpLe t1 := t.profStepper_otpLe ..
      exact ht.trans (otpLe_of_part (by simp))
  cases a with
  | mc n => exact otpLe_ite (h1.trans (otpLe_of_part (by simp))) h1
  | st c => exact h1

theorem ccurJob_otpLe (s : State) (n : Mcn) : s.otpLe (s.ccurJob n) := by
  unfold ccurJob
  extract_lets ran s1
  have h1 : s.otpLe s1 := s.finish_otpLe _ fun r t => otpLe_of_part (by simp)
  exact otpLe_ite (h1.trans (otpLe_of_part (by simp))) h1

theorem thermJob_otpLe (s : State) (o : Mcn ⊕ Rg) : s.otpLe (s.thermJob o) := by
  cases o with
  | inl n =>
    exact s.finish_otpLe (.thermM n) (eff := fun r t => t.thermMotor n r.inp) fun r t =>
      otpLe_of_part (t.thermMotor_part _ _ (by simp))
  | inr g =>
    exact s.finish_otpLe (.thermR g) (eff := fun r t => t.thermRegion g r.inp) fun r t =>
      otpLe_of_part (t.thermRegion_part _ _ (by simp))

/-! ## Where a command acts -/

theorem elapse_otpLe (s : State) (dt : Nat) : s.otpLe (s.elapse dt) := otpLe_of_part (by simp [elapse])



theorem onKilid_otpLe (s : State) {act : State → State} (h : ∀ t : State, t.otpLe (act t)) : s.otpLe (s.onKilid act) :=
  otpLe_ite (otpLe.refl s) (h s)

theorem onCl_otpLe (s : State) (c : Cl) {act : State → State} (h : ∀ t : State, t.otpLe (act t)) : s.otpLe (s.onCl c act) :=
  otpLe_ite (otpLe.refl s) (h s)

theorem onMc_otpLe (s : State) (n : Mcn) {act : State → State} (h : ∀ t : State, t.otpLe (act t)) : s.otpLe (s.onMc n act) :=
  s.onCl_otpLe _ h

theorem onSt_otpLe (s : State) (k : Chan) {act : State → State} (h : ∀ t : State, t.otpLe (act t)) : s.otpLe (s.onSt k act) :=
  s.onCl_otpLe _ h

theorem onGrp_otpLe (s : State) (g : Grp) {act : State → State} (h : ∀ t : State, t.otpLe (act t)) : s.otpLe (s.onGrp g act) := by
  unfold onGrp
  split
  · split
    · exact s.onMc_otpLe _ h
    · exact s.onKilid_otpLe h
  · exact otpLe.refl s

end State

theorem exec_otpLe (c : Instr) (s : State) :
    (∃ (dt : Nat) (e : State), exec c s = .next (s.done dt e) ∧ (s.elapse dt).otpLe e) ∨ exec c s = .fault .illFormed := by
  cases c
  case canFrameReceived dt n ago f =>
    by_cases hf : f.ok = true
    · exact .inl ⟨dt, (s.elapse dt).canFrame diagHook n ago f, by simp [exec, execCanFrameReceived, hf, State.after],
        State.canFrame_otpLe (fun _ _ _ _ h => State.diagHook_otpLe h) ..⟩
    · exact .inr (by simp [exec, execCanFrameReceived, hf])
  all_goals refine .inl ⟨_, _, rfl, ?_⟩; generalize s.elapse _ = u
  case vddcReset | resetNAssert => exact u.toOff_otpLe
  case resetNRelease => exact u.release_n_otpLe _
  case monitorSamplingEnd => exact u.ready_otpLe
  case recover => exact u.hostAct_otpLe fun t => t.recoverCmd_otpLe
  case logbookWriteComplete => exact u.onKilid_otpLe fun t => t.logCompleteStep_otpLe _
  case logbookWriteTimeout => exact u.onKilid_otpLe fun t => t.logTimeoutStep_otpLe
  case program => exact u.hostAct_otpLe fun t => t.secProgram_otpLe ..
  case retire => exact u.hostAct_otpLe fun t => t.secRetire_otpLe _
  case revoke => exact u.hostAct_otpLe fun t => t.secRevoke_otpLe ..
  case advance => exact u.hostAct_otpLe fun t => t.secAdvance_otpLe _
  case trngHealthFail => exact u.onKilid_otpLe fun t => t.trngFails_otpLe
  case authLockoutEnd => exact u.onKilid_otpLe fun t => t.lockoutEnd_otpLe
  case canAnnouncement => exact u.onKilid_otpLe fun t => t.announce_otpLe
  case splitLoRead | splitHiRead | trngRead | canElementRead => exact u.portRead_otpLe ..
  case sheetWindowWrite | registerWrite => exact u.portWrite_otpLe ..
  case chainFrame => exact u.chainFrame_otpLe ..
  case nop | setpoint | addr | wrLo | wrHi | rdLo | rdHi => exact u.chainRow_otpLe ..
  case packetFrame | pollFrame => exact u.packetFrame_otpLe ..
  case read => exact u.hostOp_otpLe _ fun t => t.opRead_otpLe ..
  case write => exact u.hostOp_otpLe _ fun t => t.opWrite_otpLe ..
  case readBurst =>
    refine u.hostOp_otpLe _ fun t => ?_
    split
    · exact t.opRead_otpLe ..
    · exact State.otpLe_of_part (by simp)
  case writeBurst =>
    refine u.hostOp_otpLe _ fun t => ?_
    split
    · exact t.opWrite_otpLe ..
    · exact State.otpLe_of_part (by simp)
  case bulkRead => exact u.hostOp_otpLe _ fun t => t.opBulkRead_otpLe ..
  case bulkWrite => exact u.hostOp_otpLe _ fun t => t.opBulkWrite_otpLe ..
  case nvmErase4k | nvmErase64k => exact u.hostOp_otpLe _ fun t => State.otpLe_of_part (by simp)
  case holdClr => exact u.hostOp_otpLe _ fun t => State.otpLe_of_part (by simp)
  case curJob | obsJob | spdJob | posJob | cvoltJob | atlasJob | traceJob =>
    exact u.onKilid_otpLe fun t => t.finish_otpLe _ fun r v => State.otpLe_of_part (by simp)
  case profJob => exact u.onKilid_otpLe fun t => t.profJob_otpLe _
  case ccurJob => exact u.onKilid_otpLe fun t => t.ccurJob_otpLe _
  case thermJob => exact u.onKilid_otpLe fun t => (t.thermJob_otpLe _).trans (State.otpLe_of_part (State.noteTemps_part _ (by simp)))
  case arm | disarm | start | stop | safe | clear | copyShadow | clusterBadCmd | run | halt | resume |
      clusterSwapRequest | deviceSwapRequest | sheetCheck | move | axisStop | setV | setA | speed | append |
      routeStart | routeLoad | routeClear | home | setPos | motionBadCmd | stickyClear | logNow | bootLoad |
      autoHold | fifoGetWrite | txReq | txCancel | canRecover | canModeWrite | traceArm | traceSoft | traceStop
      | deviceBadCmd =>
    exact u.hostAct_otpLe fun t => State.otpLe_of_part (by simp)
  case copyShadowDone | clusterSwapTakesEffect | dwellEnd | coldBlockEnd | autostartArm | autostartArmRetry |
      autostartRestart =>
    exact u.onCl_otpLe _ fun t => State.otpLe_of_part (by simp)
  case deviceSwapAtFrame | busAbsent | busPresent | supplyMonitorCrossing | syncEdge | syncWindowClose |
      frameBoundary | sensorSlaveWord | jobRelease | ltestJob | laneFail | laneRateWindow | stewardPoolTest |
      sheetCheckDone | rowGroupSubstitution | bridgeSegmentFault | stepperSpareSegmentIn | gateSegmentShareFault
      | gateSegmentSubstitution | thermalPass | pulseHoldExpiry | guyLineWireFault | guyLineFaultEnd |
      clockCheck | lanternToggle | faultNInputLow | logbookHourly | logbookWriteStart | packetComplete |
      faultNInputHigh =>
    exact u.onKilid_otpLe fun t => State.otpLe_of_part (by simp)
  case edgeTimeCommit | graticuleFiring | ratioCrossing | sectorBoundary | ampCheck | ampCheckTimeout |
      ampSubstitution | hallEdge | hallStopTimeout | encoderCountEdge | encoderIndex | sensorTransfer |
      zcWindowExpiry | trackerConversion | probeEnd | alignDone | polarityPulse | startTimeout | startRetry |
      stall | controlResume | reacqWindowExpiry | atlasFillComplete | sheetMiss | bankSwap | prechargeEnd |
      bootstrapComparator | vloOvervoltage | vloOvRecovery | carrierFrequencyChange =>
    exact u.onMc_otpLe _ fun t => State.otpLe_of_part (by simp)
  case latClr | pwmCntClr | swReg | swInj | senCntClr | dmaRptrWrite | accClr | knownShortClr | ov3Clr | chopClr
      | eClr =>
    exact u.hostCmd_otpLe _ fun t => State.otpLe_of_part (by simp)
  case conversionResultReady | sequenceTrigger | sequenceEntryIssue | urgentRequest | calibrationStep |
      calibrationHandover | dmaWrite =>
    exact u.onGrp_otpLe _ fun t => State.otpLe_of_part (by simp)
  case indexerEmission | chopperOnPhaseEnd | chopperOffTimeEnd | zeroCurrentWindowEnd | standbyTimeout |
      bridgeOvercurrent | coilZeroCurrentLevel =>
    exact u.onSt_otpLe _ fun t => State.otpLe_of_part (by simp)
  case counterZero | periodEvent | compareApply => exact u.onMc_otpLe _ fun t => State.otpLe_of_part (by simp)
  case secBadCmd => exact u.hostAct_otpLe fun t => t.answer_otpLe _
  case armTimeoutExpiry | restConditionMet | linkFrame | linkLoss | linkRetrainAttempt | linkRestored |
      linkLaneRetraining | driveSupplyLoss | gatePhaseEnd | gateFault | desatTrip | hardShortTrip |
      softOffEnd | activeShortTurnOn | holdPumpTimeout | vccHoldLoss | busOv1 | busBelowOv1Hyst | busOv2 |
      ov2HoldExpiry | busOv3 | chopperEffectCheck | rbsRise | rbsFall | rbsReverse | rbsReverseRecovery |
      parameterTableRead | flashNoAnswer | octalSwitch | headerCheck | imageStreamComplete | imagePostChecks |
      logbookRestore | memoryPortGrant | flashStatusPoll | nvmTimeout | routeTimeout | txPeriodExpiry |
      txAttemptEnd | busOffRecoveryDone | canModeChange | scheduleMark | schedMiss | referenceMessage |
      referenceLost | canBusIntegration | canBusError | chopperMinimumTimeEnd =>
    exact State.otpLe_of_part (by simp)
  -- the one command left is SEAL
  exact u.hostAct_otpLe fun t => t.secSeal_otpLe _
end Sys2Proof.Machine

open Sys2Proof Sys2Proof.Machine

/-- Settles O4: a step idles or ends a command, whose effect keeps the order, as the time that passes before it does. -/
theorem lifecycleOnlyAdvances : Obligations.LifecycleOnlyAdvances := by
  intro s t hstep
  unfold step at hstep
  split at hstep
  · cases hstep; exact ⟨Nat.le_refl _, Nat.le_refl _⟩
  next c rest _ =>
    rcases exec_otpLe c { s with pending := rest } with ⟨dt, e, hx, he⟩ | hx
    · rw [hx] at hstep
      cases hstep
      exact (State.elapse_otpLe { s with pending := rest } dt).trans he
    · rw [hx] at hstep; cases hstep

end

section
/-! PROOFS. Reset: the machine after reset, and what its assertion and its release leave. -/

namespace Sys2Proof.Machine

/-- A row whose meaning is `eff` after the time that passes gives its effect. -/
theorem State.gives_after {s u : State} {dt : Nat} {i : Instr} {eff : State → State} {P : State → Prop}
    (hx : exec i s = s.after dt eff) (hu : s.elapse dt = u) (hp : P (eff u)) : s.Gives i dt P :=
  ⟨eff u, by rw [hx, State.after, hu], hp⟩

theorem State.reset_sound : State.reset.Sound := ⟨rfl, rfl⟩

theorem State.reset_cl_st (c : Cl) : (State.reset.cl[c]).st = .unused := by
  simp [State.reset, Cluster.reset]

theorem State.reset_gates_phase (o : Fin 40) : (State.reset.gates[o]).phase = .offHold := by
  simp [State.reset, GateOut.reset]

/-- What `toOff` leaves of the parts that no gate and no word belongs to. -/
theorem State.toOff_view (s : State) (h : s.dev.st ≠ .off) :
    s.toOff.dev.st = .off ∧ s.toOff.cl = State.reset.cl ∧ s.toOff.flash = s.flash
      ∧ s.toOff.sec = { Sec.reset with life := s.sec.life, rb := s.sec.rb, slots := s.sec.slots }
      ∧ s.toOff.hp = HostPort.reset ∧ s.toOff.boot = Boot.reset := by
  unfold toOff
  extract_lets motors a b c d t u
  rw [if_neg h]
  have hp : ∀ {p : Part}, p ∈ [.dev, .cl, .flash, .sec, .hp, .boot] →
      ((u.each motors fun n t => t.modMc n fun m => { m with dieSafe := true }).gatesNow).part p = t.part p := by
    intro p hp
    simp at hp
    rcases hp with rfl | rfl | rfl | rfl | rfl | rfl <;> simp [u, takeWords]
  have ht : t.dev.st = .off ∧ t.cl = State.reset.cl ∧ t.flash = s.flash
      ∧ t.sec = { Sec.reset with life := s.sec.life, rb := s.sec.rb, slots := s.sec.slots }
      ∧ t.hp = HostPort.reset ∧ t.boot = Boot.reset := ⟨rfl, rfl, rfl, rfl, rfl, rfl⟩
  clear_value t u
  generalize (u.each motors _).gatesNow = v at hp ⊢
  have hd : v.dev = t.dev := hp (p := .dev) (by simp)
  have hc : v.cl = t.cl := hp (p := .cl) (by simp)
  have hf : v.flash = t.flash := hp (p := .flash) (by simp)
  have hs : v.sec = t.sec := hp (p := .sec) (by simp)
  have hh : v.hp = t.hp := hp (p := .hp) (by simp)
  have hb : v.boot = t.boot := hp (p := .boot) (by simp)
  rw [hd, hc, hf, hs, hh, hb]
  exact ht

/-- What `release_n` leaves of the parts that no raising and no gate belongs to. -/
theorem State.release_n_view (s : State) (sess : BitVec 64) (h : s.dev.st = .off) :
    (s.release_n sess).dev = { s.dev with st := .basecamp, cause := 0 }
      ∧ (s.release_n sess).boot = { Boot.reset with phase := .params, fromOff := true, relAt := s.now }
      ∧ (s.release_n sess).sec = { s.sec with sess := sess, fresh := 0 }
      ∧ (s.release_n sess).flash = s.flash ∧ (s.release_n sess).cl = s.cl := by
  unfold release_n
  extract_lets b x m s1 s2 s3
  rw [if_pos h]
  have hp : ∀ {p : Part}, p ∈ [.dev, .boot, .sec, .flash, .cl] → (s3.gatesNow.supplyEvent).part p = s2.part p := by
    intro p hp
    simp at hp
    rcases hp with rfl | rfl | rfl | rfl | rfl <;> simp [s3]
  exact ⟨hp (p := .dev) (by simp), hp (p := .boot) (by simp), hp (p := .sec) (by simp), hp (p := .flash) (by simp),
    hp (p := .cl) (by simp)⟩

end Sys2Proof.Machine

open Sys2Proof Sys2Proof.Machine

theorem resetState : Claims.ResetState :=
  ⟨State.reset_sound, rfl, rfl, State.reset_cl_st, fun o => by rw [State.reset_gates_phase]; rfl, fun _ => rfl, fun _ => rfl⟩

theorem resetAndRelease_gives : Claims.ResetAndRelease := by
  intro s dt u off
  have hu : s.elapse dt = u := rfl
  clear_value u
  have hoff : u.dev.st ≠ .off → off u.toOff := fun h => by
    obtain ⟨hst, hcl, hfl, hsec, hhp, hboot⟩ := u.toOff_view h
    refine ⟨hst, fun c => by rw [hcl]; exact State.reset_cl_st c, hfl, ?_, ?_, ?_, by rw [hhp]; rfl, by rw [hboot]; rfl⟩
      <;> rw [hsec]
  refine ⟨fun h => ⟨State.gives_after rfl hu (hoff h), State.gives_after rfl hu (hoff h)⟩,
    fun h sess => State.gives_after (eff := (·.release_n sess)) rfl hu ?_⟩
  obtain ⟨hdev, hboot, hsec, hfl, hcl⟩ := u.release_n_view sess h
  generalize u.release_n sess = e at hdev hboot hsec hfl hcl ⊢
  simp [hdev, hboot, hsec, hfl, hcl]

/-- Settles O5, by what is left of each part by `toOff` and by `release_n`. -/
theorem resetAndRelease : Obligations.ResetAndRelease := ⟨resetState, resetAndRelease_gives⟩

end

section
/-! PROOFS. A state with nothing left to react to, and time in which nothing falls due. -/

namespace Sys2Proof.Machine

/-- Where no change of the list changes the state, the whole of it does not. -/
theorem State.each_of_fixed {α : Type} {s : State} {l : List α} {g : α → State → State} (h : ∀ a ∈ l, g a s = s) :
    s.each l g = s := by
  induction l with
  | nil => rfl
  | cons a l ih => rw [State.each_cons, h a (by simp)]; exact ih fun b hb => h b (by simp [hb])

/-- A replacement of an entry by itself. -/
theorem upd_getElem {α : Type} {n : Nat} (v : Vector α n) (i : Fin n) : upd v i v[i] = v := by
  simp [upd]

theorem State.modMc_of_fixed {s : State} {n : Mcn} {g : Mc → Mc} (h : g s.mc[n] = s.mc[n]) : s.modMc n g = s := by
  rw [State.modMc, h, upd_getElem]

/-! ## Nothing to react to -/

theorem reactAll_of_calm (k : Nat) {s : State} (h : s.raised = []) : reactAll k s = s := by
  cases k with
  | zero => rfl
  | succ k => rw [reactAll, h]; rfl

theorem State.startCheck_of_not_starting {s : State} {n : Mcn} (h : (s.cl[mcCl n]).st ≠ .starting) : s.startCheck n = s :=
  if_neg fun hc => h hc.1

theorem State.advance_of_quiet {e : State} (h : e.quiet) : e.advance = e := by
  obtain ⟨-, hcl, hagain⟩ := h
  unfold State.advance
  have hstart : (e.each allMc fun n s => s.startCheck n) = e :=
    State.each_of_fixed fun n _ => State.startCheck_of_not_starting (hcl _)
  have hdone : (e.each allCl fun c s =>
      if (s.cl[c]).startDone ∧ (s.cl[c]).st = .starting then s.enter c .running 3 none else s) = e :=
    State.each_of_fixed fun c _ => if_neg fun hc => hcl c hc.2
  rw [hstart]
  dsimp only
  rw [hdone]
  exact State.each_of_fixed fun n _ => if_neg (by rw [hagain n]; decide)

/-- LANTERN after a command: lit where it may, else as it was. -/
def State.litLantern (e : State) : Bool := e.lightable || e.dev.lantern

theorem State.settle_of_quiet {e : State} (h : e.quiet) : e.settle = e.modDev fun d => { d with lantern := e.litLantern } := by
  unfold State.settle State.litLantern
  rw [reactAll_of_calm 16 h.1]
  dsimp only
  rw [State.advance_of_quiet h, reactAll_of_calm 16 h.1, h.1]
  by_cases hl : e.lightable = true
  · simp [hl]
  · rw [if_neg (by simp [hl]), (by simpa using hl : e.lightable = false)]
    rfl

theorem State.done_store (s : State) (dt : Nat) (e : State) : (s.done dt e).store = canonWords e.settle.store := by
  simp only [State.done]

/-! ## Nothing that falls due -/

theorem State.runEdges_of_none_due {s : State} {n : Mcn} (h : ∀ e ∈ (s.mc[n]).pwm.edges, s.now16 < e.1) : s.runEdges n = s := by
  unfold State.runEdges
  rw [State.edgesGo]
  split
  · rfl
  next t p c r he => exact if_neg (by have := h (t, p, c) (he ▸ List.mem_cons_self); omega)

theorem State.legEdges_of_none_due {s : State} (h : ∀ n : Mcn, ∀ e ∈ (s.mc[n]).pwm.edges, s.now16 < e.1) :
    s.legEdges = s := State.each_of_fixed fun n _ => State.runEdges_of_none_due (h n)

theorem State.pulseEnds_of_none_past {s : State} (h : ∀ n : Mcn, ∀ x ∈ (s.mc[n]).pulse, s.now < x.2) : s.pulseEnds = s := by
  refine State.each_of_fixed fun n _ => ?_
  have hpast : (s.mc[n]).pulse.filter (fun x => decide (x.2 ≤ s.now)) = [] := by
    simpa using h n
  have hkeep : (s.mc[n]).pulse.filter (fun x => !decide (x.2 ≤ s.now)) = (s.mc[n]).pulse := by
    simpa [Prod.forall] using h n
  dsimp only
  rw [hpast, State.each_nil]
  exact State.modMc_of_fixed (by rw [hkeep])

theorem State.modCoil_of_fixed {s : State} {k : Chan} {x : Fin 2} {g : Coil → Coil}
    (h : g ((s.stp[k]).coils[x]) = (s.stp[k]).coils[x]) : s.modCoil k x g = s := by
  rw [State.modCoil, State.modStp, h, upd_getElem, upd_getElem]

theorem State.decayEnds_of_none_fast {s : State} (h : ∀ (k : Chan) (x : Fin 2), ((s.stp[k]).coils[x]).chop ≠ .fast) :
    s.decayEnds = s :=
  State.each_of_fixed fun k _ => State.each_of_fixed fun x _ => State.modCoil_of_fixed (if_neg fun hc => h k x hc.1)

end Sys2Proof.Machine

open Sys2Proof Sys2Proof.Machine

theorem quietEffectStands : Claims.QuietEffectStands := by
  intro s e dt hq
  have hset := State.settle_of_quiet hq
  refine ⟨⟨e.litLantern, ?_⟩, fun k => ?_, fun k => State.done_flashByte s dt e k⟩
  · rw [State.done, hset]
    refine State.ext_parts fun p => ?_
    cases p <;> rfl
  · have hst : (s.done dt e).store = canonWords e.store := by
      rw [State.done_store, hset]; rfl
    unfold State.word
    rw [hst, wordAt_canonWords]

theorem timePasses : Claims.TimePasses := by
  intro s dt hdue hfast
  unfold State.elapse
  have hcalm : (s.tick dt).legEdges = s.tick dt := State.legEdges_of_none_due fun n => (hdue n).1
  rw [hcalm, State.pulseEnds_of_none_past (s := s.tick dt) fun n => (hdue n).2,
    State.decayEnds_of_none_fast (s := s.tick dt) hfast]
  rfl

/-- Settles O7: nothing is raised, no start completes and no recovery begins again, so that settling only lights LANTERN; and
each of the three things that time brings about leaves the state where none is due. -/
theorem reactionsAndTime : Obligations.ReactionsAndTime := ⟨quietEffectStands, timePasses⟩

end

section
/-! PROOFS. The entry to a cluster state: what it writes into the cluster's record, and the records that it leaves. -/

namespace Sys2Proof.Machine

/-- `t` holds the clusters of `s`, but for the mark of a completed start in `c`. -/
def State.startMarked (s : State) (c : Cl) (t : State) : Prop :=
  ∃ b : Bool, t.cl = upd s.cl c { s.cl[c] with startDone := b }

theorem State.startMarked_of_part {s t : State} {c : Cl} (h : t.part .cl = s.part .cl) : s.startMarked c t :=
  ⟨(s.cl[c]).startDone, by rw [show t.cl = s.cl from h]; exact (upd_getElem s.cl c).symm⟩

theorem State.startMarked.trans {s t u : State} {c : Cl} (h : s.startMarked c t) (h' : t.startMarked c u) :
    s.startMarked c u := by
  obtain ⟨b, hb⟩ := h
  obtain ⟨b', hb'⟩ := h'
  refine ⟨b', ?_⟩
  rw [hb', hb]
  simp [upd]

theorem State.startMarked_ite {s t u : State} {c : Cl} {p : Prop} [Decidable p] (ht : s.startMarked c t)
    (hu : s.startMarked c u) : s.startMarked c (if p then t else u) := by
  split
  · exact ht
  · exact hu

theorem State.startReady_marks (s : State) (n : Mcn) : s.startMarked (mcCl n) (s.startReady n) := by
  have h : (s.estSet n R.MC_EST_STAT.phase 0).cl = s.cl := State.estSet_part (p := .cl) s n _ 0 (by simp)
  exact ⟨true, by rw [startReady, modCl, h]⟩

theorem State.startSpeed_marks (s : State) (n : Mcn) : s.startMarked (mcCl n) (s.startSpeed n) :=
  (startMarked_of_part (by simp)).trans (startReady_marks _ n)

theorem State.startAccel_marks (s : State) (n : Mcn) : s.startMarked (mcCl n) (s.startAccel n) :=
  startMarked_ite (startSpeed_marks s n)
    (startMarked_ite (startMarked_of_part (by simp)) (startMarked_of_part (by simp)))

theorem State.startFind_marks (s : State) (n : Mcn) : s.startMarked (mcCl n) (s.startFind n) := by
  unfold startFind
  extract_lets s1 s2 s3 s4
  have h1 : s.startMarked (mcCl n) s1 := startMarked_of_part (by simp [s1])
  refine startMarked_ite (h1.trans (startAccel_marks s1 n)) (h1.trans ?_)
  split
  · exact startMarked_of_part (by simp [s2, s3])
  · exact startMarked_of_part (by simp [s4])
  · exact startAccel_marks s1 n

theorem State.startBegin_marks (s : State) (n : Mcn) : s.startMarked (mcCl n) (s.startBegin n) := by
  unfold startBegin
  extract_lets s1 s2
  have h1 : s.startMarked (mcCl n) s1 := startMarked_of_part (by simp [s1])
  exact startMarked_ite (h1.trans (startMarked_of_part (by simp [s2]))) (h1.trans (startFind_marks s1 n))

theorem clMc_eq_some {c : Cl} {n : Mcn} (h : clMc c = some n) : c = mcCl n := by
  unfold clMc at h
  split at h
  · cases h; rfl
  · cases h

theorem State.startUnits_marks (s : State) (c : Cl) : s.startMarked c (s.startUnits c) := by
  unfold startUnits
  extract_lets s1
  have h1 : s.startMarked c s1 := startMarked_of_part (by simp [s1])
  refine h1.trans ?_
  split
  case h_1 n hn =>
    obtain rfl := clMc_eq_some hn
    extract_lets s2 s3 s4
    have h2 : s1.startMarked (mcCl n) s2 := startMarked_of_part rfl
    have h4 : s2.startMarked (mcCl n) s4 := startMarked_ite (startMarked_of_part (by simp [s3])) (startMarked_of_part (by simp [s3]))
    refine h2.trans (startMarked_ite (startMarked_of_part (by simp)) (h4.trans ?_))
    exact ((startMarked_of_part (t := s4.startFix n) (by simp)).trans (startBegin_marks _ n)).trans (startMarked_of_part (by simp))
  · exact startMarked_of_part (by simp)

/-- The record of a cluster that has entered a state, up to the mark of a completed start. -/
def Cluster.entered (x : Cluster) (goal : CState) (cause : Nat) (ev : Option Nat) (now : Nat) (b : Bool) : Cluster :=
  { x with st := goal, cause := cause, causeEvent := ev.getD x.causeEvent, enteredAt := now, heldStart := false
           startDone := b, autoStart := false }

theorem State.enter_cl (s : State) (c : Cl) (goal : CState) (cause : Nat) (ev : Option Nat) :
    ∃ b, (s.enter c goal cause ev).cl = upd s.cl c ((s.cl[c]).entered goal cause ev s.now b) := by
  unfold enter
  extract_lets was rearm s1 a s2
  have h2 : s2.cl = upd s.cl c ((s.cl[c]).entered goal cause ev s.now false) := rfl
  have hentered : ∀ {t : State}, s2.startMarked c t →
      ∃ b, t.cl = upd s.cl c ((s.cl[c]).entered goal cause ev s.now b) := fun ⟨b, hb⟩ =>
    ⟨b, by rw [hb, h2]; simp [upd, Cluster.entered]⟩
  clear_value s2
  cases goal <;> refine hentered ?_
  case armed => dsimp only; split <;> exact startMarked_of_part (by simp)
  case starting => exact (startMarked_of_part (by simp)).trans (startUnits_marks _ c)
  all_goals exact startMarked_of_part (by simp)

/-- What the entry to a state gives a cluster's record, and what of it stays. -/
structure Cluster.Moved (x y : Cluster) (goal : CState) (cause : Nat) (ev : Option Nat) (now : Nat) : Prop where
  st : y.st = goal
  cause : y.cause = cause
  enteredAt : y.enteredAt = now
  causeEvent : ∀ e, ev = some e → y.causeEvent = e
  setB : y.setB = x.setB
  swapPending : y.swapPending = x.swapPending

theorem Cluster.entered_moved (x : Cluster) (goal : CState) (cause : Nat) (ev : Option Nat) (now : Nat) (b : Bool) :
    x.Moved (x.entered goal cause ev now b) goal cause ev now :=
  ⟨rfl, rfl, rfl, fun e h => by rw [h]; rfl, rfl, rfl⟩

theorem State.enter_now (s : State) (c : Cl) (goal : CState) (cause : Nat) (ev : Option Nat) :
    (s.enter c goal cause ev).now = s.now := State.enter_part (p := .now) s c goal cause ev (by simp)

theorem State.enter_moves (s : State) (c : Cl) (goal : CState) (cause : Nat) (ev : Option Nat) :
    (s.cl[c]).Moved ((s.enter c goal cause ev).cl[c]) goal cause ev s.now := by
  obtain ⟨b, hb⟩ := s.enter_cl c goal cause ev
  rw [hb, upd_self]
  exact Cluster.entered_moved ..

theorem State.enter_other (s : State) {c y : Cl} (goal : CState) (cause : Nat) (ev : Option Nat) (h : y ≠ c) :
    (s.enter c goal cause ev).cl[y] = s.cl[y] := by
  obtain ⟨b, hb⟩ := s.enter_cl c goal cause ev
  rw [hb, upd_ne _ _ h]

/-- `enterAll` moves exactly the clusters of the list whose state it takes. -/
theorem State.enterAll_moves (s : State) (cs : List Cl) (ok : CState → Bool) (goal : CState) (cause : Nat) (ev : Option Nat)
    (y : Cl) :
    if y ∈ cs ∧ ok (s.cl[y]).st = true then (s.cl[y]).Moved ((s.enterAll cs ok goal cause ev).cl[y]) goal cause ev s.now
    else (s.enterAll cs ok goal cause ev).cl[y] = s.cl[y] := by
  induction cs generalizing s with
  | nil => simp [enterAll]
  | cons c cs ih =>
    have hstep : s.enterAll (c :: cs) ok goal cause ev
        = (if ok (s.cl[c]).st then s.enter c goal cause ev else s).enterAll cs ok goal cause ev := rfl
    rw [hstep]
    by_cases hok : ok (s.cl[c]).st = true
    · rw [if_pos hok]
      have h := ih (s.enter c goal cause ev)
      by_cases hy : y = c
      · subst hy
        have hm := s.enter_moves y goal cause ev
        rw [if_pos ⟨by simp, hok⟩]
        split at h
        · exact ⟨h.st, h.cause, h.enteredAt.trans (s.enter_now ..), h.causeEvent, h.setB.trans hm.setB,
            h.swapPending.trans hm.swapPending⟩
        · rw [h]; exact hm
      · rw [s.enter_other goal cause ev hy, s.enter_now] at h
        simpa [hy] using h
    · rw [if_neg hok]
      have h := ih s
      by_cases hy : y = c
      · subst hy
        rw [if_neg fun hc => hok hc.2] at h ⊢
        exact h
      · simpa [hy] using h

theorem State.enterAll_moved (s : State) (cs : List Cl) (ok : CState → Bool) (goal : CState) (cause : Nat) (ev : Option Nat) :
    s.moved (s.enterAll cs ok goal cause ev) cs ok goal cause := fun y => by
  have h := s.enterAll_moves cs ok goal cause ev y
  split
  next hy => rw [if_pos hy] at h; exact ⟨h.st, h.cause⟩
  next hy => rwa [if_neg hy] at h

end Sys2Proof.Machine

end

section
/-! PROOFS. ARM (R23): the checks in their order, and the reason that a rejected swap records. -/

namespace Sys2Proof.Machine

theorem clB_inj {x y : Cl} (h : clB x = clB y) : x = y := by
  revert x y; decide

theorem clB_apart {x y : Cl} (h : y ≠ x) (o : Nat) : clB y + o ≠ clB x + o := fun e => h (clB_inj (by omega))

/-- A field of the swap register of a cluster, once another cluster's rejection is recorded. -/
theorem State.rejectSwap_f_other (s : State) {x y : Cl} (r : Nat) (f : Fld) (hf : f.off = R.MC_SWAP.reg) (h : y ≠ x) :
    (s.rejectSwap x r).f (clB y) f = s.f (clB y) f := by
  have hoff : clB y + f.off ≠ clB x + R.MC_SWAP.reg := hf ▸ clB_apart h _
  exact (State.f_setF_other _ _ _ _ _ _ hoff).trans (State.f_setF_other _ _ _ _ _ _ hoff)

theorem State.rejectSwap_reject (s : State) (x : Cl) (r : Nat) : (s.rejectSwap x r).f (clB x) R.MC_SWAP.reject = 1 :=
  (State.f_setF_apart _ _ _ _ _ _ (by decide) (by decide)).trans (State.f_setF_self _ _ _ _ (by decide))

theorem State.rejectSwap_reason (s : State) (x : Cl) (r : Nat) :
    (s.rejectSwap x r).f (clB x) R.MC_SWAP.reason = r % 256 := State.f_setF_self _ _ _ _ (by decide)

/-- What a list of rejections with one reason leaves: only words, and in the swap register of every cluster of the list the
rejection and its reason. -/
theorem State.each_rejectSwap (s : State) (cs : List Cl) (r : Nat) :
    let e := s.each cs fun y s => s.rejectSwap y r
    e = { s with store := e.store }
      ∧ ∀ y, (y ∈ cs → e.f (clB y) R.MC_SWAP.reject = 1 ∧ e.f (clB y) R.MC_SWAP.reason = r % 256)
        ∧ (y ∉ cs → ∀ f : Fld, f.off = R.MC_SWAP.reg → e.f (clB y) f = s.f (clB y) f) := by
  induction cs generalizing s with
  | nil => exact ⟨rfl, fun y => ⟨fun h => absurd h (by simp), fun _ _ _ => rfl⟩⟩
  | cons c cs ih =>
    obtain ⟨hw, hf⟩ := ih (s.rejectSwap c r)
    refine ⟨hw, fun y => ?_⟩
    obtain ⟨hin, hout⟩ := hf y
    by_cases hy : y ∈ cs
    · exact ⟨fun _ => hin hy, fun h => absurd (List.mem_cons_of_mem c hy) h⟩
    · refine ⟨fun h => ?_, fun h f hoff => ?_⟩
      · obtain rfl : y = c := (List.mem_cons.1 h).resolve_right hy
        exact ⟨(hout hy _ rfl).trans (s.rejectSwap_reject y r), (hout hy _ rfl).trans (s.rejectSwap_reason y r)⟩
      · exact (hout hy f hoff).trans (s.rejectSwap_f_other r f hoff fun e => h (e ▸ List.mem_cons_self))

/-! ## Reasons -/

theorem firstReason_le {l : List (Nat × Bool)} {m : Nat} (h : ∀ x ∈ l, x.1 ≤ m) : firstReason l ≤ m := by
  induction l with
  | nil => exact Nat.zero_le m
  | cons x l ih =>
    rw [firstReason]
    split
    · exact ih fun y hy => h y (by simp [hy])
    · exact h x (by simp)

theorem Judge.reason_le (j : Judge) (s : State) : j.reason s ≤ 15 := firstReason_le (by simp)

theorem stepReason_le (s : State) (r : Rg) (set str : Chan → Nat) : stepReason s r set str ≤ 15 := by
  refine firstReason_le fun x hx => ?_
  obtain ⟨i, hi, rfl⟩ := List.mem_map.1 hx
  have hi : i < 4 := by simpa using hi
  have hk : i = 0 ∨ i = 1 ∨ i = 2 ∨ i = 3 := by omega
  rcases hk with rfl | rfl | rfl | rfl <;> simp [nth]

theorem State.armReason_le (s : State) (c : Cl) : s.armReason c ≤ 15 := by
  unfold armReason
  split
  · exact stepReason_le ..
  · dsimp only
    split
    · exact Judge.reason_le ..
    · split <;> omega

/-! ## The checks -/

/-- The check of known shorts of R23. -/
def State.shortOf (s : State) (x : Cl) : Bool :=
  match clMc x with
  | some n => s.known n != 0 || s.fb (mcB n) R.MC_GATE_SHORT.same_window
  | none => false

theorem State.shortOf_eq_false {s : State} {x : Cl} :
    s.shortOf x = false ↔ ∀ n, clMc x = some n → s.known n = 0 ∧ s.fb (mcB n) R.MC_GATE_SHORT.same_window = false := by
  unfold shortOf
  split
  next n hn => simp [hn]
  next hn => simp [hn]

theorem any_eq_false_iff {α : Type} {l : List α} {f : α → Bool} : l.any f = false ↔ ∀ x ∈ l, f x = false := by
  simp

section
variable {s : State} {c : Cl} {cs : List Cl} (hg : s.armGroup c = some cs)
include hg

theorem State.armCmd_notStopped (h : ¬ ((∀ x ∈ cs, (s.cl[x]).st = .stopped) ∧ s.dev.st ≠ .bivouac)) :
    s.armCmd c 1 = s.answer .badState := by
  unfold armCmd
  rw [hg]
  dsimp only
  by_cases hs : ∀ x ∈ cs, (s.cl[x]).st = .stopped
  · have hb : s.dev.st = .bivouac := Decidable.byContradiction fun hb => h ⟨hs, hb⟩
    rw [if_pos hb, ite_self]
  · obtain ⟨x, hx, hne⟩ := by simpa only [Classical.not_forall] using hs
    exact if_pos (List.any_eq_true.2 ⟨x, hx, by simpa using hne⟩)

variable (hs : ∀ x ∈ cs, (s.cl[x]).st = .stopped) (hb : s.dev.st ≠ .bivouac)
include hs hb

/-- Past the first check, the others decide. -/
theorem State.armCmd_stopped : s.armCmd c 1
    = if s.fb (rgB (clRg c)) R.RG_PS_STAT.bus_absent then s.answer .noBus
      else if cs.any s.shortOf then s.answer .knownShort
      else if cs.any fun x => s.faultIn x 3 false then s.answer .activeFault
      else if cs.any fun x => !s.armPort x then s.answer .struct
      else match cs.find? (fun x => s.armReason x != 0) with
        | some x => (s.each cs fun y t => t.rejectSwap y (s.armReason x)).answer .swapReject
        | none => (s.each cs fun x t => t.enter x .armed 1 none).answer .ok := by
  unfold armCmd
  rw [hg]
  dsimp only
  rw [if_neg (by simpa using hs), if_neg hb]
  rfl

end

end Sys2Proof.Machine

open Sys2Proof Sys2Proof.Machine

theorem armMovesToArmed : Claims.ArmMovesToArmed := by
  intro s dt c cs u a ho hg hs hb hbus hknown hfault hport hreason
  have hu : s.elapse dt = u := rfl
  clear_value u
  have hcmd : a.armCmd c 1 = (a.enterAll cs (fun _ => true) .armed 1 none).answer .ok := by
    have hk : cs.any a.shortOf = false := any_eq_false_iff.2 fun x hx => State.shortOf_eq_false.2 (hknown x hx)
    have hf : cs.any (fun x => a.faultIn x 3 false) = false := any_eq_false_iff.2 hfault
    have hp : cs.any (fun x => !a.armPort x) = false := any_eq_false_iff.2 fun x hx => by rw [hport x hx]; rfl
    have hr : cs.find? (fun x => a.armReason x != 0) = none := by simpa using hreason
    rw [State.armCmd_stopped hg hs hb, hbus, hk, hf, hp, hr]
    rfl
  refine State.gives_hostAct rfl hu ho (P := fun e => _) ?_
  show (a.armCmd c 1).status = _ ∧ u.moved (a.armCmd c 1) cs _ _ _ ∧ (∀ x ∈ cs, ((a.armCmd c 1).cl[x]).enteredAt = _)
    ∧ (a.armCmd c 1).outer = _
  rw [hcmd]
  refine ⟨rfl, fun y => ?_, fun x hx => ?_, by simp; rfl⟩
  · have h := a.enterAll_moved cs (fun _ => true) .armed 1 none y
    by_cases hy : y ∈ cs
    · rw [if_pos ⟨hy, rfl⟩] at h
      rw [if_pos ⟨hy, by rw [hs y hy]; rfl⟩]
      exact h
    · rw [if_neg fun hc => hy hc.1] at h
      rw [if_neg fun hc => hy hc.1]
      exact h
  · have h := a.enterAll_moves cs (fun _ => true) .armed 1 none x
    rw [if_pos ⟨hx, rfl⟩] at h
    exact h.enteredAt

theorem armChecksInOrder : Claims.ArmChecksInOrder := by
  intro s dt c cs u a stopped bus known faults ports ho hg
  have hu : s.elapse dt = u := rfl
  clear_value u
  have hk : cs.any a.shortOf = false ↔ known :=
    any_eq_false_iff.trans (forall₂_congr fun x _ => State.shortOf_eq_false)
  have hf : cs.any (fun x => a.faultIn x 3 false) = false ↔ faults := any_eq_false_iff
  have hp : cs.any (fun x => !a.armPort x) = false ↔ ports := by simp [ports]
  have hcmd := fun h : stopped => State.armCmd_stopped (s := a) hg h.1 h.2
  have hnot := State.armCmd_notStopped (s := a) hg
  have hgives : ∀ P : State → Prop, P (a.armCmd c 1) → s.Gives (.arm dt c) dt P := fun P h =>
    State.gives_hostAct rfl hu ho h
  refine ⟨fun h1 => hgives _ (hnot h1), fun h1 h2 => hgives _ ?_, fun h1 h2 h3 => hgives _ ?_,
    fun h1 h2 h3 h4 => hgives _ ?_, fun h1 h2 h3 h4 h5 => hgives _ ?_, fun h1 h2 h3 h4 h5 x hx => hgives _ ?_⟩
  · rw [hcmd h1, if_pos (by simpa [bus] using h2)]
  · rw [hcmd h1, h2, if_neg (by decide), if_pos (by simpa using mt hk.1 h3)]
  · rw [hcmd h1, h2, hk.2 h3, if_neg (by decide), if_neg (by decide), if_pos (by simpa using mt hf.1 h4)]
  · rw [hcmd h1, h2, hk.2 h3, hf.2 h4, if_neg (by decide), if_neg (by decide), if_neg (by decide),
      if_pos (by simpa using mt hp.1 h5)]
  · rw [hcmd h1, h2, hk.2 h3, hf.2 h4, hp.2 h5, hx]
    obtain ⟨hw, hfields⟩ := a.each_rejectSwap cs (a.armReason x)
    have hle := a.armReason_le x
    refine ⟨congrArg (·.answer .swapReject) hw, fun y hy => ?_⟩
    obtain ⟨hreject, hreason⟩ := (hfields y).1 hy
    exact ⟨hreject, hreason.trans (by omega)⟩

/-- Settles O8, by the branch of `armCmd` that each check decides. -/
theorem armCommand : Obligations.ArmCommand := ⟨armMovesToArmed, armChecksInOrder⟩
end

section
/-! PROOFS. The state commands of a cluster (R20), arm_timeout and the rest condition (R21). -/

namespace Sys2Proof.Machine

/-- What `moved` says rests on the clusters alone. -/
theorem State.moved_congr {u v e f : State} {cs : List Cl} {ok : CState → Bool} {goal : CState} {cause : Nat}
    (h : v.moved f cs ok goal cause) (hu : u.cl = v.cl) (he : e.cl = f.cl) : u.moved e cs ok goal cause := by
  unfold State.moved
  rw [hu, he]
  exact h

theorem State.enterAll_status (s : State) (cs : List Cl) (ok : CState → Bool) (goal : CState) (cause : Nat)
    (ev : Option Nat) : (s.enterAll cs ok goal cause ev).status = s.status :=
  State.enterAll_part (p := .status) s cs ok goal cause ev (by simp)

/-- The event that `enterAll` records in a cluster that it moves. -/
theorem State.enterAll_causeEvent {s : State} {cs : List Cl} {ok : CState → Bool} {c : Cl} (goal : CState) (cause i : Nat)
    (hc : c ∈ cs) (hok : ok (s.cl[c]).st = true) : ((s.enterAll cs ok goal cause (some i)).cl[c]).causeEvent = i := by
  have h := s.enterAll_moves cs ok goal cause (some i) c
  rw [if_pos ⟨hc, hok⟩] at h
  exact h.causeEvent i rfl

/-! ## The commands where they name a transition -/

section
variable {s : State} {c : Cl} {cs : List Cl} (hg : s.cmdGroup c = some cs)
include hg

theorem State.disarmCmd_armed (h : (s.cl[c]).st = .armed) :
    s.disarmCmd c = (s.enterAll cs (· == .armed) .stopped 1 none).answer .ok := by
  simp only [disarmCmd, hg, h, if_true]

theorem State.startCmd_armed (h : (s.cl[c]).st = .armed) (hcold : ∀ x ∈ cs, s.coldBlocked x = false) :
    s.startCmd c = (s.enterAll cs (· == .armed) .starting 1 none).answer .ok := by
  have hc : cs.any s.coldBlocked = false := any_eq_false_iff.2 hcold
  simp only [startCmd, hg, h, startGo, hc, Bool.false_eq_true, if_false]

theorem State.stopCmd_turning (h : (s.cl[c]).st = .starting ∨ (s.cl[c]).st = .running) :
    s.stopCmd c = (s.enterAll cs (fun x => x == .starting || x == .running) .stopping 1 (some 0)).answer .ok := by
  rcases h with h | h <;> simp only [stopCmd, hg, h]

theorem State.safeCmd_active (h : (s.cl[c]).st.active = true) :
    s.safeCmd c = (s.enterAll cs CState.active .safe 1 (some 0)).answer .ok := by
  simp only [safeCmd, hg, h, if_true]

/-- CLEAR ends the safe state that a lost link left on a die, in the clusters that it moves. -/
def State.endDieSafe (s : State) (cs : List Cl) : State :=
  s.each cs fun x s => match clMc x with | some n => s.modMc n fun m => { m with dieSafe := false } | none => s

theorem State.clearCmd_faulted (h : (s.cl[c]).st = .faulted) (hfault : ∀ x ∈ cs, s.faultIn x 4 true = false) :
    s.clearCmd c = ((s.endDieSafe cs).enterAll cs (· == .faulted) .stopped 1 none).answer .ok := by
  have hf : (cs.any fun x => s.faultIn x 4 true) = false := any_eq_false_iff.2 hfault
  simp only [clearCmd, hg, h, hf, ne_eq, not_true, if_false, Bool.false_eq_true]
  rfl

end

theorem State.endDieSafe_cl (s : State) (cs : List Cl) : (s.endDieSafe cs).cl = s.cl :=
  State.each_keeps (P := fun t => t.cl = s.cl) (fun x t h => by split <;> exact h) s rfl

theorem State.endDieSafe_outer (s : State) (cs : List Cl) : (s.endDieSafe cs).outer = s.outer :=
  State.each_keeps (P := fun t => t.outer = s.outer) (fun x t h => by split <;> exact h) s rfl

/-! ## The commands where they name none -/

theorem State.disarmCmd_refused {s : State} {c : Cl} (h : (s.cl[c]).st ≠ .armed) : s.disarmCmd c = s.answer .badState := by
  unfold disarmCmd
  split
  · exact if_neg h
  · rfl

theorem State.startCmd_refused {s : State} {c : Cl} (h : (s.cl[c]).st ≠ .armed) (h' : (s.cl[c]).st ≠ .stopping) :
    s.startCmd c = s.answer .badState := by
  unfold startCmd
  split
  · split <;> first | contradiction | rfl
  · rfl

theorem State.stopCmd_refused {s : State} {c : Cl} (h : (s.cl[c]).st ≠ .starting) (h' : (s.cl[c]).st ≠ .running) :
    s.stopCmd c = s.answer .badState := by
  unfold stopCmd
  split
  · split <;> first | contradiction | rfl
  · rfl

theorem State.safeCmd_refused {s : State} {c : Cl} (h : (s.cl[c]).st.active = false) :
    s.safeCmd c = s.answer .badState := by
  unfold safeCmd
  split
  · rw [h]; rfl
  · rfl

theorem State.clearCmd_refused {s : State} {c : Cl} (h : (s.cl[c]).st ≠ .faulted) : s.clearCmd c = s.answer .badState := by
  unfold clearCmd
  split
  · exact if_pos h
  · rfl

end Sys2Proof.Machine

open Sys2Proof Sys2Proof.Machine

theorem stateCommandsMove : Claims.StateCommandsMove := by
  intro s dt c cs u a ho hg
  have hu : s.elapse dt = u := rfl
  clear_value u
  have hc : c ∈ cs := State.mem_cmdGroup hg
  refine ⟨fun h => State.gives_hostAct rfl hu ho ?_, fun h hcold => State.gives_hostAct rfl hu ho ?_,
    fun h => State.gives_hostAct rfl hu ho ?_, fun h => State.gives_hostAct rfl hu ho ?_,
    fun h hfault => State.gives_hostAct rfl hu ho ?_⟩
  · have he : a.clusterCmd c 2 = _ := State.disarmCmd_armed hg h
    rw [he]
    exact ⟨rfl, State.moved_congr (a.enterAll_moved _ _ _ _ _) rfl rfl, by simp; rfl⟩
  · have he : a.clusterCmd c 3 = _ := State.startCmd_armed hg h hcold
    rw [he]
    exact ⟨rfl, State.moved_congr (a.enterAll_moved _ _ _ _ _) rfl rfl, by simp; rfl⟩
  · have he : a.clusterCmd c 4 = _ := State.stopCmd_turning hg h
    rw [he]
    exact ⟨rfl, State.moved_congr (a.enterAll_moved _ _ _ _ _) rfl rfl,
      State.enterAll_causeEvent (s := a) _ _ _ hc (by rcases h with h | h <;> rw [State.asked_cl, h] <;> rfl), by simp; rfl⟩
  · have he : a.clusterCmd c 5 = _ := State.safeCmd_active hg h
    rw [he]
    exact ⟨rfl, State.moved_congr (a.enterAll_moved _ _ _ _ _) rfl rfl, State.enterAll_causeEvent (s := a) _ _ _ hc h, by simp; rfl⟩
  · have he : a.clusterCmd c 6 = _ := State.clearCmd_faulted hg h hfault
    rw [he]
    exact ⟨rfl, State.moved_congr ((a.endDieSafe cs).enterAll_moved _ _ _ _ _) (a.endDieSafe_cl cs).symm rfl,
      by simp [State.endDieSafe_outer]; rfl⟩

theorem stateCommandsRefused : Claims.StateCommandsRefused := by
  intro s dt c u a st ho
  have hu : s.elapse dt = u := rfl
  clear_value u
  exact ⟨fun h => State.gives_hostAct rfl hu ho (State.disarmCmd_refused h),
    fun h h' => State.gives_hostAct rfl hu ho (State.startCmd_refused h h'),
    fun h h' => State.gives_hostAct rfl hu ho (State.stopCmd_refused h h'),
    fun h => State.gives_hostAct rfl hu ho (State.safeCmd_refused h),
    fun h => State.gives_hostAct rfl hu ho (State.clearCmd_refused h)⟩

theorem timeoutAndRestMove : Claims.TimeoutAndRestMove := by
  intro s dt c u cs
  have hu : s.elapse dt = u := rfl
  clear_value u
  have hview : ∀ (ok : CState → Bool) (goal : CState) (cause : Nat), let e := u.enterAll cs ok goal cause none
      u.moved e cs ok goal cause ∧ e.status = u.status ∧ e.outer = u.outer := fun ok goal cause =>
    ⟨u.enterAll_moved _ _ _ _ _, u.enterAll_status .., by simp⟩
  refine ⟨fun hst ht hnow => State.gives_after (eff := (·.armTimeout c)) rfl hu ?_,
    fun hr hst => State.gives_after (eff := (·.restMet c)) rfl hu ?_,
    fun hr hst => State.gives_after (eff := (·.restMet c)) rfl hu ?_,
    fun hr => State.gives_after (eff := (·.restMet c)) rfl hu ?_⟩
  · have he : u.armTimeout c = _ := if_pos ⟨hst, ht, hnow⟩
    rw [he]
    exact hview ..
  · have he : u.restMet c = u.enterAll cs (· == .stopping) .stopped 4 none := by
      simp only [State.restMet, show (u.group c).all u.atRest = true from hr, hst, if_true]; rfl
    rw [he]
    exact hview ..
  · have he : u.restMet c = u.enterAll cs (· == .safe) .faulted 4 none := by
      simp only [State.restMet, show (u.group c).all u.atRest = true from hr, hst, if_true]; rfl
    rw [he]
    exact hview ..
  · exact if_neg (by rw [show (u.group c).all u.atRest = false from hr]; decide)

/-- Settles O10: each command reaches the branch that its cluster state selects, and `enterAll` moves the clusters of its
group whose state it takes, and no other. -/
theorem stateCommands : Obligations.StateCommands := ⟨stateCommandsMove, stateCommandsRefused, timeoutAndRestMove⟩
end

section
/-! PROOFS. The copy of the active set into the shadow (R20, R30): what each word reads after `copyRange`, and the reset
values that the two sets of a cluster share. -/

namespace Sys2Proof.Machine

theorem rising_iff_pairwise (m : List (Nat × Word)) : rising m = true ↔ m.Pairwise fun a b => a.1 < b.1 := by
  induction m with
  | nil => simp [rising]
  | cons e m ih =>
    obtain ⟨k, w⟩ := e
    rw [rising_cons, ih, List.pairwise_cons]

theorem wordAt_filter (m : List (Nat × Word)) (p : Nat → Bool) (k : Nat) :
    wordAt (m.filter fun e => p e.1) k = if p k = true then wordAt m k else none := by
  induction m with
  | nil => simp [wordAt]
  | cons e m ih =>
    obtain ⟨a, w⟩ := e
    rw [List.filter_cons]
    by_cases ha : p a = true
    · rw [if_pos ha]
      simp only [wordAt, ih]
      by_cases h : a = k
      · subst h; simp [ha]
      · simp [h]
    · rw [if_neg ha, ih]
      by_cases h : a = k
      · subst h; simp [ha]
      · simp only [wordAt, if_neg h]

theorem wordAt_eq_none {m : List (Nat × Word)} {k : Nat} (h : ∀ e ∈ m, e.1 ≠ k) : wordAt m k = none := by
  induction m with
  | nil => rfl
  | cons e m ih =>
    obtain ⟨a, w⟩ := e
    rw [wordAt, if_neg (h _ List.mem_cons_self), ih fun e he => h e (List.mem_cons_of_mem _ he)]

/-- The insertion of the entries of a list, each with its key moved from `src` to `dst`. -/
def insertMoved (src dst : Nat) (m : List (Nat × Word)) (e : Nat × Word) : List (Nat × Word) :=
  insertKey m (e.1 - src + dst) e.2

theorem wordAt_insertMoved {src dst : Nat} {l : List (Nat × Word)} (hl : l.Pairwise fun a b => a.1 < b.1)
    (hsrc : ∀ e ∈ l, src ≤ e.1) (m : List (Nat × Word)) (k : Nat) :
    wordAt (l.foldl (insertMoved src dst) m) k
      = (if dst ≤ k then wordAt l (k - dst + src) else none).or (wordAt m k) := by
  induction l generalizing m with
  | nil => simp [wordAt]
  | cons e l ih =>
    obtain ⟨a, w⟩ := e
    obtain ⟨hlt, hl'⟩ := List.pairwise_cons.1 hl
    have ha : src ≤ a := hsrc _ List.mem_cons_self
    rw [List.foldl_cons, ih hl' fun e he => hsrc e (List.mem_cons_of_mem _ he), insertMoved, wordAt_insertKey]
    dsimp only
    by_cases hk : k = a - src + dst
    · have hka : k - dst + src = a := by omega
      have hdst : dst ≤ k := by omega
      have hnone : wordAt l a = none := wordAt_eq_none fun e he => Nat.ne_of_gt (hlt e he)
      simp [hk, hka, wordAt, hnone, ha]
    · rw [if_neg hk]
      by_cases hd : dst ≤ k
      · have hka : ¬ a = k - dst + src := by omega
        simp [hd, wordAt, hka]
      · simp [hd]

/-- A word of the destination reads as that of the source, listed or not; every other word as before. -/
theorem wordAt_copyRange {m : List (Nat × Word)} (hm : rising m = true) (src dst size k : Nat) :
    wordAt (copyRange m src dst size) k
      = if dst ≤ k ∧ k < dst + size then wordAt m (k - dst + src) else wordAt m k := by
  have hp := ((rising_iff_pairwise m).1 hm).filter fun e => decide (src ≤ e.1) && decide (e.1 < src + size)
  have hcopy : copyRange m src dst size
      = (m.filter fun e => decide (src ≤ e.1) && decide (e.1 < src + size)).foldl (insertMoved src dst)
        (m.filter fun e => !(decide (dst ≤ e.1) && decide (e.1 < dst + size))) := rfl
  rw [hcopy, wordAt_insertMoved hp (fun e he => by simp at he; exact he.2.1),
    wordAt_filter m fun a => decide (src ≤ a) && decide (a < src + size),
    wordAt_filter m fun a => !(decide (dst ≤ a) && decide (a < dst + size))]
  by_cases hk : dst ≤ k ∧ k < dst + size
  · obtain ⟨h1, h2⟩ := hk
    have h3 : src ≤ k - dst + src := by omega
    have h4 : k - dst + src < src + size := by omega
    simp [h1, h2, h4]
  · rw [if_neg hk]
    by_cases h1 : dst ≤ k
    · have h2 : ¬ k < dst + size := fun h => hk ⟨h1, h⟩
      have h4 : ¬ k - dst + src < src + size := by omega
      simp [h1, h2, h4]
    · simp [h1]

theorem rising_copyRange {m : List (Nat × Word)} (hm : rising m = true) (src dst size : Nat) :
    rising (copyRange m src dst size) = true := by
  unfold copyRange
  have hk : rising (m.filter fun e => !(decide (dst ≤ e.1) && decide (e.1 < dst + size))) = true :=
    (rising_iff_pairwise _).2 (((rising_iff_pairwise m).1 hm).filter _)
  generalize m.filter (fun e => !(decide (dst ≤ e.1) && decide (e.1 < dst + size))) = acc at hk ⊢
  generalize m.filter (fun e => decide (src ≤ e.1) && decide (e.1 < src + size)) = l
  dsimp only
  induction l generalizing acc with
  | nil => exact hk
  | cons e l ih => exact ih _ (rising_insertKey _ _ hk)

/-! ## The reset values of the two sets -/

theorem locate_mc {a : Nat} (hlo : 0x100000 ≤ a) (hhi : a < 0x160000) :
    locate a = (let n : Fin 6 := ⟨(a - 0x100000) / 0x10000 % 6, by omega⟩
      let o := a % 0x10000
      if o < 0x2000 then (.mc n, o)
      else if o < 0x8000 then (.none, a)
      else if o < 0xC000 then (.mcSet n false, o - 0x8000)
      else (.mcSet n true, o - 0xC000)) := by
  unfold locate
  iterate 13 rw [if_neg (by omega)]
  rw [if_pos hhi]

theorem locate_st {a : Nat} (hlo : 0x180000 ≤ a) (hhi : a < 0x188000) :
    locate a = (let k : Fin 8 := ⟨(a - 0x180000) / 0x1000 % 8, by omega⟩
      let o := a % 0x1000
      if o < 0x800 then (.st k, o) else if o < 0xC00 then (.stSet k false, o - 0x800) else (.stSet k true, o - 0xC00)) := by
  unfold locate
  iterate 15 rw [if_neg (by omega)]
  rw [if_pos hhi]

theorem locate_mcSetB (n : Mcn) (b : Bool) {o : Nat} (ho : o < 0x4000) : locate (mcSetB n b + o) = (.mcSet n b, o) := by
  have hb : b2n b ≤ 1 := by cases b <;> decide
  have hn := n.isLt
  have hoff : (mcSetB n b + o) % 0x10000 = 0x8000 + b2n b * 0x4000 + o := by simp only [mcSetB, mcB]; omega
  have hidx : (⟨(mcSetB n b + o - 0x100000) / 0x10000 % 6, by omega⟩ : Fin 6) = n :=
    Fin.ext (by simp only [mcSetB, mcB]; omega)
  rw [locate_mc (by simp only [mcSetB, mcB]; omega) (by simp only [mcSetB, mcB]; omega)]
  dsimp only
  rw [hidx, hoff]
  cases b
  · rw [if_neg (by simp [b2n]; omega), if_neg (by simp [b2n]), if_pos (by simp [b2n]; omega)]
    exact congrArg _ (by simp [b2n])
  · rw [if_neg (by simp [b2n]; omega), if_neg (by simp [b2n]; omega), if_neg (by simp [b2n])]
    exact congrArg _ (by simp [b2n])

theorem locate_stSetB (k : Chan) (b : Bool) {o : Nat} (ho : o < 0x400) : locate (stSetB k b + o) = (.stSet k b, o) := by
  have hb : b2n b ≤ 1 := by cases b <;> decide
  have hn := k.isLt
  have hoff : (stSetB k b + o) % 0x1000 = 0x800 + b2n b * 0x400 + o := by simp only [stSetB, stB]; omega
  have hidx : (⟨(stSetB k b + o - 0x180000) / 0x1000 % 8, by omega⟩ : Fin 8) = k :=
    Fin.ext (by simp only [stSetB, stB]; omega)
  rw [locate_st (by simp only [stSetB, stB]; omega) (by simp only [stSetB, stB]; omega)]
  dsimp only
  rw [hidx, hoff]
  cases b
  · rw [if_neg (by simp [b2n]), if_pos (by simp [b2n]; omega)]
    exact congrArg _ (by simp [b2n])
  · rw [if_neg (by simp [b2n]; omega), if_neg (by simp [b2n])]
    exact congrArg _ (by simp [b2n])

theorem regReset_mcSetB (n : Mcn) (b b' : Bool) {o : Nat} (ho : o < 0x4000) :
    regReset (mcSetB n b + o) = regReset (mcSetB n b' + o) := by
  have hk (b : Bool) : (mcSetB n b + o) % 0x1000000 = mcSetB n b + o := by
    have hb : b2n b ≤ 1 := by cases b <;> decide
    simp only [mcSetB, mcB]; omega
  unfold regReset
  simp only [hk, locate_mcSetB n _ ho]
  rfl

theorem regReset_stSetB (k : Chan) (b b' : Bool) {o : Nat} (ho : o < 0x400) :
    regReset (stSetB k b + o) = regReset (stSetB k b' + o) := by
  have hk (b : Bool) : (stSetB k b + o) % 0x1000000 = stSetB k b + o := by
    have hb : b2n b ≤ 1 := by cases b <;> decide
    simp only [stSetB, stB]; omega
  unfold regReset
  simp only [hk, locate_stSetB k _ ho]
  rfl

theorem stSetB_apart {j k : Chan} {b b' : Bool} (h : j ≠ k ∨ b ≠ b') {o : Nat} (ho : o < 0x400) :
    ¬ (stSetB k b' ≤ stSetB j b + o ∧ stSetB j b + o < stSetB k b' + 0x400) := by
  have hb : b2n b ≤ 1 := by cases b <;> decide
  have hb' : b2n b' ≤ 1 := by cases b' <;> decide
  have hne : j.val ≠ k.val ∨ b2n b ≠ b2n b' := h.imp (fun h e => h (Fin.ext e)) fun h e => h (by cases b <;> cases b' <;> simp_all [b2n])
  simp only [stSetB, stB]
  omega

/-! ## The copy -/

/-- The store after the shadow of the channels of a list has been copied from their active sets; `b` says which set each
uses. -/
def copyChans (b : Chan → Bool) (l : List Chan) (m : List (Nat × Word)) : List (Nat × Word) :=
  l.foldl (fun m k => copyRange m (stSetB k (b k)) (stSetB k (!b k)) 0x400) m

theorem wordAt_copyChans (b : Chan → Bool) {l : List Chan} (hl : l.Nodup) {m : List (Nat × Word)} (hm : rising m = true) :
    (∀ k ∈ l, ∀ o < 0x400, wordAt (copyChans b l m) (stSetB k (!b k) + o) = wordAt m (stSetB k (b k) + o))
      ∧ ∀ x, (∀ k ∈ l, ¬ (stSetB k (!b k) ≤ x ∧ x < stSetB k (!b k) + 0x400)) → wordAt (copyChans b l m) x = wordAt m x := by
  induction l generalizing m with
  | nil => exact ⟨fun k hk => absurd hk (by simp), fun x _ => rfl⟩
  | cons c l ih =>
    obtain ⟨hc, hl⟩ := List.nodup_cons.1 hl
    obtain ⟨hin, hout⟩ := ih hl (rising_copyRange hm (stSetB c (b c)) (stSetB c (!b c)) 0x400)
    refine ⟨fun k hk o ho => ?_, fun x hx => ?_⟩
    · by_cases hkc : k = c
      · subst hkc
        have hapart : ∀ j ∈ l, ¬ (stSetB j (!b j) ≤ stSetB k (!b k) + o ∧ stSetB k (!b k) + o < stSetB j (!b j) + 0x400) :=
          fun j hj => stSetB_apart (.inl fun e : k = j => hc (e ▸ hj)) ho
        refine (hout _ hapart).trans ?_
        rw [wordAt_copyRange hm, if_pos ⟨by omega, by omega⟩]
        congr 1; omega
      · refine (hin k (by simpa [hkc] using hk) o ho).trans ?_
        rw [wordAt_copyRange hm, if_neg (stSetB_apart (.inl hkc) ho)]
    · refine (hout x fun k hk => hx k (List.mem_cons_of_mem _ hk)).trans ?_
      rw [wordAt_copyRange hm, if_neg (hx c List.mem_cons_self)]

theorem each_store {α : Type} (s : State) (l : List α) (f : α → List (Nat × Word) → List (Nat × Word)) :
    s.each l (fun a t => { t with store := f a t.store }) = { s with store := l.foldl (fun m a => f a m) s.store } := by
  induction l generalizing s with
  | nil => rfl
  | cons a l ih => exact ih { s with store := f a s.store }

/-- The copy's end in a motor or converter cluster. -/
theorem State.copyDone_mc {s : State} {c : Cl} {n : Mcn} (hc : clMc c = some n) (hcopy : (s.cl[c]).copying = true) :
    s.copyDone c = ({ s with store := copyRange s.store (s.act n) (s.shadow n) 0x4000 } : State).modCl c fun x =>
      { x with copying := false } := by
  simp only [copyDone, hcopy, if_true, setRanges, hc]
  rfl

theorem rgChans_nodup (r : Rg) : (rgChans r).Nodup := by
  revert r; decide

/-- The copy's end in a stepper cluster. -/
theorem State.copyDone_sc {s : State} {c : Cl} (hc : clMc c = none) (hcopy : (s.cl[c]).copying = true) :
    s.copyDone c = ({ s with
      store := copyChans (fun k => (s.cl[stCl k]).setB) (rgChans (clRg c)) s.store } : State).modCl c fun x =>
        { x with copying := false } := by
  simp only [copyDone, hcopy, if_true, setRanges, hc, List.zip_map', Bool.false_eq_true, if_false]
  rw [each_store s _ fun (p : (Nat × Nat) × (Nat × Nat)) m => copyRange m p.1.1 p.2.1 p.1.2, List.foldl_map]
  rfl

/-- What lies outside the drive clusters and lanes is as before where each of its parts is. -/
theorem State.outer_of_parts {s t : State}
    (h : t.part .flash = s.part .flash ∧ t.part .sec = s.part .sec ∧ t.part .can = s.part .can ∧ t.part .sp = s.part .sp
      ∧ t.part .mp = s.part .mp ∧ t.part .hp = s.part .hp ∧ t.part .boot = s.part .boot
      ∧ t.part .imgSheets = s.part .imgSheets ∧ t.part .rowMap = s.part .rowMap ∧ t.part .rowDead = s.part .rowDead
      ∧ t.part .atlChk = s.part .atlChk) : t.outer = s.outer := by
  obtain ⟨h1, h2, h3, h4, h5, h6, h7, h8, h9, h10, h11⟩ := h
  exact Prod.ext h1 (Prod.ext h2 (Prod.ext h3 (Prod.ext h4 (Prod.ext h5 (Prod.ext h6 (Prod.ext h7 (Prod.ext h8
    (Prod.ext h9 (Prod.ext h10 h11)))))))))

/-- In a cluster in use, a row whose meaning is `onCl c act` gives the effect of `act`. -/
theorem State.gives_onCl {s u : State} {dt : Nat} {i : Instr} {c : Cl} {act : State → State} {P : State → Prop}
    (hx : exec i s = s.after dt (·.onCl c act)) (hu : s.elapse dt = u) (hc : (u.cl[c]).st ≠ .unused) (hp : P (act u)) :
    s.Gives i dt P :=
  ⟨act u, by rw [hx, State.after, hu, State.onCl_live hc], hp⟩

/-- A change of the records of the clusters of a list, the same for each: only those records change. -/
theorem State.each_modCl (s : State) (l : List Cl) (g : Cluster → Cluster) (hg : ∀ x, g (g x) = g x) :
    let e := s.each l fun c t => t.modCl c g
    e = { s with cl := e.cl } ∧ ∀ y : Cl, e.cl[y] = if y ∈ l then g s.cl[y] else s.cl[y] := by
  induction l generalizing s with
  | nil => exact ⟨rfl, fun y => by simp⟩
  | cons c l ih =>
    obtain ⟨hw, hcl⟩ := ih (s.modCl c g)
    refine ⟨hw, fun y => (hcl y).trans ?_⟩
    rw [State.modCl, upd_get]
    by_cases hy : y = c
    · subst hy
      rw [if_pos rfl, hg, ite_self, if_pos List.mem_cons_self]
    · simp only [List.mem_cons, hy, false_or, if_false]

/-- The store replaced and the mark of the copy taken back: what is left. -/
theorem State.copied_view (u : State) (m : List (Nat × Word)) (c : Cl) :
    let e := ({ u with store := m } : State).modCl c fun x => { x with copying := false }
    e = { u with cl := e.cl, store := e.store } ∧ e.store = m
      ∧ ∀ y : Cl, e.cl[y] = if y = c then { u.cl[y] with copying := false } else u.cl[y] :=
  ⟨rfl, rfl, fun y => by
    refine (upd_get u.cl c y _).trans ?_
    split
    · subst_vars; rfl
    · rfl⟩

end Sys2Proof.Machine

open Sys2Proof Sys2Proof.Machine

theorem copyShadowCopies : Claims.CopyShadowCopies := by
  intro s dt c cs u a
  have hu : s.elapse dt = u := rfl
  clear_value u
  refine ⟨fun ho hg hused hfree => State.gives_hostAct (act := fun t => t.copyShadow c) rfl hu ho ?_,
    fun hwf hused hcopy => State.gives_onCl (act := fun t => t.copyDone c) rfl hu hused ?_⟩
  · have he : a.copyShadow c = (a.each cs fun x s => s.modCl x fun y => { y with copying := true }).answer .ok := by
      have hl : cs.any a.setLocked = false := any_eq_false_iff.2 hfree
      rw [State.copyShadow, show a.cmdGroup c = some cs from hg]
      dsimp only
      rw [if_neg (show (a.cl[c]).st ≠ .unused from hused), hl, if_neg (by decide)]
    obtain ⟨hw, hcl⟩ := a.each_modCl cs (fun y => { y with copying := true }) fun _ => rfl
    rw [he]
    exact ⟨congrArg (·.answer .ok) hw, hcl⟩
  · have hrise : rising u.store = true := (Bool.and_eq_true _ _ ▸ hwf).1
    cases hc : clMc c with
    | some n =>
      obtain ⟨hw, hstore, hcl⟩ := u.copied_view (copyRange u.store (u.act n) (u.shadow n) 0x4000) c
      rw [State.copyDone_mc hc hcopy]
      generalize State.modCl _ _ _ = e at hw hstore hcl ⊢
      have hword : ∀ k, e.word k = (wordAt (copyRange u.store (u.act n) (u.shadow n) 0x4000) k).getD (regReset k) := fun k => by
        rw [State.word, hstore]
      refine ⟨hw, hcl, fun m hm => ?_, fun h => absurd h (by simp)⟩
      obtain rfl : n = m := Option.some.inj hm
      refine ⟨fun o ho => ?_, fun k hk => ?_⟩
      · rw [hword, wordAt_copyRange hrise, if_pos ⟨by omega, by omega⟩,
          show u.shadow n + o - u.shadow n + u.act n = u.act n + o by omega,
          show regReset (u.shadow n + o) = regReset (u.act n + o) from regReset_mcSetB n _ _ ho]
        rfl
      · rw [hword, wordAt_copyRange hrise, if_neg hk]
        rfl
    | none =>
      obtain ⟨hw, hstore, hcl⟩ :=
        u.copied_view (copyChans (fun k => (u.cl[stCl k]).setB) (rgChans (clRg c)) u.store) c
      rw [State.copyDone_sc hc hcopy]
      generalize State.modCl _ _ _ = e at hw hstore hcl ⊢
      refine ⟨hw, hcl, fun m hm => absurd hm (by simp), fun _ k hk o ho => ?_⟩
      obtain ⟨hword, -⟩ := wordAt_copyChans (fun k => (u.cl[stCl k]).setB) (rgChans_nodup (clRg c)) hrise
      rw [State.word, hstore]
      refine (congrArg (fun w => Option.getD w _) (hword k hk o ho)).trans ?_
      rw [show regReset (u.shadowSt k + o) = regReset (u.actSt k + o) from regReset_stSetB k _ _ ho]
      rfl

end

section
/-! PROOFS. Cluster swaps (R28, R29, R31). -/

namespace Sys2Proof.Machine

theorem State.swapReason_le (s : State) (ch : Cl → Bool) (c : Cl) : s.swapReason ch c ≤ 15 := by
  unfold swapReason
  split
  · omega
  · split
    · exact Judge.reason_le ..
    · exact stepReason_le ..

theorem State.partner_ne {s : State} {n q : Mcn} (h : s.partner n = some q) : q ≠ n := by
  unfold partner at h
  dsimp only at h
  split at h
  · split at h
    next hq => cases h; exact hq.1
    next => cases h
  · cases h

theorem State.group_nodup (s : State) (c : Cl) : (s.group c).Nodup := by
  unfold group
  split
  next n hn =>
    split
    next q hq =>
      obtain rfl := clMc_eq_some hn
      have hne : mcCl n ≠ mcCl q := fun e => State.partner_ne hq (Fin.ext (congrArg Fin.val e).symm)
      simp [hne]
    next => simp
  next => simp

section
variable {s : State} {c : Cl} {cs : List Cl} (ecc : Ecc) (hg : s.cmdGroup c = some cs)
  (hfree : ∀ x ∈ cs, s.setLocked x = false)
include hg hfree

theorem State.swapReq_rejected {x : Cl}
    (hx : cs.find? (fun x => ((s.discardAll cs).answer .ok).swapReason cs.contains x != 0) = some x) :
    s.swapReq c ecc = ((s.discardAll cs).answer .ok).each cs fun y t =>
      t.rejectSwap y (((s.discardAll cs).answer .ok).swapReason cs.contains x) := by
  have hl : cs.any s.setLocked = false := any_eq_false_iff.2 hfree
  simp only [swapReq, hg, hl, hx, Bool.false_eq_true, if_false]

theorem State.swapReq_waits (hok : ∀ x ∈ cs, ((s.discardAll cs).answer .ok).swapReason cs.contains x = 0)
    (hfill : (fillAll ecc cs ((s.discardAll cs).answer .ok)).2 = none) :
    s.swapReq c ecc = (fillAll ecc cs ((s.discardAll cs).answer .ok)).1.each cs fun y s =>
      (s.setF (clB y) R.MC_SWAP.reject 0).modCl y fun x => { x with swapPending := true } := by
  have hl : cs.any s.setLocked = false := any_eq_false_iff.2 hfree
  have hx : cs.find? (fun x => ((s.discardAll cs).answer .ok).swapReason cs.contains x != 0) = none := by simpa using hok
  simp only [swapReq, hg, hl, hx, Bool.false_eq_true, if_false]
  rw [show fillAll ecc cs ((s.discardAll cs).answer .ok) = (_, none) from Prod.ext rfl hfill]

end

/-- What a list of accepted requests leaves: the mark of the swap that waits in each cluster of the list, and no rejection. -/
theorem State.each_swapWaits (s : State) (cs : List Cl) :
    let e := s.each cs fun y s => (s.setF (clB y) R.MC_SWAP.reject 0).modCl y fun x => { x with swapPending := true }
    (∀ y : Cl, e.cl[y] = if y ∈ cs then { s.cl[y] with swapPending := true } else s.cl[y])
      ∧ e.status = s.status
      ∧ ∀ y, (y ∈ cs → e.f (clB y) R.MC_SWAP.reject = 0)
        ∧ (y ∉ cs → e.f (clB y) R.MC_SWAP.reject = s.f (clB y) R.MC_SWAP.reject) := by
  induction cs generalizing s with
  | nil => exact ⟨fun y => by simp, rfl, fun y => ⟨fun h => absurd h (by simp), fun _ => rfl⟩⟩
  | cons c cs ih =>
    obtain ⟨hcl, hst, hf⟩ := ih ((s.setF (clB c) R.MC_SWAP.reject 0).modCl c fun x => { x with swapPending := true })
    refine ⟨fun y => (hcl y).trans ?_, hst, fun y => ?_⟩
    · rw [State.modCl, upd_get]
      by_cases hy : y = c
      · subst hy
        rw [if_pos rfl, ite_self, if_pos List.mem_cons_self]
        rfl
      · simp only [List.mem_cons, hy, false_or, if_false]
        rfl
    · obtain ⟨hin, hout⟩ := hf y
      by_cases hy : y ∈ cs
      · exact ⟨fun _ => hin hy, fun h => absurd (List.mem_cons_of_mem c hy) h⟩
      · refine ⟨fun h => ?_, fun h => ?_⟩
        · obtain rfl : y = c := (List.mem_cons.1 h).resolve_right hy
          exact (hout hy).trans (State.f_setF_self s _ _ _ (by decide))
        · exact (hout hy).trans (State.f_setF_other s _ _ _ _ _ (clB_apart (fun e : y = c => h (e ▸ List.mem_cons_self)) _))

end Sys2Proof.Machine

open Sys2Proof Sys2Proof.Machine

theorem clusterSwap : Claims.ClusterSwap := by
  intro s dt c cs ecc u a v
  have hu : s.elapse dt = u := rfl
  clear_value u
  have hv := State.swapView_eq_iff.1 (a.discardAll_swapView cs)
  refine ⟨fun ho hg => ⟨fun ⟨x, hx, hl⟩ => State.gives_hostAct rfl hu ho (State.swapReq_locked ecc hg hx hl),
    fun hfree hok hfill => State.gives_hostAct (act := fun t => t.swapReq c ecc) rfl hu ho ?_,
    fun hfree x hx => State.gives_hostAct (act := fun t => t.swapReq c ecc) rfl hu ho ?_⟩,
    fun hused => State.gives_onCl (act := fun t => t.swapNow c) rfl hu hused ?_⟩
  · have hview := State.swapView_eq_iff.1 (fillAll_swapView ecc cs v)
    have houter : (a.swapReq c ecc).outer = u.outer :=
      (State.outer_of_parts (s := a) (by simp)).trans rfl
    have he : a.swapReq c ecc = _ := State.swapReq_waits ecc hg hfree hok hfill
    obtain ⟨hcl, hst, hf⟩ := (fillAll ecc cs v).1.each_swapWaits cs
    rw [he] at houter ⊢
    have hcl' : (fillAll ecc cs v).1.cl = u.cl := hview.1.trans hv.1
    rw [hcl'] at hcl
    refine ⟨hst.trans hview.2.2.1, fun y hy => ⟨?_, (hf y).1 hy⟩, fun y => ?_, houter⟩
    · rw [hcl y, if_pos hy]
    · rw [hcl y]; split <;> exact ⟨rfl, rfl⟩
  · have he : a.swapReq c ecc = _ := State.swapReq_rejected ecc hg hfree hx
    obtain ⟨hw, hf⟩ := v.each_rejectSwap cs (v.swapReason cs.contains x)
    rw [he]
    have hle := v.swapReason_le cs.contains x
    refine ⟨(congrArg State.status hw).trans rfl, (congrArg State.cl hw).trans hv.1, fun y hy => ?_⟩
    obtain ⟨hreject, hreason⟩ := (hf y).1 hy
    exact ⟨hreject, hreason.trans (by omega)⟩
  · have hcl := State.each_swapSets_cl ((u.group_nodup c).filter fun x => (u.cl[x]).swapPending) u
    refine ⟨fun y => ?_, State.swapNow_part (p := .status) u c (by simp), u.swapNow_outer c⟩
    have hy : (u.swapNow c).cl[y] = _ := hcl y
    split
    next h =>
      rw [if_pos (List.mem_filter.2 h)] at hy
      rw [hy]
      exact ⟨rfl, rfl, rfl⟩
    next h => rw [if_neg (mt List.mem_filter.1 h)] at hy; exact hy

/-- Settles O11: the copy's entries read in the shadow as in the active set, whose reset values are the same; a request
leaves its group rejected or waiting, and `swapNow` exchanges the sets of those that wait. -/
theorem setsOfACluster : Obligations.SetsOfACluster := ⟨copyShadowCopies, clusterSwap⟩

end

section
/-! PROOFS. Undefined command codes (R20, R25, R224, R368), and the device's commands (R25, R360, R362, R363). -/

namespace Sys2Proof.Machine

/-- Where every part but the words is as before, the state differs in words only. -/
theorem State.eq_with_store {s t : State} (h : ∀ p : Part, p ≠ .store → t.part p = s.part p) :
    t = { s with store := t.store } :=
  State.ext_parts fun p => by cases p <;> first | rfl | exact h _ (by simp)

/-- Where every part but the words and the status is as before, the state differs in these only. -/
theorem State.eq_with_status_store {s t : State} (h : ∀ p : Part, p ≠ .store → p ≠ .status → t.part p = s.part p) :
    t = { s with status := t.status, store := t.store } :=
  State.ext_parts fun p => by cases p <;> first | rfl | exact h _ (by simp) (by simp)

theorem State.moRefuse_status (s : State) (x : Axis) (st : Status) : (s.moRefuse x st).status = st := by
  unfold moRefuse
  dsimp only
  split
  · rfl
  · split
    · split <;> rfl
    · rfl

theorem State.moRefuse_view (s : State) (x : Axis) (st : Status) :
    s.moRefuse x st = { s with status := st, store := (s.moRefuse x st).store }
      ∧ ∀ k, k ≠ moB x + R.MO_STAT.reg → k ≠ moB x + R.MO_STAT.refuse_count.off → (s.moRefuse x st).word k = s.word k := by
  have hset : ∀ k, k ≠ moB x + R.MO_STAT.reg → k ≠ moB x + R.MO_STAT.refuse_count.off →
      (((s.answer st).setF (moB x) R.MO_STAT.refused (refusedCode st)).inc (moB x) R.MO_STAT.refuse_count).word k = s.word k :=
    fun k h h' => (State.word_setWord_ne _ _ h').trans (State.word_setWord_ne _ _ h)
  refine ⟨?_, ?_⟩
  · have h := State.eq_with_status_store (s := s) (t := s.moRefuse x st) fun p hp hp' => by simp [hp, hp']
    rwa [s.moRefuse_status x st] at h
  · unfold moRefuse
    dsimp only
    split
    · exact fun _ _ _ => rfl
    · split
      · split
        · exact fun _ _ _ => rfl
        · exact hset
      · exact hset

end Sys2Proof.Machine

open Sys2Proof Sys2Proof.Machine

/-- Settles O12: the answer is the whole effect, beside the record of the refusal in an axis's status. -/
theorem undefinedCommandsRefused : Obligations.UndefinedCommandsRefused := by
  intro s dt u a ho
  have hu : s.elapse dt = u := rfl
  clear_value u
  exact ⟨fun c => State.gives_hostAct rfl hu ho rfl, State.gives_hostAct rfl hu ho rfl, State.gives_hostAct rfl hu ho rfl,
    fun x => State.gives_hostAct (act := fun t => t.moRefuse x .badCmd) rfl hu ho (a.moRefuse_view x .badCmd)⟩

end

section
/-! PROOFS. RUN, RESUME, HALT and RECOVER, the load by command and the hold of autostart (R25, R26, R360, R362, R363). -/

namespace Sys2Proof.Machine

theorem CState.active_iff (x : CState) :
    x.active = true ↔ x = .armed ∨ x = .starting ∨ x = .running ∨ x = .stopping := by
  cases x <;> decide

/-- Where a cluster stands once its safe state has been commanded. -/
def CState.safed (x : CState) : CState := if x.active then .safe else if x = .stopped then .faulted else x

theorem State.faultSafe_eq (s : State) (c : Cl) (cause : Nat) (ev : Option Nat) :
    s.faultSafe c cause ev
      = if (s.cl[c]).st.active = true ∨ (s.cl[c]).st = .stopped then s.enter c (s.cl[c]).st.safed cause ev else s := by
  unfold faultSafe
  cases h : (s.cl[c]).st <;> rfl

/-- Every cluster of the list is commanded to its safe state once. -/
theorem State.each_faultSafe {l : List Cl} (hl : l.Nodup) (s : State) (cause i : Nat) (y : Cl) :
    if y ∈ l ∧ ((s.cl[y]).st.active = true ∨ (s.cl[y]).st = .stopped) then
      ((s.each l fun c s => s.faultSafe c cause (some i)).cl[y]).st = (s.cl[y]).st.safed
        ∧ ((s.each l fun c s => s.faultSafe c cause (some i)).cl[y]).cause = cause
    else (s.each l fun c s => s.faultSafe c cause (some i)).cl[y] = s.cl[y] := by
  induction l generalizing s with
  | nil => simp
  | cons c l ih =>
    obtain ⟨hc, hl⟩ := List.nodup_cons.1 hl
    have h := ih hl (s.faultSafe c cause (some i))
    rw [State.each_cons]
    by_cases hy : y = c
    · subst hy
      rw [if_neg fun hx => hc hx.1] at h
      rw [h, State.faultSafe_eq]
      by_cases hst : (s.cl[y]).st.active = true ∨ (s.cl[y]).st = .stopped
      · rw [if_pos hst, if_pos ⟨List.mem_cons_self, hst⟩]
        have hm := s.enter_moves y (s.cl[y]).st.safed cause (some i)
        exact ⟨hm.st, hm.cause⟩
      · rw [if_neg hst, if_neg fun hx => hst hx.2]
    · have hother : (s.faultSafe c cause (some i)).cl[y] = s.cl[y] := by
        rw [State.faultSafe_eq]
        split
        · exact s.enter_other _ _ _ hy
        · rfl
      rw [hother] at h
      simpa only [List.mem_cons, hy, false_or] using h

theorem State.logRequest_asks (s : State) (cause : Nat) : (s.logRequest cause).log.pend.isSome = true := by
  unfold logRequest
  split
  next h => rw [h]; rfl
  next => rfl

/-- The state in which every cluster has been commanded to its safe state. -/
def State.allSafed (s : State) (ev : Option Nat) : State :=
  s.each allCl fun c s => s.faultSafe c (match ev with | some e => s.causeOf c e | none => 1) (some (ev.getD 0))

theorem State.bivouac_eq (s : State) (cause : Nat) (ev : Option Nat) :
    s.bivouac cause ev
      = (((s.allSafed ev).modDev fun d => { d with st := .bivouac, cause := cause }).dark).logRequest 2 := rfl

theorem State.bivouac_dev (s : State) (cause : Nat) (ev : Option Nat) :
    (s.bivouac cause ev).dev = { s.dev with st := .bivouac, cause := cause, lantern := false } := by
  have h : (s.allSafed ev).dev = s.dev := State.part_each (p := .dev) _ _ _ fun c t => by simp
  rw [bivouac_eq]
  generalize s.allSafed ev = t at h ⊢
  refine (State.logRequest_part (p := .dev) _ 2 (by simp)).trans ?_
  rw [← h]
  rfl

theorem State.bivouac_asks (s : State) (cause : Nat) (ev : Option Nat) : (s.bivouac cause ev).log.pend.isSome = true := by
  rw [bivouac_eq]
  exact State.logRequest_asks _ 2

theorem State.bivouac_cl (s : State) (cause : Nat) (y : Cl) :
    if (s.cl[y]).st.active = true ∨ (s.cl[y]).st = .stopped then
      ((s.bivouac cause none).cl[y]).st = (s.cl[y]).st.safed ∧ ((s.bivouac cause none).cl[y]).cause = 1
    else (s.bivouac cause none).cl[y] = s.cl[y] := by
  have hm := State.each_faultSafe (l := allCl) (by decide) s 1 0 y
  have hsafed : (s.each allCl fun c s => s.faultSafe c 1 (some 0)) = s.allSafed none := rfl
  rw [hsafed] at hm
  have h : (s.bivouac cause none).cl = (s.allSafed none).cl := by
    rw [bivouac_eq]
    generalize s.allSafed none = t
    exact State.logRequest_part (p := .cl) _ 2 (by simp)
  rw [h]
  generalize s.allSafed none = t at hm ⊢
  simpa only [mem_allCl, true_and] using hm

end Sys2Proof.Machine

open Sys2Proof Sys2Proof.Machine

theorem deviceCommands_gives : Claims.DeviceCommands := by
  intro s dt u a running ho
  have hu : s.elapse dt = u := rfl
  clear_value u
  have hrun : running ((a.runEnter 1).answer .ok) := State.ext_parts fun p => by cases p <;> rfl
  clear_value running
  refine ⟨fun h => State.gives_hostAct (act := State.runCmd) rfl hu ho ?_,
    fun h hhalt => State.gives_hostAct (act := State.resumeCmd) rfl hu ho ?_,
    fun h => State.gives_hostAct (act := State.haltCmd) rfl hu ho ?_,
    fun h => State.gives_hostAct (act := State.runCmd) rfl hu ho (if_neg h),
    fun h h' => State.gives_hostAct (act := State.haltCmd) rfl hu ho (if_neg (not_or.2 ⟨h, h'⟩)),
    fun h => State.gives_hostAct (act := State.resumeCmd) rfl hu ho (if_neg h)⟩
  · have he : a.runCmd = (a.runEnter 1).answer .ok := if_pos h
    rw [he]
    exact hrun
  · have he : a.resumeCmd = (a.runEnter 1).answer .ok := (if_pos h).trans (by rw [hhalt]; rfl)
    rw [he]
    exact hrun
  · have he : a.haltCmd = (a.bivouac 1 none).answer .ok := if_pos h
    have houter : (a.bivouac 1 none).outer = u.outer := (State.outer_of_parts (s := a) (by simp)).trans rfl
    have hdev := a.bivouac_dev 1 none
    have hcl := a.bivouac_cl 1
    have hlog := a.bivouac_asks 1 none
    rw [he]
    generalize a.bivouac 1 none = b at houter hdev hcl hlog ⊢
    refine ⟨rfl, hdev, fun y => ?_, hlog, houter⟩
    have hy : if (u.cl[y]).st.active = true ∨ (u.cl[y]).st = .stopped then
        (b.cl[y]).st = (u.cl[y]).st.safed ∧ (b.cl[y]).cause = 1 else b.cl[y] = u.cl[y] := hcl y
    split
    next hact =>
      rw [if_pos (.inl hact), show (u.cl[y]).st.safed = .safe from if_pos hact] at hy
      exact hy
    next hact =>
      split
      next hst =>
        rw [if_pos (.inr hst), show (u.cl[y]).st = .stopped from hst] at hy
        exact hy
      next hst =>
        rw [if_neg (not_or.2 ⟨hact, hst⟩)] at hy
        exact hy

section
namespace Sys2Proof.Machine

/-- What `blockReset` leaves of the parts that no gate and no word belongs to. -/
theorem State.blockReset_view (s : State) :
    s.blockReset.status = s.status ∧ s.blockReset.dev.st = .recovery ∧ s.blockReset.dev.cause = 1
      ∧ s.blockReset.flash = s.flash ∧ s.blockReset.sec.life = s.sec.life ∧ s.blockReset.sec.slots = s.sec.slots := by
  unfold blockReset
  extract_lets rails a b c d e f x y t t1 t2 t3 t4 t5 t6
  have hp : ∀ {p : Part}, p ∈ [.status, .dev, .flash, .sec] → t6.part p = t.part p := by
    intro p hp
    simp at hp
    rcases hp with rfl | rfl | rfl | rfl <;> simp [t6, t5, t4, t3, t2, t1, takeWords]
  have ht : t.status = s.status ∧ t.dev.st = .recovery ∧ t.dev.cause = 1 ∧ t.flash = s.flash
      ∧ t.sec.life = s.sec.life ∧ t.sec.slots = s.sec.slots := ⟨rfl, rfl, rfl, rfl, rfl, rfl⟩
  have hd : t6.gatesNow.dev = t.dev := (State.gatesNow_part (p := .dev) t6 (by simp)).trans (hp (by simp))
  have hs : t6.gatesNow.status = t.status := (State.gatesNow_part (p := .status) t6 (by simp)).trans (hp (by simp))
  have hf : t6.gatesNow.flash = t.flash := (State.gatesNow_part (p := .flash) t6 (by simp)).trans (hp (by simp))
  have hsec : t6.gatesNow.sec = t.sec := (State.gatesNow_part (p := .sec) t6 (by simp)).trans (hp (by simp))
  clear_value t6 t
  generalize t6.gatesNow = v at hd hs hf hsec ⊢
  rw [hd, hs, hf, hsec]
  exact ht

/-- What a RECOVER keeps: the answer, the flash, the lifecycle and the key slots. -/
def State.recoverView (s : State) := (s.status, s.dev.st, s.dev.cause, s.flash, s.sec.life, s.sec.slots)

theorem State.recoverStep_view (s : State) (hst : s.dev.st = .recovery) (hcause : s.dev.cause = 1) :
    s.recoverStep.recoverView = s.recoverView := by
  unfold recoverStep
  split
  · have hb := s.blockReset_view
    generalize s.blockReset = t at hb ⊢
    obtain ⟨h1, h2, h3, h4, h5, h6⟩ := hb
    have hl : t.loadBegin.recoverView = t.recoverView := by
      have hd : t.loadBegin.dev = t.dev := State.loadBegin_part (p := .dev) t (by simp)
      have hs : t.loadBegin.status = t.status := State.loadBegin_part (p := .status) t (by simp)
      have hf : t.loadBegin.flash = t.flash := State.loadBegin_part (p := .flash) t (by simp)
      have hsec : t.loadBegin.sec = t.sec := State.loadBegin_part (p := .sec) t (by simp)
      rw [recoverView, hd, hs, hf, hsec]
      rfl
    rw [hl, recoverView, recoverView, h1, h2, h3, h4, h5, h6, hst, hcause]
  · rfl

theorem State.recoverCmd_rest {s : State} (hop : s.dev.st.operates = true)
    (hrest : ∀ c : Cl, (s.cl[c]).st.active = false ∧ (s.cl[c]).st ≠ .safe) :
    s.recoverCmd.recoverView = (.ok, .recovery, 1, s.flash, s.sec.life, s.sec.slots) := by
  unfold recoverCmd
  have hnone : (allCl.any fun c => ((s.cl[c]).st).active || (s.cl[c]).st == .safe) = false := by
    refine any_eq_false_iff.2 fun c _ => ?_
    obtain ⟨h1, h2⟩ := hrest c
    rw [h1]
    exact beq_false_of_ne h2
  rw [hnone, if_neg (by decide), if_pos hop]
  exact (State.recoverStep_view _ rfl rfl).trans rfl

theorem State.loadBegin_boot (s : State) : s.loadBegin.boot.phase = .headers := by
  unfold loadBegin
  extract_lets b t t1 clk t2 dly
  have h1 : t1.boot = t.boot := by
    simp only [t1]
    split
    · exact State.memUser_part (p := .boot) _ _ (by simp)
    · rfl
  have ht : t.boot.phase = .headers := rfl
  split
  · exact (congrArg Boot.phase ((State.memMode_part (p := .boot) _ _ _ _ (by simp)).trans
      ((State.drawn_part (p := .boot) _ (by simp)).trans ((State.drawn_part (p := .boot) _ (by simp)).trans h1)))).trans ht
  · rw [h1]

theorem State.autoHold_eq {s : State} {hold : Bool} (h : hold = true ∨ ∀ c : Cl, (s.cl[c]).autoStart = false) :
    s.autoHold hold = (s.setF pk R.DEV_BOOT_CTRL.auto_hold (b2n hold)).answer .ok := by
  unfold autoHold
  dsimp only
  rcases h with h | h
  · rw [if_pos h]
  · split
    · rfl
    · exact State.each_of_fixed fun c _ => if_neg fun hc => by
        have hn : (s.cl[c]).autoStart = true := hc.1
        rw [h c] at hn
        cases hn

end Sys2Proof.Machine

open Sys2Proof Sys2Proof.Machine

theorem recoverLoadAndHold : Claims.RecoverLoadAndHold := by
  intro s dt u a ho
  have hu : s.elapse dt = u := rfl
  clear_value u
  refine ⟨fun h hrest => State.gives_hostAct (act := State.recoverCmd) rfl hu ho ?_,
    fun h hidle => State.gives_hostAct (act := State.bootLoad) rfl hu ho ?_,
    fun h hbusy => State.gives_hostAct (act := State.bootLoad) rfl hu ho (if_neg fun hc => hbusy hc.2),
    fun hold hh => State.gives_hostAct (act := fun t => t.autoHold hold) rfl hu ho ?_⟩
  · have hop : a.dev.st.operates = true := by
      rcases ho.1 with h' | h' | h' | h'
      · rw [State.asked_dev, h']; rfl
      · rw [State.asked_dev, h']; rfl
      · rw [State.asked_dev, h']; rfl
      · exact absurd h' h
    have hv : a.recoverCmd.recoverView = (.ok, .recovery, 1, u.flash, u.sec.life, u.sec.slots) :=
      State.recoverCmd_rest hop hrest
    simpa only [State.recoverView, Prod.mk.injEq] using hv
  · have he : a.bootLoad = a.loadBegin.answer .ok := if_pos ⟨h, hidle⟩
    rw [he]
    exact ⟨rfl, a.loadBegin_boot, State.loadBegin_part (p := .dev) a (by simp), State.loadBegin_part (p := .cl) a (by simp),
      State.loadBegin_part (p := .flash) a (by simp), State.loadBegin_part (p := .sec) a (by simp)⟩
  · have he : a.autoHold hold = (a.setF pk R.DEV_BOOT_CTRL.auto_hold (b2n hold)).answer .ok := State.autoHold_eq hh
    rw [he]
    refine ⟨State.eq_with_store (s := a) fun p hp => ?_, ?_, fun k hk => State.word_setWord_ne _ _ hk⟩
    · exact (State.setF_part a _ _ _ (by simpa using hp))
    · exact (State.f_setF_self a _ _ _ (by decide)).trans (by cases hold <;> rfl)

/-- Settles O13: each command reaches the branch that the device's state selects; HALT commands every cluster to its safe
state once, and RECOVER keeps flash and keys whether the block is reset at once or later. -/
theorem deviceCommands : Obligations.DeviceCommands := ⟨deviceCommands_gives, recoverLoadAndHold⟩

end
end

section
/-! PROOFS. The words that a raising leaves, and the device-wide swap (R32, R34, R35). -/

namespace Sys2Proof.Machine

/-- The words that a raising may write: the collector's flags and counts, and the trace units' registers. -/
def raiseWrites (k : Nat) : Bool := (decide (0x1010 ≤ k) && decide (k < 0x1080)) || (decide (0xA000 ≤ k) && decide (k < 0xA040))

theorem traceTrigger_word (u : Fin 4) (s : State) {k : Nat} (hk : raiseWrites k = false) :
    (traceTrigger u s).word k = s.word k := by
  have hne : k ≠ trB u + R.TR_STAT.state.off := by
    have := u.isLt
    simp only [raiseWrites, trB, R.TR_STAT.state, Bool.or_eq_false_iff, Bool.and_eq_false_iff, decide_eq_false_iff_not] at hk ⊢
    omega
  unfold traceTrigger
  dsimp only
  split
  · exact State.word_setWord_ne _ _ hne
  · rfl

theorem traceEvent_word (e : Nat) (s : State) {k : Nat} (hk : raiseWrites k = false) :
    (traceEvent e s).word k = s.word k :=
  State.each_keeps (P := fun t => t.word k = s.word k) (fun u t ht => by
    dsimp only
    split
    · exact (traceTrigger_word u t hk).trans ht
    · exact ht) s rfl

theorem State.raise_word (s : State) {e k : Nat} (he : e < 256) (hk : raiseWrites k = false) :
    (s.raise e).word k = s.word k := by
  have hcollect : (collect e s).word k = s.word k := by
    have h1 : k ≠ 0x1040 + e / 4 + 0 ∧ k ≠ 0x1010 + e / 32 := by
      simp only [raiseWrites, Bool.or_eq_false_iff, Bool.and_eq_false_iff, decide_eq_false_iff_not] at hk
      omega
    exact (traceEvent_word e _ hk).trans ((State.word_setWord_ne _ _ h1.1).trans (State.word_setWord_ne _ _ h1.2))
  unfold raise
  dsimp only
  split
  · rfl
  · split
    · rfl
    · exact hcollect

theorem State.raise_f (s : State) {e b : Nat} {f : Fld} (he : e < 256) (hk : raiseWrites (b + f.off) = false) :
    (s.raise e).f b f = s.f b f := congrArg f.get (s.raise_word he hk)

/-! ## The rejection of a device-wide swap -/

theorem State.devReject_fields (s : State) (unit reason : Nat) (hu : unit < 16) :
    (s.devReject unit reason).f pk R.DEV_SWAP.reject = 1 ∧ (s.devReject unit reason).f pk R.DEV_SWAP.reject_unit = unit
      ∧ (s.devReject unit reason).f pk R.DEV_SWAP_STAT.reason = reason % 256 := by
  unfold devReject
  rw [State.raise_f _ (by decide) (by decide), State.raise_f _ (by decide) (by decide), State.raise_f _ (by decide) (by decide)]
  refine ⟨?_, ?_, State.f_setF_self _ _ _ _ (by decide)⟩
  · rw [State.f_setF_other _ _ _ _ _ _ (by decide), State.f_setF_apart _ _ _ _ _ _ (by decide) (by decide)]
    exact State.f_setF_self _ _ _ _ (by decide)
  · rw [State.f_setF_other _ _ _ _ _ _ (by decide)]
    exact (State.f_setF_self _ _ _ _ (by decide)).trans (Nat.mod_eq_of_lt hu)

/-- The reason for which a cluster rejects a device-wide swap, 0 for none. -/
def State.devSwapReason (s : State) (c : Cl) : Nat :=
  if s.devSwapJudged.swapReason s.devSwapCls.contains c = 0 ∧ s.devSwapJudged.splitPair s.devSwapCls.contains c = true then 0xF
  else s.devSwapJudged.swapReason s.devSwapCls.contains c

theorem State.devSwapReason_le (s : State) (c : Cl) : s.devSwapReason c ≤ 15 := by
  unfold devSwapReason
  split
  · exact (Nat.le_refl _)
  · exact State.swapReason_le ..

section
variable {s : State} (ecc : Ecc) (hswap : s.dev.swap = none) (hfree : ∀ x ∈ s.devSwapCls, s.setLocked x = false)
include hswap hfree

theorem State.devSwap_open : ¬ (s.dev.swap.isSome = true ∨ s.devSwapCls.any s.setLocked = true) := by
  simpa [hswap] using hfree

theorem State.devSwapReq_lost (hframe : s.fb pk R.DEV_SWAP.use_frame = true) (hlost : s.sync.lost = true) :
    s.devSwapReq ecc = s.answer .syncLost := by
  unfold devSwapReq
  dsimp only
  rw [if_neg (State.devSwap_open hswap hfree), if_pos ⟨hframe, hlost⟩]

variable (hframe : s.fb pk R.DEV_SWAP.use_frame = true → s.sync.lost = false ∧ s.framePast = false)
include hframe

/-- A request whose frame is to come is judged unit by unit. -/
theorem State.devSwapReq_rejected {c : Cl} (hc : s.devSwapCls.find? (fun c => s.devSwapReason c != 0) = some c) :
    s.devSwapReq ecc = s.devSwapJudged.devReject c.val (s.devSwapReason c) := by
  unfold devSwapReq
  dsimp only
  rw [if_neg (State.devSwap_open hswap hfree), if_neg fun h => by rw [(hframe h.1).1] at h; exact absurd h.2 (by decide),
    if_neg fun h => by rw [(hframe h.1).2] at h; exact absurd h.2 (by decide)]
  simp only [devSwapReason, devSwapJudged, devSwapCls] at hc
  simp only [hc]
  rfl

theorem State.devSwapReq_accepted (hok : ∀ c ∈ s.devSwapCls, s.devSwapReason c = 0)
    (hpkg : s.fb pk R.DEV_SWAP.package_set = true → pkgReason s.devSwapJudged (pkgB (!s.dev.pkgB)) = 0)
    (hfill : (fillAll ecc s.devSwapCls s.devSwapJudged).2 = none) :
    ∃ f, s.devSwapReq ecc = ((fillAll ecc s.devSwapCls s.devSwapJudged).1.setF pk R.DEV_SWAP.reject 0).modDev fun d => { d with
      swap := some (s.f pk R.DEV_SWAP.cluster_mask + 256 * b2n (s.fb pk R.DEV_SWAP.package_set), f) } := by
  have hx : s.devSwapCls.find? (fun c => s.devSwapReason c != 0) = none := by simpa using hok
  have hdev : s.devSwapJudged.dev = s.dev := (State.swapView_eq_iff.1 (s.discardAll_swapView s.devSwapCls)).2.1
  unfold devSwapReq
  dsimp only
  rw [if_neg (State.devSwap_open hswap hfree), if_neg fun h => by rw [(hframe h.1).1] at h; exact absurd h.2 (by decide),
    if_neg fun h => by rw [(hframe h.1).2] at h; exact absurd h.2 (by decide)]
  simp only [devSwapReason, devSwapJudged, devSwapCls] at hx
  simp only [hx]
  rw [hdev, if_neg (by simpa using hpkg), show fillAll ecc s.devSwapCls s.devSwapJudged = (_, none) from Prod.ext rfl hfill]
  exact ⟨_, rfl⟩

/-- Such a request waits with the selected sets, and no set has changed. -/
theorem State.devSwapReq_accepted_view (hok : ∀ c ∈ s.devSwapCls, s.devSwapReason c = 0)
    (hpkg : s.fb pk R.DEV_SWAP.package_set = true → pkgReason s.devSwapJudged (pkgB (!s.dev.pkgB)) = 0)
    (hfill : (fillAll ecc s.devSwapCls s.devSwapJudged).2 = none) :
    (s.devSwapReq ecc).status = .ok ∧ (s.devSwapReq ecc).cl = s.cl ∧ (s.devSwapReq ecc).dev.pkgB = s.dev.pkgB
      ∧ (s.devSwapReq ecc).dev.st = s.dev.st
      ∧ (s.devSwapReq ecc).dev.swap.map Prod.fst
        = some (s.f pk R.DEV_SWAP.cluster_mask + 256 * b2n (s.fb pk R.DEV_SWAP.package_set)) := by
  obtain ⟨w, he⟩ := State.devSwapReq_accepted ecc hswap hfree hframe hok hpkg hfill
  obtain ⟨hcl, hdev, hst, -⟩ := State.swapView_eq_iff.1 (fillAll_swapView ecc s.devSwapCls s.devSwapJudged)
  obtain ⟨hcl', hdev', -, -⟩ := State.swapView_eq_iff.1 (s.discardAll_swapView s.devSwapCls)
  rw [devSwapJudged, State.answer_cl, hcl'] at hcl
  rw [devSwapJudged, State.answer_dev, hdev'] at hdev
  rw [devSwapJudged, State.answer_status] at hst
  rw [he]
  generalize (fillAll ecc s.devSwapCls s.devSwapJudged).1 = t at hcl hdev hst ⊢
  rw [State.modDev_status, State.setF_status, State.modDev_cl, State.setF_cl, State.modDev_dev, State.setF_dev, hst, hcl, hdev]
  exact ⟨rfl, rfl, rfl, rfl, rfl⟩

end

/-! ## The change at the frame -/

theorem State.swapPackage_dev (s : State) : s.swapPackage.dev = { s.dev with pkgB := !s.dev.pkgB } :=
  State.each_keeps (P := fun t => t.dev = { s.dev with pkgB := !s.dev.pkgB })
    (fun n t ht => by dsimp only; split <;> exact ht) _ rfl

theorem State.devSwapNow_dev {s : State} {m : Nat} {f : Option Nat} (hs : s.dev.swap = some (m, f))
    (hf : (f.all fun k => k == s.sync.frame % 256) = true) :
    s.devSwapNow.dev = { s.dev with swap := none, pkgB := s.dev.pkgB != bitAt m 8 } := by
  have hsets : ((s.modDev fun d => { d with swap := none }).each (maskCls m) fun c t => t.swapSets c).dev
      = { s.dev with swap := none } := State.part_each (p := .dev) _ _ _ fun c t => by simp
  simp only [State.devSwapNow, hs, hf, if_true]
  generalize State.each _ (maskCls m) _ = t at hsets ⊢
  rw [State.inc_dev]
  by_cases hb : bitAt m 8 = true
  · rw [if_pos hb, State.swapPackage_dev, hsets, hb]
    simp
  · rw [if_neg hb, hsets, (by simpa using hb : bitAt m 8 = false)]
    simp

end Sys2Proof.Machine

open Sys2Proof Sys2Proof.Machine

/-- Settles O16: a request stops at the first check that fails, a rejection writes its unit and reason before it is raised,
and the fills of one that waits change no set; at the frame `swapSets` changes each selected cluster once. -/
theorem deviceSwap : Obligations.DeviceSwap := by
  intro s dt ecc u a mask cs pkg frame v reason
  have hu : s.elapse dt = u := rfl
  clear_value u
  refine ⟨fun ho hswap hfree => ⟨fun hframe hlost => ?_, fun hframe hlost hpast => ?_, fun hframe => ⟨fun c hc => ?_, fun hok hpkg hfill => ?_⟩⟩,
    fun m f hoff hswap hf => ?_⟩
  · exact State.gives_hostAct (act := fun t => t.devSwapReq ecc) rfl hu ho (State.devSwapReq_lost (s := a) ecc hswap hfree hframe hlost)
  · exact State.gives_hostAct (act := fun t => t.devSwapReq ecc) rfl hu ho
      (State.devSwapReq_past (s := a) ecc hswap hfree hframe hlost (u.asked_framePast.trans hpast))
  · refine State.gives_hostAct (act := fun t => t.devSwapReq ecc) rfl hu ho ?_
    have he := State.devSwapReq_rejected (s := a) ecc hswap hfree hframe hc
    obtain ⟨hreject, hunit, hreason⟩ := a.devSwapJudged.devReject_fields c.val (a.devSwapReason c) (by omega)
    have hle := a.devSwapReason_le c
    have hst : (a.devSwapJudged.devReject c.val (a.devSwapReason c)).status = .ok :=
      State.devReject_part (p := .status) _ _ _ (by simp)
    have hcl : (a.devSwapJudged.devReject c.val (a.devSwapReason c)).cl = u.cl :=
      (State.devReject_part (p := .cl) _ _ _ (by simp)).trans (State.discardAll_part (p := .cl) a _ (by simp))
    have hdev : (a.devSwapJudged.devReject c.val (a.devSwapReason c)).dev = u.dev :=
      (State.devReject_part (p := .dev) _ _ _ (by simp)).trans (State.discardAll_part (p := .dev) a _ (by simp))
    rw [he]
    exact ⟨hst, hcl, hdev, hreject, hunit, hreason.trans (by show _ = a.devSwapReason c % 16; omega)⟩
  · have houter : (a.devSwapReq ecc).outer = u.outer := (State.outer_of_parts (s := a) (by simp)).trans rfl
    obtain ⟨h1, h2, h3, h4, h5⟩ := State.devSwapReq_accepted_view (s := a) ecc hswap hfree hframe hok hpkg hfill
    exact State.gives_hostAct (act := fun t => t.devSwapReq ecc) rfl hu ho ⟨h1, h2, h3, h4, h5, houter⟩
  · refine State.gives_onKilid (act := State.devSwapNow) rfl hu hoff ?_
    have hall : (f.all fun k => k == u.sync.frame % 256) = true := by
      cases f with
      | none => rfl
      | some k => simpa using hf k rfl
    refine ⟨fun y => ?_, State.devSwapNow_dev hswap hall, State.outer_of_parts (by simp)⟩
    have hy := State.devSwapNow_cl hswap hall y
    split
    next h => rw [if_pos h] at hy; rw [hy]; exact ⟨rfl, rfl, rfl⟩
    next h => rw [if_neg h] at hy; exact hy

end

section
/-! PROOFS. Level sources, buses and supply monitors (R15, R442). -/

namespace Sys2Proof.Machine

/-! ## The words that a level source writes -/

theorem State.assertOn_word (s : State) {e k : Nat} (he : e < 256) (hk : raiseWrites k = false) :
    (s.assertOn e).word k = s.word k := by
  have hne : k ≠ 0x1018 + e / 32 := by
    simp only [raiseWrites, Bool.or_eq_false_iff, Bool.and_eq_false_iff, decide_eq_false_iff_not] at hk
    omega
  unfold assertOn
  dsimp only
  split
  · rfl
  · split
    · rfl
    · exact (State.raise_word _ he hk).trans (State.word_setWord_ne _ _ hne)

theorem State.assertOff_word (s : State) {e k : Nat} (he : e < 256) (hk : raiseWrites k = false) :
    (s.assertOff e).word k = s.word k := by
  have hne : k ≠ 0x1018 + e / 32 := by
    simp only [raiseWrites, Bool.or_eq_false_iff, Bool.and_eq_false_iff, decide_eq_false_iff_not] at hk
    omega
  unfold assertOff
  dsimp only
  split
  · split
    · rfl
    · exact State.word_setWord_ne _ _ hne
  · rfl

theorem State.level_word (s : State) {e k : Nat} (b : Bool) (he : e < 256) (hk : raiseWrites k = false) :
    (s.level e b).word k = s.word k := by
  cases b
  · exact s.assertOff_word he hk
  · exact s.assertOn_word he hk

theorem State.supplyEvent_word (s : State) {k : Nat} (hk : raiseWrites k = false) : s.supplyEvent.word k = s.word k := by
  unfold supplyEvent
  dsimp only
  split
  · rfl
  · exact s.level_word (e := 6) _ (by decide) hk

theorem State.supplyMark_word (s : State) (m : Nat) (on : Bool) {k : Nat} (hk : raiseWrites k = false) :
    (s.supplyMark m on).word k = s.word k := State.supplyEvent_word _ hk

/-- The registers of clusters and regions lie past everything that a raising writes. -/
theorem raiseWrites_of_le {k : Nat} (h : 0xA040 ≤ k) : raiseWrites k = false := by
  simp only [raiseWrites, Bool.or_eq_false_iff, Bool.and_eq_false_iff, decide_eq_false_iff_not]
  omega

/-! ## Supply marks and buses -/

theorem State.supplyMark_dev (s : State) (m : Nat) (on : Bool) :
    (s.supplyMark m on).dev
      = { s.dev with
          supplyWarn := if on then m :: s.dev.supplyWarn.filter (· != m) else s.dev.supplyWarn.filter (· != m) } :=
  State.supplyEvent_part (p := .dev) _ (by simp)

theorem State.mem_supplyMark (s : State) (m i : Nat) (on : Bool) :
    i ∈ (s.supplyMark m on).dev.supplyWarn ↔ if i = m then on = true else i ∈ s.dev.supplyWarn := by
  rw [State.supplyMark_dev]
  by_cases h : i = m <;> cases on <;> simp [h]

/-- The clusters of the region of a missing bus enter SAFE. -/
theorem State.busAbsent_eq (s : State) (r : Rg) :
    s.busAbsent r = ((s.setF (rgB r) R.RG_PS_STAT.bus_absent 1).supplyMark (8 + r.val) true).enterAll (rgCls r)
      CState.active .safe 8 (some 0) := rfl

end Sys2Proof.Machine

open Sys2Proof Sys2Proof.Machine

/-- Settles O17: a mark of a supply changes the list of warnings and what the event's level writes, and a missing bus moves
the clusters of its region besides. -/
theorem busesAndSupplies : Obligations.BusesAndSupplies := by
  intro s dt r u hoff
  have hu : s.elapse dt = u := rfl
  clear_value u
  refine ⟨State.gives_onKilid (act := fun t => t.busAbsent r) rfl hu hoff ?_,
    State.gives_onKilid (act := fun t => t.busPresent r) rfl hu hoff ?_,
    fun m low => State.gives_onKilid (act := fun t => t.supplyMark m.val low) rfl hu hoff ?_⟩
  · have hout : (u.busAbsent r).outer = u.outer := State.outer_of_parts (by simp)
    rw [State.busAbsent_eq] at hout ⊢
    have hcl : ((u.setF (rgB r) R.RG_PS_STAT.bus_absent 1).supplyMark (8 + r.val) true).cl = u.cl :=
      (State.supplyMark_part (p := .cl) _ _ _ (by simp)).trans (State.setF_cl ..)
    have hst : ((u.setF (rgB r) R.RG_PS_STAT.bus_absent 1).supplyMark (8 + r.val) true).status = u.status :=
      (State.supplyMark_part (p := .status) _ _ _ (by simp)).trans (State.setF_status ..)
    have hwarn := (State.mem_supplyMark (u.setF (rgB r) R.RG_PS_STAT.bus_absent 1) (8 + r.val) (8 + r.val) true).2 (by simp)
    generalize (u.setF (rgB r) R.RG_PS_STAT.bus_absent 1).supplyMark (8 + r.val) true = t at *
    refine ⟨State.moved_congr (t.enterAll_moved _ _ _ _ _) hcl.symm rfl, ?_, (t.enterAll_status ..).trans hst, hout⟩
    have hdev : (t.enterAll (rgCls r) CState.active .safe 8 (some 0)).dev = t.dev :=
      State.enterAll_part (p := .dev) t _ _ _ _ _ (by simp)
    rw [hdev]
    exact hwarn
  · have hmem := State.mem_supplyMark (u.setF (rgB r) R.RG_PS_STAT.bus_absent 0) (8 + r.val) (8 + r.val) false
    have hk : raiseWrites (rgB r + R.RG_PS_STAT.bus_absent.off) = false :=
      raiseWrites_of_le (by simp only [rgB]; omega)
    refine ⟨?_, fun h => ?_, State.busPresent_part (p := .cl) u r (by simp),
      State.gates_eq fun n => State.busPresent_part (p := .gates n) u r (by simp), State.outer_of_parts (by simp)⟩
    · exact (congrArg R.RG_PS_STAT.bus_absent.get (State.supplyMark_word _ _ _ hk)).trans
        (State.f_setF_self u _ _ _ (by decide))
    · exact absurd (hmem.1 h) (by simp)
  · refine ⟨fun i => u.mem_supplyMark m.val i low, ?_, State.supplyMark_part (p := .cl) u _ _ (by simp),
      State.gates_eq fun n => State.supplyMark_part (p := .gates n) u _ _ (by simp), State.outer_of_parts (by simp)⟩
    rw [State.supplyMark_dev]

end

section
/-! PROOFS. The inter-die links (R16 to R19, R332). -/

namespace Sys2Proof.Machine

/-- The link of a die is as before, but for the raisings that its local collector keeps while the link is lost. -/
structure State.LinkKept (d : Rg) (s t : State) : Prop where
  fields : t.link[d] = { s.link[d] with buffer := (t.link[d]).buffer }
  live : (s.link[d]).lost = false → t.link[d] = s.link[d]

namespace State.LinkKept

variable {d : Rg} {s t u : State}

theorem of_eq (h : t.link[d] = s.link[d]) : LinkKept d s t := ⟨by rw [h], fun _ => h⟩

theorem of_part (h : t.part .link = s.part .link) : LinkKept d s t := of_eq (by rw [show t.link = s.link from h])

theorem refl (s : State) : LinkKept d s s := of_eq rfl

theorem trans (h : LinkKept d s t) (h' : LinkKept d t u) : LinkKept d s u := by
  refine ⟨?_, fun hl => ?_⟩
  · have hu := h'.fields
    rw [h.fields] at hu
    exact hu
  · have ht := h.live hl
    exact (h'.live (by rw [ht]; exact hl)).trans ht

theorem lost (h : LinkKept d s t) : (t.link[d]).lost = (s.link[d]).lost := by rw [h.fields]
theorem supplyLost (h : LinkKept d s t) : (t.link[d]).supplyLost = (s.link[d]).supplyLost := by rw [h.fields]
theorem excluded (h : LinkKept d s t) : (t.link[d]).excluded = (s.link[d]).excluded := by rw [h.fields]
theorem spareUsed (h : LinkKept d s t) : (t.link[d]).spareUsed = (s.link[d]).spareUsed := by rw [h.fields]

theorem ite {p : Prop} [Decidable p] {v : State} (ht : LinkKept d s t) (hv : LinkKept d s v) :
    LinkKept d s (if p then t else v) := by
  split
  · exact ht
  · exact hv

theorem each {α : Type} {l : List α} {g : α → State → State} (h : ∀ a t, LinkKept d t (g a t)) (s : State) :
    LinkKept d s (s.each l g) :=
  State.each_keeps (P := fun t => LinkKept d s t) (fun a t ht => ht.trans (h a t)) s (refl s)

end State.LinkKept

/-- A raising that a lost link keeps back goes into the buffer of its die. -/
theorem State.raise_linkKept (s : State) (e : Nat) (d : Rg) : State.LinkKept d s (s.raise e) := by
  have hbuf : ∀ (x : Rg) (g : Link → List (Nat × Nat)), (s.link[x]).lost = true →
      State.LinkKept d s (s.modLink x fun l => { l with buffer := g l }) := fun x g hx => by
    by_cases hd : d = x
    · subst hd
      have hl : (s.modLink d fun l => { l with buffer := g l }).link[d] = { s.link[d] with buffer := g s.link[d] } :=
        upd_self ..
      exact ⟨by rw [hl], fun h => absurd (h.symm.trans hx) (by decide)⟩
    · exact .of_eq (upd_ne _ _ hd)
  unfold raise
  dsimp only
  split
  next h => exact hbuf 0 _ (by simp only [Bool.and_eq_true] at h; exact h.1.1)
  next =>
    split
    next h => exact hbuf 1 _ (by simp only [Bool.and_eq_true] at h; exact h.1.1)
    next =>
      refine .of_part ?_
      refine (State.with_raised_part _ _ (by simp)).trans ?_
      simp

theorem State.assertOn_linkKept (s : State) (e : Nat) (d : Rg) : State.LinkKept d s (s.assertOn e) :=
  .ite (.refl s) (.ite (.of_part (by simp)) ((State.LinkKept.of_part (by simp)).trans (State.raise_linkKept _ e d)))

theorem State.poolEmpty_linkKept (s : State) (k : Nat) (d : Rg) : State.LinkKept d s (s.poolEmpty k) :=
  (State.LinkKept.of_part (t := s.setWord _ _) (by simp)).trans (State.raise_linkKept _ 0 d)

theorem State.gateApply_linkKept (s : State) (n : Mcn) (d : Rg) : State.LinkKept d s (s.gateApply n) := by
  unfold gateApply
  dsimp only
  refine .ite (.of_part (by simp)) (.ite (.of_part (by simp)) (.ite (.refl s) (.ite (.ite (.refl s) ?_) (.ite ?_ ?_))))
  · split
    · exact (State.LinkKept.of_part (by simp)).trans (State.raise_linkKept _ _ d)
    · exact .ite (.refl s) (.of_part (by simp))
    · exact .ite (.refl s) (.of_part (by simp))
    · exact .of_part (by simp)
  · exact .of_part (by simp)
  · exact .of_part (by simp)

theorem State.dieApply_linkKept (s : State) (x d : Rg) : State.LinkKept d s (s.dieApply x) :=
  .each (fun n t => (State.LinkKept.of_eq (s := t) (t := t.modMc n fun m => { m with dieSafe := true }) rfl).trans
    (State.gateApply_linkKept _ n d)) s

/-! ## A die without its link -/

/-- Each motor cluster of the list is put into the safe state of its die. -/
theorem State.each_dieSafe (l : List Mcn) (s : State) :
    ∀ n, (n ∈ l ∨ (s.mc[n]).dieSafe = true) →
      ((s.each l fun n s => (s.modMc n fun m => { m with dieSafe := true }).gateApply n).mc[n]).dieSafe = true := by
  induction l generalizing s with
  | nil => exact fun n h => h.resolve_left (by simp)
  | cons c l ih =>
    intro n h
    rw [State.each_cons]
    refine ih _ n ?_
    have hgate : ∀ t : State, ((t.gateApply c).mc[n]).dieSafe = (t.mc[n]).dieSafe := fun t =>
      State.gateApply_part (p := .mc n .dieSafe) t c (by simp)
    by_cases hn : n = c
    · subst hn
      refine .inr ((hgate _).trans ?_)
      rw [State.modMc, upd_self]
    · refine (h.imp_left fun h => (List.mem_cons.1 h).resolve_left hn).imp_right fun h => (hgate _).trans ?_
      rw [State.modMc, upd_ne _ _ hn]
      exact h

theorem State.conv_of_word {s t : State} {n : Mcn} (h : t.word (mcB n + R.MC_STATE.personality.off)
    = s.word (mcB n + R.MC_STATE.personality.off)) : t.conv n = s.conv n := by
  unfold State.conv State.fb State.f
  rw [h]

theorem State.linkLoss_view {s : State} {d : Rg} (hd : s.dev.st ≠ .off) (hl : (s.link[d]).lost = false) :
    State.LinkKept d (s.modLink d fun l => { l with lost := true }) (s.linkLoss d)
      ∧ ∀ n ∈ s.dieMotors d, ((s.linkLoss d).mc[n]).dieSafe = true := by
  have he : s.linkLoss d = ((s.modLink d fun l => { l with lost := true }).assertOn (2 + d.val)).dieApply d :=
    if_neg fun h => h.elim (fun h => by rw [hl] at h; cases h) hd
  rw [he]
  refine ⟨(State.assertOn_linkKept _ _ d).trans (State.dieApply_linkKept _ d d), fun n hn => ?_⟩
  have hmotors : ((s.modLink d fun l => { l with lost := true }).assertOn (2 + d.val)).dieMotors d = s.dieMotors d := by
    unfold dieMotors
    refine List.filter_congr fun m _ => ?_
    have hcl : ((s.modLink d fun l => { l with lost := true }).assertOn (2 + d.val)).cl = s.cl :=
      State.assertOn_part (p := .cl) _ _ (by simp)
    rw [hcl, State.conv_of_word (State.assertOn_word _ (by omega) (raiseWrites_of_le (by simp only [mcB]; omega)))]
    rfl
  unfold dieApply
  rw [hmotors]
  exact State.each_dieSafe _ _ n (.inl hn)

theorem State.modLink_linkAt (s : State) (d : Rg) (g : Link → Link) : (s.modLink d g).link[d] = g s.link[d] := upd_self ..

/-- The supplies of a drive die are lost with its link. -/
theorem State.supplyLoss_view {s : State} {d : Rg} (hd : s.dev.st ≠ .off) (hl : (s.link[d]).lost = false) :
    ((s.supplyLoss d).link[d]).lost = true ∧ ((s.supplyLoss d).link[d]).supplyLost = true
      ∧ ∀ n ∈ s.dieMotors d, ((s.supplyLoss d).mc[n]).dieSafe = true := by
  obtain ⟨hlink, hsafe⟩ := State.linkLoss_view hd hl
  have hlost := hlink.lost
  rw [State.modLink_linkAt] at hlost
  have he : s.supplyLoss d = ((s.linkLoss d).modLink d fun l => { l with supplyLost := true }).chopOff d := rfl
  generalize s.linkLoss d = t at *
  have hchop : (s.supplyLoss d).link = (t.modLink d fun l => { l with supplyLost := true }).link :=
    (congrArg State.link he).trans (State.chopOff_part (p := .link) _ d (by simp))
  refine ⟨?_, ?_, fun n hn => ?_⟩
  · rw [hchop, State.modLink_linkAt]; exact hlost
  · rw [hchop, State.modLink_linkAt]
  · rw [he]
    exact (State.chopOff_part (p := .mc n .dieSafe) (t.modLink d fun l => { l with supplyLost := true }) d (by simp)).trans (hsafe n hn)

/-! ## Lanes -/

theorem State.laneRetrain_view {s : State} {d : Rg} {up : Bool} {l : Fin 5} (hd : s.dev.st ≠ .off)
    (hlost : (s.link[d]).lost = false) (hserves : s.laneServes d (if up then 1 else 0) l.val = true) :
    let dir : Fin 2 := if up then 1 else 0
    let e := s.laneRetrain d up l
    l.val ∈ (e.link[d]).excluded[dir] ∧ (e.link[d]).spareUsed[dir] = true
      ∧ ((e.link[d]).lost = true ↔ 2 ≤ ((s.link[d]).excluded[dir]).length) := by
  intro dir e
  have hopen : ¬ ((s.link[d]).lost = true ∨ s.dev.st = .off ∨ (!s.laneServes d dir l.val) = true) := by
    rw [hlost, hserves]
    simp [hd]
  have he : e = s.laneRetrain d up l := rfl
  unfold laneRetrain at he
  dsimp only at he
  rw [if_neg hopen] at he
  have hmod := s.modLink_linkAt d fun l' => { l' with
    excluded := upd l'.excluded dir (l.val :: l'.excluded[dir]), spareUsed := upd l'.spareUsed dir true }
  have htdev : (s.modLink d fun l' => { l' with
    excluded := upd l'.excluded dir (l.val :: l'.excluded[dir]), spareUsed := upd l'.spareUsed dir true }).dev = s.dev := rfl
  generalize s.modLink d _ = t at hmod htdev he
  have hex : (t.link[d]).excluded[dir] = l.val :: (s.link[d]).excluded[dir] := by rw [hmod, upd_self]
  have hsp : (t.link[d]).spareUsed[dir] = true := by rw [hmod, upd_self]
  have hno : (t.link[d]).lost = false := by rw [hmod]; exact hlost
  have hkept : ∀ {v : State}, v.link[d] = t.link[d] → (l.val ∈ (v.link[d]).excluded[dir] ∧ (v.link[d]).spareUsed[dir] = true)
      ∧ (v.link[d]).lost = false := fun h => by
    rw [h, hex, hsp, hno]
    exact ⟨⟨List.mem_cons_self, rfl⟩, rfl⟩
  have hdt : t.dev.st ≠ .off := by rw [htdev]; exact hd
  by_cases h0 : ((s.link[d]).excluded[dir]).length = 0
  · rw [if_pos h0] at he
    have hsub : State.LinkKept d t ((t.substituted.raise 4).poolEmpty 9) :=
      ((State.LinkKept.of_part (t := t.substituted) (by simp)).trans (State.raise_linkKept _ 4 d)).trans
        (State.poolEmpty_linkKept _ 9 d)
    obtain ⟨⟨hin, hspare⟩, hl⟩ := hkept (hsub.live hno)
    rw [he]
    exact ⟨hin, hspare, by rw [hl, h0]; simp⟩
  · rw [if_neg h0] at he
    by_cases h1 : ((s.link[d]).excluded[dir]).length = 1
    · rw [if_pos h1] at he
      obtain ⟨⟨hin, hspare⟩, hl⟩ := hkept ((t.raise_linkKept 4 d).live hno)
      rw [he]
      exact ⟨hin, hspare, by rw [hl, h1]; simp⟩
    · rw [if_neg h1] at he
      obtain ⟨hlink, -⟩ := State.linkLoss_view hdt hno
      rw [he, hlink.excluded, hlink.spareUsed, hlink.lost, State.modLink_linkAt]
      refine ⟨hex ▸ List.mem_cons_self, hsp, ⟨fun _ => ?_, fun _ => rfl⟩⟩
      omega

/-! ## The link restored -/

theorem State.not_mem_assertOff_rails (s : State) (e : Nat) : e ∉ (s.assertOff e).rails := by
  unfold assertOff
  dsimp only
  split
  · split <;> simp
  next h => simpa using h

theorem State.linkRestored_view {s : State} {d : Rg} (hd : s.dev.st ≠ .off) (hlost : (s.link[d]).lost = true) :
    let e := s.linkRestored d
    (e.link[d]).lost = false ∧ (e.link[d]).supplyLost = false ∧ (e.link[d]).buffer = [] ∧ 2 + d.val ∉ e.rails := by
  intro e
  have he : e = s.linkRestored d := rfl
  unfold linkRestored at he
  rw [if_pos ⟨hlost, hd⟩] at he
  extract_lets dead s1 s2 at he
  have h1 : (s1.link[d]).lost = false ∧ (s1.link[d]).supplyLost = false := by
    rw [show s1.link[d] = _ from State.modLink_linkAt ..]
    exact ⟨rfl, rfl⟩
  have h2 : State.LinkKept d s1 s2 :=
    .ite (.each (fun n t => (State.LinkKept.of_part (by simp)).trans (State.gateApply_linkKept _ n d)) s1) (.refl s1)
  have h3 : State.LinkKept d s1 (s2.assertOff (2 + d.val)) := h2.trans (.of_part (by simp))
  have hlive : ((s2.assertOff (2 + d.val)).link[d]) = s1.link[d] := h3.live h1.1
  have hrails : 2 + d.val ∉ (s2.assertOff (2 + d.val)).rails := State.not_mem_assertOff_rails _ _
  generalize s2.assertOff (2 + d.val) = t at hlive hrails he
  have hdeliver : ((t.deliverRaisings d).link[d]) = { s1.link[d] with buffer := [] } := by
    have hmod := t.modLink_linkAt d fun l => { l with buffer := [] }
    have hk : State.LinkKept d (t.modLink d fun l => { l with buffer := [] }) (t.deliverRaisings d) :=
      .each (fun p t => .each (fun _ t => t.raise_linkKept _ d) t) _
    rw [hk.live (by rw [hmod, hlive]; exact h1.1), hmod, hlive]
  have hlink : e.link[d] = { s1.link[d] with buffer := [] } := by
    rw [he, show ((t.deliverRaisings d).rbgHeld d).link = (t.deliverRaisings d).link from
      State.rbgHeld_part (p := .link) _ d (by simp)]
    exact hdeliver
  have hr : e.rails = t.rails := by
    rw [he]
    exact (State.rbgHeld_part (p := .rails) _ d (by simp)).trans (State.deliverRaisings_part (p := .rails) _ d (by simp))
  rw [hlink, hr]
  exact ⟨h1.1, h1.2, rfl, hrails⟩

end Sys2Proof.Machine

open Sys2Proof Sys2Proof.Machine

/-- Settles O18: every raising leaves a link as it is but for the buffer of a lost one, so that the fields of a link change
only where the event itself writes them. -/
theorem links : Obligations.Links := by
  intro s dt d u
  have hu : s.elapse dt = u := rfl
  clear_value u
  refine ⟨fun hd hl => ?_, State.gives_after (eff := id) rfl hu rfl,
    fun hd hl => State.gives_after (eff := fun t => t.linkRestored d) rfl hu ?_⟩
  · refine ⟨fun up => State.gives_after (eff := fun t => t.linkFrame d up []) rfl hu ?_,
      fun up l hserves => State.gives_after (eff := fun t => t.linkFrame d up [l]) rfl hu ?_,
      State.gives_after (eff := fun t => t.linkLoss d) rfl hu ?_,
      State.gives_after (eff := fun t => t.supplyLoss d) rfl hu ?_,
      fun up l => ?_⟩
    · exact ite_self _
    · have hopen : ¬ ((u.link[d]).lost = true ∨ u.dev.st = .off) := fun h => h.elim (fun h => by rw [hl] at h; cases h) hd
      exact (if_neg hopen).trans (if_pos hserves)
    · obtain ⟨hlink, hsafe⟩ := State.linkLoss_view hd hl
      refine ⟨?_, hsafe, State.linkLoss_part (p := .cl) u d (by simp), State.outer_of_parts (by simp)⟩
      rw [hlink.lost, State.modLink_linkAt]
    · obtain ⟨hlost, hsup, hsafe⟩ := State.supplyLoss_view hd hl
      exact ⟨hlost, hsup, hsafe, State.supplyLoss_part (p := .cl) u d (by simp), State.outer_of_parts (by simp)⟩
    · intro dir hserves
      refine State.gives_after (eff := fun t => t.laneRetrain d up l) rfl hu ?_
      obtain ⟨hexcl, hspare, hlost⟩ := State.laneRetrain_view hd hl hserves
      exact ⟨hexcl, hspare, hlost, State.laneRetrain_part (p := .cl) u d up l (by simp), State.outer_of_parts (by simp)⟩
  · obtain ⟨h1, h2, h3, h4⟩ := State.linkRestored_view hd hl
    exact ⟨h1, h2, h3, h4, fun n => State.linkRestored_part (p := .mc n .dieSafe) u d (by simp),
      State.linkRestored_part (p := .cl) u d (by simp), State.outer_of_parts (by simp)⟩

end

section
/-! PROOFS. SYNC edges, windows and frame boundaries (R43, R75 to R77). -/

namespace Sys2Proof.Machine

theorem State.live_of_slave {s : State} (h : s.syncRole = 2) : s.dev.st ≠ .off := fun h0 => by
  rw [syncRole, h0] at h
  cases h

theorem State.syncRole_congr {s t : State} (hd : t.dev = s.dev)
    (hw : t.word (pk + R.DEV_SYS.sync_role.off) = s.word (pk + R.DEV_SYS.sync_role.off)) : t.syncRole = s.syncRole := by
  unfold syncRole State.f
  rw [hd, hw]

/-! ## Edges and windows -/

/-- A miss counts one more, and the third in a row loses SYNC; nothing else of the record of SYNC changes but the count of good
edges. -/
theorem State.syncMiss_sync (s : State) :
    s.syncMiss.sync = { s.sync with
      misses := s.sync.misses + 1, good := 0, lost := s.sync.lost || decide (3 ≤ s.sync.misses + 1) } := by
  unfold syncMiss
  dsimp only
  split
  next h =>
    refine (State.assertOn_part (p := .sync) _ 43 (by simp)).trans ?_
    obtain ⟨h1, h2⟩ := h
    have h1 : 3 ≤ s.sync.misses + 1 := h1
    show { s.sync with misses := s.sync.misses + 1, good := 0, lost := true } = _
    simp [h1]
  next h =>
    show { s.sync with misses := s.sync.misses + 1, good := 0 } = _
    by_cases hl : s.sync.lost = true
    · simp [hl]
    · have h3 : ¬ 3 ≤ s.sync.misses + 1 := fun h3 => h ⟨h3, Bool.not_eq_true' _ ▸ (by simpa using hl : s.sync.lost = false)⟩
      simp [h3]

/-- Does an edge now lie in a slave's window (R76)? -/
def State.edgeFits (s : State) : Prop :=
  ∀ t, s.sync.expected = some t → t ≤ s.now + s.sync.period * 5 ∧ s.now ≤ t + s.sync.period * 5

/-- The record of SYNC once an edge is accepted, before its boundary is placed. -/
def State.edgeTaken (s : State) (long : Bool) : State :=
  s.modSync fun y => { y with
    expected := some (s.now + s.frameTicks), numbered := !s.sync.placed, missNoted := false, misses := 0, good := y.good + 1
    frame := if long then 0 else if s.sync.placed then y.frame else (y.frame + 1) % 256 }

/-- SYNC is found again with the eighth good edge. -/
def State.edgeRegains (s : State) : State :=
  if s.sync.lost ∧ 8 ≤ s.sync.good then (s.modSync fun y => { y with lost := false }).assertOff 43 else s

theorem State.syncEdge_fits {s : State} (long : Bool) (hr : s.syncRole = 2) (h : s.edgeFits) :
    s.syncEdge long = (s.edgeTaken long).edgeRegains.modSync fun y => { y with
      dueAt := (s.edgeTaken long).edgeRegains.edgeDue s.sync } := by
  refine (if_pos hr).trans ((if_pos ?_).trans rfl)
  cases he : s.sync.expected with
  | none => rfl
  | some t => exact (Bool.and_eq_true _ _).mpr ⟨decide_eq_true (h t he).1, decide_eq_true (h t he).2⟩

theorem State.edgeRegains_sync (s : State) :
    ∃ b, s.edgeRegains.sync = { s.sync with lost := b } ∧ (s.sync.lost = false → b = false) := by
  unfold edgeRegains
  split
  next h =>
    exact ⟨false, (State.assertOff_part (p := .sync) _ 43 (by simp)).trans rfl, fun _ => rfl⟩
  next => exact ⟨s.sync.lost, rfl, id⟩

theorem State.syncEdge_outside {s : State} (long : Bool) {t : Nat} (hr : s.syncRole = 2) (ht : s.sync.expected = some t)
    (h : ¬ (t ≤ s.now + s.sync.period * 5 ∧ s.now ≤ t + s.sync.period * 5)) (hn : s.sync.missNoted = false) :
    s.syncEdge long = (s.modSync fun y => { y with missNoted := true }).syncMiss := by
  have hout : ¬ ((decide (t ≤ s.now + s.sync.window) && decide (s.now ≤ t + s.sync.window)) = true) := fun hc =>
    h (((Bool.and_eq_true _ _).mp hc).imp of_decide_eq_true of_decide_eq_true)
  refine (if_pos hr).trans ((if_neg ?_).trans (if_neg ?_))
  · rw [ht]; exact hout
  · rw [hn]; decide

/-! ## The frame boundary -/

/-- A master's read-back changes the count of wrong levels, and releases SYNC at the second; words outside the collector and
the trace units stay. -/
theorem State.contention_view (s : State) (wrong : Bool) :
    (∃ w r, (s.contention wrong).sync = { s.sync with wrong := w, released := r }
        ∧ (r = true ↔ s.sync.released = true ∨ (s.syncRole = 1 ∧ wrong = true ∧ 1 ≤ s.sync.wrong)))
      ∧ ∀ k, raiseWrites k = false → (s.contention wrong).word k = s.word k := by
  unfold contention
  by_cases h : s.syncRole = 1 ∧ (!s.sync.released) = true
  · rw [if_pos h]
    obtain ⟨hr, hrel⟩ := h
    have hrel : s.sync.released = false := by simpa using hrel
    extract_lets s1
    have h1 : s1.sync = { s.sync with wrong := if wrong then s.sync.wrong + 1 else 0 } := rfl
    have hw1 : ∀ k, s1.word k = s.word k := fun k => rfl
    clear_value s1
    by_cases h2 : 2 ≤ s1.sync.wrong
    · rw [if_pos h2]
      refine ⟨⟨s1.sync.wrong, true, ?_, ?_⟩, fun k hk => (State.raise_word _ (by decide) hk).trans (hw1 k)⟩
      · refine (State.raise_part (p := .sync) _ 42 (by simp)).trans ?_
        show { s1.sync with released := true } = _
        rw [h1]
      · rw [h1] at h2
        cases wrong
        · simp at h2
        · simp at h2
          simp [hr, h2]
    · rw [if_neg h2]
      refine ⟨⟨s1.sync.wrong, s.sync.released, ?_, ?_⟩, fun k _ => hw1 k⟩
      · rw [h1]
      · rw [h1] at h2
        cases wrong
        · simp
        · simp at h2
          simp [hrel, hr, h2]
  · rw [if_neg h]
    refine ⟨⟨s.sync.wrong, s.sync.released, rfl, .inl, fun h' => h'.elim id fun ⟨hr, _, _⟩ => ?_⟩, fun k _ => rfl⟩
    exact Decidable.byContradiction fun hc => h ⟨hr, by simpa using hc⟩

theorem State.newFramePeriod_sync (s : State) :
    s.newFramePeriod.sync = if s.sync.cfgDue then { s.sync with
      cfgDue := false, period := s.f pk R.DEV_SYNC_CFG.frame_period, comp := s.f pk R.DEV_SYNC_CFG.sync_comp } else s.sync := by
  unfold newFramePeriod
  dsimp only
  split
  · exact State.part_each (p := .sync) _ _ _ fun n t => by simp
  · rfl

theorem State.newFramePeriod_word (s : State) (k : Nat) : s.newFramePeriod.word k = s.word k :=
  State.word_of_part (State.newFramePeriod_part s (by simp)) k

/-- The numbering of the frame that begins. -/
def State.frameBegins (s : State) : State :=
  s.modSync fun y => { y with
    frame := if y.numbered then y.frame else (y.frame + 1) % 256, numbered := false, lastAt := s.now }

theorem State.frameBoundary_sync {s : State} (wrong : Bool) (hd : s.dev.st ≠ .off) (hdue : s.frameDue = true) :
    (s.frameBoundary wrong).sync
      = ((s.contention wrong).frameBegins.newFramePeriod.nextFrame (s.sync.dueAt.getD s.now - s.sync.comp)).sync := by
  have hopen : ¬ (s.dev.st = .off ∨ (!s.frameDue) = true) := by simp [hd, hdue]
  unfold frameBoundary
  rw [if_neg hopen]
  dsimp only
  refine (State.part_each (p := .sync) _ _ _ fun g t => by simp).trans ?_
  exact State.part_each (p := .sync) _ _ _ fun n t => by simp

theorem State.syncEdge_taken {s : State} (long : Bool) (hr : s.syncRole = 2) (h : s.edgeFits) :
    (s.syncEdge long).sync.frame = (if long then 0 else if s.sync.placed then s.sync.frame else (s.sync.frame + 1) % 256)
      ∧ (s.syncEdge long).sync.expected = some (s.now + s.sync.period * 500) ∧ (s.syncEdge long).sync.misses = 0
      ∧ (s.sync.lost = false → (s.syncEdge long).sync.dueAt = some (s.now + s.sync.comp)) := by
  obtain ⟨b, hb, hlost⟩ := (s.edgeTaken long).edgeRegains_sync
  have hnow : (s.edgeTaken long).edgeRegains.now = s.now := by
    unfold edgeRegains
    split
    · exact (State.assertOff_part (p := .now) _ 43 (by simp)).trans rfl
    · rfl
  rw [State.syncEdge_fits long hr h]
  generalize (s.edgeTaken long).edgeRegains = t at hb hnow ⊢
  rw [State.modSync_sync, hb]
  refine ⟨rfl, rfl, rfl, fun hl => ?_⟩
  have hplaced : s.sync.placed = false := by rw [Sync.placed, hl]; rfl
  show t.edgeDue s.sync = _
  rw [edgeDue, hplaced, hnow]
  rfl

theorem State.syncWindowClose_sync {s : State} (hr : s.syncRole = 2) :
    s.syncWindowClose.sync.expected = some (s.sync.expected.getD s.now + s.sync.period * 500)
      ∧ s.syncWindowClose.sync.frame = s.sync.frame
      ∧ s.syncWindowClose.sync.misses = (if s.sync.missNoted then s.sync.misses else s.sync.misses + 1)
      ∧ s.syncWindowClose.sync.dueAt
        = (if s.sync.lost then s.sync.dueAt else some (s.sync.expected.getD s.now + s.sync.period * 5 + s.sync.comp)) := by
  unfold syncWindowClose
  rw [if_pos hr]
  dsimp only
  cases hn : s.sync.missNoted
  · rw [if_neg (by decide), State.syncMiss_sync]
    exact ⟨rfl, rfl, rfl, rfl⟩
  · exact ⟨rfl, rfl, rfl, rfl⟩

theorem State.frameBoundary_view {s : State} (wrong : Bool) (hd : s.dev.st ≠ .off) (hdue : s.frameDue = true) :
    let e := s.frameBoundary wrong
    e.sync.frame = (if s.sync.numbered then s.sync.frame else (s.sync.frame + 1) % 256) ∧ e.sync.numbered = false
      ∧ e.sync.lastAt = s.now ∧ (s.sync.cfgDue = true → e.sync.period = s.f pk R.DEV_SYNC_CFG.frame_period)
      ∧ (s.sync.cfgDue = false → e.sync.period = s.sync.period)
      ∧ e.sync.startAt = some (s.sync.dueAt.getD s.now - s.sync.comp)
      ∧ (s.syncRole ≠ 2 →
          e.sync.dueAt = some (s.sync.dueAt.getD s.now - s.sync.comp + e.sync.period * 500 + e.sync.comp))
      ∧ (e.sync.released = true ↔ s.sync.released = true ∨ (s.syncRole = 1 ∧ wrong = true ∧ 1 ≤ s.sync.wrong)) := by
  intro e
  have he : e.sync = _ := State.frameBoundary_sync wrong hd hdue
  clear_value e
  rw [he]
  obtain ⟨⟨w, r, hsync, hrel⟩, hword⟩ := s.contention_view wrong
  have hnow : (s.contention wrong).now = s.now := State.contention_part (p := .now) s wrong (by simp)
  have hdev : (s.contention wrong).dev = s.dev := State.contention_part (p := .dev) s wrong (by simp)
  generalize s.contention wrong = t at hsync hword hnow hdev ⊢
  have hnew := t.frameBegins.newFramePeriod_sync
  have hbegin : t.frameBegins.sync = { s.sync with
      wrong := w, released := r, frame := if s.sync.numbered then s.sync.frame else (s.sync.frame + 1) % 256
      numbered := false, lastAt := s.now } := by
    rw [frameBegins, State.modSync_sync, hsync, hnow]
  have hrole : t.frameBegins.newFramePeriod.syncRole = s.syncRole :=
    State.syncRole_congr ((State.newFramePeriod_part (p := .dev) _ (by simp)).trans hdev)
      ((State.newFramePeriod_word _ _).trans (hword _ (by decide)))
  have hperiod : t.frameBegins.f pk R.DEV_SYNC_CFG.frame_period = s.f pk R.DEV_SYNC_CFG.frame_period :=
    congrArg R.DEV_SYNC_CFG.frame_period.get (hword _ (by decide))
  rw [hbegin, hperiod] at hnew
  generalize t.frameBegins.newFramePeriod = v at hnew hrole ⊢
  generalize t.frameBegins.f pk R.DEV_SYNC_CFG.sync_comp = comp at hnew
  have hnext : ∀ start, (v.nextFrame start).sync = { v.sync with
      startAt := some start
      dueAt := if v.syncRole = 2 then
          (if v.sync.lost then v.sync.expected.map fun e => (if e ≤ start then e + v.frameTicks else e) + v.sync.comp else none)
        else some (start + v.frameTicks + v.sync.comp) } := fun start => rfl
  rw [hnext, hrole]
  have hticks : v.frameTicks = v.sync.period * 500 := rfl
  rw [hticks, hnew]
  cases hc : s.sync.cfgDue
  · exact ⟨rfl, rfl, rfl, fun h => by simp at h, fun _ => rfl, rfl, fun h => if_neg h, hrel⟩
  · exact ⟨rfl, rfl, rfl, fun _ => rfl, fun h => by simp at h, rfl, fun h => if_neg h, hrel⟩

end Sys2Proof.Machine

open Sys2Proof Sys2Proof.Machine

/-- Settles O19: an edge and a window's close write the record of SYNC and the level of its loss alone; at a boundary the
read-back comes first, and what follows it of the frame leaves the record as it stands. -/
theorem syncFrames : Obligations.SyncFrames := by
  intro s dt u y
  have hu : s.elapse dt = u := rfl
  clear_value u
  refine ⟨fun hr long => ⟨fun hfit => ?_, fun t ht hout hn => ?_⟩, fun hr => ?_, fun hdue wrong => ?_, fun hd hdue wrong => ?_⟩
  · refine State.gives_onKilid (act := fun t => t.syncEdge long) rfl hu (State.live_of_slave hr) ?_
    obtain ⟨hframe, hexp, hmiss, hdueAt⟩ := State.syncEdge_taken long hr hfit
    exact ⟨hframe, hexp, hmiss, hdueAt, State.syncEdge_part (p := .cl) u long (by simp), State.outer_of_parts (by simp)⟩
  · refine State.gives_onKilid (act := fun t => t.syncEdge long) rfl hu (State.live_of_slave hr) ?_
    have hsync : (u.syncEdge long).sync = _ := (congrArg State.sync (State.syncEdge_outside long hr ht hout hn)).trans
      (State.syncMiss_sync _)
    refine ⟨?_, ?_, ?_, ?_, State.syncEdge_part (p := .cl) u long (by simp), State.outer_of_parts (by simp)⟩ <;>
      (rw [hsync]; rfl)
  · refine State.gives_onKilid (act := State.syncWindowClose) rfl hu (State.live_of_slave hr) ?_
    obtain ⟨hexp, hframe, hmiss, hdueAt⟩ := State.syncWindowClose_sync hr
    exact ⟨hexp, hframe, hmiss, hdueAt, State.syncWindowClose_part (p := .cl) u (by simp), State.outer_of_parts (by simp)⟩
  · have he : u.frameBoundary wrong = u := if_pos (.inr (by rw [hdue]; rfl))
    have hx : u.onKilid (·.frameBoundary wrong) = u := by
      unfold State.onKilid
      split
      · rfl
      · exact he
    exact State.gives_after (eff := fun t => t.onKilid (·.frameBoundary wrong)) rfl hu hx
  · refine State.gives_onKilid (act := fun t => t.frameBoundary wrong) rfl hu hd ?_
    obtain ⟨h1, h2, h3, h4, h5, h6, h7, h8⟩ := State.frameBoundary_view wrong hd hdue
    exact ⟨h1, h2, h3, h4, h5, h6, h7, h8, State.frameBoundary_part (p := .cl) u wrong (by simp), State.outer_of_parts (by simp)⟩

end

section
/-! PROOFS. Edge times that commit (R56), and the firing of an entry without a step (R57, R60). -/

namespace Sys2Proof.Machine

theorem State.modMc_mcAt (s : State) (n : Mcn) (g : Mc → Mc) : (s.modMc n g).mc[n] = g s.mc[n] := upd_self ..

theorem State.modMc_mcOther (s : State) {n m : Mcn} (g : Mc → Mc) (h : m ≠ n) : (s.modMc n g).mc[m] = s.mc[m] :=
  upd_ne _ _ h

theorem State.modEntry_other (s : State) (n : Mcn) {k j : Fin 64} (g : GEntry → GEntry) (h : j ≠ k) :
    ((s.modEntry n k g).mc[n]).grat[j] = (s.mc[n]).grat[j] :=
  (congrArg (fun m : Mc => m.grat[j]) (upd_self ..)).trans (upd_ne _ _ h)

section
variable {s : State} {n : Mcn} {k : Fin 64} (htype : s.gf n k R.MC_GRAT_CTL.type = 5)
include htype

/-- An ADVANCE_SEG entry that is due and acts does its action in the marked state, and that is all. -/
theorem State.gFire1_advance (hdue : (s.gDue n k).isSome = true) (hacts : s.gActs n k = true) :
    s.gFire1 n k = (s.gMarked n k).gAction n k := by
  unfold State.gFire1
  rw [if_pos hdue]
  extract_lets e tgt type step acts merged spent reported marked acted effect
  have hstep : step = 0 := by simp [step, type, htype, gStep]
  have hmerged : merged = false := by simp [merged, hstep]
  have htype1 : ¬ type = 1 := by simp [type, htype]
  rw [if_pos hstep]
  simp only [effect, hmerged, Bool.false_eq_true, if_false, show acts = true from hacts, if_true, htype1]
  rfl

theorem State.gAction_advance : s.gAction n k = s.modPwm n fun w => { w with heldAdv := w.advance } := by
  simp only [State.gAction, htype]

end

/-- The marks of a firing leave every part but the entries, the words and what a raising changes. -/
theorem State.gMarked_part (s : State) (n : Mcn) (k : Fin 64) {p : Part}
    (h : p ∉ [.link, .raised, .store, .trace, .mc n .grat]) : (s.gMarked n k).part p = s.part p := by
  simp at h
  have hspent : (s.gSpent n k).part p = s.part p := by
    unfold gSpent
    dsimp only
    split <;> simp [h]
  unfold gMarked
  simp [h, hspent]

theorem State.gMarked_spent (s : State) (n : Mcn) (k : Fin 64) : (((s.gMarked n k).mc[n]).grat[k]).live = false := by
  have hspent : (((s.gSpent n k).mc[n]).grat[k]).live = false := by
    have hmod : (((s.modEntry n k GEntry.spend).mc[n]).grat[k]).live = false := by rw [State.modEntry_entry]; rfl
    unfold gSpent
    dsimp only
    split
    · have hraise : ∀ t : State, ((t.raise (evMc n 1)).mc[n]).grat = (t.mc[n]).grat := fun t =>
        State.raise_part (p := .mc n .grat) t _ (by simp)
      exact (congrArg (fun g : Vector GEntry 64 => (g[k]).live) (hraise _)).trans hmod
    · exact hmod
  unfold gMarked
  rw [State.modEntry_entry]
  exact hspent

end Sys2Proof.Machine

open Sys2Proof Sys2Proof.Machine

/-- Settles O20: an entry's time commits in its own record, and a firing that acts is marked before its action, which changes
the advance that is held and no mark. -/
theorem graticuleEntries : Obligations.GraticuleEntries := by
  intro s dt n k u x hused
  have hu : s.elapse dt = u := rfl
  clear_value u
  refine ⟨State.gives_onMc (act := fun t => t.edgeCommit n k) rfl hu hused ⟨rfl, fun m hm => State.modMc_mcOther _ _ hm, ?_,
    fun j hj => State.modEntry_other _ _ _ hj⟩, fun htype hdue hfirst hacts => ?_⟩
  · refine (State.modEntry_entry ..).trans ?_
    simp only [Bool.and_eq_true]
    rfl
  · refine State.gives_onMc (act := fun t => t.gFire n k) rfl hu hused ?_
    have hpart : ∀ {p : Part}, (p ∉ [.link, .raised, .store, .trace, .mc n .grat]) → (u.gMarked n k).part p = u.part p :=
      fun hp => u.gMarked_part n k hp
    have hadv : ((u.gMarked n k).mc[n]).pwm = (u.mc[n]).pwm := hpart (p := .mc n .pwm) (by simp)
    have hcl : (u.gMarked n k).cl = u.cl := hpart (p := .cl) (by simp)
    have hgates : (u.gMarked n k).gates = u.gates := State.gates_eq fun m => hpart (p := .gates m) (by simp)
    have houter : (u.gMarked n k).outer = u.outer := State.outer_of_parts
      ⟨hpart (by simp), hpart (by simp), hpart (by simp), hpart (by simp), hpart (by simp), hpart (by simp),
        hpart (by simp), hpart (by simp), hpart (by simp), hpart (by simp), hpart (by simp)⟩
    have hlast := u.gMarked_lastFire n k
    have hlive := u.gMarked_spent n k
    have hbit := u.gMarked_bit n k
    rw [State.gFire_alone hfirst, State.gFire1_advance htype hdue hacts,
      State.gAction_advance ((State.gf_of_jobView (u.gMarked_jobView n k) k _).trans htype)]
    generalize u.gMarked n k = t at hadv hcl hgates houter hlast hlive hbit ⊢
    have hmc : (t.modPwm n fun w => { w with heldAdv := w.advance }).mc[n]
        = { t.mc[n] with pwm := { (t.mc[n]).pwm with heldAdv := (t.mc[n]).pwm.advance } } := State.modMc_mcAt ..
    refine ⟨?_, ?_, ?_, hbit, hcl, hgates, houter⟩
    · rw [hmc, hadv]
    · rw [hmc]; exact hlast
    · rw [hmc]; exact hlive

end

section
/-! PROOFS. The commands of the trace units (R198), and the reads of split values (R9, R134). -/

namespace Sys2Proof.Machine

/-! ## The host's read of one word -/

/-- A read of a word below the end of the address space, where the host is judged: the word's own effect, then the answer. -/
theorem State.hostRead_one {u : State} {a : Nat} (hdev : u.dev.st ≠ .off) (hexec : u.hp.exec = none) (hlife : u.sec.life ≠ 2)
    (ha : a < 0x1000000) :
    u.hostRead a 1 = { (u.fresh0.readWord .host a).1.answer .ok with data := [(u.fresh0.readWord .host a).2] } := by
  have haddr : ¬ 0x1000000 ≤ a := by omega
  simp [State.hostRead, readRun, hdev, hexec, hlife, haddr, State.fresh0]

/-- A read of the LO word of a split value holds the HI word. -/
theorem State.readWord_splitLo (s : State) {a : Nat} (hi : implemented a = true) (hs : splitLo a = true)
    (hacc : accOf a = none) :
    s.readWord .host a = (s.setHold .host (some (a + 1, s.view .host (a + 1))), s.view .host a) := by
  unfold State.readWord
  simp only [hi, hs, hacc, Bool.not_true, Bool.false_eq_true, if_false, if_true]

/-- That of an accumulator restarts it, where acc_restart is set. -/
theorem State.readWord_accumulator (s : State) {a : Nat} {g : Grp} {x : Fin 4} (hi : implemented a = true)
    (hs : splitLo a = true) (hacc : accOf a = some (g, x)) :
    s.readWord .host a = ((s.setHold .host (some (a + 1, s.view .host (a + 1)))).onlyIf
      (s.fb (grpB g + x.val) R.SEN_ACC_CTL.acc_restart) (·.accRestart g x), s.view .host a) := by
  unfold State.readWord
  simp only [hi, hs, hacc, Bool.not_true, Bool.false_eq_true, if_false, if_true]
  rfl

theorem State.readWord_splitHi_held (s : State) {a : Nat} {w : Word} (hi : implemented a = true) (hl : splitLo a = false)
    (hs : splitHi a = true) (hw : (s.ports[portIdx .host]).hold = some (a, w)) : s.readWord .host a = (s, w) := by
  unfold State.readWord
  simp only [hi, hl, hs, hw, Bool.not_true, Bool.false_eq_true, if_false, if_true]

theorem State.readWord_splitHi_live (s : State) {a : Nat} (hi : implemented a = true) (hl : splitLo a = false)
    (hs : splitHi a = true) (hw : (s.ports[portIdx .host]).hold.map Prod.fst ≠ some a) :
    s.readWord .host a = ({ s with tear := true }, s.view .host a) := by
  unfold State.readWord
  simp only [hi, hl, hs, Bool.not_true, Bool.false_eq_true, if_false, if_true]
  split
  · rename_i k w hold
    rw [if_neg]
    rintro rfl
    exact hw (by rw [hold]; rfl)
  · rfl

@[simp] theorem State.modTrace_self (s : State) (u : Fin 4) (g : TraceU → TraceU) :
    (s.modTrace u g).trace[u] = g s.trace[u] := by
  simp [State.modTrace, upd]

theorem State.onlyIf_of {b : Bool} (h : b = true) (s : State) (act : State → State) : s.onlyIf b act = act s := if_pos h

theorem State.setHold_hold (s : State) (h : Option (Nat × Word)) :
    ((s.setHold .host h).ports[portIdx .host]).hold = h := by
  simp [State.setHold, portIdx, upd]

theorem State.accRestart_sum (s : State) (g : Grp) (x : Fin 4) : (((s.accRestart g x).grp[g]).sum)[x] = 0 := by
  simp [State.accRestart, State.setF, State.modGrp, upd]

theorem State.accRestart_count (s : State) (g : Grp) (x : Fin 4) : (((s.accRestart g x).grp[g]).count)[x] = 0 := by
  simp [State.accRestart, State.setF, State.modGrp, upd]


end Sys2Proof.Machine

open Sys2Proof Sys2Proof.Machine

/-- Settles O31, by the fields that each command of a trace unit sets. -/
theorem traceCommands : Obligations.TraceCommands := by
  intro s dt x u a st ho
  have hu : s.elapse dt = u := rfl
  clear_value u
  have hframe : ∀ (t : State) (f : Fld) (v k : Nat), f.off = R.TR_STAT.reg → k ≠ trB x + R.TR_STAT.reg →
      (t.setF (trB x) f v).word k = t.word k := fun t f v k hf hk =>
    (State.word_setF ..).trans (if_neg (by rw [hf]; exact hk))
  refine ⟨fun hst => ?_, fun hsrc hst => ?_, ?_⟩
  · refine State.gives_hostAct (act := (·.traceArm x)) rfl hu ho ?_
    have harm : a.traceArm x = ((a.setF (trB x) R.TR_STAT.wptr 0).setF (trB x) R.TR_STAT.state 1).modTrace x fun _ =>
        { postLeft := u.tracePost x, skip := 0, missed := false, trig := false, written := 0, latched := none, run := none,
          readPos := 0 } := if_pos hst
    rw [harm]
    simp only [State.modTrace_f, State.modTrace_word, State.modTrace_self]
    refine ⟨rfl, State.f_setF_self _ _ _ _ (by decide), ?_, trivial, trivial, trivial, fun k hk => ?_⟩
    · exact (State.f_setF_apart _ _ _ _ _ _ (by decide) (by decide)).trans (State.f_setF_self _ _ _ _ (by decide))
    · exact (hframe _ _ _ k rfl hk).trans (hframe _ _ _ k rfl hk)
  · refine State.gives_hostAct (act := (·.traceSoft x)) rfl hu ho ?_
    have hsoft : a.traceSoft x = (a.setF (trB x) R.TR_STAT.state 2).modTrace x fun t => { t with trig := true } :=
      (if_neg hsrc).trans (if_pos (.inl hst))
    rw [hsoft]
    simp only [State.modTrace_f, State.modTrace_word, State.modTrace_self]
    exact ⟨rfl, State.f_setF_self _ _ _ _ (by decide), trivial, fun k hk => hframe _ _ _ k rfl hk⟩
  · exact State.gives_hostAct (act := (·.traceStop x)) rfl hu ho
      ⟨rfl, State.f_setF_self _ _ _ _ (by decide), fun k hk => hframe _ _ _ k rfl hk⟩

/-- Settles O26, by what a read of either half does to the holding register of the port. -/
theorem splitValueReads : Obligations.SplitValueReads := by
  intro s dt a u lo live hdev hexec hlife hi
  have hu : s.elapse dt = u := rfl
  clear_value u
  have ha : lo < 0x1000000 := a.isLt
  have gives : ∀ {i : Instr} {P : State → Prop} (r : State × Word), exec i s = s.after dt (·.portRead .host lo) →
      u.fresh0.readWord .host lo = r → r.1.range = false → P { r.1.answer .ok with data := [r.2] } → s.Gives i dt P := by
    intro i P r hx hr hrange hp
    refine ⟨_, ?_, hp⟩
    rw [hx, State.after, hu]
    have hread := State.hostRead_one hdev hexec hlife ha
    rw [hr] at hread
    have hcount : u.portRead .host lo = { r.1.answer .ok with data := [r.2] } :=
      (congrArg State.countRange hread).trans (if_neg fun h => Bool.false_ne_true (hrange.symm.trans h.1))
    rw [hcount]
  refine ⟨fun hs => ?_, fun hl hs => ?_⟩
  · cases hacc : accOf lo with
    | none =>
      refine gives _ rfl (State.readWord_splitLo _ hi hs hacc) rfl ?_
      exact ⟨rfl, rfl, rfl, State.setHold_hold .., nofun, fun _ => rfl⟩
    | some gx =>
      obtain ⟨g, x⟩ := gx
      refine gives _ rfl (State.readWord_accumulator _ hi hs hacc) ?_ ?_
      · unfold State.onlyIf; split <;> rfl
      · refine ⟨rfl, rfl, ?_, ?_, ?_, nofun⟩
        · unfold State.onlyIf; split <;> rfl
        · refine Eq.trans ?_ (State.setHold_hold u.fresh0 _)
          unfold State.onlyIf
          split <;> rfl
        · intro g' x' h hrestart
          obtain ⟨rfl, rfl⟩ := Prod.mk.inj (Option.some.inj h)
          have honly : u.fresh0.fb (grpB g + x.val) R.SEN_ACC_CTL.acc_restart = true := hrestart
          have hif := State.onlyIf_of honly (u.fresh0.setHold .host (some (lo + 1, u.fresh0.view .host (lo + 1))))
            (·.accRestart g x)
          exact ⟨(congrArg (fun t : State => ((t.grp[g]).sum)[x]) hif).trans (State.accRestart_sum ..),
            (congrArg (fun t : State => ((t.grp[g]).count)[x]) hif).trans (State.accRestart_count ..)⟩
  · by_cases hk : (u.ports[portIdx .host]).hold.map Prod.fst = some lo
    · obtain ⟨⟨k, w⟩, hw, rfl : k = lo⟩ := Option.map_eq_some_iff.1 hk
      refine gives _ rfl (State.readWord_splitHi_held _ hi hl hs hw) rfl ⟨rfl, ?_⟩
      rw [if_pos hk, hw]
      exact ⟨rfl, rfl⟩
    · refine gives _ rfl (State.readWord_splitHi_live _ hi hl hs hk) rfl ⟨rfl, ?_⟩
      rw [if_neg hk]
      exact ⟨rfl, rfl⟩
end

section
/-! PROOFS. The sources of faults, guy lines, the clock check, LANTERN and the pin FAULT_N (R45, R317, R323 to R328). -/

namespace Sys2Proof.Machine

/-! ## One bit of a word -/

/-- A bit of a word reads as it was set, and every other as before. -/
theorem bitAt_setBit (w : Word) {b c : Nat} (hb : b < 32) (hc : c < 32) (v : Bool) :
    bitAt (setBit w b v).toNat c = if c = b then v else bitAt w.toNat c := by
  -- the word is `2 ^ b * q + r` with `r < 2 ^ b`, and the lowest bit of `q` is the one set
  let q := w.toNat / 2 ^ b
  let r := w.toNat % 2 ^ b
  have hr : r < 2 ^ b := Nat.mod_lt _ (Nat.two_pow_pos b)
  have hw : w.toNat = 2 ^ b * q + r := (Nat.div_add_mod _ _).symm
  have hq : b2n (bitAt w.toNat b) = q % 2 := by
    unfold bitAt b2n
    rcases Nat.mod_two_eq_zero_or_one q with h | h <;> simp [q, h] at * <;> omega
  have hset : w.toNat - b2n (bitAt w.toNat b) * 2 ^ b + b2n v * 2 ^ b = 2 ^ b * (2 * (q / 2) + b2n v) + r := by
    have hsplit : q = 2 * (q / 2) + q % 2 := by omega
    rw [hq, hw]
    generalize q / 2 = k at *
    rw [hsplit, Nat.mul_add, Nat.mul_add]
    have : q % 2 * 2 ^ b = 2 ^ b * (q % 2) := Nat.mul_comm ..
    have hm : (2 * k + q % 2) % 2 = q % 2 := by omega
    rw [hm, Nat.mul_comm (b2n v)]
    omega
  have hbits (x : Nat) : (2 ^ b * x + r).testBit c = if c < b then r.testBit c else x.testBit (c - b) :=
    Nat.testBit_two_pow_mul_add _ hr _
  simp only [setBit, BitVec.toNat_ofNat, bitAt_eq_testBit, Nat.testBit_mod_two_pow, hc, decide_true, Bool.true_and]
  rw [← bitAt_eq_testBit w.toNat b, hset, hw, hbits, hbits]
  rcases Nat.lt_trichotomy c b with h | rfl | h
  · rw [if_pos h, if_neg (by omega), if_pos h]
  · rw [if_neg (by omega), if_pos rfl, Nat.sub_self]
    cases v <;> simp [b2n, Nat.testBit_zero]
  · rw [if_neg (by omega), if_neg (by omega), if_neg (by omega)]
    obtain ⟨d, hd⟩ : ∃ d, c - b = d + 1 := ⟨c - b - 1, by omega⟩
    have hhalf : (2 * (q / 2) + b2n v) / 2 = q / 2 := by cases v <;> simp [b2n] <;> omega
    rw [hd, Nat.testBit_succ, Nat.testBit_succ, hhalf]

/-! ## Asserted sources -/

theorem traceEvent_word_low (e : Nat) (s : State) {k : Nat} (hk : k < 0xA000) : (traceEvent e s).word k = s.word k := by
  have hfire : ∀ (u : Fin 4) (t : State), (traceTrigger u t).word k = t.word k := fun u t => by
    unfold traceTrigger
    dsimp only
    split
    · exact State.word_setWord_ne _ _ (by simp only [trB]; omega)
    · rfl
  refine State.each_keeps (P := fun t => t.word k = s.word k) (fun u t ht => ?_) s rfl
  dsimp only
  split
  · exact (hfire u t).trans ht
  · exact ht

/-- The words of the asserted sources and of the sticky wire faults are none that a raising writes. -/
theorem State.raise_sourceWord (s : State) {e k : Nat} (he : e < 256) (hlo : 0x1018 ≤ k) (hhi : k < 0x1040) :
    (s.raise e).word k = s.word k := by
  have hcollect : (collect e s).word k = s.word k :=
    (traceEvent_word_low e _ (by omega)).trans
      ((State.word_setWord_ne _ _ (by dsimp only; omega)).trans (State.word_setWord_ne _ _ (by omega)))
  unfold raise
  dsimp only
  split
  · rfl
  · split
    · rfl
    · exact hcollect

theorem State.raise_asserted (s : State) {e k : Nat} (he : e < 256) (hk : k < 256) : (s.raise e).asserted k = s.asserted k := by
  unfold asserted
  rw [s.raise_sourceWord he (by omega) (by omega)]

/-- The word of the asserted sources with one bit written. -/
theorem State.asserted_setWord (s : State) (e k : Nat) (v : Bool) :
    (s.setWord (0x1018 + e / 32) (setBit (s.word (0x1018 + e / 32)) (e % 32) v)).asserted k
      = if k = e then v else s.asserted k := by
  unfold asserted
  rw [State.word_setWord]
  by_cases hd : k / 32 = e / 32
  · rw [if_pos (by omega), bitAt_setBit _ (by omega) (by omega), hd]
    by_cases h : k = e
    · rw [if_pos h, if_pos (by rw [h])]
    · rw [if_neg h, if_neg (by omega)]
  · rw [if_neg (by omega), if_neg (by rintro rfl; exact hd rfl)]

theorem State.assertOn_asserted (s : State) {e k : Nat} (he : e < 256) (hk : k < 256) (h : k ≠ e) :
    (s.assertOn e).asserted k = s.asserted k := by
  unfold assertOn
  split
  · rfl
  · dsimp only
    split
    · rfl
    · exact (State.raise_asserted _ he hk).trans ((State.asserted_setWord { s with rails := e :: s.rails } e k true).trans
        (if_neg h))

theorem State.assertOff_asserted (s : State) {e k : Nat} (h : k ≠ e) : (s.assertOff e).asserted k = s.asserted k := by
  unfold assertOff
  split
  · dsimp only
    split
    · rfl
    · exact (State.asserted_setWord { s with rails := s.rails.filter (· != e) } e k false).trans (if_neg h)
  · rfl

theorem State.assertOn_sourceWord (s : State) {e k : Nat} (he : e < 256) (hlo : 0x1020 ≤ k) (hhi : k < 0x1040) :
    (s.assertOn e).word k = s.word k := by
  unfold assertOn
  split
  · rfl
  · dsimp only
    split
    · rfl
    · exact (State.raise_sourceWord _ he (by omega) hhi).trans (State.word_setWord_ne _ _ (by omega))

theorem State.mem_assertOn_rails (s : State) (e : Nat) : e ∈ (s.assertOn e).rails := by
  unfold assertOn
  split
  next h => exact List.contains_iff_mem.1 h
  next =>
    dsimp only
    split
    · exact List.mem_cons_self
    · rw [show ∀ t : State, (t.raise e).rails = t.rails from fun t => State.raise_part (p := .rails) t e (by simp)]
      exact List.mem_cons_self

/-! ## The safe state of both dies -/

theorem State.gateApply_word (s : State) (n : Mcn) {k : Nat} (hk : raiseWrites k = false) :
    (s.gateApply n).word k = s.word k := by
  have hstore : ∀ t : State, t.part .store = s.part .store → t.word k = s.word k := fun t h => State.word_of_part h k
  unfold gateApply
  dsimp only
  split
  · exact hstore _ (by simp)
  split
  · exact hstore _ (by simp)
  split
  · rfl
  split
  · split
    · rfl
    · split
      · exact (State.raise_word _ (by simp only [evMc]; omega) hk).trans (hstore _ (by simp))
      · split <;> exact hstore _ (by simp)
      · split <;> exact hstore _ (by simp)
      · exact hstore _ (by simp)
  · split <;> exact hstore _ (by simp)

theorem State.dieApply_word (s : State) (d : Rg) {k : Nat} (hk : raiseWrites k = false) : (s.dieApply d).word k = s.word k := by
  unfold dieApply
  refine State.each_keeps (P := fun t => t.word k = s.word k) (fun n t ht => ?_) s rfl
  refine (State.gateApply_word _ n hk).trans ?_
  exact ht

theorem State.dieMotors_congr {s t : State} (hcl : t.cl = s.cl) (hw : ∀ k, raiseWrites k = false → t.word k = s.word k)
    (d : Rg) : t.dieMotors d = s.dieMotors d := by
  unfold dieMotors
  refine List.filter_congr fun m _ => ?_
  rw [hcl, State.conv_of_word (hw _ (raiseWrites_of_le (by simp only [mcB]; omega)))]

theorem State.dieApply_safe (s : State) (d : Rg) {n : Mcn} (h : n ∈ s.dieMotors d ∨ (s.mc[n]).dieSafe = true) :
    ((s.dieApply d).mc[n]).dieSafe = true := State.each_dieSafe _ _ n h

/-- Both dies in their safe state. -/
theorem State.bothDies_safe (s : State) (d : Rg) {n : Mcn} (h : n ∈ s.dieMotors d) :
    ((((s.dieApply 0).dieApply 1)).mc[n]).dieSafe = true := by
  have hsame : (s.dieApply 0).dieMotors 1 = s.dieMotors 1 :=
    State.dieMotors_congr (State.dieApply_part (p := .cl) s 0 (by simp)) (fun k hk => State.dieApply_word s 0 hk) 1
  refine State.dieApply_safe _ _ ?_
  rw [hsame]
  match d with
  | 0 => exact .inr (State.dieApply_safe _ _ (.inl h))
  | 1 => exact .inl h

/-! ## The claims -/

theorem State.guyBegin_eq {s : State} {i : Nat} (hd : s.dev.st ≠ .off) (hi : i ∉ s.guyFault) :
    s.guyBegin i = ((({ s with guyFault := i :: s.guyFault }.setWord (0x1020 + i / 32)
        (setBit (s.word (0x1020 + i / 32)) (i % 32) true)).setWord (0x1018 + i / 32)
        (setBit (({ s with guyFault := i :: s.guyFault }.setWord (0x1020 + i / 32)
          (setBit (s.word (0x1020 + i / 32)) (i % 32) true)).word (0x1018 + i / 32)) (i % 32) true)).raise i).assertOn 1 :=
  if_neg fun h => h.elim (fun h => hi (List.contains_iff_mem.1 h)) hd

/-- A wire fault keeps its bit and asserts its source. -/
theorem State.guyBegin_view {s : State} {i : Nat} (hd : s.dev.st ≠ .off) (hi : i ∉ s.guyFault) (hlt : i < 256) :
    bitAt ((s.guyBegin i).word (0x1020 + i / 32)).toNat (i % 32) = true ∧ (s.guyBegin i).asserted i = true
      ∧ 1 ∈ (s.guyBegin i).rails ∧ (s.guyBegin i).guyFault = i :: s.guyFault := by
  rw [State.guyBegin_eq hd hi]
  generalize hs1 : ({ s with guyFault := i :: s.guyFault } : State).setWord (0x1020 + i / 32)
    (setBit (s.word (0x1020 + i / 32)) (i % 32) true) = s1
  have hw1 : s1.word (0x1020 + i / 32) = setBit (s.word (0x1020 + i / 32)) (i % 32) true := by
    rw [← hs1]; exact State.word_setWord_self ..
  have hg1 : s1.guyFault = i :: s.guyFault := by rw [← hs1]; rfl
  have ha2 := State.asserted_setWord s1 i i true
  have hw2 := s1.word_setWord_ne (key := 0x1018 + i / 32) (k := 0x1020 + i / 32)
    (setBit (s1.word (0x1018 + i / 32)) (i % 32) true) (by omega)
  have hg2 : (s1.setWord (0x1018 + i / 32) (setBit (s1.word (0x1018 + i / 32)) (i % 32) true)).guyFault = s1.guyFault := rfl
  generalize s1.setWord (0x1018 + i / 32) (setBit (s1.word (0x1018 + i / 32)) (i % 32) true) = s2 at *
  rw [if_pos rfl] at ha2
  have ha3 : (s2.raise i).asserted i = true := (State.raise_asserted _ hlt hlt).trans ha2
  refine ⟨?_, ?_, State.mem_assertOn_rails .., ?_⟩
  · rw [State.assertOn_sourceWord _ (by decide) (by omega) (by omega), State.raise_sourceWord _ hlt (by omega) (by omega),
      hw2, hw1, bitAt_setBit _ (by omega) (by omega), if_pos rfl]
  · by_cases h1 : i = 1
    · subst h1
      unfold assertOn
      split
      · exact ha3
      · exact (apply_ite (fun t : State => t.asserted 1) _ _ _).trans (if_pos ha3) |>.trans ha3
    · exact (State.assertOn_asserted _ (by decide) hlt h1).trans ha3
  · refine Eq.trans ?_ (hg2.trans hg1)
    exact (State.assertOn_part (p := .guyFault) _ 1 (by simp)).trans (State.raise_part (p := .guyFault) _ i (by simp))

theorem State.guyEnd_view {s : State} {i : Nat} (hi : i ∈ s.guyFault) (hlt : i < 256) :
    let e := s.guyEnd i
    e.guyFault = s.guyFault.filter (· != i) ∧ (i ≠ 1 → e.asserted i = s.rails.contains i)
      ∧ (e.guyFault = [] → 1 ∉ e.rails) ∧ (∀ k, k ≠ i → k ≠ 1 → e.asserted k = s.asserted k)
      ∧ e = { s with store := e.store, guyFault := e.guyFault, rails := e.rails } := by
  intro e
  have he : e = if (s.guyFault.filter (· != i)).isEmpty
      then (({ s with guyFault := s.guyFault.filter (· != i) } : State).setWord (0x1018 + i / 32)
        (setBit (s.word (0x1018 + i / 32)) (i % 32) (s.rails.contains i))).assertOff 1
      else ({ s with guyFault := s.guyFault.filter (· != i) } : State).setWord (0x1018 + i / 32)
        (setBit (s.word (0x1018 + i / 32)) (i % 32) (s.rails.contains i)) := if_pos (List.contains_iff_mem.2 hi)
  have hset (k : Nat) := State.asserted_setWord ({ s with guyFault := s.guyFault.filter (· != i) } : State) i k
    (s.rails.contains i)
  clear_value e
  subst he
  split
  next hempty =>
    have hg := fun t : State => (State.assertOff_part (p := .guyFault) t 1 (by simp) : (t.assertOff 1).guyFault = t.guyFault)
    refine ⟨hg _, fun h1 => ?_, fun _ => State.not_mem_assertOff_rails _ 1, fun k hk h1 => ?_, ?_⟩
    · exact (State.assertOff_asserted _ h1).trans ((hset i).trans (if_pos rfl))
    · exact (State.assertOff_asserted _ h1).trans ((hset k).trans (if_neg hk))
    · unfold assertOff
      dsimp only
      split
      · split <;> rfl
      · rfl
  next hempty =>
    refine ⟨rfl, fun _ => (hset i).trans (if_pos rfl), fun h => absurd ?_ hempty, fun k hk _ => (hset k).trans (if_neg hk), rfl⟩
    rw [show s.guyFault.filter (· != i) = [] from h]
    rfl

end Sys2Proof.Machine

open Sys2Proof Sys2Proof.Machine

theorem faultSources : Claims.FaultSources := by
  intro s dt x u i hd
  have hu : s.elapse dt = u := rfl
  clear_value u
  refine ⟨State.gives_onKilid (act := (·.pulseExpire i)) rfl hu hd rfl, fun hi => ?_, fun hi => ?_⟩
  · refine State.gives_onKilid (act := (·.guyBegin i)) rfl hu hd ?_
    obtain ⟨hbit, hon, hrail, hguy⟩ := State.guyBegin_view hd hi x.isLt
    refine ⟨hguy, hbit, hon, hrail, ?_, ?_, State.guyBegin_outer ..⟩
    · exact State.guyBegin_part (p := .cl) u i (by simp)
    · exact State.gates_eq fun o => by simp
  · exact State.gives_onKilid (act := (·.guyEnd i)) rfl hu hd (State.guyEnd_view hi x.isLt)

theorem clockLanternAndFaultN : Claims.ClockLanternAndFaultN := by
  intro s dt u hd
  have hu : s.elapse dt = u := rfl
  clear_value u
  refine ⟨?_, ?_, fun hrc => ?_, fun hl => ?_, fun hout => ?_, ?_⟩
  · exact State.gives_onKilid (act := (·.clockCheck .good)) rfl hu hd (if_neg hd)
  · exact State.gives_onKilid (act := (·.clockCheck .spareAgreesSystem)) rfl hu hd (if_neg hd)
  · refine State.gives_onKilid (act := (·.clockCheck .spareAgreesOscillator)) rfl hu hd ?_
    have he : u.clockCheck .spareAgreesOscillator
        = (((u.modDev fun d => { d with rcClock := true, lantern := false }).assertOn 5).dieApply 0).dieApply 1 :=
      (if_neg hd).trans (if_neg (by rw [hrc]; decide))
    rw [he]
    have hmotors := fun d : Rg => State.dieMotors_congr
      (t := (u.modDev fun d => { d with rcClock := true, lantern := false }).assertOn 5) (s := u)
      (State.assertOn_part (p := .cl) _ 5 (by simp)) (fun k hk => State.assertOn_word _ (by decide) hk) d
    refine ⟨?_, ?_, fun d n hn => State.bothDies_safe _ d (by rw [hmotors]; exact hn), ?_, ?_⟩
    · exact (State.dieApply_part (p := .dev) _ 1 (by simp)).trans ((State.dieApply_part (p := .dev) _ 0 (by simp)).trans
        (State.assertOn_part (p := .dev) _ 5 (by simp)))
    · rw [show ∀ t : State, ((t.dieApply 0).dieApply 1).rails = t.rails from fun t =>
        (State.dieApply_part (p := .rails) _ 1 (by simp)).trans (State.dieApply_part (p := .rails) t 0 (by simp))]
      exact State.mem_assertOn_rails _ 5
    · exact (State.dieApply_part (p := .cl) _ 1 (by simp)).trans ((State.dieApply_part (p := .cl) _ 0 (by simp)).trans
        (State.assertOn_part (p := .cl) _ 5 (by simp)))
    · exact State.outer_of_parts (s := u) (by simp)
  · exact State.gives_onKilid (act := (·.lanternToggle)) rfl hu hd (if_pos hl)
  · refine State.gives_onKilid (act := (·.faultNLow)) rfl hu hd ?_
    have he : u.faultNLow = (u.modDev fun d => { d with faultNIn := true }).assertOn 44 :=
      (if_neg hd).trans (if_neg (by
        show ¬ (u.modDev fun d => { d with faultNIn := true }).faultNOut = true
        rw [show (u.modDev fun d => { d with faultNIn := true }).faultNOut = u.faultNOut from rfl, hout]; decide))
    rw [he]
    exact ⟨State.assertOn_part (p := .dev) _ 44 (by simp), State.mem_assertOn_rails _ 44,
      State.assertOn_part (p := .cl) _ 44 (by simp), State.gates_eq fun o => by simp, State.outer_of_parts (s := u) (by simp)⟩
  · refine State.gives_onKilid (act := (·.faultNHigh)) rfl hu hd ?_
    have he : u.faultNHigh = (u.modDev fun d => { d with faultNIn := false }).assertOff 44 := if_neg hd
    rw [he]
    exact ⟨State.assertOff_part (p := .dev) _ 44 (by simp), State.not_mem_assertOff_rails _ 44,
      State.assertOff_part (p := .cl) _ 44 (by simp), State.gates_eq fun o => by simp, State.outer_of_parts (s := u) (by simp)⟩

/-- Settles O42, by the bit of a source in the words that hold it, and by what each pin and each verdict sets. -/
theorem sourcesClockAndPins : Obligations.SourcesClockAndPins := ⟨faultSources, clockLanternAndFaultN⟩
end

section
/-! PROOFS. The bytes of the flash under an erase, a program and a failed operation, and the logbook (R336, R337, R342). -/

namespace Sys2Proof.Machine

/-! ## The bytes of the flash -/

theorem flashByte_filter (m : List Host.Cell) (p : Nat → Bool) (k : Nat) :
    flashByte (m.filter fun c => p c.1) k = if p k then flashByte m k else 255 := by
  induction m with
  | nil => simp [flashByte]
  | cons c m ih =>
    obtain ⟨x, b⟩ := c
    rw [flashByte_cons, List.filter_cons]
    by_cases hk : k = x
    · subst hk
      by_cases hp : p k = true
      · rw [if_pos hp, flashByte_cons, if_pos rfl, if_pos hp, if_pos rfl]
      · rw [if_neg hp, ih, if_neg hp, if_neg hp]
    · rw [if_neg hk]
      split
      · rw [flashByte_cons, if_neg hk, ih]
      · exact ih

/-- The bytes of an erased range are 255, and every other byte is as before. -/
theorem State.flashErase_byte (s : State) (a n k : Nat) :
    flashByte (s.flashErase a n).flash k = if k < a ∨ a + n ≤ k then flashByte s.flash k else 255 := by
  refine (flashByte_filter s.flash (fun x => decide (x < a) || decide (a + n ≤ x)) k).trans ?_
  simp only [Bool.or_eq_true, decide_eq_true_eq]

/-- Outside a range left at free values every byte is as before. -/
theorem State.flashFree_byte (s : State) {a n k : Nat} (h : k < a ∨ a + n ≤ k) :
    flashByte (s.flashFree a n).flash k = flashByte s.flash k := by
  have hall : ∀ (l : List Nat) (t : State), (∀ i ∈ l, i < n) →
      flashByte (t.each l fun i (s : State) =>
          { s with flash := putByte s.flash (a + i) (BitVec.ofNat 8 s.freeNat), fresh := s.fresh + 1 }).flash k
        = flashByte t.flash k := by
    intro l
    induction l with
    | nil => exact fun _ _ => rfl
    | cons i l ih =>
      intro t hl
      rw [State.each_cons, ih _ fun j hj => hl j (List.mem_cons_of_mem _ hj)]
      have hi := hl i List.mem_cons_self
      exact (flashByte_putByte ..).trans (if_neg (by omega))
  exact hall _ s fun i hi => List.mem_range.1 hi

/-- Programmed over erased bytes, a range holds the bytes given. -/
theorem State.flashProgram_erased (bs : List Nat) (s : State) (a : Nat) (h : ∀ i < bs.length, flashByte s.flash (a + i) = 255)
    (k : Nat) :
    flashByte (s.flashProgram a bs).flash k
      = if a ≤ k ∧ k < a + bs.length then nth bs (k - a) 0 % 256 else flashByte s.flash k := by
  induction bs generalizing s a with
  | nil => rw [if_neg (by simp)]; rfl
  | cons b bs ih =>
    have hlen : (b :: bs).length = bs.length + 1 := rfl
    rw [hlen] at h ⊢
    have h0 : flashByte s.flash a = 255 := h 0 (by omega)
    unfold flashProgram
    rw [if_pos h0]
    have hput (x : Nat) := flashByte_putByte s.flash a (BitVec.ofNat 8 b) x
    refine (ih _ (a + 1) fun i hi => ?_).trans ?_
    · refine (hput _).trans ((if_neg (by omega)).trans ?_)
      rw [show a + 1 + i = a + (i + 1) by omega]
      exact h (i + 1) (by omega)
    · by_cases hk : k = a
      · subst hk
        rw [if_neg (by omega), if_pos (by omega), Nat.sub_self]
        exact (hput k).trans (if_pos rfl)
      · by_cases hin : a + 1 ≤ k ∧ k < a + 1 + bs.length
        · rw [if_pos hin, if_pos (by omega)]
          obtain ⟨d, hd⟩ : ∃ d, k - a = d + 1 := ⟨k - a - 1, by omega⟩
          rw [hd, show k - (a + 1) = d by omega]
          rfl
        · rw [if_neg hin, if_neg (by omega)]
          exact (hput k).trans (if_neg hk)

/-- Outside a programmed range every byte is as before. -/
theorem State.flashProgram_outside (bs : List Nat) (s : State) (a : Nat) {k : Nat} (h : k < a ∨ a + bs.length ≤ k) :
    flashByte (s.flashProgram a bs).flash k = flashByte s.flash k := by
  induction bs generalizing s a with
  | nil => rfl
  | cons b bs ih =>
    rw [List.length_cons] at h
    unfold flashProgram
    rw [ih _ _ (by omega)]
    split
    · exact (flashByte_putByte ..).trans (if_neg (by omega))
    · exact State.flashFree_byte s (by omega)

/-! ## The record -/

theorem wordBytes_length (ws : List Nat) : (ws.flatMap wordBytes).length = 4 * ws.length := by
  induction ws with
  | nil => rfl
  | cons w ws ih =>
    rw [List.flatMap_cons, List.length_append, ih, List.length_cons]
    simp only [wordBytes, List.length_cons, List.length_nil]
    omega

theorem wordBytes_lt (ws : List Nat) : ∀ b ∈ ws.flatMap wordBytes, b < 256 := by
  intro b hb
  obtain ⟨w, -, hw⟩ := List.mem_flatMap.1 hb
  simp only [wordBytes, List.mem_cons, List.not_mem_nil, or_false] at hw
  omega

theorem nth_wordBytes (ws : List Nat) {i : Nat} (hi : i < (ws.flatMap wordBytes).length) :
    nth (ws.flatMap wordBytes) i 0 % 256 = nth (ws.flatMap wordBytes) i 0 := by
  refine Nat.mod_eq_of_lt ?_
  rw [nth, List.getElem?_eq_getElem hi]
  exact wordBytes_lt ws _ (List.getElem_mem hi)

theorem padTo_length (n : Nat) (l : List Nat) : (padTo n l).length = n := by
  simp [padTo]

/-- A record of the logbook fills its slot of 2,048 bytes. -/
theorem State.logRecord_bytes (s : State) (cause : Nat) : ((s.logRecord cause).flatMap wordBytes).length = 2048 := by
  rw [wordBytes_length]
  have hlen : (s.logRecord cause).length = 512 := by
    simp [State.logRecord, padTo_length]
  rw [hlen]

/-! ## Writing the record -/

section
variable {s : State} {cause slot : Nat}

/-- Erased where the slot begins a sector, and then programmed. -/
def State.logWritten (s : State) (cause slot : Nat) : State :=
  (if slot % 2 = 0 then s.flashErase (s.logBase + 2048 * slot) 4096 else s).flashProgram (s.logBase + 2048 * slot)
    ((s.logRecord cause).flatMap wordBytes)

theorem State.logStart_eq (hp : s.log.pend = some cause) (hb : s.log.busy = none) (hs : s.nextSlot = some slot)
    (hmay : s.logMay = true) (hstop : s.logStopped = false) (hmp : s.mp.user = 0 ∨ s.mp.user = 3) :
    s.logStart = ({ s.logWritten cause slot with
      log := { (s.logWritten cause slot).log with pend := none, busy := some (cause, slot, (s.logWritten cause slot).now) } }
        ).memUser 3 := by
  unfold State.logStart
  simp only [hp, hb, hs, hmay, hstop, hmp, Bool.not_false, and_self, if_true]
  unfold State.logWritten
  generalize State.flashProgram _ _ _ = w
  rfl

theorem State.logWritten_part (s : State) (cause slot : Nat) {p : Part} (h : p ∉ [.flash, .fresh]) :
    (s.logWritten cause slot).part p = s.part p := by
  simp at h
  unfold logWritten
  split <;> simp [h]

theorem State.logWritten_record
    (h : slot % 2 = 0 ∨ ∀ i < 2048, flashByte s.flash (s.logBase + 2048 * slot + i) = 255) {i : Nat}
    (hi : i < ((s.logRecord cause).flatMap wordBytes).length) :
    flashByte (s.logWritten cause slot).flash (s.logBase + 2048 * slot + i) = nth ((s.logRecord cause).flatMap wordBytes) i 0 := by
  have hlen := s.logRecord_bytes cause
  have hmod := nth_wordBytes _ hi
  unfold logWritten
  generalize (s.logRecord cause).flatMap wordBytes = bs at *
  rw [State.flashProgram_erased, if_pos ⟨by omega, by omega⟩, Nat.add_sub_cancel_left, hmod]
  intro j hj
  split
  next => rw [State.flashErase_byte, if_neg (by omega)]
  next hodd => exact h.resolve_left hodd j (by omega)

theorem State.logWritten_outside {k : Nat}
    (h : k < s.logBase + 2048 * slot ∨ s.logBase + 2048 * slot + (if slot % 2 = 0 then 4096 else 2048) ≤ k) :
    flashByte (s.logWritten cause slot).flash k = flashByte s.flash k := by
  have hlen := s.logRecord_bytes cause
  unfold logWritten
  generalize (s.logRecord cause).flatMap wordBytes = bs at *
  split at h
  next heven =>
    rw [if_pos heven, State.flashProgram_outside _ _ _ (by omega), State.flashErase_byte, if_pos h]
  next hodd => rw [if_neg hodd, State.flashProgram_outside _ _ _ (by omega)]

/-! ## The end of a write -/

/-- The next sequence number, and the logbook free for another record. -/
def State.logNext (s : State) (slot : Nat) : State :=
  { (s.setF pk R.LOG_SEQ.seq ((s.f pk R.LOG_SEQ.seq + 1) % 2 ^ 32)).inc pk R.LOG_CNT.written with
    log := { s.log with busy := none, slot := some slot, failed := false, maxT := [], minRate := [] } }

theorem State.logNext_seq (s : State) (slot : Nat) :
    (s.logNext slot).f pk R.LOG_SEQ.seq = (s.f pk R.LOG_SEQ.seq + 1) % 2 ^ 32 := by
  have hinc : ((s.setF pk R.LOG_SEQ.seq ((s.f pk R.LOG_SEQ.seq + 1) % 2 ^ 32)).inc pk R.LOG_CNT.written).f pk R.LOG_SEQ.seq
      = (s.f pk R.LOG_SEQ.seq + 1) % 2 ^ 32 := by
    unfold State.inc
    rw [State.f_setF_other _ _ _ _ _ _ (by decide), State.f_setF_self _ _ _ _ (by decide)]
    exact Nat.mod_mod _ _
  exact hinc

theorem State.logOk_eq (s : State) (slot : Nat) :
    s.logOk slot = (if s.logStopped = true then s.logNext slot else (s.logNext slot).assertOff 48).memUser 0 := rfl

theorem State.logOk_view (s : State) (slot : Nat) :
    let e := s.logOk slot
    e.log.busy = none ∧ e.log.failed = false ∧ e.log.slot = some slot ∧ e.log.pend = s.log.pend
      ∧ e.f pk R.LOG_SEQ.seq = (s.f pk R.LOG_SEQ.seq + 1) % 2 ^ 32 ∧ (s.logStopped = false → 48 ∉ e.rails) ∧ e.mp.user = 0 := by
  intro e
  have hlog : (s.logNext slot).log
      = { s.log with busy := none, slot := some slot, failed := false, maxT := [], minRate := [] } := rfl
  have hseq := s.logNext_seq slot
  have he : e = _ := s.logOk_eq slot
  clear_value e
  generalize s.logNext slot = s1 at *
  have hlog' : (if s.logStopped = true then s1 else s1.assertOff 48).log = s1.log := by
    split
    · rfl
    · exact State.assertOff_part (p := .log) s1 48 (by simp)
  have hseq' : (if s.logStopped = true then s1 else s1.assertOff 48).f pk R.LOG_SEQ.seq = s1.f pk R.LOG_SEQ.seq := by
    split
    · rfl
    · exact congrArg R.LOG_SEQ.seq.get (State.assertOff_word s1 (by decide) (by decide))
  subst he
  rw [show ∀ t : State, (t.memUser 0).log = t.log from fun _ => rfl, hlog', hlog]
  refine ⟨rfl, rfl, rfl, rfl, hseq'.trans hseq, fun hstop => ?_, rfl⟩
  rw [if_neg (by rw [hstop]; decide)]
  exact State.not_mem_assertOff_rails s1 48

theorem State.logFail_view (s : State) (cause slot : Nat) :
    let e := s.logFail cause slot
    e.log.busy = none ∧ e.log.failed = true ∧ slot / 2 ∈ e.log.bad ∧ e.log.pend.isSome = true ∧ 48 ∈ e.rails
      ∧ e.mp.user = 0 ∧ ∀ k, k < s.logBase + 2048 * slot ∨ s.logBase + 2048 * slot + 4096 ≤ k →
          flashByte e.flash k = flashByte s.flash k := by
  intro e
  have he : e = s.logFail cause slot := rfl
  clear_value e
  unfold State.logFail at he
  extract_lets s1 s2 l s3 at he
  subst he
  have hlog : ((s3.assertOn 48).memUser 0).log = s3.log := State.assertOn_part (p := .log) s3 48 (by simp)
  have hflash : ((s3.assertOn 48).memUser 0).flash = s1.flash := State.assertOn_part (p := .flash) s3 48 (by simp)
  rw [hlog, hflash]
  refine ⟨rfl, rfl, ?_, rfl, State.mem_assertOn_rails s3 48, rfl, fun k hk => State.flashFree_byte s ?_⟩
  · show slot / 2 ∈ if s2.log.bad.contains (slot / 2) then s2.log.bad else slot / 2 :: s2.log.bad
    split
    next h => exact List.contains_iff_mem.1 h
    next => exact List.mem_cons_self
  · split <;> omega

end

end Sys2Proof.Machine

open Sys2Proof Sys2Proof.Machine

/-- Settles O43, by the bytes that the write of a record changes and the two ways in which it ends. -/
theorem logbookWrites : Obligations.LogbookWrites := by
  intro s dt u a
  have hu : s.elapse dt = u := rfl
  clear_value u
  have hoff : u.dev.st.operates = true → u.dev.st ≠ .off := fun h h' => by rw [h'] at h; cases h
  refine ⟨fun hop hdue => ?_, fun ho => ?_, ?_, ?_⟩
  · refine State.gives_onKilid (act := (·.logHourly)) rfl hu (hoff hop) ?_
    have he : u.logHourly = ({ u with log := { u.log with hours := u.log.hours + 1 } } : State).logRequest 1 :=
      if_pos ⟨hop, hdue⟩
    rw [he]
    unfold State.logRequest
    cases hp : u.log.pend <;> simp [hp]
  · refine State.gives_hostAct (act := (·.logNow)) rfl hu ho ?_
    have hd : a.dev.st ≠ .off := by obtain ⟨hd, -, -⟩ := ho; rcases hd with e | e | e | e <;> simp [a, e]
    have he : a.logNow = (a.logRequest 4).answer .ok := if_neg hd
    rw [he]
    unfold State.logRequest
    cases hp : u.log.pend
    · simp [a, hp, State.answer, State.asked]
    · simp [a, hp, State.answer, State.asked]
      rw [← hp]
  · intro cause slot hd hp hb hs hmay hstop hmp
    refine State.gives_onKilid (act := (·.logStart)) rfl hu hd ?_
    rw [State.logStart_eq hp hb hs hmay hstop hmp]
    have hin {i : Nat} (h) := State.logWritten_record (s := u) (cause := cause) (slot := slot) h (i := i)
    have hout {k : Nat} (h) := State.logWritten_outside (s := u) (cause := cause) (slot := slot) (k := k) h
    have hlen := u.logRecord_bytes cause
    have hpart {p : Part} (h : p ∉ [.flash, .fresh]) := u.logWritten_part cause slot h
    have hnow : (u.logWritten cause slot).now = u.now := hpart (p := .now) (by simp)
    have hmp' : (u.logWritten cause slot).mp = u.mp := hpart (p := .mp) (by simp)
    have hlog : (u.logWritten cause slot).log = u.log := hpart (p := .log) (by simp)
    dsimp only
    generalize (u.logRecord cause).flatMap wordBytes = bs at *
    generalize u.logWritten cause slot = w at *
    refine ⟨rfl, ?_, rfl, fun h i hi => hin h hi, fun k hk => hout ?_, fun hodd k hk => hout ?_, ?_⟩
    · show some (cause, slot, w.now) = _
      rw [hnow]
    · split <;> omega
    · rw [if_neg (by omega)]
      exact .inr (by omega)
    · refine State.ext_parts fun p => ?_
      have hp := @hpart p
      cases p <;> first | rfl | exact hp (by simp)
  · intro cause slot t hd hb hphase failed
    have hquiet : ∀ e : State, e.boot = u.boot → e.recoverStep = e := fun e he =>
      if_neg fun h => hphase (by rw [← he]; exact h.1)
    have hfail : failed (u.logFail cause slot) := by
      obtain ⟨h1, h2, h3, h4, h5, h6, h7⟩ := u.logFail_view cause slot
      refine ⟨h1, h2, h3, h4, h5, h6, h7, ?_, State.gates_eq fun o => by simp, ?_, ?_⟩
      · exact State.logFail_part (p := .cl) u cause slot (by simp)
      · exact State.logFail_part (p := .sec) u cause slot (by simp)
      · exact State.logFail_part (p := .can) u cause slot (by simp)
    have hfails : (u.logFail cause slot).recoverStep = u.logFail cause slot :=
      hquiet _ (State.logFail_part (p := .boot) u cause slot (by simp))
    have hends (ok : Bool) : u.logCompleteStep ok
        = (if ok ∧ u.now ≤ t + logLimit then u.logOk slot else u.logFail cause slot).recoverStep := by
      unfold State.logCompleteStep State.logComplete
      rw [hb]
    refine ⟨fun ht => ?_, fun ht => ?_, ?_, fun ht => ?_⟩
    · refine State.gives_onKilid (act := (·.logCompleteStep true)) rfl hu hd ?_
      rw [hends, if_pos ⟨rfl, ht⟩, hquiet _ (State.logOk_part (p := .boot) u slot (by simp))]
      obtain ⟨h1, h2, h3, h4, h5, h6, h7⟩ := u.logOk_view slot
      refine ⟨h1, h2, h3, h4, h5, h6, h7, ?_, ?_, State.gates_eq fun o => by simp, ?_, ?_⟩
      · exact State.logOk_part (p := .flash) u slot (by simp)
      · exact State.logOk_part (p := .cl) u slot (by simp)
      · exact State.logOk_part (p := .sec) u slot (by simp)
      · exact State.logOk_part (p := .can) u slot (by simp)
    · refine State.gives_onKilid (act := (·.logCompleteStep true)) rfl hu hd ?_
      rw [hends, if_neg (fun h => absurd h.2 (by unfold logLimit; omega)), hfails]
      exact hfail
    · refine State.gives_onKilid (act := (·.logCompleteStep false)) rfl hu hd ?_
      rw [hends, if_neg (fun h => Bool.false_ne_true h.1), hfails]
      exact hfail
    · refine State.gives_onKilid (act := (·.logTimeoutStep)) rfl hu hd ?_
      have he : u.logTimeoutStep = (u.logFail cause slot).recoverStep := by
        unfold State.logTimeoutStep State.logTimeout
        rw [hb]
        exact congrArg State.recoverStep (if_pos ht)
      rw [he, hfails]
      exact hfail
end

section
/-! PROOFS. The security module: the commands of the lifecycle (R368), random words (R366) and the end of a lockout (R372). -/

namespace Sys2Proof.Machine

/-! ## The result of a command -/

/-- Is a word of the key buffer? -/
def inKeyBuf (k : Nat) : Prop := 0x4020 ≤ k ∧ k < 0x4030

/-- What a command of the lifecycle answers: its result, the module's state, and the key buffer where it is cleared. -/
structure State.SecGives (a : State) (r : Nat) (sec : Sec → Prop) (clears : Bool) (e : State) : Prop where
  same : e = { a with store := e.store, sec := e.sec, fresh := e.fresh }
  result : e.f pk R.SEC_CMD.result = r
  sec_ok : sec e.sec
  words : ∀ k, k ≠ R.SEC_CMD.reg → e.word k = if clears = true ∧ 0x4020 ≤ k ∧ k < 0x4030 then 0 else a.word k

theorem State.secResult_gives {a t : State} {r : Nat} {sec : Sec → Prop} {clears : Bool} (hr : r < 2 ^ R.SEC_CMD.result.w)
    (hsame : ∀ p : Part, p ∉ [.store, .sec, .fresh] → t.part p = a.part p) (ha : a.status = .ok)
    (hw : ∀ k, t.word k = if clears = true ∧ 0x4020 ≤ k ∧ k < 0x4030 then 0 else a.word k) (hsec : sec t.sec) :
    State.SecGives a r sec clears (t.secResult r) where
  same := State.ext_parts fun p => by
    have hp := hsame p
    cases p <;> first | rfl | exact ha.symm | exact hp (by simp)
  result := (State.f_setF_self t pk R.SEC_CMD.result r (by decide)).trans (Nat.mod_eq_of_lt hr)
  sec_ok := hsec
  words k hk := (State.word_setWord_ne _ _ hk).trans (hw k)

/-- A refusal: its result, and nothing else changes. -/
theorem State.secResult_refused {a : State} {r : Nat} (hr : r < 2 ^ R.SEC_CMD.result.w) (ha : a.status = .ok) :
    State.SecGives a r (· = a.sec) false (a.secResult r) :=
  State.secResult_gives hr (fun _ _ => rfl) ha (fun _ => (if_neg (fun h => Bool.false_ne_true h.1)).symm) rfl

/-! ## The key buffer and the slots -/

theorem State.keyBufClear_word (s : State) (k : Nat) :
    s.keyBufClear.word k = if 0x4020 ≤ k ∧ k < 0x4030 then 0 else s.word k := by
  have hall : ∀ (l : List Nat) (t : State),
      (t.each l fun j s => s.setWord (0x4020 + j) 0).word k = if ∃ j ∈ l, k = 0x4020 + j then 0 else t.word k := by
    intro l
    induction l with
    | nil => intro t; rw [if_neg (by simp)]; rfl
    | cons j l ih =>
      intro t
      rw [State.each_cons, ih, State.word_setWord]
      by_cases hj : k = 0x4020 + j
      · simp [hj]
      · simp [hj]
  refine (hall _ s).trans ?_
  congr 1
  refine propext ⟨?_, fun h => ⟨k - 0x4020, List.mem_range.2 (by omega), by omega⟩⟩
  rintro ⟨j, hj, rfl⟩
  have := List.mem_range.1 hj
  omega

theorem State.keyBufClear_sec (s : State) : s.keyBufClear.sec = s.sec := State.keyBufClear_part (p := .sec) s (by simp)

/-- After RETIRE every slot is revoked; the lifecycle and the rollback counter are not the slots'. -/
theorem State.each_slotBurn (l : List (Fin 16)) (s : State) :
    (∀ j, j ∈ l ∨ (s.sec.slots[j]).revoked = true → ((s.each l fun i s => s.slotBurn i).sec.slots[j]).revoked = true)
      ∧ (s.each l fun i s => s.slotBurn i).sec.rb = s.sec.rb := by
  induction l generalizing s with
  | nil => exact ⟨fun j h => h.resolve_left (by simp), rfl⟩
  | cons i l ih =>
    rw [State.each_cons]
    obtain ⟨hrev, hrb⟩ := ih (s.slotBurn i)
    refine ⟨fun j h => hrev j ?_, hrb⟩
    by_cases hj : j = i
    · subst hj
      refine .inr ?_
      simp [State.slotBurn, State.putSlot, State.modSec, upd]
    · refine (h.imp_left fun h => (List.mem_cons.1 h).resolve_left hj).imp_right fun h => ?_
      have hkept : ((s.slotBurn i).sec.slots[j]) = s.sec.slots[j] := upd_ne _ _ hj
      rw [hkept]
      exact h

end Sys2Proof.Machine

open Sys2Proof Sys2Proof.Machine

theorem securityCommands : Claims.SecurityCommands := by
  intro s dt u a life buf gives refused has ho w ok i t us
  have hu : s.elapse dt = u := rfl
  clear_value u
  have hok : a.status = .ok := rfl
  have by_act : ∀ {c : Instr} (act : State → State) {r : Nat} {sec : Sec → Prop} {clears : Bool},
      exec c s = s.after dt (·.hostAct act) → State.SecGives a r sec clears (act a) → gives c r sec clears := by
    intro c act r sec clears hx h
    exact State.gives_hostAct hx hu ho ⟨h.same, h.result, h.sec_ok, h.words⟩
  have refuses : ∀ {c : Instr} (act : State → State) {r : Nat}, exec c s = s.after dt (·.hostAct act) →
      r < 2 ^ R.SEC_CMD.result.w → act a = a.secResult r → refused c r := by
    intro c act r hx hr he
    refine by_act (sec := (· = u.sec)) (clears := false) act hx ?_
    rw [he]
    exact State.secResult_refused hr hok
  have hclear (t : State) (hstore : t.store = a.keyBufClear.store) (k : Nat) :
      t.word k = if true = true ∧ 0x4020 ≤ k ∧ k < 0x4030 then 0 else a.word k := by
    rw [State.word_of_part (t := a.keyBufClear) hstore k, State.keyBufClear_word]
    simp
  have hkept (k : Nat) : a.word k = if false = true ∧ 0x4020 ≤ k ∧ k < 0x4030 then 0 else a.word k :=
    (if_neg fun h => Bool.false_ne_true h.1).symm
  have hhas (us : Nat) : ((List.finRange 16).any fun i => (a.sec.slots[i]).holds us) = false ↔ ¬ has us := by
    rw [← Bool.not_eq_true, List.any_eq_true]
    exact not_congr ⟨fun ⟨i, _, hi⟩ => ⟨i, hi⟩, fun ⟨i, hi⟩ => ⟨i, List.mem_finRange i, hi⟩⟩
  have hone (h : life = 1) : ¬ a.sec.life ≠ 1 := not_not_intro h
  have hready (h : life = 0) (hst : u.dev.st = .ready) : ¬ (a.sec.life ≠ 0 ∨ a.dev.st ≠ .ready) :=
    not_or.2 ⟨not_not_intro h, not_not_intro hst⟩
  have hgood (h0 : has 0) (h1 : has 1) (himg : u.imageSigned = true) :
      ¬ ((!((List.finRange 16).any fun i => (a.sec.slots[i]).holds 0)) = true
        ∨ (!((List.finRange 16).any fun i => (a.sec.slots[i]).holds 1)) = true ∨ (!a.imageSigned) = true) := by
    have himg' : a.imageSigned = true := himg
    rw [himg']
    simp only [Bool.not_eq_true', hhas, not_or, Decidable.not_not]
    exact ⟨h0, h1, by decide⟩
  refine ⟨fun h => ⟨?_, ?_⟩, fun h hty => ?_, fun h hty hfit => ?_, fun h hst h0 h1 himg => ⟨?_, ?_⟩, fun h hst hor => ?_,
    fun h => ⟨?_, ?_, ?_⟩, fun h => ⟨?_, ?_⟩, fun h himg hlast => ?_, fun h himg hslot => ?_, fun h hrb => ⟨?_, ?_⟩,
    fun h hrb => ?_⟩
  · exact refuses (·.secProgram w ok) rfl (by decide) (if_pos h)
  · exact refuses (·.secSeal ok) rfl (by decide) (if_pos (.inl h))
  · exact refuses (·.secProgram w ok) rfl (by decide) ((if_neg (not_not_intro h)).trans (if_pos hty))
  · intro k
    refine by_act (sec := (· = { u.sec with slots := upd u.sec.slots i k })) (clears := true) (·.secProgram w true) rfl ?_
    have he : a.secProgram w true = (a.keyBufClear.putSlot i k).secResult 1 :=
      (if_neg (not_not_intro h)).trans ((if_neg (not_not_intro hty)).trans ((if_neg (by
        show ¬ (!keyFits t us) = true
        rw [hfit]; decide)).trans (if_pos rfl)))
    rw [he]
    refine State.secResult_gives (by decide) (fun p hp => ?_) hok (hclear _ (State.putSlot_part (p := .store) _ i k (by simp))) ?_
    · simp at hp
      simp [hp]
    · show (a.keyBufClear.putSlot i k).sec = _
      rw [State.putSlot, State.modSec, State.keyBufClear_sec]
      rfl
  · refine by_act (sec := (· = { u.sec with life := 1 })) (clears := true) (·.secSeal true) rfl ?_
    have he : a.secSeal true = ((a.modSec fun x => { x with life := 1 }).keyBufClear).secResult 1 := by
      unfold State.secSeal
      rw [if_neg (hready h hst), if_neg (hgood h0 h1 himg)]
      exact if_pos rfl
    rw [he]
    refine State.secResult_gives (by decide) (fun p hp => ?_) hok (fun k => ?_) ?_
    · simp at hp
      simp [hp]
    · rw [State.keyBufClear_word]
      simp
    · exact State.keyBufClear_sec _
  · refine refuses (·.secSeal false) rfl (by decide) ?_
    unfold State.secSeal
    rw [if_neg (hready h hst), if_neg (hgood h0 h1 himg)]
    exact if_neg Bool.false_ne_true
  · refine refuses (·.secSeal ok) rfl (by decide) ?_
    unfold State.secSeal
    rw [if_neg (hready h hst)]
    refine if_pos ?_
    rcases hor with h0 | h1 | himg
    · exact .inl ((Bool.not_eq_true' _).mpr ((hhas 0).2 h0))
    · exact .inr (.inl ((Bool.not_eq_true' _).mpr ((hhas 1).2 h1)))
    · refine .inr (.inr ?_)
      rw [show a.imageSigned = false from himg]
      rfl
  · exact refuses (·.secRetire ok) rfl (by decide) (if_pos h)
  · exact refuses (·.secRevoke w ok) rfl (by decide) (if_pos h)
  · exact refuses (·.secAdvance ok) rfl (by decide) (if_pos h)
  · refine by_act (sec := fun x => x.life = 2 ∧ x.rb = u.sec.rb ∧ ∀ j : Fin 16, (x.slots[j]).revoked = true)
      (clears := true) (·.secRetire true) rfl ?_
    have he : a.secRetire true = (((a.each (List.finRange 16) fun i s => s.slotBurn i).modSec fun x =>
        { x with life := 2 }).keyBufClear).secResult 1 := by
      unfold State.secRetire
      rw [if_neg (hone h), if_pos rfl]
    rw [he]
    obtain ⟨hrev, hrb⟩ := State.each_slotBurn (List.finRange 16) a
    have hpart : ∀ p : Part, p ∉ [.store, .sec, .fresh] →
        (a.each (List.finRange 16) fun i s => s.slotBurn i).part p = a.part p := fun p hp => by
      simp at hp
      simp [hp]
    have hword : ∀ k, (a.each (List.finRange 16) fun i s => s.slotBurn i).word k = a.word k :=
      State.word_of_part (by simp)
    generalize (a.each (List.finRange 16) fun i s => s.slotBurn i) = b at *
    refine State.secResult_gives (by decide) (fun p hp => ?_) hok (fun k => ?_) ?_
    · rw [← hpart p hp]
      simp at hp
      simp [hp]
    · rw [State.keyBufClear_word, ← hword]
      simp
    · rw [State.keyBufClear_sec]
      exact ⟨rfl, hrb, fun j => hrev j (.inl (List.mem_finRange j))⟩
  · refine refuses (·.secRetire false) rfl (by decide) ?_
    unfold State.secRetire
    rw [if_neg (hone h), if_neg Bool.false_ne_true]
  · intro k
    refine by_act (sec := (· = { u.sec with slots := upd u.sec.slots i k })) (clears := false) (·.secRevoke w true) rfl ?_
    have he : a.secRevoke w true = (a.putSlot i k).secResult 1 := by
      unfold State.secRevoke
      dsimp only
      rw [if_neg (hone h), if_neg]
      · exact if_pos rfl
      · refine not_or.2 ⟨himg, fun hall => ?_⟩
        obtain ⟨hholds, hothers⟩ := Bool.and_eq_true_iff.1 hall
        obtain ⟨j, hj, hjh⟩ := hlast hholds
        have hj' := List.all_eq_true.1 hothers j (List.mem_finRange j)
        rw [show (a.sec.slots[j]).holds 1 = true from hjh, Bool.not_true, Bool.or_false] at hj'
        exact hj (eq_of_beq hj')
    rw [he]
    refine State.secResult_gives (by decide) (fun p hp => ?_) hok hkept rfl
    simp at hp
    simp [hp]
  · exact refuses (·.secRevoke w ok) rfl (by decide)
      ((if_neg (not_not_intro h)).trans (if_pos (.inl ⟨himg, hslot⟩)))
  · refine by_act (sec := (· = { u.sec with rb := u.boot.rbLevel })) (clears := false) (·.secAdvance true) rfl ?_
    have he : a.secAdvance true = (a.modSec fun x => { x with rb := a.boot.rbLevel }).secResult 1 := by
      unfold State.secAdvance
      rw [if_neg (hone h), if_neg (show ¬ a.boot.rbLevel ≤ a.sec.rb from Nat.not_le.2 hrb)]
      exact if_pos rfl
    rw [he]
    refine State.secResult_gives (by decide) (fun p hp => ?_) hok hkept rfl
    simp at hp
    simp [hp]
  · exact refuses (·.secAdvance false) rfl (by decide)
      ((if_neg (not_not_intro h)).trans ((if_neg (Nat.not_le.2 hrb)).trans (if_neg Bool.false_ne_true)))
  · exact refuses (·.secAdvance ok) rfl (by decide) ((if_neg (not_not_intro h)).trans (if_pos hrb))

theorem randomWordsAndLockout : Claims.RandomWordsAndLockout := by
  intro s dt u
  have hu : s.elapse dt = u := rfl
  clear_value u
  refine ⟨fun hdev hexec hlife => ?_, fun hd => ?_, fun hd hl ht => ?_⟩
  · have hword : u.fresh0.readWord .host R.SEC_TRNG.reg = u.fresh0.trngRead := by
      unfold State.readWord
      simp only [show implemented R.SEC_TRNG.reg = true by decide, show splitLo R.SEC_TRNG.reg = false by decide,
        show splitHi R.SEC_TRNG.reg = false by decide, Bool.not_true, Bool.false_eq_true, if_false, if_true]
    have hread := State.hostRead_one hdev hexec hlife (show R.SEC_TRNG.reg < 0x1000000 by decide)
    rw [hword] at hread
    have hrange : (u.fresh0.trngRead).1.range = false := by
      unfold State.trngRead
      dsimp only
      split <;> rfl
    refine ⟨{ u.fresh0.trngRead.1.answer .ok with data := [u.fresh0.trngRead.2] }, ?_, ?_⟩
    · have hcount : u.portRead .host R.SEC_TRNG.reg = { u.fresh0.trngRead.1.answer .ok with data := [u.fresh0.trngRead.2] } :=
        (congrArg State.countRange hread).trans (if_neg fun h => Bool.false_ne_true (hrange.symm.trans h.1))
      rw [← hcount, ← hu]
      rfl
    · unfold State.trngRead
      dsimp only
      split
      next => exact ⟨rfl, .inl ⟨u.freeNat % 2 ^ 24, Nat.mod_lt _ (by decide), rfl, rfl⟩⟩
      next => exact ⟨rfl, .inr ⟨rfl, rfl⟩⟩
  · exact State.gives_onKilid (act := (·.trngFails)) rfl hu hd (if_neg hd)
  · refine State.gives_onKilid (act := (·.lockoutEnd)) rfl hu hd ?_
    exact if_pos ⟨hl, ht⟩

/-- Settles O47: the guards of R368 in order, then what a command programs; a random word is fresh or the last one. -/
theorem securityModule : Obligations.SecurityModule := ⟨securityCommands, randomWordsAndLockout⟩
end

section
/-! PROOFS. Motion commands accepted and refused (R224). -/

namespace Sys2Proof.Machine

/-! ## The judgement of a command -/

section
variable {s : State} {x : Axis} {row : List (Bool × Status)}

theorem State.moJudge_pre (st : Status) (argBad : Bool) (ramp : Status) : s.moJudge x (some st) argBad ramp row = some st := rfl

theorem State.moJudge_badArg (ramp : Status) : s.moJudge x none true ramp row = some .badArg := rfl

theorem State.moJudge_stopping {ramp : Status} (h : (s.virt x).1 = .stopping) : s.moJudge x none false ramp row = some ramp :=
  if_pos h

theorem State.moJudge_row {ramp : Status} (h : (s.virt x).1 ≠ .stopping) :
    s.moJudge x none false ramp row = (row.find? (fun p => p.1)).map (·.2) := if_neg h

/-- A command passes where its mode and arguments do, no stop ramp runs and its row has nothing against it. -/
theorem State.moJudge_passes {ramp : Status} (h : (s.virt x).1 ≠ .stopping) (hrow : ∀ p ∈ row, p.1 = false) :
    s.moJudge x none false ramp row = none := by
  rw [State.moJudge_row h, List.find?_eq_none.2 (fun p hp => by rw [hrow p hp]; decide)]
  rfl

end

/-! ## An accepted command -/

theorem State.modAx_self (s : State) (x : Axis) (g : AxisSt → AxisSt) : (s.modAx x g).ax x = g (s.ax x) := by
  cases x <;> exact upd_self ..

theorem State.modAx_other (s : State) {x y : Axis} (g : AxisSt → AxisSt) (h : y ≠ x) : (s.modAx x g).ax y = s.ax y := by
  cases x <;> cases y <;> first | rfl | exact upd_ne _ _ fun e => h (congrArg _ e)

theorem State.noteClamp_word (s : State) (x : Axis) (v acc : Nat) {k : Nat} (h : k ≠ moB x + R.MO_STAT.reg) :
    (s.noteClamp x v acc).word k = s.word k := by
  have hv : ∀ t : State, (t.setF (moB x) R.MO_STAT.v_clamped 1).word k = t.word k := fun t => State.word_setWord_ne _ _ h
  have ha : ∀ t : State, (t.setF (moB x) R.MO_STAT.a_clamped 1).word k = t.word k := fun t => State.word_setWord_ne _ _ h
  unfold noteClamp
  dsimp only
  split <;> split <;> simp only [ha, hv]

theorem State.noteClamp_ax (s : State) (x : Axis) (v acc : Nat) (y : Axis) : (s.noteClamp x v acc).ax y = s.ax y := by
  cases y with
  | mc n => exact congrArg (fun a : Vector AxisSt 6 => a[n]) (State.noteClamp_part (p := .axM) s x v acc (by simp))
  | st k => exact congrArg (fun a : Vector AxisSt 8 => a[k]) (State.noteClamp_part (p := .axS) s x v acc (by simp))

/-- What R224 says of a command that it accepts. -/
structure State.MotionTaken (a : State) (x : Axis) (m : MoCmd) (e : State) : Prop where
  status : e.status = .ok
  waits : e.ax x = { a.ax x with cmds := (a.ax x).cmds ++ [m] }
  others : ∀ y : Axis, y ≠ x → e.ax y = a.ax y
  same : e = { a with status := .ok, store := e.store, axM := e.axM, axS := e.axS }
  words : ∀ i, i ≠ moB x + R.MO_STAT.reg → e.word i = a.word i

theorem State.moDo_taken (a : State) (x : Axis) {j : Option Status} (hj : j = none) (v acc : Nat)
    (m : MoCmd) : State.MotionTaken a x m (a.moDo x j v acc m) := by
  subst hj
  have hpart {p : Part} (hp : p ∉ [.store]) : (a.noteClamp x v acc).part p = a.part p := State.noteClamp_part a x v acc hp
  have hax := a.noteClamp_ax x v acc
  have hword {k : Nat} (h) := a.noteClamp_word x v acc (k := k) h
  show State.MotionTaken a x m ((a.noteClamp x v acc).moAccept x m)
  generalize a.noteClamp x v acc = b at *
  refine ⟨rfl, ?_, fun y hy => ?_, ?_, fun i hi => ?_⟩
  · refine (State.modAx_self b x fun z => { z with cmds := z.cmds ++ [m] }).trans ?_
    rw [hax]
  · exact (State.modAx_other b _ hy).trans (hax y)
  · refine State.ext_parts fun p => ?_
    have hmod : p ∉ [Part.axM, Part.axS] →
        (b.modAx x fun z => { z with cmds := z.cmds ++ [m] }).part p = b.part p := fun h => State.modAx_part _ _ _ h
    have hp := @hpart p
    cases p <;> first | rfl | exact (hmod (by simp)).trans (hp (by simp))
  · refine Eq.trans ?_ (hword hi)
    cases x <;> rfl

theorem State.moAccept_taken (a : State) (x : Axis) (m : MoCmd) :
    State.MotionTaken a x m (a.moAccept x m) := by
  refine ⟨rfl, State.modAx_self .., fun y hy => State.modAx_other _ _ hy, State.ext_parts fun p => ?_, fun i _ => ?_⟩
  · have hmod : p ∉ [Part.axM, Part.axS] →
        (a.modAx x fun z => { z with cmds := z.cmds ++ [m] }).part p = a.part p := fun h => State.modAx_part _ _ _ h
    cases p <;> first | rfl | exact hmod (by simp)
  · cases x <;> rfl

end Sys2Proof.Machine

open Sys2Proof Sys2Proof.Machine

theorem motionCommandsAccepted : Claims.MotionCommandsAccepted := by
  intro s dt x u a g v acc k len run taken ho
  have hu : s.elapse dt = u := rfl
  clear_value u
  have gives : ∀ {c : Instr} {m : MoCmd} (act : State → State), exec c s = s.after dt (·.hostAct act) →
      State.MotionTaken a x m (act a) → taken c m := by
    intro c m act hx h
    exact State.gives_hostAct hx hu ho ⟨h.status, h.waits, h.others, h.same, h.words⟩
  have passes : ∀ {pre : Option Status} {argBad : Bool} {ramp : Status} {row : List (Bool × Status)}, pre = none →
      argBad = false → k ≠ .stopping → (∀ p ∈ row, p.1 = false) → a.moJudge x pre argBad ramp row = none := by
    intro pre argBad ramp row hpre hbad hk hrow
    rw [hpre, hbad]
    exact State.moJudge_passes hk hrow
  have hvel : g.vel ≠ 0 → (g.vel.natAbs == 0) = false := fun h => by
    simpa using h
  have hacc : g.acc ≠ 0 → (g.acc == 0) = false := fun h => by simpa using h
  have both : g.vel ≠ 0 → g.acc ≠ 0 → (g.vel.natAbs == 0 || g.acc == 0) = false := fun hv ha => by
    rw [hvel hv, hacc ha]; rfl
  have idle : k = .idle → k ≠ .stopping := fun h => by rw [h]; decide
  have notIdle : k = .idle → ((a.virt x).1 != .idle) = false := fun h => by
    rw [show (a.virt x).1 = _ from h]; rfl
  have running : run → (!a.axRunning x) = false := fun h => by rw [show a.axRunning x = true from h]; rfl
  have one {b : Bool} {st : Status} (h : b = false) : ∀ p ∈ [(b, st)], p.1 = false := List.forall_mem_singleton.2 h
  have two {b b' : Bool} {st st' : Status} (h : b = false) (h' : b' = false) :
      ∀ p ∈ [(b, st), (b', st')], p.1 = false := List.forall_mem_cons.2 ⟨h, one h'⟩
  have three {b b' b'' : Bool} {st st' st'' : Status} (h : b = false) (h' : b' = false) (h'' : b'' = false) :
      ∀ p ∈ [(b, st), (b', st'), (b'', st'')], p.1 = false := List.forall_mem_cons.2 ⟨h, two h' h''⟩
  refine ⟨fun hc => ⟨?_, fun hv hk => ?_, fun ha hk => ?_, fun hk => ?_⟩,
    fun hc => ⟨fun hv ha hk hrun => ?_, fun hv ha hk hlen => ?_, fun hk hrun hlen o => ?_, fun hk r ws hr => ?_, fun hk => ?_⟩,
    fun hc ha hk => ?_, fun hc hk hrun => ?_⟩
  · refine gives (·.moStop x) rfl ?_
    unfold State.moStop
    rw [hc]
    exact State.moAccept_taken a x .stop
  · refine gives (fun s => s.moSetV x (s.staged 0 x)) rfl (State.moDo_taken a x (passes hc (hvel hv) ?_ ?_) _ _ _)
    · rcases hk with h | h | h <;> rw [h] <;> decide
    · refine one ?_
      rcases hk with h | h | h <;> rw [show (a.virt x).1 = _ from h] <;> rfl
  · refine gives (fun s => s.moSetA x (s.staged 0 x)) rfl (State.moDo_taken a x (passes hc (hacc ha) ?_ ?_) _ _ _)
    · rcases hk with h | h | h | h <;> rw [h] <;> decide
    · refine one ?_
      rcases hk with h | h | h | h <;> rw [show (a.virt x).1 = _ from h] <;> rfl
  · exact gives (fun s => s.moSetPos x (s.staged 0 x)) rfl
      (State.moDo_taken a x (passes hc rfl (idle hk) (one (notIdle hk))) _ _ _)
  · exact gives (fun s => s.moMove x (s.staged 0 x)) rfl
      (State.moDo_taken a x (passes hc (both hv ha) (idle hk) (two (running hrun) (notIdle hk))) _ _ _)
  · exact gives (fun s => s.moAppend x (s.staged 0 x)) rfl
      (State.moDo_taken a x (passes hc (both hv ha) hk (one (decide_eq_false (Nat.not_le.2 hlen)))) _ _ _)
  · refine gives (fun s => s.moRouteStart x o) rfl
      (State.moDo_taken a x (passes hc rfl (idle hk) (three (running hrun) (notIdle hk) ?_)) _ _ _)
    exact beq_eq_false_iff_ne.2 hlen
  · have hroute : a.imageRoute r.toNat = some ws := hr
    refine gives (fun s => s.moRouteLoad x (s.imageRoute r.toNat)) rfl ?_
    rw [hroute]
    exact State.moDo_taken a x (passes hc rfl (idle hk) (two (notIdle hk) rfl)) _ _ _
  · exact gives (fun s => s.moRouteClear x) rfl (State.moDo_taken a x (passes hc rfl (idle hk) (one (notIdle hk))) _ _ _)
  · exact gives (fun s => s.moSpeed x (s.staged 0 x)) rfl
      (State.moDo_taken a x (passes hc (hacc ha) hk fun _ h => absurd h List.not_mem_nil) _ _ _)
  · exact gives (fun s => s.moHome x) rfl
      (State.moDo_taken a x (passes hc rfl (idle hk) (two (running hrun) (notIdle hk))) _ _ _)

theorem motionCommandsRefused : Claims.MotionCommandsRefused := by
  intro s dt x u a g k refused ho
  have hu : s.elapse dt = u := rfl
  clear_value u
  have gives : ∀ {c : Instr} {st : Status} (act : State → State), exec c s = s.after dt (·.hostAct act) →
      act a = a.moRefuse x st → refused c st := by
    intro c st act hx h
    refine State.gives_hostAct hx hu ho ?_
    rw [h]
    exact a.moRefuse_view x st
  have judged {j : Option Status} {st : Status} (hj : j = some st) (v acc : Nat) (m : MoCmd) :
      a.moDo x j v acc m = a.moRefuse x st := by rw [hj]; rfl
  have hargs : g.vel ≠ 0 → g.acc ≠ 0 → ((a.staged 0 x).vel.natAbs == 0 || (a.staged 0 x).acc == 0) = false := fun hv ha => by
    simpa using ⟨hv, ha⟩
  refine ⟨fun st hc => ⟨?_, ?_, ?_, ?_⟩, fun st hc => ⟨?_, ?_, fun o => ?_, fun r => ?_, ?_⟩, fun st hc => ?_, fun st hc => ?_,
    fun hc hz => ?_, fun hc hv ha hk => ?_, fun hc hk hv ha hlen => ?_⟩
  · refine gives (·.moStop x) rfl ?_
    unfold State.moStop
    rw [hc]
  · exact gives (fun s => s.moSetV x (s.staged 0 x)) rfl (judged (by rw [hc]; rfl) _ _ _)
  · exact gives (fun s => s.moSetA x (s.staged 0 x)) rfl (judged (by rw [hc]; rfl) _ _ _)
  · exact gives (fun s => s.moSetPos x (s.staged 0 x)) rfl (judged (by rw [hc]; rfl) _ _ _)
  · exact gives (fun s => s.moMove x (s.staged 0 x)) rfl (judged (by rw [hc]; rfl) _ _ _)
  · exact gives (fun s => s.moAppend x (s.staged 0 x)) rfl (judged (by rw [hc]; rfl) _ _ _)
  · exact gives (fun s => s.moRouteStart x o) rfl (judged (by rw [hc]; rfl) _ _ _)
  · exact gives (fun s => s.moRouteLoad x (s.imageRoute r.toNat)) rfl (judged (by rw [hc]; rfl) _ _ _)
  · exact gives (fun s => s.moRouteClear x) rfl (judged (by rw [hc]; rfl) _ _ _)
  · exact gives (fun s => s.moSpeed x (s.staged 0 x)) rfl (judged (by rw [hc]; rfl) _ _ _)
  · exact gives (fun s => s.moHome x) rfl (judged (by rw [hc]; rfl) _ _ _)
  · refine gives (fun s => s.moMove x (s.staged 0 x)) rfl (judged ?_ _ _ _)
    rw [hc, show ((a.staged 0 x).vel.natAbs == 0 || (a.staged 0 x).acc == 0) = true by
      simpa using hz]
    rfl
  · refine gives (fun s => s.moMove x (s.staged 0 x)) rfl (judged ?_ _ _ _)
    rw [hc, hargs hv ha]
    exact State.moJudge_stopping hk
  · refine gives (fun s => s.moAppend x (s.staged 0 x)) rfl (judged ?_ _ _ _)
    rw [hc, hargs hv ha, State.moJudge_row hk, decide_eq_true hlen]
    rfl

/-- Settles O34, by the judgement of R224: the steps that a command passes or fails, then its waiting in the axis's list. -/
theorem motionCommands : Obligations.MotionCommands := ⟨motionCommandsAccepted, motionCommandsRefused⟩
end

section
/-! PROOFS. The chain commands and set-points (R387, R388). -/

namespace Sys2Proof.Machine

/-! ## The rows of the chain -/

/-- The state that a chain command finds: the latest access cleared, and the word counted. -/
def State.chainOpen (u : State) : State := u.fresh0.setF pk R.HP_CHAIN.rx_count ((u.f pk R.HP_CHAIN.rx_count + 1) % 256)

theorem State.countRange_eq (s : State) : s.countRange = { s with store := s.countRange.store } :=
  State.eq_with_store fun p hp => State.countRange_part s (by simpa using hp)

theorem State.countRange_calm {s : State} (h : s.range = false) : s.countRange = s :=
  if_neg fun hr => Bool.false_ne_true (h.symm.trans hr.1)

theorem chainOutcome_ok (d : Option Nat) : chainOutcome .ok d = (0, d) := if_pos rfl

theorem chainOutcome_badArg : chainOutcome .badArg none = (3, some Status.badArg.code) := if_neg (by decide)

/-- The status of a chain command left for the next frame. -/
def State.chainLeft (s : State) (d : Option Nat) : State := s.modHp fun h => { h with chainStat := chainOutcome s.status d }

/-- A chain command of an open device: its effect, and the status that it leaves. -/
theorem State.chainRow_open {u : State} (ho : u.hostOpen) (cmd : Nat) (arg : BitVec 24) {e : State} {d : Option Nat}
    (he : u.chainOpen.chainCmd cmd arg.toNat = (e, d)) : u.chainRow cmd arg = e.countRange.chainLeft d := by
  obtain ⟨hd, hexec, hl⟩ := ho
  have h0 : u.dev.st ≠ .off := by rcases hd with e | e | e | e <;> simp [e]
  have hword : u.fresh0.chainWord cmd arg.toNat = (e.countRange, d) := by
    unfold chainWord
    dsimp only
    rw [show u.fresh0.setF pk R.HP_CHAIN.rx_count ((u.fresh0.f pk R.HP_CHAIN.rx_count + 1) % 256) = u.chainOpen from rfl, he]
  have hfree : u.fresh0.hp.exec.isSome = false := by rw [show u.fresh0.hp.exec = none from hexec]; rfl
  unfold chainRow
  rw [if_neg h0]
  dsimp only
  rw [hfree, hword]
  rfl

theorem State.chainOpen_part (u : State) {p : Part} (h : p ∉ [.store]) : u.chainOpen.part p = u.fresh0.part p :=
  State.setF_part _ _ _ _ h

section
variable {s : State} {dt : Nat} {i : Instr} {P : State → Prop} {u : State} {cmd : Nat} {arg : BitVec 24}

/-- A row of the chain gives its command's effect with the status left. -/
theorem State.gives_chain (hx : exec i s = s.after dt (·.chainRow cmd arg)) (hu : s.elapse dt = u) (ho : u.hostOpen)
    {e : State} {d : Option Nat} (he : u.chainOpen.chainCmd cmd arg.toNat = (e, d))
    (hp : P (e.countRange.chainLeft d)) : s.Gives i dt P := by
  refine ⟨_, ?_, hp⟩
  rw [hx, State.after, hu, State.chainRow_open ho cmd arg he]

end

/-- Neither retired nor before its start, a device takes each command of the chain. -/
theorem State.chainCmd_open {x : State} (hlife : x.sec.life ≠ 2) (hst : x.dev.st ≠ .basecamp ∧ x.dev.st ≠ .verify)
    (cmd arg : Nat) : x.chainCmd cmd arg =
      match cmd with
      | 0 => (x.answer .ok, none)
      | 1 => (x.chainSetpoint arg, none)
      | 2 => ((x.modHp fun h => { h with ptr := arg }).answer .ok, none)
      | 3 => (if 65536 ≤ arg then x.answer .badArg else (x.modHp fun h => { h with half := arg }).answer .ok, none)
      | 4 =>
        if 65536 ≤ arg then (x.answer .badArg, none)
        else
          let y := x.writeWord .host x.hp.ptr (BitVec.ofNat 32 (arg * 65536 + x.hp.half))
          (if y.status = .ok then y.chainNext else y, none)
      | 5 => ({ ((x.readWord .host x.hp.ptr).1.modHp fun h => { h with snap := (x.readWord .host x.hp.ptr).2 }).answer .ok with
            data := [(x.readWord .host x.hp.ptr).2] }, some ((x.readWord .host x.hp.ptr).2.toNat % 65536))
      | 6 => ({ x.chainNext.answer .ok with data := [x.hp.snap] }, some (x.hp.snap.toNat / 65536))
      | _ => (x.answer .badCmd, none) := by
  have hclosed : (x.dev.st == .basecamp || x.dev.st == .verify) = false := by
    rw [beq_eq_false_iff_ne.2 hst.1, beq_eq_false_iff_ne.2 hst.2]; rfl
  unfold chainCmd
  rw [if_neg fun h => hlife h.1, hclosed]
  split <;> simp only [Bool.false_eq_true, if_false] <;> rfl

/-! ## What a motion command reads -/

/-- Two states that agree on clusters, axes and the registers of the clusters judge a motion command alike. -/
structure State.AxisView (s t : State) : Prop where
  moCheck : ∀ x pos spd st, t.moCheck x pos spd st = s.moCheck x pos spd st
  vMax : ∀ x, t.vMax x = s.vMax x
  aMax : ∀ x, t.aMax x = s.aMax x
  virt : ∀ x, t.virt x = s.virt x
  running : ∀ x, t.axRunning x = s.axRunning x
  stepsRev : ∀ k, t.stepsRev k = s.stepsRev k
  conv : ∀ n, t.conv n = s.conv n
  mode : ∀ n, t.st n R.MC_MO_MODE.mode = s.st n R.MC_MO_MODE.mode

theorem State.axisView_congr {s t : State} (hcl : t.cl = s.cl) (hM : t.axM = s.axM) (hS : t.axS = s.axS)
    (hw : ∀ k, 0x100000 ≤ k → k < 0x200000 ∨ 0x5000000 ≤ k → t.word k = s.word k) : State.AxisView s t := by
  have hf (b : Nat) (f : Fld) (hb : 0x100000 ≤ b) (hb' : b + f.off < 0x200000 ∨ 0x5000000 ≤ b) : t.f b f = s.f b f :=
    congrArg f.get (hw _ (by omega) (by omega))
  have hmc (n : Mcn) : 0x100000 ≤ mcB n ∧ mcB n < 0x160000 := by unfold mcB; omega
  have hst (c : Chan) : 0x100000 ≤ stB c ∧ stB c < 0x188000 := by unfold stB; omega
  have hconv (n : Mcn) : t.conv n = s.conv n :=
    congrArg (· != 0) (hf _ _ (hmc n).1 (.inl (by have := hmc n; simp only [R.MC_STATE.personality]; omega)))
  have hmode (n : Mcn) (f : Fld) : t.st n f = s.st n f := hf _ _ (by unfold eff; omega) (.inr (by unfold eff; omega))
  have hon (c : Chan) : t.chanOn c = s.chanOn c :=
    congrArg (· != 0) (hf _ _ (by unfold eff; omega) (.inr (by unfold eff; omega)))
  have hset (x : Axis) : t.moSet x = s.moSet x := by
    cases x <;> simp only [State.moSet, State.act, State.actSt, hcl]
  have hsetLe (x : Axis) : 0x100000 ≤ s.moSet x ∧ s.moSet x < 0x1F0000 := by
    have hb : ∀ b : Bool, b2n b ≤ 1 := by decide
    cases x with
    | mc n =>
      have hn := hmc n
      have hside := hb (s.cl[mcCl n]).setB
      simp only [State.moSet, State.act, mcSetB]
      omega
    | st c =>
      have hc := hst c
      have hside := hb (s.cl[stCl c]).setB
      simp only [State.moSet, State.actSt, stSetB]
      omega
  have hax (x : Axis) : t.ax x = s.ax x := by
    cases x <;> simp only [State.ax, hM, hS]
  have hrun (x : Axis) : t.axRunning x = s.axRunning x := by simp only [State.axRunning, hcl]
  refine ⟨fun x pos spd st => ?_, fun x => ?_, fun x => ?_, fun x => ?_, hrun, fun c => ?_, hconv, fun n => hmode n _⟩
  · unfold State.moCheck
    rw [hcl]
    cases x <;> simp only [hconv, hmode, hon]
  · unfold State.vMax
    rw [hset, hf _ _ (hsetLe x).1 (.inl (by have := hsetLe x; simp only [R.MO_VMAX.v_max]; omega))]
  · unfold State.aMax
    rw [hset, hf _ _ (hsetLe x).1 (.inl (by have := hsetLe x; simp only [R.MO_AMAX.a_max]; omega))]
  · unfold State.virt
    rw [hax, hrun]
  · unfold State.stepsRev
    rw [hf _ _ (by unfold eff; omega) (.inr (by unfold eff; omega))]

/-! ## Set-points -/

theorem State.firstSp_ruleless {s : State} {c : Cl} (h : (s.auto[c]).rule = false) (src : Nat) : s.firstSp c src = s :=
  if_neg fun hr => Bool.false_ne_true (h.symm.trans hr.1)

/-- A set-point taken: an autostart rule that waits for it learns of it. -/
def State.setpointNoted (e : State) (c : Cl) : State := if e.status = .ok then e.firstSp c 2 else e

/-- The arguments of a command that the chain issues: the limits of the operating set with its target or its velocity. -/
def setpointArgs (tgt vel : Int) (acc : Nat) : Staged := { tgt := tgt, vel := vel, acc := acc, dwell := 0, stop := false }

theorem State.chainSetpoint_speed {x : State} {arg : Nat} {n : Mcn} (hk : arg / 2 ^ 20 % 16 = n.val) (hconv : x.conv n = false)
    (hmode : x.st n R.MC_MO_MODE.mode = 0) :
    x.chainSetpoint arg
      = (x.moSpeed (.mc n) (setpointArgs 0 (sgn 20 arg * 256) (x.aMax (.mc n)))).setpointNoted (mcCl n) := by
  have hlt : arg / 2 ^ 20 % 16 < 6 := by have := n.isLt; omega
  have hn : (⟨arg / 2 ^ 20 % 16, hlt⟩ : Mcn) = n := Fin.ext hk
  unfold State.chainSetpoint
  dsimp only
  rw [dif_pos hlt, hn, hconv, hmode]
  rfl

theorem State.chainSetpoint_move {x : State} {arg : Nat} {c : Chan} (hk : arg / 2 ^ 20 % 16 = 8 + c.val) :
    x.chainSetpoint arg = (x.moMove (.st c) (setpointArgs (rdiv (sgn 20 arg * turn) (x.stepsRev c)) (x.vMax (.st c))
      (x.aMax (.st c)))).setpointNoted (stCl c) := by
  have hnot : ¬ arg / 2 ^ 20 % 16 < 6 := by omega
  have hle : 8 ≤ arg / 2 ^ 20 % 16 := by omega
  have hc : (⟨arg / 2 ^ 20 % 16 - 8, by omega⟩ : Chan) = c := Fin.ext (by show arg / 2 ^ 20 % 16 - 8 = c.val; omega)
  unfold State.chainSetpoint
  dsimp only
  rw [dif_neg hnot, dif_pos hle, hc]
  rfl

theorem State.chainSetpoint_none {x : State} {arg : Nat} (hk : arg / 2 ^ 20 % 16 = 6 ∨ arg / 2 ^ 20 % 16 = 7) :
    x.chainSetpoint arg = x.answer .badArg := by
  unfold State.chainSetpoint
  dsimp only
  rw [dif_neg (by omega), dif_neg (by omega)]

end Sys2Proof.Machine

open Sys2Proof Sys2Proof.Machine

theorem chainCommands_give : Claims.ChainCommands := by
  intro s dt u h x gives kept ho
  have hu : s.elapse dt = u := rfl
  clear_value u
  have hexec : h.exec = none := ho.2.1
  have hopen : u.chainOpen = x := rfl
  have hpart {p : Part} (hp : p ∉ [.store]) : x.part p = u.fresh0.part p := u.chainOpen_part hp
  have hhp : x.hp = h := hpart (p := .hp) (by simp)
  have hrange : x.range = false := hpart (p := .range) (by simp)
  have hcl : x.cl = u.cl := hpart (p := .cl) (by simp)
  have hcmd (cmd arg : Nat) := State.chainCmd_open (x := x)
    (by rw [show x.sec = u.sec from hpart (p := .sec) (by simp)]; exact ho.2.2)
    (by
      rw [show x.dev = u.dev from hpart (p := .dev) (by simp)]
      rcases ho.1 with e | e | e | e <;> rw [e] <;> decide) cmd arg
  clear_value x h
  -- from here on the state found is a state like any other
  obtain ⟨y, rfl⟩ : ∃ y, y = x := ⟨x, rfl⟩
  rename State => x
  subst hhp
  have row : ∀ {i : Instr} {P : State → Prop} {cmd : Nat} {arg : BitVec 24} {e : State} {d : Option Nat},
      exec i s = s.after dt (·.chainRow cmd arg) → x.chainCmd cmd arg.toNat = (e, d) → P (e.countRange.chainLeft d) →
      s.Gives i dt P := fun hx he hp => State.gives_chain hx hu ho (by rw [hopen]; exact he) hp
  have calm : ∀ {i : Instr} {P : State → Prop} {cmd : Nat} {arg : BitVec 24} {e : State} {d : Option Nat},
      exec i s = s.after dt (·.chainRow cmd arg) → x.chainCmd cmd arg.toNat = (e, d) → e.range = x.range →
      P (e.chainLeft d) → s.Gives i dt P := fun hx he hr hp =>
    row hx he (by rw [State.countRange_calm (hr.trans hrange)]; exact hp)
  refine ⟨?_, fun v => ⟨?_, fun hv => ?_, fun hv => ⟨?_, ?_⟩, fun hv => ?_⟩, ?_, ?_⟩
  · exact calm rfl (hcmd 0 _) rfl ⟨rfl, chainOutcome_ok _, hexec, rfl, rfl⟩
  · exact calm rfl (hcmd 2 _) rfl ⟨rfl, chainOutcome_ok _, hexec, rfl, rfl⟩
  · exact calm rfl ((hcmd 3 _).trans (congrArg (·, none) (if_neg (Nat.not_le.2 hv)))) rfl ⟨rfl, chainOutcome_ok _, hexec, rfl, rfl⟩
  · exact calm rfl ((hcmd 3 _).trans (congrArg (·, none) (if_pos hv))) rfl ⟨rfl, chainOutcome_badArg, hexec, rfl, rfl, rfl⟩
  · exact calm rfl ((hcmd 4 _).trans (if_pos hv)) rfl ⟨rfl, chainOutcome_badArg, hexec, rfl, rfl, rfl⟩
  · intro y
    have hy : y = x.writeWord .host x.hp.ptr (BitVec.ofNat 32 (v.toNat * 65536 + x.hp.half)) := rfl
    have he := (hcmd 4 v.toNat).trans (if_neg (Nat.not_le.2 hv))
    dsimp only at he
    rw [← hy] at he
    refine row rfl he ?_
    clear_value y
    by_cases hok : y.status = .ok
    · rw [if_pos hok]
      rw [State.countRange_eq]
      exact ⟨rfl, rfl, rfl, rfl, rfl, fun _ => congrArg (fun o => { y.hp with
        ptr := (y.hp.ptr + 1) % 2 ^ 24, chainStat := o }) (if_pos hok), fun hn => absurd hok hn⟩
    · rw [if_neg hok]
      rw [State.countRange_eq]
      exact ⟨rfl, rfl, rfl, rfl, rfl, fun hn => absurd hn hok, fun _ => congrArg (fun o => { y.hp with
        chainStat := o }) (if_neg hok)⟩
  · intro w
    refine row rfl (hcmd 5 _) ?_
    have hw : w = (x.readWord .host x.hp.ptr).2 := rfl
    have hread {p : Part} (hp : p ∉ [.can, .fresh, .grp, .ports, .range, .sec, .store, .tear]) :
        (x.readWord .host x.hp.ptr).1.part p = x.part p := State.readWord_part x .host x.hp.ptr hp
    have hrhp : (x.readWord .host x.hp.ptr).1.hp = x.hp := hread (p := .hp) (by simp)
    have hrcl : (x.readWord .host x.hp.ptr).1.cl = x.cl := hread (p := .cl) (by simp)
    rw [← hw]
    clear_value w
    generalize (x.readWord .host x.hp.ptr).1 = y at *
    dsimp only
    rw [State.countRange_eq]
    refine ⟨rfl, rfl, ?_, hrcl.trans hcl⟩
    rw [← hrhp]
    exact congrArg (fun o => { y.hp with snap := w, chainStat := o }) (chainOutcome_ok _)
  · exact calm rfl (hcmd 6 _) rfl ⟨rfl, chainOutcome_ok _, hexec, rfl, rfl, rfl, rfl, rfl, hcl⟩

theorem chainSetpoints : Claims.ChainSetpoints := by
  intro s dt v u a k val taken ho
  have hu : s.elapse dt = u := rfl
  clear_value u
  obtain ⟨x, hopen⟩ : ∃ x, u.chainOpen = x := ⟨_, rfl⟩
  have hpart {p : Part} (hp : p ∉ [.store]) : x.part p = u.fresh0.part p := by
    rw [← hopen]
    exact u.chainOpen_part hp
  have hcl : x.cl = u.cl := hpart (p := .cl) (by simp)
  have hauto : x.auto = u.auto := hpart (p := .auto) (by simp)
  have hrange : x.range = false := hpart (p := .range) (by simp)
  have hgates : x.gates = u.gates := State.gates_eq fun o => hpart (p := .gates o) (by simp)
  have hM : x.axM = u.axM := hpart (p := .axM) (by simp)
  have hS : x.axS = u.axS := hpart (p := .axS) (by simp)
  have hword : ∀ i, 0x100000 ≤ i → x.word i = u.word i := fun i hi => by
    rw [← hopen]
    exact State.word_setWord_ne _ _ (by simp only [pk, R.HP_CHAIN.rx_count]; omega)
  have hcmd := (State.chainCmd_open (x := x)
    (by rw [show x.sec = u.sec from hpart (p := .sec) (by simp)]; exact ho.2.2)
    (by
      rw [show x.dev = u.dev from hpart (p := .dev) (by simp)]
      rcases ho.1 with e | e | e | e <;> rw [e] <;> decide) 1 v.toNat)
  have same := State.axisView_congr hcl hM hS fun k hk _ => hword k hk
  have row {e : State} {d : Option Nat} (he : x.chainCmd 1 v.toNat = (e, d)) : u.chainOpen.chainCmd 1 v.toNat = (e, d) := by
    rw [hopen]
    exact he
  have harg : v.toNat < 2 ^ 24 := v.isLt
  have hk : v.toNat / 2 ^ 20 % 16 = k := Nat.mod_eq_of_lt (by omega)
  have hval : sgn 20 v.toNat = val := by simp only [val, sgn, Nat.mod_mod]
  have hax (y : Axis) : x.ax y = u.ax y := by cases y <;> simp only [State.ax, hM, hS]
  have takes : ∀ {c : Cl} {y : Axis} {m : MoCmd} {e : State}, (u.auto[c]).rule = false → State.MotionTaken x y m e →
      x.chainSetpoint v.toNat = e.setpointNoted c → taken y m := by
    intro c y m e hrule he hset
    have hquiet : e.firstSp c 2 = e := State.firstSp_ruleless (by
      rw [show e.auto = u.auto from (congrArg State.auto he.same).trans hauto]
      exact hrule) 2
    rw [State.setpointNoted, if_pos he.status, hquiet] at hset
    refine State.gives_chain rfl hu ho (row (hcmd.trans (congrArg (·, none) hset))) ?_
    rw [State.countRange_calm ((congrArg State.range he.same).trans hrange), State.chainLeft, he.status]
    refine ⟨he.status, chainOutcome_ok _, he.waits.trans ?_, fun z hz => (he.others z hz).trans (hax z), ?_, ?_⟩
    · rw [hax]
    · exact (congrArg State.cl he.same).trans hcl
    · exact (congrArg State.gates he.same).trans hgates
  refine ⟨fun n hkn hconv hmode hrule hc hacc hrun => ?_, fun c hkc hrule hc hv hacc hrun hidle => ?_, fun hkn => ?_⟩
  · refine takes hrule ?_ (State.chainSetpoint_speed (hk.trans hkn) ((same.conv n).trans hconv) ((same.mode n).trans hmode))
    have hpass : x.moJudge (.mc n) (x.moCheck (.mc n) false true false) (x.aMax (.mc n) == 0) .badState [] = none := by
      rw [(same.moCheck ..).trans hc, same.aMax, beq_eq_false_iff_ne.2 hacc]
      exact State.moJudge_passes (by rw [same.virt]; exact hrun) fun _ h => absurd h List.not_mem_nil
    have htaken := State.moDo_taken x (.mc n) hpass ((sgn 20 v.toNat * 256).natAbs) (x.aMax (.mc n))
    have hm : MoCmd.speed (clampI (-(x.vMax (.mc n) : Int)) (x.vMax (.mc n)) (sgn 20 v.toNat * 256))
        (Nat.min (x.aMax (.mc n)) (x.aMax (.mc n)))
          = .speed (clampI (-(u.vMax (.mc n) : Int)) (u.vMax (.mc n)) (val * 256)) (u.aMax (.mc n)) := by
      rw [same.vMax, same.aMax, hval]
      exact congrArg _ (Nat.min_self _)
    rw [← hm]
    exact htaken _
  · refine takes hrule ?_ (State.chainSetpoint_move (hk.trans hkc))
    have hpass : x.moJudge (.st c) (x.moCheck (.st c) true false true)
        ((x.vMax (.st c) : Int).natAbs == 0 || x.aMax (.st c) == 0) .busyTarget
        [(!x.axRunning (.st c), .badState), ((x.virt (.st c)).1 != .idle, .busyTarget)] = none := by
      rw [(same.moCheck ..).trans hc, same.aMax, same.vMax, same.running, same.virt, Int.natAbs_natCast,
        beq_eq_false_iff_ne.2 hacc, beq_eq_false_iff_ne.2 hv, hrun,
        show (u.virt (.st c)).1 = .idle from hidle]
      refine State.moJudge_passes (by rw [same.virt, show (u.virt (.st c)).1 = .idle from hidle]; decide) fun p hp => ?_
      rcases List.mem_cons.1 hp with rfl | hp
      · rfl
      · rw [List.mem_singleton.1 hp]
        rfl
    have htaken := State.moDo_taken x (.st c) hpass (x.vMax (.st c)) (x.aMax (.st c))
    have hm : MoCmd.move (rdiv (sgn 20 v.toNat * turn) (x.stepsRev c)) (Nat.min (x.vMax (.st c)) (x.vMax (.st c)))
        (Nat.min (x.aMax (.st c)) (x.aMax (.st c)))
          = .move (rdiv (val * turn) (u.stepsRev c)) (u.vMax (.st c)) (u.aMax (.st c)) := by
      rw [same.vMax, same.aMax, same.stepsRev, hval]
      exact congr (congrArg _ (Nat.min_self _)) (Nat.min_self _)
    rw [← hm]
    exact htaken _
  · refine State.gives_chain rfl hu ho (row (hcmd.trans (congrArg (·, none) (State.chainSetpoint_none (by omega))))) ?_
    rw [State.countRange_calm (s := x.answer .badArg) hrange]
    exact ⟨rfl, chainOutcome_badArg, hM, hS, hcl, hgates⟩

/-- Settles O48: each chain command's branch and the status that it leaves; a set-point is a motion command that R224 accepts. -/
theorem chainCommands : Obligations.ChainCommands := ⟨chainCommands_give, chainSetpoints⟩
end

section
/-! PROOFS. Chain and packet frames, the completion of an operation, and BUSY while one executes (R385, R389 to R393). -/

namespace Sys2Proof.Machine

/-! ## BUSY -/

section
variable {u : State} (h0 : u.dev.st ≠ .off) (he : u.hp.exec ≠ none)

/-- What every row of the host port answers while an operation executes. -/
def State.busyAnswer (u : State) : State := (u.asked.inc pk R.HP_CNT.busy_count).answer .busy

theorem State.busy_of_fresh (u : State) (b : Nat) (f : Fld) :
    (({ u with data := [], tear := false, range := false, authed := false } : State).inc b f).answer .busy
      = (u.asked.inc b f).answer .busy := rfl

include h0 he

theorem State.hostDo_busyAnswer (act : State → State) : u.hostDo act = u.busyAnswer :=
  (State.hostDo_busy h0 he act).trans (u.busy_of_fresh ..)

theorem State.hostOp_busyAnswer (retired : Bool) (op : State → State × Nat × Bool) : u.hostOp retired op = u.busyAnswer := by
  have hexec : u.fresh0.hp.exec.isSome = true := Option.isSome_iff_ne_none.mpr he
  unfold State.hostOp
  rw [if_neg h0]
  exact (if_pos hexec).trans (u.busy_of_fresh ..)

theorem State.chainRow_busyAnswer (cmd : Nat) (arg : BitVec 24) : u.chainRow cmd arg = u.busyAnswer := by
  have hexec : u.fresh0.hp.exec.isSome = true := Option.isSome_iff_ne_none.mpr he
  unfold State.chainRow
  rw [if_neg h0]
  exact (if_pos hexec).trans (u.busy_of_fresh ..)

end

theorem State.busyAnswer_range (u : State) : u.busyAnswer.range = false :=
  State.inc_part (p := .range) u.asked pk R.HP_CNT.busy_count 1 (by simp)

/-! ## Reading one word -/

theorem State.readWord_range (s : State) (p : Port) {a : Nat} (hi : implemented a = true) :
    (s.readWord p a).1.range = s.range := by
  unfold State.readWord
  simp only [hi, Bool.not_true, Bool.false_eq_true, if_false]
  split
  · split
    · unfold State.onlyIf
      split <;> rfl
    · rfl
  · split
    · split
      · split <;> rfl
      · rfl
    · split
      · unfold State.trngRead
        dsimp only
        split <;> rfl
      · split
        · exact State.ramTouch_part (p := .range) s _ _ (by simp)
        · rfl

theorem State.opRead_one (s : State) {a : Nat} (ha : a < 0x1000000) :
    s.opRead a 1 = ({ (s.readWord .host a).1.answer .ok with data := [(s.readWord .host a).2] }, 1, false) := by
  have haddr : ¬ 0x1000000 ≤ a := by omega
  simp [State.opRead, readRun, haddr]

/-! ## Chain frames -/

theorem State.chainFrame_of_edges {u : State} {edges : Nat} (ws : List Word) (hd : u.dev.st ≠ .off) (he : u.hp.exec = none)
    (h32 : edges % 32 ≠ 0) :
    u.chainFrame edges ws = { (((u.fresh0.inc pk R.HP_CNT.frame_err).raise 49).answer .frameErr).modHp
      fun h => { h with chainStat := (2, none) } with data := [u.chainStatus] } := by
  have hfree : u.fresh0.hp.exec.isSome = false := by rw [show u.fresh0.hp.exec = none from he]; rfl
  unfold State.chainFrame
  rw [if_neg hd]
  dsimp only
  rw [hfree, if_neg (by decide), if_pos h32]

/-- A frame error counted and raised leaves the port, the clusters, the flash and the security module. -/
theorem State.frameError_parts (x : State) (f : Fld) : ((x.inc pk f).raise 49).hp = x.hp ∧ ((x.inc pk f).raise 49).cl = x.cl
    ∧ ((x.inc pk f).raise 49).flash = x.flash ∧ ((x.inc pk f).raise 49).sec = x.sec := by
  have hpart {p : Part} (hp : p ∉ [.link, .raised, .store, .trace]) : ((x.inc pk f).raise 49).part p = x.part p := by
    simp at hp
    simp [hp]
  exact ⟨hpart (p := .hp) (by simp), hpart (p := .cl) (by simp), hpart (p := .flash) (by simp), hpart (p := .sec) (by simp)⟩

/-- A chain frame whose word is ADDR: its pointer is taken, and the word executes until its completion. -/
theorem State.chainFrame_addr {u : State} {edges : Nat} {ws : List Word} (hd : u.dev.st ≠ .off) (he : u.hp.exec = none)
    (hlife : u.sec.life ≠ 2) (h32 : edges % 32 = 0) (hcrc : crc4 (u.chainLast edges ws) = u.chainLast edges ws % 16)
    (hcmd : u.chainLast edges ws / 2 ^ 28 = 2) :
    u.chainFrame edges ws = { u.chainOpen.answer .ok with
      data := [u.chainStatus]
      hp := { u.chainOpen.hp with
        ptr := u.chainLast edges ws / 16 % 2 ^ 24
        exec := some { tag := 0, chain := true, auth := false, st := .ok, tear := u.chainOpen.tear, range := u.chainOpen.range
                       count := 65536, data := [], wait := false } } } := by
  have hfree : u.fresh0.hp.exec.isSome = false := by rw [show u.fresh0.hp.exec = none from he]; rfl
  have hopen : u.fresh0.setF pk R.HP_CHAIN.rx_count ((u.fresh0.f pk R.HP_CHAIN.rx_count + 1) % 256) = u.chainOpen := rfl
  have hrange : u.chainOpen.range = false := u.chainOpen_part (p := .range) (by simp)
  have hlife' : u.chainOpen.sec.life ≠ 2 := by rw [show u.chainOpen.sec = u.sec from u.chainOpen_part (p := .sec) (by simp)]; exact hlife
  have hrow (arg : Nat) : u.chainOpen.chainCmd 2 arg = ((u.chainOpen.modHp fun h => { h with ptr := arg }).answer .ok, none) :=
    if_neg fun h => hlife' h.1
  have hword (arg : Nat) : u.fresh0.chainWord 2 arg = ((u.chainOpen.modHp fun h => { h with ptr := arg }).answer .ok, none) := by
    unfold State.chainWord
    dsimp only
    rw [hopen, hrow]
    exact congrArg (·, none) (State.countRange_calm hrange)
  have hlast : (if edges = 0 then u.chainStatus.toNat else ((ws.take (edges / 32)).getLastD 0).toNat) = u.chainLast edges ws := rfl
  unfold State.chainFrame
  rw [if_neg hd]
  dsimp only
  rw [hfree, if_neg (by decide), if_neg (not_not_intro h32), hlast, if_neg (not_not_intro hcrc), hcmd, hword]
  obtain ⟨x, hx⟩ : ∃ x, x = u.chainOpen := ⟨_, rfl⟩
  rw [← hx]
  rfl

/-- The last of the words that a frame brings. -/
theorem State.chainLast_getLast {u : State} {edges : Nat} {ws : List Word} {w : Word} (he : edges = 32 * ws.length)
    (hw : ws.getLast? = some w) : u.chainLast edges ws = w.toNat := by
  have hne : ws ≠ [] := by rintro rfl; cases hw
  have hlen : 0 < ws.length := List.length_pos_iff.2 hne
  unfold State.chainLast
  rw [if_neg (by omega), show edges / 32 = ws.length by omega, List.take_length, List.getLastD_eq_getLast?, hw]
  rfl

/-! ## Packet frames -/

theorem State.respond_hp (x : State) (st : Status) (tear range auth : Bool) (tag count : Nat) (data : List Word) :
    (x.respond st tear range auth tag count data).hp = { x.hp with resp := some (respWords st tear range auth tag count data) } := by
  have hset : ((x.setF pk R.HP_STAT.last_status st.code).setF pk R.HP_STAT.last_tag tag).hp = x.hp :=
    (State.setF_part (p := .hp) _ _ _ _ (by simp)).trans (State.setF_part (p := .hp) _ _ _ _ (by simp))
  exact congrArg (fun h : HostPort => { h with resp := some (respWords st tear range auth tag count data) }) hset

theorem State.refusePkt_hp (x : State) (st : Status) (tag : Nat) :
    (x.refusePkt st tag).hp = { x.hp with resp := some (respWords st false false false tag 0 []) } :=
  (x.answer st).respond_hp ..

theorem State.refusePkt_status (x : State) (st : Status) (tag : Nat) : (x.refusePkt st tag).status = st :=
  State.respond_part (p := .status) (x.answer st) _ _ _ _ _ _ _ (by simp)

/-- A packet refused for an error of its frame leaves its response, and the rest as it was. -/
theorem State.frameRefused (x : State) (f : Fld) (st : Status) (tag : Nat) :
    (((x.inc pk f).raise 49).refusePkt st tag).status = st
      ∧ (((x.inc pk f).raise 49).refusePkt st tag).hp = { x.hp with resp := some (respWords st false false false tag 0 []) }
      ∧ (((x.inc pk f).raise 49).refusePkt st tag).cl = x.cl ∧ (((x.inc pk f).raise 49).refusePkt st tag).flash = x.flash
      ∧ (((x.inc pk f).raise 49).refusePkt st tag).sec = x.sec := by
  obtain ⟨hhp, hcl, hfl, hsec⟩ := x.frameError_parts f
  refine ⟨State.refusePkt_status .., (State.refusePkt_hp ..).trans (by rw [hhp]), ?_, ?_, ?_⟩
  · exact (State.refusePkt_part (p := .cl) _ st tag (by simp)).trans hcl
  · exact (State.refusePkt_part (p := .flash) _ st tag (by simp)).trans hfl
  · exact (State.refusePkt_part (p := .sec) _ st tag (by simp)).trans hsec

/-- The state that a packet frame is judged in: the response that waited has been shifted out. -/
def State.pktOpen (u : State) (n : Nat) : State :=
  (u.fresh0.onlyIf (decide (n < (u.hp.resp.getD []).length)) (·.inc pk R.HP_CNT2.resp_trunc)).modHp fun h => { h with resp := none }

theorem State.pktOpen_part (u : State) (n : Nat) {p : Part} (h : p ∉ [.store, .hp]) : (u.pktOpen n).part p = u.fresh0.part p := by
  simp at h
  unfold State.pktOpen State.onlyIf
  split <;> simp [h]

theorem State.pktOpen_hp (u : State) (n : Nat) : (u.pktOpen n).hp = { u.hp with resp := none } := by
  have honly : (u.fresh0.onlyIf (decide (n < (u.hp.resp.getD []).length)) (·.inc pk R.HP_CNT2.resp_trunc)).hp = u.hp := by
    unfold State.onlyIf
    split
    · exact State.inc_part (p := .hp) _ _ _ _ (by simp)
    · rfl
  exact congrArg (fun h : HostPort => { h with resp := none }) honly

theorem State.packetFrame_open {u : State} {edges : Nat} (ws : List Word) (hd : u.dev.st ≠ .off) (he : u.hp.exec = none)
    (hedges : edges ≠ 0) :
    u.packetFrame edges ws = { (u.pktOpen (edges / 32)).pktFrame edges (padTo (edges / 32) (ws.map fun x => x.toNat)) with
      data := (u.hp.resp.getD []).take (edges / 32) } := by
  have hexec : u.fresh0.hp.exec = none := he
  unfold State.packetFrame
  rw [if_neg (not_or.2 ⟨hd, hedges⟩)]
  dsimp only
  rw [hexec]
  rfl

section
variable {x : State} {edges : Nat}

theorem State.pktFrame_idle {ws : List Nat} (h32 : edges % 32 = 0) (hws : nth ws 0 0 = 0) : x.pktFrame edges ws = x.answer .idle := by
  unfold State.pktFrame
  dsimp only
  rw [if_neg (not_not_intro h32), if_pos hws]

theorem State.pktFrame_of_edges (ws : List Nat) (h32 : edges % 32 ≠ 0) :
    x.pktFrame edges ws = ((x.inc pk R.HP_CNT.frame_err).raise 49).refusePkt .frameErr
      (if edges < 32 then 0 else bitsAt (nth ws 0 0) 24 2) := if_pos h32

section
variable {hdr len crc : Nat} (hop : hdr / 2 ^ 28 = 1)
include hop

/-- A READ of one word: three words come, and the CRC of the first two is judged. -/
theorem State.pktFrame_read (x : State) : x.pktFrame 96 [hdr, len, crc] =
    if crc ≠ crc32Words [hdr, len] then ((x.inc pk R.HP_CNT.crc_err).raise 49).refusePkt .crc (bitsAt hdr 24 2)
    else if !pktValid 1 hdr len then x.badPkt.refusePkt .badPkt (bitsAt hdr 24 2)
    else if x.sec.life = 2 ∧ !pktRetired 1 hdr len then x.refusePkt .locked (bitsAt hdr 24 2)
    else x.pktExec [hdr, len, crc] 1 false := by
  have h1 : hdr / 2 ^ 28 % 8 = 1 := by omega
  have h9 : decide (9 ≤ hdr / 2 ^ 28) = false := by rw [hop]; rfl
  have h0 : ¬ hdr = 0 := by rintro rfl; simp at hop
  have hneed : 3 + pktPayload 1 (len % 512) + (if false = true then 3 else 0) = 3 := rfl
  unfold State.pktFrame
  dsimp only
  rw [show nth [hdr, len, crc] 0 0 = hdr from rfl, show nth [hdr, len, crc] 1 0 = len from rfl, h1, h9, hneed,
    if_neg (by decide), if_neg h0, if_neg (by simp)]
  rfl

end

/-- A READ that has passed every check executes, with its word, until its completion. -/
theorem State.pktExec_read {x : State} {hdr len crc : Nat} (hlen : len % 512 = 1)
    (hi : implemented (hdr % 2 ^ 24) = true) (hrange : x.range = false) (hauth : x.authed = false) :
    x.pktExec [hdr, len, crc] 1 false =
      { (x.readWord .host (hdr % 2 ^ 24)).1 with
        status := .ok, data := [(x.readWord .host (hdr % 2 ^ 24)).2], authed := false
        hp := { (x.readWord .host (hdr % 2 ^ 24)).1.hp with
          exec := some { tag := bitsAt hdr 24 2, chain := false, auth := false, st := .ok, range := false, count := 1,
                         tear := (x.readWord .host (hdr % 2 ^ 24)).1.tear, wait := false,
                         data := [(x.readWord .host (hdr % 2 ^ 24)).2] } } } := by
  have hlt : hdr % 2 ^ 24 < 0x1000000 := Nat.mod_lt _ (by decide)
  have hsame : ({ x with authed := false } : State) = x := by rw [← hauth]
  have hread := x.opRead_one hlt
  have hr : (x.readWord .host (hdr % 2 ^ 24)).1.range = false := (x.readWord_range .host hi).trans hrange
  generalize x.readWord .host (hdr % 2 ^ 24) = r at *
  unfold State.pktExec
  simp only [show nth [hdr, len, crc] 0 0 = hdr from rfl, show nth [hdr, len, crc] 1 0 = len from rfl, Bool.false_eq_true,
    if_false, hsame, State.pktRun, hlen, hread]
  rw [State.countRange_calm (s := { r.1.answer .ok with data := [r.2] }) hr]
  simp only [State.modHp, State.answer, hr]

end

end Sys2Proof.Machine

open Sys2Proof Sys2Proof.Machine

theorem busyWhileExecuting : Claims.BusyWhileExecuting := by
  intro s dt c x v w u busy h0 he
  have hu : s.elapse dt = u := rfl
  clear_value u
  have gives {i : Instr} (eff : State → State) (hx : exec i s = s.after dt eff) (h : eff u = u.busyAnswer) : busy i := by
    refine State.gives_after (eff := eff) hx hu ?_
    rw [h]
    exact rfl
  have hact (act : State → State) : u.hostAct act = u.busyAnswer := State.hostDo_busyAnswer h0 he _
  have hop (r : Bool) (op : State → State × Nat × Bool) : u.hostOp r op = u.busyAnswer := State.hostOp_busyAnswer h0 he r op
  refine ⟨?_, ?_, ?_, ?_, ?_, ?_, ?_, ?_, ?_⟩
  · exact gives (·.hostAct (·.clusterCmd c 1)) rfl (hact _)
  · exact gives (·.hostAct State.runCmd) rfl (hact _)
  · exact gives (·.hostAct fun s => s.moMove x (s.staged 0 x)) rfl (hact _)
  · exact gives (·.hostOp (retiredRun v.toNat 1) (·.opRead v.toNat 1)) rfl (hop _ _)
  · exact gives (·.hostOp false (·.opWrite v.toNat [w])) rfl (hop _ _)
  · exact gives (·.chainRow 0 0) rfl (State.chainRow_busyAnswer h0 he 0 0)
  · refine gives (·.portWrite .host v.toNat w) rfl ?_
    exact (congrArg State.countRange (State.hostDo_busyAnswer h0 he _)).trans (State.countRange_calm u.busyAnswer_range)
  · exact gives (·.hostAct (·.secSeal true)) rfl (hact _)
  · exact gives (·.hostOp false (·.opHoldClr)) rfl (hop _ _)

theorem frames_give : Claims.Frames := by
  intro s dt u h hd
  have hu : s.elapse dt = u := rfl
  clear_value u
  have hlen {hdr len : Nat} (h : pktValid 1 hdr len = true) : len % 512 = 1 := by
    simp only [pktValid, Bool.and_eq_true, beq_iff_eq] at h
    exact h.2.1
  refine ⟨fun hexec edges ws => ⟨fun h32 => ?_, fun w he hw hcrc => ?_, fun w he hw hcrc hcmd hlife => ?_, fun hpos h32 => ?_,
    fun h32 => ?_, fun hdr len crc hws he hop hvalid hlife => ⟨fun hcrc => ?_, fun hcrc hi => ?_⟩⟩, fun x hx hwait => ?_⟩
  · refine State.gives_after (eff := (·.chainFrame edges ws)) rfl hu ?_
    rw [State.chainFrame_of_edges ws hd hexec h32]
    obtain ⟨hhp, hcl, hfl, hsec⟩ := u.fresh0.frameError_parts R.HP_CNT.frame_err
    exact ⟨rfl, rfl, congrArg (fun h : HostPort => { h with chainStat := (2, none) }) hhp, hcl, hfl, hsec⟩
  · have hlast := State.chainLast_getLast (u := u) he hw
    refine State.gives_after (eff := (·.chainFrame edges ws)) rfl hu ?_
    rw [State.chainFrame_of_crc_fails hd hexec (by omega) (by rw [hlast]; exact hcrc)]
    obtain ⟨hhp, hcl, hfl, hsec⟩ := u.fresh0.frameError_parts R.HP_CNT2.chain_crc
    exact ⟨rfl, rfl, congrArg (fun h : HostPort => { h with chainStat := (1, none) }) hhp, hcl, hfl, hsec⟩
  · have hlast := State.chainLast_getLast (u := u) he hw
    refine State.gives_after (eff := (·.chainFrame edges ws)) rfl hu ?_
    rw [State.chainFrame_addr hd hexec hlife (by omega) (by rw [hlast]; exact hcrc) (by rw [hlast]; exact hcmd), hlast]
    have hcl : u.chainOpen.cl = u.cl := u.chainOpen_part (p := .cl) (by simp)
    have hrx : u.chainOpen.f pk R.HP_CHAIN.rx_count = (u.f pk R.HP_CHAIN.rx_count + 1) % 256 :=
      (State.f_setF_self _ _ _ _ (by decide)).trans (Nat.mod_mod _ _)
    exact ⟨rfl, rfl, rfl, rfl, hcl, hrx⟩
  · refine State.gives_after (eff := (·.packetFrame edges [])) rfl hu ?_
    have hidle : nth (padTo (edges / 32) (([] : List Word).map fun x => x.toNat)) 0 0 = 0 := by
      simp only [padTo, nth, List.map_nil, List.nil_append, List.take_replicate, List.getElem?_replicate]
      split <;> rfl
    rw [State.packetFrame_open [] hd hexec (by omega), State.pktFrame_idle h32 hidle]
    exact ⟨rfl, u.pktOpen_hp _, rfl, u.pktOpen_part (p := .cl) _ (by simp)⟩
  · refine State.gives_after (eff := (·.packetFrame edges ws)) rfl hu ?_
    rw [State.packetFrame_open ws hd hexec (by rintro rfl; exact h32 rfl), State.pktFrame_of_edges _ h32]
    obtain ⟨hst, hhp, hcl, hfl, hsec⟩ := (u.pktOpen (edges / 32)).frameRefused R.HP_CNT.frame_err .frameErr
      (if edges < 32 then 0 else bitsAt (nth (padTo (edges / 32) (ws.map fun x => x.toNat)) 0 0) 24 2)
    rw [u.pktOpen_hp] at hhp
    obtain ⟨y, hy⟩ : ∃ y, y = (((u.pktOpen (edges / 32)).inc pk R.HP_CNT.frame_err).raise 49).refusePkt .frameErr
      (if edges < 32 then 0 else bitsAt (nth (padTo (edges / 32) (ws.map fun x => x.toNat)) 0 0) 24 2) := ⟨_, rfl⟩
    rw [← hy] at hst hhp hcl hfl hsec ⊢
    refine ⟨hst, rfl, (congrArg HostPort.exec hhp).trans hexec, ?_, ?_, ?_, ?_⟩
    · exact (congrArg (fun h : HostPort => h.resp.isSome) hhp).trans rfl
    · exact hcl.trans (u.pktOpen_part (p := .cl) _ (by simp))
    · exact hfl.trans (u.pktOpen_part (p := .flash) _ (by simp))
    · exact hsec.trans (u.pktOpen_part (p := .sec) _ (by simp))
  · subst hws he
    refine State.gives_after (eff := (·.packetFrame 96 [hdr, len, crc])) rfl hu ?_
    rw [State.packetFrame_open _ hd hexec (by decide), show padTo (96 / 32) ([hdr, len, crc].map fun x => x.toNat)
      = [hdr.toNat, len.toNat, crc.toNat] from rfl, State.pktFrame_read hop, if_pos hcrc]
    obtain ⟨hst, hhp, hcl, -, -⟩ := (u.pktOpen (96 / 32)).frameRefused R.HP_CNT.crc_err .crc (bitsAt hdr.toNat 24 2)
    rw [u.pktOpen_hp] at hhp
    obtain ⟨y, hy⟩ : ∃ y, y = (((u.pktOpen (96 / 32)).inc pk R.HP_CNT.crc_err).raise 49).refusePkt .crc
      (bitsAt hdr.toNat 24 2) := ⟨_, rfl⟩
    rw [← hy] at hst hhp hcl ⊢
    exact ⟨hst, (congrArg HostPort.exec hhp).trans hexec, congrArg HostPort.resp hhp,
      hcl.trans (u.pktOpen_part (p := .cl) _ (by simp))⟩
  · subst hws he
    refine State.gives_after (eff := (·.packetFrame 96 [hdr, len, crc])) rfl hu ?_
    have hlife' : ¬ ((u.pktOpen (96 / 32)).sec.life = 2 ∧ (!pktRetired 1 hdr.toNat len.toNat) = true) := fun h =>
      hlife (by rw [← show (u.pktOpen (96 / 32)).sec = u.sec from u.pktOpen_part (p := .sec) _ (by simp)]; exact h.1)
    rw [State.packetFrame_open _ hd hexec (by decide), show padTo (96 / 32) ([hdr, len, crc].map fun x => x.toNat)
      = [hdr.toNat, len.toNat, crc.toNat] from rfl, State.pktFrame_read hop, if_neg (not_not_intro hcrc), if_neg (by
        rw [hvalid]; decide), if_neg hlife', State.pktExec_read (hlen hvalid) hi (u.pktOpen_part (p := .range) _ (by simp)) (u.pktOpen_part (p := .authed) _ (by simp))]
    have hread {p : Part} (hp : p ∉ [.can, .fresh, .grp, .ports, .range, .sec, .store, .tear]) :=
      State.readWord_part (u.pktOpen (96 / 32)) .host (hdr.toNat % 2 ^ 24) hp
    have hhp : ((u.pktOpen (96 / 32)).readWord .host (hdr.toNat % 2 ^ 24)).1.hp = { u.hp with resp := none } :=
      (hread (p := .hp) (by simp)).trans (u.pktOpen_hp _)
    refine ⟨rfl, congrArg HostPort.resp hhp, ?_, ?_, _, _, rfl⟩
    · exact (hread (p := .cl) (by simp)).trans (u.pktOpen_part (p := .cl) _ (by simp))
    · exact (hread (p := .flash) (by simp)).trans (u.pktOpen_part (p := .flash) _ (by simp))
  · refine State.gives_onKilid (act := (·.packetComplete)) rfl hu hd ?_
    have hx' : u.hp.exec = some x := hx
    have he : u.packetComplete = if x.chain then ((u.modHp fun h => { h with exec := none }).answer x.st).modHp fun h =>
          { h with chainStat := chainOutcome x.st (if x.count < 65536 then some x.count else none) }
        else { ((u.modHp fun h => { h with exec := none }).answer x.st).respond x.st x.tear x.range x.auth x.tag x.count x.data with
          data := x.data } := by
      unfold State.packetComplete
      rw [hx']
      exact if_neg (by rw [hwait]; decide)
    rw [he]
    by_cases hc : x.chain = true
    · rw [if_pos hc, if_pos hc]
      exact ⟨rfl, rfl, rfl, rfl, rfl, rfl, rfl⟩
    · rw [if_neg hc, if_neg hc]
      have hhp := ((u.modHp fun h => { h with exec := none }).answer x.st).respond_hp x.st x.tear x.range x.auth x.tag x.count x.data
      have hpart {p : Part} (hp : p ∉ [.hp, .store]) :=
        State.respond_part ((u.modHp fun h => { h with exec := none }).answer x.st) x.st x.tear x.range x.auth x.tag x.count x.data hp
      exact ⟨congrArg HostPort.exec hhp, hpart (p := .status) (by simp), hpart (p := .cl) (by simp),
        hpart (p := .flash) (by simp), hpart (p := .sec) (by simp), congrArg HostPort.resp hhp⟩

/-- Settles O49, by the check that each frame passes or fails first, and by the one answer of a port that is busy. -/
theorem frames : Obligations.Frames := ⟨frames_give, busyWhileExecuting⟩
end

section
/-! PROOFS. The packets' operations (R394 to R398), the NVM operations and the memory port (R403 to R406). -/

namespace Sys2Proof.Machine

/-! ## Rows of the packets' operations -/

/-- The end of an operation by a row of its own: it waits for the memory port, or it has been answered. -/
def State.opEnds (r : State × Nat × Bool) : State :=
  if r.2.2 = true then
    r.1.modHp fun h => { h with exec := some { tag := 0, chain := false, auth := false, st := .busy, tear := false, range := false,
                                               count := 0, data := [], wait := true } }
  else r.1.countRange

/-- Where the host is judged, a row gives its operation's effect. -/
theorem State.hostOp_open {u : State} (ho : u.hostOpen) (retired : Bool) (op : State → State × Nat × Bool) :
    u.hostOp retired op = State.opEnds (op u.fresh0) := by
  obtain ⟨hd, he, hl⟩ := ho
  have h0 : u.dev.st ≠ .off := by rcases hd with e | e | e | e <;> simp [e]
  have hfree : u.fresh0.hp.exec.isSome = false := by rw [show u.fresh0.hp.exec = none from he]; rfl
  unfold State.hostOp
  rw [if_neg h0]
  dsimp only
  rw [hfree, if_neg Bool.false_ne_true, if_neg fun h => hl h.1]
  rfl

theorem State.gives_hostOp {s u : State} {dt : Nat} {i : Instr} {retired : Bool} {op : State → State × Nat × Bool}
    {P : State → Prop} (hx : exec i s = s.after dt (·.hostOp retired op)) (hu : s.elapse dt = u) (ho : u.hostOpen)
    (hp : P (State.opEnds (op u.fresh0))) : s.Gives i dt P :=
  State.gives_after (eff := (·.hostOp retired op)) hx hu (by rw [State.hostOp_open ho]; exact hp)

theorem State.opEnds_answered (s : State) (n : Nat) : State.opEnds (s, n, false) = s.countRange := rfl

theorem State.hostOpen_running {u : State} (ho : u.hostOpen) : ¬ (u.fresh0.dev.st = .basecamp ∨ u.fresh0.dev.st = .verify) := by
  rcases ho.1 with e | e | e | e <;> simp [State.fresh0, e]

theorem State.inc_f (s : State) (b : Nat) (f : Fld) (hf : f.lo + f.w ≤ 32) (k : Nat) :
    (s.inc b f k).f b f = Nat.min (s.f b f + k) (2 ^ f.w - 1) := by
  refine (State.f_setF_self s b f _ hf).trans (Nat.mod_eq_of_lt ?_)
  have hpos := Nat.two_pow_pos f.w
  exact Nat.lt_of_le_of_lt (Nat.min_le_right _ _) (by omega)

/-! ## Reads -/

theorem State.readWord_absent (s : State) (p : Port) {a : Nat} (hi : implemented a = false) :
    s.readWord p a = ({ s with range := true }, 0) := by
  unfold State.readWord
  simp only [hi, Bool.not_false, if_true]

theorem State.countRange_range {s : State} (hr : s.range = true) (hd : s.dev.st ≠ .off) :
    s.countRange = s.inc pk R.HP_CNT2.range_count := if_pos ⟨hr, hd⟩

theorem readRun_length (n a : Nat) (s : State) : (readRun .host n a s).2.length = Nat.min n (2 ^ 24 - a) := by
  induction n generalizing a s with
  | zero => simp [readRun]
  | succ n ih =>
    unfold readRun
    split
    next h => rw [show 2 ^ 24 - a = 0 by omega]; simp
    next h =>
      refine (congrArg (· + 1) (ih (a + 1) (s.readWord .host a).1)).trans ?_
      show Nat.min n _ + 1 = Nat.min (n + 1) _
      simp only [Nat.min_def]
      split <;> split <;> omega

theorem readRun_range (n a : Nat) (s : State) (h : 2 ^ 24 < a + n) (hn : 0 < n) : (readRun .host n a s).1.range = true := by
  induction n generalizing a s with
  | zero => omega
  | succ n ih =>
    unfold readRun
    split
    · rfl
    · exact ih (a + 1) (s.readWord .host a).1 (by omega) (by omega)

/-! ## Writes -/

theorem State.writeWord_fresh (u : State) (p : Port) (a : Nat) (w : Word) : u.fresh0.writeWord p a w = u.asked.writeWord p a w := by
  unfold State.writeWord
  rw [show u.fresh0.answer .ok = u.asked.answer .ok from rfl]

theorem State.opWrite_open {u : State} (ho : u.hostOpen) (a : Nat) (ws : List Word) :
    u.fresh0.opWrite a ws = ((writeRun .host a ws u.fresh0).1,
      if (writeRun .host a ws u.fresh0).2 = ws.length then 0 else (writeRun .host a ws u.fresh0).2, false) :=
  if_neg (State.hostOpen_running ho)

theorem writeRun_refused (s : State) {a : Nat} {w : Word} (rest : List Word) (ha : a < 0x1000000)
    (h : (s.writeWord .host a w).status ≠ .ok) : writeRun .host a (w :: rest) s = (s.writeWord .host a w, 0) :=
  (if_neg (by omega)).trans (if_neg h)

theorem writeRun_one (s : State) {a : Nat} {w : Word} (ha : a < 0x1000000) :
    (writeRun .host a [w] s).1 = s.writeWord .host a w := by
  have h : writeRun .host a [w] s = if (s.writeWord .host a w).status = .ok
      then ((s.writeWord .host a w).answer .ok, 1) else (s.writeWord .host a w, 0) := if_neg (by omega)
  rw [h]
  split
  next hok =>
    show (s.writeWord .host a w).answer .ok = _
    generalize s.writeWord .host a w = t at hok
    rw [State.answer, ← hok]
  next => rfl

/-! ## Packets that nothing describes -/

theorem State.badPkt_ends (u : State) : State.opEnds (u.fresh0.badPkt, 0, false) = { u.asked with
      status := .badPkt, store := u.fresh0.badPkt.store }
    ∧ u.fresh0.badPkt.f pk R.HP_CNT2.bad_pkt = Nat.min (u.f pk R.HP_CNT2.bad_pkt + 1) (2 ^ R.HP_CNT2.bad_pkt.w - 1) := by
  have hrange : u.fresh0.badPkt.range = false := State.badPkt_part (p := .range) u.fresh0 (by simp)
  refine ⟨?_, State.inc_f u.fresh0 pk R.HP_CNT2.bad_pkt (by decide) 1⟩
  rw [State.opEnds_answered, State.countRange_calm hrange]
  exact State.eq_with_status_store fun p hp hp' => (State.badPkt_part _ (by simp [hp, hp'])).trans (by cases p <;> first | rfl | exact absurd rfl hp')

/-! ## The memory port -/

/-- An erased byte of a programmed range holds the byte given. -/
theorem State.flashProgram_byte (bs : List Nat) (s : State) (a : Nat) {j : Nat} (hj : j < bs.length)
    (h : flashByte s.flash (a + j) = 255) : flashByte (s.flashProgram a bs).flash (a + j) = nth bs j 0 % 256 := by
  induction bs generalizing s a j with
  | nil => cases hj
  | cons b bs ih =>
    unfold State.flashProgram
    cases j with
    | zero =>
      rw [State.flashProgram_outside _ _ _ (by omega), if_pos (show flashByte s.flash a = 255 from h)]
      exact (flashByte_putByte ..).trans (if_pos rfl)
    | succ j =>
      have hstep : flashByte (if flashByte s.flash a = 255 then { s with flash := putByte s.flash a (BitVec.ofNat 8 b) }
          else s.flashFree a 1).flash (a + 1 + j) = 255 := by
        rw [show a + (j + 1) = a + 1 + j by omega] at h
        split
        · exact (flashByte_putByte ..).trans ((if_neg (by omega)).trans h)
        · exact (State.flashFree_byte s (by omega)).trans h
      have hrest := ih _ (a + 1) (Nat.lt_of_succ_lt_succ hj) hstep
      rw [show a + 1 + j = a + (j + 1) by omega] at hrest
      exact hrest

theorem State.mpEnd_view (s : State) (st : Status) (data : List Word) (nvm : Bool) :
    (s.mpEnd st data nvm).mp.op = none ∧ (s.mpEnd st data nvm).hp.exec = s.hp.exec.map fun x =>
      if x.wait then { x with st := st, data := data, count := data.length, wait := false } else x := by
  unfold State.mpEnd
  extract_lets m s1 s2
  have hinc (f : Fld) : (s2.inc pk f).mp = s2.mp ∧ (s2.inc pk f).hp = s2.hp :=
    ⟨State.inc_part (p := .mp) s2 pk f 1 (by simp), State.inc_part (p := .hp) s2 pk f 1 (by simp)⟩
  split
  · exact ⟨rfl, rfl⟩
  · split
    · exact ⟨congrArg MemPort.op (hinc _).1, congrArg HostPort.exec (hinc _).2⟩
    · exact ⟨congrArg MemPort.op (hinc _).1, congrArg HostPort.exec (hinc _).2⟩

section
variable {s : State} {x n : Nat}

theorem State.mpGrant_op (hd : s.dev.st ≠ .off) (hmp : s.mp.user = 0) (hph : s.boot.phase ≠ .headers) (hlog : s.log.pend = none) :
    s.mpGrant = match s.mp.op with
      | none => s
      | some (.read a n nvm) => s.mpEnd .ok ((flashWords s.flash a n).map fun w => BitVec.ofNat 32 w) nvm
      | some _ => ({ s with mp := { s.mp with busy := true } }).memUser 4 := by
  have hnoLog : ¬ (s.log.pend.isSome = true ∧ s.log.busy.isNone = true ∧ s.nextSlot.isSome = true ∧ s.logMay = true
      ∧ (!s.logStopped) = true) := fun h => by rw [hlog] at h; exact Bool.false_ne_true h.1
  unfold State.mpGrant
  rw [if_neg (not_or.2 ⟨not_not_intro hmp, hd⟩), if_neg hph, if_neg hnoLog] <;> rfl

/-- The flash has carried out an operation. -/
def State.nvmDone (s : State) : NvmOp → State
  | .program a bs => (s.flashProgram a bs).mpEnd .ok [] true
  | .erase a n => (s.flashErase a n).mpEnd .ok [] true
  | .read _ _ _ => s

theorem State.mpPoll_op {op : NvmOp} (hop : s.mp.op = some op) (hbusy : s.mp.busy = true) (huser : s.mp.user = 4)
    (busy failed : Bool) : s.mpPoll busy failed =
      if failed = true then s.mpEnd .nvmFail [] true else if busy = true then s else s.nvmDone op := by
  have hmine : ¬ ((!s.mp.busy) = true ∨ s.mp.user ≠ 4) := not_or.2 ⟨by rw [hbusy]; decide, not_not_intro huser⟩
  unfold State.mpPoll
  split
  next op' hop' =>
    obtain rfl := Option.some.inj (hop'.symm.trans hop)
    rw [if_neg hmine]
    rfl
  next hnone => rw [hnone] at hop; cases hop

end

theorem bulkValid_refused {t n : Nat} (a : Nat) (h : 5 < t ∨ n = 0 ∨ 256 < n) : bulkValid false t a n = false := by
  unfold bulkValid
  rcases h with h | h | h
  · obtain ⟨d, rfl⟩ : ∃ d, t = d + 6 := ⟨t - 6, by omega⟩
    exact Bool.and_false _
  · rw [decide_eq_false (by omega : ¬ 1 ≤ n)]
    rfl
  · rw [decide_eq_false (by omega : ¬ n ≤ 256), Bool.and_false]
    rfl

end Sys2Proof.Machine

open Sys2Proof Sys2Proof.Machine

/-- Settles O50, by what each operation answers where it is admitted. -/
theorem packetOperations : Obligations.PacketOperations := by
  intro s dt v u a i bad ho
  have hu : s.elapse dt = u := rfl
  clear_value u
  have hi24 : i < 0x1000000 := v.isLt
  have hoff : u.dev.st ≠ .off := by rcases ho.1 with e | e | e | e <;> simp [e]
  have hbad : ∀ {c : Instr} {retired : Bool} {op : State → State × Nat × Bool}, exec c s = s.after dt (·.hostOp retired op) →
      op u.fresh0 = (u.fresh0.badPkt, 0, false) → bad c := by
    intro c retired op hx hop
    refine State.gives_hostOp hx hu ho ?_
    rw [hop, u.badPkt_ends.1]
    exact ⟨rfl, u.badPkt_ends.2⟩
  refine ⟨fun hi => ?_, fun hi => ?_, fun w => ?_, fun n hn hle => ?_, fun n hn => ?_, fun ws hn hle => ?_, fun ws hn => ?_,
    fun k => ?_, fun t k n h => ?_, fun k ws hn hle => ?_, ?_⟩
  · refine State.gives_hostOp (op := (·.opRead i 1)) rfl hu ho ?_
    rw [State.opRead_one _ hi24, State.opEnds_answered]
    have hread {p : Part} (hp : p ∉ [.can, .fresh, .grp, .ports, .range, .sec, .store, .tear]) :=
      State.readWord_part u.fresh0 .host i hp
    have hrange : (u.fresh0.readWord .host i).1.range = false := State.readWord_range u.fresh0 .host hi
    rw [State.countRange_calm (s := { (u.fresh0.readWord .host i).1.answer .ok with data := [(u.fresh0.readWord .host i).2] }) hrange]
    exact ⟨rfl, rfl, hrange, hread (p := .cl) (by simp), hread (p := .flash) (by simp)⟩
  · refine State.gives_hostOp (op := (·.opRead i 1)) rfl hu ho ?_
    rw [State.opRead_one _ hi24, State.opEnds_answered, State.readWord_absent _ _ hi]
    rw [State.countRange_range (s := { ({ u.fresh0 with range := true } : State).answer .ok with data := [0] }) rfl hoff]
    refine ⟨?_, State.inc_f _ pk _ (by decide) 1⟩
    refine (State.eq_with_store (s := { a with data := [0], range := true }) fun p hp => ?_)
    exact State.inc_part _ _ _ _ (by simpa using hp)
  · refine State.gives_hostOp (op := (·.opWrite i [w])) rfl hu ho ?_
    rw [State.opWrite_open ho, State.opEnds_answered, writeRun_one _ hi24, State.writeWord_fresh]
  · refine State.gives_hostOp (op := fun s => if 1 ≤ n ∧ n ≤ 256 then s.opRead i n else (s.badPkt, 0, false)) rfl hu ho ?_
    rw [if_pos ⟨hn, hle⟩]
    have hpart {p : Part} (hp : p ∉ [.can, .fresh, .grp, .ports, .range, .sec, .store, .tear]) := readRun_part .host n i u.fresh0 hp
    have hlen := readRun_length n i u.fresh0
    have hrange := readRun_range n i u.fresh0
    show _ ∧ _
    rw [show State.opEnds (u.fresh0.opRead i n) = ({ (readRun .host n i u.fresh0).1.answer .ok with
      data := (readRun .host n i u.fresh0).2 } : State).countRange from rfl, State.countRange_eq]
    exact ⟨rfl, rfl, hlen, fun h => hrange h hn, hpart (p := .cl) (by simp), hpart (p := .flash) (by simp)⟩
  · exact hbad (op := fun s => if 1 ≤ n ∧ n ≤ 256 then s.opRead i n else (s.badPkt, 0, false)) rfl (if_neg (by omega))
  · refine State.gives_hostOp (op := fun s => if 1 ≤ ws.length ∧ ws.length ≤ 256 then s.opWrite i ws else (s.badPkt, 0, false))
      rfl hu ho ?_
    rw [if_pos ⟨hn, hle⟩, State.opWrite_open ho, State.opEnds_answered]
    refine ⟨State.countRange_part (p := .status) _ (by simp), State.countRange_part (p := .cl) _ (by simp), ?_⟩
    rintro w rest rfl hw
    rw [← State.writeWord_fresh] at hw ⊢
    rw [writeRun_refused _ rest hi24 hw]
  · exact hbad (op := fun s => if 1 ≤ ws.length ∧ ws.length ≤ 256 then s.opWrite i ws else (s.badPkt, 0, false)) rfl
      (if_neg (by omega))
  · refine State.gives_hostOp (op := (·.opBulkRead (1 : Word).toNat (k.toNat % 2 ^ 24) 256)) rfl hu ho ?_
    have hop : u.fresh0.opBulkRead (1 : Word).toNat (k.toNat % 2 ^ 24) 256 = ({ u.fresh0.answer .ok with
        data := (List.range 256).map fun j => u.fresh0.word (sheetAddr (k.toNat % 2 ^ 24 % 4096) + j) }, 256, false) :=
      (if_neg (show ¬ (!bulkValid false 1 (k.toNat % 2 ^ 24) 256) = true from Bool.false_ne_true)).trans
        ((if_neg (by decide)).trans (if_neg (State.hostOpen_running ho)))
    rw [hop, Nat.mod_mod_of_dvd _ (by decide : 4096 ∣ 2 ^ 24)]
    rfl
  · refine hbad (op := (·.opBulkRead t.toNat (k.toNat % 2 ^ 24) n)) rfl (if_pos ?_)
    rw [bulkValid_refused _ h]
    rfl
  · refine State.gives_hostOp (op := (·.opBulkWrite (4 : Word).toNat (k.toNat % 2 ^ 24) ws)) rfl hu ho ?_
    have hvalid : bulkValid true 4 (k.toNat % 2 ^ 24) ws.length = true := by
      simp only [bulkValid, Bool.and_true, Bool.and_eq_true, decide_eq_true_eq]
      exact ⟨hn, hle⟩
    have hop : u.fresh0.opBulkWrite (4 : Word).toNat (k.toNat % 2 ^ 24) ws = (u.fresh0.answer .logArea, 0, false) :=
      (if_neg (show ¬ (!bulkValid true 4 (k.toNat % 2 ^ 24) ws.length) = true by rw [hvalid]; decide)).trans
        ((if_neg (by decide)).trans (if_neg (State.hostOpen_running ho)))
    rw [hop]
    rfl
  · refine State.gives_hostOp (op := (·.opHoldClr)) rfl hu ho ?_
    have hop : u.fresh0.opHoldClr = ((u.fresh0.setHold .host none).answer .ok, 0, false) := if_neg (State.hostOpen_running ho)
    rw [hop, State.opEnds_answered, State.countRange_calm (s := (u.fresh0.setHold .host none).answer .ok) rfl]
    refine ⟨rfl, State.setHold_hold .., fun p hp => upd_ne _ _ fun h => hp ?_⟩
    cases p with
    | host => rfl
    | diag n => exact absurd (congrArg Fin.val h) (Nat.succ_ne_zero _)

/-- Settles O51, by the end of an operation, which takes it from the memory port and completes what executes, and by the bytes
that an erase, a program and a failure change. -/
theorem flashOperations : Obligations.FlashOperations := by
  intro s dt u a waits ended
  have hu : s.elapse dt = u := rfl
  clear_value u
  have hwaits : ∀ {c : Instr} {op : NvmOp} {retired : Bool} {run : State → State × Nat × Bool}, u.hostOpen →
      exec c s = s.after dt (·.hostOp retired run) → run u.fresh0 = (u.fresh0.mpWait op, 0, true) → waits c op := by
    intro c op retired run ho hx hr
    refine State.gives_hostOp hx hu ho ?_
    rw [hr]
    exact ⟨rfl, rfl, rfl, rfl, rfl, rfl⟩
  have hended : ∀ {c : Instr} {eff : State → State} {st : Status} {data : List Word} {P : State → Prop} {t : State} {nvm : Bool},
      exec c s = s.after dt eff → eff u = t.mpEnd st data nvm → (∀ p : Part, p ∉ [.flash, .fresh] → t.part p = u.part p) →
      (∀ e : State, e.flash = t.flash → P e) → ended c st data P := by
    intro c eff st data P t nvm hx he ht hP
    refine State.gives_after (eff := eff) hx hu ?_
    rw [he]
    have hpart {p : Part} (hp : p ∉ [.hp, .mp, .store]) := t.mpEnd_part st data nvm hp
    obtain ⟨hop, hexec⟩ := t.mpEnd_view st data nvm
    rw [show t.hp = u.hp from ht .hp (by simp)] at hexec
    refine ⟨hop, hexec, ?_, State.gates_eq fun o => (hpart (by simp)).trans (ht _ (by simp)), ?_, hP _ (hpart (p := .flash) (by simp))⟩
    · exact (hpart (p := .cl) (by simp)).trans (ht .cl (by simp))
    · exact (hpart (p := .sec) (by simp)).trans (ht .sec (by simp))
  have herase {k len : Nat} (hi : 4 * k % len = 0) (hn : a.nvmRefusal (4 * k) len false = none) :
      u.fresh0.opErase k len = (u.fresh0.mpWait (.erase (4 * k) len), 0, true) := by
    unfold State.opErase
    rw [if_neg (not_not_intro hi), show u.fresh0.nvmRefusal (4 * k) len false = none from hn]
  refine ⟨fun ho v ws => ⟨fun hi hn => ?_, fun hi hn => ?_, fun hi => ?_, fun hvalid hn => ?_⟩,
    fun hd hmp hph hlog => ⟨fun x n nvm hop => ?_, fun x bs hop => ?_, fun x n hop => ?_⟩,
    fun hbusy huser => ⟨fun x bs hop => ⟨?_, ?_, ?_, fun ht => ?_⟩, fun x n hop => ⟨?_, fun ht => ?_⟩⟩⟩
  · exact hwaits ho rfl (run := (·.opErase (v.toNat % 2 ^ 24) 4096)) (herase hi hn)
  · exact hwaits ho rfl (run := (·.opErase (v.toNat % 2 ^ 24) 65536)) (herase hi hn)
  · refine State.gives_hostOp (op := (·.opErase (v.toNat % 2 ^ 24) 4096)) rfl hu ho ?_
    rw [show u.fresh0.opErase (v.toNat % 2 ^ 24) 4096 = (u.fresh0.badPkt, 0, false) from if_pos hi, u.badPkt_ends.1]
    exact ⟨rfl, rfl, rfl⟩
  · refine hwaits ho rfl (run := (·.opBulkWrite (5 : Word).toNat (v.toNat % 2 ^ 24) ws)) ?_
    have h5 : (5 : Word).toNat = 5 := rfl
    unfold State.opBulkWrite
    have hfree : u.fresh0.nvmRefusal (4 * (v.toNat % 2 ^ 24)) (4 * ws.length) false = none := hn
    rw [h5, hvalid, if_neg (by decide), if_neg (by decide), if_neg (State.hostOpen_running ho), hfree]
    rfl
  · refine hended (eff := (·.mpGrant)) (t := u) (nvm := nvm) rfl ?_ (fun _ _ => rfl) fun e he => he
    rw [State.mpGrant_op hd hmp hph hlog, hop]
  · refine State.gives_after (eff := (·.mpGrant)) rfl hu ?_
    rw [State.mpGrant_op hd hmp hph hlog, hop]
    rfl
  · refine State.gives_after (eff := (·.mpGrant)) rfl hu ?_
    rw [State.mpGrant_op hd hmp hph hlog, hop]
    rfl
  · refine hended (eff := (·.mpPoll false false)) (t := u.flashProgram x bs) (nvm := true) rfl
      (State.mpPoll_op hop hbusy huser false false) (fun p hp => State.flashProgram_part u x bs hp) fun e he => ?_
    rw [he]
    exact ⟨fun j hj h => State.flashProgram_byte bs u x hj h, fun k hk => State.flashProgram_outside bs u x hk⟩
  · exact State.gives_after (eff := (·.mpPoll true false)) rfl hu (State.mpPoll_op hop hbusy huser true false)
  · exact hended (eff := (·.mpPoll false true)) (t := u) (nvm := true) rfl (State.mpPoll_op hop hbusy huser false true) (fun _ _ => rfl) fun e he => he
  · refine hended (eff := (·.mpTimeout)) (t := u.flashFree x bs.length) (nvm := true) rfl ?_
      (fun p hp => State.flashFree_part u x bs.length hp) fun e he k hk => ?_
    · unfold State.mpTimeout
      rw [hop]
      dsimp only
      rw [if_neg (Nat.not_lt.2 ht), hbusy]
    · rw [he]
      exact State.flashFree_byte u hk
  · refine hended (eff := (·.mpPoll false false)) (t := u.flashErase x n) (nvm := true) rfl
      (State.mpPoll_op hop hbusy huser false false) (fun p hp => State.flashErase_part u x n (by simp at hp ⊢; exact hp.1)) fun e he => ?_
    rw [he]
    exact ⟨fun k hk hk' => (State.flashErase_byte u x n k).trans (if_neg (by omega)),
      fun k hk => (State.flashErase_byte u x n k).trans (if_pos hk)⟩
  · refine hended (eff := (·.mpTimeout)) (t := u.flashFree x n) (nvm := true) rfl ?_
      (fun p hp => State.flashFree_part u x n hp) fun e he k hk => ?_
    · unfold State.mpTimeout
      rw [hop]
      dsimp only
      rw [if_neg (Nat.not_lt.2 ht), hbusy]
    · rw [he]
      exact State.flashFree_byte u hk
end

section
/-! PROOFS. Register writes without a row of their own (00_scope R8, 16_register_map). -/

namespace Sys2Proof.Machine

/-! ## What a write of a word does -/

theorem State.writeWord_absent (s : State) (p : Port) {a : Nat} (w : Word) (hi : implemented a = false) :
    s.writeWord p a w = { s.answer .ok with range := true } := by
  unfold State.writeWord
  simp only [hi, Bool.not_false, if_true]

section
variable {s : State} {a : Nat} {b : Blk} {o : Nat} {d : RDesc} {k : Nat} (p : Port) (w : Word)

/-- Outside the memories, a word that is there is ignored, refused or written. -/
theorem State.writeWord_row (hi : implemented a = true) (hl : locate a = (b, o)) (hb : b ≠ .atlRam ∧ b ≠ .trRam ∧ b ≠ .smpRam ∧ b ≠ .canRam)
    (hr : regAt a = some (d, k)) :
    (s.blind a = true → judged b o = false → s.writeWord p a w = s.answer .ok)
      ∧ (s.blind a = false →
        (∀ st, s.writeRefusal b o d a (s.writeKey p a) w = some st → s.writeWord p a w = s.answer st)
          ∧ (s.writeRefusal b o d a (s.writeKey p a) w = none →
            s.writeWord p a w = (s.answer .ok).writeEffect p b o w ((s.answer .ok).plainWrite b o d a (s.writeKey p a) w))) := by
  obtain ⟨h1, h2, h3, h4⟩ := hb
  have hkey : (s.answer .ok).writeKey p a = s.writeKey p a := rfl
  have hblind : (s.answer .ok).blind a = s.blind a := rfl
  have href : (s.answer .ok).writeRefusal b o d a (s.writeKey p a) w = s.writeRefusal b o d a (s.writeKey p a) w := rfl
  have hw : s.writeWord p a w = if s.blind a ∧ !judged b o then s.answer .ok
      else match s.writeRefusal b o d a (s.writeKey p a) w with
        | some st => (s.answer .ok).answer st
        | none => (s.answer .ok).writeEffect p b o w ((s.answer .ok).plainWrite b o d a (s.writeKey p a) w) := by
    unfold State.writeWord
    dsimp only
    rw [hi, hl, hr]
    cases b <;> first | contradiction | rfl
  rw [hw]
  refine ⟨fun hbl hj => if_pos ⟨hbl, by rw [hj]; rfl⟩, fun hbl => ?_⟩
  rw [if_neg (by rw [hbl]; simp)]
  refine ⟨fun st h => ?_, fun h => ?_⟩
  · rw [h]; rfl
  · rw [h]

end

/-! ## The staging words of a stepper's axis -/

theorem locate_stB (k : Chan) {o : Nat} (ho : o < 0x800) : locate (stB k + o) = (.st k, o) := by
  have hk := k.isLt
  have hoff : (stB k + o) % 0x1000 = o := by simp only [stB]; omega
  have hidx : (⟨(stB k + o - 0x180000) / 0x1000 % 8, by omega⟩ : Fin 8) = k := Fin.ext (by simp only [stB]; omega)
  rw [locate_st (by simp only [stB]; omega) (by simp only [stB]; omega)]
  dsimp only
  rw [hidx, hoff]
  exact if_pos ho

/-- The description of a word that is one field which keeps what is written. -/
def wholeWord (o : Nat) : RDesc := ⟨o, 1, 1, [⟨0, 32, .rw, 0x0, []⟩]⟩

theorem hostWord_whole (o : Nat) (k : Chan) (old w : Word) : hostWord (wholeWord o) (.st k) false o old w = w := by
  have hword : ∀ n, bitsAt n 0 32 = n % 2 ^ 32 := fun n => by rw [bitsAt, Nat.pow_zero, Nat.div_one]
  apply BitVec.eq_of_toNat_eq
  simp [hostWord, wholeWord, mergeWord, stored, storedFix, RDesc.clampWord, FDesc.stored, Cls.loads, hword]
  exact w.isLt

theorem State.writeRefusal_whole (s : State) (o a key : Nat) (k : Chan) (w : Word) (ha : 0x180000 ≤ a) :
    s.writeRefusal (.st k) o (wholeWord o) a key w = none := by
  have hcmd : (a == R.SEC_CMD.reg) = false := beq_false_of_ne (by simp only [R.SEC_CMD.reg]; omega)
  have hbuf : decide (a < R.SEC_KEYBUF.reg + 16) = false := decide_eq_false (by simp only [R.SEC_KEYBUF.reg]; omega)
  unfold State.writeRefusal
  rw [hcmd, hbuf]
  simp [stChanges, wholeWord, refusedWhole, Cls.at]

section
variable {u : State} {k : Chan} {o : Nat} (ho : o = 1 ∨ o = 2)
include ho

theorem regAt_staging : regAt (stB k + o) = some (wholeWord o, 0) := by
  unfold regAt
  rw [locate_stB k (by omega)]
  rcases ho with rfl | rfl <;> rfl

theorem implemented_staging : implemented (stB k + o) = true := by
  unfold implemented
  rw [locate_stB k (by omega)]
  exact decide_eq_true (by omega)

theorem State.writeKey_staging (s : State) (p : Port) : s.writeKey p (stB k + o) = stB k + o + portSpace p * 0x1000000 := by
  have hl := locate_stB k (show o < 0x800 by omega)
  have hpkg : pkgSetAddr (stB k + o) = false := by unfold pkgSetAddr; rw [hl]
  have hstage : stagingAddr (stB k + o) = true := by
    unfold stagingAddr
    rw [hl]
    simp only [Bool.and_eq_true, decide_eq_true_eq]
    omega
  unfold State.writeKey State.keyOf
  rw [hl]
  dsimp only
  rw [hpkg, hstage]
  rfl

/-- A staging word of a motor channel in use keeps what is written, in the copy of the port. -/
theorem State.writeWord_staging (p : Port) (w : Word) (hused : (u.cl[stCl k]).st ≠ .unused) :
    u.writeWord p (stB k + o) w = (u.answer .ok).setWord (stB k + o + portSpace p * 0x1000000) w := by
  have hl := locate_stB k (show o < 0x800 by omega)
  have hblind (t : State) (ht : t.cl = u.cl) : t.blind (stB k + o) = false := by
    unfold State.blind
    rw [hl]
    show (((t.cl[stCl k]).st) == .unused) = false
    rw [ht]
    exact beq_false_of_ne hused
  have hlow : 0x180000 ≤ stB k + o := by simp only [stB]; omega
  have hrow := State.writeWord_row (s := u) p w (implemented_staging ho) hl (by simp) (regAt_staging ho)
  rw [(hrow.2 (hblind u rfl)).2 (State.writeRefusal_whole u o _ _ k w hlow), State.writeKey_staging ho]
  have hplain : (u.answer .ok).plainWrite (.st k) o (wholeWord o) (stB k + o) (stB k + o + portSpace p * 0x1000000) w
      = (u.answer .ok).setWord (stB k + o + portSpace p * 0x1000000) w := by
    unfold State.plainWrite
    rw [if_neg (by rw [hblind (u.answer .ok) rfl]; decide)]
    exact congrArg _ (hostWord_whole ..)
  rw [hplain]
  exact if_neg (by omega)

end

end Sys2Proof.Machine

open Sys2Proof Sys2Proof.Machine

/-- Settles O52, by what a write does to a word that is there, and by the one whole field of a staging word. -/
theorem registerWrites : Obligations.RegisterWrites := by
  intro s dt v w u a i
  have hu : s.elapse dt = u := rfl
  clear_value u
  have hset (key : Nat) : a.wrote ((u.asked.answer .ok).setWord key w) fun j => if j = key then some w else none := by
    refine ⟨rfl, fun j => ?_⟩
    show _ = (if j = key then some w else none).getD _
    by_cases h : j = key
    · rw [if_pos h, h]
      exact State.word_setWord_self ..
    · rw [if_neg h]
      exact State.word_setWord_ne _ _ h
  refine ⟨fun ho => ?_, fun n k hd hl hused hi => ?_⟩
  · have hoff : u.dev.st ≠ .off := by rcases ho.1 with e | e | e | e <;> simp [e]
    have hgives {P : State → Prop} (hp : P (u.asked.writeWord .host i w).countRange) :
        s.Gives (.registerWrite dt .host v w) dt P := by
      refine State.gives_after (eff := (·.portWrite .host v.toNat w)) rfl hu ?_
      unfold State.portWrite
      dsimp only
      rw [State.hostDo_open ho]
      exact hp
    refine ⟨fun hi => hgives ?_, fun b o d k hi hl h1 h2 h3 h4 hr => ?_, fun k hused hi => hgives ?_⟩
    · rw [State.writeWord_absent _ _ _ hi, State.countRange_range (s := { u.asked.answer .ok with range := true }) rfl hoff]
      refine ⟨State.eq_with_store (s := { a with range := true }) fun p hp => ?_, State.inc_f _ pk _ (by decide) 1⟩
      exact State.inc_part _ _ _ _ (by simpa using hp)
    · have hrow := State.writeWord_row (s := a) .host w hi hl ⟨h1, h2, h3, h4⟩ hr
      refine ⟨fun hb hj => hgives ?_, fun hb st hst => hgives ?_⟩
      · exact (congrArg State.countRange (hrow.1 hb hj)).trans (State.countRange_calm rfl)
      · exact (congrArg State.countRange ((hrow.2 hb).1 st hst)).trans (State.countRange_calm rfl)
    · obtain ⟨o, ho', hi⟩ : ∃ o, (o = 1 ∨ o = 2) ∧ i = stB k + o := by
        rcases hi with h | h
        · exact ⟨1, .inl rfl, h⟩
        · exact ⟨2, .inr rfl, h⟩
      rw [hi, State.writeWord_staging (u := u.asked) ho' .host w hused]
      rw [State.countRange_calm (s := (u.asked.answer .ok).setWord _ w) rfl, ← hi]
      exact hset _
  · refine State.gives_after (eff := (·.portWrite (.diag n) v.toNat w)) rfl hu ?_
    have hwrite : u.diagWrite n v.toNat w = u.asked.writeWord (.diag n) i w := by
      have hopen : ¬ (u.dev.st = .off ∨ u.dev.st = .basecamp ∨ u.dev.st = .verify) := by
        rcases hd with e | e | e | e <;> simp [e]
      unfold State.diagWrite
      exact (if_neg hl).trans (if_neg hopen)
    show a.wrote (u.diagWrite n v.toNat w) _
    rw [hwrite, show i = stB k + 1 from hi, State.writeWord_staging (u := u.asked) (.inl rfl) (.diag n) w hused]
    exact hset _
end

section
/-! PROOFS. Frames received by a CAN controller (15_can_fd R407, R413 to R419, R435). -/

namespace Sys2Proof.Machine

/-! ## Words and fields of a controller -/

theorem State.f_of_word {s t : State} {b : Nat} {f : Fld} (h : s.word (b + f.off) = t.word (b + f.off)) : s.f b f = t.f b f :=
  congrArg f.get h

theorem State.cset_word (s : State) (n : Can) (f : Fld) (v : Nat) {k : Nat} (h : k ≠ canB n + f.off) :
    (s.cset n f v).word k = s.word k :=
  (State.word_setF ..).trans (if_neg h)

theorem State.cinc_word (s : State) (n : Can) (f : Fld) {k : Nat} (h : k ≠ canB n + f.off) : (s.cinc n f).word k = s.word k :=
  State.cset_word s n f _ h

theorem State.inc_word (s : State) (b : Nat) (f : Fld) (j : Nat) {k : Nat} (h : k ≠ b + f.off) : (s.inc b f j).word k = s.word k :=
  (State.word_setF ..).trans (if_neg h)

theorem State.canState_word (s : State) (n : Can) {k : Nat} (h : k ≠ canB n + R.CAN_STAT.reg) : (s.canState n).word k = s.word k := by
  unfold State.canState
  split
  · rfl
  · exact State.cset_word _ _ _ _ h

theorem State.rxGood_word (s : State) (n : Can) {k : Nat} (h : k ≠ canB n + R.CAN_STAT.reg) : (s.rxGood n).word k = s.word k := by
  unfold State.rxGood
  dsimp only
  split
  · rfl
  · split
    · exact (State.canState_word _ _ h).trans (State.cset_word _ _ _ _ h)
    · exact (State.canState_word _ _ h).trans (State.cset_word s.drawn _ _ _ h)

/-- A count of a controller that reads as before but for one more. -/
theorem State.cinc_f (s : State) (n : Can) (f : Fld) (hf : f.lo + f.w ≤ 32) :
    (s.cinc n f).cf n f = Nat.min (s.cf n f + 1) (2 ^ f.w - 1) :=
  State.inc_f s (canB n) f hf 1

theorem State.canState_f (s : State) (n : Can) {g : Fld} (h : 2 ≤ g.lo) : (s.canState n).cf n g = s.cf n g := by
  unfold State.canState
  split
  · rfl
  · exact State.f_setF_apart _ _ _ _ _ _ (by decide) (.inr h)

/-- An error of the nominal phase of a frame being received. -/
theorem State.rxError_view (s : State) (n : Can) (e : BusErr) (dom : Bool) :
    (s.rxError n e false dom).cf n R.CAN_STAT.lec = errCode e % 8
      ∧ ∀ k, k ≠ canB n + R.CAN_STAT.reg → (s.rxError n e false dom).word k = s.word k := by
  obtain ⟨w, hw⟩ : ∃ w, s.rxError n e false dom = ((s.cset n R.CAN_STAT.lec (errCode e)).cset n R.CAN_STAT.rec w).canState n :=
    ⟨_, rfl⟩
  rw [hw]
  refine ⟨?_, fun k h => (State.canState_word _ _ h).trans ((State.cset_word _ _ _ _ h).trans (State.cset_word _ _ _ _ h))⟩
  rw [State.canState_f _ _ (by decide)]
  refine (State.f_setF_apart _ _ _ _ _ _ (by decide) (.inr (by decide))).trans ?_
  exact State.f_setF_self _ _ _ _ (by decide)

/-! ## A frame counted as received -/

/-- The state after a frame received without error has been counted. -/
def State.rxCounted (s : State) (n : Can) : State := (s.rxGood n).cinc n R.CAN_CNT.rx_ok

theorem State.rxCounted_part (s : State) (n : Can) {p : Part} (h : p ∉ [.fresh, .store]) : (s.rxCounted n).part p = s.part p :=
  (State.cinc_part _ _ _ (by simp at h; simp [h])).trans (State.rxGood_part _ _ h)

theorem State.rxCounted_word (s : State) (n : Can) {k : Nat} (h : k ≠ canB n + R.CAN_STAT.reg) (h' : k ≠ canB n + R.CAN_CNT.reg) :
    (s.rxCounted n).word k = s.word k :=
  (State.cinc_word _ _ _ h').trans (State.rxGood_word _ _ h)

theorem State.rxCounted_f (s : State) (n : Can) (c : Fin 2) {g : Fld} (h : 3 ≤ g.off) :
    (s.rxCounted n).f (canB n + c.val) g = s.f (canB n + c.val) g := by
  refine State.f_of_word (State.rxCounted_word s n ?_ ?_)
  · simp only [R.CAN_STAT.reg]; omega
  · simp only [R.CAN_CNT.reg]; omega

theorem State.rxCounted_cf (s : State) (n : Can) {g : Fld} (h : 3 ≤ g.off) : (s.rxCounted n).cf n g = s.cf n g :=
  State.rxCounted_f s n 0 h

theorem State.rxCounted_ram (s : State) (n : Can) (i : Nat) : (s.rxCounted n).ram i = s.ram i := by
  refine congrArg BitVec.toNat (State.rxCounted_word s n ?_ ?_) <;>
    simp only [ramAddr, canB, R.CAN_STAT.reg, R.CAN_CNT.reg] <;> omega

theorem State.rxCounted_rx_ok (s : State) (n : Can) :
    (s.rxCounted n).cf n R.CAN_CNT.rx_ok = Nat.min (s.cf n R.CAN_CNT.rx_ok + 1) (2 ^ R.CAN_CNT.rx_ok.w - 1) := by
  refine (State.cinc_f _ n R.CAN_CNT.rx_ok (by decide)).trans ?_
  rw [show (s.rxGood n).cf n R.CAN_CNT.rx_ok = s.cf n R.CAN_CNT.rx_ok from
    State.f_of_word (State.rxGood_word s n (by simp [R.CAN_CNT.rx_ok, R.CAN_STAT.reg]))]

theorem State.rxCounted_filterHit (s : State) (n : Can) (f : Frame) : (s.rxCounted n).filterHit n f = s.filterHit n f := by
  funext i
  simp only [State.filterHit, State.filterAt, State.rxCounted_cf s n (show 3 ≤ R.CAN_FLT.base.off by decide), State.rxCounted_ram]

theorem State.rxCounted_filterFind (s : State) (n : Can) (f : Frame) : (s.rxCounted n).filterFind n f = s.filterFind n f := by
  unfold State.filterFind
  rw [State.rxCounted_cf s n (by decide), State.rxCounted_filterHit]

theorem State.rxCounted_isDiag (s : State) (n : Can) (f : Frame) : (s.rxCounted n).isDiag n f = s.isDiag n f := by
  have hf {g : Fld} (h : 3 ≤ g.off) : (s.rxCounted n).fb (canB n) g = s.fb (canB n) g :=
    congrArg (· != 0) (State.rxCounted_cf s n h)
  unfold State.isDiag
  rw [hf (by decide), hf (by decide), State.rxCounted_cf s n (by decide)]

/-! ## Elements -/

/-- The first word of a frame's element. -/
def elemHead (f : Frame) : Nat := f.id.toNat + b2n f.ext * 2 ^ 29 + b2n f.esi * 2 ^ 30

theorem elemHead_lt (f : Frame) : elemHead f < 2 ^ 32 := by
  have hid := f.id.isLt
  have hb : ∀ b : Bool, b2n b ≤ 1 := by decide
  have := hb f.ext
  have := hb f.esi
  unfold elemHead
  omega

theorem State.setRam_ram (s : State) (i w : Nat) : (s.setRam i w).ram i = w % 2 ^ 32 := by
  unfold State.ram State.setRam
  rw [State.word_setWord_self, BitVec.toNat_ofNat]

theorem State.setRam_ram_ne (s : State) {i j : Nat} (w : Nat) (h : j ≠ i) : (s.setRam i w).ram j = s.ram j := by
  refine congrArg BitVec.toNat (State.word_setWord_ne _ _ ?_)
  simp only [ramAddr]
  omega

theorem State.setRam_word_low (s : State) (i w : Nat) {k : Nat} (h : k < 0x600000) : (s.setRam i w).word k = s.word k := by
  refine State.word_setWord_ne _ _ ?_
  simp only [ramAddr]
  omega

/-- An element begins with the identifier and its flags, and nothing below message RAM changes. -/
theorem State.putElem_head (s : State) (a size : Nat) (f : Frame) (idx stamp : Nat) :
    (s.putElem a size f idx stamp).ram a = elemHead f
      ∧ ∀ k < 0x600000, (s.putElem a size f idx stamp).word k = s.word k := by
  unfold State.putElem
  extract_lets bs w0 w1 s1 ws s2
  have hkeep : s2.ram a = elemHead f ∧ ∀ k < 0x600000, s2.word k = s.word k := by
    refine State.each_keeps (P := fun t => t.ram a = elemHead f ∧ ∀ k < 0x600000, t.word k = s.word k) (fun p t ht => ?_) s1 ?_
    · exact ⟨(State.setRam_ram_ne _ _ (by omega)).trans ht.1, fun k hk => (State.setRam_word_low _ _ _ hk).trans (ht.2 k hk)⟩
    · refine ⟨(State.setRam_ram_ne _ _ (by omega)).trans ?_, fun k hk =>
        (State.setRam_word_low _ _ _ hk).trans (State.setRam_word_low _ _ _ hk)⟩
      exact (State.setRam_ram ..).trans (Nat.mod_eq_of_lt (elemHead_lt f))
  exact hkeep

theorem State.ram_of_word {s t : State} {i : Nat} (h : s.word (ramAddr i) = t.word (ramAddr i)) : s.ram i = t.ram i :=
  congrArg BitVec.toNat h

theorem bitAt_lor (n : Nat) {b : Nat} (hb : b < 32) : bitAt (Nat.lor n (2 ^ b) % 2 ^ 32) b = true := by
  rw [bitAt_eq_testBit, Nat.testBit_mod_two_pow, decide_eq_true hb, Bool.true_and]
  exact (Nat.testBit_or ..).trans (by rw [Nat.testBit_two_pow_self, Bool.or_true])

/-- A receive buffer that takes a frame: its new-data bit, its element, and the words that stay. -/
theorem State.rxStore_view (s : State) (n : Can) {b : Nat} (hb : b < 32) (f : Frame) (idx stamp : Nat) :
    bitAt ((s.rxStore n b f idx stamp).cf n R.CAN_RXB_ND.nd) b = true
      ∧ (s.rxStore n b f idx stamp).ram (s.rxAt n b) = elemHead f
      ∧ (s.rxStore n b f idx stamp).cf n R.CAN_CNT.rx_ok = s.cf n R.CAN_CNT.rx_ok := by
  unfold State.rxStore
  extract_lets s1 s2
  have hloss {k : Nat} (h : k ≠ canB n + 0x13) (h' : k ≠ canB n + 3) : s1.word k = s.word k := by
    show (if _ then _ else _ : State).word k = _
    split
    · exact (State.cinc_word _ _ _ h').trans (State.cset_word _ _ _ _ h)
    · rfl
  have hat : s1.rxAt n b = s.rxAt n b := by
    unfold State.rxAt State.cf
    rw [State.f_of_word (hloss (by simp [R.CAN_RXB.base]) (by simp [R.CAN_RXB.base])),
      State.f_of_word (hloss (by simp [R.CAN_RXB.esize]) (by simp [R.CAN_RXB.esize]))]
  have hput := s1.putElem_head (s1.rxAt n b) (esizeBytes (s1.cf n R.CAN_RXB.esize)) f idx stamp
  refine ⟨?_, ?_, ?_⟩
  · rw [show (s2.cset n R.CAN_RXB_ND.nd (Nat.lor (s2.cf n R.CAN_RXB_ND.nd) (2 ^ b))).cf n R.CAN_RXB_ND.nd = _ from
      State.f_setF_self _ _ _ _ (by decide)]
    exact bitAt_lor _ hb
  · rw [← hat]
    refine (State.ram_of_word (State.cset_word _ _ _ _ ?_)).trans hput.1
    simp only [ramAddr, canB, R.CAN_RXB_ND.nd]
    omega
  · refine (State.f_of_word (State.cset_word _ _ _ _ (by simp [R.CAN_CNT.rx_ok, R.CAN_RXB_ND.nd]))).trans ?_
    refine (State.f_of_word (hput.2 _ (by simp only [canB, R.CAN_CNT.rx_ok]; omega))).trans ?_
    exact State.f_of_word (hloss (by simp [R.CAN_CNT.rx_ok]) (by simp [R.CAN_CNT.rx_ok]))

theorem State.f_lt (s : State) (b : Nat) (f : Fld) : s.f b f < 2 ^ f.w := by
  show bitsAt _ _ _ < _
  exact Nat.mod_lt _ (Nat.two_pow_pos _)

/-- A FIFO with room that takes a frame. -/
theorem State.rxFifo_view (s : State) (n : Can) (c : Fin 2) (f : Frame) (idx stamp : Nat)
    (hroom : s.f (canB n + c.val) R.CAN_FS.fill < s.f (canB n + c.val) R.CAN_FIFO.count) :
    let e := s.rxFifo n c f idx stamp
    let b := canB n + c.val
    e.f b R.CAN_FS.fill = s.f b R.CAN_FS.fill + 1
      ∧ e.f b R.CAN_FS.put = (s.f b R.CAN_FS.put + 1) % s.f b R.CAN_FIFO.count % 64
      ∧ e.ram (s.fifoAt n c.val (s.f b R.CAN_FS.put)) = elemHead f
      ∧ e.cf n R.CAN_CNT.rx_ok = s.cf n R.CAN_CNT.rx_ok := by
  intro e b
  have hc := c.isLt
  have hcount := State.f_lt s b R.CAN_FIFO.count
  obtain ⟨t, ht⟩ : ∃ t, t = s.putElem (s.fifoAt n c.val (s.f b R.CAN_FS.put)) (esizeBytes (s.f b R.CAN_FIFO.esize)) f idx stamp :=
    ⟨_, rfl⟩
  have hput := s.putElem_head (s.fifoAt n c.val (s.f b R.CAN_FS.put)) (esizeBytes (s.f b R.CAN_FIFO.esize)) f idx stamp
  rw [← ht] at hput
  have he : e = (t.setF b R.CAN_FS.put ((s.f b R.CAN_FS.put + 1) % s.f b R.CAN_FIFO.count)).setF b R.CAN_FS.fill
      (s.f b R.CAN_FS.fill + 1) := by
    rw [ht]
    exact if_pos hroom
  have hword {k : Nat} (h : k ≠ b + 0x10) : e.word k = t.word k := by
    rw [he]
    exact ((State.word_setF ..).trans (if_neg h)).trans ((State.word_setF ..).trans (if_neg h))
  refine ⟨?_, ?_, ?_, ?_⟩
  · rw [he, State.f_setF_self _ _ _ _ (by decide)]
    exact Nat.mod_eq_of_lt (Nat.lt_of_le_of_lt hroom hcount)
  · rw [he, State.f_setF_apart _ _ _ _ _ _ (by decide) (.inl (by decide)), State.f_setF_self _ _ _ _ (by decide)]
    rfl
  · refine (State.ram_of_word (hword ?_)).trans hput.1
    simp only [ramAddr, b, canB]
    omega
  · refine (State.f_of_word (hword ?_)).trans (State.f_of_word (hput.2 _ ?_))
    · simp only [b, R.CAN_CNT.rx_ok]; omega
    · simp only [canB, R.CAN_CNT.rx_ok]; omega

/-- A write of a FIFO's get index acknowledges the elements up to it, or empties the FIFO. -/
theorem State.fifoGet_view (s : State) (n : Can) (c : Fin 2) {v : Nat} (hv : v < 64) :
    let e := s.fifoGet n c v
    let b := canB n + c.val
    let steps := (v + s.f b R.CAN_FIFO.count - s.f b R.CAN_FS.get) % Nat.max 1 (s.f b R.CAN_FIFO.count)
    let acknowledged : Prop := v < s.f b R.CAN_FIFO.count ∧ steps ≤ s.f b R.CAN_FS.fill
    (∀ p : Part, p ∉ [.store] → e.part p = s.part p) ∧ (∀ k, k ≠ b + R.CAN_FS.reg → e.word k = s.word k)
      ∧ e.f b R.CAN_FS.put = s.f b R.CAN_FS.put
      ∧ (acknowledged → e.f b R.CAN_FS.get = v ∧ e.f b R.CAN_FS.fill = s.f b R.CAN_FS.fill - steps)
      ∧ (¬ acknowledged → e.f b R.CAN_FS.get = s.f b R.CAN_FS.put ∧ e.f b R.CAN_FS.fill = 0) := by
  intro e b steps acknowledged
  have hset (g j : Nat) (hg : g < 64) (hj : j < 128) :
      let t := (s.setF b R.CAN_FS.get g).setF b R.CAN_FS.fill j
      (∀ p : Part, p ∉ [.store] → t.part p = s.part p) ∧ (∀ k, k ≠ b + R.CAN_FS.reg → t.word k = s.word k)
        ∧ t.f b R.CAN_FS.put = s.f b R.CAN_FS.put ∧ t.f b R.CAN_FS.get = g ∧ t.f b R.CAN_FS.fill = j := by
    refine ⟨fun p hp => (State.setF_part _ _ _ _ hp).trans (State.setF_part _ _ _ _ hp), fun k hk =>
      ((State.word_setF ..).trans (if_neg hk)).trans ((State.word_setF ..).trans (if_neg hk)), ?_, ?_, ?_⟩
    · exact (State.f_setF_apart _ _ _ _ _ _ (by decide) (.inl (by decide))).trans
        (State.f_setF_apart _ _ _ _ _ _ (by decide) (.inl (by decide)))
    · exact (State.f_setF_apart _ _ _ _ _ _ (by decide) (.inl (by decide))).trans
        ((State.f_setF_self _ _ _ _ (by decide)).trans (Nat.mod_eq_of_lt hg))
    · exact (State.f_setF_self _ _ _ _ (by decide)).trans (Nat.mod_eq_of_lt hj)
  have hfill := State.f_lt s b R.CAN_FS.fill
  have hput := State.f_lt s b R.CAN_FS.put
  by_cases h : acknowledged
  · have he : e = (s.setF b R.CAN_FS.get v).setF b R.CAN_FS.fill (s.f b R.CAN_FS.fill - steps) := if_pos h
    obtain ⟨h1, h2, h3, h4, h5⟩ := hset v (s.f b R.CAN_FS.fill - steps) hv (Nat.lt_of_le_of_lt (Nat.sub_le _ _) hfill)
    rw [he]
    exact ⟨h1, h2, h3, fun _ => ⟨h4, h5⟩, fun h' => absurd h h'⟩
  · have he : e = (s.setF b R.CAN_FS.get (s.f b R.CAN_FS.put)).setF b R.CAN_FS.fill 0 := if_neg h
    obtain ⟨h1, h2, h3, h4, h5⟩ := hset (s.f b R.CAN_FS.put) 0 hput (by decide)
    rw [he]
    exact ⟨h1, h2, h3, fun h' => absurd h' h, fun _ => ⟨h4, h5⟩⟩

/-! ## Where a frame goes -/

section
variable {s : State} {n : Can} {f : Frame} {stamp : Nat}

theorem State.frameDest_unmatched (h : s.filterFind n f = none) (h1 : s.cf n R.CAN_FLT.nm_dest ≠ 1)
    (h2 : s.cf n R.CAN_FLT.nm_dest ≠ 2) : s.frameDest n f stamp = s := by
  unfold State.frameDest
  rw [h]
  dsimp only
  split <;> first | contradiction | rfl

theorem State.frameDest_fifo {k : Nat} {c : Fin 2} (h : s.filterFind n f = some k)
    (hw : bitsAt (s.ram (s.filterAt n k)) 8 4 = 1 + c.val) : s.frameDest n f stamp = s.rxFifo n c f k stamp := by
  unfold State.frameDest
  rw [h]
  dsimp only
  rw [hw]
  match c with
  | 0 => rfl
  | 1 => rfl

theorem State.frameDest_buffer {k : Nat} (h : s.filterFind n f = some k) (hw : bitsAt (s.ram (s.filterAt n k)) 8 4 = 3)
    (hlt : bitsAt (s.ram (s.filterAt n k)) 12 5 < s.cf n R.CAN_RXB.count)
    (hfree : s.locked n 0 (bitsAt (s.ram (s.filterAt n k)) 12 5) = false) :
    s.frameDest n f stamp = s.rxStore n (bitsAt (s.ram (s.filterAt n k)) 12 5) f k stamp := by
  unfold State.frameDest
  rw [h]
  dsimp only
  rw [hw]
  refine (if_pos hlt).trans ?_
  unfold State.rxBuffer
  rw [hfree, if_neg Bool.false_ne_true]

theorem State.frameDest_route {k : Nat} (h : s.filterFind n f = some k) (hw : bitsAt (s.ram (s.filterAt n k)) 8 4 = 4) :
    s.frameDest n f stamp = s.routeFrame n (bitsAt (s.ram (s.filterAt n k)) 12 5) f := by
  unfold State.frameDest
  rw [h]
  dsimp only
  rw [hw]
  rfl

/-- A frame on the bus of a controller that takes part in it is received. -/
theorem State.canFrame_received (ago : Nat) (hon : s.canOn n = true) (hmode : (s.can[n]).mode ≠ 3)
    (hfd : f.fd = true → s.cf n R.CAN_CTRL.fd_en = 1) :
    s.canFrame diagHook n ago f = s.frameIn diagHook n f ((s.now - ago - s.boot.relAt) / 2 / 4096) := by
  unfold State.canFrame
  rw [if_pos ⟨hon, hmode⟩, if_neg]
  rintro ⟨h, h'⟩
  have hen : s.f (canB n) R.CAN_CTRL.fd_en = 1 := hfd h
  unfold State.fb at h'
  rw [hen] at h'
  exact absurd h' (by decide)

/-- With fd_en 0 an FD frame is a form error. -/
theorem State.canFrame_formError {ago : Nat} (hon : s.canOn n = true) (hmode : (s.can[n]).mode ≠ 3) (hfd : f.fd = true)
    (hen : s.cf n R.CAN_CTRL.fd_en = 0) :
    (s.canFrame diagHook n ago f).cf n R.CAN_STAT.lec = errCode .form
      ∧ (∀ k, k ≠ canB n + R.CAN_STAT.reg → (s.canFrame diagHook n ago f).word k = s.word k)
      ∧ ∀ p : Part, p ∉ [.fresh, .store] → (s.canFrame diagHook n ago f).part p = s.part p := by
  have he : s.canFrame diagHook n ago f = s.drawn.rxError n .form false (s.freeNat % 2 == 1) := by
    have h0 : s.fb (canB n) R.CAN_CTRL.fd_en = false := by
      unfold State.fb
      rw [show s.f (canB n) R.CAN_CTRL.fd_en = 0 from hen]
      rfl
    unfold State.canFrame
    rw [if_pos ⟨hon, hmode⟩, if_pos ⟨hfd, by rw [h0]; rfl⟩]
  obtain ⟨hlec, hword⟩ := s.drawn.rxError_view n .form (s.freeNat % 2 == 1)
  rw [he]
  exact ⟨hlec, hword, fun p h => (State.rxError_part _ _ _ _ _ (by simp at h; simp [h])).trans (s.drawn_part (by simp at h; simp [h]))⟩

theorem State.frameIn_plain (hrtr : f.rtr = false) (hdiag : (s.can[n]).mode ≠ 1 ∨ s.isDiag n f = false) :
    s.frameIn diagHook n f stamp = (s.rxCounted n).frameDest n f stamp := by
  have hcan : (s.rxCounted n).can = s.can := State.rxCounted_part (p := .can) s n (by simp)
  have hnone : diagHook n f (s.rxCounted n) = none := by
    unfold diagHook
    rw [if_neg]
    rw [State.rxCounted_isDiag, hcan]
    rintro ⟨h, h'⟩
    rcases hdiag with e | e
    · exact e h
    · rw [e] at h'
      cases h'
  unfold State.frameIn
  dsimp only
  rw [hrtr, if_neg Bool.false_ne_true, show (s.rxGood n).cinc n R.CAN_CNT.rx_ok = s.rxCounted n from rfl, hnone]

/-- A request of an operation that is not known is answered with BAD_PKT. -/
theorem State.diagExec_unknown (s : State) (n : Can) (bs : List Nat) (hop : 3 ≤ nth bs 0 0 / 16) (hmode : (s.can[n]).mode ≠ 0) :
    s.diagExec n bs = s.modCan n fun c => { c with diag := some { bytes := [Status.badPkt.code, nth bs 0 0 % 16, 0, 0, 0, 0, 0, 0]
                                                                  attempts := 0 } } := by
  have hm : ((s.can[n]).mode != 0) = true := bne_iff_ne.2 hmode
  obtain ⟨k, hk⟩ : ∃ k, nth bs 0 0 / 16 = k + 3 := ⟨_, (Nat.sub_add_cancel hop).symm⟩
  unfold State.diagExec
  extract_lets a src t1 t2 r
  have ht1 : t1 = { s with status := .badPkt, data := [], tear := false, range := false } := by
    show (match nth bs 0 0 / 16 with | 1 => _ | 2 => _ | _ => _) = _
    rw [hk]
    rfl
  have ht2 : t2 = { s with status := .badPkt, data := [], tear := false, range := false } := by
    show (if _ then _ else { t1 with data := [] } : State) = _
    rw [if_neg (by rw [hk]; omega), ht1]
  have hr : r = [Status.badPkt.code, nth bs 0 0 % 16, 0, 0, 0, 0, 0, 0] := by
    show diagResponse t2 _ = _
    rw [ht2]
    simp [diagResponse, beBytes, b2n]
  have hm2 : ((t2.can[n]).mode != 0) = true := by rw [ht2]; exact hm
  show ({ t2.onlyIf ((t2.can[n]).mode != 0) (fun x => x.setOwn n true (some { bytes := r, attempts := 0 })) with
    status := s.status, data := s.data, tear := s.tear, range := s.range } : State) = _
  rw [hm2, hr, ht2]
  rfl

end

end Sys2Proof.Machine

open Sys2Proof Sys2Proof.Machine

/-- A received frame: its count, and where the filter list sends it. -/
theorem canReception_frames : Claims.CanReception := by
  intro s dt n ago f u b good kept head hok hon hmode
  have hu : s.elapse dt = u := rfl
  clear_value u
  have hx : exec (.canFrameReceived dt n ago f) s = s.after dt (·.canFrame diagHook n ago f) :=
    if_neg (by rw [hok]; decide)
  have hgives {P : State → Prop} (hp : P (u.canFrame diagHook n ago f)) : s.Gives (.canFrameReceived dt n ago f) dt P :=
    State.gives_after (eff := (·.canFrame diagHook n ago f)) hx hu hp
  have hkept {e : State} (h : ∀ p : Part, p ∉ [.can, .fresh, .store] → e.part p = u.part p) : kept e :=
    ⟨h .cl (by simp), h .axM (by simp), h .axS (by simp), State.gates_eq fun o => h _ (by simp), h .flash (by simp)⟩
  have hcounted {p : Part} (h : p ∉ [.fresh, .store]) := u.rxCounted_part n h
  refine ⟨fun hfd hen => hgives ?_, fun hrtr => hgives ?_, fun hrtr hfd hdiag => ⟨fun hnone h1 h2 => hgives ?_, fun k hk => ?_⟩,
    fun hm hrtr hfd hdiag hfree hlen hop => hgives ?_⟩
  · obtain ⟨hlec, hword, hpart⟩ := State.canFrame_formError (ago := ago) hon hmode hfd hen
    refine ⟨hlec, State.f_of_word (hword _ (by simp [R.CAN_CNT.rx_ok, R.CAN_STAT.reg])), hpart .can (by simp), fun i _ => ?_,
      hkept fun p hp => hpart p (by simp at hp; simp [hp])⟩
    exact State.ram_of_word (hword _ (by simp only [ramAddr, canB, R.CAN_STAT.reg]; omega))
  · have hfd : f.fd = true → u.cf n R.CAN_CTRL.fd_en = 1 := by
      intro h
      simp [Frame.ok, h, hrtr] at hok
    rw [State.canFrame_received ago hon hmode hfd]
    have he : u.frameIn diagHook n f ((u.now - ago - u.boot.relAt) / 2 / 4096) = (u.rxCounted n).cinc n R.CAN_CNT2.rtr_drop :=
      if_pos hrtr
    have hword {k : Nat} (h : k ≠ canB n + R.CAN_CNT2.rtr_drop.off) := State.cinc_word (u.rxCounted n) n R.CAN_CNT2.rtr_drop h
    have hpart {p : Part} (h : p ∉ [.fresh, .store]) : ((u.rxCounted n).cinc n R.CAN_CNT2.rtr_drop).part p = u.part p :=
      (State.cinc_part _ _ _ (by simp at h; simp [h])).trans (hcounted h)
    rw [he]
    refine ⟨?_, ?_, hpart (p := .can) (by simp), fun i _ => ?_, hkept fun p hp => hpart (by simp at hp; simp [hp])⟩
    · exact (State.f_of_word (hword (by simp [R.CAN_CNT.rx_ok, R.CAN_CNT2.rtr_drop]))).trans (u.rxCounted_rx_ok n)
    · rw [State.cinc_f _ _ _ (by decide), State.rxCounted_cf _ _ (by decide)]
    · refine (State.ram_of_word (hword ?_)).trans (u.rxCounted_ram n i)
      simp only [ramAddr, canB, R.CAN_CNT2.rtr_drop]
      omega
  · rw [State.canFrame_received ago hon hmode hfd, State.frameIn_plain hrtr hdiag, State.frameDest_unmatched]
    · exact ⟨u.rxCounted_rx_ok n, hcounted (p := .can) (by simp), fun i _ => u.rxCounted_ram n i,
        hkept fun p hp => hcounted (by simp at hp; simp [hp])⟩
    · rw [State.rxCounted_filterFind]; exact hnone
    · rw [State.rxCounted_cf _ _ (by decide)]; exact h1
    · rw [State.rxCounted_cf _ _ (by decide)]; exact h2
  · intro w idx
    have hfind : (u.rxCounted n).filterFind n f = some k := by rw [State.rxCounted_filterFind]; exact hk
    have hat : (u.rxCounted n).ram ((u.rxCounted n).filterAt n k) = w := by
      rw [State.rxCounted_ram]
      unfold State.filterAt
      rw [State.rxCounted_cf _ _ (by decide)]
      rfl
    refine ⟨fun hw hlt hlock => hgives ?_, fun c hw hroom => hgives ?_⟩
    · rw [State.canFrame_received ago hon hmode hfd, State.frameIn_plain hrtr hdiag, State.frameDest_buffer hfind]
      · have hidx : bitsAt ((u.rxCounted n).ram ((u.rxCounted n).filterAt n k)) 12 5 = idx := by rw [hat]
        rw [hidx]
        have hidx32 : idx < 32 := Nat.mod_lt _ (by decide)
        obtain ⟨hnd, hram, hcnt⟩ := (u.rxCounted n).rxStore_view n hidx32 f k ((u.now - ago - u.boot.relAt) / 2 / 4096)
        have hrx : (u.rxCounted n).rxAt n idx = u.rxAt n idx := by
          unfold State.rxAt
          rw [State.rxCounted_cf _ _ (by decide), State.rxCounted_cf _ _ (by decide)]
        have hpart {p : Part} (h : p ∉ [.fresh, .store]) :=
          (State.rxStore_part (u.rxCounted n) n idx f k ((u.now - ago - u.boot.relAt) / 2 / 4096) h).trans (hcounted h)
        rw [hrx] at hram
        exact ⟨hcnt.trans (u.rxCounted_rx_ok n), hnd, hram, hpart (p := .can) (by simp),
          hkept fun p hp => hpart (by simp at hp; simp [hp])⟩
      · rw [hat]; exact hw
      · rw [hat, State.rxCounted_cf _ _ (by decide)]; exact hlt
      · rw [hat]
        exact (congrArg (fun ps : Vector PortSt 4 => ps.any fun p => p.lock == some (n, 0, idx))
          (hcounted (p := .ports) (by simp))).trans hlock
    · rw [State.canFrame_received ago hon hmode hfd, State.frameIn_plain hrtr hdiag, State.frameDest_fifo hfind (by rw [hat]; exact hw)]
      have hf (g : Fld) (h : 3 ≤ g.off) := u.rxCounted_f n c h
      have hput := hf R.CAN_FS.put (by decide)
      have hcount := hf R.CAN_FIFO.count (by decide)
      have hfill := hf R.CAN_FS.fill (by decide)
      have hview := (u.rxCounted n).rxFifo_view n c f k ((u.now - ago - u.boot.relAt) / 2 / 4096) (by
        rw [hfill, hcount]; exact hroom)
      have hff : (u.rxCounted n).fifoAt n c.val (u.f (b + c.val) R.CAN_FS.put) = u.fifoAt n c.val (u.f (b + c.val) R.CAN_FS.put) := by
        unfold State.fifoAt State.fifoF
        rw [hf _ (by decide), hf _ (by decide)]
      dsimp only at hview
      rw [hput, hcount, hfill, hff] at hview
      obtain ⟨hfill, hput, hram, hcnt⟩ := hview
      have hpart {p : Part} (h : p ∉ [.fresh, .store]) :=
        (State.rxFifo_part (u.rxCounted n) n c f k ((u.now - ago - u.boot.relAt) / 2 / 4096) h).trans (hcounted h)
      exact ⟨hcnt.trans (u.rxCounted_rx_ok n), hfill, hput, hram, hpart (p := .can) (by simp),
        hkept fun p hp => hpart (by simp at hp; simp [hp])⟩
  · rw [State.canFrame_received ago hon hmode hfd]
    have hcan : (u.rxCounted n).can = u.can := hcounted (p := .can) (by simp)
    have hfirst : nth (f.data.map fun b => b.toNat) 0 0 = ((f.data.head?).getD 0).toNat := by
      cases f.data <;> rfl
    have hhook : diagHook n f (u.rxCounted n) = some ((u.rxCounted n).diagExec n (f.data.map fun b => b.toNat)) := by
      unfold diagHook
      rw [State.rxCounted_isDiag, hcan, if_pos ⟨hm, hdiag⟩, if_neg]
      rw [hfree]
      exact fun h => h.elim (fun e => Bool.false_ne_true e) (by omega)
    have he : u.frameIn diagHook n f ((u.now - ago - u.boot.relAt) / 2 / 4096)
        = (u.rxCounted n).diagExec n (f.data.map fun b => b.toNat) := by
      unfold State.frameIn
      dsimp only
      rw [hrtr, if_neg Bool.false_ne_true, show (u.rxGood n).cinc n R.CAN_CNT.rx_ok = u.rxCounted n from rfl, hhook]
    rw [he, State.diagExec_unknown _ _ _ (by rw [hfirst]; omega) (by rw [hcan, hm]; decide), hfirst]
    have hpart {p : Part} (g : CanC → CanC) (h : p ∉ [.can, .fresh, .store]) : ((u.rxCounted n).modCan n g).part p = u.part p :=
      (State.modCan_part _ _ _ (by simp at h; simp [h])).trans (hcounted (by simp at h; simp [h]))
    refine ⟨u.rxCounted_rx_ok n, ?_, hpart _ (p := .status) (by simp), hpart _ (p := .data) (by simp), hkept fun p hp => hpart _ hp⟩
    exact congrArg CanC.diag (upd_self ..)

/-- The get index of a FIFO written. -/
theorem canReception_fifoGet : Claims.FifoGet := by
  intro s dt n c v u a b count fill steps ho hv
  have hu : s.elapse dt = u := rfl
  clear_value u
  refine State.gives_hostAct (act := (·.fifoGet n c (v % 64))) rfl hu ho ?_
  rw [Nat.mod_eq_of_lt hv]
  obtain ⟨hstore, hword, hput, hin, hout⟩ := u.asked.fifoGet_view n c hv
  refine ⟨State.eq_with_store fun p hp => hstore p (by simpa using hp), hword, hput, ?_⟩
  split
  next h => exact hin h
  next h => exact hout h

/-- Settles O53, by the count of a received frame, which leaves every word but two, and by the destination of the filter. -/
theorem canReception : Obligations.CanReception := ⟨canReception_frames, canReception_fifoGet⟩
end

section
/-! PROOFS. Receive routes and their timeouts (15_can_fd R420 to R425, 13_image_boot_and_security R374). -/

namespace Sys2Proof.Machine

/-! ## Events raised -/

/-- An event is raised where no link of its die is lost. -/
theorem State.mem_raise {s : State} {e : Nat} (h : ∀ d, (s.link[d]).lost = true → onDie d (evScope e) = false) :
    e ∈ (s.raise e).raised := by
  have hlocal (d : Rg) : ¬ ((s.link[d]).lost && onDie d (evScope e) && !(e == 2 || e == 3)) = true := by
    intro hd
    simp only [Bool.and_eq_true] at hd
    obtain ⟨⟨hl, ho⟩, -⟩ := hd
    exact Bool.false_ne_true ((h d hl).symm.trans ho)
  unfold State.raise
  dsimp only
  rw [if_neg (hlocal 0), if_neg (hlocal 1)]
  exact List.mem_append_right _ (List.mem_singleton.2 rfl)

/-! ## What a route does with a frame -/

section
variable {s : State} {n : Can} {k : Nat} {f : Frame} (hk : k < 32) (hcount : k < s.cf n R.CAN_RT.count)
  (hon : bitAt (s.ram (s.routeAt n k)) 0 = false)
include hk hcount hon

/-- A payload that the field or the secure frame does not fit into is counted. -/
theorem State.routeFrame_short
    (h : bitAt (s.ram (s.routeAt n k)) 19 = false ∧ routeRaw (s.ram (s.routeAt n k)) (f.data.map fun b => b.toNat) = none
      ∨ bitAt (s.ram (s.routeAt n k)) 19 = true ∧ (f.data.map fun b => b.toNat).length < 12) :
    s.routeFrame n k f = s.cinc n R.CAN_CNT2.route_len := by
  unfold State.routeFrame
  rw [dif_pos hk]
  dsimp only
  rw [if_neg (not_or.2 ⟨Nat.not_le.2 hcount, by rw [hon]; exact Bool.false_ne_true⟩)]
  rcases h with ⟨hplain, hraw⟩ | ⟨hsecure, hlen⟩
  · rw [hplain, if_neg (by simp)]
    rw [if_neg Bool.false_ne_true, if_neg Bool.false_ne_true]
    dsimp only
    rw [hraw]
    rfl
  · rw [hsecure, if_pos ⟨rfl, hlen⟩]

/-- A secure frame whose key names no usable slot fails its check. -/
theorem State.routeFrame_keyless (hsecure : bitAt (s.ram (s.routeAt n k)) 19 = true)
    (hlen : 12 ≤ (f.data.map fun b => b.toNat).length) (hkey : s.routeKey (bitsAt (s.ram (s.routeAt n k)) 20 4) = none) :
    s.routeFrame n k f = (s.inc pk R.SEC_CNT.can_mac_fail).raise 47 := by
  unfold State.routeFrame
  rw [dif_pos hk]
  dsimp only
  rw [if_neg (not_or.2 ⟨Nat.not_le.2 hcount, by rw [hon]; exact Bool.false_ne_true⟩), hsecure, if_neg (by omega)]
  unfold State.secureFv
  rw [hkey]
  rfl

/-- The frame that a route has taken is noted. -/
def State.routeNoted (s : State) (n : Can) (i : Fin 32) : State :=
  let s := s.modRoute n i fun r => { r with seen := true, seenAt := s.now }
  s.setRouteW4 n i.val (putBits (s.routeW4 n i.val) 9 1 0)

/-- A plain field issues its command, and the port's status is as before. -/
theorem State.routeFrame_value (hplain : bitAt (s.ram (s.routeAt n k)) 19 = false) {raw : Int}
    (hraw : routeRaw (s.ram (s.routeAt n k)) (f.data.map fun b => b.toNat) = some raw) :
    s.routeFrame n k f = { (s.routeNoted n ⟨k, hk⟩).routeIssue n ⟨k, hk⟩ (s.ram (s.routeAt n k))
      (routeValue raw ((s.routeNoted n ⟨k, hk⟩).ram (s.routeAt n k + 2)) ((s.routeNoted n ⟨k, hk⟩).ram (s.routeAt n k + 3)))
        with status := s.status } := by
  unfold State.routeFrame
  rw [dif_pos hk]
  dsimp only
  rw [if_neg (not_or.2 ⟨Nat.not_le.2 hcount, by rw [hon]; exact Bool.false_ne_true⟩), hplain, if_neg (by simp)]
  rw [if_neg Bool.false_ne_true, if_neg Bool.false_ne_true]
  dsimp only
  rw [hraw]
  rfl

end

/-! ## A SPEED route -/

theorem sgn_ofInt {v : Int} (hlo : -2147483648 ≤ v) (hhi : v ≤ 2147483647) : sgn 32 (BitVec.ofInt 32 v).toNat = v := by
  have hn : (BitVec.ofInt 32 v).toNat = (v % 4294967296).toNat := BitVec.toNat_ofInt ..
  unfold sgn
  rw [hn]
  dsimp only
  split <;> omega

theorem routeValue_bounds (raw : Int) (scale offset : Nat) :
    -2147483648 ≤ routeValue raw scale offset ∧ routeValue raw scale offset ≤ 2147483647 := by
  unfold routeValue sat32 clampI
  simp only [q32lo, q32hi]
  omega

theorem wholeField {o : Nat} (w : Word) : Fld.get ⟨o, 0, 32⟩ w = w.toNat := by
  show bitsAt w.toNat 0 32 = w.toNat
  rw [bitsAt, Nat.pow_zero, Nat.div_one]
  exact Nat.mod_eq_of_lt w.isLt

/-- The staging registers that a SPEED route writes. -/
theorem State.stageRoute_staged (s : State) (n : Can) (x : Axis) {v : Int} (hlo : -2147483648 ≤ v) (hhi : v ≤ 2147483647) :
    ((s.stageRoute n x none v).staged (2 + n.val) x).vel = v ∧ ((s.stageRoute n x none v).staged (2 + n.val) x).acc = s.aMax x := by
  have hacc : s.aMax x < 2 ^ 32 := State.f_lt s _ R.MO_AMAX.a_max
  obtain ⟨b, hb⟩ : ∃ b, b = moB x + (2 + n.val) * 0x1000000 := ⟨_, rfl⟩
  have he : s.stageRoute n x none v = (s.setWord (b + 3) (BitVec.ofInt 32 v)).setWord (b + 4) (BitVec.ofNat 32 (s.aMax x)) := by
    rw [hb]; rfl
  have hvel : ((s.stageRoute n x none v).staged (2 + n.val) x).vel = sgn 32 ((s.stageRoute n x none v).f b R.MO_VEL.vel) := by
    rw [hb]; rfl
  have hacc' : ((s.stageRoute n x none v).staged (2 + n.val) x).acc = (s.stageRoute n x none v).f b R.MO_ACC.acc := by
    rw [hb]; rfl
  rw [hvel, hacc', he]
  refine ⟨?_, ?_⟩
  · rw [show (State.f _ b R.MO_VEL.vel) = (State.word _ (b + 3)).toNat from wholeField _,
      State.word_setWord_ne _ _ (by omega), State.word_setWord_self, sgn_ofInt hlo hhi]
  · rw [show (State.f _ b R.MO_ACC.acc) = (State.word _ (b + 4)).toNat from wholeField _, State.word_setWord_self,
      BitVec.toNat_ofNat, Nat.mod_eq_of_lt hacc]

theorem State.stageRoute_word (s : State) (n : Can) (x : Axis) (v : Int) {j : Nat} (hj : j < 0x2000000 ∨ 0x5000000 ≤ j) :
    (s.stageRoute n x none v).word j = s.word j := by
  have hb : 0x2000000 ≤ moB x + (2 + n.val) * 0x1000000 ∧ moB x + (2 + n.val) * 0x1000000 < 0x4F00000 := by
    have hn := n.isLt
    cases x <;> simp only [moB, mcB, stB] <;> omega
  have hreg : R.MO_VEL.reg = 3 ∧ R.MO_ACC.reg = 4 := ⟨rfl, rfl⟩
  exact (State.word_setWord_ne _ _ (by omega)).trans (State.word_setWord_ne _ _ (by omega))

/-- A SPEED route commands its motor's axis, clamped. -/
theorem State.routeIssue_speed {s : State} {n : Can} {i : Fin 32} {w0 : Nat} {v : Int} {m : Mcn}
    (hkind : bitsAt w0 5 4 = 1) (hm : bitsAt w0 1 4 = m.val) (hcheck : s.moCheck (.mc m) false true false = none)
    (hacc : s.aMax (.mc m) ≠ 0) (hvirt : (s.virt (.mc m)).1 ≠ .stopping) (hrule : (s.auto[mcCl m]).rule = false)
    (hlo : -2147483648 ≤ v) (hhi : v ≤ 2147483647) :
    let e := s.routeIssue n i w0 v
    e.axM[m] = { s.axM[m] with cmds := (s.axM[m]).cmds ++ [.speed (clampI (-(s.vMax (.mc m))) (s.vMax (.mc m)) v) (s.aMax (.mc m))] }
      ∧ (∀ j : Mcn, j ≠ m → e.axM[j] = s.axM[j]) ∧ e.axS = s.axS ∧ e.cl = s.cl := by
  intro e
  obtain ⟨t, ht⟩ : ∃ t, t = s.stageRoute n (.mc m) none v := ⟨_, rfl⟩
  have hpart {p : Part} (h : p ∉ [.store]) : t.part p = s.part p := by rw [ht]; exact State.stageRoute_part _ _ _ _ _ h
  have hM : t.axM = s.axM := hpart (p := .axM) (by simp)
  have hcl : t.cl = s.cl := hpart (p := .cl) (by simp)
  have same : State.AxisView s t := State.axisView_congr hcl hM (hpart (p := .axS) (by simp)) fun j _ hj => by
    rw [ht]; exact State.stageRoute_word _ _ _ _ (by omega)
  obtain ⟨hvel, hstaged⟩ := s.stageRoute_staged n (.mc m) hlo hhi
  rw [← ht] at hvel hstaged
  have hjudge : t.moJudge (.mc m) (t.moCheck (.mc m) false true false) ((t.staged (2 + n.val) (.mc m)).acc == 0) .badState [] = none := by
    rw [same.moCheck, hcheck, hstaged, beq_false_of_ne hacc]
    exact State.moJudge_passes (by rw [same.virt]; exact hvirt) (by simp)
  obtain ⟨y, hy⟩ : ∃ y, y = t.moSpeed (.mc m) (t.staged (2 + n.val) (.mc m)) := ⟨_, rfl⟩
  have htaken : State.MotionTaken t (.mc m) (.speed (clampI (-(t.vMax (.mc m) : Int)) (t.vMax (.mc m)) (t.staged (2 + n.val) (.mc m)).vel)
      (Nat.min (t.staged (2 + n.val) (.mc m)).acc (t.aMax (.mc m)))) y := by
    rw [hy]
    exact State.moDo_taken t (.mc m) hjudge _ _ _
  rw [hvel, hstaged, same.vMax, same.aMax, show Nat.min (s.aMax (.mc m)) (s.aMax (.mc m)) = s.aMax (.mc m) from Nat.min_self _] at htaken
  have haxis : routeAxis m.val = some (.mc m) := dif_pos m.isLt
  have hcmd : s.routeCmd n 1 m.val v = some y := by
    unfold State.routeCmd
    dsimp only
    rw [haxis]
    dsimp only
    rw [← ht, ← hy]
    rfl
  have hauto : (y.auto[mcCl m]).rule = false := by
    have hsame : y.auto = s.auto := by
      rw [htaken.same]
      exact hpart (p := .auto) (by simp)
    rw [hsame]
    exact hrule
  have hcl' : routeCl m.val = mcCl m := dif_pos (by omega)
  have he : e = (y.modRoute n i fun r => { r with last := some v }).setRouteW4 n i.val
      (putBits ((y.modRoute n i fun r => { r with last := some v }).routeW4 n i.val) 8 1 0) := by
    show s.routeIssue n i w0 v = _
    unfold State.routeIssue
    dsimp only
    rw [hkind, hm, hcmd]
    refine (if_pos rfl).trans ?_
    dsimp only
    rw [if_pos htaken.status, if_neg (by decide), hcl']
    exact State.firstSp_ruleless (s := (y.modRoute n i _).setRouteW4 n i.val _) hauto 1
  have hx (x : Axis) : e.ax x = y.ax x := by rw [he]; cases x <;> rfl
  refine ⟨?_, fun j hj => ?_, ?_, ?_⟩
  · exact ((hx (.mc m)).trans htaken.waits).trans (by rw [show t.ax (.mc m) = s.axM[m] from congrArg (·[m]) hM])
  · refine ((hx (.mc j)).trans (htaken.others (.mc j) (by simpa using hj))).trans ?_
    exact congrArg (·[j]) hM
  · refine Vector.ext fun k hk => ?_
    refine ((hx (.st ⟨k, hk⟩)).trans (htaken.others (.st ⟨k, hk⟩) (by simp))).trans ?_
    exact congrArg (fun a : Vector AxisSt 8 => a[k]) (hpart (p := .axS) (by simp))
  · rw [he]
    exact (congrArg State.cl htaken.same).trans hcl

theorem State.with_status {s : State} {st : Status} (h : s.status = st) : { s with status := st } = s := by
  rw [← h]

/-! ## Timeouts -/

/-- The group of a command depends on the registers of the clusters alone. -/
theorem State.cmdGroup_congr {s t : State} (hw : ∀ k, 0x100000 ≤ k → k < 0x200000 ∨ 0x5000000 ≤ k → t.word k = s.word k) (c : Cl) :
    t.cmdGroup c = s.cmdGroup c := by
  have hfield (n : Mcn) : t.partnerField n = s.partnerField n :=
    State.f_of_word (hw _ (by unfold eff mcB; omega) (by unfold eff; omega))
  have hconv (n : Mcn) : t.conv n = s.conv n :=
    State.conv_of_word (hw _ (by unfold mcB; omega) (by simp only [mcB, R.MC_STATE.personality]; omega))
  have hpartner (n : Mcn) : t.partner n = s.partner n := by simp only [State.partner, hfield, hconv]
  have hfollower (n : Mcn) : t.follower n = s.follower n := by
    unfold State.follower State.leader
    rw [hpartner]
  have hgroup : t.group c = s.group c := by
    unfold State.group
    cases clMc c with
    | none => rfl
    | some n => dsimp only; rw [hpartner]
  unfold State.cmdGroup
  cases clMc c with
  | none => rfl
  | some n => dsimp only; rw [hfollower, hgroup]

theorem putBits_timeout {w c : Nat} (hw : w < 2 ^ 32) (hc : c < 256) :
    bitAt (putBits (putBits w 9 1 1) 24 8 c % 2 ^ 32) 9 = true ∧ bitsAt (putBits (putBits w 9 1 1) 24 8 c % 2 ^ 32) 24 8 = c := by
  simp only [putBits, bitAt, bitsAt, beq_iff_eq]
  constructor <;> omega

section
variable {s : State} {n : Can} {k : Fin 32} (hat : s.routeAt n k.val + 4 < 0x4000) (hcount : k.val < s.cf n R.CAN_RT.count)
  (hon : bitAt (s.ram (s.routeAt n k.val)) 0 = false) (htime : s.ram (s.routeAt n k.val + 1) / 65536 ≠ 0)
  (hseen : ((s.can[n]).routes[k]).seen = true) (hmark : bitAt (s.routeW4 n k.val) 9 = false)
  (hdue : ((s.can[n]).routes[k]).seenAt + 500000 * (s.ram (s.routeAt n k.val + 1) / 65536) ≤ s.now)

/-- The mark and the count of a timeout. -/
def State.routeMarked (s : State) (n : Can) (k : Fin 32) : State :=
  s.setRouteW4 n k.val (putBits (putBits (s.routeW4 n k.val) 9 1 1) 24 8 (Nat.min 255 (bitsAt (s.routeW4 n k.val) 24 8 + 1)))

theorem State.routeMarked_part (s : State) (n : Can) (k : Fin 32) {p : Part} (h : p ∉ [.store]) :
    (s.routeMarked n k).part p = s.part p := State.setRouteW4_part _ _ _ _ h

include hcount hon htime hseen hmark hdue in
theorem State.routeTimeout_due : s.routeTimeout n k
    = { (s.routeMarked n k).timeoutAct (s.ram (s.routeAt n k.val)) with status := s.status } := by
  have hstatus : (s.routeMarked n k).status = s.status := State.routeMarked_part (p := .status) s n k (by simp)
  unfold State.routeTimeout
  dsimp only
  rw [if_pos ⟨hcount, by rw [hon]; rfl, htime, hseen, by rw [hmark]; rfl, hdue⟩, ← State.routeMarked, hstatus]

theorem State.routeMarked_w4 (s : State) (n : Can) (k : Fin 32) :
    bitAt ((s.routeMarked n k).routeW4 n k.val) 9 = true
      ∧ bitsAt ((s.routeMarked n k).routeW4 n k.val) 24 8 = Nat.min 255 (bitsAt (s.routeW4 n k.val) 24 8 + 1) := by
  have hbase : (s.routeMarked n k).word (canB n + R.CAN_RT.reg) = s.word (canB n + R.CAN_RT.reg) :=
    State.setRam_word_low _ _ _ (by simp only [canB, R.CAN_RT.reg]; omega)
  have hat : (s.routeMarked n k).routeAt n k.val = s.routeAt n k.val :=
    congrArg (fun w => R.CAN_RT.base.get w + 5 * k.val) hbase
  have hw4 : (s.routeMarked n k).routeW4 n k.val
      = putBits (putBits (s.routeW4 n k.val) 9 1 1) 24 8 (Nat.min 255 (bitsAt (s.routeW4 n k.val) 24 8 + 1)) % 2 ^ 32 :=
    (congrArg (fun j => (s.routeMarked n k).ram (j + 4)) hat).trans (State.setRam_ram ..)
  have hlt : s.routeW4 n k.val < 2 ^ 32 := (s.word (ramAddr (s.routeAt n k.val + 4))).isLt
  rw [hw4]
  exact putBits_timeout hlt (Nat.lt_of_le_of_lt (Nat.min_le_left _ _) (by decide))

include hat in
theorem State.routeMarked_word {j : Nat} (hj : j < 0x600000 ∨ 0x604000 ≤ j) : (s.routeMarked n k).word j = s.word j := by
  refine State.word_setWord_ne _ _ ?_
  simp only [ramAddr]
  omega

include hcount hon htime hseen hmark hdue

/-- A timeout with no action is marked and counted. -/
theorem State.routeTimeout_mark (h : bitsAt (s.ram (s.routeAt n k.val)) 24 2 = 0) :
    s.routeTimeout n k = { s with store := (s.routeTimeout n k).store }
      ∧ bitAt ((s.routeTimeout n k).routeW4 n k.val) 9 = true
      ∧ bitsAt ((s.routeTimeout n k).routeW4 n k.val) 24 8 = Nat.min 255 (bitsAt (s.routeW4 n k.val) 24 8 + 1) := by
  have hact : (s.routeMarked n k).timeoutAct (s.ram (s.routeAt n k.val)) = s.routeMarked n k := by
    unfold State.timeoutAct
    dsimp only
    rw [h]
    rfl
  have he : s.routeTimeout n k = s.routeMarked n k := by
    rw [State.routeTimeout_due hcount hon htime hseen hmark hdue, hact]
    exact State.with_status (State.routeMarked_part (p := .status) s n k (by simp))
  rw [he]
  exact ⟨State.eq_with_store fun p hp => State.routeMarked_part s n k (by simpa using hp), State.routeMarked_w4 s n k⟩

include hat

/-- A timeout that makes its cluster safe. -/
theorem State.routeTimeout_safe {cs : List Cl} (h : bitsAt (s.ram (s.routeAt n k.val)) 24 2 = 3)
    (hg : s.cmdGroup (routeCl (bitsAt (s.ram (s.routeAt n k.val)) 1 4)) = some cs)
    (ha : (s.cl[routeCl (bitsAt (s.ram (s.routeAt n k.val)) 1 4)]).st.active = true) :
    s.moved (s.routeTimeout n k) cs CState.active .safe 1 ∧ (s.routeTimeout n k).status = s.status
      ∧ (s.routeTimeout n k).can = s.can ∧ (s.routeTimeout n k).flash = s.flash := by
  have hcl : (s.routeMarked n k).cl = s.cl := State.routeMarked_part (p := .cl) s n k (by simp)
  have hgroup : (s.routeMarked n k).cmdGroup (routeCl (bitsAt (s.ram (s.routeAt n k.val)) 1 4)) = some cs :=
    (State.cmdGroup_congr (fun j _ hj => State.routeMarked_word hat (by omega)) _).trans hg
  have he : (s.routeMarked n k).timeoutAct (s.ram (s.routeAt n k.val))
      = ((s.routeMarked n k).enterAll cs CState.active .safe 1 (some 0)).answer .ok := by
    unfold State.timeoutAct
    dsimp only
    rw [h]
    exact State.safeCmd_active hgroup (by rw [hcl]; exact ha)
  have hmoved := (s.routeMarked n k).enterAll_moved cs CState.active .safe 1 (some 0)
  refine ⟨?_, ?_, State.routeTimeout_part (p := .can) s n k (by simp), State.routeTimeout_part (p := .flash) s n k (by simp)⟩
  · rw [State.routeTimeout_due hcount hon htime hseen hmark hdue, he]
    exact State.moved_congr hmoved hcl rfl
  · rw [State.routeTimeout_due hcount hon htime hseen hmark hdue]

end

end Sys2Proof.Machine

open Sys2Proof Sys2Proof.Machine

/-- Settles O55, by the branch of a route that each frame reaches, and by the mark of a timeout. -/
theorem canRoutes : Obligations.CanRoutes := by
  intro s dt n u
  have hu : s.elapse dt = u := rfl
  constructor
  · clear_value u
    intro ago f x k hok hrtr hfd hon hmode hdiag hfind hdest hidx hcount hat at_ w0 bs idle hbit
    have hk : k < 32 := by rw [← hidx]; exact Nat.mod_lt _ (by decide)
    obtain ⟨t, ht⟩ : ∃ t, t = u.rxCounted n := ⟨_, rfl⟩
    have hgives {P : State → Prop} (hp : P (t.routeFrame n k f)) : s.Gives (.canFrameReceived dt n ago f) dt P := by
      refine State.gives_after (eff := (·.canFrame diagHook n ago f)) (if_neg (by rw [hok]; decide)) hu ?_
      have hfilter : t.ram (t.filterAt n x) = u.ram (u.filterAt n x) := by
        rw [ht, State.rxCounted_ram]
        unfold State.filterAt
        rw [State.rxCounted_cf _ _ (by decide)]
      show P (u.canFrame diagHook n ago f)
      rw [State.canFrame_received ago hon hmode hfd, State.frameIn_plain hrtr hdiag, ← ht,
        State.frameDest_route (k := x) (by rw [ht, State.rxCounted_filterFind]; exact hfind) (by rw [hfilter]; exact hdest),
        hfilter, hidx]
      exact hp
    have hpart {p : Part} (h : p ∉ [.fresh, .store]) : t.part p = u.part p := by rw [ht]; exact u.rxCounted_part n h
    have hword {j : Nat} (h : 0x6003 + n.val * 0x400 ≤ j) : t.word j = u.word j := by
      rw [ht]
      refine u.rxCounted_word n ?_ ?_ <;> simp only [canB, R.CAN_STAT.reg, R.CAN_CNT.reg] <;> omega
    have hcf {g : Fld} (h : 3 ≤ g.off) : t.cf n g = u.cf n g := by rw [ht]; exact u.rxCounted_cf n h
    have hram (i : Nat) : t.ram i = u.ram i := by rw [ht]; exact u.rxCounted_ram n i
    have hroute : t.routeAt n k = at_ := congrArg (· + 5 * k) (hcf (by decide))
    have hw0 : t.ram (t.routeAt n k) = w0 := by rw [hroute, hram]
    have hcount' : k < t.cf n R.CAN_RT.count := by rw [hcf (by decide)]; exact hcount
    have hbit' : bitAt (t.ram (t.routeAt n k)) 0 = false := by rw [hw0]; exact hbit
    have hshort (h : bitAt w0 19 = false ∧ routeRaw w0 bs = none ∨ bitAt w0 19 = true ∧ bs.length < 12) :
        s.Gives (.canFrameReceived dt n ago f) dt fun e => idle e
          ∧ e.cf n R.CAN_CNT2.route_len = Nat.min (u.cf n R.CAN_CNT2.route_len + 1) (2 ^ R.CAN_CNT2.route_len.w - 1) := by
      refine hgives ?_
      rw [State.routeFrame_short hk hcount' hbit' (by rw [hw0]; exact h)]
      have hinc {p : Part} (h : p ∉ [.fresh, .store]) : (t.cinc n R.CAN_CNT2.route_len).part p = u.part p :=
        (State.cinc_part _ _ _ (by simp at h; simp [h])).trans (hpart h)
      refine ⟨⟨hinc (p := .cl) (by simp), hinc (p := .axM) (by simp), hinc (p := .axS) (by simp), hinc (p := .can) (by simp),
        hinc (p := .status) (by simp)⟩, ?_⟩
      rw [State.cinc_f _ _ _ (by decide), hcf (by decide)]
    refine ⟨fun h h' => hshort (.inl ⟨h, h'⟩), fun h h' => hshort (.inr ⟨h, h'⟩), fun hsec hlen hkey => hgives ?_,
      fun m raw hplain hkind hm hraw hcheck hacc hvirt hrule => hgives ?_⟩
    · have hkey' : t.routeKey (bitsAt (t.ram (t.routeAt n k)) 20 4) = none := by
        have hboot : t.boot = u.boot := hpart (p := .boot) (by simp)
        have hseced : t.sec = u.sec := hpart (p := .sec) (by simp)
        rw [hw0]
        refine Eq.trans ?_ hkey
        unfold State.routeKey State.slot
        rw [hboot, hseced]
      rw [State.routeFrame_keyless hk hcount' hbit' (by rw [hw0]; exact hsec) hlen hkey']
      have hraise {p : Part} (h : p ∉ [.fresh, .link, .raised, .store, .trace]) :
          ((t.inc pk R.SEC_CNT.can_mac_fail).raise 47).part p = u.part p :=
        (State.raise_part _ _ (by simp at h; simp [h])).trans
          ((State.inc_part _ _ _ _ (by simp at h; simp [h])).trans (hpart (by simp at h; simp [h])))
      refine ⟨⟨hraise (p := .cl) (by simp), hraise (p := .axM) (by simp), hraise (p := .axS) (by simp), hraise (p := .can) (by simp),
        hraise (p := .status) (by simp)⟩, ?_, State.mem_raise fun d _ => rfl⟩
      rw [State.raise_f _ (by decide) (by decide), State.inc_f _ _ _ (by decide)]
      rw [show t.f pk R.SEC_CNT.can_mac_fail = u.f pk R.SEC_CNT.can_mac_fail from State.f_of_word (by
        rw [ht]
        refine u.rxCounted_word n ?_ ?_ <;> simp only [pk, canB, R.CAN_STAT.reg, R.CAN_CNT.reg, R.SEC_CNT.can_mac_fail] <;> omega)]
    · rw [State.routeFrame_value hk hcount' hbit' (by rw [hw0]; exact hplain) (by rw [hw0]; exact hraw)]
      obtain ⟨y, hy⟩ : ∃ y, y = t.routeNoted n ⟨k, hk⟩ := ⟨_, rfl⟩
      rw [← hy, hw0]
      have hy4 : y = (t.modRoute n ⟨k, hk⟩ fun r => { r with seen := true, seenAt := t.now }).setRouteW4 n k
          (putBits ((t.modRoute n ⟨k, hk⟩ fun r => { r with seen := true, seenAt := t.now }).routeW4 n k) 9 1 0) := hy
      have hypart {p : Part} (h : p ∉ [.can, .fresh, .store]) : y.part p = u.part p := by
        rw [hy4]
        exact (State.setRouteW4_part _ _ _ _ (by simp at h; simp [h])).trans
          ((State.modRoute_part _ _ _ _ (by simp at h; simp [h])).trans (hpart (by simp at h; simp [h])))
      have hkept : ∀ j, j ≠ ramAddr (at_ + 4) → y.word j = t.word j := by
        intro j hj
        rw [hy4]
        refine State.word_setWord_ne _ _ ?_
        rwa [show (t.modRoute n ⟨k, hk⟩ fun r => { r with seen := true, seenAt := t.now }).routeAt n k = at_ from hroute]
      have hyram {i : Nat} (h : i ≠ at_ + 4) : y.ram i = u.ram i :=
        (State.ram_of_word (hkept _ (by simp only [ramAddr]; omega))).trans (hram i)
      have hfar := hat 4 (by decide)
      have same : State.AxisView u y := State.axisView_congr (hypart (p := .cl) (by simp)) (hypart (p := .axM) (by simp))
        (hypart (p := .axS) (by simp)) fun j hj hj' =>
          (hkept j (by simp only [ramAddr, at_]; omega)).trans (hword (by have := n.isLt; omega))
      have hyauto : y.auto = u.auto := hypart (p := .auto) (by simp)
      obtain ⟨hlo, hhi⟩ := routeValue_bounds raw (y.ram (t.routeAt n k + 2)) (y.ram (t.routeAt n k + 3))
      have hissue := State.routeIssue_speed (s := y) (n := n) (i := ⟨k, hk⟩) (w0 := w0) (m := m) hkind hm
        (by rw [same.moCheck]; exact hcheck) (by rw [same.aMax]; exact hacc) (by rw [same.virt]; exact hvirt)
        (by rw [hyauto]; exact hrule) hlo hhi
      rw [same.vMax, same.aMax, hroute, hyram (i := at_ + 2) (by omega), hyram (i := at_ + 3) (by omega),
        show y.axM = u.axM from hypart (p := .axM) (by simp), show y.axS = u.axS from hypart (p := .axS) (by simp),
        show y.cl = u.cl from hypart (p := .cl) (by simp)] at hissue
      rw [hroute, hyram (i := at_ + 2) (by omega), hyram (i := at_ + 3) (by omega)]
      obtain ⟨hself, hother, hsteppers, hclusters⟩ := hissue
      exact ⟨hself, hother, hsteppers, hclusters, hpart (p := .status) (by simp)⟩
  · intro k w0 w4 hat hcount hon htime hseen hmark hdue
    exact ⟨fun h => State.gives_after (eff := (·.routeTimeout n k)) rfl hu
        (State.routeTimeout_mark hcount hon htime hseen hmark hdue h),
      fun cs h hg ha => State.gives_after (eff := (·.routeTimeout n k)) rfl hu
        (State.routeTimeout_safe hat hcount hon htime hseen hmark hdue h hg ha)⟩
end

section
/-! PROOFS. Transmission by a CAN controller (15_can_fd R426, R427, R431, R432, R435, 13_image_boot_and_security R373). -/

namespace Sys2Proof.Machine

/-! ## A controller and its transmit buffers -/

theorem State.modCan_self (s : State) (n : Can) (g : CanC → CanC) : (s.modCan n g).can[n] = g s.can[n] := upd_self ..

theorem State.modCan_other (s : State) (n : Can) (g : CanC → CanC) {m : Can} (h : m ≠ n) : (s.modCan n g).can[m] = s.can[m] :=
  upd_ne _ _ h

theorem State.modTx_self (s : State) (n : Can) (b : Fin 32) (g : TxBuf → TxBuf) :
    ((s.modTx n b g).can[n]).tx[b] = g (s.can[n]).tx[b] := by
  rw [show ((s.modTx n b g).can[n]) = { s.can[n] with tx := upd (s.can[n]).tx b (g (s.can[n]).tx[b]) } from State.modCan_self ..]
  exact upd_self ..

theorem State.modTx_other (s : State) (n : Can) {b c : Fin 32} (g : TxBuf → TxBuf) (h : c ≠ b) :
    ((s.modTx n b g).can[n]).tx[c] = (s.can[n]).tx[c] := by
  rw [show ((s.modTx n b g).can[n]) = { s.can[n] with tx := upd (s.can[n]).tx b (g (s.can[n]).tx[b]) } from State.modCan_self ..]
  exact upd_ne _ _ h

theorem State.modTx_mode (s : State) (n : Can) (b : Fin 32) (g : TxBuf → TxBuf) :
    ((s.modTx n b g).can[n]).mode = (s.can[n]).mode := by
  unfold State.modTx
  rw [State.modCan_self]

theorem State.cset_can (s : State) (n : Can) (f : Fld) (v : Nat) : (s.cset n f v).can = s.can :=
  State.cset_part (p := .can) _ _ _ _ (by simp)

theorem State.cinc_can (s : State) (n : Can) (f : Fld) : (s.cinc n f).can = s.can := State.cinc_part (p := .can) _ _ _ (by simp)

theorem State.canState_can (s : State) (n : Can) : (s.canState n).can = s.can := State.canState_part (p := .can) _ _ (by simp)

theorem State.cset_cf_other (s : State) (n : Can) (f : Fld) (v : Nat) {g : Fld} (h : g.off ≠ f.off) :
    (s.cset n f v).cf n g = s.cf n g := State.f_of_word (State.cset_word _ _ _ _ (by omega))

theorem State.cset_cf_self (s : State) (n : Can) (f : Fld) (v : Nat) (hf : f.lo + f.w ≤ 32) :
    (s.cset n f v).cf n f = v % 2 ^ f.w := State.f_setF_self _ _ _ _ hf

theorem State.cset_cf_apart (s : State) (n : Can) (f : Fld) (v : Nat) {g : Fld} (hf : f.lo + f.w ≤ 32)
    (h : g.lo + g.w ≤ f.lo ∨ f.lo + f.w ≤ g.lo) : (s.cset n f v).cf n g = s.cf n g := State.f_setF_apart _ _ _ _ _ _ hf h

theorem State.cset_ram (s : State) (n : Can) (f : Fld) (v i : Nat) (hf : f.off < 0x400) : (s.cset n f v).ram i = s.ram i := by
  refine State.ram_of_word (State.cset_word _ _ _ _ ?_)
  have hn := n.isLt
  simp only [ramAddr, canB]
  omega

theorem State.cf_of_word {s t : State} {n : Can} {g : Fld} (h : s.word (canB n + g.off) = t.word (canB n + g.off)) :
    s.cf n g = t.cf n g := State.f_of_word h

/-- A store of message RAM is no store of a register. -/
theorem State.setRam_cf (s : State) (n : Can) (i w : Nat) {g : Fld} (hg : g.off < 0x400) : (s.setRam i w).cf n g = s.cf n g :=
  State.cf_of_word (State.setRam_word_low _ _ _ (by have := n.isLt; simp only [canB]; omega))

theorem State.setRam_txAt (s : State) (n : Can) (b i w : Nat) : (s.setRam i w).txAt n b = s.txAt n b := by
  unfold State.txAt
  rw [State.setRam_cf _ _ _ _ (by decide), State.setRam_cf _ _ _ _ (by decide)]

/-! ## The end of a buffer -/

/-- A buffer that waits no longer. -/
def TxBuf.over (t : TxBuf) : TxBuf := { t with pend := false, cancel := false, single := false, attempts := 0 }

/-- What the end of a buffer with an outcome leaves. -/
structure State.BufferOut (s : State) (n : Can) (out : Nat) (b : Fin 32) (e : State) : Prop where
  can : e.can = (s.modTx n b TxBuf.over).can
  others : ∀ p : Part, p ∉ [.can, .store] → e.part p = s.part p
  outcome : e.ram (s.txAt n b.val + 1) / 2 ^ 29 = out
  done : out = 1 → bitAt (e.cf n R.CAN_TX_DONE.done) b.val = true
  fields : ∀ g : Fld, g.off < R.CAN_TX_DONE.reg → e.cf n g = s.cf n g
  missed : e.cf n R.CAN_TT_STAT.sched_miss = s.cf n R.CAN_TT_STAT.sched_miss

theorem State.txOut_view (s : State) (n : Can) {out : Nat} (hout : out < 8) (b : Fin 32) : State.BufferOut s n out b (s.txOut n out b) := by
  obtain ⟨a, ha⟩ : ∃ a, a = s.txAt n b.val + 1 := ⟨_, rfl⟩
  obtain ⟨s1, h1⟩ : ∃ t, t = s.modTx n b TxBuf.over := ⟨_, rfl⟩
  obtain ⟨s2, h2⟩ : ∃ t, t = s1.setRam a (s1.ram a % 2 ^ 29 + out * 2 ^ 29) := ⟨_, rfl⟩
  obtain ⟨f, hf⟩ : ∃ f, f = if out = 1 then R.CAN_TX_DONE.done else R.CAN_TX_FAIL.fail := ⟨_, rfl⟩
  obtain ⟨s3, h3⟩ : ∃ t, t = s2.cset n f (Nat.lor (s2.cf n f) (2 ^ b.val)) := ⟨_, rfl⟩
  have he : s.txOut n out b = if out ≠ 1 ∧ s3.cf n R.CAN_TT.role = 1 ∧ s3.cf n R.CAN_TT.ref_buf = b.val
      then s3.cinc n R.CAN_TT_STAT.ref_lost_count else s3 := by
    subst h3 hf h2 h1 ha
    rfl
  have hoff : R.CAN_TX_DONE.reg ≤ f.off ∧ f.off ≤ R.CAN_TX_FAIL.reg := by
    rw [hf]
    split <;> decide
  have hstore1 (p : Part) (h : p ∉ [.can]) : s1.part p = s.part p := by rw [h1]; exact State.modTx_part _ _ _ _ h
  have hw1 (k : Nat) : s1.word k = s.word k := word_of_part (hstore1 .store (by simp)) k
  have hram1 (i : Nat) : s1.ram i = s.ram i := State.ram_of_word (hw1 _)
  have hcf2 {g : Fld} (hg : g.off < 0x400) : s2.cf n g = s.cf n g := by
    rw [h2, State.setRam_cf _ _ _ _ hg]
    exact State.cf_of_word (hw1 _)
  have hend {P : State → Prop} (hp : P s3) (hp' : P (s3.cinc n R.CAN_TT_STAT.ref_lost_count)) : P (s.txOut n out b) := by
    rw [he]
    split
    · exact hp'
    · exact hp
  have hcan : s3.can = s1.can := by
    rw [h3, State.cset_can, h2]
    exact State.setRam_part (p := .can) _ _ _ (by simp)
  have hothers (p : Part) (h : p ∉ [.can, .store]) : s3.part p = s.part p := by
    rw [h3, State.cset_part _ _ _ _ (by simp at h; simp [h]), h2, State.setRam_part _ _ _ (by simp at h; simp [h])]
    exact hstore1 p (by simp at h; simp [h])
  have hout3 : s3.ram a / 2 ^ 29 = out := by
    rw [h3, State.cset_ram _ _ _ _ _ (by have := hoff.2; simp only [R.CAN_TX_FAIL.reg] at this; omega), h2, State.setRam_ram]
    omega
  have hfields (g : Fld) (hg : g.off < R.CAN_TX_DONE.reg) : s3.cf n g = s.cf n g := by
    rw [h3, State.cset_cf_other _ _ _ _ (by omega), hcf2 (by simp only [R.CAN_TX_DONE.reg] at hg; omega)]
  have hmissed : s3.cf n R.CAN_TT_STAT.sched_miss = s.cf n R.CAN_TT_STAT.sched_miss := by
    rw [h3, State.cset_cf_other _ _ _ _ (by
      have := hoff.2; simp only [R.CAN_TX_FAIL.reg, R.CAN_TT_STAT.sched_miss] at this ⊢; omega), hcf2 (by decide)]
  have hdone (ho : out = 1) : bitAt (s3.cf n R.CAN_TX_DONE.done) b.val = true := by
    rw [if_pos ho] at hf
    rw [h3, hf, State.cset_cf_self _ _ _ _ (by decide)]
    exact bitAt_lor _ b.isLt
  refine ⟨?_, fun p hp => ?_, ?_, fun ho => ?_, fun g hg => ?_, ?_⟩
  · rw [← h1]
    exact hend (P := fun t => t.can = s1.can) hcan ((State.cinc_can ..).trans hcan)
  · exact hend (P := fun t => t.part p = s.part p) (hothers p hp) ((State.cinc_part _ _ _ (by simp at hp; simp [hp])).trans (hothers p hp))
  · rw [← ha]
    exact hend (P := fun t => t.ram a / 2 ^ 29 = out) hout3 (by
      rw [show (s3.cinc n R.CAN_TT_STAT.ref_lost_count).ram a = s3.ram a from State.cset_ram _ _ _ _ _ (by decide)]; exact hout3)
  · exact hend (P := fun t => bitAt (t.cf n R.CAN_TX_DONE.done) b.val = true) (hdone ho) (by
      rw [show (s3.cinc n R.CAN_TT_STAT.ref_lost_count).cf n R.CAN_TX_DONE.done = _ from State.cset_cf_other _ _ _ _ (by decide)]
      exact hdone ho)
  · refine hend (P := fun t => t.cf n g = s.cf n g) (hfields g hg) ((State.cset_cf_other _ _ _ _ ?_).trans (hfields g hg))
    simp only [R.CAN_TX_DONE.reg, R.CAN_TT_STAT.ref_lost_count] at hg ⊢
    omega
  · exact hend (P := fun t => t.cf n R.CAN_TT_STAT.sched_miss = s.cf n R.CAN_TT_STAT.sched_miss) hmissed
      ((State.cset_cf_apart _ _ _ _ (by decide) (.inl (by decide))).trans hmissed)

theorem State.gives_hostAct_eq {s u e : State} {dt : Nat} {i : Instr} {act : State → State} {P : State → Prop}
    (hx : exec i s = s.after dt (·.hostAct act)) (hu : s.elapse dt = u) (ho : u.hostOpen) (he : act u.asked = e) (hp : P e) :
    s.Gives i dt P := State.gives_hostAct hx hu ho (he ▸ hp)

theorem State.gives_eq {s u e : State} {dt : Nat} {i : Instr} {eff : State → State} {P : State → Prop}
    (hx : exec i s = s.after dt eff) (hu : s.elapse dt = u) (he : eff u = e) (hp : P e) : s.Gives i dt P :=
  State.gives_after hx hu (he ▸ hp)

/-! ## Requests -/

/-- A buffer that has been requested. -/
def TxBuf.requested (t : TxBuf) (now : Nat) (single : Bool) : TxBuf :=
  { t with pend := true, reqAt := now, attempts := 0, cancel := false, single := single }

/-- A buffer of the list that is not pending and has no transmit route becomes pending. -/
theorem State.txRequest_plain {s : State} {n : Can} {b : Fin 32} (single : Bool) (hb : b.val < s.cf n R.CAN_TXB.count)
    (hm : (s.can[n]).mode ≠ 0) (hp : ((s.can[n]).tx[b]).pend = false) (hr : bitAt (s.txW1 n b.val) 11 = false) :
    s.txRequest n b single = s.modTx n b (·.requested s.now single) := by
  unfold State.txRequest
  rw [if_neg (by rw [hp]; simp only [Bool.false_eq_true, or_false, not_or]; exact ⟨Nat.not_le.2 hb, hm⟩)]
  dsimp only
  rw [if_neg (by rw [hr]; simp)]
  rfl

/-- Requests of a list of buffers, each of which is plain: every one becomes pending, and nothing else changes. -/
theorem State.each_txRequest (n : Can) (l : List (Fin 32)) (hl : l.Nodup) (s : State) (hm : (s.can[n]).mode ≠ 0)
    (h : ∀ b ∈ l, b.val < s.cf n R.CAN_TXB.count ∧ ((s.can[n]).tx[b]).pend = false ∧ bitAt (s.txW1 n b.val) 11 = false
      ∧ s.scheduled n b.val = false) :
    let e := s.each l fun b s => if s.scheduled n b.val then s else s.txRequest n b false
    e = { s with can := e.can } ∧ (∀ m : Can, m ≠ n → e.can[m] = s.can[m])
      ∧ ∀ b : Fin 32, (e.can[n]).tx[b] = if b ∈ l then ((s.can[n]).tx[b]).requested s.now false else (s.can[n]).tx[b] := by
  induction l generalizing s with
  | nil => exact ⟨rfl, fun _ _ => rfl, fun b => (if_neg (by simp)).symm⟩
  | cons c l ih =>
    intro e
    obtain ⟨hb, hp, hr, hs⟩ := h c (by simp)
    obtain ⟨hc, hl⟩ := List.nodup_cons.1 hl
    obtain ⟨s', hs'⟩ : ∃ s', s' = s.modTx n c (·.requested s.now false) := ⟨_, rfl⟩
    have he : e = s'.each l fun b s => if s.scheduled n b.val then s else s.txRequest n b false := by
      show State.each s (c :: l) _ = _
      rw [State.each_cons, hs, if_neg Bool.false_ne_true, State.txRequest_plain false hb hm hp hr, hs']
    have hother {b : Fin 32} (hbc : b ≠ c) : (s'.can[n]).tx[b] = (s.can[n]).tx[b] := by rw [hs']; exact State.modTx_other _ _ _ hbc
    have hmode : (s'.can[n]).mode = (s.can[n]).mode := by
      rw [hs', State.modTx_mode]
    have hstep := ih hl s' (by rw [hmode]; exact hm) fun b hbl => by
      obtain ⟨h1, h2, h3, h4⟩ := h b (by simp [hbl])
      rw [hother (fun heq => hc (heq ▸ hbl)), hs']
      exact ⟨h1, h2, h3, h4⟩
    rw [← he] at hstep
    obtain ⟨hsame, hcans, htx⟩ := hstep
    refine ⟨?_, fun m hmn => (hcans m hmn).trans (by rw [hs']; exact State.modCan_other _ _ _ hmn), fun b => ?_⟩
    · rw [hs'] at hsame
      exact hsame
    · rw [htx b]
      by_cases hbc : b = c
      · rw [hbc, if_neg hc, if_pos (by simp), hs']
        exact State.modTx_self ..
      · rw [hother hbc, show s'.now = s.now by rw [hs']; rfl]
        by_cases hbl : b ∈ l
        · rw [if_pos hbl, if_pos (by simp [hbl])]
        · rw [if_neg hbl, if_neg (by simp [hbl, hbc])]

theorem mem_maskBufs (w : Word) (b : Fin 32) : b ∈ maskBufs w ↔ bitAt w.toNat b.val = true := by
  unfold maskBufs
  simp

theorem maskBufs_single : ∀ b : Fin 32, maskBufs (BitVec.ofNat 32 (2 ^ b.val)) = [b] := by decide

/-- A buffer whose period has expired is requested, and its period begins again. -/
theorem State.txPeriod_due {s : State} {n : Can} {b : Fin 32} {per : Nat} (hper : 500000 * bitsAt (s.txW1 n b.val) 17 12 = per)
    (hb : b.val < s.cf n R.CAN_TXB.count) (hm : (s.can[n]).mode ≠ 0) (hp : ((s.can[n]).tx[b]).pend = false)
    (hr : bitAt (s.txW1 n b.val) 11 = false) (hst : s.cf n R.CAN_STAT.state ≠ 3) (hs : s.scheduled n b.val = false)
    (h0 : per ≠ 0) (hdue : ((s.can[n]).tx[b]).perAt + per ≤ s.now) :
    s.txPeriod n b = (s.modTx n b fun t => { t with perAt := s.now - (s.now - t.perAt) % per }).modTx n b
      (·.requested s.now false) := by
  obtain ⟨y, hy⟩ : ∃ y, y = s.modTx n b fun t => { t with perAt := s.now - (s.now - t.perAt) % per } := ⟨_, rfl⟩
  have hpart {p : Part} (h : p ∉ [.can]) : y.part p = s.part p := by rw [hy]; exact State.modTx_part _ _ _ _ h
  have hstore : y.part .store = s.part .store := hpart (by simp)
  have hcf (f : Fld) : y.cf n f = s.cf n f := State.f_of_part hstore _ _
  have hpend : ((y.can[n]).tx[b]).pend = false := by
    rw [hy, State.modTx_self]
    exact hp
  have hw1 : y.txW1 n b.val = s.txW1 n b.val := by rw [hy]; rfl
  have hsched : y.scheduled n b.val = false := by rw [hy]; exact hs
  have hnow : y.now = s.now := hpart (p := .now) (by simp)
  unfold State.txPeriod
  dsimp only
  rw [hper, if_pos ⟨hb, h0, hdue⟩, ← hy, if_pos ⟨by rw [hcf]; exact hst, by rw [hsched]; rfl⟩,
    State.txRequest_plain false (by rw [hcf]; exact hb) (by rw [hy, State.modTx_mode]; exact hm) hpend (by rw [hw1]; exact hr), hnow]

/-! ## The end of an attempt -/

/-- A state that differs from another in one controller's record, its registers of status and counts, and the sources of
faults. -/
structure State.AttemptOver (s : State) (n : Can) (g : CanC → CanC) (e : State) : Prop where
  can : e.can = (s.modCan n g).can
  others : ∀ p : Part, p ∉ [.can, .rails, .store] → e.part p = s.part p
  fields : ∀ f : Fld, 3 ≤ f.off → f.off < 0x400 → e.cf n f = s.cf n f
  ram : ∀ i, e.ram i = s.ram i

theorem State.modCan_word (s : State) (n : Can) (g : CanC → CanC) (k : Nat) : (s.modCan n g).word k = s.word k :=
  State.word_of_part (State.modCan_part (p := .store) s n g (by simp)) k

/-- An attempt that ends in an error other than a missing acknowledgement, short of bus-off. -/
theorem State.txError_view (s : State) (n : Can) {x : BusErr} (hx : x ≠ .ack) (d dom : Bool) (htec : s.cf n R.CAN_STAT.tec ≤ 247) :
    State.AttemptOver s n (fun c => { c with ackRun := 0, lastEnd := s.now }) (s.txError n x d dom)
      ∧ (s.txError n x d dom).cf n R.CAN_STAT.tec = s.cf n R.CAN_STAT.tec + 8 := by
  obtain ⟨f, hf⟩ : ∃ f, f = if d then R.CAN_STAT.dlec else R.CAN_STAT.lec := ⟨_, rfl⟩
  have hoff : f.off = 1 ∧ f.lo + f.w ≤ 32 ∧ 13 ≤ f.lo := by
    rw [hf]
    split <;> decide
  obtain ⟨s1, h1⟩ : ∃ t, t = s.cset n f (errCode x) := ⟨_, rfl⟩
  have htec1 : s1.cf n R.CAN_STAT.tec = s.cf n R.CAN_STAT.tec := by
    rw [h1]
    exact State.cset_cf_apart _ _ _ _ hoff.2.1 (.inl hoff.2.2)
  have hquiet : (s1.cf n R.CAN_STAT.state == 2 && x == BusErr.ack && !dom) = false := by
    rw [beq_eq_false_iff_ne.2 hx, Bool.and_false, Bool.false_and]
  have he : s.txError n x d dom = ((s1.cset n R.CAN_STAT.tec (s.cf n R.CAN_STAT.tec + 8)).modCan n fun c =>
      { c with ackRun := 0, lastEnd := s.now }).canState n := by
    have h1' : s.noteErr n x d = s1 := by rw [h1, hf]; rfl
    have hmin : Nat.min 511 (s.cf n R.CAN_STAT.tec + 8) = s.cf n R.CAN_STAT.tec + 8 := Nat.min_eq_right (by omega)
    have hnow : s1.now = s.now := by rw [h1]; rfl
    unfold State.txError
    rw [h1']
    dsimp only
    rw [hquiet, htec1, if_neg Bool.false_ne_true, if_neg hx, hmin, if_neg (show ¬ 3 ≤ 0 by decide), if_neg (by omega), ← hnow]
    rfl
  have hword {k : Nat} (h : k ≠ canB n + 1) : (s.txError n x d dom).word k = s.word k := by
    rw [he, State.canState_word _ _ h, State.modCan_word, State.cset_word _ _ _ _ h, h1]
    exact State.cset_word _ _ _ _ (by rw [hoff.1]; exact h)
  refine ⟨⟨?_, fun p hp => ?_, fun f hf _ => State.cf_of_word (hword (by omega)), fun i => State.ram_of_word (hword ?_)⟩, ?_⟩
  · rw [he, State.canState_can]
    unfold State.modCan
    dsimp only
    rw [State.cset_can, h1, State.cset_can]
  · rw [he, State.canState_part _ _ (by simp at hp; simp [hp]), State.modCan_part _ _ _ (by simp at hp; simp [hp]),
      State.cset_part _ _ _ _ (by simp at hp; simp [hp]), h1, State.cset_part _ _ _ _ (by simp at hp; simp [hp])]
  · simp only [ramAddr, canB]
    omega
  · rw [he, State.canState_f _ _ (by decide)]
    refine (State.cf_of_word (State.modCan_word ..)).trans ((State.cset_cf_self _ _ _ _ (by decide)).trans (Nat.mod_eq_of_lt ?_))
    show _ < 2 ^ 9
    omega

/-- An attempt that succeeds. -/
theorem State.txGood_view (s : State) (n : Can) :
    State.AttemptOver s n (fun c => { c with ackRun := 0, lastEnd := s.now }) (s.txGood n)
      ∧ (s.txGood n).cf n R.CAN_STAT.tec = s.cf n R.CAN_STAT.tec - 1 ∧ (s.txGood n).cf n R.CAN_STAT.no_ack = 0 := by
  obtain ⟨s1, h1⟩ : ∃ t, t = (s.cset n R.CAN_STAT.tec (s.cf n R.CAN_STAT.tec - 1)).canState n := ⟨_, rfl⟩
  obtain ⟨s2, h2⟩ : ∃ t, t = (s1.modCan n fun c => { c with ackRun := 0 }).cset n R.CAN_STAT.no_ack 0 := ⟨_, rfl⟩
  obtain ⟨s3, h3⟩ : ∃ t, t = (s2.assertOff (evNoAck n)).cinc n R.CAN_CNT.tx_ok := ⟨_, rfl⟩
  have he : s.txGood n = s3.modCan n fun c => { c with lastEnd := s3.now } := by
    rw [h3, h2, h1]; rfl
  have hn := n.isLt
  have hoff {k : Nat} (hk : 0x1080 ≤ k) (hk' : k < 0xA000 ∨ 0xA040 ≤ k) : (s2.assertOff (evNoAck n)).word k = s2.word k := by
    refine State.assertOff_word _ (by unfold evNoAck; omega) ?_
    simp only [raiseWrites, Bool.or_eq_false_iff, Bool.and_eq_false_iff, decide_eq_false_iff_not]
    omega
  have hnow : s3.now = s.now := by
    rw [show s3.now = s2.now by
      rw [h3]; exact (State.cinc_part (p := .now) _ _ _ (by simp)).trans (State.assertOff_part (p := .now) _ _ (by simp)), h2]
    rw [show ((s1.modCan n fun c => { c with ackRun := 0 }).cset n R.CAN_STAT.no_ack 0).now = s1.now from
      (State.cset_part (p := .now) _ _ _ _ (by simp)).trans (State.modCan_part (p := .now) _ _ _ (by simp)), h1]
    exact (State.canState_part (p := .now) _ _ (by simp)).trans (State.cset_part (p := .now) _ _ _ _ (by simp))
  have hcan1 : s1.can = s.can := by rw [h1, State.canState_can, State.cset_can]
  have hcan3 : s3.can = (s.modCan n fun c => { c with ackRun := 0 }).can := by
    rw [h3, State.cinc_can, show (s2.assertOff (evNoAck n)).can = s2.can from State.assertOff_part (p := .can) _ _ (by simp), h2,
      State.cset_can]
    unfold State.modCan
    dsimp only
    rw [hcan1]
  have hword3 {k : Nat} (h : k ≠ canB n + 2) (hk : 0x1080 ≤ k) (hk' : k < 0xA000 ∨ 0xA040 ≤ k) : s3.word k = s2.word k := by
    rw [h3, State.cinc_word _ _ _ h, hoff hk hk']
  have hword {k : Nat} (h : k ≠ canB n + 1) (h' : k ≠ canB n + 2) (hk : 0x1080 ≤ k) (hk' : k < 0xA000 ∨ 0xA040 ≤ k) :
      (s.txGood n).word k = s.word k := by
    rw [he, State.modCan_word, hword3 h' hk hk', h2, State.cset_word _ _ _ _ h, State.modCan_word, h1, State.canState_word _ _ h]
    exact State.cset_word _ _ _ _ h
  have hstat (f : Fld) (hf : f.off = 1) : (s.txGood n).cf n f = s2.cf n f := by
    refine State.cf_of_word ?_
    rw [he, State.modCan_word]
    exact hword3 (by omega) (by simp only [canB]; omega) (by simp only [canB]; omega)
  refine ⟨⟨?_, fun p hp => ?_, fun f hf hf' => ?_, fun i => ?_⟩, ?_, ?_⟩
  · rw [he, hnow]
    refine Vector.ext fun k hk => ?_
    by_cases h : k = n.val
    · subst h
      refine (State.modCan_self s3 n _).trans ((State.modCan_self s n _).trans ?_).symm
      rw [hcan3, State.modCan_self]
    · refine (State.modCan_other s3 n _ (m := ⟨k, hk⟩) (fun e => h (congrArg Fin.val e))).trans ?_
      refine Eq.trans ?_ (State.modCan_other s n _ (m := ⟨k, hk⟩) (fun e => h (congrArg Fin.val e))).symm
      rw [hcan3]
      exact State.modCan_other s n _ (m := ⟨k, hk⟩) (fun e => h (congrArg Fin.val e))
  · rw [he, State.modCan_part _ _ _ (by simp at hp; simp [hp]), h3, State.cinc_part _ _ _ (by simp at hp; simp [hp]),
      State.assertOff_part _ _ (by simp at hp; simp [hp]), h2, State.cset_part _ _ _ _ (by simp at hp; simp [hp]),
      State.modCan_part _ _ _ (by simp at hp; simp [hp]), h1, State.canState_part _ _ (by simp at hp; simp [hp]),
      State.cset_part _ _ _ _ (by simp at hp; simp [hp])]
  · exact State.cf_of_word (hword (by omega) (by omega) (by simp only [canB]; omega) (.inl (by simp only [canB]; omega)))
  · exact State.ram_of_word (hword (by simp only [ramAddr, canB]; omega) (by simp only [ramAddr, canB]; omega)
      (by simp only [ramAddr]; omega) (.inr (by simp only [ramAddr]; omega)))
  · rw [hstat _ rfl, h2, State.cset_cf_apart _ _ _ _ (by decide) (.inl (by decide)),
      show (s1.modCan n fun c => { c with ackRun := 0 }).cf n R.CAN_STAT.tec = s1.cf n R.CAN_STAT.tec from
        State.cf_of_word (State.modCan_word ..), h1, State.canState_f _ _ (by decide), State.cset_cf_self _ _ _ _ (by decide)]
    exact Nat.mod_eq_of_lt (Nat.lt_of_le_of_lt (Nat.sub_le _ _) (State.f_lt s _ R.CAN_STAT.tec))
  · rw [hstat _ rfl, h2, State.cset_cf_self _ _ _ _ (by decide)]
    rfl

namespace State.BufferOut
variable {s e : State} {n : Can} {out : Nat} {b : Fin 32}

theorem self (h : State.BufferOut s n out b e) : (e.can[n]).tx[b] = ((s.can[n]).tx[b]).over := by
  rw [h.can]
  exact State.modTx_self ..

theorem other (h : State.BufferOut s n out b e) {c : Fin 32} (hc : c ≠ b) : (e.can[n]).tx[c] = (s.can[n]).tx[c] := by
  rw [h.can]
  exact State.modTx_other _ _ _ hc

end State.BufferOut

theorem State.loopIn_off {s : State} {n : Can} (h : (s.can[n]).mode ≠ 3) (f : Frame) : s.loopIn n f = s := if_neg h

section
variable {s : State} {n : Can} {b : Fin 32}

/-- An attempt of a buffer that ends well ends the buffer. -/
theorem State.txBufEnd_ok (hmay : s.txMay n b = true) (hm : (s.can[n]).mode = 1) :
    s.txBufEnd n b .ok = ((s.txGood n).modTx n b fun t => { t with clash := 0 }).txOut n 1 b := by
  obtain ⟨y, hy⟩ : ∃ y, y = (s.txGood n).modTx n b fun t => { t with clash := 0 } := ⟨_, rfl⟩
  have hmode : (((y.txOut n 1 b).can[n]).mode) = 1 := by
    rw [(y.txOut_view n (by decide) b).can, State.modTx_mode, hy, State.modTx_mode, (s.txGood_view n).1.can, State.modCan_self]
    exact hm
  unfold State.txBufEnd
  rw [hmay, if_neg (by decide)]
  dsimp only
  rw [← hy]
  exact State.loopIn_off (by rw [hmode]; decide) _

theorem State.txBufEnd_error (hmay : s.txMay n b = true) (hm : (s.can[n]).mode = 1) (x : BusErr) (d dom : Bool) :
    s.txBufEnd n b (.error x d dom) = (s.txError n x d dom).txFailed n b false := by
  unfold State.txBufEnd
  rw [hmay, if_neg (by decide)]
  dsimp only
  rw [if_neg (by rw [hm]; decide)]

theorem State.txBufEnd_clash (hmay : s.txMay n b = true) (hm : (s.can[n]).mode = 1) (d : Bool) :
    s.txBufEnd n b (.clash d) = (s.txError n .bit1 d false).txFailed n b true := by
  unfold State.txBufEnd
  rw [hmay, if_neg (by decide)]
  dsimp only
  rw [if_neg (by rw [hm]; decide)]

theorem State.txBufEnd_arbLost (hmay : s.txMay n b = true) (hm : (s.can[n]).mode = 1) (hc : ((s.can[n]).tx[b]).cancel = false) :
    s.txBufEnd n b .arbLost = s.modCan n fun c => { c with lastEnd := s.now } := by
  have hcancel : (((s.modCan n fun c => { c with lastEnd := s.now }).can[n]).tx[b]).cancel = false := by
    rw [State.modCan_self]
    exact hc
  unfold State.txBufEnd
  rw [hmay, if_neg (by decide)]
  dsimp only
  rw [if_neg (by rw [hm]; decide), hcancel, if_neg Bool.false_ne_true]

/-- An error within the retry limit leaves the buffer pending. -/
theorem State.txFailed_retried (hp : ((s.can[n]).tx[b]).pend = true) (hc : ((s.can[n]).tx[b]).cancel = false)
    (hs : ((s.can[n]).tx[b]).single = false) (ha : ((s.can[n]).tx[b]).attempts < bitsAt (s.txW1 n b.val) 6 5) :
    s.txFailed n b false = s.modTx n b fun t => { t with attempts := t.attempts + 1, clash := 0 } := by
  obtain ⟨y, hy⟩ : ∃ y, y = s.modTx n b fun t => { t with attempts := t.attempts + 1, clash := 0 } := ⟨_, rfl⟩
  have ht : (y.can[n]).tx[b] = { (s.can[n]).tx[b] with attempts := ((s.can[n]).tx[b]).attempts + 1, clash := 0 } := by
    rw [hy]
    exact State.modTx_self ..
  have hw1 : y.txW1 n b.val = s.txW1 n b.val := by rw [hy]; rfl
  have he : s.txFailed n b false = if (!((y.can[n]).tx[b]).pend) = true then y else if ((y.can[n]).tx[b]).cancel then y.txOut n 5 b
      else if 3 ≤ ((y.can[n]).tx[b]).clash then
        (((y.modTx n b fun t => { t with clash := 0 }).txOut n 3 b).cinc n R.CAN_CNT2.clash_count).raise (evClash n)
      else if ((y.can[n]).tx[b]).single ∨ bitsAt (y.txW1 n b.val) 6 5 < ((y.can[n]).tx[b]).attempts then y.txOut n 2 b else y := by
    rw [hy]
    rfl
  rw [he, ht, hw1]
  dsimp only
  rw [hp, hc, hs, if_neg (by decide), if_neg Bool.false_ne_true, if_neg (by decide),
    if_neg (not_or.2 ⟨Bool.false_ne_true, by omega⟩), hy]

/-- The cancel of one pending buffer marks it or ends it. -/
theorem State.txCancelCmd_single (hp : ((s.can[n]).tx[b]).pend = true) :
    s.txCancelCmd n (BitVec.ofNat 32 (2 ^ b.val)) = (s.drawn.modTx n b fun t => { t with cancel := true }).answer .ok
      ∨ s.txCancelCmd n (BitVec.ofNat 32 (2 ^ b.val)) = (s.drawn.txOut n 5 b).answer .ok
      ∨ s.txCancelCmd n (BitVec.ofNat 32 (2 ^ b.val)) = (s.txOut n 5 b).answer .ok := by
  have he : s.txCancelCmd n (BitVec.ofNat 32 (2 ^ b.val)) = (if (!((s.can[n]).tx[b]).pend) = true then s
      else if s.txMay n b then
        if (s.freeNat % 2 == 1) = true then s.drawn.modTx n b fun t => { t with cancel := true } else s.drawn.txOut n 5 b
      else s.txOut n 5 b).answer .ok := by
    unfold State.txCancelCmd
    rw [maskBufs_single]
    rfl
  rw [he, hp, if_neg (by decide)]
  split
  · split
    · exact .inl rfl
    · exact .inr (.inl rfl)
  · exact .inr (.inr rfl)

/-- A buffer after its third clash in a row. -/
def State.clashed (s : State) (n : Can) (b : Fin 32) : State :=
  (s.modTx n b fun t => { t with attempts := t.attempts + 1, clash := t.clash + 1 }).modTx n b fun t => { t with clash := 0 }

/-- The third clash in a row ends the buffer. -/
theorem State.txFailed_clashed (hp : ((s.can[n]).tx[b]).pend = true) (hc : ((s.can[n]).tx[b]).cancel = false)
    (hcl : 2 ≤ ((s.can[n]).tx[b]).clash) :
    s.txFailed n b true = (((s.clashed n b).txOut n 3 b).cinc n R.CAN_CNT2.clash_count).raise (evClash n) := by
  obtain ⟨y, hy⟩ : ∃ y, y = s.modTx n b fun t => { t with attempts := t.attempts + 1, clash := t.clash + 1 } := ⟨_, rfl⟩
  have ht : (y.can[n]).tx[b] = { (s.can[n]).tx[b] with
      attempts := ((s.can[n]).tx[b]).attempts + 1, clash := ((s.can[n]).tx[b]).clash + 1 } := by
    rw [hy]
    exact State.modTx_self ..
  have he : s.txFailed n b true = if (!((y.can[n]).tx[b]).pend) = true then y else if ((y.can[n]).tx[b]).cancel then y.txOut n 5 b
      else if 3 ≤ ((y.can[n]).tx[b]).clash then
        (((y.modTx n b fun t => { t with clash := 0 }).txOut n 3 b).cinc n R.CAN_CNT2.clash_count).raise (evClash n)
      else if ((y.can[n]).tx[b]).single ∨ bitsAt (y.txW1 n b.val) 6 5 < ((y.can[n]).tx[b]).attempts then y.txOut n 2 b else y := by
    rw [hy]
    rfl
  rw [he, ht, show s.clashed n b = y.modTx n b fun t => { t with clash := 0 } by rw [hy]; rfl]
  dsimp only
  rw [hp, hc, if_neg (by decide), if_neg Bool.false_ne_true, if_pos (by omega)]

/-! ## What each row leaves -/

/-- The clusters, the axes, the gates and the flash are as they were. -/
def State.Framed (s e : State) : Prop := e.cl = s.cl ∧ e.axM = s.axM ∧ e.axS = s.axS ∧ e.gates = s.gates ∧ e.flash = s.flash

theorem State.framed_of_parts {s e : State} (h : ∀ p : Part, p ∉ [.can, .fresh, .link, .rails, .raised, .status, .store, .trace] →
    e.part p = s.part p) : s.Framed e :=
  ⟨h .cl (by simp), h .axM (by simp), h .axS (by simp), State.gates_eq fun o => h _ (by simp), h .flash (by simp)⟩

theorem State.txAt_of_fields {s t : State} (h : ∀ f : Fld, f.off = R.CAN_TXB.reg → t.cf n f = s.cf n f) (k : Nat) : t.txAt n k = s.txAt n k := by
  unfold State.txAt
  rw [h _ rfl, h _ rfl]

theorem State.txCancelCmd_view (hp : ((s.can[n]).tx[b]).pend = true) :
    let e := s.txCancelCmd n (BitVec.ofNat 32 (2 ^ b.val))
    e.status = .ok ∧ (((e.can[n]).tx[b]).cancel = true ∨ ((e.can[n]).tx[b]).pend = false ∧ e.ram (s.txAt n b.val + 1) / 2 ^ 29 = 5)
      ∧ (∀ c : Fin 32, c ≠ b → (e.can[n]).tx[c] = (s.can[n]).tx[c]) ∧ s.Framed e := by
  intro e
  have hout (t : State) (ht : ∀ p : Part, p ∉ [.fresh] → t.part p = s.part p) (he : e = (t.txOut n 5 b).answer .ok) :
      e.status = .ok ∧ (((e.can[n]).tx[b]).cancel = true ∨ ((e.can[n]).tx[b]).pend = false ∧ e.ram (s.txAt n b.val + 1) / 2 ^ 29 = 5)
        ∧ (∀ c : Fin 32, c ≠ b → (e.can[n]).tx[c] = (s.can[n]).tx[c]) ∧ s.Framed e := by
    have hview := t.txOut_view n (by decide : 5 < 8) b
    have hcan : t.can = s.can := ht .can (by simp)
    have hat : t.txAt n b.val = s.txAt n b.val := State.txAt_of_fields (fun f _ => State.f_of_part (ht .store (by simp)) _ _) _
    obtain ⟨z, hz⟩ : ∃ z, z = t.txOut n 5 b := ⟨_, rfl⟩
    rw [← hz] at hview he
    have hout : z.ram (s.txAt n b.val + 1) / 2 ^ 29 = 5 := hat ▸ hview.outcome
    rw [he]
    refine ⟨rfl, .inr ⟨congrArg TxBuf.pend hview.self, hout⟩, fun c hc => (hview.other hc).trans (by rw [hcan]), ?_⟩
    exact State.framed_of_parts fun p hp => (State.answer_part _ _ (by simp at hp; simp [hp])).trans
      ((hview.others p (by simp at hp; simp [hp])).trans (ht p (by simp at hp; simp [hp])))
  rcases State.txCancelCmd_single hp with h | h | h
  · obtain ⟨y, hy⟩ : ∃ y, y = s.drawn.modTx n b fun t => { t with cancel := true } := ⟨_, rfl⟩
    have hself : (y.can[n]).tx[b] = { (s.can[n]).tx[b] with cancel := true } := by rw [hy]; exact State.modTx_self ..
    have hother (c : Fin 32) (hc : c ≠ b) : (y.can[n]).tx[c] = (s.can[n]).tx[c] := by rw [hy]; exact State.modTx_other _ _ _ hc
    rw [show e = y.answer .ok by rw [hy]; exact h]
    refine ⟨rfl, .inl (congrArg TxBuf.cancel hself), hother, State.framed_of_parts fun p hp => ?_⟩
    rw [State.answer_part _ _ (by simp at hp; simp [hp]), hy, State.modTx_part _ _ _ _ (by simp at hp; simp [hp]),
      State.drawn_part _ (by simp at hp; simp [hp])]
  · exact hout s.drawn (fun p hp => State.drawn_part s hp) h
  · exact hout s (fun _ _ => rfl) h

theorem State.txBufEnd_ok_view (hmay : s.txMay n b = true) (hm : (s.can[n]).mode = 1) :
    let e := s.txBufEnd n b .ok
    (((e.can[n]).tx[b]).pend = false ∧ e.ram (s.txAt n b.val + 1) / 2 ^ 29 = 1) ∧ bitAt (e.cf n R.CAN_TX_DONE.done) b.val = true
      ∧ e.cf n R.CAN_STAT.tec = s.cf n R.CAN_STAT.tec - 1 ∧ e.cf n R.CAN_STAT.no_ack = 0 ∧ (e.can[n]).ackRun = 0
      ∧ (∀ c : Fin 32, c ≠ b → (e.can[n]).tx[c] = (s.can[n]).tx[c]) ∧ s.Framed e := by
  intro e
  obtain ⟨hover, htec, hack⟩ := s.txGood_view n
  obtain ⟨y, hy⟩ : ∃ y, y = (s.txGood n).modTx n b fun t => { t with clash := 0 } := ⟨_, rfl⟩
  have hpart {p : Part} (h : p ∉ [.can]) : y.part p = (s.txGood n).part p := by rw [hy]; exact State.modTx_part _ _ _ _ h
  have hcf (f : Fld) : y.cf n f = (s.txGood n).cf n f := State.f_of_part (hpart (by simp)) _ _
  have hcan : (s.txGood n).can[n] = { s.can[n] with ackRun := 0, lastEnd := s.now } := by
    rw [hover.can]
    exact State.modCan_self ..
  have hview := y.txOut_view n (by decide : 1 < 8) b
  have hat : y.txAt n b.val = s.txAt n b.val := State.txAt_of_fields (fun f hf => (hcf f).trans
    (hover.fields f (by simp only [R.CAN_TXB.reg] at hf; omega) (by simp only [R.CAN_TXB.reg] at hf; omega))) _
  rw [show e = y.txOut n 1 b by rw [hy]; exact State.txBufEnd_ok hmay hm]
  refine ⟨⟨congrArg TxBuf.pend hview.self, hat ▸ hview.outcome⟩, hview.done rfl, ?_, ?_, ?_, fun c hc => ?_, ?_⟩
  · rw [hview.fields _ (by decide), hcf, htec]
  · rw [hview.fields _ (by decide), hcf, hack]
  · rw [hview.can]
    unfold State.modTx
    rw [State.modCan_self, hy]
    unfold State.modTx
    rw [State.modCan_self, hcan]
  · rw [hview.other hc, hy, State.modTx_other _ _ _ hc, hcan]
  · exact State.framed_of_parts fun p hp => (hview.others p (by simp at hp; simp [hp])).trans
      ((hpart (by simp at hp; simp [hp])).trans (hover.others p (by simp at hp; simp [hp])))

/-- What an error leaves of a buffer within its retry limit. -/
theorem State.txBufEnd_error_view (hmay : s.txMay n b = true) (hm : (s.can[n]).mode = 1) {x : BusErr} (hx : x ≠ .ack) (d dom : Bool)
    (htec : s.cf n R.CAN_STAT.tec ≤ 247) (hp : ((s.can[n]).tx[b]).pend = true) (hc : ((s.can[n]).tx[b]).cancel = false)
    (hs : ((s.can[n]).tx[b]).single = false) (ha : ((s.can[n]).tx[b]).attempts < bitsAt (s.txW1 n b.val) 6 5) :
    let e := s.txBufEnd n b (.error x d dom)
    ((e.can[n]).tx[b]).pend = true ∧ ((e.can[n]).tx[b]).attempts = ((s.can[n]).tx[b]).attempts + 1
      ∧ e.cf n R.CAN_STAT.tec = s.cf n R.CAN_STAT.tec + 8 ∧ (∀ c : Fin 32, c ≠ b → (e.can[n]).tx[c] = (s.can[n]).tx[c]) ∧ s.Framed e := by
  intro e
  obtain ⟨hover, htec'⟩ := s.txError_view n hx d dom htec
  obtain ⟨y, hy⟩ : ∃ y, y = s.txError n x d dom := ⟨_, rfl⟩
  rw [← hy] at hover htec'
  have hcan : y.can[n] = { s.can[n] with ackRun := 0, lastEnd := s.now } := by
    rw [hover.can]
    exact State.modCan_self ..
  have hw1 : y.txW1 n b.val = s.txW1 n b.val := by
    unfold State.txW1
    rw [hover.ram, State.txAt_of_fields fun f hf => hover.fields f (by simp only [R.CAN_TXB.reg] at hf; omega)
      (by simp only [R.CAN_TXB.reg] at hf; omega)]
  have he : e = y.modTx n b fun t => { t with attempts := t.attempts + 1, clash := 0 } := by
    show s.txBufEnd n b (.error x d dom) = _
    rw [State.txBufEnd_error hmay hm, ← hy]
    refine State.txFailed_retried ?_ ?_ ?_ ?_ <;> rw [hcan]
    · exact hp
    · exact hc
    · exact hs
    · rw [hw1]; exact ha
  rw [he]
  have hself := State.modTx_self y n b fun t => { t with attempts := t.attempts + 1, clash := 0 }
  rw [hcan] at hself
  refine ⟨(congrArg TxBuf.pend hself).trans hp, congrArg TxBuf.attempts hself, htec', fun c hc => ?_, ?_⟩
  · rw [State.modTx_other _ _ _ hc, hcan]
  · exact State.framed_of_parts fun p hp => (State.modTx_part _ _ _ _ (by simp at hp; simp [hp])).trans
      (hover.others p (by simp at hp; simp [hp]))

/-- What the third clash in a row leaves. -/
theorem State.txBufEnd_clash_view (hmay : s.txMay n b = true) (hm : (s.can[n]).mode = 1) (d : Bool)
    (htec : s.cf n R.CAN_STAT.tec ≤ 247) (hp : ((s.can[n]).tx[b]).pend = true) (hc : ((s.can[n]).tx[b]).cancel = false)
    (hcl : 2 ≤ ((s.can[n]).tx[b]).clash) :
    let e := s.txBufEnd n b (.clash d)
    (((e.can[n]).tx[b]).pend = false ∧ e.ram (s.txAt n b.val + 1) / 2 ^ 29 = 3) ∧ ((e.can[n]).tx[b]).clash = 0
      ∧ evClash n ∈ e.raised ∧ s.Framed e := by
  intro e
  obtain ⟨hover, -⟩ := s.txError_view n (x := .bit1) (by decide) d false htec
  obtain ⟨y, hy⟩ : ∃ y, y = s.txError n .bit1 d false := ⟨_, rfl⟩
  rw [← hy] at hover
  have hcan : y.can[n] = { s.can[n] with ackRun := 0, lastEnd := s.now } := by
    rw [hover.can]
    exact State.modCan_self ..
  obtain ⟨z, hz⟩ : ∃ z, z = y.clashed n b := ⟨_, rfl⟩
  have hzpart {p : Part} (h : p ∉ [.can]) : z.part p = y.part p := by
    rw [hz]
    exact (State.modTx_part _ _ _ _ h).trans (State.modTx_part _ _ _ _ h)
  have hview := z.txOut_view n (by decide : 3 < 8) b
  obtain ⟨t, ht⟩ : ∃ t, t = (z.txOut n 3 b).cinc n R.CAN_CNT2.clash_count := ⟨_, rfl⟩
  have he : e = t.raise (evClash n) := by
    show s.txBufEnd n b (.clash d) = _
    rw [State.txBufEnd_clash hmay hm, ← hy, State.txFailed_clashed (by rw [hcan]; exact hp) (by rw [hcan]; exact hc)
      (by rw [hcan]; exact hcl), ← hz, ← ht]
  have hn := n.isLt
  have hev : evClash n < 256 := by unfold evClash; omega
  have hecan : e.can = (z.txOut n 3 b).can := by
    rw [he, show (t.raise (evClash n)).can = t.can from State.raise_part (p := .can) _ _ (by simp), ht]
    exact State.cinc_can ..
  have hat : z.txAt n b.val = s.txAt n b.val := State.txAt_of_fields (fun f hf => (State.f_of_part (hzpart (by simp)) _ _).trans
    (hover.fields f (by simp only [R.CAN_TXB.reg] at hf; omega) (by simp only [R.CAN_TXB.reg] at hf; omega))) _
  have hself : (e.can[n]).tx[b] = ((z.can[n]).tx[b]).over := by rw [hecan]; exact hview.self
  refine ⟨⟨?_, ?_⟩, ?_, ?_, ?_⟩
  · rw [hself]; rfl
  · have hram : e.ram (s.txAt n b.val + 1) = (z.txOut n 3 b).ram (s.txAt n b.val + 1) := by
      have hk : raiseWrites (ramAddr (s.txAt n b.val + 1)) = false := raiseWrites_of_le (by simp only [ramAddr]; omega)
      rw [he, State.ram_of_word (t.raise_word hev hk), ht]
      exact State.cset_ram _ _ _ _ _ (by decide)
    rw [hram, ← hat]
    exact hview.outcome
  · rw [hself, hz]
    exact congrArg TxBuf.clash (State.modTx_self _ n b _)
  · rw [he]
    refine State.mem_raise fun d _ => ?_
    match n with
    | 0 => rfl
    | 1 => rfl
    | 2 => rfl
  · exact State.framed_of_parts fun p hp => by
      rw [he, State.raise_part _ _ (by simp at hp; simp [hp]), ht, State.cinc_part _ _ _ (by simp at hp; simp [hp]),
        hview.others p (by simp at hp; simp [hp]), hzpart (by simp at hp; simp [hp]), hover.others p (by simp at hp; simp [hp])]

/-- What the end of an attempt of a response or of the announcement leaves. -/
theorem State.txOwnEnd_ok (hon : s.canOn n = true) (hm : (s.can[n]).mode = 1) {diag : Bool} {o : OwnFrame}
    (ho : (s.can[n]).own diag = some o) : s.txOwnEnd n diag .ok = (s.txGood n).setOwn n diag none := by
  have hmode : ((((s.txGood n).setOwn n diag none).can[n]).mode) = 1 := by
    unfold State.setOwn
    rw [State.modCan_self, (s.txGood_view n).1.can, State.modCan_self]
    cases diag <;> exact hm
  unfold State.txOwnEnd
  rw [ho]
  dsimp only
  rw [hon, hm, if_neg (by decide)]
  exact State.loopIn_off (by rw [hmode]; decide) _

end

end Sys2Proof.Machine

open Sys2Proof Sys2Proof.Machine

/-- Settles O56, by what a request, an attempt and the end of a buffer change of the buffer and of the counters. -/
theorem canTransmission : Obligations.CanTransmission := by
  intro s dt n u a tx plain requested frame ended
  have hu : s.elapse dt = u := rfl
  clear_value u
  refine ⟨fun ho hm w hw => ?_, ?_, fun b hat => ⟨fun ho hpend => ?_, fun hmay hm => ?_⟩,
    fun hon hm o => ⟨fun hown => ?_, fun hown => ?_⟩⟩
  · obtain ⟨hsame, hcans, htx⟩ := State.each_txRequest n (maskBufs w) ((List.nodup_finRange 32).filter _) a hm fun b hb => by
      obtain ⟨⟨h1, h2, h3⟩, h4⟩ := hw b ((mem_maskBufs w b).1 hb)
      exact ⟨h1, h2, h3, h4⟩
    obtain ⟨y, hy⟩ : ∃ y, y = a.each (maskBufs w) fun b s => if s.scheduled n b.val then s else s.txRequest n b false := ⟨_, rfl⟩
    rw [← hy] at hsame hcans htx
    refine State.gives_hostAct_eq (act := (·.txReqCmd n w)) (e := y.answer .ok) rfl hu ho (by rw [hy]; rfl)
      ⟨(congrArg (·.answer .ok) hsame).trans rfl, hcans, fun b => ?_⟩
    have hb := htx b
    split
    next h => exact hb.trans (if_pos ((mem_maskBufs w b).2 h))
    next h => exact hb.trans (if_neg (mt (mem_maskBufs w b).1 h))
  · intro hm hst b hpl hs per h0 hdue
    obtain ⟨hb, hp, hr⟩ := hpl
    refine State.gives_eq (eff := (·.txPeriod n b)) rfl hu (State.txPeriod_due rfl hb hm hp hr hst hs h0 hdue)
      ⟨rfl, ?_, fun c hc => ?_⟩
    · exact (State.modTx_self ..).trans (congrArg (TxBuf.requested · u.now false) (State.modTx_self ..))
    · exact (State.modTx_other _ _ _ hc).trans (State.modTx_other _ _ _ hc)
  · exact State.gives_hostAct (act := (·.txCancelCmd n (BitVec.ofNat 32 (2 ^ b.val)))) rfl hu ho (State.txCancelCmd_view hpend)
  · have hpend : (tx u b).pend = true := by
      have h := hmay
      simp only [State.txMay, Bool.and_eq_true] at h
      exact h.1.2
    refine ⟨State.gives_after (eff := (·.txBufEnd n b .ok)) rfl hu (State.txBufEnd_ok_view hmay hm),
      fun x d dom hx htec hs hc ha => State.gives_after (eff := (·.txBufEnd n b (.error x d dom))) rfl hu
        (State.txBufEnd_error_view hmay hm hx d dom htec hpend hc hs ha),
      fun d hcl htec hc => State.gives_after (eff := (·.txBufEnd n b (.clash d))) rfl hu
        (State.txBufEnd_clash_view hmay hm d htec hpend hc hcl),
      fun hc => State.gives_after (eff := (·.txBufEnd n b .arbLost)) rfl hu (State.txBufEnd_arbLost hmay hm hc)⟩
  · obtain ⟨hover, -⟩ := u.txGood_view n
    have he := State.txOwnEnd_ok hon hm (diag := true) hown
    have hcan : ((u.txGood n).setOwn n true none).can[n] = { u.can[n] with ackRun := 0, lastEnd := u.now, diag := none } := by
      unfold State.setOwn
      rw [State.modCan_self, hover.can, State.modCan_self]
      rfl
    refine State.gives_eq (eff := (·.txOwnEnd n true .ok)) rfl hu he ⟨congrArg CanC.diag hcan, (congrArg CanC.ann hcan).trans rfl, ?_⟩
    exact State.framed_of_parts fun p hp => (State.setOwn_part _ _ _ _ (by simp at hp; simp [hp])).trans
      (hover.others p (by simp at hp; simp [hp]))
  · obtain ⟨hover, -⟩ := u.txGood_view n
    have he := State.txOwnEnd_ok hon hm (diag := false) hown
    have hcan : ((u.txGood n).setOwn n false none).can[n] = { u.can[n] with ackRun := 0, lastEnd := u.now, ann := none } := by
      unfold State.setOwn
      rw [State.modCan_self, hover.can, State.modCan_self]
      rfl
    refine State.gives_eq (eff := (·.txOwnEnd n false .ok)) rfl hu he ⟨congrArg CanC.ann hcan, (congrArg CanC.diag hcan).trans rfl, ?_⟩
    exact State.framed_of_parts fun p hp => (State.setOwn_part _ _ _ _ (by simp at hp; simp [hp])).trans
      (hover.others p (by simp at hp; simp [hp]))
end

section
/-! PROOFS. Modes, recovery and errors of a CAN controller, and its schedule (15_can_fd R407 to R412, R428 to R431, R434,
13_image_boot_and_security R373). -/

namespace Sys2Proof.Machine

/-! ## Fields of the status word -/

/-- A field of a controller read after another field of the controller has been set. -/
theorem State.cset_cf (s : State) (n : Can) (f : Fld) (v : Nat) {g : Fld} (hf : f.lo + f.w ≤ 32)
    (h : g.off ≠ f.off ∨ g.lo + g.w ≤ f.lo ∨ f.lo + f.w ≤ g.lo) : (s.cset n f v).cf n g = s.cf n g := by
  rcases h with h | h
  · exact State.cset_cf_other s n f v h
  · exact State.cset_cf_apart s n f v hf h

theorem State.modCan_cf (s : State) (n : Can) (g : CanC → CanC) (f : Fld) : (s.modCan n g).cf n f = s.cf n f :=
  State.cf_of_word (State.modCan_word ..)

theorem State.modTx_cf (s : State) (n : Can) (b : Fin 32) (g : TxBuf → TxBuf) (f : Fld) : (s.modTx n b g).cf n f = s.cf n f :=
  State.modCan_cf ..

theorem raiseWrites_between {k : Nat} (h : 0x1080 ≤ k) (h' : k < 0xA000) : raiseWrites k = false := by
  simp only [raiseWrites, Bool.or_eq_false_iff, Bool.and_eq_false_iff, decide_eq_false_iff_not]
  omega

theorem State.assertOff_cf (s : State) (n : Can) {e : Nat} (he : e < 256) (f : Fld) (hf : f.off < 0x400) :
    (s.assertOff e).cf n f = s.cf n f := by
  have hn := n.isLt
  exact State.cf_of_word (State.assertOff_word _ he (raiseWrites_between (by simp only [canB]; omega) (by simp only [canB]; omega)))

theorem State.not_mem_assertOff (s : State) (e : Nat) : e ∉ (s.assertOff e).rails := by
  unfold State.assertOff
  by_cases h : s.rails.contains e = true
  · rw [if_pos h]
    dsimp only
    split
    · simp
    · show e ∉ s.rails.filter (· != e)
      simp
  · rw [if_neg h]
    simpa using h

theorem State.eq_with_can {s e : State} (h : ∀ p : Part, p ∉ [.can, .store] → e.part p = s.part p) :
    e = { s with store := e.store, can := e.can } := by
  refine State.ext_parts fun p => ?_
  have hp := h p
  cases p <;> first | rfl | exact hp (by simp)

/-! ## Modes -/

section
variable {s : State} {n : Can} {m : Nat}

theorem State.canModeCmd_refused (h0 : s.cf n R.CAN_CTRL.mode = 0) (hm : m ≠ 0) (hl : s.layoutOk n = false) :
    s.canModeCmd n m = s.answer .badArg := by
  unfold State.canModeCmd
  rw [if_pos ⟨h0, hm, by rw [hl]; rfl⟩]

/-- The mode that a write asks for, noted. -/
def State.modeAsked (s : State) (n : Can) (m : Nat) : State := (s.cset n R.CAN_CTRL.mode m).answer .ok

theorem State.modeAsked_part (s : State) (n : Can) (m : Nat) {p : Part} (h : p ∉ [.status, .store]) :
    (s.modeAsked n m).part p = s.part p :=
  (State.answer_part _ _ (by simp at h; simp [h])).trans (State.cset_part _ _ _ _ (by simp at h; simp [h]))

theorem State.canModeCmd_joins (hl : s.layoutOk n = true) (hm : m ≠ 0) (hmode : (s.can[n]).mode = 0) :
    s.canModeCmd n m = (s.modeAsked n m).canApplyMode n m := by
  have hcan : (s.modeAsked n m).can = s.can := State.modeAsked_part (p := .can) s n m (by simp)
  have hmode' : ((s.modeAsked n m).can[n]).mode = 0 := by rw [hcan]; exact hmode
  unfold State.canModeCmd
  rw [if_neg (by rw [hl]; simp)]
  show (if ((s.modeAsked n m).can[n]).mode = m then _ else if ((s.modeAsked n m).can[n]).mode = 0 then _ else _) = _
  rw [hmode', if_neg (Ne.symm hm), if_pos rfl]
  rfl

theorem State.canModeCmd_waits (h0 : s.cf n R.CAN_CTRL.mode ≠ 0) (hmode : (s.can[n]).mode ≠ 0) (hne : (s.can[n]).mode ≠ m) :
    s.canModeCmd n m = (s.modeAsked n m).modCan n fun c => { c with modeNext := some m } := by
  have hcan : (s.modeAsked n m).can = s.can := State.modeAsked_part (p := .can) s n m (by simp)
  have hmode' : ((s.modeAsked n m).can[n]).mode = (s.can[n]).mode := by rw [hcan]
  unfold State.canModeCmd
  rw [if_neg fun h => h0 h.1]
  show (if ((s.modeAsked n m).can[n]).mode = m then _ else if ((s.modeAsked n m).can[n]).mode = 0 then _ else _) = _
  rw [hmode', if_neg hne, if_neg hmode]
  rfl

/-- A mode other than OFF: the controller waits for the bus. -/
theorem State.canApplyMode_on (s : State) (n : Can) (hm : m ≠ 0) :
    let e := s.canApplyMode n m
    e.can = (s.modCan n fun c => { c with mode := m, modeNext := none }).can ∧ (∀ p : Part, p ∉ [.can, .store] → e.part p = s.part p)
      ∧ e.cf n R.CAN_STAT.integrating = 1 ∧ e.cf n R.CAN_CTRL.mode = s.cf n R.CAN_CTRL.mode := by
  intro e
  obtain ⟨y, hy⟩ : ∃ y, y = (s.modCan n fun c => { c with mode := m, modeNext := none }).cset n R.CAN_STAT.integrating 1 := ⟨_, rfl⟩
  have he : e = if y.cf n R.CAN_STAT.state = 0 then (y.cset n R.CAN_STAT.state 1).canState n else y := by
    rw [hy]
    exact if_neg hm
  have hycan : y.can = (s.modCan n fun c => { c with mode := m, modeNext := none }).can := by rw [hy, State.cset_can]
  have hypart (p : Part) (hp : p ∉ [.can, .store]) : y.part p = s.part p := by
    rw [hy, State.cset_part _ _ _ _ (by simp at hp; simp [hp]), State.modCan_part _ _ _ (by simp at hp; simp [hp])]
  have hint : y.cf n R.CAN_STAT.integrating = 1 := by rw [hy, State.cset_cf_self _ _ _ _ (by decide)]; rfl
  have hctrl : y.cf n R.CAN_CTRL.mode = s.cf n R.CAN_CTRL.mode := by
    rw [hy, State.cset_cf _ _ _ _ (by decide) (by decide), State.modCan_cf]
  rw [he]
  split
  · refine ⟨?_, fun p hp => ?_, ?_, ?_⟩
    · rw [State.canState_can, State.cset_can, hycan]
    · rw [State.canState_part _ _ (by simp at hp; simp [hp]), State.cset_part _ _ _ _ (by simp at hp; simp [hp]), hypart p hp]
    · rw [State.canState_f _ _ (by decide), State.cset_cf _ _ _ _ (by decide) (by decide), hint]
    · rw [State.cf_of_word (State.canState_word _ _ (by simp [R.CAN_CTRL.mode, R.CAN_STAT.reg])),
        State.cset_cf _ _ _ _ (by decide) (by decide), hctrl]
  · exact ⟨hycan, hypart, hint, hctrl⟩

/-! ## OFF -/

/-- The ends of a list of buffers: none of them is pending, and the mode is as it was. -/
theorem State.each_txOut (n : Can) {out : Nat} (hout : out < 8) (l : List (Fin 32)) (s : State) :
    let e := s.each l fun b s => s.txOut n out b
    (e.can[n]).mode = (s.can[n]).mode ∧ (e.can[n]).modeNext = (s.can[n]).modeNext
      ∧ ∀ b : Fin 32, ((e.can[n]).tx[b]).pend = if b ∈ l then false else ((s.can[n]).tx[b]).pend := by
  induction l generalizing s with
  | nil => exact ⟨rfl, rfl, fun b => (if_neg (by simp)).symm⟩
  | cons c l ih =>
    have hview := s.txOut_view n hout c
    obtain ⟨hmode, hnext, hpend⟩ := ih (s.txOut n out c)
    have hcan : (s.txOut n out c).can[n] = { s.can[n] with tx := upd (s.can[n]).tx c ((s.can[n]).tx[c]).over } := by
      rw [hview.can]
      exact State.modCan_self ..
    refine ⟨hmode.trans (by rw [hcan]), hnext.trans (by rw [hcan]), fun b => (hpend b).trans ?_⟩
    by_cases hbc : b = c
    · rw [hbc, if_pos (List.mem_cons_self ..)]
      split
      · rfl
      · rw [hview.self]; rfl
    · rw [hview.other hbc]
      by_cases hbl : b ∈ l
      · rw [if_pos hbl, if_pos (by simp [hbl])]
      · rw [if_neg hbl, if_neg (by simp [hbl, hbc])]

theorem State.txOutAll_view (s : State) (n : Can) {out : Nat} (hout : out < 8) :
    let e := s.txOutAll n out
    (e.can[n]).mode = (s.can[n]).mode ∧ (e.can[n]).modeNext = (s.can[n]).modeNext ∧ ∀ b : Fin 32, ((e.can[n]).tx[b]).pend = false := by
  intro e
  obtain ⟨hmode, hnext, hpend⟩ := State.each_txOut n hout (s.pendings n) s
  obtain ⟨y, hy⟩ : ∃ y, y = s.each (s.pendings n) fun b s => s.txOut n out b := ⟨_, rfl⟩
  rw [← hy] at hmode hnext hpend
  have hcan : e.can[n] = { y.can[n] with diag := none, ann := none } := by
    rw [show e = y.modCan n fun c => { c with diag := none, ann := none } by rw [hy]; rfl]
    exact State.modCan_self ..
  rw [hcan]
  refine ⟨hmode, hnext, fun b => (hpend b).trans ?_⟩
  split
  · rfl
  next h =>
    unfold State.pendings at h
    simpa using h

/-- OFF: no buffer waits any longer. -/
theorem State.canApplyMode_off (s : State) (n : Can) :
    let e := s.canApplyMode n 0
    (e.can[n]).mode = 0 ∧ (e.can[n]).modeNext = none ∧ ∀ b : Fin 32, ((e.can[n]).tx[b]).pend = false := by
  intro e
  obtain ⟨y, hy⟩ : ∃ y, y = (s.modCan n fun c => { c with mode := 0, modeNext := none }).txOutAll n 5 := ⟨_, rfl⟩
  obtain ⟨z, hz⟩ : ∃ z, z = ((y.ackSeen n).cset n R.CAN_TT_STAT.running 0).cset n R.CAN_STAT.integrating 0 := ⟨_, rfl⟩
  have he : e = if z.cf n R.CAN_STAT.state = 3 then z else z.cset n R.CAN_STAT.state 0 := by
    rw [hz, hy]
    show s.canApplyMode n 0 = _
    unfold State.canApplyMode
    exact if_pos rfl
  have hecan : e.can = z.can := by
    rw [he]
    split
    · rfl
    · exact State.cset_can ..
  have hzcan : z.can = (y.modCan n fun c => { c with ackRun := 0 }).can := by
    rw [hz, State.cset_can, State.cset_can]
    unfold State.ackSeen
    rw [show ∀ t : State, (t.assertOff (evNoAck n)).can = t.can from fun t => State.assertOff_part (p := .can) t _ (by simp), State.cset_can]
  obtain ⟨hmode, hnext, hpend⟩ := (s.modCan n fun c => { c with mode := 0, modeNext := none }).txOutAll_view n (by decide : 5 < 8)
  rw [← hy, State.modCan_self] at hmode hnext
  rw [← hy] at hpend
  rw [hecan, hzcan, State.modCan_self]
  exact ⟨hmode, hnext, hpend⟩

/-! ## Recovery, integration and errors of received frames -/

/-- Recovery from bus-off: the controller is error active, and its fault ends. -/
theorem State.canRecovered_view (hrec : s.cf n R.CAN_STAT.recovering = 1) (hm : (s.can[n]).mode ≠ 0) :
    let e := s.canRecovered n
    (∀ p : Part, p ∉ [.rails, .store] → e.part p = s.part p) ∧ e.cf n R.CAN_STAT.state = 1 ∧ e.cf n R.CAN_STAT.tec = 0
      ∧ e.cf n R.CAN_STAT.rec = 0 ∧ e.cf n R.CAN_STAT.recovering = 0 ∧ evBusOff n ∉ e.rails := by
  intro e
  have hn := n.isLt
  have hev : evBusOff n < 256 := by unfold evBusOff; omega
  obtain ⟨y, hy⟩ : ∃ y, y = ((((s.cset n R.CAN_STAT.recovering 0).cset n R.CAN_STAT.tec 0).cset n R.CAN_STAT.rec 0).cset n
      R.CAN_STAT.state 1).cset n R.CAN_STAT.integrating 0 := ⟨_, rfl⟩
  have hon : s.fb (canB n) R.CAN_STAT.recovering = true := by
    unfold State.fb
    rw [show s.f (canB n) R.CAN_STAT.recovering = 1 from hrec]
    rfl
  have he : e = y.assertOff (evBusOff n) := by
    show s.canRecovered n = _
    unfold State.canRecovered
    rw [if_pos ⟨hon, hm⟩, hy]
  have hcf (f : Fld) (hf : f.off < 0x400) : e.cf n f = y.cf n f := by rw [he]; exact State.assertOff_cf _ _ hev _ hf
  refine ⟨fun p hp => State.canRecovered_part s n hp, ?_, ?_, ?_, ?_, by rw [he]; exact State.not_mem_assertOff _ _⟩
  · rw [hcf _ (by decide), hy, State.cset_cf _ _ _ _ (by decide) (by decide), State.cset_cf_self _ _ _ _ (by decide)]
    rfl
  · rw [hcf _ (by decide), hy, State.cset_cf _ _ _ _ (by decide) (by decide), State.cset_cf _ _ _ _ (by decide) (by decide),
      State.cset_cf _ _ _ _ (by decide) (by decide), State.cset_cf_self _ _ _ _ (by decide)]
    rfl
  · rw [hcf _ (by decide), hy, State.cset_cf _ _ _ _ (by decide) (by decide), State.cset_cf _ _ _ _ (by decide) (by decide),
      State.cset_cf_self _ _ _ _ (by decide)]
    rfl
  · rw [hcf _ (by decide), hy, State.cset_cf _ _ _ _ (by decide) (by decide), State.cset_cf _ _ _ _ (by decide) (by decide),
      State.cset_cf _ _ _ _ (by decide) (by decide), State.cset_cf _ _ _ _ (by decide) (by decide), State.cset_cf_self _ _ _ _ (by decide)]
    rfl

/-- Eleven recessive bits: the controller joins the bus. -/
theorem State.canJoins_eq (hm : (s.can[n]).mode ≠ 0) (hi : s.cf n R.CAN_STAT.integrating = 1) (hs : s.cf n R.CAN_STAT.state ≠ 3) :
    s.canJoins n = (s.cset n R.CAN_STAT.integrating 0).modCan n fun c => { c with lastEnd := s.now } := by
  have hon : s.fb (canB n) R.CAN_STAT.integrating = true := by
    unfold State.fb
    rw [show s.f (canB n) R.CAN_STAT.integrating = 1 from hi]
    rfl
  unfold State.canJoins
  rw [if_pos ⟨hm, hon, hs⟩]

/-- An error of a frame being received. -/
theorem State.rxError_fields (s : State) (n : Can) (x : BusErr) (d dom : Bool) :
    let e := s.rxError n x d dom
    e.cf n (if d then R.CAN_STAT.dlec else R.CAN_STAT.lec) = errCode x
      ∧ e.cf n R.CAN_STAT.rec = Nat.min 255 (s.cf n R.CAN_STAT.rec + if dom = true ∧ (s.can[n]).mode ≠ 2 then 9 else 1)
      ∧ e.cf n R.CAN_STAT.tec = s.cf n R.CAN_STAT.tec := by
  intro e
  obtain ⟨f, hf⟩ : ∃ f, f = if d then R.CAN_STAT.dlec else R.CAN_STAT.lec := ⟨_, rfl⟩
  have hoff : f.lo + f.w ≤ 32 ∧ 21 ≤ f.lo ∧ f.w = 3 := by
    rw [hf]
    split <;> decide
  obtain ⟨y, hy⟩ : ∃ y, y = s.cset n f (errCode x) := ⟨_, rfl⟩
  have hcan : y.can = s.can := by rw [hy, State.cset_can]
  have hrec : y.cf n R.CAN_STAT.rec = s.cf n R.CAN_STAT.rec := by
    rw [hy]
    exact State.cset_cf_apart _ _ _ _ hoff.1 (.inl hoff.2.1)
  obtain ⟨k, hk⟩ : ∃ k, k = if dom = true ∧ (s.can[n]).mode ≠ 2 then 9 else 1 := ⟨_, rfl⟩
  have he : e = (y.cset n R.CAN_STAT.rec (Nat.min 255 (s.cf n R.CAN_STAT.rec + k))).canState n := by
    have hy' : s.noteErr n x d = y := by rw [hy, hf]; rfl
    show s.rxError n x d dom = _
    unfold State.rxError
    rw [hy']
    dsimp only
    rw [hcan, hrec, ← hk]
  rw [← hf, ← hk, he]
  refine ⟨?_, ?_, ?_⟩
  · rw [State.canState_f _ _ (by omega), State.cset_cf y n R.CAN_STAT.rec _ (by decide) (.inr (.inr hoff.2.1)), hy, State.cset_cf_self _ _ _ _ hoff.1,
      hoff.2.2]
    cases x <;> rfl
  · rw [State.canState_f _ _ (by decide), State.cset_cf_self _ _ _ _ (by decide)]
    exact Nat.mod_eq_of_lt (Nat.lt_of_le_of_lt (Nat.min_le_left _ _) (by decide))
  · rw [State.canState_f _ _ (by decide), State.cset_cf _ _ _ _ (by decide) (by decide), hy]
    exact State.cset_cf_apart _ _ _ _ hoff.1 (.inl (by show 13 ≤ f.lo; omega))

end

end Sys2Proof.Machine

open Sys2Proof Sys2Proof.Machine

theorem canModes : Claims.CanModes := by
  intro s dt n u a mode only
  have hu : s.elapse dt = u := rfl
  clear_value u
  refine ⟨fun ho => ⟨fun h3 => ?_, fun h3 => ?_, fun x => ?_⟩, fun m hm => ?_, fun hrec hm => ?_, fun hm hi hst => ?_, fun hon hm x d dom => ?_⟩
  · refine State.gives_hostAct_eq (act := (·.canRecoverCmd n)) (e := (a.cset n R.CAN_STAT.recovering 1).answer .ok) rfl hu ho (if_pos h3) ⟨?_, ?_⟩
    · refine State.eq_with_store fun p hp => ?_
      have hset : p ∉ [Part.status] → ((a.cset n R.CAN_STAT.recovering 1).answer .ok).part p = a.part p := fun h =>
        (State.answer_part _ _ h).trans (State.cset_part _ _ _ _ (by simpa using hp))
      cases p <;> first | rfl | exact hset (by simp)
    · exact State.cset_cf_self a n R.CAN_STAT.recovering 1 (by decide)
  · exact State.gives_hostAct (act := (·.canRecoverCmd n)) rfl hu ho (if_neg h3)
  · intro m
    have hm4 : m < 4 := x.isLt
    have hctrl : (a.modeAsked n m).cf n R.CAN_CTRL.mode = m :=
      (State.cset_cf_self a n R.CAN_CTRL.mode m (by decide)).trans (Nat.mod_eq_of_lt hm4)
    have hasked (p : Part) (hp : p ∉ [.store]) : (a.modeAsked n m).part p = a.part p := by
      have h : p ∉ [Part.status] → (a.modeAsked n m).part p = a.part p := fun h => State.modeAsked_part _ _ _ (by simp at h hp; simp [h, hp])
      cases p <;> first | rfl | exact h (by simp)
    refine ⟨fun h0 hm hl => State.gives_hostAct (act := (·.canModeCmd n m)) rfl hu ho (State.canModeCmd_refused h0 hm hl),
      fun h0 hm hl hmode => ?_, fun h0 hmode hne => ?_⟩
    · obtain ⟨hcan, hpart, hint, hmode'⟩ := (a.modeAsked n m).canApplyMode_on n hm
      have hbefore : (a.modeAsked n m).can = u.can := hasked .can (by simp)
      refine State.gives_hostAct_eq (act := (·.canModeCmd n m)) rfl hu ho (State.canModeCmd_joins hl hm hmode)
        ⟨⟨?_, fun k hk => ?_⟩, hmode'.trans hctrl, ?_, ?_, hint⟩
      · exact State.eq_with_can fun p hp => (hpart p hp).trans (hasked p (by simp at hp; simp [hp]))
      · rw [hcan, State.modCan_other _ _ _ hk, hbefore]
      · rw [hcan, State.modCan_self]
      · rw [hcan, State.modCan_self]
    · have hbefore : (a.modeAsked n m).can = u.can := hasked .can (by simp)
      refine State.gives_hostAct_eq (act := (·.canModeCmd n m)) rfl hu ho (State.canModeCmd_waits h0 hmode hne)
        ⟨⟨?_, fun k hk => ?_⟩, ?_, ?_⟩
      · exact State.eq_with_can fun p hp => (State.modCan_part _ _ _ (by simp at hp; simp [hp])).trans (hasked p (by simp at hp; simp [hp]))
      · rw [State.modCan_other _ _ _ hk, hbefore]
      · rw [State.modCan_cf]
        exact hctrl
      · rw [State.modCan_self, hbefore]
  · have he : u.canModeDue n = u.canApplyMode n m := by
      unfold State.canModeDue
      rw [hm]
    have hpart {p : Part} (hp : p ∉ [.can, .rails, .store]) : (u.canApplyMode n m).part p = u.part p := State.canApplyMode_part _ _ _ hp
    refine State.gives_eq (eff := (·.canModeDue n)) rfl hu he ?_
    by_cases h0 : m = 0
    · rw [h0] at hpart ⊢
      obtain ⟨hmode, hnext, hpend⟩ := u.canApplyMode_off n
      exact ⟨hmode, hnext, fun h => absurd rfl h, fun _ => hpend, hpart (p := .cl) (by simp), hpart (p := .flash) (by simp),
        hpart (p := .sec) (by simp)⟩
    · obtain ⟨hcan, -, hint, -⟩ := u.canApplyMode_on n h0
      refine ⟨?_, ?_, fun _ => hint, fun h => absurd h h0, hpart (p := .cl) (by simp), hpart (p := .flash) (by simp),
        hpart (p := .sec) (by simp)⟩
      · rw [hcan, State.modCan_self]
      · rw [hcan, State.modCan_self]
  · obtain ⟨hpart, hstate, htec, hrec', hrecovering, hrails⟩ := State.canRecovered_view hrec hm
    refine State.gives_after (eff := (·.canRecovered n)) rfl hu ⟨?_, hstate, htec, hrec', hrecovering, hrails⟩
    refine State.ext_parts fun p => ?_
    have hp := hpart p
    cases p <;> first | rfl | exact hp (by simp)
  · refine State.gives_eq (eff := (·.canJoins n)) rfl hu (State.canJoins_eq hm hi hst) ⟨⟨?_, fun k hk => ?_⟩, ?_, ?_⟩
    · exact State.eq_with_can fun p hp => (State.modCan_part _ _ _ (by simp at hp; simp [hp])).trans
        (State.cset_part _ _ _ _ (by simp at hp; simp [hp]))
    · rw [State.modCan_other _ _ _ hk, State.cset_can]
    · rw [State.modCan_cf]
      exact State.cset_cf_self u n R.CAN_STAT.integrating 0 (by decide)
    · rw [State.modCan_self, State.cset_can]
  · refine State.gives_eq (eff := (·.canRxError n x d dom)) (e := u.rxError n x d dom) rfl hu (if_pos ⟨hon, hm⟩)
      ⟨?_, u.rxError_fields n x d dom⟩
    exact State.eq_with_store fun p hp => State.rxError_part _ _ _ _ _ (by simpa using hp)
end

section
/-! PROOFS. The schedule of a CAN controller and the announcement of the session value (15_can_fd R428 to R431,
13_image_boot_and_security R373). -/

namespace Sys2Proof.Machine

theorem State.fb_of_one {s : State} {n : Can} {f : Fld} (h : s.cf n f = 1) : s.fb (canB n) f = true := by
  unfold State.fb
  rw [show s.f (canB n) f = 1 from h]
  rfl

theorem State.fb_of_zero {s : State} {n : Can} {f : Fld} (h : s.cf n f = 0) : s.fb (canB n) f = false := by
  unfold State.fb
  rw [show s.f (canB n) f = 0 from h]
  rfl

/-! ## Basic cycles -/

/-- A basic cycle begins. -/
def State.cycleBegun (s : State) (n : Can) (c : Nat) : State :=
  ((((s.modCan n fun x => { x with cell := none, cycAt := s.now }).cset n R.CAN_TT_STAT.cycle c).cset n R.CAN_TT_STAT.column 0).cset n
    R.CAN_TT_STAT.ref_lost 0).cset n R.CAN_TT_STAT.running 1

section
variable (s : State) (n : Can) (c : Nat)

theorem State.cycleBegun_can : (s.cycleBegun n c).can = (s.modCan n fun x => { x with cell := none, cycAt := s.now }).can := by
  unfold State.cycleBegun
  rw [State.cset_can, State.cset_can, State.cset_can, State.cset_can]

theorem State.cycleBegun_tx (b : Fin 32) : ((s.cycleBegun n c).can[n]).tx[b] = (s.can[n]).tx[b] := by
  rw [State.cycleBegun_can, State.modCan_self]

theorem State.cycleBegun_part {p : Part} (hp : p ∉ [.can, .store]) : (s.cycleBegun n c).part p = s.part p := by
  unfold State.cycleBegun
  rw [State.cset_part _ _ _ _ (by simp at hp; simp [hp]), State.cset_part _ _ _ _ (by simp at hp; simp [hp]),
    State.cset_part _ _ _ _ (by simp at hp; simp [hp]), State.cset_part _ _ _ _ (by simp at hp; simp [hp]),
    State.modCan_part _ _ _ (by simp at hp; simp [hp])]

theorem State.cycleBegun_word {k : Nat} (h : k ≠ canB n + R.CAN_TT_STAT.reg) : (s.cycleBegun n c).word k = s.word k := by
  unfold State.cycleBegun
  rw [State.cset_word _ _ _ _ h, State.cset_word _ _ _ _ h, State.cset_word _ _ _ _ h, State.cset_word _ _ _ _ h, State.modCan_word]

theorem State.cycleBegun_cf {f : Fld} (h : f.off ≠ R.CAN_TT_STAT.reg) : (s.cycleBegun n c).cf n f = s.cf n f :=
  State.cf_of_word (State.cycleBegun_word s n c (by omega))

theorem State.cycleBegun_ram (i : Nat) : (s.cycleBegun n c).ram i = s.ram i :=
  State.ram_of_word (State.cycleBegun_word s n c (by have := n.isLt; simp only [ramAddr, canB, R.CAN_TT_STAT.reg]; omega))

theorem State.cycleBegun_stat : (s.cycleBegun n c).cf n R.CAN_TT_STAT.cycle = c % 64 ∧ (s.cycleBegun n c).cf n R.CAN_TT_STAT.column = 0
    ∧ (s.cycleBegun n c).cf n R.CAN_TT_STAT.running = 1 ∧ (s.cycleBegun n c).cf n R.CAN_TT_STAT.ref_lost = 0 := by
  unfold State.cycleBegun
  refine ⟨?_, ?_, ?_, ?_⟩
  · rw [State.cset_cf _ _ _ _ (by decide) (by decide), State.cset_cf _ _ _ _ (by decide) (by decide),
      State.cset_cf _ _ _ _ (by decide) (by decide), State.cset_cf_self _ _ _ _ (by decide)]
    rfl
  · rw [State.cset_cf _ _ _ _ (by decide) (by decide), State.cset_cf _ _ _ _ (by decide) (by decide),
      State.cset_cf_self _ _ _ _ (by decide)]
    rfl
  · rw [State.cset_cf_self _ _ _ _ (by decide)]
    rfl
  · rw [State.cset_cf _ _ _ _ (by decide) (by decide), State.cset_cf_self _ _ _ _ (by decide)]
    rfl

/-- What a basic cycle that has begun shows. -/
def State.CycleShown (s : State) (n : Can) (c : Nat) (e : State) : Prop :=
  e.cf n R.CAN_TT_STAT.cycle = c ∧ e.cf n R.CAN_TT_STAT.column = 0 ∧ e.cf n R.CAN_TT_STAT.running = 1
    ∧ e.cf n R.CAN_TT_STAT.ref_lost = 0 ∧ (e.can[n]).cell = none ∧ (e.can[n]).cycAt = s.now ∧ e = { s with store := e.store, can := e.can }

theorem State.cycleBegun_shown : State.CycleShown s n (c % 64) (s.cycleBegun n c) := by
  obtain ⟨h1, h2, h3, h4⟩ := s.cycleBegun_stat n c
  have hcan : (s.cycleBegun n c).can[n] = { s.can[n] with cell := none, cycAt := s.now } := by
    rw [State.cycleBegun_can]
    exact State.modCan_self ..
  exact ⟨h1, h2, h3, h4, congrArg CanC.cell hcan, congrArg CanC.cycAt hcan, State.eq_with_can fun p hp => s.cycleBegun_part n c hp⟩

end

section
variable {s : State} {n : Can} (hm : (s.can[n]).mode ≠ 0) (hst : s.cf n R.CAN_STAT.state ≠ 3)
include hm hst

theorem State.refMessage_follower (hr : s.cf n R.CAN_TT.role = 2) (v : BitVec 8) :
    s.refMessage n (some v) = s.cycleBegun n (v.toNat % 64) := by
  unfold State.refMessage
  dsimp only
  rw [if_neg (not_or.2 ⟨hm, hst⟩), hr]
  rfl

/-- The cycle that a master begins. -/
def State.nextCycle (s : State) (n : Can) : Nat :=
  if s.cf n R.CAN_TT_STAT.running = 1 then (s.cf n R.CAN_TT_STAT.cycle + 1) % (s.cf n R.CAN_TT.n_cycles + 1) else 0

theorem State.refMessage_master (hr : s.cf n R.CAN_TT.role = 1) {b : Fin 32} (hb : b.val = s.cf n R.CAN_TT.ref_buf)
    (hp : ((s.can[n]).tx[b]).pend = false)
    (hdue : s.cf n R.CAN_TT_STAT.running = 0 ∨ (s.can[n]).cycAt + 500 * s.cf n R.CAN_TT.cycle_len ≤ s.now) :
    s.refMessage n none = ((s.cycleBegun n (s.nextCycle n)).setRam (s.txAt n b.val + 2)
      (putBits (s.ram (s.txAt n b.val + 2)) 0 6 (s.nextCycle n))).txRequest n b false := by
  have hcond : (!s.fb (canB n) R.CAN_TT_STAT.running || s.cycleRun n 500) = true := by
    rcases hdue with h | h
    · rw [State.fb_of_zero h]; rfl
    · rw [show s.cycleRun n 500 = true from decide_eq_true h, Bool.or_true]
  have hnext : (if s.fb (canB n) R.CAN_TT_STAT.running then (s.cf n R.CAN_TT_STAT.cycle + 1) % (s.cf n R.CAN_TT.n_cycles + 1) else 0)
      = s.nextCycle n := by
    unfold State.nextCycle
    have hbit : s.cf n R.CAN_TT_STAT.running < 2 := State.f_lt s _ R.CAN_TT_STAT.running
    by_cases h : s.cf n R.CAN_TT_STAT.running = 1
    · rw [if_pos h, State.fb_of_one h, if_pos rfl]
    · rw [if_neg h, State.fb_of_zero (by omega), if_neg Bool.false_ne_true]
  have hbuf : (⟨s.cf n R.CAN_TT.ref_buf % 32, Nat.mod_lt _ (by decide)⟩ : Fin 32) = b :=
    Fin.ext (by show _ % 32 = b.val; rw [← hb]; exact Nat.mod_eq_of_lt b.isLt)
  obtain ⟨y, hy⟩ : ∃ y, y = s.cycleBegun n (s.nextCycle n) := ⟨_, rfl⟩
  have he : s.refMessage n none = if ((y.can[n]).tx[b]).pend then y
      else (y.setRam (y.txAt n b.val + 2) (putBits (y.ram (y.txAt n b.val + 2)) 0 6 (s.nextCycle n))).txRequest n b false := by
    rw [hy, ← hnext]
    subst hbuf
    unfold State.refMessage
    dsimp only
    rw [if_neg (not_or.2 ⟨hm, hst⟩), hr]
    exact if_pos hcond
  have hpend : ((y.can[n]).tx[b]).pend = false := by
    rw [hy, State.cycleBegun_can, State.modCan_self]
    exact hp
  have hat : y.txAt n b.val = s.txAt n b.val := State.txAt_of_fields (fun f hf => by
    rw [hy]; exact State.cycleBegun_cf s n _ (by rw [hf]; decide)) _
  rw [he, hpend, if_neg Bool.false_ne_true, hat, hy, State.cycleBegun_ram]

/-- A master's basic cycle: its reference message carries the cycle, and is requested. -/
theorem State.refMessage_master_view (hr : s.cf n R.CAN_TT.role = 1) {b : Fin 32} (hb : b.val = s.cf n R.CAN_TT.ref_buf)
    (hcount : b.val < s.cf n R.CAN_TXB.count) (hp : ((s.can[n]).tx[b]).pend = false) (hroute : bitAt (s.txW1 n b.val) 11 = false)
    (hdue : s.cf n R.CAN_TT_STAT.running = 0 ∨ (s.can[n]).cycAt + 500 * s.cf n R.CAN_TT.cycle_len ≤ s.now) :
    let e := s.refMessage n none
    State.CycleShown s n (s.nextCycle n % 64) e ∧ ((e.can[n]).tx[b]).pend = true ∧ ((e.can[n]).tx[b]).reqAt = s.now
      ∧ e.ram (s.txAt n b.val + 2) % 64 = e.cf n R.CAN_TT_STAT.cycle := by
  intro e
  obtain ⟨hcycle, hcolumn, hrunning, hlost, hcell, hcyc, -⟩ := s.cycleBegun_shown n (s.nextCycle n)
  obtain ⟨y, hy⟩ : ∃ y, y = s.cycleBegun n (s.nextCycle n) := ⟨_, rfl⟩
  obtain ⟨z, hz⟩ : ∃ z, z = y.setRam (s.txAt n b.val + 2) (putBits (s.ram (s.txAt n b.val + 2)) 0 6 (s.nextCycle n)) := ⟨_, rfl⟩
  have hycf {f : Fld} (h : f.off ≠ R.CAN_TT_STAT.reg) : y.cf n f = s.cf n f := by rw [hy]; exact State.cycleBegun_cf s n _ h
  have hzcf {f : Fld} (h : f.off < 0x400) : z.cf n f = y.cf n f := by rw [hz]; exact State.setRam_cf _ _ _ _ h
  have hzpart {p : Part} (h : p ∉ [.store]) : z.part p = y.part p := by rw [hz]; exact State.setRam_part _ _ _ h
  have hycan : (y.can[n]) = { s.can[n] with cell := none, cycAt := s.now } := by
    rw [hy, State.cycleBegun_can]
    exact State.modCan_self ..
  have hzcan : z.can = y.can := hzpart (p := .can) (by simp)
  have hznow : z.now = s.now := (hzpart (p := .now) (by simp)).trans (by rw [hy]; exact State.cycleBegun_part s n _ (p := .now) (by simp))
  have hw1 : z.txW1 n b.val = s.txW1 n b.val := by
    have hat : z.txAt n b.val = s.txAt n b.val := State.txAt_of_fields (fun f hf =>
      (hzcf (by rw [hf]; decide)).trans (hycf (by rw [hf]; decide))) _
    unfold State.txW1
    rw [hat, hz, State.setRam_ram_ne _ _ (by omega), hy, State.cycleBegun_ram]
  have he : e = z.modTx n b (·.requested s.now false) := by
    rw [← hznow, show e = z.txRequest n b false by rw [hz, hy]; exact State.refMessage_master hm hst hr hb hp hdue]
    refine State.txRequest_plain false ?_ ?_ ?_ (by rw [hw1]; exact hroute)
    · rw [hzcf (by decide), hycf (by decide)]; exact hcount
    · rw [hzcan, hycan]; exact hm
    · rw [hzcan, hycan]; exact hp
  have hecf {f : Fld} (h : f.off < 0x400) : e.cf n f = y.cf n f := by rw [he, State.modTx_cf, hzcf h]
  have hecan : e.can[n] = { z.can[n] with tx := upd (z.can[n]).tx b (((z.can[n]).tx[b]).requested s.now false) } := by
    rw [he]
    exact State.modCan_self ..
  have hself : (e.can[n]).tx[b] = ((z.can[n]).tx[b]).requested s.now false := by rw [he]; exact State.modTx_self ..
  rw [← hy] at hcycle hcolumn hrunning hlost hcell hcyc
  refine ⟨⟨?_, ?_, ?_, ?_, ?_, ?_, ?_⟩, congrArg TxBuf.pend hself, congrArg TxBuf.reqAt hself, ?_⟩
  · rw [hecf (by decide), hcycle]
  · rw [hecf (by decide), hcolumn]
  · rw [hecf (by decide), hrunning]
  · rw [hecf (by decide), hlost]
  · exact (congrArg CanC.cell hecan).trans (by rw [hzcan]; exact hcell)
  · exact (congrArg CanC.cycAt hecan).trans (by rw [hzcan]; exact hcyc)
  · exact State.eq_with_can fun p h => by
      rw [he, State.modTx_part _ _ _ _ (by simp at h; simp [h]), hzpart (by simp at h; simp [h]), hy, State.cycleBegun_part s n _ h]
  · have hram : e.ram (s.txAt n b.val + 2) = putBits (s.ram (s.txAt n b.val + 2)) 0 6 (s.nextCycle n) % 2 ^ 32 := by
      rw [he, State.ram_of_word (show (z.modTx n b _).word _ = z.word _ from State.modCan_word ..), hz, State.setRam_ram]
    rw [hram, hecf (by decide), hcycle]
    simp only [putBits, bitsAt]
    omega

omit hm hst in
theorem State.column_cell (col : Nat) : (s.cset n R.CAN_TT_STAT.column col).cellByte n ((s.cset n R.CAN_TT_STAT.column col).cf n
    R.CAN_TT_STAT.cycle) col = s.cellByte n (s.cf n R.CAN_TT_STAT.cycle) col := by
  unfold State.cellByte
  rw [State.cset_cf _ _ _ _ (by decide) (by decide), State.cset_cf _ _ _ _ (by decide) (by decide), State.cset_ram _ _ _ _ _ (by decide)]

/-- A column's mark whose cell is not valid. -/
theorem State.schedMark_empty (hr : s.cf n R.CAN_TT_STAT.running = 1) {col : Nat} (hdue : (s.can[n]).cycAt + 500 * s.colMark n col ≤ s.now)
    (hx : cellValid (s.cellByte n (s.cf n R.CAN_TT_STAT.cycle) col) = false) : s.schedMark n col = s.cset n R.CAN_TT_STAT.column col := by
  unfold State.schedMark
  rw [if_pos ⟨State.fb_of_one hr, hm, hst, hdue⟩]
  exact if_neg (by rw [State.column_cell, hx]; exact Bool.false_ne_true)

/-- A column's mark whose cell names a buffer: the buffer is requested for one attempt. -/
theorem State.schedMark_valid (hr : s.cf n R.CAN_TT_STAT.running = 1) {col : Nat} (hdue : (s.can[n]).cycAt + 500 * s.colMark n col ≤ s.now)
    {b : Fin 32} (hx : cellValid (s.cellByte n (s.cf n R.CAN_TT_STAT.cycle) col) = true)
    (hb : b.val = s.cellByte n (s.cf n R.CAN_TT_STAT.cycle) col % 32) (hcount : b.val < s.cf n R.CAN_TXB.count)
    (hp : ((s.can[n]).tx[b]).pend = false) (hroute : bitAt (s.txW1 n b.val) 11 = false) :
    s.schedMark n col = ((s.cset n R.CAN_TT_STAT.column col).modCan n fun c => { c with cell := some b, markAt := s.now }).modTx n b
      (·.requested s.now true) := by
  obtain ⟨y, hy⟩ : ∃ y, y = s.cset n R.CAN_TT_STAT.column col := ⟨_, rfl⟩
  have hynow : y.now = s.now := by rw [hy]; exact State.cset_part (p := .now) _ _ _ _ (by simp)
  have hycan : y.can = s.can := by rw [hy, State.cset_can]
  obtain ⟨z, hz⟩ : ∃ z, z = y.modCan n fun c => { c with cell := some b, markAt := y.now } := ⟨_, rfl⟩
  have hzcan : z.can[n] = { s.can[n] with cell := some b, markAt := y.now } := by
    rw [hz, State.modCan_self, hycan]
  have hzcf {f : Fld} (h : f.off ≠ R.CAN_TT_STAT.reg) : z.cf n f = s.cf n f := by
    rw [hz, State.modCan_cf, hy]
    exact State.cset_cf _ _ _ _ (by decide) (.inl h)
  have hzram (i : Nat) : z.ram i = s.ram i := by
    rw [hz, State.ram_of_word (State.modCan_word y n _ _), hy, State.cset_ram _ _ _ _ _ (by decide)]
  have hw1 : z.txW1 n b.val = s.txW1 n b.val := by
    unfold State.txW1
    rw [State.txAt_of_fields (s := s) (fun f hf => hzcf (by rw [hf]; decide)), hzram]
  have hznow : z.now = y.now := by rw [hz]; exact State.modCan_part (p := .now) _ _ _ (by simp)
  have he : s.schedMark n col = z.txRequest n b true := by
    have hbuf : (⟨s.cellByte n (s.cf n R.CAN_TT_STAT.cycle) col % 32, Nat.mod_lt _ (by decide)⟩ : Fin 32) = b := Fin.ext hb.symm
    unfold State.schedMark
    rw [if_pos ⟨State.fb_of_one hr, hm, hst, hdue⟩]
    dsimp only
    rw [if_pos (by rw [State.column_cell]; exact hx), hz, hy]
    subst hbuf
    simp only [State.column_cell]
  rw [he, State.txRequest_plain true (by rw [hzcf (by decide)]; exact hcount) (by rw [hzcan]; exact hm) (by rw [hzcan]; exact hp)
    (by rw [hw1]; exact hroute), hznow, hz, hynow, hy]

end

/-- What a mark leaves whose cell names a buffer. -/
theorem canSchedule_marked (s : State) (n : Can) (col : Fin 32) (b : Fin 32) :
    let e := ((s.cset n R.CAN_TT_STAT.column col.val).modCan n fun c => { c with cell := some b, markAt := s.now }).modTx n b
      (·.requested s.now true)
    e = { s with store := e.store, can := e.can } ∧ e.cf n R.CAN_TT_STAT.column = col.val ∧ (e.can[n]).cell = some b
      ∧ (e.can[n]).markAt = s.now ∧ (e.can[n]).tx[b] = ((s.can[n]).tx[b]).requested s.now true := by
  intro e
  obtain ⟨y, hy⟩ : ∃ y, y = s.cset n R.CAN_TT_STAT.column col.val := ⟨_, rfl⟩
  obtain ⟨z, hz⟩ : ∃ z, z = y.modCan n fun c => { c with cell := some b, markAt := s.now } := ⟨_, rfl⟩
  have he : e = z.modTx n b (·.requested s.now true) := by rw [hz, hy]
  have hzcan : z.can[n] = { s.can[n] with cell := some b, markAt := s.now } := by
    rw [hz, State.modCan_self, hy, State.cset_can]
  have hecan : e.can[n] = { z.can[n] with tx := upd (z.can[n]).tx b (((z.can[n]).tx[b]).requested s.now true) } := by
    rw [he]
    exact State.modCan_self ..
  refine ⟨State.eq_with_can fun p h => ?_, ?_, ?_, ?_, ?_⟩
  · rw [he, State.modTx_part _ _ _ _ (by simp at h; simp [h]), hz, State.modCan_part _ _ _ (by simp at h; simp [h]), hy,
      State.cset_part _ _ _ _ (by simp at h; simp [h])]
  · rw [he, State.modTx_cf, hz, State.modCan_cf, hy, State.cset_cf_self _ _ _ _ (by decide)]
    exact Nat.mod_eq_of_lt col.isLt
  · exact (congrArg CanC.cell hecan).trans (congrArg CanC.cell hzcan)
  · exact (congrArg CanC.markAt hecan).trans (congrArg CanC.markAt hzcan)
  · rw [he, State.modTx_self, hzcan]

/-! ## Losses and misses -/

section
variable {s : State} {n : Can}

/-- A follower that has had no reference message. -/
theorem State.refLost_view (hr : s.cf n R.CAN_TT.role = 2) (hrun : s.cf n R.CAN_TT_STAT.running = 1)
    (hdue : (s.can[n]).cycAt + 750 * s.cf n R.CAN_TT.cycle_len ≤ s.now) :
    let e := s.refLost n
    e = { s with store := e.store } ∧ e.cf n R.CAN_TT_STAT.running = 0 ∧ e.cf n R.CAN_TT_STAT.ref_lost = 1
      ∧ e.cf n R.CAN_TT_STAT.ref_lost_count = Nat.min (s.cf n R.CAN_TT_STAT.ref_lost_count + 1) 255 := by
  intro e
  obtain ⟨y, hy⟩ : ∃ y, y = (s.cset n R.CAN_TT_STAT.running 0).cset n R.CAN_TT_STAT.ref_lost 1 := ⟨_, rfl⟩
  have he : e = y.cinc n R.CAN_TT_STAT.ref_lost_count := by
    rw [hy]
    exact if_pos ⟨hr, State.fb_of_one hrun, decide_eq_true hdue⟩
  have hinc {f : Fld} (h : f.lo + f.w ≤ 24) : e.cf n f = y.cf n f := by
    rw [he]
    exact State.f_setF_apart _ _ _ _ _ _ (by decide) (.inl h)
  refine ⟨State.eq_with_store fun p hp => ?_, ?_, ?_, ?_⟩
  · rw [he, State.cinc_part _ _ _ (by simpa using hp), hy, State.cset_part _ _ _ _ (by simpa using hp), State.cset_part _ _ _ _ (by simpa using hp)]
  · rw [hinc (by decide), hy, State.cset_cf _ _ _ _ (by decide) (by decide), State.cset_cf_self _ _ _ _ (by decide)]
    rfl
  · rw [hinc (by decide), hy, State.cset_cf_self _ _ _ _ (by decide)]
    rfl
  · rw [he, State.cinc_f _ _ _ (by decide), hy, State.cset_cf _ _ _ _ (by decide) (by decide), State.cset_cf _ _ _ _ (by decide) (by decide)]
    rfl

/-- No idle bus came in time: the cell's buffer ends, and the miss is counted. -/
theorem State.schedMissed_view {b : Fin 32} (hc : (s.can[n]).cell = some b) (hp : ((s.can[n]).tx[b]).pend = true)
    (hs : ((s.can[n]).tx[b]).single = true) (hw : s.winOver n = true) :
    let e := s.schedMissed n
    (e.can[n]).cell = none ∧ ((e.can[n]).tx[b]).pend = false ∧ e.ram (s.txAt n b.val + 1) / 2 ^ 29 = 6
      ∧ e.cf n R.CAN_TT_STAT.sched_miss = Nat.min (s.cf n R.CAN_TT_STAT.sched_miss + 1) 255
      ∧ e = { s with store := e.store, can := e.can } := by
  intro e
  obtain ⟨y, hy⟩ : ∃ y, y = s.modCan n fun c => { c with cell := none } := ⟨_, rfl⟩
  have he : e = (y.txOut n 6 b).cinc n R.CAN_TT_STAT.sched_miss := by
    show s.schedMissed n = _
    unfold State.schedMissed
    rw [hc]
    dsimp only
    unfold State.onlyIf
    rw [if_pos hw]
    dsimp only
    rw [if_pos ⟨hp, hs⟩, hy]
  have hview := y.txOut_view n (by decide : 6 < 8) b
  have hecan : e.can = (y.txOut n 6 b).can := by rw [he, State.cinc_can]
  have hat : y.txAt n b.val = s.txAt n b.val := State.txAt_of_fields (fun f _ => by rw [hy, State.modCan_cf]) _
  refine ⟨?_, ?_, ?_, ?_, State.eq_with_can fun p h => ?_⟩
  · rw [hecan, hview.can]
    unfold State.modTx
    rw [State.modCan_self, hy, State.modCan_self]
  · rw [hecan, hview.self]
    rfl
  · rw [he, show ((y.txOut n 6 b).cinc n R.CAN_TT_STAT.sched_miss).ram (s.txAt n b.val + 1) = (y.txOut n 6 b).ram (s.txAt n b.val + 1) from
      State.cset_ram _ _ _ _ _ (by decide), ← hat]
    exact hview.outcome
  · rw [he, State.cinc_f _ _ _ (by decide), hview.missed, hy, State.modCan_cf]
    rfl
  · rw [he, State.cinc_part _ _ _ (by simp at h; simp [h]), hview.others p h, hy, State.modCan_part _ _ _ (by simp at h; simp [h])]

/-- The announcement of the session value. -/
theorem State.announce_due (hk : s.f pk R.SEC_CAN_CFG.ann_ctl = n.val) (hd : s.dev.st.operates = true) (ht : s.sec.trngFail = false)
    (hm : (s.can[n]).mode ≠ 0) (hst : s.cf n R.CAN_STAT.state ≠ 3) (hdue : s.sec.annAt ≤ s.now) :
    s.announce = ({ s with sec := { s.sec with annAt := s.sec.annAt + 50000000 * s.f pk R.SEC_CAN_CFG2.ann_period } }).modCan n
      fun c => { c with ann := some { bytes := beBytes 4 s.sec.sv.toNat ++ [0, 0, 0, 0], attempts := 0 } } := by
  have hlt : s.f pk R.SEC_CAN_CFG.ann_ctl < 3 := by rw [hk]; exact n.isLt
  obtain rfl : n = ⟨_, hlt⟩ := Fin.ext hk.symm
  unfold State.announce
  dsimp only
  rw [dif_pos ⟨hlt, hdue⟩, if_pos ⟨hd, by rw [ht]; rfl, hm, hst⟩]
  rfl

theorem State.announce_view (hk : s.f pk R.SEC_CAN_CFG.ann_ctl = n.val) (hd : s.dev.st.operates = true) (ht : s.sec.trngFail = false)
    (hm : (s.can[n]).mode ≠ 0) (hst : s.cf n R.CAN_STAT.state ≠ 3) (hdue : s.sec.annAt ≤ s.now) :
    let e := s.announce
    e = { s with
        can := e.can
        sec := { s.sec with annAt := s.sec.annAt + 50000000 * s.f pk R.SEC_CAN_CFG2.ann_period } }
      ∧ (∀ m : Can, m ≠ n → e.can[m] = s.can[m])
      ∧ e.can[n] = { s.can[n] with ann := some { bytes := beBytes 4 s.sec.sv.toNat ++ [0, 0, 0, 0], attempts := 0 } } := by
  intro e
  obtain ⟨y, hy⟩ : ∃ y, y = { s with sec := { s.sec with annAt := s.sec.annAt + 50000000 * s.f pk R.SEC_CAN_CFG2.ann_period } } :=
    ⟨_, rfl⟩
  have hcan : y.can = s.can := by rw [hy]
  have he : e = y.modCan n fun c => { c with ann := some { bytes := beBytes 4 s.sec.sv.toNat ++ [0, 0, 0, 0], attempts := 0 } } := by
    rw [hy]
    exact State.announce_due hk hd ht hm hst hdue
  refine ⟨?_, fun m hmn => ?_, ?_⟩
  · rw [he, hy]
    rfl
  · rw [he, State.modCan_other _ _ _ hmn, hcan]
  · rw [he, State.modCan_self, hcan]

end

end Sys2Proof.Machine

open Sys2Proof Sys2Proof.Machine

theorem canSchedule : Claims.CanSchedule := by
  intro s dt n u tx on free begun
  have hu : s.elapse dt = u := rfl
  refine ⟨fun ⟨hm, hst⟩ hr v => ?_, fun ⟨hm, hst⟩ hr b hb ⟨hcount, hp, hroute⟩ hat hdue => ?_, fun hr hrun hdue => ?_,
    fun ⟨hm, hst⟩ hrun col => ?_, fun b hc hp hs hat hw => ?_, fun hk hd ht ⟨hm, hst⟩ hdue => ?_⟩
  · refine State.gives_eq (eff := (·.refMessage n (some v))) rfl hu (State.refMessage_follower hm hst hr v) ⟨?_, fun b => ?_⟩
    · have h := u.cycleBegun_shown n (v.toNat % 64)
      rwa [Nat.mod_mod] at h
    · exact State.cycleBegun_tx ..
  · obtain ⟨hshown, hpend, hreq, hram⟩ := State.refMessage_master_view hm hst hr hb hcount hp hroute hdue
    refine State.gives_after (eff := (·.refMessage n none)) rfl hu ⟨?_, hpend, hreq, hram⟩
    rw [show (if u.cf n R.CAN_TT_STAT.running = 1 then (u.cf n R.CAN_TT_STAT.cycle + 1) % (u.cf n R.CAN_TT.n_cycles + 1) % 64 else 0)
      = u.nextCycle n % 64 by unfold State.nextCycle; split <;> rfl]
    exact hshown
  · exact State.gives_after (eff := (·.refLost n)) rfl hu (State.refLost_view hr hrun hdue)
  · intro x hdue
    have hcol : col.val % 32 = col.val := Nat.mod_eq_of_lt col.isLt
    refine ⟨fun hx => ?_, fun b hx hb ⟨hcount, hp, hroute⟩ => ?_⟩
    · refine State.gives_eq (eff := (·.schedMark n col.val)) rfl hu (State.schedMark_empty hm hst hrun hdue hx) ⟨?_, ?_⟩
      · exact State.eq_with_store fun p hp => State.cset_part _ _ _ _ (by simpa using hp)
      · exact (State.cset_cf_self u n R.CAN_TT_STAT.column _ (by decide)).trans hcol
    · refine State.gives_eq (eff := (·.schedMark n col.val)) rfl hu (State.schedMark_valid hm hst hrun hdue hx hb hcount hp hroute)
        (canSchedule_marked ..)
  · exact State.gives_after (eff := (·.schedMissed n)) rfl hu (State.schedMissed_view hc hp hs hw)
  · have hdev : u.dev.st ≠ .off := fun h => by rw [h] at hd; exact absurd hd (by decide)
    exact State.gives_onKilid (act := State.announce) rfl hu hdev (State.announce_view hk hd ht hm hst hdue)

/-- Settles O57, by what each operation of a controller leaves of its status word, its record and its schedule. -/
theorem canModesAndSchedule : Obligations.CanModesAndSchedule := ⟨canModes, canSchedule⟩
end

section
/-! PROOFS. The store of sheets: window writes (R203) and checks (R204). -/

namespace Sys2Proof.Machine

/-! ## The state of a sheet -/

/-- The field that holds the state of a sheet. -/
def sheetFld (n : Nat) : Fld := ⟨0x9100 + n / 16, 2 * (n % 16), 2⟩

theorem State.sheetSt_eq (s : State) (n : Nat) : s.sheetSt n = s.f 0 (sheetFld n) := by
  unfold State.sheetSt State.f
  rw [Nat.zero_add]
  rfl

theorem State.sheetSt_congr {s t : State} {n : Nat} (h : s.word (0x9100 + n / 16) = t.word (0x9100 + n / 16)) :
    s.sheetSt n = t.sheetSt n := by
  unfold State.sheetSt
  rw [h]

theorem State.setSheet_word (s : State) {n st k : Nat} (h : k ≠ 0x9100 + n / 16) (h0 : k ≠ 0x9000) :
    (s.setSheet n st).word k = s.word k :=
  (State.word_setF ..).trans <| (if_neg (by simpa [pk, R.ATL_STAT.n_loaded] using h0)).trans <|
    (State.word_setF ..).trans (if_neg (by rw [Nat.zero_add]; exact h))

theorem State.setSheet_f (s : State) {n st b : Nat} {f : Fld} (h : b + f.off < 0x9000 ∨ b + f.off = 0x9001 ∨ b + f.off = 0x9002) :
    (s.setSheet n st).f b f = s.f b f :=
  congrArg f.get (s.setSheet_word (by omega) (by omega))

theorem State.setSheet_st (s : State) {n st : Nat} (hst : st < 4) : (s.setSheet n st).sheetSt n = st := by
  have hlo := Nat.mod_lt n (by decide : 0 < 16)
  rw [State.sheetSt_eq]
  refine (State.f_setF_other _ _ _ _ _ _ ?_).trans ((State.f_setF_self _ _ _ _ ?_).trans (Nat.mod_eq_of_lt hst))
  · simp only [sheetFld, pk, R.ATL_STAT.n_loaded]
    omega
  · show 2 * (n % 16) + 2 ≤ 32
    omega

/-! ## Sheets in use -/

theorem any_insertKey {l : List (Nat × Word)} {p : Nat × Word → Bool} {k : Nat} (w : Word) (h : ∀ v, p (k, v) = false) :
    (insertKey l k w).any p = l.any p := by
  induction l with
  | nil => simp [insertKey, h]
  | cons x l ih =>
    obtain ⟨j, v⟩ := x
    unfold insertKey
    split
    · simp [h]
    · split
      next hj =>
        subst hj
        simp [h]
      next => simp [ih]

theorem any_eraseKey {l : List (Nat × Word)} {p : Nat × Word → Bool} {k : Nat} (h : ∀ v, p (k, v) = false) :
    (eraseKey l k).any p = l.any p := by
  induction l with
  | nil => rfl
  | cons x l ih =>
    obtain ⟨j, v⟩ := x
    unfold eraseKey
    split
    next hj =>
      subst hj
      simp [h, ih]
    next => simp [ih]

/-- A word that is no word of an index names no sheet. -/
theorem State.sheetInUse_setWord (s : State) {k : Nat} (w : Word) (n : Nat) (h : isIdx k = false) :
    (s.setWord k w).sheetInUse n = s.sheetInUse n := by
  have hp : ∀ v : Word, (fun e : Nat × Word => isIdx e.1 && idxNames e.2.toNat n) (k, v) = false := fun v => by simp [h]
  have hany : (s.setWord k w).store.any (fun e => isIdx e.1 && idxNames e.2.toNat n)
      = s.store.any fun e => isIdx e.1 && idxNames e.2.toNat n := by
    unfold State.setWord
    dsimp only
    split
    · exact any_eraseKey hp
    · exact any_insertKey w hp
  exact congrArg (· || _) hany

/-! ## A write of the window -/

theorem State.gives_hostWrite {s u : State} {dt : Nat} {i : Instr} {k : Nat} {w : Word} {P : State → Prop}
    (hx : exec i s = s.after dt (·.portWrite .host k w)) (hu : s.elapse dt = u) (ho : u.hostOpen)
    (hp : P (u.asked.writeWord .host k w).countRange) : s.Gives i dt P := by
  refine State.gives_after (eff := (·.portWrite .host k w)) hx hu ?_
  unfold State.portWrite
  dsimp only
  rw [State.hostDo_open ho]
  exact hp

theorem State.writeWord_sheet (s : State) (p : Port) {off : Nat} (w : Word) (h : off < 0x100000) :
    s.writeWord p (0x400000 + off) w = (s.answer .ok).sheetWrite off w := by
  have hl : locate (0x400000 + off) = (.atlRam, off) := by
    unfold locate
    iterate 19 rw [if_neg (by omega)]
    rw [if_pos (by omega), Nat.add_sub_cancel_left]
  have hi : implemented (0x400000 + off) = true := by
    unfold implemented
    rw [hl]
  unfold State.writeWord
  dsimp only
  rw [hi, hl]
  rfl

theorem State.sheetWrite_busy (s : State) {off : Nat} (w : Word) (h : s.sheetSt (off / 256) = 3 ∨ s.sheetInUse (off / 256) = true) :
    s.sheetWrite off w = s.answer .sheetBusy := if_pos h

theorem State.sheetWrite_view (s : State) {off : Nat} (w : Word) (h3 : s.sheetSt (off / 256) ≠ 3)
    (hu : s.sheetInUse (off / 256) = false) (ho : off < 0x100000) :
    let e := s.sheetWrite off w
    e = { s with store := e.store, status := .ok, imgSheets := s.imgSheets.filter fun p => p.1 != off / 256 }
      ∧ e.word (0x400000 + off) = w ∧ e.sheetSt (off / 256) = 0
      ∧ ∀ k, k ≠ 0x400000 + off → k ≠ 0x9100 + off / 256 / 16 → k ≠ R.ATL_STAT.n_loaded.off → e.word k = s.word k := by
  intro e
  obtain ⟨y, hy⟩ : ∃ y, y = { s.setWord (0x400000 + off) w with imgSheets := s.imgSheets.filter fun p => p.1 != off / 256 } :=
    ⟨_, rfl⟩
  have hyw (k : Nat) : y.word k = (s.setWord (0x400000 + off) w).word k := by rw [hy]; rfl
  have hyst : y.sheetSt (off / 256) = s.sheetSt (off / 256) :=
    State.sheetSt_congr ((hyw _).trans (State.word_setWord_ne _ _ (by omega)))
  have he : e = (if y.sheetSt (off / 256) = 0 then y else y.setSheet (off / 256) 0).answer .ok := by
    rw [hy]
    exact if_neg fun h => h.elim h3 (by rw [hu]; simp)
  have hx : ∃ x : State, e = x.answer .ok ∧ (∀ p : Part, p ≠ .store → x.part p = y.part p) ∧ x.sheetSt (off / 256) = 0
      ∧ ∀ k, k ≠ 0x9100 + off / 256 / 16 → k ≠ R.ATL_STAT.n_loaded.off → x.word k = y.word k := by
    by_cases h0 : y.sheetSt (off / 256) = 0
    · exact ⟨y, by rw [he, if_pos h0], fun _ _ => rfl, h0, fun _ _ _ => rfl⟩
    · exact ⟨_, by rw [he, if_neg h0], fun p hp => State.setSheet_part _ _ _ (by simpa using hp), State.setSheet_st _ (by decide),
        fun k h1 h2 => State.setSheet_word _ h1 h2⟩
  obtain ⟨x, hex, hxp, hxst, hxw⟩ := hx
  have hew (k : Nat) : e.word k = x.word k := by rw [hex]; rfl
  have hxy : x = { y with store := x.store } := State.eq_with_store hxp
  refine ⟨?_, ?_, ?_, fun k hk h1 h2 => ?_⟩
  · rw [hex, hxy, hy]
    rfl
  · rw [hew, hxw _ (by omega) (by simp only [R.ATL_STAT.n_loaded]; omega), hyw]
    exact State.word_setWord_self ..
  · exact (State.sheetSt_congr (hew _)).trans hxst
  · rw [hew, hxw _ h1 h2, hyw]
    exact State.word_setWord_ne _ _ hk

/-! ## A check begins or is refused -/

section
variable (s : State) (n : Nat)

/-- A check that is asked for while one runs, or of a sheet in use. -/
theorem State.sheetCheck_refused (h : s.fb pk R.ATL_CMD.busy = true ∨ s.sheetInUse n = true) :
    let e := s.sheetCheck n
    e = { s with store := e.store } ∧ e.f pk R.ATL_CMD.result = 6 ∧ ∀ k, k ≠ R.ATL_CMD.reg → e.word k = s.word k := by
  intro e
  obtain ⟨y, hy⟩ : ∃ y, y = s.setF pk R.ATL_CMD.sheet n := ⟨_, rfl⟩
  have hbusy : y.fb pk R.ATL_CMD.busy = s.fb pk R.ATL_CMD.busy := by
    rw [hy]
    exact congrArg (· != 0) (State.f_setF_apart _ _ _ _ _ _ (by decide) (by decide))
  have huse : y.sheetInUse n = s.sheetInUse n := by
    rw [hy]
    exact State.sheetInUse_setWord _ _ _ (by decide)
  have he : e = y.setF pk R.ATL_CMD.result 6 := by
    rw [hy]
    exact if_pos (by rw [← hy, hbusy, huse]; exact h)
  refine ⟨State.eq_with_store fun p hp => ?_, ?_, fun k hk => ?_⟩
  · rw [he, hy]
    simp [hp]
  · rw [he]
    exact State.f_setF_self _ _ _ _ (by decide)
  · rw [he, hy]
    exact ((State.word_setF ..).trans (if_neg hk)).trans ((State.word_setF ..).trans (if_neg hk))

theorem State.sheetCheck_begins (hb : s.fb pk R.ATL_CMD.busy = false) (h : s.sheetInUse n = false) (hn : n < 4096) :
    let e := s.sheetCheck n
    e = { s with store := e.store, atlChk := some n } ∧ e.f pk R.ATL_CMD.busy = 1 ∧ e.f pk R.ATL_CMD.result = 0
      ∧ e.f pk R.ATL_CMD.sheet = n ∧ e.sheetSt n = 3 := by
  intro e
  obtain ⟨y, hy⟩ : ∃ y, y = s.setF pk R.ATL_CMD.sheet n := ⟨_, rfl⟩
  have hbusy : y.fb pk R.ATL_CMD.busy = s.fb pk R.ATL_CMD.busy := by
    rw [hy]
    exact congrArg (· != 0) (State.f_setF_apart _ _ _ _ _ _ (by decide) (by decide))
  have huse : y.sheetInUse n = s.sheetInUse n := by
    rw [hy]
    exact State.sheetInUse_setWord _ _ _ (by decide)
  obtain ⟨x, hx⟩ : ∃ x, x = (y.setF pk R.ATL_CMD.busy 1).setF pk R.ATL_CMD.result 0 := ⟨_, rfl⟩
  obtain ⟨z, hz⟩ : ∃ z, z = x.setSheet n 3 := ⟨_, rfl⟩
  have he : e = { z with atlChk := some n } := by
    rw [hz, hx, hy]
    exact if_neg (by rw [← hy, hbusy, huse, hb, h]; simp)
  have hef (f : Fld) : e.f pk f = z.f pk f := by rw [he]; rfl
  have hzs : z = { s with store := z.store } := State.eq_with_store fun p hp => by
    rw [hz, hx, hy]
    simp [hp]
  refine ⟨?_, ?_, ?_, ?_, ?_⟩
  · rw [he, hzs]
  · rw [hef, hz, State.setSheet_f _ (by decide), hx, State.f_setF_apart _ _ _ _ _ _ (by decide) (by decide),
      State.f_setF_self _ _ _ _ (by decide)]
    rfl
  · rw [hef, hz, State.setSheet_f _ (by decide), hx, State.f_setF_self _ _ _ _ (by decide)]
    rfl
  · rw [hef, hz, State.setSheet_f _ (by decide), hx, State.f_setF_apart _ _ _ _ _ _ (by decide) (by decide),
      State.f_setF_apart _ _ _ _ _ _ (by decide) (by decide), hy, State.f_setF_self _ _ _ _ (by decide)]
    exact Nat.mod_eq_of_lt hn
  · rw [← State.setSheet_st (n := n) x (by decide : 3 < 4), ← hz]
    exact State.sheetSt_congr (by rw [he]; rfl)

end

/-! ## A check ends -/

/-- The four tests read the words of the store alone. -/
theorem State.sheetTest_congr {s t : State} (h : ∀ k, 0x400000 ≤ k → s.word k = t.word k) (n : Nat) :
    s.sheetTest n = t.sheetTest n := by
  have hword : s.sheetWord n = t.sheetWord n := funext fun i => congrArg BitVec.toNat (h _ (by unfold sheetAddr; omega))
  have hcarries : s.carries n = t.carries n := funext fun k => by unfold State.carries; rw [hword]
  have hcrc : s.sheetCrcOk n = t.sheetCrcOk n := by unfold State.sheetCrcOk; rw [hword]
  have horder : s.sheetOrder n = t.sheetOrder n := by unfold State.sheetOrder; rw [hword, hcarries]
  have hobs : s.sheetObs n = t.sheetObs n := by unfold State.sheetObs; rw [hword, hcarries]
  unfold State.sheetTest
  rw [hword, hcrc, horder, hobs]

theorem State.sheetTest_lt (s : State) (n : Nat) : s.sheetTest n < 8 := by
  unfold State.sheetTest
  split
  · decide
  · split
    · decide
    · split
      · decide
      · split <;> decide

theorem State.flagRow_mem (s : State) (n : Nat) : n / 8 ∈ (s.flagRow n).rowFlags := by
  unfold State.flagRow
  split
  next h => exact List.contains_iff_mem.1 h
  next => simp

theorem State.flagRow_word (s : State) (n k : Nat) : (s.flagRow n).word k = s.word k :=
  State.word_of_part (State.flagRow_part s n (by simp)) k

theorem State.eccCorrected_word (s : State) (n : Nat) {k : Nat} (h : k ≠ R.ATL_CNT.reg) : (s.eccCorrected n).word k = s.word k := by
  have hinc : ((s.inc pk R.ATL_CNT.ecc_corr).wear (s.rowUnit (n / 8))).word k = s.word k :=
    (State.word_of_part (State.wear_part _ _ (by simp)) k).trans ((State.word_setF ..).trans (if_neg h))
  unfold State.eccCorrected
  dsimp only
  split
  · exact (State.flagRow_word ..).trans hinc
  · exact hinc

/-- The reading of a check: the corrected errors of the sheet are counted. -/
theorem State.each_eccCorrected (s : State) (l : Ecc) (n : Nat) :
    (∀ p : Part, p ∉ [.health, .rowFlags, .store] → (s.each l fun _ t => t.eccCorrected n).part p = s.part p)
      ∧ ∀ k, k ≠ R.ATL_CNT.reg → (s.each l fun _ t => t.eccCorrected n).word k = s.word k := by
  refine State.each_keeps (P := fun t => (∀ p : Part, p ∉ [.health, .rowFlags, .store] → t.part p = s.part p)
    ∧ ∀ k, k ≠ R.ATL_CNT.reg → t.word k = s.word k) (fun _ t h => ⟨fun p hp => ?_, fun k hk => ?_⟩) s ⟨fun _ _ => rfl, fun _ _ => rfl⟩
  · exact (State.eccCorrected_part t n hp).trans (h.1 p hp)
  · exact (State.eccCorrected_word t n hk).trans (h.2 k hk)

/-- What the check has read. -/
def State.sheetRead (s : State) (n : Nat) (ecc : Ecc) : State :=
  ({ s.setF pk R.ATL_CMD.busy 0 with atlChk := none } : State).each (ecc.filter fun e => e.1.val == n && !e.2)
    fun _ t => t.eccCorrected n

section
variable {s : State} {n : Nat} {ecc : Ecc}

theorem State.sheetRead_view :
    (s.sheetRead n ecc).atlChk = none ∧ (s.sheetRead n ecc).f pk R.ATL_CMD.busy = 0 ∧ (s.sheetRead n ecc).cl = s.cl
      ∧ (s.sheetRead n ecc).mc = s.mc ∧ (s.sheetRead n ecc).gates = s.gates
      ∧ (∀ k, k ≠ R.ATL_CMD.reg → k ≠ R.ATL_CNT.reg → (s.sheetRead n ecc).word k = s.word k)
      ∧ ((∀ x ∈ ecc, x.1.val ≠ n) → s.sheetRead n ecc = { s with store := (s.sheetRead n ecc).store, atlChk := none }
        ∧ ∀ k, k ≠ R.ATL_CMD.reg → (s.sheetRead n ecc).word k = s.word k) := by
  obtain ⟨x, hx⟩ : ∃ x, x = s.setF pk R.ATL_CMD.busy 0 := ⟨_, rfl⟩
  obtain ⟨z, hz⟩ : ∃ z, z = { x with atlChk := none } := ⟨_, rfl⟩
  have he : s.sheetRead n ecc = z.each (ecc.filter fun e => e.1.val == n && !e.2) fun _ t => t.eccCorrected n := by rw [hz, hx]; rfl
  obtain ⟨hpart, hword⟩ := z.each_eccCorrected (ecc.filter fun e => e.1.val == n && !e.2) n
  rw [← he] at hpart hword
  have hzpart (p : Part) (h : p ∉ [.atlChk, .store]) : z.part p = s.part p := by
    rw [hz, State.with_atlChk_part _ _ (by simp at h; simp [h]), hx, State.setF_part _ _ _ _ (by simp at h; simp [h])]
  have hzword (k : Nat) : z.word k = x.word k := by rw [hz]; rfl
  have hxword {k : Nat} (h : k ≠ R.ATL_CMD.reg) : x.word k = s.word k := by
    rw [hx]
    exact (State.word_setF ..).trans (if_neg h)
  refine ⟨?_, ?_, ?_, ?_, ?_, fun k h1 h2 => ?_, fun h => ?_⟩
  · rw [show (s.sheetRead n ecc).atlChk = z.atlChk from hpart .atlChk (by simp), hz]
  · rw [show (s.sheetRead n ecc).f pk R.ATL_CMD.busy = x.f pk R.ATL_CMD.busy from
      congrArg R.ATL_CMD.busy.get ((hword _ (by decide)).trans (hzword _)), hx, State.f_setF_self _ _ _ _ (by decide)]
    rfl
  · exact (hpart .cl (by simp)).trans (hzpart .cl (by simp))
  · exact State.mcs_eq fun m q => (hpart (.mc m q) (by simp)).trans (hzpart (.mc m q) (by simp))
  · exact State.gates_eq fun o => (hpart (.gates o) (by simp)).trans (hzpart (.gates o) (by simp))
  · rw [hword k h2, hzword, hxword h1]
  · have hnil : (ecc.filter fun e => e.1.val == n && !e.2) = [] :=
      List.filter_eq_nil_iff.2 fun y hy => by simp [h y hy]
    have heq : s.sheetRead n ecc = z := by rw [he, hnil]; rfl
    rw [heq]
    refine ⟨?_, fun k hk => (hzword k).trans (hxword hk)⟩
    have hxs : x = { s with store := x.store } := State.eq_with_store fun p hp => by rw [hx]; exact State.setF_part _ _ _ _ (by simpa using hp)
    rw [hz, hxs]

/-- What has been read decides. -/
theorem State.sheetCheckDone_eq (hc : s.atlChk = some n) : s.sheetCheckDone ecc =
    if ecc.any fun e => e.1.val == n && e.2 then
      ((((s.sheetRead n ecc).setF pk R.ATL_CMD.result 2).setSheet n 2).inc pk R.ATL_CNT.uncorr).flagRow n
    else ((s.sheetRead n ecc).setF pk R.ATL_CMD.result ((s.sheetRead n ecc).sheetTest n)).setSheet n
      (if (s.sheetRead n ecc).sheetTest n = 1 then 1 else 0) := by
  unfold State.sheetCheckDone
  rw [hc]
  rfl

/-- No uncorrectable error: the four tests decide. -/
theorem State.sheetCheckDone_tested (hc : s.atlChk = some n) (h : ∀ x ∈ ecc, x.1.val = n → x.2 = false) :
    let e := s.sheetCheckDone ecc
    e.atlChk = none ∧ e.f pk R.ATL_CMD.busy = 0 ∧ e.f pk R.ATL_CMD.result = s.sheetTest n
      ∧ e.sheetSt n = (if s.sheetTest n = 1 then 1 else 0) ∧ e.cl = s.cl ∧ e.mc = s.mc ∧ e.gates = s.gates
      ∧ ((∀ x ∈ ecc, x.1.val ≠ n) → e = { s with store := e.store, atlChk := none }
        ∧ ∀ k, k ≠ R.ATL_CMD.reg → k ≠ 0x9100 + n / 16 → k ≠ R.ATL_STAT.n_loaded.off → e.word k = s.word k) := by
  intro e
  obtain ⟨hchk, hbusy, hcl, hmc, hgates, hword, hcalm⟩ := State.sheetRead_view (s := s) (n := n) (ecc := ecc)
  obtain ⟨y, hy⟩ : ∃ y, y = s.sheetRead n ecc := ⟨_, rfl⟩
  rw [← hy] at hchk hbusy hcl hmc hgates hword hcalm
  have hany : ecc.any (fun e => e.1.val == n && e.2) = false := List.any_eq_false.2 fun x hx => by
    simp only [Bool.and_eq_true, beq_iff_eq]
    exact fun ⟨h1, h2⟩ => Bool.false_ne_true ((h x hx h1).symm.trans h2)
  have htest : y.sheetTest n = s.sheetTest n := State.sheetTest_congr (fun k hk => hword k
    (by simp only [R.ATL_CMD.reg]; omega) (by simp only [R.ATL_CNT.reg]; omega)) n
  obtain ⟨x, hx⟩ : ∃ x, x = y.setF pk R.ATL_CMD.result (s.sheetTest n) := ⟨_, rfl⟩
  have he : e = x.setSheet n (if s.sheetTest n = 1 then 1 else 0) := by
    rw [hx, ← htest, hy]
    exact (State.sheetCheckDone_eq hc).trans (if_neg (by rw [hany]; decide))
  have hpart {p : Part} (hp : p ∉ [.store]) : e.part p = y.part p := by
    rw [he, State.setSheet_part _ _ _ hp, hx, State.setF_part _ _ _ _ hp]
  have hle : (if s.sheetTest n = 1 then 1 else 0) < 4 := by split <;> decide
  refine ⟨(hpart (p := .atlChk) (by simp)).trans hchk, ?_, ?_, ?_, (hpart (p := .cl) (by simp)).trans hcl,
    (State.mcs_eq fun m q => hpart (by simp)).trans hmc, (State.gates_eq fun o => hpart (by simp)).trans hgates, fun hno => ?_⟩
  · rw [he, State.setSheet_f _ (by decide), hx, State.f_setF_apart _ _ _ _ _ _ (by decide) (by decide), hbusy]
  · rw [he, State.setSheet_f _ (by decide), hx, State.f_setF_self _ _ _ _ (by decide)]
    exact Nat.mod_eq_of_lt (s.sheetTest_lt n)
  · rw [he]
    exact State.setSheet_st _ hle
  · obtain ⟨hys, hyword⟩ := hcalm hno
    have hey : e = { y with store := e.store } := State.eq_with_store fun p hp => hpart (by simpa using hp)
    refine ⟨?_, fun k h1 h2 h3 => ?_⟩
    · rw [hys] at hey
      exact hey
    · rw [he, State.setSheet_word _ h2 h3, hx, ← hyword k h1]
      exact (State.word_setF ..).trans (if_neg h1)

/-- An uncorrectable error: the sheet is bad, and its row group is flagged. -/
theorem State.sheetCheckDone_failed (hc : s.atlChk = some n) (h : ∃ x ∈ ecc, x.1.val = n ∧ x.2 = true) :
    let e := s.sheetCheckDone ecc
    e.atlChk = none ∧ n / 8 ∈ e.rowFlags ∧ e.f pk R.ATL_CMD.busy = 0 ∧ e.f pk R.ATL_CMD.result = 2
      ∧ e.sheetSt n = 2 ∧ e.cl = s.cl ∧ e.mc = s.mc ∧ e.gates = s.gates := by
  intro e
  obtain ⟨hchk, hbusy, hcl, hmc, hgates, -, -⟩ := State.sheetRead_view (s := s) (n := n) (ecc := ecc)
  obtain ⟨y, hy⟩ : ∃ y, y = s.sheetRead n ecc := ⟨_, rfl⟩
  rw [← hy] at hchk hbusy hcl hmc hgates
  have hany : ecc.any (fun e => e.1.val == n && e.2) = true := List.any_eq_true.2 <| by
    obtain ⟨x, hx, h1, h2⟩ := h
    exact ⟨x, hx, by simp [h1, h2]⟩
  obtain ⟨x, hx⟩ : ∃ x, x = y.setF pk R.ATL_CMD.result 2 := ⟨_, rfl⟩
  obtain ⟨z, hz⟩ : ∃ z, z = (x.setSheet n 2).inc pk R.ATL_CNT.uncorr := ⟨_, rfl⟩
  have he : e = z.flagRow n := by
    rw [hz, hx, hy]
    exact (State.sheetCheckDone_eq hc).trans (if_pos hany)
  have hpart {p : Part} (hp : p ∉ [.rowFlags, .store]) : e.part p = y.part p := by
    rw [he, State.flagRow_part _ _ (by simp at hp; simp [hp]), hz, State.inc_part _ _ _ _ (by simp at hp; simp [hp]),
      State.setSheet_part _ _ _ (by simp at hp; simp [hp]), hx, State.setF_part _ _ _ _ (by simp at hp; simp [hp])]
  have hword {k : Nat} (hk : k ≠ R.ATL_CNT.reg) : e.word k = (x.setSheet n 2).word k := by
    rw [he, State.flagRow_word, hz]
    exact (State.word_setF ..).trans (if_neg hk)
  have hf {f : Fld} (hf : f.off = R.ATL_CMD.reg) : e.f pk f = x.f pk f := by
    have h0 : pk + f.off = 0x9001 := by rw [hf]; rfl
    refine (congrArg f.get (hword ?_)).trans (State.setSheet_f _ (.inr (.inl h0)))
    rw [h0]
    decide
  refine ⟨(hpart (p := .atlChk) (by simp)).trans hchk, ?_, ?_, ?_, ?_, (hpart (p := .cl) (by simp)).trans hcl,
    (State.mcs_eq fun m q => hpart (by simp)).trans hmc, (State.gates_eq fun o => hpart (by simp)).trans hgates⟩
  · rw [he]
    exact State.flagRow_mem ..
  · rw [hf rfl, hx, State.f_setF_apart _ _ _ _ _ _ (by decide) (by decide), hbusy]
  · rw [hf rfl, hx, State.f_setF_self _ _ _ _ (by decide)]
    rfl
  · rw [State.sheetSt_congr (hword (by simp only [R.ATL_CNT.reg]; omega))]
    exact State.setSheet_st _ (by decide)

end

end Sys2Proof.Machine

open Sys2Proof Sys2Proof.Machine

/-- Settles O32, by the field that holds a sheet's state, and by a check as its reading followed by its tests. -/
theorem sheetStore : Obligations.SheetStore := by
  intro s dt u a
  have hu : s.elapse dt = u := rfl
  clear_value u
  refine ⟨fun ho off w => ?_, fun ho x => ⟨fun h => ?_, fun hb h => ?_⟩, fun hd n _ hc ecc => ⟨fun h => ?_, fun h => ?_⟩⟩
  · have hw := State.writeWord_sheet a .host w off.isLt
    refine ⟨fun h => State.gives_hostWrite rfl hu ho ?_, fun h3 huse => State.gives_hostWrite rfl hu ho ?_⟩
    · exact (congrArg State.countRange (hw.trans (State.sheetWrite_busy _ w h))).trans (State.countRange_calm rfl)
    · have hview := State.sheetWrite_view (a.answer .ok) w h3 huse off.isLt
      have hcalm : ((a.answer .ok).sheetWrite off.val w).countRange = (a.answer .ok).sheetWrite off.val w :=
        State.countRange_calm (by rw [hview.1]; rfl)
      rw [show u.asked.writeWord .host _ w = _ from hw, hcalm]
      exact hview
  · exact State.gives_hostAct rfl hu ho (State.sheetCheck_refused a x.toNat h)
  · exact State.gives_hostAct rfl hu ho (State.sheetCheck_begins a x.toNat hb h x.isLt)
  · exact State.gives_onKilid (act := (·.sheetCheckDone ecc)) rfl hu hd (State.sheetCheckDone_tested hc h)
  · exact State.gives_onKilid (act := (·.sheetCheckDone ecc)) rfl hu hd (State.sheetCheckDone_failed hc h)
end

section
/-! PROOFS. The pager: fills, misses and bank swaps (R184, R206, R213 to R216), and the row groups (R217). -/

namespace Sys2Proof.Machine

/-! ## Raising an event of a cluster or of a region -/

theorem evMc_lt (n : Mcn) (k : Fin 27) : evMc n k < 256 := by
  have := n.isLt
  have := k.isLt
  unfold evMc
  omega

theorem onDie_evMc (d : Rg) (n : Mcn) (k : Fin 27) : onDie d (evScope (evMc n k)) = (clRg (mcCl n) == d) := by
  have hn := n.isLt
  have hk := k.isLt
  have hc : (⟨(evMc n k - 60) / 27 % 6, by omega⟩ : Fin 8) = mcCl n := Fin.ext (by simp only [evMc, mcCl]; omega)
  have hs : evScope (evMc n k) = .cluster (mcCl n) := by
    unfold evScope
    rw [if_neg (by simp only [evMc]; omega), if_pos (by simp only [evMc]; omega), ← hc]
  rw [hs]
  rfl

/-- With the link of its die in order, an event of a motor cluster is raised. -/
theorem State.mem_raise_evMc {s : State} {n : Mcn} (k : Fin 27) (h : (s.link[clRg (mcCl n)]).lost = false) :
    evMc n k ∈ (s.raise (evMc n k)).raised := by
  refine State.mem_raise fun d hd => (onDie_evMc d n k).trans (beq_false_of_ne fun he => ?_)
  subst he
  exact Bool.false_ne_true (h.symm.trans hd)

/-! ## Corrected and uncorrectable errors of a reading -/

/-- A sheet passes test 1 of R204, with the errors that its reading met. -/
def State.sheetReads (s : State) (ecc : Ecc) (k : Nat) : Prop :=
  (∀ x ∈ ecc, x.1.val = k → x.2 = false) ∧ s.sheetCrcOk k = true

theorem State.sheetCrcOk_congr {s t : State} (h : ∀ k, 0x400000 ≤ k → s.word k = t.word k) (n : Nat) :
    s.sheetCrcOk n = t.sheetCrcOk n := by
  have hword : s.sheetWord n = t.sheetWord n := funext fun i => congrArg BitVec.toNat (h _ (by unfold sheetAddr; omega))
  unfold State.sheetCrcOk
  rw [hword]

/-- The state after the reading of a list of sheets: words alone, but for the counter of corrected errors, are as before. -/
def SameButEcc (s t : State) : Prop :=
  (∀ p : Part, p ∉ [.health, .rowFlags, .store] → t.part p = s.part p) ∧ ∀ k, k ≠ R.ATL_CNT.reg → t.word k = s.word k

section
variable {s : State} {ecc : Ecc}

theorem State.readSheet_same (k : Nat) : SameButEcc s (s.readSheet ecc k).1 := State.each_eccCorrected s _ k

theorem State.readSheet_passes (k : Nat) : (s.readSheet ecc k).2 = true ↔ s.sheetReads ecc k := by
  have hcrc : ((s.readSheet ecc k).1).sheetCrcOk k = s.sheetCrcOk k := State.sheetCrcOk_congr (fun i hi =>
    (State.readSheet_same k).2 i (by simp only [R.ATL_CNT.reg]; omega)) k
  have he : (s.readSheet ecc k).2 = (((s.readSheet ecc k).1).sheetCrcOk k && !(ecc.filter fun e => e.1.val == k).any (·.2)) := rfl
  rw [he, hcrc, Bool.and_eq_true, and_comm]
  refine and_congr ?_ Iff.rfl
  rw [Bool.not_eq_true', List.any_eq_false]
  refine ⟨fun h x hx hk => ?_, fun h x hx => ?_⟩
  · have := h x (List.mem_filter.2 ⟨hx, beq_iff_eq.2 hk⟩)
    simpa using this
  · obtain ⟨hx, hk⟩ := List.mem_filter.1 hx
    rw [h x hx (beq_iff_eq.1 hk)]
    exact Bool.false_ne_true

theorem State.sheetReads_congr {t : State} (h : SameButEcc s t) (k : Nat) : t.sheetReads ecc k ↔ s.sheetReads ecc k := by
  unfold State.sheetReads
  rw [State.sheetCrcOk_congr (fun i hi => h.2 i (by simp only [R.ATL_CNT.reg]; omega)) k]

theorem SameButEcc.trans {a b c : State} (h1 : SameButEcc a b) (h2 : SameButEcc b c) : SameButEcc a c :=
  ⟨fun p hp => (h2.1 p hp).trans (h1.1 p hp), fun k hk => (h2.2 k hk).trans (h1.2 k hk)⟩

/-- Sheets that all pass are read to the end. -/
theorem readSheets_pass : ∀ (l : List Nat) (s : State), (∀ k ∈ l, s.sheetReads ecc k) →
    (readSheets ecc l s).2 = none ∧ SameButEcc s (readSheets ecc l s).1
  | [], _, _ => ⟨rfl, fun _ _ => rfl, fun _ _ => rfl⟩
  | k :: l, s, h => by
    have hsame := s.readSheet_same (ecc := ecc) k
    have ih := readSheets_pass l (s.readSheet ecc k).1 fun j hj => (State.sheetReads_congr hsame j).2 (h j (List.mem_cons_of_mem _ hj))
    have he : readSheets ecc (k :: l) s = readSheets ecc l (s.readSheet ecc k).1 :=
      if_pos ((State.readSheet_passes k).2 (h k List.mem_cons_self))
    rw [he]
    exact ⟨ih.1, hsame.trans ih.2⟩

/-- The first sheet that fails ends the reading. -/
theorem readSheets_fail {k : Nat} (l : List Nat) (i : Nat) (s : State) (hi : l[i]? = some k)
    (hpass : ∀ x ∈ l.take i, s.sheetReads ecc x) (hk : ¬ s.sheetReads ecc k) :
    (readSheets ecc l s).2 = some k ∧ SameButEcc s (readSheets ecc l s).1 := by
  induction l generalizing i s with
  | nil => exact absurd hi (by simp)
  | cons j l ih =>
    have hsame := s.readSheet_same (ecc := ecc) j
    by_cases hj : s.sheetReads ecc j
    · have he : readSheets ecc (j :: l) s = readSheets ecc l (s.readSheet ecc j).1 := if_pos ((State.readSheet_passes j).2 hj)
      cases i with
      | zero =>
        obtain rfl : j = k := by simpa using hi
        exact absurd hj hk
      | succ i =>
        have hrest := ih i (s.readSheet ecc j).1 (by simpa using hi)
          (fun x hx => (State.sheetReads_congr hsame x).2 (hpass x (by simp [hx])))
          fun hr => hk ((State.sheetReads_congr hsame k).1 hr)
        rw [he]
        exact ⟨hrest.1, hsame.trans hrest.2⟩
    · have he : readSheets ecc (j :: l) s = ((s.readSheet ecc j).1, some j) :=
        if_neg fun h => hj ((State.readSheet_passes j).1 h)
      cases i with
      | zero =>
        obtain rfl : j = k := by simpa using hi
        rw [he]
        exact ⟨rfl, hsame⟩
      | succ i => exact absurd (hpass j (by simp)) hj

end

/-! ## Banks -/

section
variable {s t : State}

/-- A bank over an operating set reads the words of the set and of the store. -/
theorem State.bankOf_congr {base lo : Nat} (hlo : lo ≤ base) (hsheet : lo ≤ 0x400000) (h : ∀ k, lo ≤ k → s.word k = t.word k)
    (cells : Cells) (g : Fin 4) : s.bankOf base cells g = t.bankOf base cells g := by
  have hsw : s.sheetWord = t.sheetWord :=
    funext fun n => funext fun i => congrArg BitVec.toNat (h _ (by unfold sheetAddr; omega))
  have hcarries : s.carries = t.carries := funext fun n => funext fun k => by unfold State.carries; rw [hsw]
  have hcell : s.cellWord base = t.cellWord base := by
    funext c w sec off
    unfold State.cellWord
    rw [hsw, hcarries, h (base + off) (by omega)]
  have hblend : s.blendWord base = t.blendWord base := by
    funext cells w sec off
    unfold State.blendWord
    rw [hcell]
  unfold State.bankOf
  rw [hcarries, hblend]

theorem State.act_low (s : State) (n : Mcn) : mcB n + 0x8000 ≤ s.act n := by
  unfold State.act mcSetB
  omega

theorem mcB_store (n : Mcn) : mcB n + 0x8000 ≤ 0x400000 := by
  have := n.isLt
  unfold mcB
  omega

/-- Setting one of four bits. -/
theorem nibble_set : ∀ x : Fin 16, ∀ g : Fin 4, ∀ v : Bool,
    x.val - b2n (bitAt x.val g.val) * 2 ^ g.val + b2n v * 2 ^ g.val < 16
      ∧ ∀ h : Fin 4, bitAt (x.val - b2n (bitAt x.val g.val) * 2 ^ g.val + b2n v * 2 ^ g.val) h.val
        = if h = g then v else bitAt x.val h.val := by
  decide

theorem State.bankBit_bit (s : State) (n : Mcn) {f : Fld} (g : Fin 4) (v : Bool) (hw : f.w = 4) (hlo : f.lo ≤ 28) (h : Fin 4) :
    bitAt ((s.bankBit n f g v).f (mcB n) f) h.val = if h = g then v else bitAt (s.f (mcB n) f) h.val := by
  have hx : s.f (mcB n) f < 16 := by
    have := s.f_lt (mcB n) f
    rwa [hw] at this
  have hset := nibble_set ⟨_, hx⟩ g v
  unfold State.bankBit
  dsimp only
  rw [State.f_setF_self _ _ _ _ (by omega), hw, show 2 ^ 4 = 16 from rfl, Nat.mod_eq_of_lt hset.1]
  exact hset.2 h

theorem State.bankBit_f (s : State) (n : Mcn) {f f' : Fld} (g : Fin 4) (v : Bool) (hw : f.lo + f.w ≤ 32)
    (h : f'.lo + f'.w ≤ f.lo ∨ f.lo + f.w ≤ f'.lo) : (s.bankBit n f g v).f (mcB n) f' = s.f (mcB n) f' :=
  State.f_setF_apart _ _ _ _ _ _ hw h

theorem State.bankBit_word (s : State) (n : Mcn) {f : Fld} (g : Fin 4) (v : Bool) {k : Nat} (h : k ≠ mcB n + f.off) :
    (s.bankBit n f g v).word k = s.word k := (State.word_setF ..).trans (if_neg h)

theorem State.idle_congr {n : Mcn} (h : s.f (mcB n) R.MC_LOOP_BANK.active = t.f (mcB n) R.MC_LOOP_BANK.active) (g : Fin 4) :
    s.idle n g = t.idle n g := by
  unfold State.idle
  rw [h]

end

/-! ## A fill completes -/

/-- The banks of a fill that completes: each goes into the idle bank of its group and waits. -/
theorem State.each_setBank (n : Mcn) {base : Nat} (hbase : mcB n + 0x8000 ≤ base) (cells : Cells) (l : List (Fin 4)) (hl : l.Nodup)
    (s : State) :
    let e := s.each l fun g t => (t.setBank n g (t.idle n g) (t.bankOf base cells g)).bankBit n R.MC_LOOP_BANK.pending g true
    (∀ p : Part, p ≠ .store → p ≠ .mc n .banks → e.part p = s.part p)
      ∧ (∀ k, k ≠ mcB n + R.MC_LOOP_BANK.reg → e.word k = s.word k)
      ∧ e.f (mcB n) R.MC_LOOP_BANK.active = s.f (mcB n) R.MC_LOOP_BANK.active
      ∧ (∀ g, (e.mc[n]).banks[g] = if g ∈ l then upd (s.mc[n]).banks[g] (s.idle n g) (s.bankOf base cells g) else (s.mc[n]).banks[g])
      ∧ ∀ g : Fin 4, bitAt (e.f (mcB n) R.MC_LOOP_BANK.pending) g.val
          = if g ∈ l then true else bitAt (s.f (mcB n) R.MC_LOOP_BANK.pending) g.val := by
  induction l generalizing s with
  | nil => exact ⟨fun _ _ _ => rfl, fun _ _ => rfl, rfl, fun _ => rfl, fun _ => rfl⟩
  | cons a l ih =>
    obtain ⟨ha, hl⟩ := List.nodup_cons.1 hl
    obtain ⟨x, hx⟩ : ∃ x, x = s.setBank n a (s.idle n a) (s.bankOf base cells a) := ⟨_, rfl⟩
    obtain ⟨y, hy⟩ : ∃ y, y = x.bankBit n R.MC_LOOP_BANK.pending a true := ⟨_, rfl⟩
    have hxw (k : Nat) : x.word k = s.word k := by
      rw [hx]
      exact State.word_of_part (State.setBank_part _ _ _ _ _ (by simp)) k
    have hyw {k : Nat} (h : k ≠ mcB n + R.MC_LOOP_BANK.reg) : y.word k = s.word k := by
      rw [hy, ← hxw k]
      exact State.bankBit_word _ _ _ _ h
    have hyact : y.f (mcB n) R.MC_LOOP_BANK.active = s.f (mcB n) R.MC_LOOP_BANK.active := by
      rw [hy, State.bankBit_f _ _ _ _ (by decide) (by decide)]
      exact congrArg R.MC_LOOP_BANK.active.get (hxw _)
    have hymc : (y.mc[n]).banks = upd (s.mc[n]).banks a (upd (s.mc[n]).banks[a] (s.idle n a) (s.bankOf base cells a)) := by
      rw [show (y.mc[n]).banks = (x.mc[n]).banks by rw [hy]; exact State.bankBit_part (p := .mc n .banks) _ _ _ _ _ (by simp), hx]
      exact congrArg Mc.banks (State.modMc_mcAt ..)
    obtain ⟨hp, hw, hact, hb, hbit⟩ := ih hl y
    have he : s.each (a :: l) (fun g t => (t.setBank n g (t.idle n g) (t.bankOf base cells g)).bankBit n R.MC_LOOP_BANK.pending g true)
        = y.each l fun g t => (t.setBank n g (t.idle n g) (t.bankOf base cells g)).bankBit n R.MC_LOOP_BANK.pending g true := by
      rw [hy, hx]
      rfl
    intro e
    have hee : e = y.each l fun g t => (t.setBank n g (t.idle n g) (t.bankOf base cells g)).bankBit n R.MC_LOOP_BANK.pending g true := he
    rw [← hee] at hp hw hact hb hbit
    have hybit (g : Fin 4) : bitAt (y.f (mcB n) R.MC_LOOP_BANK.pending) g.val
        = if g = a then true else bitAt (s.f (mcB n) R.MC_LOOP_BANK.pending) g.val := by
      rw [hy, State.bankBit_bit _ _ _ _ (by decide) (by decide)]
      exact congrArg (fun b => if g = a then true else bitAt b g.val) (congrArg R.MC_LOOP_BANK.pending.get (hxw _))
    refine ⟨fun p h1 h2 => ?_, fun k hk => (hw k hk).trans (hyw hk), hact.trans hyact, fun g => ?_, fun g => ?_⟩
    · rw [hp p h1 h2, hy, State.bankBit_part _ _ _ _ _ (by simp [h1]), hx, State.setBank_part _ _ _ _ _ (by simp [h2])]
    · have hbank : y.bankOf base cells g = s.bankOf base cells g :=
        State.bankOf_congr hbase (mcB_store n) (fun k hk => hyw (by simp only [R.MC_LOOP_BANK.reg]; omega)) cells g
      rw [hb g, hymc, hbank]
      by_cases hga : g = a
      · subst hga
        rw [if_neg ha, if_pos List.mem_cons_self]
        exact upd_self ..
      · rw [State.idle_congr hyact g, show (upd (s.mc[n]).banks a (upd (s.mc[n]).banks[a] (s.idle n a) (s.bankOf base cells a)))[g] = (s.mc[n]).banks[g] from
          upd_ne _ _ hga]
        simp [hga]
    · rw [hbit g, hybit g]
      by_cases hga : g = a
      · simp [hga]
      · simp [hga]

/-- What a fill that has been read leaves, before its banks are judged. -/
def State.fillRead (s : State) (n : Mcn) (ecc : Ecc) (f : Fill) : State :=
  ((readSheets ecc f.cells.sheets (s.sheetMiss n)).1).fillEnd n

/-- A word that the pager's registers, the counters of the store and the raising of an event leave. -/
def AwayFromPager (n : Mcn) (k : Nat) : Prop := 0xA040 ≤ k ∧ k ≠ mcB n + R.MC_ATL_STAT.reg ∧ k ≠ mcB n + R.MC_ATL_CNT.reg

section
variable {s : State} {n : Mcn} {ecc : Ecc} {f : Fill}

theorem AwayFromPager.of_store {k : Nat} (h : mcB n + 0x8000 ≤ k) : AwayFromPager n k := by
  refine ⟨?_, ?_, ?_⟩
  · unfold mcB at h
    omega
  · simp only [R.MC_ATL_STAT.reg]
    omega
  · simp only [R.MC_ATL_CNT.reg]
    omega

theorem AwayFromPager.loopBank : AwayFromPager n (mcB n + R.MC_LOOP_BANK.reg) := by
  refine ⟨?_, ?_, ?_⟩ <;> simp only [mcB, R.MC_LOOP_BANK.reg, R.MC_ATL_STAT.reg, R.MC_ATL_CNT.reg] <;> omega

theorem State.sheetMiss_word {k : Nat} (h : AwayFromPager n k) : (s.sheetMiss n).word k = s.word k := by
  obtain ⟨hlow, hstat, hcnt⟩ := h
  unfold State.sheetMiss
  dsimp only
  split
  · exact (State.raise_word _ (evMc_lt n 15) (raiseWrites_of_le hlow)).trans
      (((State.word_setF ..).trans (if_neg hstat)).trans ((State.word_setF ..).trans (if_neg hcnt)))
  · rfl

theorem State.raise_linkLost (s : State) (e : Nat) (d : Rg) : ((s.raise e).link[d]).lost = (s.link[d]).lost := by
  have hbuf (g : List (Nat × Nat) → List (Nat × Nat)) (d' : Rg) :
      ((s.modLink d' fun l => { l with buffer := g l.buffer }).link[d]).lost = (s.link[d]).lost := by
    by_cases h : d = d'
    · subst h
      rw [show (s.modLink d fun l => { l with buffer := g l.buffer }).link[d] = { s.link[d] with buffer := g (s.link[d]).buffer } from
        upd_self ..]
    · exact congrArg Link.lost (upd_ne _ _ h)
  unfold State.raise
  extract_lets local_ buf
  split
  · exact hbuf (fun b => if b.any (fun p => p.1 == e) then b.map (fun p => if p.1 == e then (e, Nat.min 255 (p.2 + 1)) else p)
      else b ++ [(e, 1)]) 0
  · split
    · exact hbuf (fun b => if b.any (fun p => p.1 == e) then b.map (fun p => if p.1 == e then (e, Nat.min 255 (p.2 + 1)) else p)
        else b ++ [(e, 1)]) 1
    · exact congrArg (fun l : Vector Link 2 => (l[d]).lost) (collect_part (p := .link) _ _ (by simp))

theorem State.sheetMiss_linkLost (d : Rg) : ((s.sheetMiss n).link[d]).lost = (s.link[d]).lost := by
  unfold State.sheetMiss
  dsimp only
  split
  · rw [State.raise_linkLost]
    exact congrArg (fun l : Vector Link 2 => (l[d]).lost)
      ((State.setF_part (p := .link) _ _ _ _ (by simp)).trans (State.inc_part (p := .link) _ _ _ _ (by simp)))
  · rfl

theorem State.fillEnd_word {k : Nat} (h : k ≠ mcB n + R.MC_ATL_STAT.reg) : (s.fillEnd n).word k = s.word k :=
  ((State.word_setF ..).trans (if_neg h)).trans (((State.word_setF ..).trans (if_neg h)).trans
    (State.word_of_part (State.modAtl_part _ _ _ (by simp)) k))

theorem State.modAtl_mc (s : State) (n : Mcn) (g : Pager → Pager) :
    (s.modAtl n g).mc[n] = { s.mc[n] with atl := g (s.mc[n]).atl } := State.modMc_mcAt ..

theorem State.fillEnd_atl : ((s.fillEnd n).mc[n]).atl = { (s.mc[n]).atl with fill := none, dueAt := none } := by
  obtain ⟨y, hy⟩ : ∃ y, y = s.modAtl n fun a => { a with fill := none, dueAt := none } := ⟨_, rfl⟩
  have he : s.fillEnd n = (y.setF (mcB n) R.MC_ATL_STAT.fill_busy 0).setF (mcB n) R.MC_ATL_STAT.critical 0 := by rw [hy]; rfl
  have hp : ((s.fillEnd n).mc[n]).atl = (y.mc[n]).atl := by
    rw [he]
    exact ((State.setF_part (p := .mc n .atl) _ _ _ _ (by simp)).trans (State.setF_part (p := .mc n .atl) _ _ _ _ (by simp)))
  rw [hp, hy]
  exact congrArg Mc.atl (State.modMc_mcAt ..)

theorem State.fillEnd_busy : (s.fillEnd n).f (mcB n) R.MC_ATL_STAT.fill_busy = 0 :=
  (State.f_setF_apart _ _ _ _ _ _ (by decide) (by decide)).trans (State.f_setF_self _ _ _ _ (by decide))

/-- The reading of a fill ends it and leaves the banks and what waits. -/
theorem State.fillRead_view (hsame : SameButEcc (s.sheetMiss n) (readSheets ecc f.cells.sheets (s.sheetMiss n)).1) :
    ((s.fillRead n ecc f).mc[n]).atl = { (s.mc[n]).atl with fill := none, dueAt := none }
      ∧ (s.fillRead n ecc f).f (mcB n) R.MC_ATL_STAT.fill_busy = 0
      ∧ ((s.fillRead n ecc f).mc[n]).banks = (s.mc[n]).banks ∧ (s.fillRead n ecc f).cl = s.cl
      ∧ ∀ k, AwayFromPager n k → (s.fillRead n ecc f).word k = s.word k := by
  obtain ⟨hpart, hword⟩ := hsame
  have hatl : (((readSheets ecc f.cells.sheets (s.sheetMiss n)).1).mc[n]).atl = (s.mc[n]).atl :=
    (hpart (.mc n .atl) (by simp)).trans (State.sheetMiss_part (p := .mc n .atl) s n (by simp))
  refine ⟨State.fillEnd_atl.trans (by rw [hatl]), State.fillEnd_busy, ?_, ?_, fun k hk => ?_⟩
  · exact (State.fillEnd_part (p := .mc n .banks) _ n (by simp)).trans ((hpart (.mc n .banks) (by simp)).trans
      (State.sheetMiss_part (p := .mc n .banks) s n (by simp)))
  · exact (State.fillEnd_part (p := .cl) _ n (by simp)).trans ((hpart .cl (by simp)).trans
      (State.sheetMiss_part (p := .cl) s n (by simp)))
  · have hecc : k ≠ R.ATL_CNT.reg := by
      have := hk.1
      simp only [R.ATL_CNT.reg]
      omega
    exact (State.fillEnd_word hk.2.1).trans ((hword k hecc).trans (State.sheetMiss_word hk))

/-- The groups whose bank is new. -/
def State.newBanks (s : State) (n : Mcn) (cells : Cells) : List (Fin 4) :=
  allG.filter fun g => s.bankOf (s.act n) cells g != ((s.mc[n]).banks[g])[if s.idle n g = 0 then (1 : Fin 2) else 0]

theorem State.newBanks_congr {t : State} (hmc : (t.mc[n]).banks = (s.mc[n]).banks) (hcl : t.cl = s.cl)
    (hw : ∀ k, AwayFromPager n k → t.word k = s.word k) (cells : Cells) : t.newBanks n cells = s.newBanks n cells := by
  have hact : t.act n = s.act n := by unfold State.act; rw [hcl]
  have hbank (g : Fin 4) : t.bankOf (s.act n) cells g = s.bankOf (s.act n) cells g :=
    State.bankOf_congr (State.act_low s n) (mcB_store n) (fun k hk => hw k (.of_store hk)) cells g
  have hidle (g : Fin 4) : t.idle n g = s.idle n g := State.idle_congr (congrArg R.MC_LOOP_BANK.active.get (hw _ AwayFromPager.loopBank)) g
  unfold State.newBanks
  simp only [hact, hbank, hidle, hmc]

/-- The banks of a fill that is complete wait, or it is in force at once. -/
def State.fillDone (s : State) (n : Mcn) (f : Fill) (late : Bool) : State :=
  if s.newBanks n f.cells = [] then s.showAct n f
  else
    let x := s.each (s.newBanks n f.cells) fun g t => (t.setBank n g (t.idle n g) (t.bankOf (s.act n) f.cells g)).bankBit n
      R.MC_LOOP_BANK.pending g true
    (x.modAtl n fun a => { a with held := some (if late then { f with due := x.now } else f), dueAt := none }).setF (mcB n)
      R.MC_ATL_STAT.held 1

theorem State.fillComplete_read (hf : ((s.mc[n]).atl).fill = some f) :
    s.fillComplete n ecc = match (readSheets ecc f.cells.sheets (s.sheetMiss n)).2 with
      | some k => (s.fillRead n ecc f).sheetFail n k
      | none => (s.fillRead n ecc f).fillDone n f ((s.sheetMiss n).fb (mcB n) R.MC_ATL_STAT.critical) := by
  unfold State.fillComplete State.fillRead
  rw [hf]
  dsimp only
  generalize readSheets ecc f.cells.sheets (s.sheetMiss n) = r
  obtain ⟨x, bad⟩ := r
  cases bad <;> rfl

theorem State.sheetReads_missed (k : Nat) : (s.sheetMiss n).sheetReads ecc k ↔ s.sheetReads ecc k := by
  unfold State.sheetReads
  rw [State.sheetCrcOk_congr (fun i hi => State.sheetMiss_word (.of_store (by have := mcB_store n; omega))) k]

/-- The bank in force of a group. -/
def State.liveBank (s : State) (n : Mcn) (g : Fin 4) : Bank := ((s.mc[n]).banks[g])[if s.idle n g = 0 then (1 : Fin 2) else 0]

theorem State.mem_newBanks (s : State) (cells : Cells) (g : Fin 4) :
    g ∈ s.newBanks n cells ↔ s.bankOf (s.act n) cells g ≠ s.liveBank n g := by
  unfold State.newBanks
  rw [List.mem_filter, bne_iff_ne]
  exact and_iff_right (by revert g; decide)

theorem State.newBanks_nil (s : State) (cells : Cells) :
    s.newBanks n cells = [] ↔ ∀ g, s.bankOf (s.act n) cells g = s.liveBank n g := by
  rw [List.eq_nil_iff_forall_not_mem]
  exact forall_congr' fun g => by rw [State.mem_newBanks, Decidable.not_not]

/-- Every bank of the fill is the one in force: the target is shown at once. -/
theorem State.fillDone_same {late : Bool} (h : s.newBanks n f.cells = []) :
    ((s.fillDone n f late).mc[n]).atl = { (s.mc[n]).atl with act := f.cells }
      ∧ ((s.fillDone n f late).mc[n]).banks = (s.mc[n]).banks
      ∧ (s.fillDone n f late).f (mcB n) R.MC_ATL_STAT.fill_busy = s.f (mcB n) R.MC_ATL_STAT.fill_busy := by
  obtain ⟨y, hy⟩ : ∃ y, y = s.modAtl n fun a => { a with act := f.cells } := ⟨_, rfl⟩
  have he : s.fillDone n f late = ((((y.setF (mcB n) R.MC_ATL_ACT.sheet (f.first.getD 0)).setF (mcB n) R.MC_ATL_ACT.sheet_valid
      (b2n f.first.isSome)).setF (mcB n) R.MC_ATL_ACT.w_s f.qs).setF (mcB n) R.MC_ATL_ACT.w_l f.ql) := by
    rw [hy]
    exact if_pos h
  have hpart {p : Part} (hp : p ≠ .store) : (s.fillDone n f late).part p = y.part p := by
    rw [he]
    simp [hp]
  refine ⟨?_, ?_, ?_⟩
  · rw [show ((s.fillDone n f late).mc[n]).atl = (y.mc[n]).atl from hpart (p := .mc n .atl) (by simp), hy,
      State.modAtl_mc]
  · rw [show ((s.fillDone n f late).mc[n]).banks = (y.mc[n]).banks from hpart (p := .mc n .banks) (by simp), hy,
      State.modAtl_mc]
  · have hne : mcB n + R.MC_ATL_STAT.fill_busy.off ≠ mcB n + R.MC_ATL_ACT.reg := by
      simp only [R.MC_ATL_STAT.fill_busy, R.MC_ATL_ACT.reg]
      omega
    rw [he, State.f_setF_other _ _ _ _ _ _ hne, State.f_setF_other _ _ _ _ _ _ hne, State.f_setF_other _ _ _ _ _ _ hne,
      State.f_setF_other _ _ _ _ _ _ hne, hy]
    exact State.f_of_part (State.modAtl_part _ _ _ (by simp)) _ _

/-- New banks are held. -/
theorem State.fillDone_held {late : Bool} (h : s.newBanks n f.cells ≠ []) :
    let e := s.fillDone n f late
    (∃ due, (e.mc[n]).atl = { (s.mc[n]).atl with held := some { f with due := due }, dueAt := none })
      ∧ e.f (mcB n) R.MC_ATL_STAT.held = 1
      ∧ e.f (mcB n) R.MC_ATL_STAT.fill_busy = s.f (mcB n) R.MC_ATL_STAT.fill_busy
      ∧ (∀ g, (e.mc[n]).banks[g] = if g ∈ s.newBanks n f.cells
          then upd (s.mc[n]).banks[g] (s.idle n g) (s.bankOf (s.act n) f.cells g) else (s.mc[n]).banks[g])
      ∧ ∀ g : Fin 4, g ∈ s.newBanks n f.cells → bitAt (e.f (mcB n) R.MC_LOOP_BANK.pending) g.val = true := by
  intro e
  have hnodup : (s.newBanks n f.cells).Nodup := (by decide : allG.Nodup).filter _
  obtain ⟨hp, hw, -, hb, hbit⟩ := State.each_setBank n (State.act_low s n) f.cells _ hnodup s
  obtain ⟨x, hx⟩ : ∃ x, x = s.each (s.newBanks n f.cells) fun g t =>
    (t.setBank n g (t.idle n g) (t.bankOf (s.act n) f.cells g)).bankBit n R.MC_LOOP_BANK.pending g true := ⟨_, rfl⟩
  rw [← hx] at hp hw hb hbit
  obtain ⟨y, hy⟩ : ∃ y, y = x.modAtl n fun a => { a with held := some (if late then { f with due := x.now } else f), dueAt := none } :=
    ⟨_, rfl⟩
  have he : e = y.setF (mcB n) R.MC_ATL_STAT.held 1 := by
    rw [hy, hx]
    exact if_neg h
  have hyx (k : Nat) : y.word k = x.word k := by
    rw [hy]
    exact State.word_of_part (State.modAtl_part _ _ _ (by simp)) k
  have hmc : e.mc = y.mc := by rw [he]; exact State.mcs_eq fun m q => State.setF_part _ _ _ _ (by simp)
  refine ⟨⟨if late then x.now else f.due, ?_⟩, ?_, ?_, fun g => ?_, fun g hg => ?_⟩
  · rw [hmc, hy, State.modAtl_mc, show (x.mc[n]).atl = (s.mc[n]).atl from hp (.mc n .atl) (by simp) (by simp)]
    cases late <;> rfl
  · rw [he]
    exact State.f_setF_self _ _ _ _ (by decide)
  · rw [he, State.f_setF_apart _ _ _ _ _ _ (by decide) (by decide)]
    refine congrArg R.MC_ATL_STAT.fill_busy.get ((hyx _).trans (hw _ ?_))
    simp only [R.MC_ATL_STAT.fill_busy, R.MC_LOOP_BANK.reg]
    omega
  · rw [hmc, hy, State.modAtl_mc]
    exact hb g
  · rw [he, State.f_setF_other _ _ _ _ _ _ (by simp only [R.MC_ATL_STAT.held, R.MC_LOOP_BANK.pending]; omega),
      show y.f (mcB n) R.MC_LOOP_BANK.pending = x.f (mcB n) R.MC_LOOP_BANK.pending from congrArg R.MC_LOOP_BANK.pending.get (hyx _),
      hbit g, if_pos hg]

/-- A fill whose sheets pass: its banks go to the idle side. -/
theorem State.fillComplete_good (hf : ((s.mc[n]).atl).fill = some f) (h : ∀ k ∈ f.cells.sheets, s.sheetReads ecc k) :
    let e := s.fillComplete n ecc
    let live (g : Fin 4) : Fin 2 := if s.idle n g = 0 then 1 else 0
    let new (g : Fin 4) : Bank := s.bankOf (s.act n) f.cells g
    ((e.mc[n]).atl).fill = none ∧ e.f (mcB n) R.MC_ATL_STAT.fill_busy = 0
      ∧ (∀ g : Fin 4, ((e.mc[n]).banks[g])[live g] = ((s.mc[n]).banks[g])[live g])
      ∧ (if ∀ g : Fin 4, new g = ((s.mc[n]).banks[g])[live g]
        then ((e.mc[n]).atl).act = f.cells ∧ (e.mc[n]).banks = (s.mc[n]).banks
        else ((e.mc[n]).atl).held.map Fill.cells = some f.cells ∧ e.f (mcB n) R.MC_ATL_STAT.held = 1
          ∧ ∀ g : Fin 4, new g ≠ ((s.mc[n]).banks[g])[live g] →
              ((e.mc[n]).banks[g])[s.idle n g] = new g ∧ bitAt (e.f (mcB n) R.MC_LOOP_BANK.pending) g.val = true) := by
  intro e live new
  obtain ⟨hnone, hsame⟩ := readSheets_pass (ecc := ecc) f.cells.sheets (s.sheetMiss n) fun k hk => (State.sheetReads_missed k).2 (h k hk)
  obtain ⟨hatl, hbusy, hbanks, hcl, hw⟩ := State.fillRead_view hsame
  obtain ⟨x, hx⟩ : ∃ x, x = s.fillRead n ecc f := ⟨_, rfl⟩
  obtain ⟨late, hlate⟩ : ∃ late, late = (s.sheetMiss n).fb (mcB n) R.MC_ATL_STAT.critical := ⟨_, rfl⟩
  have he : e = x.fillDone n f late := by
    show s.fillComplete n ecc = _
    rw [State.fillComplete_read hf, hnone, hx, hlate]
  rw [← hx] at hatl hbusy hbanks hcl hw
  have hnew : x.newBanks n f.cells = s.newBanks n f.cells := State.newBanks_congr hbanks hcl hw _
  have hidle (g : Fin 4) : x.idle n g = s.idle n g :=
    State.idle_congr (congrArg R.MC_LOOP_BANK.active.get (hw _ AwayFromPager.loopBank)) g
  have hbank (g : Fin 4) : x.bankOf (x.act n) f.cells g = new g := by
    rw [show x.act n = s.act n by unfold State.act; rw [hcl]]
    exact State.bankOf_congr (State.act_low s n) (mcB_store n) (fun k hk => hw k (.of_store hk)) _ g
  by_cases hnil : s.newBanks n f.cells = []
  · obtain ⟨ha, hb, hf⟩ := State.fillDone_same (late := late) (hnew.trans hnil)
    rw [← he] at ha hb hf
    refine ⟨by rw [ha, hatl], hf.trans hbusy, fun g => by rw [hb, hbanks], ?_⟩
    have hall : ∀ g : Fin 4, new g = ((s.mc[n]).banks[g])[live g] := (State.newBanks_nil s f.cells).1 hnil
    rw [if_pos hall]
    exact ⟨by rw [ha], hb.trans hbanks⟩
  · obtain ⟨⟨due, ha⟩, hh, hf, hb, hbit⟩ := State.fillDone_held (s := x) (n := n) (f := f) (late := late) (by rw [hnew]; exact hnil)
    rw [← he] at ha hh hf hb hbit
    have hbank' (g : Fin 4) : (e.mc[n]).banks[g] = if g ∈ s.newBanks n f.cells
        then upd (s.mc[n]).banks[g] (s.idle n g) (new g) else (s.mc[n]).banks[g] := by
      rw [hb g, hnew, hidle, hbank, hbanks]
    refine ⟨by rw [ha, hatl], hf.trans hbusy, fun g => ?_, ?_⟩
    · rw [hbank' g]
      split
      · refine upd_ne _ _ ?_
        show (if s.idle n g = 0 then (1 : Fin 2) else 0) ≠ s.idle n g
        split
        next h0 => rw [h0]; decide
        next h0 => exact Ne.symm h0
      · rfl
    · have hall : ¬ ∀ g : Fin 4, new g = ((s.mc[n]).banks[g])[live g] := fun h => hnil ((State.newBanks_nil s f.cells).2 h)
      rw [if_neg hall]
      refine ⟨?_, hh, fun g hg => ?_⟩
      · rw [ha]
        rfl
      · have hmem := (State.mem_newBanks s f.cells g).2 hg
        refine ⟨?_, hbit g (by rw [hnew]; exact hmem)⟩
        rw [hbank' g, if_pos hmem]
        exact upd_self ..

/-- A fill one of whose sheets fails: no bank changes. -/
theorem State.fillComplete_bad (hf : ((s.mc[n]).atl).fill = some f) {i k : Nat} (hi : f.cells.sheets[i]? = some k)
    (hpass : ∀ x ∈ f.cells.sheets.take i, s.sheetReads ecc x) (hk : ¬ s.sheetReads ecc k) :
    let e := s.fillComplete n ecc
    ((e.mc[n]).atl).fill = none ∧ (e.mc[n]).banks = (s.mc[n]).banks ∧ ((e.mc[n]).atl).held = ((s.mc[n]).atl).held
      ∧ k / 8 ∈ e.rowFlags ∧ ((s.link[clRg (mcCl n)]).lost = false → evMc n 16 ∈ e.raised) := by
  intro e
  obtain ⟨hbad, hsame⟩ := readSheets_fail (ecc := ecc) f.cells.sheets i (s.sheetMiss n) hi
    (fun x hx => (State.sheetReads_missed x).2 (hpass x hx)) fun h => hk ((State.sheetReads_missed k).1 h)
  obtain ⟨hatl, -, hbanks, -, -⟩ := State.fillRead_view hsame
  obtain ⟨x, hx⟩ : ∃ x, x = s.fillRead n ecc f := ⟨_, rfl⟩
  have he : e = x.sheetFail n k := by
    show s.fillComplete n ecc = _
    rw [State.fillComplete_read hf, hbad, hx]
  rw [← hx] at hatl hbanks
  have heatl : (e.mc[n]).atl = (x.mc[n]).atl := by rw [he]; exact State.sheetFail_part (p := .mc n .atl) _ _ _ (by simp)
  refine ⟨by rw [heatl, hatl], ?_, by rw [heatl, hatl], ?_, fun hl => ?_⟩
  · rw [he]
    exact (State.sheetFail_part (p := .mc n .banks) _ _ _ (by simp)).trans hbanks
  · rw [he]
    exact State.flagRow_mem ..
  · obtain ⟨y, hy⟩ : ∃ y, y = ((x.setSheet k 2).inc (mcB n) R.MC_ATL_CNT.crc_count).inc pk R.ATL_CNT.uncorr := ⟨_, rfl⟩
    have hee : e = (y.raise (evMc n 16)).flagRow k := by rw [he, hy]; rfl
    have hylink : y.link = (s.sheetMiss n).link := by
      rw [hy, show (((x.setSheet k 2).inc (mcB n) R.MC_ATL_CNT.crc_count).inc pk R.ATL_CNT.uncorr).link = x.link from
        ((State.inc_part (p := .link) _ _ _ _ (by simp)).trans (State.inc_part (p := .link) _ _ _ _ (by simp))).trans
          (State.setSheet_part (p := .link) _ _ _ (by simp)), hx]
      exact (State.fillEnd_part (p := .link) _ _ (by simp)).trans (hsame.1 .link (by simp))
    rw [hee, show ((y.raise (evMc n 16)).flagRow k).raised = (y.raise (evMc n 16)).raised from State.flagRow_part (p := .raised) _ _ (by simp)]
    refine State.mem_raise_evMc 16 ?_
    rw [hylink]
    exact (State.sheetMiss_linkLost _).trans hl

end

/-! ## Misses and bank swaps -/

section
variable {s : State} {n : Mcn}

theorem State.sheetMiss_view (hf : ((s.mc[n]).atl).fill ≠ none) (hd : ((s.mc[n]).atl).dueAt.isSome = true)
    (hc : s.fb (mcB n) R.MC_ATL_STAT.critical = false) :
    let e := s.sheetMiss n
    e.f (mcB n) R.MC_ATL_STAT.critical = 1
      ∧ e.f (mcB n) R.MC_ATL_CNT.miss_count
        = Nat.min (s.f (mcB n) R.MC_ATL_CNT.miss_count + 1) (2 ^ R.MC_ATL_CNT.miss_count.w - 1)
      ∧ ((s.link[clRg (mcCl n)]).lost = false → evMc n 15 ∈ e.raised) := by
  intro e
  obtain ⟨y, hy⟩ : ∃ y, y = (s.inc (mcB n) R.MC_ATL_CNT.miss_count).setF (mcB n) R.MC_ATL_STAT.critical 1 := ⟨_, rfl⟩
  have he : e = y.raise (evMc n 15) := by
    rw [hy]
    exact if_pos ⟨Option.isSome_iff_ne_none.2 hf, hd, by rw [hc]; rfl⟩
  have hraise {f : Fld} (hf : f.off < 0x8000) : e.f (mcB n) f = y.f (mcB n) f := by
    rw [he]
    exact State.raise_f _ (evMc_lt n 15) (raiseWrites_of_le (by unfold mcB; omega))
  refine ⟨?_, ?_, fun hl => ?_⟩
  · rw [hraise (by decide), hy]
    exact State.f_setF_self _ _ _ _ (by decide)
  · rw [hraise (by decide), hy, State.f_setF_other _ _ _ _ _ _ (by simp only [R.MC_ATL_CNT.miss_count, R.MC_ATL_STAT.critical]; omega)]
    exact State.inc_f _ _ _ (by decide) 1
  · rw [he]
    refine State.mem_raise_evMc 15 ?_
    rw [hy, show ((s.inc (mcB n) R.MC_ATL_CNT.miss_count).setF (mcB n) R.MC_ATL_STAT.critical 1).link = s.link from
      (State.setF_part (p := .link) _ _ _ _ (by simp)).trans (State.inc_part (p := .link) _ _ _ _ (by simp))]
    exact hl

/-- The bank of a group changes sides. -/
theorem State.bankFlip_view (g : Fin 4) :
    let e := s.bankFlip n g
    (∀ h : Fin 4, e.idle n h = if h = g then (if s.idle n g = 0 then 1 else 0) else s.idle n h)
      ∧ ∀ h : Fin 4, bitAt (e.f (mcB n) R.MC_LOOP_BANK.pending) h.val
          = if h = g then false else bitAt (s.f (mcB n) R.MC_LOOP_BANK.pending) h.val := by
  intro e
  obtain ⟨x, hx⟩ : ∃ x, x = s.bankBit n R.MC_LOOP_BANK.active g (s.idle n g == 1) := ⟨_, rfl⟩
  obtain ⟨y, hy⟩ : ∃ y, y = x.bankBit n R.MC_LOOP_BANK.pending g false := ⟨_, rfl⟩
  have he : e = y.bankBit n R.MC_LOOP_BANK.sheet g (((y.mc[n]).banks[g])[s.idle n g] != []) := by rw [hy, hx]; rfl
  refine ⟨fun h => ?_, fun h => ?_⟩
  · have hact : e.f (mcB n) R.MC_LOOP_BANK.active = x.f (mcB n) R.MC_LOOP_BANK.active := by
      rw [he, State.bankBit_f _ _ _ _ (by decide) (by decide), hy, State.bankBit_f _ _ _ _ (by decide) (by decide)]
    have hbit := State.bankBit_bit s n (f := R.MC_LOOP_BANK.active) g (s.idle n g == 1) (by decide) (by decide) h
    have hidle : e.idle n h = if (if h = g then (s.idle n g == 1) else bitAt (s.f (mcB n) R.MC_LOOP_BANK.active) h.val)
        then 0 else 1 := by
      rw [← hbit, ← hx]
      unfold State.idle
      rw [hact]
    rw [hidle]
    by_cases hg : h = g
    · rw [if_pos hg, if_pos hg]
      have htwo : ∀ i : Fin 2, (if (i == 1) = true then (0 : Fin 2) else 1) = if i = 0 then 1 else 0 := by decide
      exact htwo _
    · rw [if_neg hg, if_neg hg]
      rfl
  · rw [he, State.bankBit_f _ _ _ _ (by decide) (by decide), hy, State.bankBit_bit _ _ _ _ (by decide) (by decide), hx,
      State.bankBit_f _ _ _ _ (by decide) (by decide)]

theorem State.showAct_loopBank (f : Fill) : (s.showAct n f).word (mcB n + R.MC_LOOP_BANK.reg) = s.word (mcB n + R.MC_LOOP_BANK.reg) := by
  have hne : mcB n + R.MC_LOOP_BANK.reg ≠ mcB n + R.MC_ATL_ACT.reg := by
    simp only [R.MC_LOOP_BANK.reg, R.MC_ATL_ACT.reg]
    omega
  have hset (t : State) {f : Fld} (v : Nat) (hf : f.off = R.MC_ATL_ACT.reg) :
      (t.setF (mcB n) f v).word (mcB n + R.MC_LOOP_BANK.reg) = t.word (mcB n + R.MC_LOOP_BANK.reg) :=
    (State.word_setF ..).trans (if_neg (by rw [hf]; exact hne))
  unfold State.showAct
  dsimp only
  rw [hset _ _ rfl, hset _ _ rfl, hset _ _ rfl, hset _ _ rfl]
  exact State.word_of_part (State.modAtl_part _ _ _ (by simp)) _

theorem State.showAct_act (f : Fill) : (((s.showAct n f).mc[n]).atl).act = f.cells := by
  obtain ⟨y, hy⟩ : ∃ y, y = s.modAtl n fun a => { a with act := f.cells } := ⟨_, rfl⟩
  have he : s.showAct n f = ((((y.setF (mcB n) R.MC_ATL_ACT.sheet (f.first.getD 0)).setF (mcB n) R.MC_ATL_ACT.sheet_valid
      (b2n f.first.isSome)).setF (mcB n) R.MC_ATL_ACT.w_s f.qs).setF (mcB n) R.MC_ATL_ACT.w_l f.ql) := by rw [hy]; rfl
  have hpart : ((s.showAct n f).mc[n]).atl = (y.mc[n]).atl := by
    show (s.showAct n f).part (.mc n .atl) = y.part (.mc n .atl)
    rw [he]
    simp
  rw [hpart, hy, State.modAtl_mc]

/-- The words of a bank swap once its group has changed sides: only the target shown and what waits may follow. -/
theorem State.bankSwap_view {g : Fin 4} {f : Fill} (hbit : bitAt (s.f (mcB n) R.MC_LOOP_BANK.pending) g.val = true)
    (hs : ((s.mc[n]).atl).swap = none) (hh : ((s.mc[n]).atl).held = some f) (hd : ((s.mc[n]).atl).dueAt.isSome = true)
    (hg : g.val < 2 ∨ s.f (mcB n) R.MC_LOOP_BANK.pending % 4 = 0) :
    (s.bankSwap n g).word (mcB n + R.MC_LOOP_BANK.reg) = (s.bankFlip n g).word (mcB n + R.MC_LOOP_BANK.reg)
      ∧ (g = 0 → (((s.bankSwap n g).mc[n]).atl).act = f.cells) := by
  obtain ⟨x, hx⟩ : ∃ x, x = if g = 0 then (s.bankFlip n g).showAct n f else s.bankFlip n g := ⟨_, rfl⟩
  obtain ⟨y, hy⟩ : ∃ y, y = if ((x.mc[n]).atl).act = f.cells then x else x.showAct n f := ⟨_, rfl⟩
  have he : s.bankSwap n g = if x.f (mcB n) R.MC_LOOP_BANK.pending = 0 then
      (y.modAtl n fun a => { a with held := none, dueAt := none }).setF (mcB n) R.MC_ATL_STAT.held 0 else x := by
    unfold State.bankSwap
    dsimp only
    rw [if_pos ⟨hbit, hg, by rw [hs]; rfl, hd⟩, hh]
    dsimp only
    rw [hy, hx]
  have hxw : x.word (mcB n + R.MC_LOOP_BANK.reg) = (s.bankFlip n g).word (mcB n + R.MC_LOOP_BANK.reg) := by
    rw [hx]
    split
    · exact State.showAct_loopBank f
    · rfl
  have hyw : y.word (mcB n + R.MC_LOOP_BANK.reg) = x.word (mcB n + R.MC_LOOP_BANK.reg) := by
    rw [hy]
    split
    · rfl
    · exact State.showAct_loopBank f
  have hyact : ((y.mc[n]).atl).act = f.cells := by
    rw [hy]
    split
    next h => exact h
    next => exact State.showAct_act f
  rw [he]
  by_cases h0 : x.f (mcB n) R.MC_LOOP_BANK.pending = 0
  · rw [if_pos h0]
    obtain ⟨z, hz⟩ : ∃ z, z = y.modAtl n fun a => { a with held := none, dueAt := none } := ⟨_, rfl⟩
    rw [← hz]
    refine ⟨?_, fun _ => ?_⟩
    · rw [show (z.setF (mcB n) R.MC_ATL_STAT.held 0).word (mcB n + R.MC_LOOP_BANK.reg) = z.word (mcB n + R.MC_LOOP_BANK.reg) from
        (State.word_setF ..).trans (if_neg (by simp only [R.MC_ATL_STAT.held, R.MC_LOOP_BANK.reg]; omega)), hz,
        State.word_of_part (State.modAtl_part _ _ _ (by simp)) _, hyw, hxw]
    · rw [show ((z.setF (mcB n) R.MC_ATL_STAT.held 0).mc[n]).atl = (z.mc[n]).atl from State.setF_part (p := .mc n .atl) _ _ _ _ (by simp),
        hz, State.modAtl_mc]
      exact hyact
  · rw [if_neg h0]
    refine ⟨hxw, fun hg => ?_⟩
    rw [hx, if_pos hg]
    exact State.showAct_act f

end

/-! ## Row groups -/

section
variable {s : State} {g : Nat} {ecc : Ecc}

theorem State.rowSheet_rowFlags {k : Nat} (h : ∀ y ∈ ecc, y.1.val ≠ k) : (s.rowSheet ecc k).rowFlags = s.rowFlags := by
  have hnil : (ecc.filter fun e => e.1.val == k) = [] := List.filter_eq_nil_iff.2 fun y hy => by simp [h y hy]
  have hread : (s.readSheet ecc k).1 = s := by
    unfold State.readSheet
    rw [hnil]
    rfl
  have hpart : (s.rowSheet ecc k).part .rowFlags = (s.readSheet ecc k).1.part .rowFlags := by
    unfold State.rowSheet
    dsimp only
    split
    · split
      · simp
      · split <;> simp
    · rw [hread]
  exact hpart.trans (congrArg (fun t => t.part .rowFlags) hread)

theorem State.each_rowSheet {l : List Nat} (h : ∀ i ∈ l, ∀ y ∈ ecc, y.1.val ≠ 8 * g + i) (s : State) :
    (s.each l fun i t => t.rowSheet ecc (8 * g + i)).rowFlags = s.rowFlags := by
  induction l generalizing s with
  | nil => rfl
  | cons a l ih =>
    exact (ih (fun i hi => h i (List.mem_cons_of_mem _ hi)) (s.rowSheet ecc (8 * g + a))).trans
      (State.rowSheet_rowFlags (h a List.mem_cons_self))

theorem State.rowSub_none (hf : g ∈ s.rowFlags) (h : s.rowSpares = []) :
    s.rowSub g ecc = { s with rowFlags := s.rowFlags.filter (· != g) } := by
  unfold State.rowSub
  rw [if_pos (List.contains_iff_mem.2 hf)]
  dsimp only
  rw [show ({ s with rowFlags := s.rowFlags.filter (· != g) } : State).rowSpares = [] from h]

theorem State.rowSub_spare {x : Nat} {rest : List Nat} (hf : g ∈ s.rowFlags) (h : s.rowSpares = x :: rest) :
    let e := s.rowSub g ecc
    (g, x) ∈ e.rowMap ∧ ((∀ y ∈ ecc, y.1.val / 8 ≠ g) → g ∉ e.rowFlags)
      ∧ ∀ y z, y ≠ g → ((y, z) ∈ e.rowMap ↔ (y, z) ∈ s.rowMap) := by
  intro e
  obtain ⟨w, hw⟩ : ∃ w : State, w = { s with rowFlags := s.rowFlags.filter (· != g) } := ⟨_, rfl⟩
  have hws : w.rowSpares = x :: rest := by rw [hw]; exact h
  obtain ⟨v, hv⟩ : ∃ v, v = w.rowTake g x := ⟨_, rfl⟩
  obtain ⟨y, hy⟩ : ∃ y, y = ((v.setF pk R.ATL_STAT.rg_spares rest.length).inc pk R.ATL_CNT.rg_remap).substituted.raise 37 := ⟨_, rfl⟩
  obtain ⟨z, hz⟩ : ∃ z, z = if rest.isEmpty then y.poolEmpty 10 else y := ⟨_, rfl⟩
  have he : e = z.each (List.range 8) fun i t => t.rowSheet ecc (8 * g + i) := by
    show s.rowSub g ecc = _
    unfold State.rowSub
    rw [if_pos (List.contains_iff_mem.2 hf)]
    dsimp only
    rw [← hw, hws]
    dsimp only
    rw [hz, hy, hv]
  have hzpart {p : Part} (hp : p ∉ [.link, .raised, .store, .trace]) : z.part p = v.part p := by
    rw [hz]
    split
    · rw [State.poolEmpty_part _ _ hp, hy]
      simp at hp
      simp [hp]
    · rw [hy]
      simp at hp
      simp [hp]
  have hmap : e.rowMap = (s.rowMap.filter fun p => p.1 != g) ++ [(g, x)] := by
    have h1 : e.rowMap = z.rowMap := by
      rw [he]
      exact State.each_keeps (P := fun t => t.rowMap = z.rowMap) (fun i t ht =>
        (State.rowSheet_part (p := .rowMap) t ecc _ (by simp)).trans ht) z rfl
    rw [h1, show z.rowMap = v.rowMap from hzpart (p := .rowMap) (by simp), hv, hw]
    rfl
  refine ⟨?_, fun hno => ?_, fun y z hne => ?_⟩
  · rw [hmap]
    simp
  · rw [he, State.each_rowSheet fun i hi y hy h8 => hno y hy (by
      have hi := List.mem_range.1 hi
      omega), show z.rowFlags = v.rowFlags from hzpart (p := .rowFlags) (by simp), hv,
      show (w.rowTake g x).rowFlags = w.rowFlags from State.rowTake_part (p := .rowFlags) _ _ _ (by simp), hw]
    simp
  · rw [hmap]
    simp [hne]

end

/-! ## The claims, in the state found -/

section
variable {s : State} {n : Mcn} {ecc : Ecc} {f : Fill}

theorem State.fillComplete_good_claim (hf : ((s.mc[n]).atl).fill = some f) (h : ∀ k ∈ f.cells.sheets, s.sheetReads ecc k) :
    let e := s.fillComplete n ecc
    let idle (g : Fin 4) : Fin 2 := s.idle n g
    let live (g : Fin 4) : Fin 2 := if idle g = 0 then 1 else 0
    let new (g : Fin 4) : Bank := s.bankOf (s.act n) f.cells g
    ((e.mc[n]).atl).fill = none ∧ e.f (mcB n) R.MC_ATL_STAT.fill_busy = 0 ∧ e.cl = s.cl ∧ e.gates = s.gates
      ∧ e.outer = s.outer ∧ (∀ g : Fin 4, ((e.mc[n]).banks[g])[live g] = ((s.mc[n]).banks[g])[live g])
      ∧ (if ∀ g : Fin 4, new g = ((s.mc[n]).banks[g])[live g]
        then ((e.mc[n]).atl).act = f.cells ∧ (e.mc[n]).banks = (s.mc[n]).banks
        else ((e.mc[n]).atl).held.map Fill.cells = some f.cells ∧ e.f (mcB n) R.MC_ATL_STAT.held = 1
          ∧ ∀ g : Fin 4, new g ≠ ((s.mc[n]).banks[g])[live g] →
              ((e.mc[n]).banks[g])[idle g] = new g ∧ bitAt (e.f (mcB n) R.MC_LOOP_BANK.pending) g.val = true) := by
  obtain ⟨hfill, hbusy, hlive, hnew⟩ := State.fillComplete_good hf h
  exact ⟨hfill, hbusy, State.fillComplete_part (p := .cl) s n ecc (by simp),
    State.gates_eq fun o => State.fillComplete_part s n ecc (by simp), State.outer_of_parts (by simp), hlive, hnew⟩

theorem State.fillComplete_bad_claim (hf : ((s.mc[n]).atl).fill = some f) {i k : Nat} (hi : f.cells.sheets[i]? = some k)
    (hpass : ∀ x ∈ f.cells.sheets.take i, s.sheetReads ecc x) (hk : ¬ s.sheetReads ecc k) :
    let e := s.fillComplete n ecc
    ((e.mc[n]).atl).fill = none ∧ (e.mc[n]).banks = (s.mc[n]).banks ∧ ((e.mc[n]).atl).held = ((s.mc[n]).atl).held
      ∧ k / 8 ∈ e.rowFlags ∧ ((s.link[clRg (mcCl n)]).lost = false → evMc n 16 ∈ e.raised) ∧ e.cl = s.cl ∧ e.gates = s.gates := by
  obtain ⟨hfill, hbanks, hheld, hflag, hev⟩ := State.fillComplete_bad hf hi hpass hk
  exact ⟨hfill, hbanks, hheld, hflag, hev, State.fillComplete_part (p := .cl) s n ecc (by simp),
    State.gates_eq fun o => State.fillComplete_part s n ecc (by simp)⟩

theorem State.sheetMiss_claim (hf : ((s.mc[n]).atl).fill ≠ none) (hd : ((s.mc[n]).atl).dueAt.isSome = true)
    (hc : s.fb (mcB n) R.MC_ATL_STAT.critical = false) :
    let e := s.sheetMiss n
    e.f (mcB n) R.MC_ATL_STAT.critical = 1
      ∧ e.f (mcB n) R.MC_ATL_CNT.miss_count
        = Nat.min (s.f (mcB n) R.MC_ATL_CNT.miss_count + 1) (2 ^ R.MC_ATL_CNT.miss_count.w - 1)
      ∧ ((s.link[clRg (mcCl n)]).lost = false → evMc n 15 ∈ e.raised) ∧ e.mc = s.mc ∧ e.cl = s.cl ∧ e.outer = s.outer := by
  obtain ⟨hcrit, hcount, hev⟩ := State.sheetMiss_view hf hd hc
  exact ⟨hcrit, hcount, hev, State.mcs_eq fun k q => State.sheetMiss_part s n (by simp),
    State.sheetMiss_part (p := .cl) s n (by simp), State.outer_of_parts (by simp)⟩

theorem State.bankSwap_claim {g : Fin 4} (hbit : bitAt (s.f (mcB n) R.MC_LOOP_BANK.pending) g.val = true)
    (hs : ((s.mc[n]).atl).swap = none) (hh : ((s.mc[n]).atl).held = some f) (hd : ((s.mc[n]).atl).dueAt.isSome = true)
    (hg : g.val < 2 ∨ s.f (mcB n) R.MC_LOOP_BANK.pending % 4 = 0) :
    let e := s.bankSwap n g
    e.idle n g = (if s.idle n g = 0 then 1 else 0) ∧ bitAt (e.f (mcB n) R.MC_LOOP_BANK.pending) g.val = false
      ∧ (e.mc[n]).banks = (s.mc[n]).banks ∧ (g = 0 → ((e.mc[n]).atl).act = f.cells)
      ∧ (∀ h : Fin 4, h ≠ g → e.idle n h = s.idle n h) ∧ e.cl = s.cl ∧ e.gates = s.gates ∧ e.outer = s.outer := by
  obtain ⟨hw, hact⟩ := State.bankSwap_view hbit hs hh hd hg
  obtain ⟨hidle, hpend⟩ := s.bankFlip_view (n := n) g
  have hidle' (h : Fin 4) : (s.bankSwap n g).idle n h = (s.bankFlip n g).idle n h :=
    State.idle_congr (congrArg R.MC_LOOP_BANK.active.get hw) h
  refine ⟨?_, ?_, State.bankSwap_part (p := .mc n .banks) s n g (by simp), hact, fun h hne => ?_,
    State.bankSwap_part (p := .cl) s n g (by simp), State.gates_eq fun o => State.bankSwap_part s n g (by simp),
    State.outer_of_parts (by simp)⟩
  · rw [hidle', hidle, if_pos rfl]
  · rw [show (s.bankSwap n g).f (mcB n) R.MC_LOOP_BANK.pending = (s.bankFlip n g).f (mcB n) R.MC_LOOP_BANK.pending from
      congrArg R.MC_LOOP_BANK.pending.get hw, hpend, if_pos rfl]
  · rw [hidle', hidle, if_neg hne]

theorem State.rowSub_claim {g x : Nat} {rest : List Nat} (hf : g ∈ s.rowFlags) (h : s.rowSpares = x :: rest) :
    let e := s.rowSub g ecc
    (g, x) ∈ e.rowMap ∧ ((∀ y ∈ ecc, y.1.val / 8 ≠ g) → g ∉ e.rowFlags) ∧ (∀ y z, y ≠ g → ((y, z) ∈ e.rowMap ↔ (y, z) ∈ s.rowMap))
      ∧ e.cl = s.cl ∧ e.mc = s.mc ∧ e.gates = s.gates ∧ e.flash = s.flash ∧ e.can = s.can ∧ e.sec = s.sec := by
  obtain ⟨hmap, hflag, hothers⟩ := State.rowSub_spare (ecc := ecc) hf h
  exact ⟨hmap, hflag, hothers, State.rowSub_part (p := .cl) s g ecc (by simp), State.mcs_eq fun k q => State.rowSub_part s g ecc (by simp),
    State.gates_eq fun o => State.rowSub_part s g ecc (by simp), State.rowSub_part (p := .flash) s g ecc (by simp),
    State.rowSub_part (p := .can) s g ecc (by simp), State.rowSub_part (p := .sec) s g ecc (by simp)⟩

end

end Sys2Proof.Machine

open Sys2Proof Sys2Proof.Machine

/-- Settles O33, by the reading of a fill and the banks that it changes, and by the substitution of a row group. -/
theorem pagerAndRows : Obligations.PagerAndRows := by
  intro s dt n ecc u m p good
  have hu : s.elapse dt = u := rfl
  -- the state found stays folded in the comparisons below
  refine ⟨fun hused => ⟨fun f hf hgood => ?_, fun f hf i k hi hpass hk => ?_, fun hf hd hc => ?_, fun g f hbit hs hh hd hg => ?_⟩,
    fun hdev pos hpos => ⟨fun hnone => ?_, fun x rest hspare => ?_⟩⟩
  · have hclaim := State.fillComplete_good_claim (s := u) (n := n) (ecc := ecc) (f := f) (by with_reducible exact hf) hgood
    refine State.gives_onMc (act := (·.fillComplete n ecc)) rfl hu (by with_reducible exact hused) ?_
    with_reducible exact hclaim
  · have hclaim := State.fillComplete_bad_claim (s := u) (n := n) (ecc := ecc) (f := f) (by with_reducible exact hf) hi hpass hk
    refine State.gives_onMc (act := (·.fillComplete n ecc)) rfl hu (by with_reducible exact hused) ?_
    with_reducible exact hclaim
  · have hclaim := State.sheetMiss_claim (s := u) (n := n) (by with_reducible exact hf) (by with_reducible exact hd) hc
    refine State.gives_onMc (act := (·.sheetMiss n)) rfl hu (by with_reducible exact hused) ?_
    with_reducible exact hclaim
  · have hclaim := State.bankSwap_claim (s := u) (n := n) (g := g) (f := f) hbit (by with_reducible exact hs) (by with_reducible exact hh)
      (by with_reducible exact hd) hg
    refine State.gives_onMc (act := (·.bankSwap n g)) rfl hu (by with_reducible exact hused) ?_
    with_reducible exact hclaim
  · exact State.gives_onKilid (act := (·.rowSub pos.val ecc)) rfl hu hdev (State.rowSub_none (s := u) (ecc := ecc) hpos hnone)
  · have hclaim := State.rowSub_claim (s := u) (ecc := ecc) hpos hspare
    refine State.gives_onKilid (act := (·.rowSub pos.val ecc)) rfl hu hdev ?_
    with_reducible exact hclaim
end

section
/-! PROOFS. The flash is brought up and the slots are examined (R345 to R347). -/

namespace Sys2Proof.Machine

/-! ## The memory port's mode, and RECOVERY -/

section
variable (s : State)

theorem State.memMode_word {k : Nat} (mode clk dly : Nat) (h : k ≠ R.MP_STAT.reg) : (s.memMode mode clk dly).word k = s.word k :=
  ((State.word_setF ..).trans (if_neg h)).trans (((State.word_setF ..).trans (if_neg h)).trans ((State.word_setF ..).trans (if_neg h)))

theorem State.memMode_mode (mode clk dly : Nat) : (s.memMode mode clk dly).f pk R.MP_STAT.mode = mode % 4 := by
  unfold State.memMode
  rw [State.f_setF_apart _ _ _ _ _ _ (by decide) (by decide), State.f_setF_apart _ _ _ _ _ _ (by decide) (by decide),
    State.f_setF_self _ _ _ _ (by decide)]
  rfl

theorem State.memMode_clk (mode clk dly : Nat) : (s.memMode mode clk dly).f pk R.MP_STAT.clk_mhz = clk % 256 := by
  unfold State.memMode
  rw [State.f_setF_apart _ _ _ _ _ _ (by decide) (by decide), State.f_setF_self _ _ _ _ (by decide)]
  rfl

theorem State.memMode_dly (mode clk dly : Nat) : (s.memMode mode clk dly).f pk R.MP_STAT.dqs_dly = dly % 64 := by
  unfold State.memMode
  rw [State.f_setF_self _ _ _ _ (by decide)]
  rfl

theorem State.loadEnds_word {k : Nat} (h : k ≠ R.MP_STAT.reg) : s.loadEnds.word k = s.word k := by
  unfold State.loadEnds
  dsimp only
  split
  · rfl
  · exact State.memMode_word (s.memUser 0) _ _ _ h

theorem State.loadEnds_user : s.loadEnds.mp.user = 0 := by
  unfold State.loadEnds
  dsimp only
  split
  · rfl
  · exact congrArg MemPort.user (State.memMode_part (p := .mp) (s.memUser 0) _ _ _ (by simp))

theorem State.toRecovery_word {k : Nat} (h : k ≠ R.MP_STAT.reg) : s.toRecovery.word k = s.word k :=
  State.loadEnds_word _ h

theorem State.toRecovery_f {f : Fld} (h : f.off ≠ R.MP_STAT.reg) : s.toRecovery.f pk f = s.f pk f :=
  congrArg f.get (s.toRecovery_word (by simpa [pk] using h))

theorem State.toRecovery_view : s.toRecovery.dev.st = .recovery ∧ s.toRecovery.dev.cause = 4 ∧ s.toRecovery.boot.phase = .idle
    ∧ s.toRecovery.boot.cands = [] ∧ s.toRecovery.mp.user = 0 := by
  obtain ⟨y, hy⟩ : ∃ y : State, y = (s.modDev fun d => { d with st := .recovery, cause := 4 }).dark := ⟨_, rfl⟩
  obtain ⟨z, hz⟩ : ∃ z : State, z = { y with boot := { y.boot with phase := .idle, cands := [] } } := ⟨_, rfl⟩
  have he : s.toRecovery = z.loadEnds := by rw [hz, hy]; rfl
  have hdev : s.toRecovery.dev = y.dev := by
    rw [he, show z.loadEnds.dev = z.dev from State.loadEnds_part (p := .dev) z (by simp), hz]
  have hboot : s.toRecovery.boot = z.boot := by
    rw [he]
    exact State.loadEnds_part (p := .boot) z (by simp)
  refine ⟨?_, ?_, ?_, ?_, ?_⟩
  · rw [hdev, hy]
    rfl
  · rw [hdev, hy]
    rfl
  · rw [hboot, hz]
  · rw [hboot, hz]
  · rw [he]
    exact State.loadEnds_user z

/-! ## The reasons of the slots -/

theorem Reason.code_lt (r : Reason) : r.code < 16 := by
  cases r <;> decide

theorem State.setReason_word (k : Fin 2) (r : Reason) {i : Nat} (h : i ≠ R.DEV_BOOT_STAT.reg) : (s.setReason k r).word i = s.word i := by
  refine (State.word_setF ..).trans (if_neg ?_)
  split <;> exact h

/-- Both slots have their reasons. -/
theorem State.setReasons (r0 r1 : Reason) :
    ((s.setReason 0 r0).setReason 1 r1).f pk R.DEV_BOOT_STAT.reason0 = r0.code
      ∧ ((s.setReason 0 r0).setReason 1 r1).f pk R.DEV_BOOT_STAT.reason1 = r1.code := by
  have h0 (t : State) : t.setReason 0 r0 = t.setF pk R.DEV_BOOT_STAT.reason0 r0.code := rfl
  have h1 (t : State) : t.setReason 1 r1 = t.setF pk R.DEV_BOOT_STAT.reason1 r1.code := rfl
  rw [h1, h0]
  refine ⟨?_, ?_⟩
  · rw [State.f_setF_apart _ _ _ _ _ _ (by decide) (by decide), State.f_setF_self _ _ _ _ (by decide)]
    exact Nat.mod_eq_of_lt r0.code_lt
  · rw [State.f_setF_self _ _ _ _ (by decide)]
    exact Nat.mod_eq_of_lt r1.code_lt

/-! ## The claims -/

/-- What the load of an image leaves as it is. -/
def LoadKeeps (s e : State) : Prop :=
  e.flash = s.flash ∧ e.sec = s.sec ∧ e.cl = s.cl ∧ e.gates = s.gates ∧ e.can = s.can

variable {s}

theorem State.flashSilent_view (hp : s.boot.phase = .params) :
    let e := s.flashSilent
    e.dev.st = .recovery ∧ e.dev.cause = 4 ∧ e.boot.phase = .idle ∧ e.boot.cands = []
      ∧ e.f pk R.DEV_BOOT_STAT.reason0 = Reason.read.code ∧ e.f pk R.DEV_BOOT_STAT.reason1 = Reason.read.code ∧ LoadKeeps s e := by
  intro e
  obtain ⟨y, hy⟩ : ∃ y, y = (s.setReason 0 .read).setReason 1 .read := ⟨_, rfl⟩
  have he : e = y.toRecovery := by
    rw [hy]
    exact if_pos (.inl hp)
  obtain ⟨hst, hcause, hphase, hcands, -⟩ := y.toRecovery_view
  have hreason := s.setReasons .read .read
  have hpart {p : Part} (h : p ∉ [.boot, .dev, .mp, .store]) : e.part p = s.part p := by
    rw [he, State.toRecovery_part _ h, hy]
    simp at h
    simp [h]
  refine ⟨he ▸ hst, he ▸ hcause, he ▸ hphase, he ▸ hcands, ?_, ?_, hpart (p := .flash) (by simp), hpart (p := .sec) (by simp),
    hpart (p := .cl) (by simp), State.gates_eq fun o => hpart (by simp), hpart (p := .can) (by simp)⟩
  · rw [he, State.toRecovery_f _ (by decide), hy]
    exact hreason.1
  · rw [he, State.toRecovery_f _ (by decide), hy]
    exact hreason.2

/-- The switch to octal DDR is confirmed. -/
theorem State.octalSwitch_confirmed (hp : s.boot.phase = .octal) :
    let e := s.octalSwitch true
    e.boot = { s.boot with phase := .headers } ∧ e.f pk R.DEV_BOOT_STAT.octal = 1 ∧ e.f pk R.MP_STAT.mode = 2
      ∧ 1 ≤ e.f pk R.MP_STAT.clk_mhz ∧ e.f pk R.MP_STAT.clk_mhz ≤ 200 ∧ e.dev = s.dev ∧ LoadKeeps s e := by
  intro e
  obtain ⟨y, hy⟩ : ∃ y, y = (s.bootPhase .headers).drawn.drawn := ⟨_, rfl⟩
  obtain ⟨dly, he⟩ : ∃ dly, e = (y.setF pk R.DEV_BOOT_STAT.octal 1).memMode 2 (1 + (s.bootPhase .headers).freeNat % 200) dly := by
    rw [hy]
    exact ⟨_, if_pos hp⟩
  have hclk : (1 + (s.bootPhase .headers).freeNat % 200) % 256 = 1 + (s.bootPhase .headers).freeNat % 200 :=
    Nat.mod_eq_of_lt (by omega)
  have hpart {p : Part} (h : p ≠ .store) : e.part p = y.part p := by
    rw [he]
    simp [h]
  have hkeep {p : Part} (h : p ∉ [.boot, .fresh, .store]) : e.part p = s.part p := by
    simp at h
    rw [hpart h.2.2, hy]
    simp [State.bootPhase, h]
  refine ⟨?_, ?_, ?_, ?_, ?_, hkeep (p := .dev) (by simp), hkeep (p := .flash) (by simp), hkeep (p := .sec) (by simp),
    hkeep (p := .cl) (by simp), State.gates_eq fun o => hkeep (by simp), hkeep (p := .can) (by simp)⟩
  · rw [show e.boot = y.boot from hpart (p := .boot) (by simp), hy]
    rfl
  · rw [he, show (State.memMode _ 2 _ _).f pk R.DEV_BOOT_STAT.octal = (y.setF pk R.DEV_BOOT_STAT.octal 1).f pk R.DEV_BOOT_STAT.octal from
      congrArg R.DEV_BOOT_STAT.octal.get (State.memMode_word _ _ _ _ (by decide)), State.f_setF_self _ _ _ _ (by decide)]
    rfl
  · rw [he, State.memMode_mode]
  · rw [he, State.memMode_clk, hclk]
    omega
  · rw [he, State.memMode_clk, hclk]
    omega

/-- The load goes on in single lane. -/
theorem State.octalSwitch_failed (hp : s.boot.phase = .octal) :
    let e := s.octalSwitch false
    e.boot = { s.boot with phase := .headers } ∧ e.f pk R.DEV_BOOT_STAT.fallback = 1 ∧ e.f pk R.MP_STAT.mode = 1
      ∧ e.f pk R.MP_STAT.clk_mhz = 50 ∧ e.f pk R.MP_STAT.dqs_dly = 0 ∧ e.dev = s.dev ∧ LoadKeeps s e := by
  intro e
  obtain ⟨y, hy⟩ : ∃ y, y = s.bootPhase .headers := ⟨_, rfl⟩
  have he : e = (y.setF pk R.DEV_BOOT_STAT.fallback 1).memMode 1 50 0 := by
    rw [hy]
    exact if_pos hp
  have hpart {p : Part} (h : p ≠ .store) : e.part p = y.part p := by
    rw [he]
    simp [h]
  have hkeep {p : Part} (h : p ∉ [.boot, .store]) : e.part p = s.part p := by
    simp at h
    rw [hpart h.2, hy]
    simp [State.bootPhase, h]
  refine ⟨?_, ?_, ?_, ?_, ?_, hkeep (p := .dev) (by simp), hkeep (p := .flash) (by simp), hkeep (p := .sec) (by simp),
    hkeep (p := .cl) (by simp), State.gates_eq fun o => hkeep (by simp), hkeep (p := .can) (by simp)⟩
  · rw [show e.boot = y.boot from hpart (p := .boot) (by simp), hy]
    rfl
  · rw [he, show (State.memMode _ 1 _ _).f pk R.DEV_BOOT_STAT.fallback
        = (y.setF pk R.DEV_BOOT_STAT.fallback 1).f pk R.DEV_BOOT_STAT.fallback from
      congrArg R.DEV_BOOT_STAT.fallback.get (State.memMode_word _ _ _ _ (by decide)), State.f_setF_self _ _ _ _ (by decide)]
    rfl
  · rw [he, State.memMode_mode]
  · rw [he, State.memMode_clk]
  · rw [he, State.memMode_dly]

/-- The headers are judged: the reasons stand, and the candidates lead to VERIFY or, if there is none, to RECOVERY. -/
theorem State.headerCheck_view (hp : s.boot.phase = .headers) (hm : s.mp.user = 0 ∨ s.mp.user = 1) :
    let r (k : Fin 2) : Reason := s.headerReason (s.slotHeader k)
    let order : List (Fin 2) := if hdrSequence (s.slotHeader 0) < hdrSequence (s.slotHeader 1) then [1, 0] else [0, 1]
    let e := s.headerCheck
    e.f pk R.DEV_BOOT_STAT.reason0 = (r 0).code ∧ e.f pk R.DEV_BOOT_STAT.reason1 = (r 1).code ∧ LoadKeeps s e
      ∧ e.boot.cands = order.filter (fun k => r k == .notTried)
      ∧ (e.boot.cands = [] → e.dev.st = .recovery ∧ e.boot.phase = .idle ∧ e.mp.user = 0)
      ∧ (e.boot.cands ≠ [] → e.dev.st = .verify ∧ e.boot.phase = .stream ∧ e.mp.user = 1) := by
  intro r order e
  obtain ⟨y, hy⟩ : ∃ y, y = (((s.memUser 1).setReason 0 (r 0)).setReason 1 (r 1)) := ⟨_, rfl⟩
  have he : e = match order.filter (fun k => r k == .notTried) with
      | [] => y.toRecovery
      | k :: ks => (({ y with boot := { y.boot with phase := .stream, cands := k :: ks } } : State).modDev fun d =>
          { d with st := .verify }).setAlt k := by
    rw [hy]
    exact if_pos ⟨hp, hm⟩
  have hreason := (s.memUser 1).setReasons (r 0) (r 1)
  rw [← hy] at hreason
  have hyuser : y.mp.user = 1 := by
    rw [hy, show (((s.memUser 1).setReason 0 (r 0)).setReason 1 (r 1)).mp = (s.memUser 1).mp from
      (State.setReason_part (p := .mp) _ _ _ (by simp)).trans (State.setReason_part (p := .mp) _ _ _ (by simp))]
    rfl
  have hypart {p : Part} (h : p ∉ [.mp, .store]) : y.part p = s.part p := by
    simp at h
    rw [hy]
    simp [State.setReason, h]
  cases hl : order.filter (fun k => r k == .notTried) with
  | nil =>
    rw [hl] at he
    dsimp only at he
    obtain ⟨hst, -, hphase, hcands, huser⟩ := y.toRecovery_view
    have hpart {p : Part} (h : p ∉ [.boot, .dev, .mp, .store]) : e.part p = s.part p := by
      rw [he, State.toRecovery_part _ h]
      exact hypart (by simp at h; simp [h])
    refine ⟨?_, ?_, ⟨hpart (p := .flash) (by simp), hpart (p := .sec) (by simp), hpart (p := .cl) (by simp),
      State.gates_eq fun o => hpart (by simp), hpart (p := .can) (by simp)⟩, he ▸ hcands, fun _ => ?_, fun h => ?_⟩
    · rw [he, State.toRecovery_f _ (by decide)]
      exact hreason.1
    · rw [he, State.toRecovery_f _ (by decide)]
      exact hreason.2
    · exact ⟨he ▸ hst, he ▸ hphase, he ▸ huser⟩
    · exact absurd (he ▸ hcands) h
  | cons k ks =>
    rw [hl] at he
    dsimp only at he
    obtain ⟨z, hz⟩ : ∃ z : State, z = { y with boot := { y.boot with phase := .stream, cands := k :: ks } } := ⟨_, rfl⟩
    obtain ⟨w, hw⟩ : ∃ w, w = z.modDev fun d => { d with st := .verify } := ⟨_, rfl⟩
    obtain ⟨alt, hew⟩ : ∃ alt, e = w.setF pk R.DEV_IMG_ALT.seq alt := by
      rw [hw, hz]
      exact ⟨_, he⟩
    have hpart {p : Part} (h : p ≠ .store) : e.part p = w.part p := by
      rw [hew]
      exact State.setF_part _ _ _ _ (by simpa using h)
    have hkeep {p : Part} (h : p ∉ [.boot, .dev, .mp, .store]) : e.part p = s.part p := by
      have h' := h
      simp at h'
      rw [hpart h'.2.2.2, hw, State.modDev_part _ _ (by simp [h']), hz, State.with_boot_part _ _ (by simp [h'])]
      exact hypart (by simp [h'])
    have hboot : e.boot = z.boot := by
      rw [show e.boot = w.boot from hpart (p := .boot) (by simp), hw]
      rfl
    have hcands : e.boot.cands = k :: ks := by rw [hboot, hz]
    have hwy (i : Nat) : w.word i = y.word i := by
      rw [hw, hz]
      rfl
    have hf {f : Fld} (h : f.off ≠ R.DEV_IMG_ALT.reg) : e.f pk f = y.f pk f := by
      rw [hew]
      refine (State.f_setF_other _ _ _ _ _ _ ?_).trans (congrArg f.get (hwy _))
      show 0 + f.off ≠ 0 + R.DEV_IMG_ALT.reg
      rwa [Nat.zero_add, Nat.zero_add]
    refine ⟨(hf (by decide)).trans hreason.1, (hf (by decide)).trans hreason.2, ⟨hkeep (p := .flash) (by simp),
      hkeep (p := .sec) (by simp), hkeep (p := .cl) (by simp), State.gates_eq fun o => hkeep (by simp), hkeep (p := .can) (by simp)⟩,
      hcands, fun h => absurd (hcands.symm.trans h) (by simp), fun _ => ⟨?_, ?_, ?_⟩⟩
    · rw [show e.dev = w.dev from hpart (p := .dev) (by simp), hw]
      rfl
    · rw [hboot, hz]
    · rw [show e.mp = w.mp from hpart (p := .mp) (by simp), show w.mp = y.mp by rw [hw, hz]; rfl]
      exact hyuser

end

end Sys2Proof.Machine

open Sys2Proof Sys2Proof.Machine

/-- Settles O44, by what each stage writes and by the entry to RECOVERY. -/
theorem bootOpens : Obligations.BootOpens := by
  intro s dt u
  have hu : s.elapse dt = u := rfl
  clear_value u
  intro ph goes kept
  refine ⟨fun hp => ?_, ?_, fun hp => ?_, fun hp => ⟨?_, ?_⟩, fun hp hm => ?_⟩
  · exact State.gives_eq (eff := (·.paramsRead true)) rfl hu (if_pos ⟨hp, rfl⟩) ⟨rfl, rfl⟩
  · exact State.gives_after (eff := (·.paramsRead false)) rfl hu (if_neg fun h => Bool.false_ne_true h.2)
  · exact State.gives_after (eff := (·.flashSilent)) rfl hu (State.flashSilent_view hp)
  · exact State.gives_after (eff := (·.octalSwitch true)) rfl hu (State.octalSwitch_confirmed hp)
  · exact State.gives_after (eff := (·.octalSwitch false)) rfl hu (State.octalSwitch_failed hp)
  · exact State.gives_after (eff := (·.headerCheck)) rfl hu (State.headerCheck_view hp hm)
end

section
/-! PROOFS. A candidate image streams and is judged (R347, R356, R357), and the boot ends in READY or RUN (R341, R358). -/

namespace Sys2Proof.Machine

/-! ## What a load leaves of the boot's record -/

/-- Of the boot's record, a load changes the list of the words it has written, and no more. -/
def BootKept (s t : State) : Prop := ∃ w, t.boot = { s.boot with written := w }

section
variable {s t u : State}

theorem BootKept.of_part (h : t.part .boot = s.part .boot) : BootKept s t := ⟨s.boot.written, h⟩

theorem BootKept.trans (h1 : BootKept s t) (h2 : BootKept t u) : BootKept s u := by
  obtain ⟨w, h1⟩ := h1
  obtain ⟨w', h2⟩ := h2
  exact ⟨w', by rw [h2, h1]⟩

theorem State.loadWord_boot {ty inst a w : Nat} (hw : s.loadWord ty inst a w = some t) : BootKept s t := by
  have hkeep (k : Nat) (w : Word) : BootKept s (({ s with boot := { s.boot with written := k :: s.boot.written } } : State).setWord k w) :=
    ⟨k :: s.boot.written, rfl⟩
  unfold State.loadWord at hw
  split at hw
  · cases hw
  · dsimp only at hw
    split at hw
    · cases hw
      exact hkeep ..
    · split at hw
      · cases hw
      · obtain ⟨-, hw⟩ := Option.ite_none_left_eq_some.1 hw
        cases hw
        exact hkeep ..

theorem loadWords_boot (ty inst a : Nat) (ws : List Nat) (s : State) : BootKept s (loadWords ty inst a ws s).1 := by
  induction ws generalizing s a with
  | nil => exact .of_part rfl
  | cons w ws ih =>
    unfold loadWords
    split
    · exact .of_part rfl
    next hw => exact (State.loadWord_boot hw).trans (ih _ _)

theorem loadRecords_boot (ty inst k : Nat) (ws : List Nat) (s : State) : BootKept s (loadRecords ty inst k ws s).1 := by
  induction k generalizing s ws with
  | zero => exact .of_part rfl
  | succ k ih =>
    cases ws with
    | nil => exact .of_part rfl
    | cons hd ws =>
      unfold loadRecords
      dsimp only
      split
      · exact .of_part rfl
      · have hw := loadWords_boot ty inst (hd % 2 ^ 24) (ws.take (hd / 2 ^ 24)) s
        split
        next hx =>
          rw [hx] at hw
          exact hw.trans (ih _ _)
        next hx =>
          rw [hx] at hw
          exact hw

theorem State.loadSection_boot (s : State) (slot : Nat) (x : Sect) (ws : List Nat) : BootKept s (s.loadSection slot x ws).1 := by
  have hr := loadRecords_boot x.type x.inst ws.length ws s
  have hs : BootKept s (loadRuns ws.length (slot + x.off) ws s).1 := .of_part (loadRuns_part _ _ _ _ (by simp))
  unfold State.loadSection
  split
  next t r hx =>
    have h1 : BootKept s t := by
      rw [← show _ = t from congrArg Prod.fst hx]
      split
      · exact hs
      · exact .of_part rfl
      · exact .of_part rfl
      · exact .of_part rfl
      · exact .of_part rfl
      · exact hr
    split
    · exact h1
    · split
      · exact h1
      · split <;> exact h1

theorem loadAll_boot (slot : Nat) (img : List Nat) (i : Nat) (xs : List Sect) (s : State) : BootKept s (loadAll slot img i xs s).1 := by
  induction xs generalizing s i with
  | nil => exact .of_part rfl
  | cons x xs ih =>
    have hx := s.loadSection_boot slot x ((img.drop (x.off / 4)).take (x.len / 4))
    unfold loadAll
    split
    next he =>
      rw [he] at hx
      exact hx
    next he =>
      rw [he] at hx
      exact hx.trans (ih _ _)

theorem State.loadImage_boot (s : State) (k : Fin 2) : BootKept s (s.loadImage k).1 := by
  unfold State.loadImage
  dsimp only
  split
  · exact .of_part rfl
  · split
    · exact .of_part rfl
    · split
      · exact .of_part rfl
      · exact loadAll_boot _ _ _ _ _

end

/-! ## A failed load is undone -/

/-- The field that holds the reason of a slot. -/
def reasonFld (k : Fin 2) : Fld := if k.val = 0 then R.DEV_BOOT_STAT.reason0 else R.DEV_BOOT_STAT.reason1

theorem reasonFld_off (k : Fin 2) : (reasonFld k).off = R.DEV_BOOT_STAT.reg := by
  unfold reasonFld
  split <;> rfl

theorem reasonFld_bits (k : Fin 2) : (reasonFld k).w = 4 ∧ ((reasonFld k).lo = 0 ∨ (reasonFld k).lo = 4) := by
  unfold reasonFld
  split
  · exact ⟨rfl, .inl rfl⟩
  · exact ⟨rfl, .inr rfl⟩

/-- The row of DEV_BOOT_STAT, none of whose fields a load writes. -/
def bootStatRow : RDesc :=
  ⟨0x10, 1, 1, [⟨0, 4, .ro, 0x1, []⟩, ⟨4, 4, .ro, 0x1, []⟩, ⟨8, 1, .ro, 0x0, []⟩, ⟨9, 1, .ro, 0x0, []⟩, ⟨10, 1, .ro, 0x0, []⟩,
    ⟨16, 16, .ro, 0x0, []⟩]⟩

theorem regAt_bootStat : regAt 0x10 = some (bootStatRow, 0) := rfl

theorem mergeWord_reason (k : Fin 2) (w : Word) (new : Nat) :
    (reasonFld k).get (BitVec.ofNat 32 (mergeWord bootStatRow (fun f => f.cls.loads) w.toNat new)) = (reasonFld k).get w := by
  obtain ⟨hw, hlo⟩ := reasonFld_bits k
  have hmerge : mergeWord bootStatRow (fun f => f.cls.loads) w.toNat new
      = bitsAt w.toNat 0 4 + bitsAt w.toNat 4 4 * 16 + bitsAt w.toNat 8 1 * 256 + bitsAt w.toNat 9 1 * 512
        + bitsAt w.toNat 10 1 * 1024 + bitsAt w.toNat 16 16 * 65536 := by
    simp [mergeWord, bootStatRow, Cls.loads]
  unfold Fld.get
  rw [hw, hmerge, BitVec.toNat_ofNat]
  have hlt := w.isLt
  unfold bitsAt
  rcases hlo with h | h <;> rw [h] <;> omega

section
variable (s : State)

theorem State.undoLoad_reason (k : Fin 2) : s.undoLoad.f pk (reasonFld k) = s.f pk (reasonFld k) := by
  obtain ⟨x, hx⟩ : ∃ x, x = s.each s.boot.written fun key t =>
      match regAt (key % 0x1000000) with
      | some (d, _) => t.setWord key (BitVec.ofNat 32 (mergeWord d (fun f => f.cls.loads) (t.word key).toNat (regReset key).toNat))
      | none => t.setWord key (regReset key) := ⟨_, rfl⟩
  obtain ⟨y, hy⟩ : ∃ y, y = x.each (List.range 256) fun j t => t.setWord (0x9100 + j) 0 := ⟨_, rfl⟩
  obtain ⟨z, hz⟩ : ∃ z : State, z = { y with imgSheets := [], boot := { y.boot with written := [] } } := ⟨_, rfl⟩
  have he : s.undoLoad = z.setF pk R.ATL_STAT.n_loaded 0 := by
    rw [hz, hy, hx]
    rfl
  have hne : pk + (reasonFld k).off ≠ pk + R.ATL_STAT.n_loaded.off := by rw [reasonFld_off]; decide
  have hkey : pk + (reasonFld k).off = 0x10 := by rw [reasonFld_off]; rfl
  have hzy : z.f pk (reasonFld k) = y.f pk (reasonFld k) := by
    rw [hz]
    rfl
  rw [he, State.f_setF_other _ _ _ _ _ _ hne, hzy, hy]
  have hwin : (x.each (List.range 256) fun j t => t.setWord (0x9100 + j) 0).f pk (reasonFld k) = x.f pk (reasonFld k) :=
    State.each_keeps (P := fun t => t.f pk (reasonFld k) = x.f pk (reasonFld k)) (fun j t ht =>
      (congrArg (reasonFld k).get (State.word_setWord_ne t _ (by rw [hkey]; omega))).trans ht) x rfl
  rw [hwin, hx]
  refine State.each_keeps (P := fun t => t.f pk (reasonFld k) = s.f pk (reasonFld k)) (fun key t ht => ?_) s rfl
  have hother {w : Word} (h : key ≠ 0x10) : (t.setWord key w).f pk (reasonFld k) = t.f pk (reasonFld k) :=
    congrArg (reasonFld k).get (State.word_setWord_ne t _ (by rw [hkey]; exact Ne.symm h))
  by_cases h10 : key = 0x10
  · subst h10
    refine Eq.trans ?_ ht
    show (t.setWord 0x10 (BitVec.ofNat 32 (mergeWord bootStatRow (fun f => f.cls.loads) (t.word 0x10).toNat (regReset 0x10).toNat))).f pk
      (reasonFld k) = t.f pk (reasonFld k)
    unfold State.f
    rw [hkey, State.word_setWord_self]
    exact mergeWord_reason k _ _
  · refine Eq.trans ?_ ht
    split
    · exact hother h10
    · exact hother h10

theorem State.undoLoad_loaded : s.undoLoad.imgSheets = [] ∧ s.undoLoad.f pk R.ATL_STAT.n_loaded = 0 := by
  obtain ⟨y, hy⟩ : ∃ y : State, s.undoLoad = ({ y with imgSheets := [], boot := { y.boot with written := [] } } : State).setF pk
    R.ATL_STAT.n_loaded 0 := ⟨_, rfl⟩
  rw [hy]
  refine ⟨State.setF_part (p := .imgSheets) _ _ _ _ (by simp), ?_⟩
  rw [State.f_setF_self _ _ _ _ (by decide)]
  rfl

end

/-- What a failed candidate leaves. -/
structure State.ImageFailed (u : State) (k : Fin 2) (ks : List (Fin 2)) (r : Reason) (e : State) : Prop where
  reason : e.f pk (reasonFld k) = r.code
  cands : e.boot.cands = ks
  sheets : e.imgSheets = []
  loaded : e.f pk R.ATL_STAT.n_loaded = 0
  raised : 46 ∈ e.raised
  last : ks = [] → e.dev.st = .recovery ∧ e.boot.phase = .idle
  next : ks ≠ [] → e.dev.st = u.dev.st ∧ e.boot.phase = .stream

theorem State.imageFail_view {s : State} {k : Fin 2} {ks : List (Fin 2)} (hc : s.boot.cands = k :: ks) (r : Reason)
    (section_ unit check : Nat) : s.ImageFailed k ks r (s.imageFail r section_ unit check) := by
  obtain ⟨x, hx⟩ : ∃ x, x = (((s.setReason k r).setF pk R.DEV_BOOT_DIAG.unit unit).setF pk R.DEV_BOOT_DIAG.check check).setF pk
    R.DEV_BOOT_DIAG.section section_ := ⟨_, rfl⟩
  obtain ⟨y, hy⟩ : ∃ y, y = x.undoLoad.raise 46 := ⟨_, rfl⟩
  have hkey : pk + (reasonFld k).off = 0x10 := by rw [reasonFld_off]; rfl
  have hxreason : x.f pk (reasonFld k) = r.code := by
    have hdiag {t : State} {f : Fld} (v : Nat) (h : f.off = R.DEV_BOOT_DIAG.reg) : (t.setF pk f v).f pk (reasonFld k) = t.f pk (reasonFld k) :=
      State.f_setF_other _ _ _ _ _ _ (by rw [hkey, h]; decide)
    rw [hx, hdiag _ rfl, hdiag _ rfl, hdiag _ rfl, show s.setReason k r = s.setF pk (reasonFld k) r.code from rfl]
    obtain ⟨hw, hlo⟩ := reasonFld_bits k
    rw [State.f_setF_self _ _ _ _ (by omega), hw]
    exact Nat.mod_eq_of_lt r.code_lt
  have hyreason : y.f pk (reasonFld k) = r.code := by
    rw [hy, State.raise_f _ (by decide) (by rw [hkey]; decide), State.undoLoad_reason, hxreason]
  have hyloaded : y.f pk R.ATL_STAT.n_loaded = 0 := by
    rw [hy, State.raise_f _ (by decide) (by decide)]
    exact x.undoLoad_loaded.2
  have hysheets : y.imgSheets = [] := by
    rw [hy]
    exact (State.raise_part (p := .imgSheets) _ _ (by simp)).trans x.undoLoad_loaded.1
  have hyraised : 46 ∈ y.raised := by
    rw [hy]
    exact State.mem_raise fun d _ => rfl
  have hydev : y.dev = s.dev := by
    rw [hy, show (x.undoLoad.raise 46).dev = x.dev from (State.raise_part (p := .dev) _ _ (by simp)).trans
      (State.undoLoad_part (p := .dev) x (by simp)), hx]
    exact (State.setF_part (p := .dev) _ _ _ _ (by simp)).trans ((State.setF_part (p := .dev) _ _ _ _ (by simp)).trans
      ((State.setF_part (p := .dev) _ _ _ _ (by simp)).trans (State.setReason_part (p := .dev) _ _ _ (by simp))))
  cases ks with
  | nil =>
    have he : s.imageFail r section_ unit check = y.toRecovery := by
      unfold State.imageFail
      rw [hc]
      dsimp only
      rw [← hx, ← hy]
    obtain ⟨hst, -, hphase, hcands, -⟩ := y.toRecovery_view
    have hraised : 46 ∈ y.toRecovery.raised := by
      rw [show y.toRecovery.raised = y.raised from State.toRecovery_part (p := .raised) y (by simp)]
      exact hyraised
    rw [he]
    exact ⟨(State.toRecovery_f _ (by rw [reasonFld_off]; decide)).trans hyreason, hcands,
      (State.toRecovery_part (p := .imgSheets) y (by simp)).trans hysheets, (State.toRecovery_f _ (by decide)).trans hyloaded,
      hraised, fun _ => ⟨hst, hphase⟩,
      fun h => absurd rfl h⟩
  | cons k' ks =>
    obtain ⟨z, hz⟩ : ∃ z : State, z = { y with boot := { y.boot with phase := .stream, cands := k' :: ks } } := ⟨_, rfl⟩
    have he : s.imageFail r section_ unit check = z.setAlt k' := by
      unfold State.imageFail
      rw [hc]
      dsimp only
      rw [← hx, ← hy, ← hz]
    have hpart {p : Part} (h : p ≠ .store) : (z.setAlt k').part p = z.part p := State.setAlt_part _ _ (by simpa using h)
    have hf {f : Fld} (h : pk + f.off ≠ pk + R.DEV_IMG_ALT.seq.off) : (z.setAlt k').f pk f = y.f pk f :=
      (State.f_setF_other _ _ _ _ _ _ h).trans (by rw [hz]; rfl)
    have hboot : (z.setAlt k').boot = z.boot := hpart (p := .boot) (by simp)
    rw [he]
    refine ⟨(hf (by rw [hkey]; decide)).trans hyreason, ?_, ?_, (hf (by decide)).trans hyloaded, ?_, fun h => absurd h (by simp),
      fun _ => ⟨?_, ?_⟩⟩
    · rw [hboot, hz]
    · rw [show (z.setAlt k').imgSheets = z.imgSheets from hpart (p := .imgSheets) (by simp), hz]
      exact hysheets
    · rw [show (z.setAlt k').raised = z.raised from hpart (p := .raised) (by simp), hz]
      exact hyraised
    · rw [show (z.setAlt k').dev = z.dev from hpart (p := .dev) (by simp), hz, ← hydev]
    · rw [hboot, hz]

/-! ## The stream and the checks after it -/

section
variable {s : State} {k : Fin 2} {ks : List (Fin 2)}

theorem State.imageStream_fails (hp : s.boot.phase = .stream) (hc : s.boot.cands = k :: ks) {v : State} {r : Reason} {i : Nat}
    (hl : s.loadImage k = (v, some (r, i))) : s.imageStream = v.imageFail r i 0 0 := by
  unfold State.imageStream
  rw [if_pos hp, hc]
  dsimp only
  rw [hl]

theorem State.imageStream_passes (hp : s.boot.phase = .stream) (hc : s.boot.cands = k :: ks) {v : State}
    (hl : s.loadImage k = (v, none)) : s.imageStream = v.bootPhase .post := by
  unfold State.imageStream
  rw [if_pos hp, hc]
  dsimp only
  rw [hl]

theorem State.loadImage_kept {v : State} {x : Option (Reason × Nat)} (hl : s.loadImage k = (v, x)) :
    BootKept s v ∧ ∀ p : Part, p ∉ [.boot, .imgSheets, .store] → v.part p = s.part p := by
  have hv : (s.loadImage k).1 = v := congrArg Prod.fst hl
  rw [← hv]
  exact ⟨s.loadImage_boot k, fun p hp => s.loadImage_part k hp⟩

theorem State.ImageFailed.of_load {v e : State} {r : Reason} (hdev : v.dev = s.dev) (h : v.ImageFailed k ks r e) : s.ImageFailed k ks r e :=
  ⟨h.reason, h.cands, h.sheets, h.loaded, h.raised, h.last, fun hks => ⟨(h.next hks).1.trans (congrArg Dev.st hdev), (h.next hks).2⟩⟩

end

/-! ## An image that passes -/

theorem clB_high (c : Cl) : 0x100000 ≤ clB c := by
  revert c
  decide

section
variable {s : State} (k : Fin 2) (img : List Nat)

/-- The image's own record, before the memory port is released. -/
theorem State.imagePass_taken : ∃ w : State, s.imagePass k img = (if w.boot.fromOff then w else w.loadEnds)
    ∧ w.boot.phase = (if s.boot.fromOff then .restore else .monitor) ∧ w.boot.cands = [] ∧ w.boot.written = []
    ∧ w.boot.configured = configuredOf img ∧ w.f pk R.DEV_IMG_SEQ.seq = hdrSequence img % 2 ^ R.DEV_IMG_SEQ.seq.w
    ∧ w.dev = { s.dev with slot := k.val == 1, autorun := hdrAutorun img } := by
  unfold State.imagePass
  extract_lets s1 s2 routes refs rules b s3 s4
  have h2boot : s2.boot = s.boot := by
    show s2.part .boot = s.part .boot
    simp [s2, s1]
  have h1dev : s1.dev = s.dev := by
    show s1.part .dev = s.part .dev
    simp [s1]
  have h3seq : s3.f pk R.DEV_IMG_SEQ.seq = hdrSequence img % 2 ^ R.DEV_IMG_SEQ.seq.w :=
    (State.f_of_part (s := s3) (t := s1) ((State.with_boot_part s2 _ (by simp)).trans (State.modDev_part s1 _ (by simp))) _ _).trans
      (State.f_setF_self _ _ _ _ (by decide))
  have h4 : s4.boot = s3.boot ∧ s4.dev = s3.dev ∧ s4.f pk R.DEV_IMG_SEQ.seq = s3.f pk R.DEV_IMG_SEQ.seq := by
    refine State.each_keeps (P := fun t => t.boot = s3.boot ∧ t.dev = s3.dev ∧ t.f pk R.DEV_IMG_SEQ.seq = s3.f pk R.DEV_IMG_SEQ.seq)
      (fun r t ht => ?_) s3 ⟨rfl, rfl, rfl⟩
    obtain ⟨hb, hd, hf⟩ := ht
    dsimp only
    split
    next h =>
      have hclB := clB_high ⟨r.1 % 16, h⟩
      refine ⟨(State.setF_part (p := .boot) _ _ _ _ (by simp)).trans ((State.with_auto_part (p := .boot) t _ (by simp)).trans hb),
        (State.setF_part (p := .dev) _ _ _ _ (by simp)).trans ((State.with_auto_part (p := .dev) t _ (by simp)).trans hd), ?_⟩
      refine (State.f_setF_other _ _ _ _ _ _ ?_).trans ((State.f_of_part (State.with_auto_part t _ (by simp)) _ _).trans hf)
      simp only [pk, R.DEV_IMG_SEQ.seq, R.MC_CTRL.autostart]
      omega
    next => exact ⟨hb, hd, hf⟩
  obtain ⟨hboot, hdev, hseq⟩ := h4
  refine ⟨s4, rfl, ?_, ?_, ?_, ?_, hseq.trans h3seq, ?_⟩
  · rw [hboot, ← h2boot]
  · rw [hboot]
  · rw [hboot]
  · rw [hboot]
  · refine hdev.trans ?_
    show ({ s1.dev with slot := k.val == 1, autorun := hdrAutorun img } : Dev) = _
    rw [h1dev]

theorem State.imagePass_view :
    let e := s.imagePass k img
    e.boot.phase = (if s.boot.fromOff then .restore else .monitor) ∧ e.boot.cands = [] ∧ e.boot.written = []
      ∧ e.boot.configured = configuredOf img ∧ e.f pk R.DEV_IMG_SEQ.seq = hdrSequence img % 2 ^ R.DEV_IMG_SEQ.seq.w
      ∧ e.dev = { s.dev with slot := k.val == 1, autorun := hdrAutorun img } := by
  intro e
  obtain ⟨w, he, hphase, hcands, hwritten, hconf, hseq, hdev⟩ := State.imagePass_taken (s := s) k img
  have hpart {p : Part} (h : p ∉ [.mp, .store]) : e.part p = w.part p := by
    show (s.imagePass k img).part p = w.part p
    rw [he]
    split
    · rfl
    · exact State.loadEnds_part w h
  have hboot : e.boot = w.boot := hpart (p := .boot) (by simp)
  have hf : e.f pk R.DEV_IMG_SEQ.seq = w.f pk R.DEV_IMG_SEQ.seq := by
    show (s.imagePass k img).f pk R.DEV_IMG_SEQ.seq = _
    rw [he]
    split
    · rfl
    · exact congrArg R.DEV_IMG_SEQ.seq.get (State.loadEnds_word w (by decide))
  exact ⟨hboot ▸ hphase, hboot ▸ hcands, hboot ▸ hwritten, hboot ▸ hconf, hf.trans hseq, (hpart (p := .dev) (by simp)).trans hdev⟩

end

/-! ## The end of the boot -/

section
variable {s : State}

theorem State.bootRestore_view (hp : s.boot.phase = .restore) :
    let e := s.bootRestore
    e.boot.phase = .monitor ∧ e.boot.monAt = s.now ∧ e.mp.user = 0 ∧ e.dev.st = s.dev.st ∧ e.flash = s.flash ∧ e.sec = s.sec
      ∧ e.cl = s.cl := by
  intro e
  obtain ⟨x, hx⟩ : ∃ x : State, x = { s.logRestore with boot := { s.logRestore.boot with phase := .monitor, monAt := s.logRestore.now } } :=
    ⟨_, rfl⟩
  have he : e = x.loadEnds := by
    rw [hx]
    exact if_pos hp
  have hboot : e.boot = x.boot := by
    rw [he]
    exact State.loadEnds_part (p := .boot) x (by simp)
  refine ⟨?_, ?_, ?_, congrArg Dev.st (State.bootRestore_part (p := .dev) s (by simp)), State.bootRestore_part (p := .flash) s (by simp),
    State.bootRestore_part (p := .sec) s (by simp), State.bootRestore_part (p := .cl) s (by simp)⟩
  · rw [hboot, hx]
  · rw [hboot, hx]
    exact State.logRestore_part (p := .now) s (by simp)
  · rw [he]
    exact State.loadEnds_user x

/-- A configured cluster enters STOPPED; the others stay as they are. -/
theorem State.clusterReady_cl (s : State) (c : Cl) :
    (((s.clusterReady c).cl[c]).st = .stopped) ∧ ∀ y : Cl, y ≠ c → (s.clusterReady c).cl[y] = s.cl[y] := by
  obtain ⟨x, hx⟩ : ∃ x, x = (s.modCl c fun x => { x with setB := false }).effCluster c := ⟨_, rfl⟩
  obtain ⟨z, hz, hcl⟩ : ∃ z : State, s.clusterReady c = z.enter c .stopped 0 none ∧ z.cl = x.cl := by
    refine ⟨_, rfl, ?_⟩
    rw [hx]
    split
    next n _ => exact (State.gLoad_part (p := .cl) _ n _ (by simp)).trans (State.setF_part (p := .cl) _ _ _ _ (by simp))
    next => exact State.part_each (p := .cl) _ _ _ fun k t => State.levelDue_part t k (by simp)
  refine ⟨?_, fun y hy => ?_⟩
  · rw [hz]
    exact (State.enter_moves ..).st
  · rw [hz, State.enter_other _ _ _ _ hy, hcl, hx,
      show ((s.modCl c fun x => { x with setB := false }).effCluster c).cl = (s.modCl c fun x => { x with setB := false }).cl from
        State.effCluster_part (p := .cl) _ _ (by simp)]
    exact upd_ne _ _ hy

theorem State.each_clusterReady (l : List Cl) (s : State) :
    (∀ c : Cl, (c ∈ l ∨ (s.cl[c]).st = .stopped) → ((s.each l fun c t => t.clusterReady c).cl[c]).st = .stopped)
      ∧ ∀ c : Cl, c ∉ l → (s.each l fun c t => t.clusterReady c).cl[c] = s.cl[c] := by
  induction l generalizing s with
  | nil => exact ⟨fun c h => h.resolve_left (by simp), fun c _ => rfl⟩
  | cons a l ih =>
    obtain ⟨hin, hout⟩ := ih (s.clusterReady a)
    obtain ⟨hself, hother⟩ := s.clusterReady_cl a
    refine ⟨fun c h => hin c ?_, fun c h => ?_⟩
    · by_cases hca : c = a
      · subst hca
        exact .inr hself
      · rw [hother c hca]
        exact h.imp_left fun h => (List.mem_cons.1 h).resolve_left hca
    · exact (hout c fun hl => h (List.mem_cons_of_mem _ hl)).trans (hother c fun hca => h (hca ▸ List.mem_cons_self))

/-- READY is reached, and with it RUN where the image asks for it. -/
theorem State.ready_view (hp : s.boot.phase = .monitor) (ht : s.boot.monAt + 4000000 ≤ s.now) :
    let e := s.ready_
    e.boot.phase = .idle ∧ (∀ c ∈ s.boot.configured, (e.cl[c]).st = .stopped)
      ∧ (∀ c : Cl, c ∉ s.boot.configured → e.cl[c] = s.cl[c])
      ∧ (s.dev.autorun = false → e.dev.st = .ready ∧ e.dev.cause = 5) ∧ (s.dev.autorun = true → e.dev.st = .run ∧ e.dev.cause = 2)
      ∧ e.flash = s.flash ∧ e.sec.life = s.sec.life ∧ e.sec.slots = s.sec.slots := by
  intro e
  obtain ⟨x0, h0⟩ : ∃ x, x = (s.bootPhase .idle).modDev fun d => { d with st := .ready, cause := 5, pkgB := false } := ⟨_, rfl⟩
  obtain ⟨x1, h1⟩ : ∃ x, x = x0.modSync fun y => { y with
    cfgDue := false, period := x0.f pk R.DEV_SYNC_CFG.frame_period, comp := x0.f pk R.DEV_SYNC_CFG.sync_comp, lastAt := x0.now } := ⟨_, rfl⟩
  obtain ⟨x2, h2⟩ : ∃ x, x = x1.each x1.boot.configured fun c t => t.clusterReady c := ⟨_, rfl⟩
  obtain ⟨x3, h3⟩ : ∃ x, x = x2.each ([0, 1, 2] : List Can) fun n t => t.canReady n := ⟨_, rfl⟩
  obtain ⟨x4, h4⟩ : ∃ x, x = x3.each ([0, 1] : List Rg) fun r t => t.rbgHeld r := ⟨_, rfl⟩
  obtain ⟨x5, h5⟩ : ∃ x : State, x = { x4.drawn with sec := { x4.drawn.sec with sv := Config.freeWord x4.fresh, annAt := x4.drawn.now } } :=
    ⟨_, rfl⟩
  obtain ⟨x6, h6⟩ : ∃ x, x = x5.setF pk R.DEV_BOOT_STAT.boot_time (Nat.min 65535 ((x5.now - x5.boot.relAt) / 50000)) := ⟨_, rfl⟩
  have he : e = if x6.dev.autorun then x6.runEnter 2 else x6 := by
    rw [h6, h5, h4, h3, h2, h1, h0]
    exact if_pos ⟨hp, ht⟩
  have h65 {p : Part} (h : p ≠ .store) : x6.part p = x5.part p := by
    rw [h6]
    exact State.setF_part _ _ _ _ (by simpa using h)
  have h54 {p : Part} (h : p ∉ [.fresh, .sec]) : x5.part p = x4.part p := by
    rw [h5]
    exact (State.with_sec_part _ _ (by simp at h; simp [h])).trans (State.drawn_part _ (by simp at h; simp [h]))
  have h42 {p : Part} (h : ∀ m, p ∉ [.can, .store, .fresh, .mc m .models, .gates none]) : x4.part p = x2.part p := by
    simp [forall_and] at h
    rw [h4, State.part_each _ _ _ _ fun r t => State.rbgHeld_part t r (by simp [h]), h3,
      State.part_each _ _ _ _ fun n t => State.canReady_part t n (by simp [h])]
  have h21 {p : Part} (h : p = .boot ∨ p = .dev ∨ p = .flash ∨ p = .sec) : x2.part p = x1.part p := by
    rw [h2]
    exact State.part_each _ _ _ _ fun c t => State.clusterReady_part t c (by rcases h with rfl | rfl | rfl | rfl <;> simp)
  have h10 {p : Part} (h : p ≠ .sync) : x1.part p = x0.part p := by
    rw [h1]
    exact State.modSync_part _ _ (by simpa using h)
  have h6boot : x6.boot = { s.boot with phase := .idle } := by
    rw [show x6.boot = x0.boot from (h65 (p := .boot) (by simp)).trans ((h54 (p := .boot) (by simp)).trans
      ((h42 (p := .boot) (by simp)).trans ((h21 (p := .boot) (by simp)).trans (h10 (p := .boot) (by simp))))), h0]
    rfl
  have h6dev : x6.dev = { s.dev with st := .ready, cause := 5, pkgB := false } := by
    rw [show x6.dev = x0.dev from (h65 (p := .dev) (by simp)).trans ((h54 (p := .dev) (by simp)).trans
      ((h42 (p := .dev) (by simp)).trans ((h21 (p := .dev) (by simp)).trans (h10 (p := .dev) (by simp))))), h0]
    rfl
  have h6flash : x6.flash = s.flash := by
    rw [show x6.flash = x0.flash from (h65 (p := .flash) (by simp)).trans ((h54 (p := .flash) (by simp)).trans
      ((h42 (p := .flash) (by simp)).trans ((h21 (p := .flash) (by simp)).trans (h10 (p := .flash) (by simp))))), h0]
    rfl
  have h4sec : x4.sec = s.sec := by
    rw [show x4.sec = x0.sec from (h42 (p := .sec) (by simp)).trans ((h21 (p := .sec) (by simp)).trans (h10 (p := .sec) (by simp))), h0]
    rfl
  have h6sec : x6.sec.life = s.sec.life ∧ x6.sec.slots = s.sec.slots := by
    rw [show x6.sec = x5.sec from h65 (p := .sec) (by simp), h5, ← h4sec]
    exact ⟨rfl, rfl⟩
  have h1conf : x1.boot.configured = s.boot.configured := by
    rw [show x1.boot = x0.boot from h10 (p := .boot) (by simp), h0]
    rfl
  have h1cl : x1.cl = s.cl := by
    rw [show x1.cl = x0.cl from h10 (p := .cl) (by simp), h0]
    rfl
  have h6cl : x6.cl = x2.cl := (h65 (p := .cl) (by simp)).trans ((h54 (p := .cl) (by simp)).trans (h42 (p := .cl) (by simp)))
  have hcl := State.each_clusterReady x1.boot.configured x1
  rw [← h2, h1conf] at hcl
  have hkeep {p : Part} (h : p ∉ [.auto, .dev, .sync]) : e.part p = x6.part p := by
    rw [he]
    split
    · exact State.runEnter_part x6 2 h
    · rfl
  have hecl : e.cl = x2.cl := (hkeep (p := .cl) (by simp)).trans h6cl
  have hesec : e.sec = x6.sec := hkeep (p := .sec) (by simp)
  have hauto : x6.dev.autorun = s.dev.autorun := by rw [h6dev]
  refine ⟨?_, fun c hc => ?_, fun c hc => ?_, fun ha => ?_, fun ha => ?_, (hkeep (p := .flash) (by simp)).trans h6flash, ?_, ?_⟩
  · rw [show e.boot = x6.boot from hkeep (p := .boot) (by simp), h6boot]
  · rw [hecl]
    exact hcl.1 c (.inl hc)
  · rw [hecl, hcl.2 c hc, h1cl]
  · rw [he, if_neg (by rw [hauto, ha]; decide), h6dev]
    exact ⟨rfl, rfl⟩
  · rw [he, if_pos (by rw [hauto, ha])]
    exact ⟨rfl, rfl⟩
  · rw [hesec]
    exact h6sec.1
  · rw [hesec]
    exact h6sec.2

end

end Sys2Proof.Machine

open Sys2Proof Sys2Proof.Machine

/-- Settles O45, by what a load leaves of the boot's record, and by what a failed and a passed candidate leave. -/
theorem bootCompletes : Obligations.BootCompletes := by
  intro s dt u
  have hu : s.elapse dt = u := rfl
  clear_value u
  intro ph
  refine ⟨fun k ks hc => ?_, fun hp => ?_, fun hp ht => ?_⟩
  · intro failed
    have hfailed {r : Reason} {e : State} (h : u.ImageFailed k ks r e) (hpart : ∀ p : Part, p = .flash ∨ p = .sec ∨ p = .cl ∨ p = .can →
        e.part p = u.part p) : failed r e :=
      ⟨h.reason, h.cands, h.sheets, h.loaded, h.raised, h.last, h.next, hpart .flash (by simp), hpart .sec (by simp), hpart .cl (by simp),
        hpart .can (by simp)⟩
    have hstream {p : Part} (h : p = .flash ∨ p = .sec ∨ p = .cl ∨ p = .can) : u.imageStream.part p = u.part p :=
      State.imageStream_part u (by rcases h with rfl | rfl | rfl | rfl <;> simp)
    have hpost {p : Part} (h : p = .flash ∨ p = .sec ∨ p = .cl ∨ p = .can) : u.imagePost.part p = u.part p :=
      State.imagePost_part u (by rcases h with rfl | rfl | rfl | rfl <;> simp)
    refine ⟨fun hp v hl => ?_, fun hp v r i hl => ?_, fun hp r i x y hr => ?_, fun hp hr => ?_⟩
    · obtain ⟨⟨w, hboot⟩, hpart⟩ := State.loadImage_kept hl
      have hcands : (v.bootPhase .post).boot.cands = u.boot.cands := by
        show v.boot.cands = _
        rw [hboot]
      exact State.gives_eq (eff := (·.imageStream)) rfl hu (State.imageStream_passes hp hc hl) ⟨rfl, hcands, rfl, rfl,
        hpart .flash (by simp), hpart .sec (by simp), hpart .dev (by simp), hpart .cl (by simp), hpart .can (by simp)⟩
    · obtain ⟨⟨w, hboot⟩, hpart⟩ := State.loadImage_kept hl
      have hvc : v.boot.cands = k :: ks := by rw [hboot, ← hc]
      have hview : u.ImageFailed k ks r u.imageStream := by
        rw [State.imageStream_fails hp hc hl]
        exact .of_load (hpart .dev (by simp)) (State.imageFail_view hvc r i 0 0)
      exact State.gives_after (eff := (·.imageStream)) rfl hu (hfailed hview fun p h => hstream h)
    · have he : u.imagePost = u.imageFail r i x y := by
        unfold State.imagePost
        rw [if_pos hp, hc]
        dsimp only
        rw [hr]
      have hview : u.ImageFailed k ks r u.imagePost := by
        rw [he]
        exact State.imageFail_view hc r i x y
      exact State.gives_after (eff := (·.imagePost)) rfl hu (hfailed hview fun p h => hpost h)
    · have he : u.imagePost = u.imagePass k (u.imageWords k) := by
        unfold State.imagePost
        rw [if_pos hp, hc]
        dsimp only
        rw [hr]
      have hview := State.imagePass_view (s := u) k (u.imageWords k)
      rw [← he] at hview
      obtain ⟨hphase, hcands, hwritten, hconf, hseq, hdev⟩ := hview
      exact State.gives_after (eff := (·.imagePost)) rfl hu ⟨hphase, hcands, hwritten, hconf, hseq, hdev, hpost (p := .flash) (by simp),
        hpost (p := .sec) (by simp), hpost (p := .cl) (by simp), hpost (p := .can) (by simp)⟩
  · exact State.gives_after (eff := (·.bootRestore)) rfl hu (State.bootRestore_view hp)
  · exact State.gives_after (eff := (·.ready_)) rfl hu (State.ready_view hp ht)
end
